-- ==== Sys2Proof/Word.lean ====
section
/-! DEFINITION. The word types of the YT256 and the canonical sparse table that holds every indexed piece of state. -/
namespace Sys2Proof

/-- A register word (R13, "Registers are 32 bits wide"). -/
abbrev Word := BitVec 32
/-- A byte of memory or of a frame. -/
abbrev Byte := BitVec 8
/-- A field time in units of 1/16 ns (R6). -/
abbrev FTime := BitVec 64
/-- A 64-bit container of a position, velocity or acceleration (R6, R7). -/
abbrev Val := BitVec 64
/-- A Q1.23 value (R6). -/
abbrev Q23 := BitVec 24

/-- A sparse table: keys strictly rising, and no entry equal to what an unlisted key reads as. -/
abbrev Tbl (α : Type) := List (Nat × α)

end Sys2Proof
end

