-- ==== Sys2Proof/Syntax.lean ====
section
/-! DEFINITION. The commands of the YT256: one constructor per row of the opcode table, with the operands the spec gives the
row, and the types of those operands. -/
namespace Sys2Proof

/-- The path of a register access or a mailbox request: BAR0 through the host (P0), or the debug access path (P8) (R408, R448). -/
inductive RegPath where
  | p0 | p8
deriving DecidableEq, Repr

/-- What a port found while it received a frame (R89): code violations inside the frame, code violations between the frame before
and this one, the SEQ and the CRC it carried, and whether EOFX ended it, its format was good, the core-side queue was full, and its SOF
came outside the quiet window plus D_prop. -/
structure RxQual where
  cv : Nat
  cvBetween : Nat
  seq : BitVec 8
  crc : Word
  eofx : Bool
  fmtOk : Bool
  full : Bool
  lateWin : Bool
deriving DecidableEq, Repr

/-- Why a gondola is declared lost (R87). -/
inductive LossCause where
  | portDown | ringIsolated | threeMissing
deriving DecidableEq, Repr

/-- The three ports of a gondola (R70). -/
inductive GPort where
  | up | thru | branch
deriving DecidableEq, Repr

/-- One end of a cable segment: a device port, or a port of a gondola (R69). -/
inductive LinkEnd where
  | dev (t : Fin 25)
  | gon (node : Nat) (port : GPort)
deriving DecidableEq, Repr

/-- What a change of a quadrature pair or of Hall inputs is (R108, R129). -/
inductive QTrans where
  | fwd | back | illegal
deriving DecidableEq, Repr

/-- The outcome of a host-memory read made for a command (R384): the items, an error on the bus, or a double-bit error. -/
inductive Dma (α : Type) where
  | ok (xs : List α)
  | readErr
  | memErr
deriving DecidableEq, Repr

/-- A Mineuri frame (R57): type, route, address, sequence number, tag and body. -/
structure Frame where
  typ : BitVec 4
  route : BitVec 2
  addr : BitVec 6
  seq : BitVec 8
  tag : BitVec 8
  body : List Byte
deriving DecidableEq, Repr

/-- Where a descriptor came from: a submission ring (P0), or a gondola's upstream stream 3 (P9, R410). -/
inductive DescSrc where
  | sq (q : Fin 32)
  | peer (t : Fin 25) (pos : Fin 64)
deriving DecidableEq, Repr

/-- The head of a descriptor (R378): source, FLAGS, TAG, AXIS, and whether a reserved bit or a reserved field value of the
descriptor is set. -/
structure DescHdr where
  src : DescSrc
  flags : BitVec 8
  tag : BitVec 16
  axis : BitVec 8
  rsv : Bool
deriving DecidableEq, Repr

/-- A command descriptor without its head (R378, R380): what a gondola may send on stream 3 (R410). -/
inductive PeerCmd where
  | nop
  | axset (value : BitVec 64) (t : FTime) (valid : Bool) (req : BitVec 5)
  | move (target : BitVec 64) (vl al dl jl : Word) (mf : BitVec 3)
  | stop (kind scope : BitVec 8)
  | resume
  | gear (mode mkind master : BitVec 8) (gf : BitVec 2) (num den : Word) (offset lr mpos : BitVec 64)
  | camLoad (cam : BitVec 8) (cf : BitVec 4) (base n mstep : Word) (addr : BitVec 64) (xfer : Word) (pts : Dma (BitVec 64))
  | camSelect (cam : BitVec 8) (cf : BitVec 4) (cphase : BitVec 64)
  | camDeselect (cam : BitVec 8)
  | camFree (cam : BitVec 8)
  | cmpadd (addr : BitVec 64) (count : BitVec 16) (raddr : BitVec 64) (entries : Dma (BitVec 256))
  | cmpdel (by_ : BitVec 8) (index : BitVec 16) (target tag mask : BitVec 8)
  | latarm (op unit : BitVec 8) (setcfg : Bool) (cfg : Word)
  | read (object index : BitVec 16) (addr : BitVec 64)
  | cfgstage (addr : BitVec 64) (count : BitVec 16) (pairs : Dma (BitVec 64))
  | commit (groups : BitVec 8) (axsel : BitVec 256) (at_ : FTime)
  | migrate (src dst : BitVec 8) (all : Bool) (axes : BitVec 256) (at_ : FTime)
  | txts (port : BitVec 8)
  | other (opc : BitVec 8)
deriving DecidableEq, Repr

/-- What a motion command keeps until its instant (R379). -/
inductive MotionOp where
  | move (target : BitVec 64) (vl al dl jl : Word) (mf : BitVec 3)
  | resume
  | gear (mode mkind master : BitVec 8) (gf : BitVec 2) (num den : Word) (offset lr mpos : BitVec 64)
  | camSelect (cam : BitVec 8) (cf : BitVec 4) (cphase : BitVec 64)
  | camDeselect (cam : BitVec 8)
  /-- A CAM LOAD whose points come through the stream port (R405). -/
  | camLoad (cam : BitVec 8) (cf : BitVec 4) (base n mstep xfer : Word)
  | other
deriving DecidableEq, Repr

/-- What the load of a lane image finds (R369, R506): the bytes read from host memory, or none after a read error; and whether
the self-test pass passed. -/
structure LoadResult where
  image : Option (List Byte)
  testOk : Bool
deriving DecidableEq, Repr

/-- One result of the calibration (R533, R537): its index and its words, as CAL_READ returns them. -/
structure CalResult where
  index : BitVec 14
  w0 : Word
  w1 : Word
  w2 : Word
  w3 : Word
deriving DecidableEq, Repr

/-- What a STOPREQ word asks of the anchor (R454): STOP0 of a mask by ANC_REQ0, STOP0 of a mask by the bus-energy manager, or STOP1 by
ANC_REQ1. -/
inductive StopReqSrc where
  | req0 (mask : BitVec 25)
  | bus (mask : BitVec 25)
  | req1
deriving DecidableEq, Repr

/-- The arithmetic slot of a lane instruction (R334, R338-R341). -/
inductive ArithOp where
  | nop
  | mpy (ad : Fin 4) (x y : Fin 16)
  | mac (ad : Fin 4) (x y : Fin 16)
  | msu (ad : Fin 4) (x y : Fin 16)
  | aclr (ad : Fin 4)
  | ald (ad : Fin 4) (x : Fin 16)
  | aadd (ad as_ : Fin 4)
  | asub (ad as_ : Fin 4)
  | amov (ad as_ : Fin 4)
  | aneg (ad as_ : Fin 4)
  | aabs (ad as_ : Fin 4)
  | acmp (ad as_ : Fin 4)
  | add (dd x y : Fin 16)
  | adds (dd x y : Fin 16)
  | sub (dd x y : Fin 16)
  | subs (dd x y : Fin 16)
  | and (dd x y : Fin 16)
  | or (dd x y : Fin 16)
  | xor (dd x y : Fin 16)
  | min (dd x y : Fin 16)
  | max (dd x y : Fin 16)
  | shl (dd x y : Fin 16)
  | shr (dd x y : Fin 16)
  | sra (dd x y : Fin 16)
  | cmp (x y : Fin 16)
  | neg (dd x : Fin 16)
  | abs (dd x : Fin 16)
  | addi (dd x : Fin 16) (imm : BitVec 14)
  | addis (dd x : Fin 16) (imm : BitVec 14)
  | andi (dd x : Fin 16) (imm : BitVec 14)
  | shli (dd x : Fin 16) (imm : BitVec 14)
  | shri (dd x : Fin 16) (imm : BitVec 14)
  | srai (dd x : Fin 16) (imm : BitVec 14)
  | cmpi (x : Fin 16) (imm : BitVec 14)
deriving DecidableEq, Repr

/-- The move slot of a lane instruction (R334, R342-R345). -/
inductive MoveOp where
  | nop
  | ld (reg : BitVec 6) (p : Fin 8) (am : BitVec 2) (mi : Fin 8) (off : BitVec 16)
  | st (reg : BitVec 6) (p : Fin 8) (am : BitVec 2) (mi : Fin 8) (off : BitVec 16)
  | ldq (reg : BitVec 6) (p : Fin 8) (am : BitVec 2) (mi : Fin 8) (off : BitVec 16)
  | stq (reg : BitVec 6) (p : Fin 8) (am : BitVec 2) (mi : Fin 8) (off : BitVec 16)
  | lds (reg : BitVec 6) (p : Fin 8) (am : BitVec 2) (mi : Fin 8) (off : BitVec 16)
  | sts (reg : BitVec 6) (p : Fin 8) (am : BitVec 2) (mi : Fin 8) (off : BitVec 16)
  | ldqs (reg : BitVec 6) (p : Fin 8) (am : BitVec 2) (mi : Fin 8) (off : BitVec 16)
  | stqs (reg : BitVec 6) (p : Fin 8) (am : BitVec 2) (mi : Fin 8) (off : BitVec 16)
  | out (reg : BitVec 6) (p : Fin 8) (am : BitVec 2) (mi : Fin 8) (off : BitVec 16)
  | ld2 (reg : BitVec 6) (p : Fin 8) (am : BitVec 2) (mi : Fin 8) (off : BitVec 16)
  | st2 (reg : BitVec 6) (p : Fin 8) (am : BitVec 2) (mi : Fin 8) (off : BitVec 16)
  | mov (rd rs : BitVec 6)
  | ldi (rd : BitVec 6) (imm : BitVec 24)
  | wdif (ad : Fin 4) (pa pb : Fin 8) (sh : BitVec 7)
  | wadd (ad : Fin 4) (pa : Fin 8) (sh : BitVec 7)
  | br (cond : BitVec 4) (tgt : BitVec 12)
  | brl (cond : BitVec 4) (tgt : BitVec 12)
  | ret (cond : BitVec 4)
  | loop (fromReg : Bool) (cnt : BitVec 12) (tgt : BitVec 12)
  | rep (fromReg : Bool) (cnt : BitVec 12)
  | end_
  | rota
deriving DecidableEq, Repr


/-- The commands of the YT256, one per row of the opcode table. -/
inductive Instr where
  /-- CORE_PLL_LOCK (R34): When the core PLL locks, field time starts counting from 0 and advances by the increment every core cycle. -/
  | corePllLock
  /-- PORESET_ASSERT (R525): Assertion of PORESET_N resets the shell, analogue core, anchor, field I/O and endpoint, and loses LPDDR4X contents. -/
  | poresetAssert
  /-- PORESET_RELEASE (R524): Release of PORESET_N starts the device, samples BOOTSEL and starts the boot ROM of pilot 0. -/
  | poresetRelease (bootsel : BitVec 2)
  /-- SYSRESET_ASSERT (R525): Assertion of SYSRESET_N resets the shell, analogue core and endpoint but not the anchor or field I/O. -/
  | sysresetAssert
  /-- SYSRESET_RELEASE (R524): Release of SYSRESET_N restarts the shell synchronously in the core domain. -/
  | sysresetRelease
  /-- RAIL_FAULT_RESET (R523): A logic rail below its minimum for 10 µs resets the device as a power-on reset. -/
  | railFaultReset
  /-- RAIL_RECOVERY (R523): After every logic rail has been back in range for 1 ms the device leaves the reset of R523. -/
  | railRecovery
  /-- BOOT_SLOT_VERIFIED (R530): Verification of a pilot image slot completes, and the pilots start or the other slot is tried or BOOTFAIL is reached. -/
  | bootSlotVerified (slot : Fin 2) (fail : BitVec 3) (version : Word)
  /-- STARTUP_LANE_LOAD_COMPLETE (R531): The active pilot finishes loading the stock lane image into all lanes and SU_STAT.PHASE becomes READY. -/
  | startupLaneLoadComplete (failed : BitVec 16)
  /-- DDR_TRAINING_COMPLETE (R531): LPDDR4X initialisation and training finishes and DDRREADY is set or stays 0. -/
  | ddrTrainingComplete (ok : Bool)
  /-- ALT_SLOT_VERIFY_COMPLETE (R531): The active pilot finishes verifying the slot not booted and sets VALA or VALB and the version. -/
  | altSlotVerifyComplete (ok : Bool) (version : Word)
  /-- CALIBRATION_START (R533): When the T24 link first comes up the shell sequencer starts calibrating the analogue core converters. -/
  | calibrationStart
  /-- CALIBRATION_COMPLETE (R533): The calibration sequence ends, sets CALDONE and CALFAIL bits and applies the corrections. -/
  | calibrationComplete (fail : BitVec 16) (results : List CalResult)
  /-- ENDPOINT_RESET (R396): PERST# or a function level reset resets the endpoint, HIF registers except watchdog settings, rings and backlogs. -/
  | endpointReset
  /-- DEBUG_HALT (R248): A JTAG debug halt stops the core domain, every lane and the T24 word clock, holding home outputs at their last levels. -/
  | debugHalt
  /-- DEBUG_RELEASE (R248): Release of a debug halt resumes the core domain and the home gondola's tick deadlines. -/
  | debugRelease
  /-- SCRUBBER_LINE (R27): Every 1,024 core cycles the scrubber reads and corrects one 64-byte line of shared SRAM. -/
  | scrubberLine
  /-- REGISTER_WRITE (R12): A write to a register without a row of its own takes effect by its field types, landing in shadows for sh fields. -/
  | registerWrite (via : RegPath) (off : Nat) (v : Word) (whole : Bool)
  /-- RC_READ (R434): A read of a register with rc fields returns it and clears every rc bit returned as 1. -/
  | rcRead (via : RegPath) (off : Nat) (whole : Bool)
  /-- COMMIT_OFFER (R438): A write of GLB_COMMIT with group bits offers an immediate or scheduled commit, captured at acceptance into CHECK. -/
  | commitOffer (via : RegPath) (v : Word)
  /-- COMMIT_CANCEL (R442): A write of GLB_COMMIT.CANCEL discards the commit in CHECK or ARMED unless it has staged gondola registers. -/
  | commitCancel (via : RegPath)
  /-- COMMIT_CHECK_COMPLETE (R439): The active pilot finishes checking a commit, which is refused, applied if immediate, or armed if scheduled. -/
  | commitCheckComplete
  /-- COMMIT_APPLY (R440): A commit loads its captured values into the working copies of its groups in one core cycle and sends COMMIT events to the lanes. -/
  | commitApply
  /-- FT_NOW (R39): Mailbox read of field time, fraction and increment at the cycle of acceptance. -/
  | ftNow (set : Fin 4) (via : RegPath)
  /-- FT_STEP (R37): Mailbox write stepping field time by a signed offset, refused while axes are in the plan. -/
  | ftStep (set : Fin 4) (via : RegPath) (offset : BitVec 64)
  /-- FT_TSI (R43): Mailbox pop of the oldest stamp of one PPS or TSI input queue. -/
  | ftTsi (set : Fin 4) (via : RegPath) (index : BitVec 14)
  /-- FT_TXTS (R42): Mailbox pop of the oldest transmit time-stamp entry of an Ethernet port. -/
  | ftTxts (set : Fin 4) (via : RegPath) (index : BitVec 14)
  /-- FT_TC (R45): Mailbox write of a time comparator's target and period, refused with RANGE for an invalid period. -/
  | ftTc (set : Fin 4) (via : RegPath) (index : BitVec 14) (target period : BitVec 64)
  /-- TC_ARM (R45): A write of FTM_TCn_CTL.EN = 1 arms a time comparator, firing LATE next cycle if its target has passed. -/
  | tcArm (via : RegPath) (n : Fin 8) (v : Word)
  /-- TIME_COMPARATOR_FIRE (R45): A time comparator fires when field time reaches its target, runs its actions and advances or disarms. -/
  | timeComparatorFire (n : Fin 8)
  /-- TC_PULSE_END (R45): The comparator output raised by ACT_PLS falls 1 ms after its firing. -/
  | tcPulseEnd (n : Fin 8)
  /-- PPS_OUT_RISE (R44): PPS_OUT rises at the first cycle that reaches the configured phase of each second. -/
  | ppsOutRise
  /-- PPS_OUT_FALL (R44): PPS_OUT falls after its configured width. -/
  | ppsOutFall
  /-- TSI_EDGE (R43): A selected edge on PPS_IN or TSI0–TSI2 is stamped into that input's queue or lost on overflow. -/
  | tsiEdge (k : Fin 4) (rising : Bool)
  /-- TIME_DISTRIBUTION (R64): Every TDIST interval the device queues a TIME frame on each tether T0–T23. -/
  | timeDistribution
  /-- PORT_ENABLE (R69): A write of TTH_Tn_CTL.EN enables a tether port into TRN1 or returns it to OFF. -/
  | portEnable (via : RegPath) (t : Fin 25) (v : Word)
  /-- RETRAIN (R69): A write of TTH_Tn_CTL.RETRAIN sends the port to DOWN and retraining. -/
  | retrain (via : RegPath) (t : Fin 25) (v : Word)
  /-- TRN1_COMPLETE (R69): After symbol lock and 64 clean training sets a port moves from TRN1 to TRN2. -/
  | trn1Complete (e : LinkEnd)
  /-- TRN2_COMPLETE (R69): After 16 TRN2 sets each way a port goes to UP with compatible roles or MISWIRE otherwise. -/
  | trn2Complete (e : LinkEnd) (role : BitVec 8) (cap : BitVec 8)
  /-- TRAINING_TIMEOUT (R69): A port that stays 10 ms in TRN1 or TRN2 restarts TRN1 and counts RETRAIN. -/
  | trainingTimeout (e : LinkEnd)
  /-- LINK_LOSS (R71): A port in UP with no valid symbol for 320 ns or 16 code violations in 256 symbols goes to DOWN. -/
  | linkLoss (e : LinkEnd) (cv : Nat) (now : FTime)
  /-- ENUM_START (R88): A write of TTH_Tn_ENUM.START starts a full enumeration, refused while the tether has axes in the plan. -/
  | enumStart (via : RegPath) (t : Fin 25) (v : Word)
  /-- ENUM_ATTACH (R86): A write of TTH_Tn_ENUM.ATTACH starts an attach enumeration for gondolas without a position. -/
  | enumAttach (via : RegPath) (t : Fin 25) (v : Word)
  /-- ENUM_DONE (R72): An ENUM with DONE reaching the device ends enumeration, or continues a ring enumeration from the odd port. -/
  | enumDone (t : Fin 25) (next : BitVec 8) (ovr : Bool) (epoch : BitVec 8) (endMm : Nat) (q : RxQual)
  /-- IDENT_RECEIVE (R93): An IDENT frame delivers a gondola's identity block and sets IDENT_NEW. -/
  | identReceive (t : Fin 25) (pos : Fin 64) (block : List Byte) (hops : Fin 64) (cableMm : Nat) (q : RxQual)
  /-- TICK_UP_RECEIVE (R16): A checked TICK_UP frame is routed record by record into the owning lanes' inboxes and raises frame-arrival events. -/
  | tickUpReceive (t : Fin 25) (addr : Fin 64) (seq : BitVec 8) (fixed : BitVec 80) (recs : List (BitVec 128)) (q : RxQual)
  /-- TICK_UP_MISSING (R89): An expected TICK_UP not received by the end of its tick counts UPMISS. -/
  | tickUpMissing (t : Fin 25) (pos : Fin 64)
  /-- GONDOLA_LOST (R87): A gondola is declared lost on a down port, an isolating break or three missing TICK_UPs, with those served through it. -/
  | gondolaLost (t : Fin 25) (pos : Fin 64) (cause : LossCause)
  /-- DLY_REQ_RECEIVE (R65): A device port answers a DLY_REQ with a DLY_RSP carrying its arrival and departure times. -/
  | dlyReqReceive (t : Fin 25) (t1 : FTime) (q : RxQual)
  /-- CFG_RSP_RECEIVE (R67): A CFG_RSP answers an outstanding CFG request matched by its TAG. -/
  | cfgRspReceive (t : Fin 25) (pos : Fin 64) (tag : BitVec 8) (status : BitVec 16) (data : List Byte) (q : RxQual)
  /-- BULK_RECEIVE (R68): An upstream BULK frame sent against a granted credit delivers stream data to the device. -/
  | bulkReceive (t : Fin 25) (pos : Fin 64) (stream : BitVec 8) (last : Bool) (offset : Word) (data : List Byte) (q : RxQual)
  /-- CREDIT_RECEIVE (R68): A CREDIT frame returns downstream BULK credits, saturating at 15. -/
  | creditReceive (t : Fin 25) (pos : Fin 64) (count : BitVec 4) (q : RxQual)
  /-- RING_BREAK (R83): A BRK received at a ring port records the segment and re-homes the gondolas between break and split. -/
  | ringBreak (t : Fin 25) (seg : BitVec 8)
  /-- TICK_DN_TRANSMIT (R18): A transmit assembler sends a ready tick frame after any frame being serialised. -/
  | tickDnTransmit (e : LinkEnd) (now : FTime)
  /-- NON_TICK_FRAME_START (R77): A waiting non-tick frame starts on a tether when the quiet-window start rule and credits allow. -/
  | nonTickFrameStart (e : LinkEnd) (now : FTime)
  /-- GONDOLA_TICK_DN_RECEIVE (R102): A gondola accepts or discards a TICK_DN and applies accepted records at its apply time. -/
  | gondolaTickDnReceive (node : Nat) (addr : Fin 2) (arrival : FTime) (crc : Word) (cv : Nat) (seq : BitVec 8) (fixed : BitVec 80) (recs : List (BitVec 128))
  /-- VECTOR_CHANGE (R104): A gondola executes a VECTOR change V1 or V2 at its commanded time subject to minimum dwell. -/
  | vectorChange (node : Nat) (ch : Fin 16) (second : Bool) (now : FTime)
  /-- SAMPLE_INSTANT (R106): A gondola takes currents and counters of a channel at a commanded or derived sample instant. -/
  | sampleInstant (node : Nat) (ch : Fin 16) (second : Bool) (now : FTime) (ia ib : BitVec 24) (ssi : Option Word)
  /-- GONDOLA_TICK_UP_SEND (R107): A gondola sends its TICK_UP within t_sr of the latest sample of the tick. -/
  | gondolaTickUpSend (node : Nat) (addr : Fin 2) (now : FTime) (vbus : BitVec 16) (temp : BitVec 8)
  /-- TICK_DN_DEADLINE (R109): A tick with no accepted TICK_DN by its deadline is missed and the miss action applies to due channels. -/
  | tickDnDeadline (node : Nat) (now : FTime)
  /-- STREAM_SILENCE (R110): After SILN consecutive missed ticks a gondola turns every leg off and sets G_STAT.SIL. -/
  | streamSilence (node : Nat) (now : FTime)
  /-- GONDOLA_CFG_WR (R122): A gondola writes its registers from a CFG_WR, refusing read-only or unimplemented addresses. -/
  | gondolaCfgWr (node : Nat) (broadcast : Bool) (tag : BitVec 8) (addr : Word) (data : List Word) (active : BitVec 16) (now : FTime)
  /-- GONDOLA_CFG_RD (R67): A gondola answers a CFG_RD with the data read in a CFG_RSP. -/
  | gondolaCfgRd (node : Nat) (tag : BitVec 8) (addr : Word) (count : BitVec 16)
  /-- STAGED_ACTIVATION (R122): Staged gondola registers take effect together at the first tick start reaching G_ACT. -/
  | stagedActivation (node : Nat) (now : FTime)
  /-- G_CLR_FORCE (R113): G_CLR.FORCE releases the forcing latch of selected channels whose cause is no longer active. -/
  | gClrForce (node : Nat) (broadcast : Bool) (tag : BitVec 8) (chans : BitVec 16) (active : BitVec 16) (now : FTime)
  /-- G_CLR_SIL (R110): G_CLR.SIL clears stream silence so later records take effect. -/
  | gClrSil (node : Nat) (broadcast : Bool) (tag : BitVec 8)
  /-- G_CLR_RIP (R121): G_CLR.RIP releases the rip latch only if the loop has been energised 10 ms. -/
  | gClrRip (node : Nat) (broadcast : Bool) (tag : BitVec 8)
  /-- G_CLR_CNT (R122): G_CLR.CNT clears every gondola counter. -/
  | gClrCnt (node : Nat) (broadcast : Bool) (tag : BitVec 8)
  /-- FAULT_FORCING (R112): A tripped gondola protection forces the channel's legs to SAFE within 1 µs and latches. -/
  | faultForcing (node : Nat) (ch : Fin 16) (now : FTime)
  /-- GONDOLA_EVENT_ACCEPT (R116): A gondola queues an accepted EVENT frame, executing it at once if late or discarding it if full. -/
  | gondolaEventAccept (node : Nat) (exec : FTime) (out : BitVec 8) (act : BitVec 8) (pw : BitVec 16) (id : Word) (now : FTime)
  /-- EVENT_EXECUTE (R115): A gondola executes a queued EVENT action on its event output at EXEC. -/
  | eventExecute (node : Nat) (now : FTime)
  /-- EVENT_PULSE_RETURN (R115): A pulse EVENT output returns to inactive PW µs after it was set. -/
  | eventPulseReturn (node : Nat) (out : Fin 16) (now : FTime)
  /-- GONDOLA_TIME_RECEIVE (R117): A gondola sets its time target from a TIME frame, stepping or slewing, and forwards it updated. -/
  | gondolaTimeReceive (node : Nat) (port : GPort) (origin : FTime) (corr pathdly : BitVec 64) (incInt : BitVec 8) (incFrac : Word) (stepCnt : BitVec 16) (hops : BitVec 8) (sof : FTime)
  /-- GONDOLA_LOCK_LOSS (R118): A gondola clears LOCK after four TIME intervals without a TIME frame. -/
  | gondolaLockLoss (node : Nat) (now : FTime)
  /-- GONDOLA_DLY_REQ (R119): A gondola sends a DLY_REQ upstream at least once per TIME interval. -/
  | gondolaDlyReq (node : Nat)
  /-- GONDOLA_DLY_RSP_RECEIVE (R65): A gondola computes its upstream segment delay from a DLY_RSP. -/
  | gondolaDlyRspReceive (node : Nat) (t1 t2 t3 now : FTime)
  /-- GONDOLA_ENUM_RECEIVE (R72): A gondola takes a position from an ENUM, sends IDENT and passes the ENUM on or back. -/
  | gondolaEnumReceive (node : Nat) (port : GPort) (next : BitVec 8) (done ovr attach : Bool) (epoch : BitVec 8) (now : FTime)
  /-- GONDOLA_BULK_RECEIVE (R123): A gondola stores a downstream BULK stream frame and returns its credit. -/
  | gondolaBulkReceive (node : Nat) (stream : BitVec 8) (last : Bool) (offset : Word) (data : List Byte)
  /-- GONDOLA_BRK_RECEIVE (R83): A ring gondola forwards a BRK and moves its serving side if it arrived on that side. -/
  | gondolaBrkReceive (node : Nat) (port : GPort) (seg : BitVec 8)
  /-- RIP_INPUT_DROP (R120): A gondola's rip-loop input becomes de-energised, starting the disable time. -/
  | ripInputDrop (node : Nat) (now : FTime)
  /-- POWER_STAGE_DISABLE (R120): Within TRIPF of de-energisation the gondola's power stage disables and latches. -/
  | powerStageDisable (node : Nat) (now : FTime)
  /-- RIP_ENERGISED_10MS (R121): The rip input energised for 10 ms without a break makes a G_CLR.RIP effective. -/
  | ripEnergised10ms (node : Nat) (now : FTime)
  /-- QUADRATURE_TRANSITION (R108): A synchronised feedback input transition moves the channel counter or sets ILL. -/
  | quadratureTransition (node : Nat) (ch : Fin 16) (levels : BitVec 3) (now : FTime)
  /-- INDEX_EDGE (R108): An index edge latches counter bits into AUX or counts IDXMULT. -/
  | indexEdge (node : Nat) (ch : Fin 16) (z : Bool) (now : FTime)
  /-- CARRIER_RELOAD (R234): At a reload instant the carrier takes a new pair from the shadow or continues the pair in force. -/
  | carrierReload (node : Nat) (ch : Fin 16) (now : FTime)
  /-- CARRIER_EDGE (R240): A carrier leg edge executes at a dithered timer instant with minimum-pulse handling. -/
  | carrierEdge (node : Nat) (ch : Fin 16) (leg : Fin 4) (off : Bool) (now : FTime)
  /-- CARRIER_START (R233): A PWM or SPWM record on a channel without a carrier starts it at the next class tick start. -/
  | carrierStart (node : Nat) (ch : Fin 16) (now : FTime)
  /-- AXIS_TICK_BOUNDARY (R184): At a tick start of its class each axis resolves its pending causes, takes transitions and raises TICK events. -/
  | axisTickBoundary (n : Fin 256)
  /-- SUBSTITUTE_FRAME_EVENT (R354): At t_k + U(g) without a delivered TICK_UP the lane receives a substitute FRAME event. -/
  | substituteFrameEvent (lane : Fin 16) (t : Fin 25) (pos : Fin 64)
  /-- WORK_ITEM_FRAME (R166): A lane runs the laws of the axes of a frame event as one work item to END. -/
  | workItemFrame (lane : Fin 16)
  /-- WORK_ITEM_TICK (R166): A lane runs the TICK entry for the VX axes of a class tick start. -/
  | workItemTick (lane : Fin 16)
  /-- ARM (R183): A request to take an axis from OFF to ARMED at its next tick boundary. -/
  | arm (via : RegPath) (n : Fin 256)
  /-- ENABLE (R183): A request to energise an ARMED axis into ALIGN, CATCH or READY. -/
  | enable (via : RegPath) (n : Fin 256)
  /-- DISABLE (R183): A request to take an energised axis to ARMED or OFF. -/
  | disable (via : RegPath) (n : Fin 256)
  /-- TEST (R183): A request to put an ARMED axis into TEST. -/
  | test (via : RegPath) (n : Fin 256)
  /-- FCLR (R187): A request to clear an axis FAULT, accepted only when no cause is active. -/
  | fclr (via : RegPath) (n : Fin 256)
  /-- OBSERVER_LOSS (R216): After LOSSN consecutive over-threshold ticks observer loss is declared and the back-EMF reaction starts. -/
  | observerLoss (n : Fin 256)
  /-- SKIPMAX (R209): SKIPRUN reaching SKIPMAX raises fault cause SKIPMAX. -/
  | skipmax (n : Fin 256)
  /-- SHORT_TIMEOUT (R217): A single-shunt sensorless axis leaves SHORT for OFF ASCT ms after entry. -/
  | shortTimeout (n : Fin 256)
  /-- CATCH_RETRY (R219): After CWAIT ms of OFF a failed catch attempt restarts from the zero-voltage phase. -/
  | catchRetry (n : Fin 256)
  /-- CATCH_THIRD_FAILURE (R219): The third failed catch attempt raises fault cause OBSLOSS. -/
  | catchThirdFailure (n : Fin 256)
  /-- ALIGN_STEP_END (R220): A TQ alignment ramp or hold ends, moving to the next step, completion or failure. -/
  | alignStepEnd (n : Fin 256)
  /-- TEST_END (R222): A TQ test sequence ends after TT ms and the axis returns to ARMED. -/
  | testEnd (n : Fin 256)
  /-- ST_ALIGN_END (R278): A stepper alignment ramp and hold end and the axis enters READY or raises ALIGN. -/
  | stAlignEnd (n : Fin 256)
  /-- HOLD_CURRENT_REDUCE (R277): After HDELAY ms at rest a stepper's current falls to the hold level over HRAMP. -/
  | holdCurrentReduce (n : Fin 256)
  /-- SPEED_STANDSTILL (R147): STILL ms after the last edge the speed becomes zero and the edge history empties. -/
  | speedStandstill (n : Fin 256)
  /-- SSI_ERROR_FAULT (R153): ERRN consecutive rejected SSI reads fault the axis. -/
  | ssiErrorFault (n : Fin 256)
  /-- MOVE_ARRIVAL (R257): A move reaches its target, the source becomes Rest and ARRIVED is posted. -/
  | moveArrival (n : Fin 256)
  /-- GEAR_ENGAGE (R268): An armed POSITION gear engages when the master crosses MPOS. -/
  | gearEngage (n : Fin 256)
  /-- CAM_CYCLE_SWITCH (R275): A CAM SELECT with AT = CYCLE applies when the present cam crosses a multiple of MLEN. -/
  | camCycleSwitch (n : Fin 256)
  /-- REMOTE_MASTER_STALE (R271): A remote master slot becomes stale MAGE after its last message and decelerates. -/
  | remoteMasterStale (r : Fin 16)
  /-- PUBLISH_MASTER (R272): At every DIV-th tick of its axis a publisher sends a master message on Ethernet. -/
  | publishMaster (q : Fin 16)
  /-- MASTER_MESSAGE (R271): A received master message updates its remote master slot if newer and permitted. -/
  | masterMessage (port : Fin 2) (mid : Word) (t : FTime) (p v : BitVec 64)
  /-- NOP (R379): Descriptor opcode that does nothing and completes at admission. -/
  | nop (h : DescHdr)
  /-- AXSET (R380): Descriptor that queues a streamed point and carries axis requests. -/
  | axset (h : DescHdr) (value : BitVec 64) (t : FTime) (valid : Bool) (req : BitVec 5)
  /-- MOVE (R255): Descriptor that plans a profiled move to a target under the envelope. -/
  | move (h : DescHdr) (target : BitVec 64) (vl al dl jl : Word) (mf : BitVec 3)
  /-- STOP (R380): Descriptor that sends a stop request of kind HOLD or OFF to an axis or row group. -/
  | stop (h : DescHdr) (kind scope : BitVec 8)
  /-- RESUME (R262): Descriptor that resumes a stopped move toward its kept target. -/
  | resume (h : DescHdr)
  /-- GEAR (R268): Descriptor that engages, changes or disengages a slave's bridle. -/
  | gear (h : DescHdr) (mode mkind master : BitVec 8) (gf : BitVec 2) (num den : Word) (offset lr mpos : BitVec 64)
  /-- CAM_LOAD (R275): CAM sub-operation that writes cam points into a directory entry. -/
  | camLoad (h : DescHdr) (cam : BitVec 8) (cf : BitVec 4) (base n mstep : Word) (addr : BitVec 64) (xfer : Word) (pts : Dma (BitVec 64))
  /-- CAM_SELECT (R275): CAM sub-operation that puts a cam on an engaged slave now or at the next cycle. -/
  | camSelect (h : DescHdr) (cam : BitVec 8) (cf : BitVec 4) (cphase : BitVec 64)
  /-- CAM_DESELECT (R275): CAM sub-operation that removes the cam from a slave keeping its demand continuous. -/
  | camDeselect (h : DescHdr) (cam : BitVec 8)
  /-- CAM_FREE (R275): CAM sub-operation that clears a directory entry not in use. -/
  | camFree (h : DescHdr) (cam : BitVec 8)
  /-- CMPADD (R283): Descriptor that allocates and arms compare entries whole or not at all. -/
  | cmpadd (h : DescHdr) (addr : BitVec 64) (count : BitVec 16) (raddr : BitVec 64) (entries : Dma (BitVec 256))
  /-- CMPDEL (R297): Descriptor that deletes compare entries by index, axis, TAG or row group. -/
  | cmpdel (h : DescHdr) (by_ : BitVec 8) (index : BitVec 16) (target tag mask : BitVec 8)
  /-- LATARM_ARM (R301): LATARM operation that optionally configures and arms a latch unit. -/
  | latarmArm (h : DescHdr) (unit : BitVec 8) (setcfg : Bool) (cfg : Word)
  /-- LATARM_DISARM (R301): LATARM operation that disarms a latch unit. -/
  | latarmDisarm (h : DescHdr) (unit : BitVec 8) (setcfg : Bool) (cfg : Word)
  /-- LATARM_FLUSH (R380): LATARM operation that empties the axis's latch queue. -/
  | latarmFlush (h : DescHdr) (unit : BitVec 8) (setcfg : Bool) (cfg : Word)
  /-- READ (R380): Descriptor that performs a mailbox read or pop and writes the data to host memory. -/
  | read (h : DescHdr) (object index : BitVec 16) (addr : BitVec 64)
  /-- CFGSTAGE (R380): Descriptor that stages a list of sh register values. -/
  | cfgstage (h : DescHdr) (addr : BitVec 64) (count : BitVec 16) (pairs : Dma (BitVec 64))
  /-- COMMIT (R380): Descriptor that offers a commit to the commit path. -/
  | commit (h : DescHdr) (groups : BitVec 8) (axsel : BitVec 256) (at_ : FTime)
  /-- MIGRATE (R501): Descriptor that moves axes from one lane to another. -/
  | migrate (h : DescHdr) (src dst : BitVec 8) (all : Bool) (axes : BitVec 256) (at_ : FTime)
  /-- TXTS (R42): Descriptor that pops one transmit time-stamp entry of an Ethernet port. -/
  | txts (h : DescHdr) (port : BitVec 8)
  /-- FRAME_TRANSMIT (R391): Frame descriptor that sends an Ethernet or CAN frame on its port. -/
  | frameTransmit (q : Fin 32) (opc flags : BitVec 8) (tag frameId len : BitVec 16) (addr : BitVec 64) (canid : Word) (data : Dma Byte)
  /-- FRAME_TX_DONE (R391): A frame's last bit leaves its port, it is stamped if requested and TXDONE is posted. -/
  | frameTxDone (f : Fin 6)
  /-- COMPARE_FIRE (R288): A TIME entry falls due or a predicted entry reaches its firing condition and its fire time is fixed. -/
  | compareFire (i : Fin 16384)
  /-- COMPARE_ACTION (R293): At the fire time an entry's field output, latch, report and chain actions execute. -/
  | compareAction (i : Fin 16384)
  /-- WIN_EXPIRE (R288): A WIN entry not fired by TOPEN + TDUR expires with an EXPIRED report. -/
  | winExpire (i : Fin 16384)
  /-- FOUT_PULSE_CLEAR (R491): A pulsed field output command clears PW µs after it was set. -/
  | foutPulseClear (k : Fin 16)
  /-- CMP_RG_RESUME (R285): A write of CMP_RGg.RESUME re-arms the row group's suspended entries as new insertions. -/
  | cmpRgResume (via : RegPath) (g : Fin 64) (v : Word)
  /-- LATCH_CAPTURE (R301): An edge of an armed unit's source is captured with its time and position into the latch queue. -/
  | latchCapture (n : Fin 256) (unit : Fin 2) (src : BitVec 6) (rising : Bool)
  /-- LATCH_WAIT_RESOLVE (R303): A capture waiting for the next record takes its position when the record arrives or is missing. -/
  | latchWaitResolve (n : Fin 256) (missing : Bool)
  /-- LATCH_REPOST (R304): A latch record held for lack of ring room is posted once the writer and backlog accept it. -/
  | latchRepost (n : Fin 256)
  /-- LAT_CTL_ARM (R301): A write of LAT_An_CTL.ARMu arms latch unit u. -/
  | latCtlArm (via : RegPath) (n : Fin 256) (v : Word)
  /-- LAT_CTL_DISARM (R301): A write of LAT_An_CTL.DISu disarms latch unit u. -/
  | latCtlDisarm (via : RegPath) (n : Fin 256) (v : Word)
  /-- LAT_CTL_FLUSH (R305): A write of LAT_An_CTL.FLUSH empties the latch queue. -/
  | latCtlFlush (via : RegPath) (n : Fin 256) (v : Word)
  /-- BALLAST_FAULT (R316): A ballast fault cause confirmed BAL_CONF times latches BALFLT and raises cause BUS on member axes. -/
  | ballastFault (b : Fin 32)
  /-- BUS_FCLR (R316): A write of BUS_Gb_CMD.FCLR clears the ballast-fault latch when its cause is gone. -/
  | busFclr (via : RegPath) (b : Fin 32)
  /-- BUS_COMPARATOR_TRIP (R324): A home bus input above the anchor reference for 32 anchor cycles trips the comparator and opens RIP24. -/
  | busComparatorTrip (inputs : BitVec 2)
  /-- LANE_NOP (R334): An instruction with both slots NOP does nothing. -/
  | laneNop (l : Fin 16)
  /-- MPY (R338): Multiply two data registers into an accumulator. -/
  | mpy (l : Fin 16) (ad : Fin 4) (x y : Fin 16) (mv : MoveOp)
  /-- MAC (R338): Multiply and add into an accumulator with 56-bit saturation. -/
  | mac (l : Fin 16) (ad : Fin 4) (x y : Fin 16) (mv : MoveOp)
  /-- MSU (R338): Multiply and subtract from an accumulator with saturation. -/
  | msu (l : Fin 16) (ad : Fin 4) (x y : Fin 16) (mv : MoveOp)
  /-- ACLR (R338): Clear an accumulator. -/
  | aclr (l : Fin 16) (ad : Fin 4) (mv : MoveOp)
  /-- ALD (R338): Load a data register into an accumulator in units of 2^-46. -/
  | ald (l : Fin 16) (ad : Fin 4) (x : Fin 16) (mv : MoveOp)
  /-- AADD (R338): Add two accumulators with saturation. -/
  | aadd (l : Fin 16) (ad as_ : Fin 4) (mv : MoveOp)
  /-- ASUB (R338): Subtract two accumulators with saturation. -/
  | asub (l : Fin 16) (ad as_ : Fin 4) (mv : MoveOp)
  /-- AMOV (R338): Copy an accumulator. -/
  | amov (l : Fin 16) (ad as_ : Fin 4) (mv : MoveOp)
  /-- ANEG (R338): Negate an accumulator with saturation. -/
  | aneg (l : Fin 16) (ad as_ : Fin 4) (mv : MoveOp)
  /-- AABS (R338): Absolute value of an accumulator with saturation. -/
  | aabs (l : Fin 16) (ad as_ : Fin 4) (mv : MoveOp)
  /-- ACMP (R338): Set flags from an accumulator difference. -/
  | acmp (l : Fin 16) (ad as_ : Fin 4) (mv : MoveOp)
  /-- ADD (R338): Wrapping 24-bit add. -/
  | add (l : Fin 16) (dd x y : Fin 16) (mv : MoveOp)
  /-- ADDS (R338): Saturating 24-bit add. -/
  | adds (l : Fin 16) (dd x y : Fin 16) (mv : MoveOp)
  /-- SUB (R338): Wrapping 24-bit subtract. -/
  | sub (l : Fin 16) (dd x y : Fin 16) (mv : MoveOp)
  /-- SUBS (R338): Saturating 24-bit subtract. -/
  | subs (l : Fin 16) (dd x y : Fin 16) (mv : MoveOp)
  /-- AND (R338): Bitwise AND of data registers. -/
  | and (l : Fin 16) (dd x y : Fin 16) (mv : MoveOp)
  /-- OR (R338): Bitwise OR of data registers. -/
  | or (l : Fin 16) (dd x y : Fin 16) (mv : MoveOp)
  /-- XOR (R338): Bitwise XOR of data registers. -/
  | xor (l : Fin 16) (dd x y : Fin 16) (mv : MoveOp)
  /-- MIN (R338): Signed minimum of data registers. -/
  | min (l : Fin 16) (dd x y : Fin 16) (mv : MoveOp)
  /-- MAX (R338): Signed maximum of data registers. -/
  | max (l : Fin 16) (dd x y : Fin 16) (mv : MoveOp)
  /-- CMP (R338): Set flags from a data register difference. -/
  | cmp (l : Fin 16) (x y : Fin 16) (mv : MoveOp)
  /-- SHL (R338): Shift a data register left by a register count. -/
  | shl (l : Fin 16) (dd x y : Fin 16) (mv : MoveOp)
  /-- SHR (R338): Logical right shift by a register count. -/
  | shr (l : Fin 16) (dd x y : Fin 16) (mv : MoveOp)
  /-- SRA (R338): Arithmetic right shift by a register count. -/
  | sra (l : Fin 16) (dd x y : Fin 16) (mv : MoveOp)
  /-- NEG (R338): Saturating negate of a data register. -/
  | neg (l : Fin 16) (dd x : Fin 16) (mv : MoveOp)
  /-- ABS (R338): Saturating absolute value of a data register. -/
  | abs (l : Fin 16) (dd x : Fin 16) (mv : MoveOp)
  /-- ADDI (R338): Wrapping add of an immediate. -/
  | addi (l : Fin 16) (dd x : Fin 16) (imm : BitVec 14) (mv : MoveOp)
  /-- ADDIS (R338): Saturating add of an immediate. -/
  | addis (l : Fin 16) (dd x : Fin 16) (imm : BitVec 14) (mv : MoveOp)
  /-- ANDI (R338): AND with a sign-extended immediate. -/
  | andi (l : Fin 16) (dd x : Fin 16) (imm : BitVec 14) (mv : MoveOp)
  /-- CMPI (R338): Set flags from a data register minus an immediate. -/
  | cmpi (l : Fin 16) (x : Fin 16) (imm : BitVec 14) (mv : MoveOp)
  /-- SHLI (R338): Shift left by an immediate. -/
  | shli (l : Fin 16) (dd x : Fin 16) (imm : BitVec 14) (mv : MoveOp)
  /-- SHRI (R338): Logical right shift by an immediate. -/
  | shri (l : Fin 16) (dd x : Fin 16) (imm : BitVec 14) (mv : MoveOp)
  /-- SRAI (R338): Arithmetic right shift by an immediate. -/
  | srai (l : Fin 16) (dd x : Fin 16) (imm : BitVec 14) (mv : MoveOp)
  /-- LD (R339): Load a 32-bit local word into a register. -/
  | ld (l : Fin 16) (reg : BitVec 6) (p : Fin 8) (am : BitVec 2) (mi : Fin 8) (off : BitVec 16) (ar : ArithOp)
  /-- ST (R339): Store a register as a 32-bit local word. -/
  | st (l : Fin 16) (reg : BitVec 6) (p : Fin 8) (am : BitVec 2) (mi : Fin 8) (off : BitVec 16) (ar : ArithOp)
  /-- LDQ (R339): Load a 64-bit local word into an accumulator with saturation. -/
  | ldq (l : Fin 16) (reg : BitVec 6) (p : Fin 8) (am : BitVec 2) (mi : Fin 8) (off : BitVec 16) (ar : ArithOp)
  /-- STQ (R339): Store an accumulator as a 64-bit local word. -/
  | stq (l : Fin 16) (reg : BitVec 6) (p : Fin 8) (am : BitVec 2) (mi : Fin 8) (off : BitVec 16) (ar : ArithOp)
  /-- LDS (R339): Load a 32-bit word from shared SRAM, stalling for the data. -/
  | lds (l : Fin 16) (reg : BitVec 6) (p : Fin 8) (am : BitVec 2) (mi : Fin 8) (off : BitVec 16) (ar : ArithOp)
  /-- STS (R339): Store a 32-bit word to shared SRAM through the store buffer. -/
  | sts (l : Fin 16) (reg : BitVec 6) (p : Fin 8) (am : BitVec 2) (mi : Fin 8) (off : BitVec 16) (ar : ArithOp)
  /-- LDQS (R339): Load a 64-bit shared word into an accumulator. -/
  | ldqs (l : Fin 16) (reg : BitVec 6) (p : Fin 8) (am : BitVec 2) (mi : Fin 8) (off : BitVec 16) (ar : ArithOp)
  /-- STQS (R339): Store an accumulator to a 64-bit shared word. -/
  | stqs (l : Fin 16) (reg : BitVec 6) (p : Fin 8) (am : BitVec 2) (mi : Fin 8) (off : BitVec 16) (ar : ArithOp)
  /-- MOV (R343): Copy a register, through the automatic scaler from an accumulator. -/
  | mov (l : Fin 16) (rd rs : BitVec 6) (ar : ArithOp)
  /-- LDI (R339): Load an immediate into a register. -/
  | ldi (l : Fin 16) (rd : BitVec 6) (imm : BitVec 24) (ar : ArithOp)
  /-- WDIF (R344): Scaled modulo-2^64 difference of two local words into an accumulator. -/
  | wdif (l : Fin 16) (ad : Fin 4) (pa pb : Fin 8) (sh : BitVec 7) (ar : ArithOp)
  /-- WADD (R344): Add a scaled accumulator to a 64-bit local word. -/
  | wadd (l : Fin 16) (ad : Fin 4) (pa : Fin 8) (sh : BitVec 7) (ar : ArithOp)
  /-- OUT (R362): Commit a 16-byte output record for an owned axis to its transmit assembler. -/
  | out (l : Fin 16) (reg : BitVec 6) (p : Fin 8) (am : BitVec 2) (mi : Fin 8) (off : BitVec 16) (ar : ArithOp)
  /-- LD2 (R339): Load two consecutive words into a data register pair. -/
  | ld2 (l : Fin 16) (reg : BitVec 6) (p : Fin 8) (am : BitVec 2) (mi : Fin 8) (off : BitVec 16) (ar : ArithOp)
  /-- ST2 (R339): Store a data register pair to two consecutive words. -/
  | st2 (l : Fin 16) (reg : BitVec 6) (p : Fin 8) (am : BitVec 2) (mi : Fin 8) (off : BitVec 16) (ar : ArithOp)
  /-- BR (R348): Conditional branch after two delay slots. -/
  | br (l : Fin 16) (cond : BitVec 4) (tgt : BitVec 12) (ar : ArithOp)
  /-- BRL (R339): Conditional branch saving the return index in LR. -/
  | brl (l : Fin 16) (cond : BitVec 4) (tgt : BitVec 12) (ar : ArithOp)
  /-- RET (R339): Conditional branch to LR. -/
  | ret (l : Fin 16) (cond : BitVec 4) (ar : ArithOp)
  /-- LOOP (R350): Repeat a body a counted number of times with register rotation. -/
  | loop (l : Fin 16) (fromReg : Bool) (cnt : BitVec 12) (tgt : BitVec 12) (ar : ArithOp)
  /-- REP (R353): Issue the following instruction a counted number of times on L14 and L15. -/
  | rep (l : Fin 16) (fromReg : Bool) (cnt : BitVec 12) (ar : ArithOp)
  /-- END (R355): End the work item after two delay slots. -/
  | laneEnd (l : Fin 16) (ar : ArithOp)
  /-- ROTA (R351): Advance the rotation of d8–d15 by one. -/
  | rota (l : Fin 16) (ar : ArithOp)
  /-- LANE_WATCHDOG (R357): A work item not at END within LPE_Ln_WDG cycles of its event traps the lane. -/
  | laneWatchdog (l : Fin 16)
  /-- SELF_TEST_PASS (R500): A lane completes a background self-test pass, counting it or trapping on failure. -/
  | selfTestPass (l : Fin 16) (ok : Bool)
  /-- CLRSPAN (R371): A write of LPE_Ln_CMD.CLRSPAN clears SPAN and PEAK. -/
  | clrspan (via : RegPath) (l : Fin 16)
  /-- TEST_PAIR_PUSH (R225): A write of PGN_An_TCTL.PUSH captures a test pair for a CL or ST axis in TEST. -/
  | testPairPush (via : RegPath) (n : Fin 256) (v : Word)
  /-- FAULT_INPUT_LATCH (R245): An FLT input active for 25 ns sets its latch and forces masked home legs to SAFE within 40 ns. -/
  | faultInputLatch (i : Fin 4)
  /-- FLT_CLR (R246): A write of PGN_FLT_CMD.CLRi releases latch i if its input is inactive. -/
  | fltClr (via : RegPath) (i : Fin 4) (live : BitVec 4)
  /-- SWSET (R247): A write of PGN_FLT_CMD.SWSET sets the software force latch. -/
  | swset (via : RegPath)
  /-- SWCLR (R247): A write of PGN_FLT_CMD.SWCLR releases the software force latch. -/
  | swclr (via : RegPath)
  /-- SQ_DOORBELL (R375): A tail doorbell write makes new descriptors available and counts as host activity. -/
  | sqDoorbell (q : Fin 32) (v : Word) (whole : Bool)
  /-- CQ_DOORBELL (R376): A head doorbell write consumes completions and re-arms the CQ's interrupt. -/
  | cqDoorbell (q : Fin 32) (v : Word) (whole : Bool)
  /-- CQ_INTERRUPT_TIMER (R390): An armed CQ whose oldest unconsumed entry is ITIME µs old sends its message. -/
  | cqInterruptTimer (q : Fin 32)
  /-- RX_DOORBELL (R392): A free-tail doorbell write returns receive buffers of a frame port. -/
  | rxDoorbell (f : Fin 6) (v : Word) (whole : Bool)
  /-- SQ_ENABLE (R374): Setting an SQ's EN resets its head and tail and takes its geometry. -/
  | sqEnable (via : RegPath) (q : Fin 32) (v : Word)
  /-- SQ_DISABLE (R384): Clearing an SQ's EN stops fetching and aborts staged descriptors. -/
  | sqDisable (via : RegPath) (q : Fin 32) (v : Word)
  /-- CQ_ENABLE (R374): Setting a CQ's EN resets its tail and phase. -/
  | cqEnable (via : RegPath) (q : Fin 32) (v : Word)
  /-- CQ_DISABLE (R377): Clearing a CQ's EN discards its backlog as lost. -/
  | cqDisable (via : RegPath) (q : Fin 32) (v : Word)
  /-- DESCRIPTOR_FETCH (R382): A descriptor read completes into an SQ's staging, or stops fetching on error. -/
  | descriptorFetch (q : Fin 32) (count : Nat) (ok : Bool)
  /-- CQ_BACKLOG_DRAIN (R377): Backlog entries of a CQ are written to the ring as room appears. -/
  | cqBacklogDrain (q : Fin 32)
  /-- HOST_SILENCE_TRIP (R394): An SQ without a doorbell for TIME × 100 µs trips its watchdog and applies REACT to bound axes. -/
  | hostSilenceTrip (q : Fin 32)
  /-- ETH_FRAME_RECEIVE (R393): An Ethernet frame is stamped, filtered and stored in a receive buffer or fed to the remote master slots. -/
  | ethFrameReceive (e : Fin 2) (dst : BitVec 48) (etype : BitVec 16) (data : List Byte) (fcsOk full : Bool)
  /-- CAN_FRAME_RECEIVE (R423): A CAN frame is stamped and looked up in the acceptance table for host delivery or a direct command. -/
  | canFrameReceive (c : Fin 4) (id : BitVec 29) (ide fdf brs esi : Bool) (data : List Byte) (full : Bool)
  /-- DCMD_STOP (R425): A direct command that sends a stop request of KIND on its scope. -/
  | dcmdStop (c : Fin 4) (dcidx : Fin 64) (id : BitVec 29) (ide : Bool) (data : List Byte)
  /-- DCMD_REQ (R425): A direct command that applies axis requests to its target. -/
  | dcmdReq (c : Fin 4) (dcidx : Fin 64) (id : BitVec 29) (ide : Bool) (data : List Byte)
  /-- DCMD_SECT (R425): A direct command that suspends or resumes the compare entries of row-group sections. -/
  | dcmdSect (c : Fin 4) (dcidx : Fin 64) (id : BitVec 29) (ide : Bool) (data : List Byte)
  /-- DCMD_FOUT (R425): A direct command that sets or clears field outputs from frame data. -/
  | dcmdFout (c : Fin 4) (dcidx : Fin 64) (id : BitVec 29) (ide : Bool) (data : List Byte)
  /-- PEER_COMMAND (R410): A 64-byte descriptor from a gondola's stream 3 is admitted on P9 and posts PEERCMD. -/
  | peerCommand (t : Fin 25) (pos : Fin 64) (flags : BitVec 8) (tag : BitVec 16) (axis : BitVec 8) (rsv : Bool) (cmd : PeerCmd)
  /-- CAN_TABLE_BUILD_COMPLETE (R422): The background build of the staged CAN acceptance table ends. -/
  | canTableBuildComplete
  /-- STREAM_LINK_DOWN (R400): No receive clock edge for 1 µs takes the stream link DOWN and clears credits. -/
  | streamLinkDown
  /-- STREAM_INIT_SEND (R400): With EN set the device sends an INIT frame every 10 µs until it receives one. -/
  | streamInitSend
  /-- STREAM_FRAME_RECEIVE (R401): A stream frame is checked and its INIT, CREDIT, TRAJ or BULK content taken. -/
  | streamFrameReceive (typ : BitVec 8) (len : Nat) (seq cret : BitVec 16) (payload : List Byte) (crc : Word) (frameOk : Bool)
  /-- TRAJ_RECORD (R404): A trajectory record is admitted on P1 as an AXSET point or counted in TRAJREF. -/
  | trajRecord (axis kind : BitVec 8) (rsv : Bool) (t : FTime) (value : BitVec 64)
  /-- STREAM_BULK_TRANSFER (R405): A BULK payload passes to a gondola stream or to a pending CAM LOAD once its destination has room. -/
  | streamBulkTransfer (xfer : Word) (dest : BitVec 8) (flags : BitVec 8) (tether pos stream : BitVec 8) (offset : Word) (data : List Byte)
  /-- STREAM_CREDIT_SEND (R402): When no frame is due within 1 µs the device returns freed credits in a CREDIT frame. -/
  | streamCreditSend
  /-- ANCHOR_RESET (R453): VFIELD low for 1 ms or PORESET_N resets the anchor with every switch off. -/
  | anchorReset
  /-- ANCHOR_SELF_TEST_END (R528): The anchor self-test ends, latches the straps and enters WAITGUARD or FAULT. -/
  | anchorSelfTestEnd (pass : Bool) (straps : BitVec 8)
  /-- ANCHOR_INTERNAL_FAULT (R452): Machine disagreement, oscillator error or switch mismatch turns every switch off into FAULT. -/
  | anchorInternalFault (code : BitVec 3)
  /-- STRAP_FAULT (R456): A strap mismatch standing 16 anchor cycles opens every loop with cause STRAP. -/
  | strapFault (live liven : BitVec 8)
  /-- GUARD_CHANNEL_CHANGE (R464): A guard input level change standing 3 ms changes its channel and pair state. -/
  | guardChannelChange (ch : Fin 4) (closed : Bool)
  /-- GUARD_DISCREPANCY (R465): One guard channel not followed within the discrepancy time opens the pair and sets DISC. -/
  | guardDiscrepancy (pair : Fin 2)
  /-- STOP1_EXPIRY (R468): STOP1_T expires and every loop opens with the latched STOP1 causes. -/
  | stop1Expiry
  /-- LOOP_HIGH_SIDE_ON (R460): 16 anchor cycles after the low-side turn-on the closing loop's high side turns on. -/
  | loopHighSideOn (n : Fin 25)
  /-- LOOP_CLOSED (R460): A closing loop whose sensed voltage reaches 15 V becomes CLOSED. -/
  | loopClosed (n : Fin 25)
  /-- LOOP_CLOSE_TIMEOUT (R460): A loop not CLOSED within 5 ms of closing opens with cause OVERLOAD. -/
  | loopCloseTimeout (n : Fin 25)
  /-- LOOP_DISCHARGE_END (R458): The 2 ms discharge current of an opened loop ends. -/
  | loopDischargeEnd (n : Fin 25)
  /-- LOOP_OVERLOAD (R459): A switch in current limit for 1 ms opens the loop with cause OVERLOAD. -/
  | loopOverload (n : Fin 25)
  /-- TEST_PULSE_START (R462): A scheduled switch test turns one switch of a CLOSED loop off with test current. -/
  | testPulseStart (n : Fin 25) (lowSide : Bool)
  /-- TEST_PULSE_CHECK_OFF (R463): At 250 µs the loop voltage must be at most 5 V or the loop is marked LOOPFLT. -/
  | testPulseCheckOff (n : Fin 25) (above5 : Bool)
  /-- TEST_PULSE_RESTORE (R462): At 300 µs the tested switch turns back on. -/
  | testPulseRestore (n : Fin 25)
  /-- TEST_PULSE_CHECK_ON (R463): At 400 µs the loop voltage must be at least 15 V or the loop opens with OVERLOAD. -/
  | testPulseCheckOn (n : Fin 25) (below15 : Bool)
  /-- PILOT_BEAT (R474): A heartbeat word from a pilot is validated and may assign roles, swap or recover from NOPILOT. -/
  | pilotBeat (p : Fin 2) (word : BitVec 16)
  /-- MISSED_BEAT (R475): 1.25 ms without a valid beat from a role-holding pilot counts a missed beat. -/
  | missedBeat (p : Fin 2)
  /-- PROMOTION (R476): Three missed beats of the active pilot promote a present standby or fail the promotion. -/
  | promotion
  /-- PROMOTION_FAIL (R478): No ACT beat 2.5 ms after promotion orders STOP1 with cause NOPILOT. -/
  | promotionFail
  /-- LOSTLANE_OPEN (R480): A LOSTLANE bit standing 20 ms opens its loop with cause LOSTLANE. -/
  | lostlaneOpen (n : Fin 25)
  /-- ANCHOR_STOPREQ_RECEIVE (R454): The anchor takes a STOP0 mask or STOP1 arriving on STOPREQ and latches the cause. -/
  | anchorStopreqReceive (src : StopReqSrc)
  /-- ANCHOR_HOLDOPEN_RECEIVE (R461): The anchor takes a new HOLDOPEN word and opens or releases loops without latching. -/
  | anchorHoldopenReceive (mask : BitVec 25)
  /-- ANCHOR_ALIVE_ADVANCE (R454): Every 1,600 anchor cycles the anchor advances its ALIVE count. -/
  | anchorAliveAdvance
  /-- ANCHOR_STATUS_WORD (R454): The shell receives the anchor's status word, mirrors it in ANC and applies stops to axes. -/
  | anchorStatusWord
  /-- ANCHOR_LINK_LOST (R454): ALIVE unchanged for 1 ms sets LINKLOST and takes power as not enabled on every axis. -/
  | anchorLinkLost
  /-- STOP0_REQUEST (R469): A write of ANC_REQ0 requests STOP0 with cause SWREQ on the named loops. -/
  | stop0Request (via : RegPath) (v : Word)
  /-- STOP1_REQUEST (R469): A write of ANC_REQ1.STOP1 requests a device STOP1 with cause SWREQ. -/
  | stop1Request (via : RegPath) (v : Word)
  /-- ANC_HOLDOPEN (R461): A write of ANC_HOLDOPEN sends the hold-open mask to the anchor. -/
  | ancHoldopen (via : RegPath) (v : Word)
  /-- FIN_RAW_EDGE (R485): A raw level change of a field input is stamped and starts or ends a debounce run. -/
  | finRawEdge (n : Fin 32) (level : Bool)
  /-- FIN_EDGE_ACCEPT (R487): A debounce run lasting DEB is accepted, updating the filtered state, latches and events. -/
  | finEdgeAccept (n : Fin 32)
  /-- FIN_COUPLER_ERROR (R486): No coupler word for 100 µs forces the input de-energised with a CPL edge. -/
  | finCouplerError (n : Fin 32)
  /-- FOUT_WRITE (R491): A masked write of FIO_FOUT changes commanded output states. -/
  | foutWrite (via : RegPath) (v : Word)
  /-- FOUT_REFRESH (R493): Shell hardware resends each output's commanded state at least every 10 µs. -/
  | foutRefresh (k : Fin 16)
  /-- FOUT_SILENCE (R494): No valid word for SILENCE ms puts an output in its SAFE state. -/
  | foutSilence (k : Fin 16)
  /-- SILCLR (R494): A write of FIO_CMD.SILCLR returns an output with arriving words to its commanded state. -/
  | silclr (via : RegPath) (mask : BitVec 16)
  /-- TCLR (R490): A write of FIO_CMD.TCLR releases a cooled thermal latch. -/
  | tclr (via : RegPath) (mask hot : BitVec 16)
  /-- THERMAL_SHUTDOWN (R490): An output switch overheats and turns off with TSD set. -/
  | thermalShutdown (k : Fin 16)
  /-- THERMAL_RETRY (R490): A RETRY output cooled and 10 ms after shutdown returns to its state. -/
  | thermalRetry (k : Fin 16)
  /-- OPEN_LOAD (R489): An off output above 4 V with open-load sense reports an open load. -/
  | openLoad (k : Fin 16)
  /-- FIELD_DIE_RESTORE (R494): The field die communicates after a reset and the shell resends its configuration. -/
  | fieldDieRestore
  /-- MIGRATION_CHECK_END (R502): The pilot finishes checking a migration and writes the destination bank, fixing the switch time. -/
  | migrationCheckEnd
  /-- MIGRATION_SWITCH (R502): At its first tick boundary after the switch time an axis's state window and events move to the destination lane. -/
  | migrationSwitch (n : Fin 256)
  /-- REPAIR_MIGRATION_START (R504): After a lane retires the active pilot starts a repair migration of its axes. -/
  | repairMigrationStart (l : Fin 16)
  /-- LANE_LOAD_COMPLETE (R506): A lane image load finishes its self-test pass and posts LNLOAD. -/
  | laneLoadComplete (l : Fin 16) (res : LoadResult)
  /-- PILOT_UPDATE_COMPLETE (R509): The pilot image write and verification finish and PILOTUPD is posted. -/
  | pilotUpdateComplete (ok : Bool) (version : Word)
  /-- JOURNAL_SYNC (R510): A started pilot finishes replaying the configuration journal and sets JSYNC. -/
  | journalSync (p : Fin 2)
  /-- ERRSNAP_PERIOD (R515): Every SNAP × 100 ms the log writer records each changed error counter. -/
  | errsnapPeriod
  /-- FLOG_STORE_WRITE (R513): Staged log records are written to the LPDDR4X store as it accepts them. -/
  | flogStoreWrite
  /-- FLOG_FREEZE (R515): POST × 256 records after a trigger the log stops and posts FLOGFREEZE. -/
  | flogFreeze
  /-- FLOG_STREAM_DRAIN (R515): Stored log records leave as LOG frames on the stream port under credits. -/
  | flogStreamDrain
  /-- UNFREEZE (R520): A write of FLOG_CMD.UNFREEZE resumes a frozen log. -/
  | unfreeze (via : RegPath)
  /-- FLUSH (R520): A write of FLOG_CMD.FLUSH empties the log store and staging. -/
  | flush (via : RegPath)
  /-- FB_POS (R159): Mailbox read of an axis's position, speed and TURNS from one record. -/
  | fbPos (set : Fin 4) (via : RegPath) (index : BitVec 14)
  /-- FB_SETPOS (R144): Mailbox write setting an axis position as a shift of C_user. -/
  | fbSetpos (set : Fin 4) (via : RegPath) (index : BitVec 14) (pos : BitVec 64)
  /-- FB_UNREF (R132): Mailbox write clearing REFD so the next index references again. -/
  | fbUnref (set : Fin 4) (via : RegPath) (index : BitVec 14)
  /-- FB_CORR (R159): Mailbox read of C_ix, C_user and X. -/
  | fbCorr (set : Fin 4) (via : RegPath) (index : BitVec 14)
  /-- AX_DLY (R192): Mailbox read of an axis's delay statistics snapshot. -/
  | axDly (set : Fin 4) (via : RegPath) (index : BitVec 14)
  /-- TP_ORG_READ (R192): Mailbox read of the tick origin. -/
  | tpOrgRead (set : Fin 4) (via : RegPath)
  /-- TP_ORG_WRITE (R164): Mailbox write of the tick origin, refused while axes are in the plan. -/
  | tpOrgWrite (set : Fin 4) (via : RegPath) (torg : FTime)
  /-- TQ_EST (R224): Mailbox read of a TQ axis's observer snapshot from one tick. -/
  | tqEst (set : Fin 4) (via : RegPath) (index : BitVec 14)
  /-- PRF_SP (R282): Mailbox read of p_set, v_set and a_set at one instant. -/
  | prfSp (set : Fin 4) (via : RegPath) (index : BitVec 14)
  /-- PRF_STATE (R282): Mailbox read of target, REMAIN, arrival time and source. -/
  | prfState (set : Fin 4) (via : RegPath) (index : BitVec 14)
  /-- BR_STATE (R282): Mailbox read of bridle M, B, OFFSET and limiter lag. -/
  | brState (set : Fin 4) (via : RegPath) (index : BitVec 14)
  /-- RM_READ (R282): Mailbox read of a remote master slot. -/
  | rmRead (set : Fin 4) (via : RegPath) (index : BitVec 14)
  /-- CMP_READ (R306): Mailbox read of a compare entry as stored. -/
  | cmpRead (set : Fin 4) (via : RegPath) (index : BitVec 14)
  /-- CMP_INFO (R306): Mailbox read of a compare entry's state and fire time. -/
  | cmpInfo (set : Fin 4) (via : RegPath) (index : BitVec 14)
  /-- LAT_POP (R304): Mailbox pop of the oldest latch record of an axis. -/
  | latPop (set : Fin 4) (via : RegPath) (index : BitVec 14)
  /-- PEEK (R447): Mailbox read of any register without clearing. -/
  | peek (set : Fin 4) (via : RegPath) (off : BitVec 24)
  /-- CFG_WORK (R447): Mailbox read of an sh register's working copy and shadow. -/
  | cfgWork (set : Fin 4) (via : RegPath) (off : BitVec 24)
  /-- CM_AT_READ (R447): Mailbox read of the next scheduled commit time and the ARMED commit's AT. -/
  | cmAtRead (set : Fin 4) (via : RegPath)
  /-- CM_AT_WRITE (R447): Mailbox write of the time used by the next scheduled GLB_COMMIT. -/
  | cmAtWrite (set : Fin 4) (via : RegPath) (at_ : FTime)
  /-- ANC_TRIP (R483): Mailbox read of a rip loop's last opening, closing and latched causes. -/
  | ancTrip (set : Fin 4) (via : RegPath) (index : BitVec 14)
  /-- FIO_EDGE (R496): Mailbox read of a field input's last stamps and run state. -/
  | fioEdge (set : Fin 4) (via : RegPath) (index : BitVec 14)
  /-- LN_LOAD (R506): Mailbox write starting a lane image load into the lanes of a mask. -/
  | lnLoad (set : Fin 4) (via : RegPath) (addr : BitVec 64) (len mask : Word)
  /-- TT_RIPCLR (R507): Mailbox write broadcasting G_CLR.RIP to a tether whose loop has been closed 10 ms. -/
  | ttRipclr (set : Fin 4) (via : RegPath) (index : BitVec 14)
  /-- PL_UPD (R509): Mailbox write starting a pilot image write into the unused slot. -/
  | plUpd (set : Fin 4) (via : RegPath) (addr : BitVec 64) (len : Word)
  /-- PL_START (R510): Mailbox write resetting a pilot and booting it from a named slot. -/
  | plStart (set : Fin 4) (via : RegPath) (index : BitVec 14) (data0 : Word)
  /-- PL_SWAP (R511): Mailbox write making the active pilot beat SWAP to exchange roles. -/
  | plSwap (set : Fin 4) (via : RegPath)
  /-- FLOG_TRIG (R515): Mailbox write producing a TRIGGER record with a code. -/
  | flogTrig (set : Fin 4) (via : RegPath) (code : Word)
  /-- FLOG_POP (R515): Mailbox pop of the oldest flight-log record. -/
  | flogPop (set : Fin 4) (via : RegPath)
  /-- CAL_RUN (R534): Mailbox write repeating the analogue calibration when home axes are not energised. -/
  | calRun (set : Fin 4) (via : RegPath)
  /-- CAL_READ (R537): Mailbox read of calibration results or a temperature sensor. -/
  | calRead (set : Fin 4) (via : RegPath) (index : BitVec 14)
  /-- PERST_RELEASE (R535): Release of PERST# starts PCI Express link training within 1 ms, and configuration requests are accepted within 20 ms. -/
  | perstRelease
  /-- VFIELD_RETURN (R453): When VFIELD returns after the anchor reset of R453, the anchor leaves reset and starts its self-test. -/
  | vfieldReturn
  /-- FIN_COUPLER_RESTORE (R486): The first word that arrives on a field input's coupler after a coupler error clears its FIO_INCPL bit and is taken as a raw change from de-energised. -/
  | finCouplerRestore (n : Fin 32) (level : Bool)
  /-- FOUT_CURRENT_LIMIT (R490): A field output switch enters current limit, regulating at the limit and setting ILIM and ILIMSEEN. -/
  | foutCurrentLimit (k : Fin 16)
  /-- BUS_COMPARATOR_RELEASE (R324): The anchor's bus comparator releases when both home bus inputs fall below the reference less 50 mV, clearing BUSTRIP. -/
  | busComparatorRelease
  /-- RIP_INPUT_ENERGISED (R121): A gondola's rip-loop input becomes energised again, cancelling a pending disable within the ride-through or starting the 10 ms count of R121. -/
  | ripInputEnergised (node : Nat) (now : FTime)
  /-- GONDOLA_FRAME_FORWARD (R73): A gondola forwards a frame not addressed to it cut-through, by its routing rules, and counts a bad CRC in CRC_FWD. -/
  | gondolaFrameForward (node : Nat) (port : GPort) (f : Frame) (crc : Word) (cv : Nat) (sof : FTime)
  /-- GONDOLA_CREDIT_RECEIVE (R68): A gondola receives a downstream CREDIT frame that grants it upstream BULK credits. -/
  | gondolaCreditReceive (node : Nat) (count : BitVec 4)
  /-- GONDOLA_DLY_REQ_RECEIVE (R119): A gondola answers a DLY_REQ received on its through or branch port with a DLY_RSP. -/
  | gondolaDlyReqReceive (node : Nat) (port : GPort) (t1 : FTime) (sof : FTime)
  /-- PILOT_BOOT_COMPLETE (R510): A pilot reset by PL_START finishes verifying its slot and is released, or stays in reset, and PILOTUPD reports pilot started or start failed. -/
  | pilotBootComplete (p : Fin 2) (ok : Bool)
deriving DecidableEq, Repr

end Sys2Proof
end

