-- ==== Sys2Proof/Config.lean ====
section
/-! DEFINITION. The values the spec leaves open. -/
namespace Sys2Proof

/-- The free values: where the spec leaves a value open and the machine goes on, the step takes the next of them.  It has no body,
so that no statement can rest on what it is (log entry 3). -/
opaque freeValue : Nat → BitVec 64

/-- The bytes of the home gondola's identity block that the spec does not give, by their place in the block (R93, R124; log entry 4). -/
opaque homeIdent : Nat → BitVec 8

/-- The bytes of a tether gondola's identity block that the spec does not fix, by node and place (R93; log entry 114). -/
opaque gonIdent : Nat → Nat → BitVec 8

/-- The channel descriptors of a tether gondola, by node and channel (R95; log entry 114). -/
opaque gonDesc : Nat → Nat → BitVec 128

/-- The current of full scale of a home channel, and of a ballast channel after the sixteenth, in mA (R95, R124; log entry 4). -/
opaque homeIfs : Nat → BitVec 32

end Sys2Proof
end

