-- ==== Sys2Proof/Machine/RegMap.lean ====
section
/-! DEFINITION. The register map of BAR0 (R428-R431): the offset of every register, the place of every field, the access
type and reset value of every field, and the commit group of every `sh` field (R437), as the register tables of the chapters
give them. -/
namespace Sys2Proof.Machine

/-- The place of a field in its register. -/
structure Bits where
  lo : Nat
  w : Nat
deriving DecidableEq, Repr

/-- The place of an `sh` field in its register: the working copy is what the device uses, the shadow what a read returns (R437). -/
structure Sh where
  lo : Nat
  w : Nat
deriving DecidableEq, Repr

/-- The commit groups (R437). -/
inductive Grp where
  | none_ | time | tether | axis | pulse | cmp | bus | plan | fio
deriving DecidableEq, Repr

/-- One row of the map: the registers at `base + i * stride + …`, the bits of each access type (R430), the reset value and the
commit group. -/
structure RegRow where
  base : Nat
  dims : List (Nat × Nat)
  rw : Nat
  ro : Nat
  rc : Nat
  w1 : Nat
  sh : Nat
  wm : Nat
  reset : Nat
  grp : Grp
deriving DecidableEq, Repr

/-- Register rows of BAR0 block 0x0. -/
def regRows00_0 : List RegRow := [
  ⟨0x000000, [], 0x0, 0xFFFFFFFF, 0x0, 0x0, 0x0, 0x0, 0x59542A01, .none_⟩,  -- GLB_ID
  ⟨0x000004, [], 0x0, 0x0, 0x3, 0x0, 0x0, 0x0, 0x1, .none_⟩,  -- GLB_RSTCAUSE
  ⟨0x000008, [], 0x0, 0x0, 0x3, 0x0, 0x0, 0x0, 0x0, .none_⟩,  -- GLB_STAT
  ⟨0x000010, [], 0x0, 0x0, 0x0, 0x3FF, 0x0, 0x0, 0x0, .none_⟩,  -- GLB_COMMIT
  ⟨0x000014, [], 0x0, 0xFFFF08F3, 0x70C, 0x0, 0x0, 0x0, 0x0, .none_⟩,  -- GLB_COMMIT_STAT
  ⟨0x000100, [], 0x0, 0x0, 0x1FFFF, 0x0, 0x0, 0x0, 0x0, .none_⟩,  -- GLB_SRAM_UE
  ⟨0x000020, [(8, 0x4)], 0xFFFFFFFF, 0x0, 0x0, 0x0, 0x0, 0x0, 0x0, .none_⟩,  -- GLB_COMMIT_AXSEL
  ⟨0x000080, [(32, 0x4)], 0x0, 0x0, 0x1FFFF, 0x0, 0x0, 0x0, 0x0, .none_⟩,  -- GLB_SRAM_CE
  ⟨0x000110, [(4, 0x4)], 0xFFFFFFFF, 0x0, 0x0, 0x0, 0x0, 0x0, 0x0, .none_⟩  -- GLB_SCRATCH
]

/-- Register rows of BAR0 block 0x100000. -/
def regRows01_0 : List RegRow := [
  ⟨0x100000, [], 0x0, 0xFFFFFFFF, 0x0, 0x0, 0x0, 0x0, 0x0, .none_⟩,  -- PLAN_VERSION
  ⟨0x100004, [], 0x0, 0x7F01, 0x6, 0x0, 0x0, 0x0, 0x0, .none_⟩,  -- PLAN_CAN_STAT
  ⟨0x100020, [(4, 0x8)], 0x0, 0x0, 0x0, 0x0, 0x1FFFFFFF, 0x0, 0x1FFFFFFF, .plan⟩,  -- PLAN_CAN_KMASK
  ⟨0x100024, [(4, 0x8)], 0x0, 0x0, 0x0, 0x0, 0x1, 0x0, 0x0, .plan⟩,  -- PLAN_CAN_CFG
  ⟨0x100060, [(4, 0x4)], 0x0, 0x0, 0x1FFFF, 0x0, 0x0, 0x0, 0x0, .none_⟩,  -- PLAN_CAN_NOMATCH
  ⟨0x101000, [(1088, 0x8)], 0x0, 0x0, 0x0, 0x0, 0x7FFFFFFF, 0x0, 0x0, .plan⟩,  -- PLAN_CF_LO
  ⟨0x101004, [(1088, 0x8)], 0x0, 0x0, 0x0, 0x0, 0x1FFFFF, 0x0, 0x0, .plan⟩,  -- PLAN_CF_HI
  ⟨0x104000, [(64, 0x10)], 0x0, 0x0, 0x0, 0x0, 0x7FFFFFF7, 0x0, 0x0, .plan⟩,  -- PLAN_DC_A
  ⟨0x104004, [(64, 0x10)], 0x0, 0x0, 0x0, 0x0, 0x1FFF, 0x0, 0x0, .plan⟩,  -- PLAN_DC_B
  ⟨0x110000, [], 0x0, 0x0, 0x0, 0x0, 0xFFFF, 0x0, 0xFFFF, .plan⟩,  -- PLAN_P_OPC P0
  ⟨0x110400, [(9, 0x400)], 0x0, 0x0, 0x0, 0x0, 0xFFFF, 0x0, 0x0, .plan⟩,  -- PLAN_P_OPC
  ⟨0x110004, [], 0x0, 0x0, 0x0, 0x0, 0x7F, 0x0, 0x7F, .plan⟩,  -- PLAN_P_FLAGS P0
  ⟨0x110404, [(9, 0x400)], 0x0, 0x0, 0x0, 0x0, 0x7F, 0x0, 0x0, .plan⟩,  -- PLAN_P_FLAGS
  ⟨0x110008, [], 0x0, 0x0, 0x0, 0x0, 0xFFFFFFFF, 0x0, 0xFFFFFFFF, .plan⟩,  -- PLAN_P_RINGS P0
  ⟨0x110408, [(9, 0x400)], 0x0, 0x0, 0x0, 0x0, 0xFFFFFFFF, 0x0, 0x0, .plan⟩,  -- PLAN_P_RINGS
  ⟨0x11000C, [], 0x0, 0x0, 0x0, 0x0, 0x3FFFBFFF, 0x0, 0x20000000, .plan⟩,  -- PLAN_P_CMP P0
  ⟨0x11040C, [(9, 0x400)], 0x0, 0x0, 0x0, 0x0, 0x3FFFBFFF, 0x0, 0x0, .plan⟩,  -- PLAN_P_CMP
  ⟨0x110010, [], 0x0, 0x0, 0x0, 0x0, 0xFFFF, 0x0, 0xFFFF, .plan⟩,  -- PLAN_P_RM P0
  ⟨0x110410, [(9, 0x400)], 0x0, 0x0, 0x0, 0x0, 0xFFFF, 0x0, 0x0, .plan⟩,  -- PLAN_P_RM
  ⟨0x110014, [], 0x0, 0x0, 0x0, 0x0, 0xFFFF, 0x0, 0xFFFF, .plan⟩,  -- PLAN_P_FOUT P0
  ⟨0x110414, [(9, 0x400)], 0x0, 0x0, 0x0, 0x0, 0xFFFF, 0x0, 0x0, .plan⟩,  -- PLAN_P_FOUT
  ⟨0x110018, [], 0x0, 0x0, 0x0, 0x0, 0x9F, 0x0, 0x0, .plan⟩,  -- PLAN_P_CQ P0
  ⟨0x110418, [(9, 0x400)], 0x0, 0x0, 0x0, 0x0, 0x9F, 0x0, 0x0, .plan⟩,  -- PLAN_P_CQ
  ⟨0x11001C, [], 0x0, 0x0, 0x1FFFF, 0x0, 0x0, 0x0, 0x0, .none_⟩  -- PLAN_P_DENY P0
]

/-- Register rows of BAR0 block 0x100000. -/
def regRows01_1 : List RegRow := [
  ⟨0x11041C, [(9, 0x400)], 0x0, 0x0, 0x1FFFF, 0x0, 0x0, 0x0, 0x0, .none_⟩,  -- PLAN_P_DENY
  ⟨0x110100, [(64, 0x4)], 0x0, 0x0, 0x0, 0x0, 0x3F3F3F3F, 0x0, 0x3F3F3F3F, .plan⟩,  -- PLAN_P_AX P0
  ⟨0x110500, [(9, 0x400), (64, 0x4)], 0x0, 0x0, 0x0, 0x0, 0x3F3F3F3F, 0x0, 0x0, .plan⟩  -- PLAN_P_AX
]

/-- Register rows of BAR0 block 0x200000. -/
def regRows02_0 : List RegRow := [
  ⟨0x200000, [], 0x0, 0x0, 0x7, 0x0, 0x0, 0x0, 0x4, .none_⟩,  -- HIF_STAT
  ⟨0x200004, [], 0x9F9F9F, 0x0, 0x0, 0x0, 0x0, 0x0, 0x0, .none_⟩,  -- HIF_DEVCQ
  ⟨0x201000, [(32, 0x40)], 0xFFFFFFFF, 0x0, 0x0, 0x0, 0x0, 0x0, 0x0, .none_⟩,  -- HIF_SQ_BASE_LO
  ⟨0x201004, [(32, 0x40)], 0xFFFFFFFF, 0x0, 0x0, 0x0, 0x0, 0x0, 0x0, .none_⟩,  -- HIF_SQ_BASE_HI
  ⟨0x201008, [(32, 0x40)], 0x13FFF, 0x0, 0x0, 0x0, 0x0, 0x0, 0x4, .none_⟩,  -- HIF_SQ_CFG
  ⟨0x20100C, [(32, 0x40)], 0x0, 0x2FFF0FFF, 0x50000000, 0x0, 0x0, 0x0, 0x0, .none_⟩,  -- HIF_SQ_STAT
  ⟨0x201010, [(32, 0x40)], 0x7FFFF, 0x0, 0x0, 0x0, 0x0, 0x0, 0x0, .none_⟩,  -- HIF_SQ_WD
  ⟨0x201020, [(32, 0x40), (8, 0x4)], 0xFFFFFFFF, 0x0, 0x0, 0x0, 0x0, 0x0, 0x0, .none_⟩,  -- HIF_SQ_WDAXM
  ⟨0x202000, [(32, 0x20)], 0xFFFFFFFF, 0x0, 0x0, 0x0, 0x0, 0x0, 0x0, .none_⟩,  -- HIF_CQ_BASE_LO
  ⟨0x202004, [(32, 0x20)], 0xFFFFFFFF, 0x0, 0x0, 0x0, 0x0, 0x0, 0x0, .none_⟩,  -- HIF_CQ_BASE_HI
  ⟨0x202008, [(32, 0x20)], 0x107FF, 0x0, 0x0, 0x0, 0x0, 0x0, 0x4, .none_⟩,  -- HIF_CQ_CFG
  ⟨0x20200C, [(32, 0x20)], 0xFFFFF, 0x0, 0x0, 0x0, 0x0, 0x0, 0x1, .none_⟩,  -- HIF_CQ_IMOD
  ⟨0x202010, [(32, 0x20)], 0x0, 0x3FF3FFF, 0x4000, 0x0, 0x0, 0x0, 0x3000, .none_⟩,  -- HIF_CQ_STAT
  ⟨0x202014, [(32, 0x20)], 0x0, 0x0, 0x1FFFF, 0x0, 0x0, 0x0, 0x0, .none_⟩,  -- HIF_CQ_LOST
  ⟨0x203000, [(6, 0x20)], 0xFFFFFFFF, 0x0, 0x0, 0x0, 0x0, 0x0, 0x0, .none_⟩,  -- HIF_RX_BASE_LO
  ⟨0x203004, [(6, 0x20)], 0xFFFFFFFF, 0x0, 0x0, 0x0, 0x0, 0x0, 0x0, .none_⟩,  -- HIF_RX_BASE_HI
  ⟨0x203008, [(6, 0x20)], 0x11F7F, 0x0, 0x0, 0x0, 0x0, 0x0, 0x44, .none_⟩,  -- HIF_RX_CFG
  ⟨0x20300C, [(6, 0x20)], 0x0, 0xFFF0FFF, 0x0, 0x0, 0x0, 0x0, 0x0, .none_⟩,  -- HIF_RX_STAT
  ⟨0x203010, [(6, 0x20), (2, 0x4)], 0x0, 0x0, 0x1FFFF, 0x0, 0x0, 0x0, 0x0, .none_⟩,  -- HIF_RX_CNT
  ⟨0x204000, [(64, 0x4)], 0x9F9F9F9F, 0x0, 0x0, 0x0, 0x0, 0x0, 0x0, .none_⟩,  -- HIF_AXCQ
  ⟨0x220000, [(64, 0x10)], 0xFFFFFFFC, 0x0, 0x0, 0x0, 0x0, 0x0, 0x0, .none_⟩,  -- MSIX_ADDR_LO
  ⟨0x220004, [(64, 0x10)], 0xFFFFFFFF, 0x0, 0x0, 0x0, 0x0, 0x0, 0x0, .none_⟩,  -- MSIX_ADDR_HI
  ⟨0x220008, [(64, 0x10)], 0xFFFFFFFF, 0x0, 0x0, 0x0, 0x0, 0x0, 0x0, .none_⟩,  -- MSIX_DATA
  ⟨0x22000C, [(64, 0x10)], 0x1, 0x0, 0x0, 0x0, 0x0, 0x0, 0x1, .none_⟩  -- MSIX_CTL
]

/-- Register rows of BAR0 block 0x200000. -/
def regRows02_1 : List RegRow := [
  ⟨0x221000, [(2, 0x4)], 0x0, 0xFFFFFFFF, 0x0, 0x0, 0x0, 0x0, 0x0, .none_⟩  -- MSIX_PBA
]

/-- Register rows of BAR0 block 0x300000. -/
def regRows03_0 : List RegRow := [
  ⟨0x300000, [], 0x37, 0x0, 0x0, 0x0, 0x0, 0x0, 0x24, .none_⟩,  -- FTM_CTL
  ⟨0x300004, [], 0x0, 0x0, 0x0, 0x0, 0xFF, 0x0, 0x28, .time⟩,  -- FTM_INC_INT
  ⟨0x300008, [], 0x0, 0x0, 0x0, 0x0, 0xFFFFFFFF, 0x0, 0x0, .time⟩,  -- FTM_INC_FRAC
  ⟨0x30000C, [], 0x0, 0xFFFF0000, 0x1, 0x0, 0x0, 0x0, 0x0, .none_⟩,  -- FTM_STAT
  ⟨0x300010, [], 0xFFFFFFFF, 0x0, 0x0, 0x0, 0x0, 0x0, 0x40000000, .none_⟩,  -- FTM_PPS_CTL
  ⟨0x300014, [], 0xFF, 0x0, 0x0, 0x0, 0x0, 0x0, 0x0, .none_⟩,  -- FTM_TSI_CTL
  ⟨0x300018, [], 0x0, 0xFFF0000, 0xF, 0x0, 0x0, 0x0, 0x0, .none_⟩,  -- FTM_TSI_STAT
  ⟨0x300028, [], 0x0, 0xFF00, 0xFFFF0003, 0x0, 0x0, 0x0, 0x0, .none_⟩,  -- FTM_TXTS_STAT
  ⟨0x300020, [(2, 0x4)], 0xFFFFFFFF, 0x0, 0x0, 0x0, 0x0, 0x0, 0x0, .none_⟩,  -- FTM_ETH_LAT
  ⟨0x300080, [(8, 0x10)], 0x1F0F, 0x0, 0x0, 0x0, 0x0, 0x0, 0x0, .none_⟩,  -- FTM_TC_CTL
  ⟨0x300084, [(8, 0x10)], 0x0, 0x0, 0xFFFF0007, 0x0, 0x0, 0x0, 0x0, .none_⟩  -- FTM_TC_STAT
]

/-- Register rows of BAR0 block 0x400000. -/
def regRows04_0 : List RegRow := [
  ⟨0x418000, [], 0x1, 0x0, 0x0, 0x0, 0x0, 0x0, 0x1, .tether⟩,  -- TTH_CTL T24
  ⟨0x400000, [(24, 0x1000)], 0xF3, 0x0, 0x0, 0x100, 0x4, 0x0, 0x62, .tether⟩,  -- TTH_CTL
  ⟨0x418004, [], 0x0, 0x7, 0x0, 0x0, 0x0, 0x0, 0x0, .none_⟩,  -- TTH_STAT T24
  ⟨0x400004, [(24, 0x1000)], 0x0, 0x3FFF00FF, 0xC000, 0x0, 0x0, 0x0, 0x0, .none_⟩,  -- TTH_STAT
  ⟨0x400008, [(24, 0x1000)], 0x0, 0x0, 0xFF, 0x0, 0x0, 0x0, 0x0, .none_⟩,  -- TTH_EVT
  ⟨0x418008, [], 0x0, 0x0, 0x0, 0x0, 0x0, 0x0, 0x0, .none_⟩,  -- TTH_EVT T24, inert (R91)
  ⟨0x40000C, [(24, 0x1000)], 0x0, 0xFF00, 0x4, 0x3, 0x0, 0x0, 0x0, .none_⟩,  -- TTH_ENUM
  ⟨0x41800C, [], 0x0, 0x0, 0x0, 0x0, 0x0, 0x0, 0x0, .none_⟩,  -- TTH_ENUM T24, inert (R91)
  ⟨0x400010, [(24, 0x1000)], 0x0, 0x0, 0x0, 0x0, 0x3F, 0x0, 0x3F, .tether⟩,  -- TTH_SPLIT
  ⟨0x418010, [], 0x0, 0x0, 0x0, 0x0, 0x0, 0x0, 0x0, .none_⟩,  -- TTH_SPLIT T24, inert (R91)
  ⟨0x400014, [(24, 0x1000)], 0x0, 0xFFFFFFFF, 0x0, 0x0, 0x0, 0x0, 0x0, .none_⟩,  -- TTH_QW
  ⟨0x418014, [], 0x0, 0x0, 0x0, 0x0, 0x0, 0x0, 0x0, .none_⟩,  -- TTH_QW T24, inert (R91)
  ⟨0x400018, [(24, 0x1000)], 0x0, 0xFFFFFFFF, 0x0, 0x0, 0x0, 0x0, 0x0, .none_⟩,  -- TTH_PRES0
  ⟨0x418018, [], 0x0, 0x0, 0x0, 0x0, 0x0, 0x0, 0x0, .none_⟩,  -- TTH_PRES0 T24, inert (R91)
  ⟨0x40001C, [(24, 0x1000)], 0x0, 0xFFFFFFFF, 0x0, 0x0, 0x0, 0x0, 0x0, .none_⟩,  -- TTH_PRES1
  ⟨0x41801C, [], 0x0, 0x0, 0x0, 0x0, 0x0, 0x0, 0x0, .none_⟩,  -- TTH_PRES1 T24, inert (R91)
  ⟨0x400020, [(24, 0x1000)], 0x0, 0xFFFFFFFF, 0x0, 0x0, 0x0, 0x0, 0x0, .none_⟩,  -- TTH_HOME0
  ⟨0x418020, [], 0x0, 0x0, 0x0, 0x0, 0x0, 0x0, 0x0, .none_⟩,  -- TTH_HOME0 T24, inert (R91)
  ⟨0x400024, [(24, 0x1000)], 0x0, 0xFFFFFFFF, 0x0, 0x0, 0x0, 0x0, 0x0, .none_⟩,  -- TTH_HOME1
  ⟨0x418024, [], 0x0, 0x0, 0x0, 0x0, 0x0, 0x0, 0x0, .none_⟩,  -- TTH_HOME1 T24, inert (R91)
  ⟨0x418044, [], 0x0, 0x0, 0x1FFFF, 0x0, 0x0, 0x0, 0x0, .none_⟩,  -- TTH_ERR1 T24
  ⟨0x418048, [], 0x0, 0x0, 0x1FFFF, 0x0, 0x0, 0x0, 0x0, .none_⟩,  -- TTH_ERR2 T24
  ⟨0x418050, [], 0x0, 0x0, 0x1FFFF, 0x0, 0x0, 0x0, 0x0, .none_⟩,  -- TTH_ERR4 T24
  ⟨0x400040, [(24, 0x1000), (8, 0x4)], 0x0, 0x0, 0x1FFFF, 0x0, 0x0, 0x0, 0x0, .none_⟩  -- TTH_ERR
]

/-- Register rows of BAR0 block 0x400000. -/
def regRows04_1 : List RegRow := [
  ⟨0x418040, [(8, 0x4)], 0x0, 0x0, 0x0, 0x0, 0x0, 0x0, 0x0, .none_⟩  -- TTH_ERR T24, inert (R91)
]

/-- Register rows of BAR0 block 0x500000. -/
def regRows05_0 : List RegRow := [
  ⟨0x500000, [(256, 0x400)], 0x0, 0x0, 0x0, 0x0, 0xFFFFFFFF, 0x0, 0x7, .axis⟩,  -- AXC_CFG
  ⟨0x500004, [(256, 0x400)], 0x0, 0x0, 0x0, 0x0, 0x1FF, 0x0, 0x0, .axis⟩,  -- AXC_GRP
  ⟨0x500008, [(256, 0x400)], 0x0, 0x0, 0x0, 0x0, 0xFFFF, 0x0, 0x0, .axis⟩,  -- AXC_SMP
  ⟨0x50000C, [(256, 0x400)], 0x0, 0x0, 0x0, 0x0, 0x1F3, 0x0, 0x80, .axis⟩,  -- AXC_DLY
  ⟨0x500010, [(256, 0x400)], 0x0, 0x0, 0x0, 0x0, 0x3FF, 0x0, 0x151, .axis⟩,  -- AXC_FLT
  ⟨0x500014, [(256, 0x400)], 0x0, 0x0, 0x0, 0x0, 0xFFFFFFFF, 0x0, 0x0, .axis⟩,  -- AXC_FEMAX
  ⟨0x500018, [(256, 0x400)], 0x0, 0x0, 0x0, 0x1F, 0x0, 0x0, 0x0, .none_⟩,  -- AXC_CMD
  ⟨0x50001C, [(256, 0x400)], 0x0, 0x1FFFFF, 0x0, 0x0, 0x0, 0x0, 0x40000, .none_⟩,  -- AXC_STATE
  ⟨0x500020, [(256, 0x400)], 0x0, 0x0, 0xFF, 0x0, 0x0, 0x0, 0x0, .none_⟩,  -- AXC_STAT
  ⟨0x500024, [(256, 0x400)], 0x0, 0x0, 0x1FFFF, 0x0, 0x0, 0x0, 0x0, .none_⟩,  -- AXC_MISS
  ⟨0x500028, [(256, 0x400)], 0x0, 0x0, 0x1FFFF, 0x0, 0x0, 0x0, 0x0, .none_⟩,  -- AXC_DOVR
  ⟨0x500100, [(256, 0x400), (3, 0x40)], 0x0, 0x0, 0x0, 0x0, 0x3FFDF3, 0x0, 0x104002, .axis⟩,  -- AXC_L_CFG
  ⟨0x500104, [(256, 0x400), (3, 0x40), (4, 0x4)], 0x0, 0x0, 0x0, 0x0, 0xFFFFFF, 0x0, 0x0, .axis⟩,  -- AXC_L_B
  ⟨0x500114, [(256, 0x400), (3, 0x40), (3, 0x4)], 0x0, 0x0, 0x0, 0x0, 0xFFFFFF, 0x0, 0x0, .axis⟩,  -- AXC_L_C
  ⟨0x500120, [(256, 0x400), (3, 0x40)], 0x0, 0x0, 0x0, 0x0, 0xFFFFFF, 0x0, 0x7FFFFF, .axis⟩,  -- AXC_L_YMAX
  ⟨0x500124, [(256, 0x400), (3, 0x40)], 0x0, 0x0, 0x0, 0x0, 0xFFFFFF, 0x0, 0x800000, .axis⟩,  -- AXC_L_YMIN
  ⟨0x500128, [(256, 0x400), (3, 0x40)], 0x0, 0x0, 0x0, 0x0, 0xFFFF, 0x0, 0x0, .axis⟩,  -- AXC_L_FF
  ⟨0x500200, [(256, 0x400)], 0x0, 0x0, 0x0, 0x0, 0x7FF7F, 0x0, 0x18404, .axis⟩,  -- TQ_CFG
  ⟨0x500204, [(256, 0x400)], 0x0, 0x0, 0x0, 0x0, 0xFFFFFF, 0x0, 0x0, .axis⟩,  -- TQ_RS
  ⟨0x500208, [(256, 0x400)], 0x0, 0x0, 0x0, 0x0, 0xFFFFFF, 0x0, 0x0, .axis⟩,  -- TQ_LD
  ⟨0x50020C, [(256, 0x400)], 0x0, 0x0, 0x0, 0x0, 0xFFFFFF, 0x0, 0x0, .axis⟩,  -- TQ_LQ
  ⟨0x500210, [(256, 0x400)], 0x0, 0x0, 0x0, 0x0, 0xFFFFFF, 0x0, 0x1, .axis⟩,  -- TQ_PSIM
  ⟨0x500214, [(256, 0x400)], 0x0, 0x0, 0x0, 0x0, 0xFFFFFF, 0x0, 0x0, .axis⟩,  -- TQ_PSIREF
  ⟨0x500218, [(256, 0x400)], 0x0, 0x0, 0x0, 0x0, 0xFFFFFFFF, 0x0, 0x2000200, .axis⟩  -- TQ_HYST
]

/-- Register rows of BAR0 block 0x500000. -/
def regRows05_1 : List RegRow := [
  ⟨0x50021C, [(256, 0x400)], 0x0, 0x0, 0x0, 0x0, 0xFFFFFFFF, 0x0, 0x3E80064, .axis⟩,  -- TQ_OBS
  ⟨0x500220, [(256, 0x400)], 0x0, 0x0, 0x0, 0x0, 0xFFFFFFFF, 0x0, 0x1401F4, .axis⟩,  -- TQ_OBSG
  ⟨0x500224, [(256, 0x400)], 0x0, 0x0, 0x0, 0x0, 0xFFFFFFFF, 0x0, 0x200000C8, .axis⟩,  -- TQ_PLL
  ⟨0x500228, [(256, 0x400)], 0x0, 0x0, 0x0, 0x0, 0xFFFFFF, 0x0, 0xE0401A, .axis⟩,  -- TQ_LOSS
  ⟨0x50022C, [(256, 0x400)], 0x0, 0x0, 0x0, 0x0, 0xFFFFFFFF, 0x0, 0x84400052, .axis⟩,  -- TQ_CATCH
  ⟨0x500230, [(256, 0x400)], 0x0, 0x0, 0x0, 0x0, 0xFFFFFF, 0x0, 0x53214, .axis⟩,  -- TQ_CATCH2
  ⟨0x500234, [(256, 0x400)], 0x0, 0x0, 0x0, 0x0, 0xFFFFFFFF, 0x0, 0x32000400, .axis⟩,  -- TQ_ALIGN
  ⟨0x500238, [(256, 0x400)], 0x0, 0x0, 0x0, 0x0, 0xFFFFFFFF, 0x0, 0x4007D064, .axis⟩,  -- TQ_ALIGN2
  ⟨0x50023C, [(256, 0x400)], 0x0, 0x0, 0x0, 0x0, 0xFFFFFF, 0x0, 0x0, .axis⟩,  -- TQ_ANGOFF
  ⟨0x500240, [(256, 0x400)], 0x0, 0x0, 0x0, 0x0, 0xFFFFFFFF, 0x0, 0xFA0, .axis⟩,  -- TQ_CPT
  ⟨0x500244, [(256, 0x400)], 0x0, 0x0, 0x0, 0x0, 0xFFFFFF, 0x0, 0x0, .axis⟩,  -- TQ_HALLOFF
  ⟨0x500248, [(256, 0x400)], 0x0, 0x0, 0x0, 0x0, 0xFFFFFFFF, 0x0, 0x64000000, .axis⟩,  -- TQ_TST
  ⟨0x500250, [(256, 0x400)], 0x0, 0x5, 0xFA, 0x0, 0x0, 0x0, 0x0, .none_⟩,  -- TQ_STAT
  ⟨0x500254, [(256, 0x400)], 0x0, 0x7FFF, 0x0, 0x0, 0x0, 0x0, 0x20, .none_⟩,  -- TQ_LIVE
  ⟨0x500260, [(256, 0x400), (4, 0x4)], 0x0, 0x0, 0x1FFFF, 0x0, 0x0, 0x0, 0x0, .none_⟩,  -- TQ_CNT
  ⟨0x500280, [(256, 0x400)], 0x0, 0x0, 0x0, 0x0, 0x7FFFFF, 0x0, 0x320100, .axis⟩,  -- ST_CFG
  ⟨0x500284, [(256, 0x400)], 0x0, 0x0, 0x0, 0x0, 0xFFFFFFFF, 0x0, 0x641F4800, .axis⟩,  -- ST_I
  ⟨0x500288, [(256, 0x400)], 0x0, 0x0, 0x0, 0x0, 0xFFFFFFFF, 0x0, 0x3E803E8, .axis⟩,  -- ST_RL
  ⟨0x50028C, [(256, 0x400)], 0x0, 0x0, 0x0, 0x0, 0xFFFFFF, 0x0, 0x0, .axis⟩,  -- ST_KE
  ⟨0x500290, [(256, 0x400)], 0x0, 0x0, 0x0, 0x0, 0xFFFF, 0x0, 0x6432, .axis⟩,  -- ST_ALIGN
  ⟨0x500294, [(256, 0x400)], 0x0, 0x0, 0x0, 0x0, 0xFFFFFF, 0x0, 0x0, .axis⟩,  -- ST_ANGOFF
  ⟨0x5002A0, [(256, 0x400)], 0x0, 0x0, 0x0, 0x0, 0x1FFFFFFF, 0x0, 0x64000, .axis⟩,  -- CL_DITH
  ⟨0x500300, [(256, 0x400)], 0x0, 0x0, 0x0, 0x0, 0x7FFFFFFF, 0x0, 0x2710, .axis⟩,  -- PRF_VMAX
  ⟨0x500304, [(256, 0x400)], 0x0, 0x0, 0x0, 0x0, 0xFFFFFFFF, 0x0, 0x186A0, .axis⟩  -- PRF_AMAX
]

/-- Register rows of BAR0 block 0x500000. -/
def regRows05_2 : List RegRow := [
  ⟨0x500308, [(256, 0x400)], 0x0, 0x0, 0x0, 0x0, 0xFFFFFFFF, 0x0, 0x186A0, .axis⟩,  -- PRF_DMAX
  ⟨0x50030C, [(256, 0x400)], 0x0, 0x0, 0x0, 0x0, 0xFFFFFFFF, 0x0, 0xF4240, .axis⟩,  -- PRF_JMAX
  ⟨0x500310, [(256, 0x400)], 0x0, 0x0, 0x0, 0x0, 0xFFFFFFFF, 0x0, 0x0, .axis⟩,  -- PRF_DSTOP
  ⟨0x500314, [(256, 0x400)], 0x0, 0x0, 0x0, 0x0, 0xFFFFFFFF, 0x0, 0x0, .axis⟩,  -- PRF_JSTOP
  ⟨0x500318, [(256, 0x400)], 0x0, 0x0, 0x0, 0x0, 0x3F, 0x0, 0x0, .axis⟩,  -- PRF_CFG
  ⟨0x500320, [(256, 0x400)], 0x0, 0x66D, 0x1992, 0x0, 0x0, 0x0, 0x0, .none_⟩  -- PRF_STAT
]

/-- Register rows of BAR0 block 0x600000. -/
def regRows06_0 : List RegRow := [
  ⟨0x630000, [(25, 0x4)], 0x0, 0x0, 0x0, 0x0, 0xFFFFFF, 0x0, 0x0, .tether⟩,  -- LPE_TPHASE
  ⟨0x630100, [], 0x0, 0xFFF1E, 0x1, 0x0, 0x0, 0x0, 0x0, .none_⟩,  -- LPE_ADM
  ⟨0x630200, [(16, 0x4)], 0x0, 0xFFFFFFFF, 0x0, 0x0, 0x0, 0x0, 0x0, .none_⟩,  -- LPE_SLACK
  ⟨0x634000, [(16, 0x10)], 0xFFFFFFFF, 0x0, 0x0, 0x0, 0x0, 0x0, 0x0, .none_⟩,  -- LPE_RM_ID
  ⟨0x634004, [(16, 0x10)], 0x7FF, 0x0, 0x0, 0x0, 0x0, 0x0, 0x64, .none_⟩,  -- LPE_RM_CFG
  ⟨0x634008, [(16, 0x10)], 0xFFFFFFFF, 0x0, 0x0, 0x0, 0x0, 0x0, 0x186A0, .none_⟩,  -- LPE_RM_DEC
  ⟨0x63400C, [(16, 0x10)], 0x0, 0x20000, 0x1FFFF, 0x0, 0x0, 0x0, 0x0, .none_⟩,  -- LPE_RM_STAT
  ⟨0x634200, [(16, 0x10)], 0xFFFFFFFF, 0x0, 0x0, 0x0, 0x0, 0x0, 0x0, .none_⟩,  -- LPE_PUB_ID
  ⟨0x634204, [(16, 0x10)], 0xF7FF, 0x0, 0x0, 0x0, 0x0, 0x0, 0x0, .none_⟩,  -- LPE_PUB_CFG
  ⟨0x634300, [], 0xFFFFFFFF, 0x0, 0x0, 0x0, 0x0, 0x0, 0x0, .none_⟩,  -- LPE_PUB_DA0
  ⟨0x634304, [], 0xFFFF, 0x0, 0x0, 0x0, 0x0, 0x0, 0x0, .none_⟩,  -- LPE_PUB_DA1
  ⟨0x634308, [], 0x0, 0x0, 0x1FFFF, 0x0, 0x0, 0x0, 0x0, .none_⟩,  -- LPE_PUB_STAT
  ⟨0x635000, [(64, 0x10)], 0x0, 0x3FFFF, 0x0, 0x0, 0x0, 0x0, 0x0, .none_⟩,  -- LPE_CAM_BASE
  ⟨0x635004, [(64, 0x10)], 0x0, 0x7FFFF, 0x0, 0x0, 0x0, 0x0, 0x0, .none_⟩,  -- LPE_CAM_N
  ⟨0x635008, [(64, 0x10)], 0x0, 0xFFFFFFFF, 0x0, 0x0, 0x0, 0x0, 0x0, .none_⟩,  -- LPE_CAM_STEP
  ⟨0x63500C, [(64, 0x10)], 0x0, 0x3FF, 0x0, 0x0, 0x0, 0x0, 0x0, .none_⟩,  -- LPE_CAM_CTL
  ⟨0x620000, [(16, 0x100)], 0x0, 0xFFFF00F, 0x3F0, 0x0, 0x0, 0x0, 0x0, .none_⟩,  -- LPE_L_STAT
  ⟨0x620004, [(16, 0x100)], 0x0, 0xFFFFFFFF, 0x0, 0x0, 0x0, 0x0, 0x0, .none_⟩,  -- LPE_L_IMGID
  ⟨0x620008, [(16, 0x100)], 0x0, 0xFFFFFFFF, 0x0, 0x0, 0x0, 0x0, 0x0, .none_⟩,  -- LPE_L_IMGVER
  ⟨0x62000C, [(16, 0x100)], 0x0, 0xFFFFFF, 0x0, 0x0, 0x0, 0x0, 0x0, .none_⟩,  -- LPE_L_WDG
  ⟨0x620010, [(16, 0x100)], 0x0, 0xFFFFFF, 0x0, 0x0, 0x0, 0x0, 0x0, .none_⟩,  -- LPE_L_SPAN
  ⟨0x620014, [(16, 0x100)], 0x0, 0x3FF03FF, 0x0, 0x0, 0x0, 0x0, 0x0, .none_⟩,  -- LPE_L_EVQ
  ⟨0x620018, [(16, 0x100)], 0x0, 0x0, 0x0, 0x1, 0x0, 0x0, 0x0, .none_⟩,  -- LPE_L_CMD
  ⟨0x620020, [(16, 0x100), (4, 0x4)], 0x0, 0x0, 0x1FFFF, 0x0, 0x0, 0x0, 0x0, .none_⟩  -- LPE_L_CNT
]

/-- Register rows of BAR0 block 0x600000. -/
def regRows06_1 : List RegRow := [
  ⟨0x636000, [], 0xFFFF, 0x0, 0x0, 0x0, 0x0, 0x0, 0x0, .none_⟩,  -- LPE_SPARE
  ⟨0x636004, [], 0x0, 0xFFFFFFFF, 0x0, 0x0, 0x0, 0x0, 0x0, .none_⟩,  -- LPE_LROLE
  ⟨0x636008, [], 0x0, 0xFFFF, 0x0, 0x0, 0x0, 0x0, 0x0, .none_⟩,  -- LPE_RETIRE
  ⟨0x63600C, [], 0x0, 0xFFFFF7, 0x8, 0x0, 0x0, 0x0, 0x0, .none_⟩,  -- LPE_MIG
  ⟨0x636100, [(16, 0x4)], 0x0, 0xFFFFFF, 0x1000000, 0x0, 0x0, 0x0, 0x0, .none_⟩  -- LPE_L_STEST
]

/-- Register rows of BAR0 block 0x700000. -/
def regRows07_0 : List RegRow := [
  ⟨0x700000, [], 0x0, 0x0, 0xF, 0x0, 0x0, 0x0, 0x0, .none_⟩,  -- CMP_STAT
  ⟨0x700004, [], 0x0, 0x7FFF, 0x0, 0x0, 0x0, 0x0, 0x4000, .none_⟩,  -- CMP_FREE
  ⟨0x700010, [(4, 0x4)], 0x0, 0x0, 0x1FFFF, 0x0, 0x0, 0x0, 0x0, .none_⟩,  -- CMP_CNT
  ⟨0x700100, [(25, 0x4)], 0x0, 0xFFFF, 0x0, 0x0, 0x0, 0x0, 0x0, .none_⟩,  -- CMP_LEAD
  ⟨0x700200, [(64, 0x4)], 0x0, 0x4, 0x0, 0x8, 0x3, 0x0, 0x0, .cmp⟩,  -- CMP_RG
  ⟨0x710000, [(256, 0x20), (2, 0x4)], 0x7FFF, 0x0, 0x0, 0x0, 0x0, 0x0, 0x0, .none_⟩,  -- LAT_CFG
  ⟨0x710008, [(256, 0x20)], 0x0, 0x0, 0x0, 0x1F, 0x0, 0x0, 0x0, .none_⟩,  -- LAT_CTL
  ⟨0x71000C, [(256, 0x20)], 0x0, 0xBF, 0xFF40, 0x0, 0x0, 0x0, 0x0, .none_⟩  -- LAT_STAT
]

/-- Register rows of BAR0 block 0x800000. -/
def regRows08_0 : List RegRow := [
  ⟨0x800000, [(256, 0x100)], 0x0, 0x0, 0x0, 0x0, 0xF, 0x0, 0x9, .axis⟩,  -- PGN_CFG
  ⟨0x800004, [(256, 0x100)], 0x0, 0x0, 0x0, 0x0, 0xFFFFFFFF, 0x0, 0x61A80, .axis⟩,  -- PGN_PER
  ⟨0x800008, [(256, 0x100)], 0xF, 0x0, 0x0, 0x100, 0x0, 0x0, 0x9, .none_⟩,  -- PGN_TCTL
  ⟨0x80000C, [(256, 0x100)], 0xFFFFFFFF, 0x0, 0x0, 0x0, 0x0, 0x0, 0x61A80, .none_⟩,  -- PGN_TPER
  ⟨0x800020, [(256, 0x100)], 0x0, 0xFFFFFFFF, 0x0, 0x0, 0x0, 0x0, 0x0, .none_⟩,  -- PGN_SEQ
  ⟨0x800024, [(256, 0x100)], 0x0, 0x0, 0x1FFFF, 0x0, 0x0, 0x0, 0x0, .none_⟩,  -- PGN_MINP
  ⟨0x800028, [(256, 0x100)], 0x0, 0x0, 0x1FFFF, 0x0, 0x0, 0x0, 0x0, .none_⟩,  -- PGN_OVWR
  ⟨0x80002C, [(256, 0x100)], 0x0, 0xFF08, 0x17, 0x0, 0x0, 0x0, 0x0, .none_⟩,  -- PGN_STAT
  ⟨0x800010, [(256, 0x100), (4, 0x4)], 0xFFFFF, 0x0, 0x0, 0x0, 0x0, 0x0, 0x0, .none_⟩,  -- PGN_TD
  ⟨0x810000, [(32, 0x10)], 0x0, 0xFFFFFFFF, 0x0, 0x0, 0x0, 0x0, 0x0, .none_⟩,  -- PGN_B_SEQ
  ⟨0x810004, [(32, 0x10)], 0x0, 0x0, 0x1FFFF, 0x0, 0x0, 0x0, 0x0, .none_⟩,  -- PGN_B_MINP
  ⟨0x810008, [(32, 0x10)], 0x0, 0x0, 0x1FFFF, 0x0, 0x0, 0x0, 0x0, .none_⟩,  -- PGN_B_OVWR
  ⟨0x81000C, [(32, 0x10)], 0x0, 0xFF08, 0x17, 0x0, 0x0, 0x0, 0x0, .none_⟩,  -- PGN_B_STAT
  ⟨0x820000, [], 0x0, 0x0, 0x0, 0x0, 0x7FF, 0x0, 0xC0, .pulse⟩,  -- PGN_HCH0
  ⟨0x820004, [], 0x0, 0x0, 0x0, 0x0, 0x7FF, 0x0, 0xC3, .pulse⟩,  -- PGN_HCH1
  ⟨0x820008, [], 0x0, 0x0, 0x0, 0x0, 0x7FF, 0x0, 0xC6, .pulse⟩,  -- PGN_HCH2
  ⟨0x82000C, [], 0x0, 0x0, 0x0, 0x0, 0x7FF, 0x0, 0xC9, .pulse⟩,  -- PGN_HCH3
  ⟨0x820010, [], 0x0, 0x0, 0x0, 0x0, 0x7FF, 0x0, 0xCC, .pulse⟩,  -- PGN_HCH4
  ⟨0x820014, [], 0x0, 0x0, 0x0, 0x0, 0x7FF, 0x0, 0xCF, .pulse⟩,  -- PGN_HCH5
  ⟨0x820018, [], 0x0, 0x0, 0x0, 0x0, 0x7FF, 0x0, 0xD2, .pulse⟩,  -- PGN_HCH6
  ⟨0x82001C, [], 0x0, 0x0, 0x0, 0x0, 0x7FF, 0x0, 0xD5, .pulse⟩,  -- PGN_HCH7
  ⟨0x820020, [], 0x0, 0x0, 0x0, 0x0, 0x7FF, 0x0, 0xD8, .pulse⟩,  -- PGN_HCH8
  ⟨0x820024, [], 0x0, 0x0, 0x0, 0x0, 0x7FF, 0x0, 0xDB, .pulse⟩,  -- PGN_HCH9
  ⟨0x820028, [], 0x0, 0x0, 0x0, 0x0, 0x7FF, 0x0, 0xDE, .pulse⟩  -- PGN_HCH10
]

/-- Register rows of BAR0 block 0x800000. -/
def regRows08_1 : List RegRow := [
  ⟨0x82002C, [], 0x0, 0x0, 0x0, 0x0, 0x7FF, 0x0, 0xE1, .pulse⟩,  -- PGN_HCH11
  ⟨0x820030, [], 0x0, 0x0, 0x0, 0x0, 0x7FF, 0x0, 0xE4, .pulse⟩,  -- PGN_HCH12
  ⟨0x820034, [], 0x0, 0x0, 0x0, 0x0, 0x7FF, 0x0, 0xE7, .pulse⟩,  -- PGN_HCH13
  ⟨0x820038, [], 0x0, 0x0, 0x0, 0x0, 0x7FF, 0x0, 0xEA, .pulse⟩,  -- PGN_HCH14
  ⟨0x82003C, [], 0x0, 0x0, 0x0, 0x0, 0x7FF, 0x0, 0xED, .pulse⟩,  -- PGN_HCH15
  ⟨0x820100, [(48, 0x4)], 0x0, 0x0, 0x0, 0x0, 0xFFFFFF, 0x0, 0x32064, .pulse⟩,  -- PGN_LEG
  ⟨0x820200, [(4, 0x8)], 0x0, 0x0, 0x0, 0x0, 0xFFFFFFFF, 0x0, 0xFFFFFFFF, .pulse⟩,  -- PGN_FLT_MASK0
  ⟨0x820204, [(4, 0x8)], 0x0, 0x0, 0x0, 0x0, 0x3FFFF, 0x0, 0x3FFFF, .pulse⟩,  -- PGN_FLT_MASK1
  ⟨0x820220, [], 0x0, 0x0, 0x0, 0x0, 0xF, 0x0, 0x0, .pulse⟩,  -- PGN_FLT_CTL
  ⟨0x820224, [], 0x0, 0x3000F1F, 0x3F0000, 0x0, 0x0, 0x0, 0x0, .none_⟩,  -- PGN_HSTAT
  ⟨0x820228, [], 0x0, 0x0, 0x0, 0x11F, 0x0, 0x0, 0x0, .none_⟩,  -- PGN_FLT_CMD
  ⟨0x82022C, [(3, 0x4)], 0x0, 0xFFFFFFFF, 0x0, 0x0, 0x0, 0x0, 0x0, .none_⟩  -- PGN_LEGST
]

/-- Register rows of BAR0 block 0x900000. -/
def regRows09_0 : List RegRow := [
  ⟨0x900000, [(256, 0x100)], 0x0, 0x0, 0x0, 0x0, 0x3F07FF, 0x0, 0xF0220, .axis⟩,  -- FBK_CFG
  ⟨0x900004, [(256, 0x100)], 0x0, 0x0, 0x0, 0x0, 0xFFFFFFFF, 0x0, 0xFA0, .axis⟩,  -- FBK_CPR
  ⟨0x900008, [(256, 0x100)], 0x0, 0x0, 0x0, 0x0, 0xFFFFFFFF, 0x0, 0x0, .axis⟩,  -- FBK_IORG
  ⟨0x90000C, [(256, 0x100)], 0x0, 0x0, 0x0, 0x0, 0xFFFF, 0x0, 0x0, .axis⟩,  -- FBK_ITOL
  ⟨0x900010, [(256, 0x100)], 0x0, 0x0, 0x0, 0x0, 0xFFFFFFFF, 0x0, 0xFFFFFFFF, .axis⟩,  -- FBK_MOD
  ⟨0x900014, [(256, 0x100)], 0x0, 0x0, 0x0, 0x0, 0x3FFFFFF, 0x0, 0x640004, .axis⟩,  -- FBK_SPD
  ⟨0x900018, [(256, 0x100)], 0x0, 0x0, 0x0, 0x0, 0xFFFF1FFF, 0x0, 0x140C60, .axis⟩,  -- FBK_SSI
  ⟨0x900020, [(256, 0x100)], 0x0, 0x807, 0x7F8, 0x0, 0x0, 0x0, 0x2, .none_⟩,  -- FBK_STAT
  ⟨0x900024, [(256, 0x100)], 0x0, 0x0, 0x1FFFF, 0x0, 0x0, 0x0, 0x0, .none_⟩,  -- FBK_ILL
  ⟨0x900028, [(256, 0x100)], 0x0, 0x0, 0x1FFFF, 0x0, 0x0, 0x0, 0x0, .none_⟩,  -- FBK_DRIFT
  ⟨0x90002C, [(256, 0x100)], 0x0, 0xFFFFFFFF, 0x0, 0x0, 0x0, 0x0, 0x0, .none_⟩,  -- FBK_IERR
  ⟨0x900030, [(256, 0x100)], 0x0, 0x0, 0x1FFFF, 0x0, 0x0, 0x0, 0x0, .none_⟩,  -- FBK_ICNT
  ⟨0x900034, [(256, 0x100)], 0x0, 0x0, 0x1FFFF, 0x0, 0x0, 0x0, 0x0, .none_⟩,  -- FBK_FERR
  ⟨0x910000, [(4, 0x20)], 0x0, 0x0, 0x0, 0x0, 0xF3, 0x0, 0x0, .pulse⟩,  -- FBK_EMU_CTL
  ⟨0x910004, [(4, 0x20)], 0x0, 0x0, 0x0, 0x0, 0xFFFFFF, 0x0, 0x1, .pulse⟩,  -- FBK_EMU_NUM
  ⟨0x910008, [(4, 0x20)], 0x0, 0x0, 0x0, 0x0, 0xFFFFFF, 0x0, 0x1, .pulse⟩,  -- FBK_EMU_DEN
  ⟨0x91000C, [(4, 0x20)], 0x0, 0x0, 0x0, 0x0, 0xFFFFFFFF, 0x0, 0x0, .pulse⟩,  -- FBK_EMU_ZCPR
  ⟨0x910010, [(4, 0x20)], 0x0, 0xFFFFFFFF, 0x0, 0x0, 0x0, 0x0, 0x0, .none_⟩,  -- FBK_EMU_CNT
  ⟨0x910014, [(4, 0x20)], 0x0, 0x0, 0x1, 0x0, 0x0, 0x0, 0x0, .none_⟩  -- FBK_EMU_STAT
]

/-- Register rows of BAR0 block 0xA00000. -/
def regRows0A_0 : List RegRow := [
  ⟨0xA00000, [(32, 0x100)], 0x0, 0x0, 0x0, 0x0, 0x3FFFF, 0x0, 0xF000, .bus⟩,  -- BUS_G_CFG
  ⟨0xA00004, [(32, 0x100)], 0x0, 0x0, 0x0, 0x0, 0xFFFFFFFF, 0x0, 0xFFFFFFFF, .bus⟩,  -- BUS_G_V0
  ⟨0xA00008, [(32, 0x100)], 0x0, 0x0, 0x0, 0x0, 0xFFFFFFFF, 0x0, 0xFFFFFFFF, .bus⟩,  -- BUS_G_V1
  ⟨0xA0000C, [(32, 0x100)], 0x0, 0x0, 0x0, 0x0, 0xFFFFFFFF, 0x0, 0x40080140, .bus⟩,  -- BUS_G_BAL
  ⟨0xA00010, [(32, 0x100)], 0x0, 0x0, 0x0, 0x0, 0xFFF7, 0x0, 0xCD5, .bus⟩,  -- BUS_G_BCFG
  ⟨0xA00014, [(32, 0x100)], 0x0, 0x0, 0x0, 0x0, 0xFFFFFFFF, 0x0, 0x61A80, .bus⟩,  -- BUS_G_BPER
  ⟨0xA00018, [(32, 0x100)], 0x0, 0x0, 0x0, 0x1, 0x0, 0x0, 0x0, .none_⟩,  -- BUS_G_CMD
  ⟨0xA0001C, [(32, 0x100)], 0x0, 0x3F, 0x3C0, 0x0, 0x0, 0x0, 0x0, .none_⟩,  -- BUS_G_STAT
  ⟨0xA00020, [(32, 0x100)], 0x0, 0x1FFFFFF, 0x0, 0x0, 0x0, 0x0, 0x0, .none_⟩,  -- BUS_G_LIVE
  ⟨0xA00030, [(32, 0x100), (4, 0x4)], 0x0, 0x0, 0x1FFFF, 0x0, 0x0, 0x0, 0x0, .none_⟩,  -- BUS_G_CNT
  ⟨0xA02000, [], 0x1F, 0x0, 0x0, 0x0, 0x0, 0x0, 0x0, .none_⟩,  -- BUS_CTL
  ⟨0xA02004, [], 0x0, 0x0, 0x0, 0x0, 0xFFFF, 0x0, 0x0, .bus⟩,  -- BUS_HGRP
  ⟨0xA02008, [], 0x0, 0x0, 0x0, 0x0, 0xFFFFFFFF, 0x0, 0x0, .bus⟩,  -- BUS_HSCALE
  ⟨0xA0200C, [], 0x0, 0x0, 0x1, 0x0, 0x0, 0x0, 0x0, .none_⟩,  -- BUS_STAT
  ⟨0xA04000, [(24, 0x40), (16, 0x4)], 0x0, 0x0, 0x0, 0x0, 0x9F9F9F9F, 0x0, 0x0, .bus⟩  -- BUS_GMAP
]

/-- Register rows of BAR0 block 0xB00000. -/
def regRows0B_0 : List RegRow := [
  ⟨0xB00000, [], 0x9F, 0x0, 0x0, 0x0, 0x0, 0x0, 0x0, .none_⟩,  -- FIO_CTL
  ⟨0xB00004, [], 0x0, 0x0, 0x0, 0x0, 0x3FF, 0x0, 0xA, .fio⟩,  -- FIO_SIL
  ⟨0xB00008, [], 0x0, 0x8, 0x7, 0x0, 0x0, 0x0, 0x1, .none_⟩,  -- FIO_STAT
  ⟨0xB0000C, [], 0x0, 0x0, 0x0, 0xFFFFFFFF, 0x0, 0x0, 0x0, .none_⟩,  -- FIO_CMD
  ⟨0xB00010, [], 0x0, 0xFFFFFFFF, 0x0, 0x0, 0x0, 0x0, 0x0, .none_⟩,  -- FIO_IN
  ⟨0xB00014, [], 0x0, 0xFFFFFFFF, 0x0, 0x0, 0x0, 0x0, 0x0, .none_⟩,  -- FIO_INRAW
  ⟨0xB00018, [], 0x0, 0xFFFFFFFF, 0x0, 0x0, 0x0, 0x0, 0x0, .none_⟩,  -- FIO_INCPL
  ⟨0xB0001C, [], 0x0, 0x0, 0x0, 0x0, 0x0, 0xFFFFFFFF, 0x0, .none_⟩,  -- FIO_FOUT
  ⟨0xB00020, [], 0x0, 0xFFFFFFFF, 0x0, 0x0, 0x0, 0x0, 0xFFFF0000, .none_⟩,  -- FIO_FOUTST
  ⟨0xB00100, [(32, 0x4)], 0x0, 0x0, 0x0, 0x0, 0x3FFFF, 0x0, 0x3E8, .fio⟩,  -- FIO_FIN_CFG
  ⟨0xB00180, [(32, 0x4)], 0x0, 0xFFFF, 0x3FF0000, 0x0, 0x0, 0x0, 0x0, .none_⟩,  -- FIO_FIN_STAT
  ⟨0xB00200, [(16, 0x4)], 0x0, 0x0, 0x0, 0x0, 0xF, 0x0, 0x0, .fio⟩,  -- FIO_FOUT_CFG
  ⟨0xB00240, [(16, 0x4)], 0x0, 0x7, 0x1FF08, 0x0, 0x0, 0x0, 0x0, .none_⟩  -- FIO_FOUT_STAT
]

/-- Register rows of BAR0 block 0xC00000. -/
def regRows0C_0 : List RegRow := [
  ⟨0xC00000, [], 0x0, 0xFFFFFFFF, 0x0, 0x0, 0x0, 0x0, 0x0, .none_⟩,  -- ANC_STAT
  ⟨0xC00004, [], 0x0, 0x1FFFFFF, 0x0, 0x0, 0x0, 0x0, 0x0, .none_⟩,  -- ANC_STRAP
  ⟨0xC00008, [], 0x0, 0x1FFFFFF, 0x0, 0x0, 0x0, 0x0, 0x0, .none_⟩,  -- ANC_RIPCL
  ⟨0xC0000C, [], 0x0, 0x1FFFFFF, 0x0, 0x0, 0x0, 0x0, 0x1FFFFFF, .none_⟩,  -- ANC_RIPLAT
  ⟨0xC00010, [], 0x1FFFFFF, 0x0, 0x0, 0x0, 0x0, 0x0, 0x1FFFFFF, .none_⟩,  -- ANC_HOLDOPEN
  ⟨0xC00014, [], 0x0, 0x0, 0x0, 0x1FFFFFF, 0x0, 0x0, 0x0, .none_⟩,  -- ANC_REQ0
  ⟨0xC00018, [], 0x0, 0x0, 0x0, 0x1, 0x0, 0x0, 0x0, .none_⟩,  -- ANC_REQ1
  ⟨0xC0001C, [], 0x0, 0x0, 0x1FFF, 0x0, 0x0, 0x0, 0x0, .none_⟩,  -- ANC_EVT
  ⟨0xC00040, [], 0x0, 0xFF, 0x0, 0x0, 0x0, 0x0, 0x0, .none_⟩,  -- ANC_GUARD
  ⟨0xC00020, [(4, 0x4)], 0x0, 0x0, 0x1FFFF, 0x0, 0x0, 0x0, 0x0, .none_⟩,  -- ANC_CNT
  ⟨0xC00100, [(25, 0x4)], 0x0, 0xFF0FF7, 0x0, 0x0, 0x0, 0x0, 0x1B0, .none_⟩  -- ANC_LOOP
]

/-- Register rows of BAR0 block 0xD00000. -/
def regRows0D_0 : List RegRow := [
  ⟨0xD00000, [(2, 0x100)], 0xFF, 0x0, 0x0, 0x0, 0x0, 0x0, 0x4, .none_⟩,  -- NET_ETH_CFG
  ⟨0xD00004, [(2, 0x100)], 0xFFFFFFFF, 0x0, 0x0, 0x0, 0x0, 0x0, 0x0, .none_⟩,  -- NET_ETH_MAC0
  ⟨0xD00008, [(2, 0x100)], 0xFFFF, 0x0, 0x0, 0x0, 0x0, 0x0, 0x0, .none_⟩,  -- NET_ETH_MAC1
  ⟨0xD00010, [(2, 0x100), (2, 0x4)], 0x0, 0x0, 0x1FFFF, 0x0, 0x0, 0x0, 0x0, .none_⟩,  -- NET_ETH_CNT
  ⟨0xD10000, [(4, 0x100)], 0xFF0F, 0x0, 0x0, 0x0, 0x0, 0x0, 0x0, .none_⟩,  -- NET_CAN_CFG
  ⟨0xD10004, [(4, 0x100)], 0xFFFFFFFF, 0x0, 0x0, 0x0, 0x0, 0x0, 0x0, .none_⟩,  -- NET_CAN_NBT
  ⟨0xD10008, [(4, 0x100)], 0xFFFFFFFF, 0x0, 0x0, 0x0, 0x0, 0x0, 0x0, .none_⟩,  -- NET_CAN_DBT
  ⟨0xD1000C, [(4, 0x100)], 0x0, 0xFFFF03, 0x0, 0x0, 0x0, 0x0, 0x0, .none_⟩,  -- NET_CAN_STAT
  ⟨0xD10010, [(4, 0x100), (3, 0x4)], 0x0, 0x0, 0x1FFFF, 0x0, 0x0, 0x0, 0x0, .none_⟩,  -- NET_CAN_CNT
  ⟨0xD20000, [], 0x1FF, 0x0, 0x0, 0x0, 0x0, 0x0, 0x0, .none_⟩,  -- NET_STR_CFG
  ⟨0xD20004, [], 0x0, 0x3, 0x4, 0x0, 0x0, 0x0, 0x0, .none_⟩,  -- NET_STR_STAT
  ⟨0xD20008, [], 0x0, 0x1FFFFFF, 0x0, 0x0, 0x0, 0x0, 0x1000000, .none_⟩,  -- NET_STR_CRED
  ⟨0xD20010, [(5, 0x4)], 0x0, 0x0, 0x1FFFF, 0x0, 0x0, 0x0, 0x0, .none_⟩  -- NET_STR_CNT
]

/-- Register rows of BAR0 block 0xE00000. -/
def regRows0E_0 : List RegRow := [
  ⟨0xE00000, [(4, 0x100)], 0x3FFFFFF, 0x0, 0x0, 0x0, 0x0, 0x0, 0x0, .none_⟩,  -- MBX_REQ
  ⟨0xE00004, [(4, 0x100)], 0x0, 0xFFFF0F03, 0x4, 0x0, 0x0, 0x0, 0x0, .none_⟩,  -- MBX_STAT
  ⟨0xE00010, [(4, 0x100), (8, 0x4)], 0xFFFFFFFF, 0x0, 0x0, 0x0, 0x0, 0x0, 0x0, .none_⟩,  -- MBX_DATA
  ⟨0xE10000, [], 0xFFFF0FFF, 0x0, 0x0, 0x0, 0x0, 0x0, 0x100A00D4, .none_⟩,  -- FLOG_CTL
  ⟨0xE10004, [], 0x3FF03FF, 0x0, 0x0, 0x0, 0x0, 0x0, 0x3F0000, .none_⟩,  -- FLOG_AREA
  ⟨0xE10008, [], 0x1F, 0x0, 0x0, 0x0, 0x0, 0x0, 0x0, .none_⟩,  -- FLOG_TRIGM
  ⟨0xE1000C, [], 0x0, 0x0, 0x0, 0x3, 0x0, 0x0, 0x0, .none_⟩,  -- FLOG_CMD
  ⟨0xE10010, [], 0x0, 0x3, 0xC, 0x0, 0x0, 0x0, 0x0, .none_⟩,  -- FLOG_STAT
  ⟨0xE10014, [], 0x0, 0x3FFFFFF, 0x0, 0x0, 0x0, 0x0, 0x0, .none_⟩,  -- FLOG_FILL
  ⟨0xE10020, [(8, 0x4)], 0xFFFFFFFF, 0x0, 0x0, 0x0, 0x0, 0x0, 0x0, .none_⟩,  -- FLOG_TRACE
  ⟨0xE10040, [(5, 0x4)], 0x0, 0x0, 0x1FFFF, 0x0, 0x0, 0x0, 0x0, .none_⟩,  -- FLOG_LOST
  ⟨0xE20000, [], 0x0, 0x7FF, 0x0, 0x0, 0x0, 0x0, 0x0, .none_⟩,  -- PIL_STAT
  ⟨0xE20004, [], 0x0, 0xFFFFFFFF, 0x0, 0x0, 0x0, 0x0, 0x0, .none_⟩,  -- PIL_VERA
  ⟨0xE20008, [], 0x0, 0xFFFFFFFF, 0x0, 0x0, 0x0, 0x0, 0x0, .none_⟩,  -- PIL_VERB
  ⟨0xE2000C, [], 0x0, 0xFFFF3FFF, 0x0, 0x0, 0x0, 0x0, 0x0, .none_⟩  -- SU_STAT
]

/-- The rows of the block of 1 MB that holds an offset. -/
def regRows (blk : Nat) : List RegRow :=
  match blk with
  | 0x0 => regRows00_0
  | 0x1 => regRows01_0 ++ regRows01_1
  | 0x2 => regRows02_0 ++ regRows02_1
  | 0x3 => regRows03_0
  | 0x4 => regRows04_0 ++ regRows04_1
  | 0x5 => regRows05_0 ++ regRows05_1 ++ regRows05_2
  | 0x6 => regRows06_0 ++ regRows06_1
  | 0x7 => regRows07_0
  | 0x8 => regRows08_0 ++ regRows08_1
  | 0x9 => regRows09_0
  | 0xA => regRows0A_0
  | 0xB => regRows0B_0
  | 0xC => regRows0C_0
  | 0xD => regRows0D_0
  | 0xE => regRows0E_0
  | _ => []

/-- Does an offset from a row's base hit one of its registers? -/
def dimsHit : List (Nat × Nat) → Nat → Bool
  | [], r => r == 0
  | (c, s) :: ds, r => decide (r / s < c) && dimsHit ds (r % s)

/-- The row that holds the register at offset `off`; none where no register is implemented (R429). -/
def regRow (off : Nat) : Option RegRow :=
  (regRows (off / 0x100000)).find? (fun r => decide (r.base ≤ off) && dimsHit r.dims (off - r.base))

/-- The reset value of the register at offset `off`; an unimplemented offset reads 0 (R429). -/
def regReset (off : Nat) : Word :=
  match regRow off with
  | some r => BitVec.ofNat 32 r.reset
  | none => 0

/-- Offset of FTM_CTL. -/
def rFTM_CTL : Nat := 0x300000
def fFTM_CTL_PPS_EN : Bits := ⟨0, 1⟩
def fFTM_CTL_PPS_SRC : Bits := ⟨1, 1⟩
def fFTM_CTL_TDIST_EN : Bits := ⟨2, 1⟩
def fFTM_CTL_TDIST : Bits := ⟨4, 2⟩
/-- Offset of FTM_INC_INT. -/
def rFTM_INC_INT : Nat := 0x300004
def fFTM_INC_INT_INT : Sh := ⟨0, 8⟩
/-- Offset of FTM_INC_FRAC. -/
def rFTM_INC_FRAC : Nat := 0x300008
def fFTM_INC_FRAC_FRAC : Sh := ⟨0, 32⟩
/-- Offset of FTM_STAT. -/
def rFTM_STAT : Nat := 0x30000C
def fFTM_STAT_INC_SAT : Bits := ⟨0, 1⟩
def fFTM_STAT_STEP_CNT : Bits := ⟨16, 16⟩
/-- Offset of FTM_PPS_CTL. -/
def rFTM_PPS_CTL : Nat := 0x300010
def fFTM_PPS_CTL_PHASE : Bits := ⟨0, 30⟩
def fFTM_PPS_CTL_WIDTH : Bits := ⟨30, 2⟩
/-- Offset of FTM_TSI_CTL. -/
def rFTM_TSI_CTL : Nat := 0x300014
def fFTM_TSI_CTL_EDGE (i : Nat) : Bits := ⟨0 + 2 * i, 2⟩
/-- Offset of FTM_TSI_STAT. -/
def rFTM_TSI_STAT : Nat := 0x300018
def fFTM_TSI_STAT_TSI_OVF : Bits := ⟨0, 4⟩
def fFTM_TSI_STAT_CNT0 : Bits := ⟨16, 3⟩
def fFTM_TSI_STAT_CNT1 : Bits := ⟨19, 3⟩
def fFTM_TSI_STAT_CNT2 : Bits := ⟨22, 3⟩
def fFTM_TSI_STAT_CNT3 : Bits := ⟨25, 3⟩
/-- Offset of FTM_TXTS_STAT. -/
def rFTM_TXTS_STAT : Nat := 0x300028
def fFTM_TXTS_STAT_TXTS_OVF0 : Bits := ⟨0, 1⟩
def fFTM_TXTS_STAT_TXTS_OVF1 : Bits := ⟨1, 1⟩
def fFTM_TXTS_STAT_CNT0 : Bits := ⟨8, 4⟩
def fFTM_TXTS_STAT_CNT1 : Bits := ⟨12, 4⟩
def fFTM_TXTS_STAT_LOST0 : Bits := ⟨16, 8⟩
def fFTM_TXTS_STAT_LOST1 : Bits := ⟨24, 8⟩
/-- Offset of FTM_ETH_LAT. -/
def rFTM_ETH_LAT (e : Nat) : Nat := 0x300020 + e * 0x4
def fFTM_ETH_LAT_RXLAT : Bits := ⟨0, 16⟩
def fFTM_ETH_LAT_TXLAT : Bits := ⟨16, 16⟩
/-- Offset of FTM_TC_CTL. -/
def rFTM_TC_CTL (n : Nat) : Nat := 0x300080 + n * 0x10
def fFTM_TC_CTL_EN : Bits := ⟨0, 1⟩
def fFTM_TC_CTL_ACT_EVT : Bits := ⟨1, 1⟩
def fFTM_TC_CTL_ACT_LAT : Bits := ⟨2, 1⟩
def fFTM_TC_CTL_ACT_PLS : Bits := ⟨3, 1⟩
def fFTM_TC_CTL_CQ : Bits := ⟨8, 5⟩
/-- Offset of FTM_TC_STAT. -/
def rFTM_TC_STAT (n : Nat) : Nat := 0x300084 + n * 0x10
def fFTM_TC_STAT_FIRED : Bits := ⟨0, 1⟩
def fFTM_TC_STAT_LATE : Bits := ⟨1, 1⟩
def fFTM_TC_STAT_STEPPED : Bits := ⟨2, 1⟩
def fFTM_TC_STAT_SKIP : Bits := ⟨16, 16⟩
/-- Offset of TTH_CTL. -/
def rTTH_CTL (n : Nat) : Nat := 0x400000 + n * 0x1000
def fTTH_CTL_EN : Bits := ⟨0, 1⟩
def fTTH_CTL_AUTO_ENUM : Bits := ⟨1, 1⟩
def fTTH_CTL_RING : Sh := ⟨2, 1⟩
def fTTH_CTL_SWING : Bits := ⟨4, 2⟩
def fTTH_CTL_DEEMPH : Bits := ⟨6, 2⟩
def fTTH_CTL_RETRAIN : Bits := ⟨8, 1⟩
/-- Offset of TTH_STAT. -/
def rTTH_STAT (n : Nat) : Nat := 0x400004 + n * 0x1000
def fTTH_STAT_LINK : Bits := ⟨0, 3⟩
def fTTH_STAT_LOCK : Bits := ⟨3, 1⟩
def fTTH_STAT_RING_ACT : Bits := ⟨4, 1⟩
def fTTH_STAT_RING_BROKEN : Bits := ⟨5, 1⟩
def fTTH_STAT_RING_WHOLE : Bits := ⟨6, 1⟩
def fTTH_STAT_ENUM_BUSY : Bits := ⟨7, 1⟩
def fTTH_STAT_ENUM_OVER : Bits := ⟨14, 1⟩
def fTTH_STAT_AXIS_OVER : Bits := ⟨15, 1⟩
def fTTH_STAT_NGOND : Bits := ⟨16, 7⟩
def fTTH_STAT_BRKSEG : Bits := ⟨23, 7⟩
/-- Offset of TTH_EVT. -/
def rTTH_EVT (n : Nat) : Nat := 0x400008 + n * 0x1000
def fTTH_EVT_UP : Bits := ⟨0, 1⟩
def fTTH_EVT_DOWN : Bits := ⟨1, 1⟩
def fTTH_EVT_GSEEN : Bits := ⟨2, 1⟩
def fTTH_EVT_GLOST : Bits := ⟨3, 1⟩
def fTTH_EVT_ENUM_DONE : Bits := ⟨4, 1⟩
def fTTH_EVT_RING_BREAK : Bits := ⟨5, 1⟩
def fTTH_EVT_RING_CLOSE : Bits := ⟨6, 1⟩
def fTTH_EVT_IDENT_NEW : Bits := ⟨7, 1⟩
/-- Offset of TTH_ENUM. -/
def rTTH_ENUM (n : Nat) : Nat := 0x40000C + n * 0x1000
def fTTH_ENUM_START : Bits := ⟨0, 1⟩
def fTTH_ENUM_ATTACH : Bits := ⟨1, 1⟩
def fTTH_ENUM_REFUSED : Bits := ⟨2, 1⟩
def fTTH_ENUM_EPOCH : Bits := ⟨8, 8⟩
/-- Offset of TTH_SPLIT. -/
def rTTH_SPLIT (n : Nat) : Nat := 0x400010 + n * 0x1000
def fTTH_SPLIT_M : Sh := ⟨0, 6⟩
/-- Offset of TTH_QW. -/
def rTTH_QW (n : Nat) : Nat := 0x400014 + n * 0x1000
def fTTH_QW_QLEN : Bits := ⟨0, 16⟩
def fTTH_QW_SPAN : Bits := ⟨16, 16⟩
/-- Offset of TTH_PRES0. -/
def rTTH_PRES0 (n : Nat) : Nat := 0x400018 + n * 0x1000
def fTTH_PRES0_PRES : Bits := ⟨0, 32⟩
/-- Offset of TTH_PRES1. -/
def rTTH_PRES1 (n : Nat) : Nat := 0x40001C + n * 0x1000
def fTTH_PRES1_PRES : Bits := ⟨0, 32⟩
/-- Offset of TTH_HOME0. -/
def rTTH_HOME0 (n : Nat) : Nat := 0x400020 + n * 0x1000
def fTTH_HOME0_HOME : Bits := ⟨0, 32⟩
/-- Offset of TTH_HOME1. -/
def rTTH_HOME1 (n : Nat) : Nat := 0x400024 + n * 0x1000
def fTTH_HOME1_HOME : Bits := ⟨0, 32⟩
/-- Offset of TTH_ERR. -/
def rTTH_ERR (n k : Nat) : Nat := 0x400040 + n * 0x1000 + k * 0x4
def fTTH_ERR_COUNT : Bits := ⟨0, 16⟩
def fTTH_ERR_OVF : Bits := ⟨16, 1⟩
/-- Offset of FBK_CFG. -/
def rFBK_CFG (n : Nat) : Nat := 0x900000 + n * 0x100
def fFBK_CFG_SRC : Sh := ⟨0, 3⟩
def fFBK_CFG_DIR : Sh := ⟨3, 1⟩
def fFBK_CFG_MODULO : Sh := ⟨4, 1⟩
def fFBK_CFG_IPOL : Sh := ⟨5, 2⟩
def fFBK_CFG_ILLACT : Sh := ⟨7, 2⟩
def fFBK_CFG_PLIM_F : Sh := ⟨9, 1⟩
def fFBK_CFG_SSIGRAY : Sh := ⟨10, 1⟩
def fFBK_CFG_MAXW : Sh := ⟨16, 6⟩
/-- Offset of FBK_CPR. -/
def rFBK_CPR (n : Nat) : Nat := 0x900004 + n * 0x100
def fFBK_CPR_CPR : Sh := ⟨0, 32⟩
/-- Offset of FBK_IORG. -/
def rFBK_IORG (n : Nat) : Nat := 0x900008 + n * 0x100
def fFBK_IORG_INDEX_ORG : Sh := ⟨0, 32⟩
/-- Offset of FBK_ITOL. -/
def rFBK_ITOL (n : Nat) : Nat := 0x90000C + n * 0x100
def fFBK_ITOL_INDEX_TOL : Sh := ⟨0, 16⟩
/-- Offset of FBK_MOD. -/
def rFBK_MOD (n : Nat) : Nat := 0x900010 + n * 0x100
def fFBK_MOD_M : Sh := ⟨0, 32⟩
/-- Offset of FBK_SPD. -/
def rFBK_SPD (n : Nat) : Nat := 0x900014 + n * 0x100
def fFBK_SPD_MINC : Sh := ⟨0, 16⟩
def fFBK_SPD_STILL : Sh := ⟨16, 10⟩
/-- Offset of FBK_SSI. -/
def rFBK_SSI (n : Nat) : Nat := 0x900018 + n * 0x100
def fFBK_SSI_SHIFT : Sh := ⟨0, 5⟩
def fFBK_SSI_ERRN : Sh := ⟨5, 3⟩
def fFBK_SSI_WIDTH : Sh := ⟨8, 5⟩
def fFBK_SSI_TREC : Sh := ⟨16, 8⟩
def fFBK_SSI_JMAX : Sh := ⟨24, 8⟩
/-- Offset of FBK_STAT. -/
def rFBK_STAT (n : Nat) : Nat := 0x900020 + n * 0x100
def fFBK_STAT_REFD : Bits := ⟨0, 1⟩
def fFBK_STAT_STILL : Bits := ⟨1, 1⟩
def fFBK_STAT_PLIM_NOW : Bits := ⟨2, 1⟩
def fFBK_STAT_POSLIM : Bits := ⟨3, 1⟩
def fFBK_STAT_IDXOVER : Bits := ⟨4, 1⟩
def fFBK_STAT_SSIERR : Bits := ⟨5, 1⟩
def fFBK_STAT_HALLERR : Bits := ⟨6, 1⟩
def fFBK_STAT_ILLSEEN : Bits := ⟨7, 1⟩
def fFBK_STAT_CFGSAT : Bits := ⟨8, 1⟩
def fFBK_STAT_TURNS_OVF : Bits := ⟨9, 1⟩
def fFBK_STAT_IDXSKIP : Bits := ⟨10, 1⟩
def fFBK_STAT_SHIFT_PEND : Bits := ⟨11, 1⟩
/-- Offset of FBK_ILL. -/
def rFBK_ILL (n : Nat) : Nat := 0x900024 + n * 0x100
def fFBK_ILL_COUNT : Bits := ⟨0, 16⟩
def fFBK_ILL_OVF : Bits := ⟨16, 1⟩
/-- Offset of FBK_DRIFT. -/
def rFBK_DRIFT (n : Nat) : Nat := 0x900028 + n * 0x100
def fFBK_DRIFT_COUNT : Bits := ⟨0, 16⟩
def fFBK_DRIFT_OVF : Bits := ⟨16, 1⟩
/-- Offset of FBK_IERR. -/
def rFBK_IERR (n : Nat) : Nat := 0x90002C + n * 0x100
def fFBK_IERR_E : Bits := ⟨0, 32⟩
/-- Offset of FBK_ICNT. -/
def rFBK_ICNT (n : Nat) : Nat := 0x900030 + n * 0x100
def fFBK_ICNT_COUNT : Bits := ⟨0, 16⟩
def fFBK_ICNT_OVF : Bits := ⟨16, 1⟩
/-- Offset of FBK_FERR. -/
def rFBK_FERR (n : Nat) : Nat := 0x900034 + n * 0x100
def fFBK_FERR_COUNT : Bits := ⟨0, 16⟩
def fFBK_FERR_OVF : Bits := ⟨16, 1⟩
/-- Offset of FBK_EMU_CTL. -/
def rFBK_EMU_CTL (e : Nat) : Nat := 0x910000 + e * 0x20
def fFBK_EMU_CTL_EN : Sh := ⟨0, 1⟩
def fFBK_EMU_CTL_DIR : Sh := ⟨1, 1⟩
def fFBK_EMU_CTL_SRC : Sh := ⟨4, 4⟩
/-- Offset of FBK_EMU_NUM. -/
def rFBK_EMU_NUM (e : Nat) : Nat := 0x910004 + e * 0x20
def fFBK_EMU_NUM_NUM : Sh := ⟨0, 24⟩
/-- Offset of FBK_EMU_DEN. -/
def rFBK_EMU_DEN (e : Nat) : Nat := 0x910008 + e * 0x20
def fFBK_EMU_DEN_DEN : Sh := ⟨0, 24⟩
/-- Offset of FBK_EMU_ZCPR. -/
def rFBK_EMU_ZCPR (e : Nat) : Nat := 0x91000C + e * 0x20
def fFBK_EMU_ZCPR_ZCPR : Sh := ⟨0, 32⟩
/-- Offset of FBK_EMU_CNT. -/
def rFBK_EMU_CNT (e : Nat) : Nat := 0x910010 + e * 0x20
def fFBK_EMU_CNT_OUT : Bits := ⟨0, 32⟩
/-- Offset of FBK_EMU_STAT. -/
def rFBK_EMU_STAT (e : Nat) : Nat := 0x910014 + e * 0x20
def fFBK_EMU_STAT_RATIOSAT : Bits := ⟨0, 1⟩
/-- Offset of AXC_CFG. -/
def rAXC_CFG (n : Nat) : Nat := 0x500000 + n * 0x400
def fAXC_CFG_TYPE : Sh := ⟨0, 2⟩
def fAXC_CFG_CLASS : Sh := ⟨2, 2⟩
def fAXC_CFG_LANE : Sh := ⟨4, 4⟩
def fAXC_CFG_TETHER : Sh := ⟨8, 5⟩
def fAXC_CFG_POS : Sh := ⟨13, 6⟩
def fAXC_CFG_CH : Sh := ⟨19, 4⟩
def fAXC_CFG_VDIV : Sh := ⟨23, 2⟩
def fAXC_CFG_PDIV : Sh := ⟨25, 3⟩
def fAXC_CFG_CMODE : Sh := ⟨28, 2⟩
def fAXC_CFG_CATCHEN : Sh := ⟨30, 1⟩
def fAXC_CFG_INPLAN : Sh := ⟨31, 1⟩
/-- Offset of AXC_GRP. -/
def rAXC_GRP (n : Nat) : Nat := 0x500004 + n * 0x400
def fAXC_GRP_RGRP : Sh := ⟨0, 6⟩
def fAXC_GRP_RGEN : Sh := ⟨6, 1⟩
def fAXC_GRP_RGSTOP : Sh := ⟨7, 2⟩
/-- Offset of AXC_SMP. -/
def rAXC_SMP (n : Nat) : Nat := 0x500008 + n * 0x400
def fAXC_SMP_SOFF : Sh := ⟨0, 16⟩
/-- Offset of AXC_DLY. -/
def rAXC_DLY (n : Nat) : Nat := 0x50000C + n * 0x400
def fAXC_DLY_DSEL : Sh := ⟨0, 2⟩
def fAXC_DLY_WIN : Sh := ⟨4, 5⟩
/-- Offset of AXC_FLT. -/
def rAXC_FLT (n : Nat) : Nat := 0x500010 + n * 0x400
def fAXC_FLT_ACT_LOCK : Sh := ⟨0, 2⟩
def fAXC_FLT_ACT_FOLLOW : Sh := ⟨2, 2⟩
def fAXC_FLT_ACT_POSLIM : Sh := ⟨4, 2⟩
def fAXC_FLT_ACT_INDEX : Sh := ⟨6, 2⟩
def fAXC_FLT_ACT_ILL : Sh := ⟨8, 2⟩
/-- Offset of AXC_FEMAX. -/
def rAXC_FEMAX (n : Nat) : Nat := 0x500014 + n * 0x400
def fAXC_FEMAX_FEMAX : Sh := ⟨0, 32⟩
/-- Offset of AXC_CMD. -/
def rAXC_CMD (n : Nat) : Nat := 0x500018 + n * 0x400
def fAXC_CMD_ARM : Bits := ⟨0, 1⟩
def fAXC_CMD_ENABLE : Bits := ⟨1, 1⟩
def fAXC_CMD_DISABLE : Bits := ⟨2, 1⟩
def fAXC_CMD_TEST : Bits := ⟨3, 1⟩
def fAXC_CMD_FCLR : Bits := ⟨4, 1⟩
/-- Offset of AXC_STATE. -/
def rAXC_STATE (n : Nat) : Nat := 0x50001C + n * 0x400
def fAXC_STATE_STATE : Bits := ⟨0, 4⟩
def fAXC_STATE_PREV : Bits := ⟨4, 4⟩
def fAXC_STATE_FCAUSE : Bits := ⟨8, 8⟩
def fAXC_STATE_SKIND : Bits := ⟨16, 2⟩
def fAXC_STATE_NOPWR : Bits := ⟨18, 1⟩
def fAXC_STATE_STOPSRC : Bits := ⟨19, 1⟩
def fAXC_STATE_ANGVAL : Bits := ⟨20, 1⟩
/-- Offset of AXC_STAT. -/
def rAXC_STAT (n : Nat) : Nat := 0x500020 + n * 0x400
def fAXC_STAT_CLAMP0 : Bits := ⟨0, 1⟩
def fAXC_STAT_CLAMP1 : Bits := ⟨1, 1⟩
def fAXC_STAT_CLAMP2 : Bits := ⟨2, 1⟩
def fAXC_STAT_DLYSTALE : Bits := ⟨3, 1⟩
def fAXC_STAT_DLYOVR : Bits := ⟨4, 1⟩
def fAXC_STAT_RECMISS : Bits := ⟨5, 1⟩
def fAXC_STAT_CFGSAT : Bits := ⟨6, 1⟩
def fAXC_STAT_REFUSED : Bits := ⟨7, 1⟩
/-- Offset of AXC_MISS. -/
def rAXC_MISS (n : Nat) : Nat := 0x500024 + n * 0x400
def fAXC_MISS_COUNT : Bits := ⟨0, 16⟩
def fAXC_MISS_OVF : Bits := ⟨16, 1⟩
/-- Offset of AXC_DOVR. -/
def rAXC_DOVR (n : Nat) : Nat := 0x500028 + n * 0x400
def fAXC_DOVR_COUNT : Bits := ⟨0, 16⟩
def fAXC_DOVR_OVF : Bits := ⟨16, 1⟩
/-- Offset of AXC_L_CFG. -/
def rAXC_L_CFG (n k : Nat) : Nat := 0x500100 + n * 0x400 + k * 0x40
def fAXC_L_CFG_ORDER : Sh := ⟨0, 1⟩
def fAXC_L_CFG_INTEG : Sh := ⟨1, 1⟩
def fAXC_L_CFG_SCALE : Sh := ⟨4, 5⟩
def fAXC_L_CFG_ESC : Sh := ⟨10, 6⟩
def fAXC_L_CFG_OSC : Sh := ⟨16, 6⟩
/-- Offset of AXC_L_B. -/
def rAXC_L_B (n k i : Nat) : Nat := 0x500104 + n * 0x400 + k * 0x40 + i * 0x4
def fAXC_L_B_COEF : Sh := ⟨0, 24⟩
/-- Offset of AXC_L_C. -/
def rAXC_L_C (n k i : Nat) : Nat := 0x500114 + n * 0x400 + k * 0x40 + i * 0x4
def fAXC_L_C_COEF : Sh := ⟨0, 24⟩
/-- Offset of AXC_L_YMAX. -/
def rAXC_L_YMAX (n k : Nat) : Nat := 0x500120 + n * 0x400 + k * 0x40
def fAXC_L_YMAX_YMAX : Sh := ⟨0, 24⟩
/-- Offset of AXC_L_YMIN. -/
def rAXC_L_YMIN (n k : Nat) : Nat := 0x500124 + n * 0x400 + k * 0x40
def fAXC_L_YMIN_YMIN : Sh := ⟨0, 24⟩
/-- Offset of AXC_L_FF. -/
def rAXC_L_FF (n k : Nat) : Nat := 0x500128 + n * 0x400 + k * 0x40
def fAXC_L_FF_KFF : Sh := ⟨0, 16⟩
/-- Offset of LPE_TPHASE. -/
def rLPE_TPHASE (t : Nat) : Nat := 0x630000 + t * 0x4
def fLPE_TPHASE_PHASE : Sh := ⟨0, 24⟩
/-- Offset of LPE_ADM. -/
def rLPE_ADM : Nat := 0x630100
def fLPE_ADM_FAIL : Bits := ⟨0, 1⟩
def fLPE_ADM_REASON : Bits := ⟨1, 4⟩
def fLPE_ADM_AXIS : Bits := ⟨8, 8⟩
def fLPE_ADM_LANE : Bits := ⟨16, 4⟩
/-- Offset of LPE_SLACK. -/
def rLPE_SLACK (l : Nat) : Nat := 0x630200 + l * 0x4
def fLPE_SLACK_SLACK : Bits := ⟨0, 32⟩
/-- Offset of TQ_CFG. -/
def rTQ_CFG (n : Nat) : Nat := 0x500200 + n * 0x400
def fTQ_CFG_ANGSRC : Sh := ⟨0, 2⟩
def fTQ_CFG_POLES : Sh := ⟨2, 5⟩
def fTQ_CFG_SKIPMAX : Sh := ⟨8, 4⟩
def fTQ_CFG_LOSSN : Sh := ⟨12, 4⟩
def fTQ_CFG_SHORTEN : Sh := ⟨16, 1⟩
def fTQ_CFG_SPDIV : Sh := ⟨17, 2⟩
/-- Offset of TQ_RS. -/
def rTQ_RS (n : Nat) : Nat := 0x500204 + n * 0x400
def fTQ_RS_RS : Sh := ⟨0, 24⟩
/-- Offset of TQ_LD. -/
def rTQ_LD (n : Nat) : Nat := 0x500208 + n * 0x400
def fTQ_LD_LD : Sh := ⟨0, 24⟩
/-- Offset of TQ_LQ. -/
def rTQ_LQ (n : Nat) : Nat := 0x50020C + n * 0x400
def fTQ_LQ_LQ : Sh := ⟨0, 24⟩
/-- Offset of TQ_PSIM. -/
def rTQ_PSIM (n : Nat) : Nat := 0x500210 + n * 0x400
def fTQ_PSIM_PSIM : Sh := ⟨0, 24⟩
/-- Offset of TQ_PSIREF. -/
def rTQ_PSIREF (n : Nat) : Nat := 0x500214 + n * 0x400
def fTQ_PSIREF_PSIREF : Sh := ⟨0, 24⟩
/-- Offset of TQ_HYST. -/
def rTQ_HYST (n : Nat) : Nat := 0x500218 + n * 0x400
def fTQ_HYST_HT : Sh := ⟨0, 16⟩
def fTQ_HYST_HF : Sh := ⟨16, 16⟩
/-- Offset of TQ_OBS. -/
def rTQ_OBS (n : Nat) : Nat := 0x50021C + n * 0x400
def fTQ_OBS_W_LO : Sh := ⟨0, 16⟩
def fTQ_OBS_W_HI : Sh := ⟨16, 16⟩
/-- Offset of TQ_OBSG. -/
def rTQ_OBSG (n : Nat) : Nat := 0x500220 + n * 0x400
def fTQ_OBSG_WC_LO : Sh := ⟨0, 16⟩
def fTQ_OBSG_WC_HI : Sh := ⟨16, 16⟩
/-- Offset of TQ_PLL. -/
def rTQ_PLL (n : Nat) : Nat := 0x500224 + n * 0x400
def fTQ_PLL_BW : Sh := ⟨0, 16⟩
def fTQ_PLL_ESAT : Sh := ⟨16, 16⟩
/-- Offset of TQ_LOSS. -/
def rTQ_LOSS (n : Nat) : Nat := 0x500228 + n * 0x400
def fTQ_LOSS_LOSS_E : Sh := ⟨0, 8⟩
def fTQ_LOSS_LOSS_F : Sh := ⟨8, 8⟩
def fTQ_LOSS_REL : Sh := ⟨16, 8⟩
/-- Offset of TQ_CATCH. -/
def rTQ_CATCH (n : Nat) : Nat := 0x50022C + n * 0x400
def fTQ_CATCH_CATCHI : Sh := ⟨0, 12⟩
def fTQ_CATCH_CIMAX : Sh := ⟨12, 12⟩
def fTQ_CATCH_NCAT : Sh := ⟨24, 4⟩
def fTQ_CATCH_NVER : Sh := ⟨28, 4⟩
/-- Offset of TQ_CATCH2. -/
def rTQ_CATCH2 (n : Nat) : Nat := 0x500230 + n * 0x400
def fTQ_CATCH2_CWAIT : Sh := ⟨0, 8⟩
def fTQ_CATCH2_ASCT : Sh := ⟨8, 8⟩
def fTQ_CATCH2_CEMIN : Sh := ⟨16, 8⟩
/-- Offset of TQ_ALIGN. -/
def rTQ_ALIGN (n : Nat) : Nat := 0x500234 + n * 0x400
def fTQ_ALIGN_AI : Sh := ⟨0, 12⟩
def fTQ_ALIGN_AANG : Sh := ⟨12, 12⟩
def fTQ_ALIGN_ARAMP : Sh := ⟨24, 8⟩
/-- Offset of TQ_ALIGN2. -/
def rTQ_ALIGN2 (n : Nat) : Nat := 0x500238 + n * 0x400
def fTQ_ALIGN2_AHOLD : Sh := ⟨0, 8⟩
def fTQ_ALIGN2_ABW : Sh := ⟨8, 16⟩
def fTQ_ALIGN2_ATOL : Sh := ⟨24, 8⟩
/-- Offset of TQ_ANGOFF. -/
def rTQ_ANGOFF (n : Nat) : Nat := 0x50023C + n * 0x400
def fTQ_ANGOFF_ANGOFF : Sh := ⟨0, 24⟩
/-- Offset of TQ_CPT. -/
def rTQ_CPT (n : Nat) : Nat := 0x500240 + n * 0x400
def fTQ_CPT_CPT : Sh := ⟨0, 32⟩
/-- Offset of TQ_HALLOFF. -/
def rTQ_HALLOFF (n : Nat) : Nat := 0x500244 + n * 0x400
def fTQ_HALLOFF_HALLOFF : Sh := ⟨0, 24⟩
/-- Offset of TQ_TST. -/
def rTQ_TST (n : Nat) : Nat := 0x500248 + n * 0x400
def fTQ_TST_TV : Sh := ⟨0, 12⟩
def fTQ_TST_TF : Sh := ⟨12, 12⟩
def fTQ_TST_TT : Sh := ⟨24, 8⟩
/-- Offset of TQ_STAT. -/
def rTQ_STAT (n : Nat) : Nat := 0x500250 + n * 0x400
def fTQ_STAT_VLIM : Bits := ⟨0, 1⟩
def fTQ_STAT_VLIMSEEN : Bits := ⟨1, 1⟩
def fTQ_STAT_LOSS : Bits := ⟨2, 1⟩
def fTQ_STAT_SKIPPED : Bits := ⟨3, 1⟩
def fTQ_STAT_SHIFTLIM : Bits := ⟨4, 1⟩
def fTQ_STAT_CATCHFAIL : Bits := ⟨5, 1⟩
def fTQ_STAT_CFGERR : Bits := ⟨6, 1⟩
def fTQ_STAT_CFGSAT : Bits := ⟨7, 1⟩
/-- Offset of TQ_LIVE. -/
def rTQ_LIVE (n : Nat) : Nat := 0x500254 + n * 0x400
def fTQ_LIVE_SECTOR : Bits := ⟨0, 3⟩
def fTQ_LIVE_CT : Bits := ⟨3, 2⟩
def fTQ_LIVE_CF : Bits := ⟨5, 1⟩
def fTQ_LIVE_SKIPRUN : Bits := ⟨6, 4⟩
def fTQ_LIVE_CATT : Bits := ⟨10, 2⟩
def fTQ_LIVE_LSTAGE : Bits := ⟨12, 3⟩
/-- Offset of TQ_CNT. -/
def rTQ_CNT (n k : Nat) : Nat := 0x500260 + n * 0x400 + k * 0x4
def fTQ_CNT_COUNT : Bits := ⟨0, 16⟩
def fTQ_CNT_OVF : Bits := ⟨16, 1⟩
/-- Offset of PGN_CFG. -/
def rPGN_CFG (n : Nat) : Nat := 0x800000 + n * 0x100
def fPGN_CFG_CARRIER : Sh := ⟨0, 2⟩
def fPGN_CFG_UPD : Sh := ⟨2, 1⟩
def fPGN_CFG_CARRY : Sh := ⟨3, 1⟩
/-- Offset of PGN_PER. -/
def rPGN_PER (n : Nat) : Nat := 0x800004 + n * 0x100
def fPGN_PER_PERIOD : Sh := ⟨0, 32⟩
/-- Offset of PGN_TCTL. -/
def rPGN_TCTL (n : Nat) : Nat := 0x800008 + n * 0x100
def fPGN_TCTL_CARRIER : Bits := ⟨0, 2⟩
def fPGN_TCTL_UPD : Bits := ⟨2, 1⟩
def fPGN_TCTL_CARRY : Bits := ⟨3, 1⟩
def fPGN_TCTL_PUSH : Bits := ⟨8, 1⟩
/-- Offset of PGN_TPER. -/
def rPGN_TPER (n : Nat) : Nat := 0x80000C + n * 0x100
def fPGN_TPER_PERIOD : Bits := ⟨0, 32⟩
/-- Offset of PGN_SEQ. -/
def rPGN_SEQ (n : Nat) : Nat := 0x800020 + n * 0x100
def fPGN_SEQ_SHADOW_SEQ : Bits := ⟨0, 16⟩
def fPGN_SEQ_TICKC : Bits := ⟨16, 8⟩
def fPGN_SEQ_TICKW : Bits := ⟨24, 8⟩
/-- Offset of PGN_MINP. -/
def rPGN_MINP (n : Nat) : Nat := 0x800024 + n * 0x100
def fPGN_MINP_COUNT : Bits := ⟨0, 16⟩
def fPGN_MINP_OVF : Bits := ⟨16, 1⟩
/-- Offset of PGN_OVWR. -/
def rPGN_OVWR (n : Nat) : Nat := 0x800028 + n * 0x100
def fPGN_OVWR_COUNT : Bits := ⟨0, 16⟩
def fPGN_OVWR_OVF : Bits := ⟨16, 1⟩
/-- Offset of PGN_STAT. -/
def rPGN_STAT (n : Nat) : Nat := 0x80002C + n * 0x100
def fPGN_STAT_RACE : Bits := ⟨0, 1⟩
def fPGN_STAT_PLIM : Bits := ⟨1, 1⟩
def fPGN_STAT_TPREF : Bits := ⟨2, 1⟩
def fPGN_STAT_TPPEND : Bits := ⟨3, 1⟩
def fPGN_STAT_CFGSAT : Bits := ⟨4, 1⟩
def fPGN_STAT_TPTICK : Bits := ⟨8, 8⟩
/-- Offset of PGN_TD. -/
def rPGN_TD (n k : Nat) : Nat := 0x800010 + n * 0x100 + k * 0x4
def fPGN_TD_D : Bits := ⟨0, 20⟩
/-- Offset of PGN_B_SEQ. -/
def rPGN_B_SEQ (b : Nat) : Nat := 0x810000 + b * 0x10
def fPGN_B_SEQ_SHADOW_SEQ : Bits := ⟨0, 16⟩
def fPGN_B_SEQ_TICKC : Bits := ⟨16, 8⟩
def fPGN_B_SEQ_TICKW : Bits := ⟨24, 8⟩
/-- Offset of PGN_B_MINP. -/
def rPGN_B_MINP (b : Nat) : Nat := 0x810004 + b * 0x10
def fPGN_B_MINP_COUNT : Bits := ⟨0, 16⟩
def fPGN_B_MINP_OVF : Bits := ⟨16, 1⟩
/-- Offset of PGN_B_OVWR. -/
def rPGN_B_OVWR (b : Nat) : Nat := 0x810008 + b * 0x10
def fPGN_B_OVWR_COUNT : Bits := ⟨0, 16⟩
def fPGN_B_OVWR_OVF : Bits := ⟨16, 1⟩
/-- Offset of PGN_B_STAT. -/
def rPGN_B_STAT (b : Nat) : Nat := 0x81000C + b * 0x10
def fPGN_B_STAT_RACE : Bits := ⟨0, 1⟩
def fPGN_B_STAT_PLIM : Bits := ⟨1, 1⟩
def fPGN_B_STAT_TPREF : Bits := ⟨2, 1⟩
def fPGN_B_STAT_TPPEND : Bits := ⟨3, 1⟩
def fPGN_B_STAT_CFGSAT : Bits := ⟨4, 1⟩
def fPGN_B_STAT_TPTICK : Bits := ⟨8, 8⟩
/-- Offset of PGN_HCH. -/
def rPGN_HCH (c : Nat) : Nat := 0x820000 + c * 0x4
def fPGN_HCH_LEG0 : Sh := ⟨0, 6⟩
def fPGN_HCH_NLEG : Sh := ⟨6, 3⟩
def fPGN_HCH_TYPE : Sh := ⟨9, 2⟩
/-- Offset of PGN_LEG. -/
def rPGN_LEG (l : Nat) : Nat := 0x820100 + l * 0x4
def fPGN_LEG_TDEAD : Sh := ⟨0, 10⟩
def fPGN_LEG_TMINP : Sh := ⟨10, 11⟩
def fPGN_LEG_SAFE : Sh := ⟨21, 2⟩
def fPGN_LEG_NOLOW : Sh := ⟨23, 1⟩
/-- Offset of PGN_FLT_MASK0. -/
def rPGN_FLT_MASK0 (i : Nat) : Nat := 0x820200 + i * 0x8
def fPGN_FLT_MASK0_LEGS : Sh := ⟨0, 32⟩
/-- Offset of PGN_FLT_MASK1. -/
def rPGN_FLT_MASK1 (i : Nat) : Nat := 0x820204 + i * 0x8
def fPGN_FLT_MASK1_LEGS : Sh := ⟨0, 16⟩
def fPGN_FLT_MASK1_BAL0 : Sh := ⟨16, 1⟩
def fPGN_FLT_MASK1_BAL1 : Sh := ⟨17, 1⟩
/-- Offset of PGN_FLT_CTL. -/
def rPGN_FLT_CTL : Nat := 0x820220
def fPGN_FLT_CTL_POL : Sh := ⟨0, 4⟩
/-- Offset of PGN_HSTAT. -/
def rPGN_HSTAT : Nat := 0x820224
def fPGN_HSTAT_LATCH : Bits := ⟨0, 4⟩
def fPGN_HSTAT_SWLATCH : Bits := ⟨4, 1⟩
def fPGN_HSTAT_LIVE : Bits := ⟨8, 4⟩
def fPGN_HSTAT_EVT : Bits := ⟨16, 4⟩
def fPGN_HSTAT_CLRREF : Bits := ⟨20, 1⟩
def fPGN_HSTAT_MAPERR : Bits := ⟨21, 1⟩
def fPGN_HSTAT_BALON : Bits := ⟨24, 2⟩
/-- Offset of PGN_FLT_CMD. -/
def rPGN_FLT_CMD : Nat := 0x820228
def fPGN_FLT_CMD_CLR : Bits := ⟨0, 4⟩
def fPGN_FLT_CMD_SWCLR : Bits := ⟨4, 1⟩
def fPGN_FLT_CMD_SWSET : Bits := ⟨8, 1⟩
/-- Offset of PGN_LEGST. -/
def rPGN_LEGST (j : Nat) : Nat := 0x82022C + j * 0x4
def fPGN_LEGST_STATE (i : Nat) : Bits := ⟨0 + 2 * i, 2⟩
/-- Offset of ST_CFG. -/
def rST_CFG (n : Nat) : Nat := 0x500280 + n * 0x400
def fST_CFG_CPE : Sh := ⟨0, 16⟩
def fST_CFG_HOLD_PCT : Sh := ⟨16, 7⟩
/-- Offset of ST_I. -/
def rST_I (n : Nat) : Nat := 0x500284 + n * 0x400
def fST_I_IRUN : Sh := ⟨0, 12⟩
def fST_I_HDELAY : Sh := ⟨12, 12⟩
def fST_I_HRAMP : Sh := ⟨24, 8⟩
/-- Offset of ST_RL. -/
def rST_RL (n : Nat) : Nat := 0x500288 + n * 0x400
def fST_RL_RPH : Sh := ⟨0, 16⟩
def fST_RL_LPH : Sh := ⟨16, 16⟩
/-- Offset of ST_KE. -/
def rST_KE (n : Nat) : Nat := 0x50028C + n * 0x400
def fST_KE_KE : Sh := ⟨0, 24⟩
/-- Offset of ST_ALIGN. -/
def rST_ALIGN (n : Nat) : Nat := 0x500290 + n * 0x400
def fST_ALIGN_SARAMP : Sh := ⟨0, 8⟩
def fST_ALIGN_SAHOLD : Sh := ⟨8, 8⟩
/-- Offset of ST_ANGOFF. -/
def rST_ANGOFF (n : Nat) : Nat := 0x500294 + n * 0x400
def fST_ANGOFF_ANGOFF : Sh := ⟨0, 24⟩
/-- Offset of CL_DITH. -/
def rCL_DITH (n : Nat) : Nat := 0x5002A0 + n * 0x400
def fCL_DITH_DAMP : Sh := ⟨0, 12⟩
def fCL_DITH_DFREQ : Sh := ⟨12, 14⟩
def fCL_DITH_DSHAPE : Sh := ⟨26, 1⟩
def fCL_DITH_DTGT : Sh := ⟨27, 1⟩
def fCL_DITH_DEN : Sh := ⟨28, 1⟩
/-- Offset of PRF_VMAX. -/
def rPRF_VMAX (n : Nat) : Nat := 0x500300 + n * 0x400
def fPRF_VMAX_VMAX : Sh := ⟨0, 31⟩
/-- Offset of PRF_AMAX. -/
def rPRF_AMAX (n : Nat) : Nat := 0x500304 + n * 0x400
def fPRF_AMAX_AMAX : Sh := ⟨0, 32⟩
/-- Offset of PRF_DMAX. -/
def rPRF_DMAX (n : Nat) : Nat := 0x500308 + n * 0x400
def fPRF_DMAX_DMAX : Sh := ⟨0, 32⟩
/-- Offset of PRF_JMAX. -/
def rPRF_JMAX (n : Nat) : Nat := 0x50030C + n * 0x400
def fPRF_JMAX_JMAX : Sh := ⟨0, 32⟩
/-- Offset of PRF_DSTOP. -/
def rPRF_DSTOP (n : Nat) : Nat := 0x500310 + n * 0x400
def fPRF_DSTOP_DSTOP : Sh := ⟨0, 32⟩
/-- Offset of PRF_JSTOP. -/
def rPRF_JSTOP (n : Nat) : Nat := 0x500314 + n * 0x400
def fPRF_JSTOP_JSTOP : Sh := ⟨0, 32⟩
/-- Offset of PRF_CFG. -/
def rPRF_CFG (n : Nat) : Nat := 0x500318 + n * 0x400
def fPRF_CFG_IGRP : Sh := ⟨0, 5⟩
def fPRF_CFG_IGEN : Sh := ⟨5, 1⟩
/-- Offset of PRF_STAT. -/
def rPRF_STAT (n : Nat) : Nat := 0x500320 + n * 0x400
def fPRF_STAT_RATELIM : Bits := ⟨0, 1⟩
def fPRF_STAT_RATESEEN : Bits := ⟨1, 1⟩
def fPRF_STAT_MOVING : Bits := ⟨2, 1⟩
def fPRF_STAT_REMV : Bits := ⟨3, 1⟩
def fPRF_STAT_STARVE : Bits := ⟨4, 1⟩
def fPRF_STAT_ENGAGED : Bits := ⟨5, 1⟩
def fPRF_STAT_SYNC : Bits := ⟨6, 1⟩
def fPRF_STAT_MSTALE : Bits := ⟨7, 1⟩
def fPRF_STAT_CAMEND : Bits := ⟨8, 1⟩
def fPRF_STAT_STVSAT : Bits := ⟨9, 1⟩
def fPRF_STAT_HOLDI : Bits := ⟨10, 1⟩
def fPRF_STAT_GRPERR : Bits := ⟨11, 1⟩
def fPRF_STAT_CFGSAT : Bits := ⟨12, 1⟩
/-- Offset of LPE_RM_ID. -/
def rLPE_RM_ID (r : Nat) : Nat := 0x634000 + r * 0x10
def fLPE_RM_ID_MID : Bits := ⟨0, 32⟩
/-- Offset of LPE_RM_CFG. -/
def rLPE_RM_CFG (r : Nat) : Nat := 0x634004 + r * 0x10
def fLPE_RM_CFG_EN : Bits := ⟨0, 1⟩
def fLPE_RM_CFG_MAGE : Bits := ⟨1, 10⟩
/-- Offset of LPE_RM_DEC. -/
def rLPE_RM_DEC (r : Nat) : Nat := 0x634008 + r * 0x10
def fLPE_RM_DEC_RDEC : Bits := ⟨0, 32⟩
/-- Offset of LPE_RM_STAT. -/
def rLPE_RM_STAT (r : Nat) : Nat := 0x63400C + r * 0x10
def fLPE_RM_STAT_DROP : Bits := ⟨0, 16⟩
def fLPE_RM_STAT_OVF : Bits := ⟨16, 1⟩
def fLPE_RM_STAT_STALE : Bits := ⟨17, 1⟩
/-- Offset of LPE_PUB_ID. -/
def rLPE_PUB_ID (q : Nat) : Nat := 0x634200 + q * 0x10
def fLPE_PUB_ID_MID : Bits := ⟨0, 32⟩
/-- Offset of LPE_PUB_CFG. -/
def rLPE_PUB_CFG (q : Nat) : Nat := 0x634204 + q * 0x10
def fLPE_PUB_CFG_EN : Bits := ⟨0, 1⟩
def fLPE_PUB_CFG_SRCSEL : Bits := ⟨1, 1⟩
def fLPE_PUB_CFG_AXIS : Bits := ⟨2, 8⟩
def fLPE_PUB_CFG_PORT : Bits := ⟨10, 1⟩
def fLPE_PUB_CFG_DIV : Bits := ⟨12, 4⟩
/-- Offset of LPE_PUB_DA0. -/
def rLPE_PUB_DA0 : Nat := 0x634300
def fLPE_PUB_DA0_DA : Bits := ⟨0, 32⟩
/-- Offset of LPE_PUB_DA1. -/
def rLPE_PUB_DA1 : Nat := 0x634304
def fLPE_PUB_DA1_DA : Bits := ⟨0, 16⟩
/-- Offset of LPE_PUB_STAT. -/
def rLPE_PUB_STAT : Nat := 0x634308
def fLPE_PUB_STAT_DROP : Bits := ⟨0, 16⟩
def fLPE_PUB_STAT_OVF : Bits := ⟨16, 1⟩
/-- Offset of LPE_CAM_BASE. -/
def rLPE_CAM_BASE (c : Nat) : Nat := 0x635000 + c * 0x10
def fLPE_CAM_BASE_BASE : Bits := ⟨0, 18⟩
/-- Offset of LPE_CAM_N. -/
def rLPE_CAM_N (c : Nat) : Nat := 0x635004 + c * 0x10
def fLPE_CAM_N_N : Bits := ⟨0, 19⟩
/-- Offset of LPE_CAM_STEP. -/
def rLPE_CAM_STEP (c : Nat) : Nat := 0x635008 + c * 0x10
def fLPE_CAM_STEP_MSTEP : Bits := ⟨0, 32⟩
/-- Offset of LPE_CAM_CTL. -/
def rLPE_CAM_CTL (c : Nat) : Nat := 0x63500C + c * 0x10
def fLPE_CAM_CTL_MODE : Bits := ⟨0, 1⟩
def fLPE_CAM_CTL_INTERP : Bits := ⟨1, 1⟩
def fLPE_CAM_CTL_USERS : Bits := ⟨2, 8⟩
/-- Offset of CMP_STAT. -/
def rCMP_STAT : Nat := 0x700000
def fCMP_STAT_FULL : Bits := ⟨0, 1⟩
def fCMP_STAT_CHERR : Bits := ⟨1, 1⟩
def fCMP_STAT_EVWAIT : Bits := ⟨2, 1⟩
def fCMP_STAT_OVERRUN : Bits := ⟨3, 1⟩
/-- Offset of CMP_FREE. -/
def rCMP_FREE : Nat := 0x700004
def fCMP_FREE_FREE : Bits := ⟨0, 15⟩
/-- Offset of CMP_CNT. -/
def rCMP_CNT (k : Nat) : Nat := 0x700010 + k * 0x4
def fCMP_CNT_COUNT : Bits := ⟨0, 16⟩
def fCMP_CNT_OVF : Bits := ⟨16, 1⟩
/-- Offset of CMP_LEAD. -/
def rCMP_LEAD (t : Nat) : Nat := 0x700100 + t * 0x4
def fCMP_LEAD_LEAD : Bits := ⟨0, 16⟩
/-- Offset of CMP_RG. -/
def rCMP_RG (g : Nat) : Nat := 0x700200 + g * 0x4
def fCMP_RG_FACT : Sh := ⟨0, 2⟩
def fCMP_RG_SUSP : Bits := ⟨2, 1⟩
def fCMP_RG_RESUME : Bits := ⟨3, 1⟩
/-- Offset of LAT_CFG. -/
def rLAT_CFG (n u : Nat) : Nat := 0x710000 + n * 0x20 + u * 0x4
def fLAT_CFG_LSRC : Bits := ⟨0, 6⟩
def fLAT_CFG_EDGE : Bits := ⟨6, 2⟩
def fLAT_CFG_MODE : Bits := ⟨8, 1⟩
def fLAT_CFG_POST : Bits := ⟨9, 1⟩
def fLAT_CFG_CQ : Bits := ⟨10, 5⟩
/-- Offset of LAT_CTL. -/
def rLAT_CTL (n : Nat) : Nat := 0x710008 + n * 0x20
def fLAT_CTL_ARM0 : Bits := ⟨0, 1⟩
def fLAT_CTL_ARM1 : Bits := ⟨1, 1⟩
def fLAT_CTL_DIS0 : Bits := ⟨2, 1⟩
def fLAT_CTL_DIS1 : Bits := ⟨3, 1⟩
def fLAT_CTL_FLUSH : Bits := ⟨4, 1⟩
/-- Offset of LAT_STAT. -/
def rLAT_STAT (n : Nat) : Nat := 0x71000C + n * 0x20
def fLAT_STAT_ARMED0 : Bits := ⟨0, 1⟩
def fLAT_STAT_ARMED1 : Bits := ⟨1, 1⟩
def fLAT_STAT_CNT : Bits := ⟨2, 4⟩
def fLAT_STAT_OVF : Bits := ⟨6, 1⟩
def fLAT_STAT_WAIT : Bits := ⟨7, 1⟩
def fLAT_STAT_LOST : Bits := ⟨8, 8⟩
/-- Offset of BUS_G_CFG. -/
def rBUS_G_CFG (b : Nat) : Nat := 0xA00000 + b * 0x100
def fBUS_G_CFG_EN : Sh := ⟨0, 1⟩
def fBUS_G_CFG_STETH : Sh := ⟨1, 5⟩
def fBUS_G_CFG_SPOS : Sh := ⟨6, 6⟩
def fBUS_G_CFG_BALCH : Sh := ⟨12, 4⟩
def fBUS_G_CFG_FACT : Sh := ⟨16, 2⟩
/-- Offset of BUS_G_V0. -/
def rBUS_G_V0 (b : Nat) : Nat := 0xA00004 + b * 0x100
def fBUS_G_V0_VBALON : Sh := ⟨0, 16⟩
def fBUS_G_V0_VCLAMP : Sh := ⟨16, 16⟩
/-- Offset of BUS_G_V1. -/
def rBUS_G_V1 (b : Nat) : Nat := 0xA00008 + b * 0x100
def fBUS_G_V1_VASC : Sh := ⟨0, 16⟩
def fBUS_G_V1_VTRIP : Sh := ⟨16, 16⟩
/-- Offset of BUS_G_BAL. -/
def rBUS_G_BAL (b : Nat) : Nat := 0xA0000C + b * 0x100
def fBUS_G_BAL_HYS : Sh := ⟨0, 16⟩
def fBUS_G_BAL_BAL_CONF : Sh := ⟨16, 8⟩
def fBUS_G_BAL_DMIN : Sh := ⟨24, 8⟩
/-- Offset of BUS_G_BCFG. -/
def rBUS_G_BCFG (b : Nat) : Nat := 0xA00010 + b * 0x100
def fBUS_G_BCFG_CARRIER : Sh := ⟨0, 2⟩
def fBUS_G_BCFG_CARRY : Sh := ⟨2, 1⟩
def fBUS_G_BCFG_IMIN : Sh := ⟨4, 12⟩
/-- Offset of BUS_G_BPER. -/
def rBUS_G_BPER (b : Nat) : Nat := 0xA00014 + b * 0x100
def fBUS_G_BPER_PERIOD : Sh := ⟨0, 32⟩
/-- Offset of BUS_G_CMD. -/
def rBUS_G_CMD (b : Nat) : Nat := 0xA00018 + b * 0x100
def fBUS_G_CMD_FCLR : Bits := ⟨0, 1⟩
/-- Offset of BUS_G_STAT. -/
def rBUS_G_STAT (b : Nat) : Nat := 0xA0001C + b * 0x100
def fBUS_G_STAT_STAGE : Bits := ⟨0, 2⟩
def fBUS_G_STAT_BALFLT : Bits := ⟨2, 1⟩
def fBUS_G_STAT_BFCAUSE : Bits := ⟨3, 2⟩
def fBUS_G_STAT_SENSELOST : Bits := ⟨5, 1⟩
def fBUS_G_STAT_TRIPINH : Bits := ⟨6, 1⟩
def fBUS_G_STAT_CLRREF : Bits := ⟨7, 1⟩
def fBUS_G_STAT_CFGERR : Bits := ⟨8, 1⟩
def fBUS_G_STAT_CFGSAT : Bits := ⟨9, 1⟩
/-- Offset of BUS_G_LIVE. -/
def rBUS_G_LIVE (b : Nat) : Nat := 0xA00020 + b * 0x100
def fBUS_G_LIVE_VBUS : Bits := ⟨0, 16⟩
def fBUS_G_LIVE_DUTY : Bits := ⟨16, 9⟩
/-- Offset of BUS_G_CNT. -/
def rBUS_G_CNT (b k : Nat) : Nat := 0xA00030 + b * 0x100 + k * 0x4
def fBUS_G_CNT_COUNT : Bits := ⟨0, 16⟩
def fBUS_G_CNT_OVF : Bits := ⟨16, 1⟩
/-- Offset of BUS_CTL. -/
def rBUS_CTL : Nat := 0xA02000
def fBUS_CTL_CQ : Bits := ⟨0, 5⟩
/-- Offset of BUS_HGRP. -/
def rBUS_HGRP : Nat := 0xA02004
def fBUS_HGRP_G1 : Sh := ⟨0, 16⟩
/-- Offset of BUS_HSCALE. -/
def rBUS_HSCALE : Nat := 0xA02008
def fBUS_HSCALE_K0 : Sh := ⟨0, 16⟩
def fBUS_HSCALE_K1 : Sh := ⟨16, 16⟩
/-- Offset of BUS_STAT. -/
def rBUS_STAT : Nat := 0xA0200C
def fBUS_STAT_NOGRP : Bits := ⟨0, 1⟩
/-- Offset of BUS_GMAP. -/
def rBUS_GMAP (t w : Nat) : Nat := 0xA04000 + t * 0x40 + w * 0x4
def fBUS_GMAP_GROUP (i : Nat) : Sh := ⟨0 + 8 * i, 5⟩
def fBUS_GMAP_EN (i : Nat) : Sh := ⟨7 + 8 * i, 1⟩
/-- Offset of LPE_L_STAT. -/
def rLPE_L_STAT (n : Nat) : Nat := 0x620000 + n * 0x100
def fLPE_L_STAT_RUN : Bits := ⟨0, 1⟩
def fLPE_L_STAT_BUSY : Bits := ⟨1, 1⟩
def fLPE_L_STAT_BANKBUSY : Bits := ⟨2, 1⟩
def fLPE_L_STAT_PBANK : Bits := ⟨3, 1⟩
def fLPE_L_STAT_TRAP : Bits := ⟨4, 1⟩
def fLPE_L_STAT_OUTMISS : Bits := ⟨5, 1⟩
def fLPE_L_STAT_OUTDROP : Bits := ⟨6, 1⟩
def fLPE_L_STAT_SRCOVF : Bits := ⟨7, 1⟩
def fLPE_L_STAT_BANKFULL : Bits := ⟨8, 1⟩
def fLPE_L_STAT_LOADERR : Bits := ⟨9, 1⟩
def fLPE_L_STAT_TRAPCODE : Bits := ⟨12, 4⟩
def fLPE_L_STAT_TRAPPC : Bits := ⟨16, 12⟩
/-- Offset of LPE_L_IMGID. -/
def rLPE_L_IMGID (n : Nat) : Nat := 0x620004 + n * 0x100
def fLPE_L_IMGID_IMGID : Bits := ⟨0, 32⟩
/-- Offset of LPE_L_IMGVER. -/
def rLPE_L_IMGVER (n : Nat) : Nat := 0x620008 + n * 0x100
def fLPE_L_IMGVER_IMGVER : Bits := ⟨0, 32⟩
/-- Offset of LPE_L_WDG. -/
def rLPE_L_WDG (n : Nat) : Nat := 0x62000C + n * 0x100
def fLPE_L_WDG_WDG : Bits := ⟨0, 24⟩
/-- Offset of LPE_L_SPAN. -/
def rLPE_L_SPAN (n : Nat) : Nat := 0x620010 + n * 0x100
def fLPE_L_SPAN_SPAN : Bits := ⟨0, 24⟩
/-- Offset of LPE_L_EVQ. -/
def rLPE_L_EVQ (n : Nat) : Nat := 0x620014 + n * 0x100
def fLPE_L_EVQ_NOW : Bits := ⟨0, 10⟩
def fLPE_L_EVQ_PEAK : Bits := ⟨16, 10⟩
/-- Offset of LPE_L_CMD. -/
def rLPE_L_CMD (n : Nat) : Nat := 0x620018 + n * 0x100
def fLPE_L_CMD_CLRSPAN : Bits := ⟨0, 1⟩
/-- Offset of LPE_L_CNT. -/
def rLPE_L_CNT (n k : Nat) : Nat := 0x620020 + n * 0x100 + k * 0x4
def fLPE_L_CNT_COUNT : Bits := ⟨0, 16⟩
def fLPE_L_CNT_OVF : Bits := ⟨16, 1⟩
/-- Offset of HIF_STAT. -/
def rHIF_STAT : Nat := 0x200000
def fHIF_STAT_CFGERR : Bits := ⟨0, 1⟩
def fHIF_STAT_BARERR : Bits := ⟨1, 1⟩
def fHIF_STAT_PRST : Bits := ⟨2, 1⟩
/-- Offset of HIF_DEVCQ. -/
def rHIF_DEVCQ : Nat := 0x200004
def fHIF_DEVCQ_TCQ : Bits := ⟨0, 5⟩
def fHIF_DEVCQ_TEN : Bits := ⟨7, 1⟩
def fHIF_DEVCQ_SCQ : Bits := ⟨8, 5⟩
def fHIF_DEVCQ_SEN : Bits := ⟨15, 1⟩
def fHIF_DEVCQ_PCQ : Bits := ⟨16, 5⟩
def fHIF_DEVCQ_PEN : Bits := ⟨23, 1⟩
/-- Offset of HIF_SQ_BASE_LO. -/
def rHIF_SQ_BASE_LO (q : Nat) : Nat := 0x201000 + q * 0x40
def fHIF_SQ_BASE_LO_BASE : Bits := ⟨0, 32⟩
/-- Offset of HIF_SQ_BASE_HI. -/
def rHIF_SQ_BASE_HI (q : Nat) : Nat := 0x201004 + q * 0x40
def fHIF_SQ_BASE_HI_BASE : Bits := ⟨0, 32⟩
/-- Offset of HIF_SQ_CFG. -/
def rHIF_SQ_CFG (q : Nat) : Nat := 0x201008 + q * 0x40
def fHIF_SQ_CFG_LOG2SIZE : Bits := ⟨0, 4⟩
def fHIF_SQ_CFG_CQ : Bits := ⟨4, 5⟩
def fHIF_SQ_CFG_PRIO : Bits := ⟨9, 1⟩
def fHIF_SQ_CFG_KIND : Bits := ⟨10, 1⟩
def fHIF_SQ_CFG_FPORT : Bits := ⟨11, 3⟩
def fHIF_SQ_CFG_EN : Bits := ⟨16, 1⟩
/-- Offset of HIF_SQ_STAT. -/
def rHIF_SQ_STAT (q : Nat) : Nat := 0x20100C + q * 0x40
def fHIF_SQ_STAT_HEAD : Bits := ⟨0, 12⟩
def fHIF_SQ_STAT_TAIL : Bits := ⟨16, 12⟩
def fHIF_SQ_STAT_DBERR : Bits := ⟨28, 1⟩
def fHIF_SQ_STAT_SILENT : Bits := ⟨29, 1⟩
def fHIF_SQ_STAT_FETCHERR : Bits := ⟨30, 1⟩
/-- Offset of HIF_SQ_WD. -/
def rHIF_SQ_WD (q : Nat) : Nat := 0x201010 + q * 0x40
def fHIF_SQ_WD_TIME : Bits := ⟨0, 16⟩
def fHIF_SQ_WD_REACT : Bits := ⟨16, 3⟩
/-- Offset of HIF_SQ_WDAXM. -/
def rHIF_SQ_WDAXM (q k : Nat) : Nat := 0x201020 + q * 0x40 + k * 0x4
def fHIF_SQ_WDAXM_AX : Bits := ⟨0, 32⟩
/-- Offset of HIF_CQ_BASE_LO. -/
def rHIF_CQ_BASE_LO (q : Nat) : Nat := 0x202000 + q * 0x20
def fHIF_CQ_BASE_LO_BASE : Bits := ⟨0, 32⟩
/-- Offset of HIF_CQ_BASE_HI. -/
def rHIF_CQ_BASE_HI (q : Nat) : Nat := 0x202004 + q * 0x20
def fHIF_CQ_BASE_HI_BASE : Bits := ⟨0, 32⟩
/-- Offset of HIF_CQ_CFG. -/
def rHIF_CQ_CFG (q : Nat) : Nat := 0x202008 + q * 0x20
def fHIF_CQ_CFG_LOG2SIZE : Bits := ⟨0, 4⟩
def fHIF_CQ_CFG_VEC : Bits := ⟨4, 6⟩
def fHIF_CQ_CFG_IEN : Bits := ⟨10, 1⟩
def fHIF_CQ_CFG_EN : Bits := ⟨16, 1⟩
/-- Offset of HIF_CQ_IMOD. -/
def rHIF_CQ_IMOD (q : Nat) : Nat := 0x20200C + q * 0x20
def fHIF_CQ_IMOD_ICNT : Bits := ⟨0, 8⟩
def fHIF_CQ_IMOD_ITIME : Bits := ⟨8, 12⟩
/-- Offset of HIF_CQ_STAT. -/
def rHIF_CQ_STAT (q : Nat) : Nat := 0x202010 + q * 0x20
def fHIF_CQ_STAT_TAIL : Bits := ⟨0, 12⟩
def fHIF_CQ_STAT_PHASE : Bits := ⟨12, 1⟩
def fHIF_CQ_STAT_ARMED : Bits := ⟨13, 1⟩
def fHIF_CQ_STAT_DBERR : Bits := ⟨14, 1⟩
def fHIF_CQ_STAT_BKLOG : Bits := ⟨16, 10⟩
/-- Offset of HIF_CQ_LOST. -/
def rHIF_CQ_LOST (q : Nat) : Nat := 0x202014 + q * 0x20
def fHIF_CQ_LOST_COUNT : Bits := ⟨0, 16⟩
def fHIF_CQ_LOST_OVF : Bits := ⟨16, 1⟩
/-- Offset of HIF_RX_BASE_LO. -/
def rHIF_RX_BASE_LO (f : Nat) : Nat := 0x203000 + f * 0x20
def fHIF_RX_BASE_LO_BASE : Bits := ⟨0, 32⟩
/-- Offset of HIF_RX_BASE_HI. -/
def rHIF_RX_BASE_HI (f : Nat) : Nat := 0x203004 + f * 0x20
def fHIF_RX_BASE_HI_BASE : Bits := ⟨0, 32⟩
/-- Offset of HIF_RX_CFG. -/
def rHIF_RX_CFG (f : Nat) : Nat := 0x203008 + f * 0x20
def fHIF_RX_CFG_LOG2COUNT : Bits := ⟨0, 4⟩
def fHIF_RX_CFG_BSIZE : Bits := ⟨4, 3⟩
def fHIF_RX_CFG_CQ : Bits := ⟨8, 5⟩
def fHIF_RX_CFG_EN : Bits := ⟨16, 1⟩
/-- Offset of HIF_RX_STAT. -/
def rHIF_RX_STAT (f : Nat) : Nat := 0x20300C + f * 0x20
def fHIF_RX_STAT_HEAD : Bits := ⟨0, 12⟩
def fHIF_RX_STAT_FREE : Bits := ⟨16, 12⟩
/-- Offset of HIF_RX_CNT. -/
def rHIF_RX_CNT (f k : Nat) : Nat := 0x203010 + f * 0x20 + k * 0x4
def fHIF_RX_CNT_COUNT : Bits := ⟨0, 16⟩
def fHIF_RX_CNT_OVF : Bits := ⟨16, 1⟩
/-- Offset of HIF_AXCQ. -/
def rHIF_AXCQ (k : Nat) : Nat := 0x204000 + k * 0x4
def fHIF_AXCQ_CQ (i : Nat) : Bits := ⟨0 + 8 * i, 5⟩
def fHIF_AXCQ_EN (i : Nat) : Bits := ⟨7 + 8 * i, 1⟩
/-- Offset of NET_ETH_CFG. -/
def rNET_ETH_CFG (e : Nat) : Nat := 0xD00000 + e * 0x100
def fNET_ETH_CFG_EN : Bits := ⟨0, 1⟩
def fNET_ETH_CFG_SPEED : Bits := ⟨1, 2⟩
def fNET_ETH_CFG_PROMISC : Bits := ⟨3, 1⟩
def fNET_ETH_CFG_MCAST : Bits := ⟨4, 1⟩
def fNET_ETH_CFG_RMCOPY : Bits := ⟨5, 1⟩
def fNET_ETH_CFG_TXID : Bits := ⟨6, 1⟩
def fNET_ETH_CFG_RXID : Bits := ⟨7, 1⟩
/-- Offset of NET_ETH_MAC0. -/
def rNET_ETH_MAC0 (e : Nat) : Nat := 0xD00004 + e * 0x100
def fNET_ETH_MAC0_MAC : Bits := ⟨0, 32⟩
/-- Offset of NET_ETH_MAC1. -/
def rNET_ETH_MAC1 (e : Nat) : Nat := 0xD00008 + e * 0x100
def fNET_ETH_MAC1_MAC : Bits := ⟨0, 16⟩
/-- Offset of NET_ETH_CNT. -/
def rNET_ETH_CNT (e k : Nat) : Nat := 0xD00010 + e * 0x100 + k * 0x4
def fNET_ETH_CNT_COUNT : Bits := ⟨0, 16⟩
def fNET_ETH_CNT_OVF : Bits := ⟨16, 1⟩
/-- Offset of NET_CAN_CFG. -/
def rNET_CAN_CFG (c : Nat) : Nat := 0xD10000 + c * 0x100
def fNET_CAN_CFG_EN : Bits := ⟨0, 1⟩
def fNET_CAN_CFG_FDEN : Bits := ⟨1, 1⟩
def fNET_CAN_CFG_LISTEN : Bits := ⟨2, 1⟩
def fNET_CAN_CFG_TDCEN : Bits := ⟨3, 1⟩
def fNET_CAN_CFG_TDCO : Bits := ⟨8, 8⟩
/-- Offset of NET_CAN_NBT. -/
def rNET_CAN_NBT (c : Nat) : Nat := 0xD10004 + c * 0x100
def fNET_CAN_NBT_BRP : Bits := ⟨0, 10⟩
def fNET_CAN_NBT_TSEG1 : Bits := ⟨10, 8⟩
def fNET_CAN_NBT_TSEG2 : Bits := ⟨18, 7⟩
def fNET_CAN_NBT_SJW : Bits := ⟨25, 7⟩
/-- Offset of NET_CAN_DBT. -/
def rNET_CAN_DBT (c : Nat) : Nat := 0xD10008 + c * 0x100
def fNET_CAN_DBT_BRP : Bits := ⟨0, 10⟩
def fNET_CAN_DBT_TSEG1 : Bits := ⟨10, 8⟩
def fNET_CAN_DBT_TSEG2 : Bits := ⟨18, 7⟩
def fNET_CAN_DBT_SJW : Bits := ⟨25, 7⟩
/-- Offset of NET_CAN_STAT. -/
def rNET_CAN_STAT (c : Nat) : Nat := 0xD1000C + c * 0x100
def fNET_CAN_STAT_ESTATE : Bits := ⟨0, 2⟩
def fNET_CAN_STAT_TEC : Bits := ⟨8, 8⟩
def fNET_CAN_STAT_REC : Bits := ⟨16, 8⟩
/-- Offset of NET_CAN_CNT. -/
def rNET_CAN_CNT (c k : Nat) : Nat := 0xD10010 + c * 0x100 + k * 0x4
def fNET_CAN_CNT_COUNT : Bits := ⟨0, 16⟩
def fNET_CAN_CNT_OVF : Bits := ⟨16, 1⟩
/-- Offset of NET_STR_CFG. -/
def rNET_STR_CFG : Nat := 0xD20000
def fNET_STR_CFG_EN : Bits := ⟨0, 1⟩
def fNET_STR_CFG_TXDIV : Bits := ⟨1, 2⟩
def fNET_STR_CFG_RXDLY : Bits := ⟨3, 5⟩
def fNET_STR_CFG_REPORT : Bits := ⟨8, 1⟩
/-- Offset of NET_STR_STAT. -/
def rNET_STR_STAT : Nat := 0xD20004
def fNET_STR_STAT_LINK : Bits := ⟨0, 2⟩
def fNET_STR_STAT_LINKEVT : Bits := ⟨2, 1⟩
/-- Offset of NET_STR_CRED. -/
def rNET_STR_CRED : Nat := 0xD20008
def fNET_STR_CRED_TXCRED : Bits := ⟨0, 16⟩
def fNET_STR_CRED_RXFREE : Bits := ⟨16, 9⟩
/-- Offset of NET_STR_CNT. -/
def rNET_STR_CNT (k : Nat) : Nat := 0xD20010 + k * 0x4
def fNET_STR_CNT_COUNT : Bits := ⟨0, 16⟩
def fNET_STR_CNT_OVF : Bits := ⟨16, 1⟩
/-- Offset of PLAN_VERSION. -/
def rPLAN_VERSION : Nat := 0x100000
def fPLAN_VERSION_VERSION : Bits := ⟨0, 32⟩
/-- Offset of PLAN_CAN_STAT. -/
def rPLAN_CAN_STAT : Nat := 0x100004
def fPLAN_CAN_STAT_BUILD : Bits := ⟨0, 1⟩
def fPLAN_CAN_STAT_OVFULL : Bits := ⟨1, 1⟩
def fPLAN_CAN_STAT_REFUSED : Bits := ⟨2, 1⟩
def fPLAN_CAN_STAT_OVUSE : Bits := ⟨8, 7⟩
/-- Offset of PLAN_CAN_KMASK. -/
def rPLAN_CAN_KMASK (c : Nat) : Nat := 0x100020 + c * 0x8
def fPLAN_CAN_KMASK_KMASK : Sh := ⟨0, 29⟩
/-- Offset of PLAN_CAN_CFG. -/
def rPLAN_CAN_CFG (c : Nat) : Nat := 0x100024 + c * 0x8
def fPLAN_CAN_CFG_DEFHOST : Sh := ⟨0, 1⟩
/-- Offset of PLAN_CAN_NOMATCH. -/
def rPLAN_CAN_NOMATCH (c : Nat) : Nat := 0x100060 + c * 0x4
def fPLAN_CAN_NOMATCH_COUNT : Bits := ⟨0, 16⟩
def fPLAN_CAN_NOMATCH_OVF : Bits := ⟨16, 1⟩
/-- Offset of PLAN_CF_LO. -/
def rPLAN_CF_LO (k : Nat) : Nat := 0x101000 + k * 0x8
def fPLAN_CF_LO_KEY : Sh := ⟨0, 30⟩
def fPLAN_CF_LO_EN : Sh := ⟨30, 1⟩
/-- Offset of PLAN_CF_HI. -/
def rPLAN_CF_HI (k : Nat) : Nat := 0x101004 + k * 0x8
def fPLAN_CF_HI_SA : Sh := ⟨0, 8⟩
def fPLAN_CF_HI_SACHK : Sh := ⟨8, 1⟩
def fPLAN_CF_HI_HOST : Sh := ⟨9, 1⟩
def fPLAN_CF_HI_DCMD : Sh := ⟨10, 1⟩
def fPLAN_CF_HI_DCIDX : Sh := ⟨11, 6⟩
def fPLAN_CF_HI_CTRL : Sh := ⟨17, 4⟩
/-- Offset of PLAN_DC_A. -/
def rPLAN_DC_A (k : Nat) : Nat := 0x104000 + k * 0x10
def fPLAN_DC_A_MB : Sh := ⟨0, 3⟩
def fPLAN_DC_A_MMASK : Sh := ⟨4, 8⟩
def fPLAN_DC_A_MVAL : Sh := ⟨12, 8⟩
def fPLAN_DC_A_ACTION : Sh := ⟨20, 4⟩
def fPLAN_DC_A_KIND : Sh := ⟨24, 5⟩
def fPLAN_DC_A_SCOPE : Sh := ⟨29, 2⟩
/-- Offset of PLAN_DC_B. -/
def rPLAN_DC_B (k : Nat) : Nat := 0x104004 + k * 0x10
def fPLAN_DC_B_TGT : Sh := ⟨0, 8⟩
def fPLAN_DC_B_DB : Sh := ⟨8, 3⟩
def fPLAN_DC_B_GPS : Sh := ⟨11, 2⟩
/-- Offset of PLAN_P_OPC. -/
def rPLAN_P_OPC (p : Nat) : Nat := 0x110000 + p * 0x400
def fPLAN_P_OPC_OPC : Sh := ⟨0, 16⟩
/-- Offset of PLAN_P_FLAGS. -/
def rPLAN_P_FLAGS (p : Nat) : Nat := 0x110004 + p * 0x400
def fPLAN_P_FLAGS_CFGG : Sh := ⟨0, 1⟩
def fPLAN_P_FLAGS_RDEV : Sh := ⟨1, 1⟩
def fPLAN_P_FLAGS_CAMW : Sh := ⟨2, 1⟩
def fPLAN_P_FLAGS_LANE : Sh := ⟨3, 1⟩
def fPLAN_P_FLAGS_GIMG : Sh := ⟨4, 1⟩
def fPLAN_P_FLAGS_REGW : Sh := ⟨5, 1⟩
def fPLAN_P_FLAGS_MBX : Sh := ⟨6, 1⟩
/-- Offset of PLAN_P_RINGS. -/
def rPLAN_P_RINGS (p : Nat) : Nat := 0x110008 + p * 0x400
def fPLAN_P_RINGS_RINGS : Sh := ⟨0, 32⟩
/-- Offset of PLAN_P_CMP. -/
def rPLAN_P_CMP (p : Nat) : Nat := 0x11000C + p * 0x400
def fPLAN_P_CMP_CMPBASE : Sh := ⟨0, 14⟩
def fPLAN_P_CMP_CMPCNT : Sh := ⟨15, 15⟩
/-- Offset of PLAN_P_RM. -/
def rPLAN_P_RM (p : Nat) : Nat := 0x110010 + p * 0x400
def fPLAN_P_RM_RM : Sh := ⟨0, 16⟩
/-- Offset of PLAN_P_FOUT. -/
def rPLAN_P_FOUT (p : Nat) : Nat := 0x110014 + p * 0x400
def fPLAN_P_FOUT_FOUT : Sh := ⟨0, 16⟩
/-- Offset of PLAN_P_CQ. -/
def rPLAN_P_CQ (p : Nat) : Nat := 0x110018 + p * 0x400
def fPLAN_P_CQ_CQ : Sh := ⟨0, 5⟩
def fPLAN_P_CQ_EN : Sh := ⟨7, 1⟩
/-- Offset of PLAN_P_DENY. -/
def rPLAN_P_DENY (p : Nat) : Nat := 0x11001C + p * 0x400
def fPLAN_P_DENY_COUNT : Bits := ⟨0, 16⟩
def fPLAN_P_DENY_OVF : Bits := ⟨16, 1⟩
/-- Offset of PLAN_P_AX. -/
def rPLAN_P_AX (p w : Nat) : Nat := 0x110100 + p * 0x400 + w * 0x4
def fPLAN_P_AX_PERM (i : Nat) : Sh := ⟨0 + 8 * i, 6⟩
/-- Offset of GLB_ID. -/
def rGLB_ID : Nat := 0x000000
def fGLB_ID_ID : Bits := ⟨0, 32⟩
/-- Offset of GLB_RSTCAUSE. -/
def rGLB_RSTCAUSE : Nat := 0x000004
def fGLB_RSTCAUSE_POR : Bits := ⟨0, 1⟩
def fGLB_RSTCAUSE_SYS : Bits := ⟨1, 1⟩
/-- Offset of GLB_STAT. -/
def rGLB_STAT : Nat := 0x000008
def fGLB_STAT_UNMAP : Bits := ⟨0, 1⟩
def fGLB_STAT_SRAMUE : Bits := ⟨1, 1⟩
/-- Offset of GLB_COMMIT. -/
def rGLB_COMMIT : Nat := 0x000010
def fGLB_COMMIT_GROUP : Bits := ⟨0, 8⟩
def fGLB_COMMIT_SCHED : Bits := ⟨8, 1⟩
def fGLB_COMMIT_CANCEL : Bits := ⟨9, 1⟩
/-- Offset of GLB_COMMIT_STAT. -/
def rGLB_COMMIT_STAT : Nat := 0x000014
def fGLB_COMMIT_STAT_PHASE : Bits := ⟨0, 2⟩
def fGLB_COMMIT_STAT_DONE : Bits := ⟨2, 1⟩
def fGLB_COMMIT_STAT_REFUSED : Bits := ⟨3, 1⟩
def fGLB_COMMIT_STAT_CAUSE : Bits := ⟨4, 4⟩
def fGLB_COMMIT_STAT_LATEAPPLY : Bits := ⟨8, 1⟩
def fGLB_COMMIT_STAT_STEPPED : Bits := ⟨9, 1⟩
def fGLB_COMMIT_STAT_CANCELREF : Bits := ⟨10, 1⟩
def fGLB_COMMIT_STAT_SRCDESC : Bits := ⟨11, 1⟩
def fGLB_COMMIT_STAT_GROUPS : Bits := ⟨16, 8⟩
def fGLB_COMMIT_STAT_SEQ : Bits := ⟨24, 8⟩
/-- Offset of GLB_SRAM_UE. -/
def rGLB_SRAM_UE : Nat := 0x000100
def fGLB_SRAM_UE_COUNT : Bits := ⟨0, 16⟩
def fGLB_SRAM_UE_OVF : Bits := ⟨16, 1⟩
/-- Offset of GLB_COMMIT_AXSEL. -/
def rGLB_COMMIT_AXSEL (k : Nat) : Nat := 0x000020 + k * 0x4
def fGLB_COMMIT_AXSEL_AX : Bits := ⟨0, 32⟩
/-- Offset of GLB_SRAM_CE. -/
def rGLB_SRAM_CE (b : Nat) : Nat := 0x000080 + b * 0x4
def fGLB_SRAM_CE_COUNT : Bits := ⟨0, 16⟩
def fGLB_SRAM_CE_OVF : Bits := ⟨16, 1⟩
/-- Offset of GLB_SCRATCH. -/
def rGLB_SCRATCH (k : Nat) : Nat := 0x000110 + k * 0x4
def fGLB_SCRATCH_DATA : Bits := ⟨0, 32⟩
/-- Offset of MBX_REQ. -/
def rMBX_REQ (s : Nat) : Nat := 0xE00000 + s * 0x100
def fMBX_REQ_OBJECT : Bits := ⟨0, 10⟩
def fMBX_REQ_OP : Bits := ⟨10, 2⟩
def fMBX_REQ_INDEX : Bits := ⟨12, 14⟩
/-- Offset of MBX_STAT. -/
def rMBX_STAT (s : Nat) : Nat := 0xE00004 + s * 0x100
def fMBX_STAT_VALID : Bits := ⟨0, 1⟩
def fMBX_STAT_BUSY : Bits := ⟨1, 1⟩
def fMBX_STAT_OVERRUN : Bits := ⟨2, 1⟩
def fMBX_STAT_STATUS : Bits := ⟨8, 4⟩
def fMBX_STAT_SEQ : Bits := ⟨16, 16⟩
/-- Offset of MBX_DATA. -/
def rMBX_DATA (s k : Nat) : Nat := 0xE00010 + s * 0x100 + k * 0x4
def fMBX_DATA_DATA : Bits := ⟨0, 32⟩
/-- Offset of ANC_STAT. -/
def rANC_STAT : Nat := 0xC00000
def fANC_STAT_STATE : Bits := ⟨0, 3⟩
def fANC_STAT_GUARDCL : Bits := ⟨3, 1⟩
def fANC_STAT_STOP2 : Bits := ⟨4, 1⟩
def fANC_STAT_STOP1 : Bits := ⟨5, 1⟩
def fANC_STAT_STOP1RUN : Bits := ⟨6, 1⟩
def fANC_STAT_LINKLOST : Bits := ⟨7, 1⟩
def fANC_STAT_ACTIVE : Bits := ⟨8, 1⟩
def fANC_STAT_ACTVAL : Bits := ⟨9, 1⟩
def fANC_STAT_STBY : Bits := ⟨10, 1⟩
def fANC_STAT_NOPILOT : Bits := ⟨11, 1⟩
def fANC_STAT_BUSTRIP : Bits := ⟨12, 1⟩
def fANC_STAT_FCODE : Bits := ⟨13, 3⟩
def fANC_STAT_ALIVE : Bits := ⟨16, 16⟩
/-- Offset of ANC_STRAP. -/
def rANC_STRAP : Nat := 0xC00004
def fANC_STRAP_LATCHED : Bits := ⟨0, 8⟩
def fANC_STRAP_LIVE : Bits := ⟨8, 8⟩
def fANC_STRAP_LIVEN : Bits := ⟨16, 8⟩
def fANC_STRAP_STRAPERR : Bits := ⟨24, 1⟩
/-- Offset of ANC_RIPCL. -/
def rANC_RIPCL : Nat := 0xC00008
def fANC_RIPCL_CLOSED : Bits := ⟨0, 25⟩
/-- Offset of ANC_RIPLAT. -/
def rANC_RIPLAT : Nat := 0xC0000C
def fANC_RIPLAT_LATCHED : Bits := ⟨0, 25⟩
/-- Offset of ANC_HOLDOPEN. -/
def rANC_HOLDOPEN : Nat := 0xC00010
def fANC_HOLDOPEN_HOLD : Bits := ⟨0, 25⟩
/-- Offset of ANC_REQ0. -/
def rANC_REQ0 : Nat := 0xC00014
def fANC_REQ0_STOP0 : Bits := ⟨0, 25⟩
/-- Offset of ANC_REQ1. -/
def rANC_REQ1 : Nat := 0xC00018
def fANC_REQ1_STOP1 : Bits := ⟨0, 1⟩
/-- Offset of ANC_EVT. -/
def rANC_EVT : Nat := 0xC0001C
def fANC_EVT_GUARDCHG : Bits := ⟨0, 1⟩
def fANC_EVT_DISC : Bits := ⟨1, 1⟩
def fANC_EVT_STOP : Bits := ⟨2, 1⟩
def fANC_EVT_LOOPOPEN : Bits := ⟨3, 1⟩
def fANC_EVT_LOOPCLOSE : Bits := ⟨4, 1⟩
def fANC_EVT_TESTFAIL : Bits := ⟨5, 1⟩
def fANC_EVT_PROMOTE : Bits := ⟨6, 1⟩
def fANC_EVT_STBYCHG : Bits := ⟨7, 1⟩
def fANC_EVT_STRAPERR : Bits := ⟨8, 1⟩
def fANC_EVT_BUSTRIP : Bits := ⟨9, 1⟩
def fANC_EVT_ANCFAULT : Bits := ⟨10, 1⟩
def fANC_EVT_LINKLOST : Bits := ⟨11, 1⟩
def fANC_EVT_BADBEAT : Bits := ⟨12, 1⟩
/-- Offset of ANC_GUARD. -/
def rANC_GUARD : Nat := 0xC00040
def fANC_GUARD_CH : Bits := ⟨0, 4⟩
def fANC_GUARD_PAIR : Bits := ⟨4, 2⟩
def fANC_GUARD_DISC : Bits := ⟨6, 2⟩
/-- Offset of ANC_CNT. -/
def rANC_CNT (k : Nat) : Nat := 0xC00020 + k * 0x4
def fANC_CNT_COUNT : Bits := ⟨0, 16⟩
def fANC_CNT_OVF : Bits := ⟨16, 1⟩
/-- Offset of ANC_LOOP. -/
def rANC_LOOP (n : Nat) : Nat := 0xC00100 + n * 0x4
def fANC_LOOP_STATE : Bits := ⟨0, 3⟩
def fANC_LOOP_CAUSE : Bits := ⟨4, 4⟩
def fANC_LOOP_HOLD : Bits := ⟨8, 1⟩
def fANC_LOOP_TFH : Bits := ⟨9, 1⟩
def fANC_LOOP_TFL : Bits := ⟨10, 1⟩
def fANC_LOOP_OVL : Bits := ⟨11, 1⟩
def fANC_LOOP_OPENS : Bits := ⟨16, 8⟩
/-- Offset of FIO_CTL. -/
def rFIO_CTL : Nat := 0xB00000
def fFIO_CTL_CQ : Bits := ⟨0, 5⟩
def fFIO_CTL_EVEN : Bits := ⟨7, 1⟩
/-- Offset of FIO_SIL. -/
def rFIO_SIL : Nat := 0xB00004
def fFIO_SIL_SILENCE : Sh := ⟨0, 10⟩
/-- Offset of FIO_STAT. -/
def rFIO_STAT : Nat := 0xB00008
def fFIO_STAT_FLDRST : Bits := ⟨0, 1⟩
def fFIO_STAT_CLRREF : Bits := ⟨1, 1⟩
def fFIO_STAT_CFGSAT : Bits := ⟨2, 1⟩
def fFIO_STAT_FIELDUP : Bits := ⟨3, 1⟩
/-- Offset of FIO_CMD. -/
def rFIO_CMD : Nat := 0xB0000C
def fFIO_CMD_SILCLR : Bits := ⟨0, 16⟩
def fFIO_CMD_TCLR : Bits := ⟨16, 16⟩
/-- Offset of FIO_IN. -/
def rFIO_IN : Nat := 0xB00010
def fFIO_IN_IN : Bits := ⟨0, 32⟩
/-- Offset of FIO_INRAW. -/
def rFIO_INRAW : Nat := 0xB00014
def fFIO_INRAW_RAW : Bits := ⟨0, 32⟩
/-- Offset of FIO_INCPL. -/
def rFIO_INCPL : Nat := 0xB00018
def fFIO_INCPL_CPL : Bits := ⟨0, 32⟩
/-- Offset of FIO_FOUT. -/
def rFIO_FOUT : Nat := 0xB0001C
def fFIO_FOUT_CMD : Bits := ⟨0, 16⟩
def fFIO_FOUT_MASK : Bits := ⟨16, 16⟩
/-- Offset of FIO_FOUTST. -/
def rFIO_FOUTST : Nat := 0xB00020
def fFIO_FOUTST_ON : Bits := ⟨0, 16⟩
def fFIO_FOUTST_SIL : Bits := ⟨16, 16⟩
/-- Offset of FIO_FIN_CFG. -/
def rFIO_FIN_CFG (n : Nat) : Nat := 0xB00100 + n * 0x4
def fFIO_FIN_CFG_DEB : Sh := ⟨0, 16⟩
def fFIO_FIN_CFG_EV : Sh := ⟨16, 2⟩
/-- Offset of FIO_FIN_STAT. -/
def rFIO_FIN_STAT (n : Nat) : Nat := 0xB00180 + n * 0x4
def fFIO_FIN_STAT_ACC : Bits := ⟨0, 16⟩
def fFIO_FIN_STAT_GLITCH : Bits := ⟨16, 8⟩
def fFIO_FIN_STAT_GOVF : Bits := ⟨24, 1⟩
def fFIO_FIN_STAT_CPLSEEN : Bits := ⟨25, 1⟩
/-- Offset of FIO_FOUT_CFG. -/
def rFIO_FOUT_CFG (k : Nat) : Nat := 0xB00200 + k * 0x4
def fFIO_FOUT_CFG_SAFE : Sh := ⟨0, 2⟩
def fFIO_FOUT_CFG_TSDM : Sh := ⟨2, 1⟩
def fFIO_FOUT_CFG_OLDEN : Sh := ⟨3, 1⟩
/-- Offset of FIO_FOUT_STAT. -/
def rFIO_FOUT_STAT (k : Nat) : Nat := 0xB00240 + k * 0x4
def fFIO_FOUT_STAT_ILIM : Bits := ⟨0, 1⟩
def fFIO_FOUT_STAT_TSD : Bits := ⟨1, 1⟩
def fFIO_FOUT_STAT_OPENL : Bits := ⟨2, 1⟩
def fFIO_FOUT_STAT_ILIMSEEN : Bits := ⟨3, 1⟩
def fFIO_FOUT_STAT_TSDCNT : Bits := ⟨8, 8⟩
def fFIO_FOUT_STAT_TOVF : Bits := ⟨16, 1⟩
/-- Offset of LPE_SPARE. -/
def rLPE_SPARE : Nat := 0x636000
def fLPE_SPARE_SPARE : Bits := ⟨0, 16⟩
/-- Offset of LPE_LROLE. -/
def rLPE_LROLE : Nat := 0x636004
def fLPE_LROLE_ROLE (i : Nat) : Bits := ⟨0 + 2 * i, 2⟩
/-- Offset of LPE_RETIRE. -/
def rLPE_RETIRE : Nat := 0x636008
def fLPE_RETIRE_HARD : Bits := ⟨0, 16⟩
/-- Offset of LPE_MIG. -/
def rLPE_MIG : Nat := 0x63600C
def fLPE_MIG_PHASE : Bits := ⟨0, 2⟩
def fLPE_MIG_REPAIR : Bits := ⟨2, 1⟩
def fLPE_MIG_MIGERR : Bits := ⟨3, 1⟩
def fLPE_MIG_SRC : Bits := ⟨4, 4⟩
def fLPE_MIG_DST : Bits := ⟨8, 4⟩
def fLPE_MIG_REASON : Bits := ⟨12, 4⟩
def fLPE_MIG_LEFT : Bits := ⟨16, 8⟩
/-- Offset of LPE_L_STEST. -/
def rLPE_L_STEST (n : Nat) : Nat := 0x636100 + n * 0x4
def fLPE_L_STEST_PASS : Bits := ⟨0, 16⟩
def fLPE_L_STEST_AGE : Bits := ⟨16, 8⟩
def fLPE_L_STEST_FAIL : Bits := ⟨24, 1⟩
/-- Offset of FLOG_CTL. -/
def rFLOG_CTL : Nat := 0xE10000
def fFLOG_CTL_EN : Bits := ⟨0, 1⟩
def fFLOG_CTL_STREAM : Bits := ⟨1, 1⟩
def fFLOG_CTL_WRAP : Bits := ⟨2, 1⟩
def fFLOG_CTL_FREEZE : Bits := ⟨3, 1⟩
def fFLOG_CTL_TYPES : Bits := ⟨4, 4⟩
def fFLOG_CTL_TDIV : Bits := ⟨8, 4⟩
def fFLOG_CTL_SNAP : Bits := ⟨16, 8⟩
def fFLOG_CTL_POST : Bits := ⟨24, 8⟩
/-- Offset of FLOG_AREA. -/
def rFLOG_AREA : Nat := 0xE10004
def fFLOG_AREA_BASE : Bits := ⟨0, 10⟩
def fFLOG_AREA_SIZE : Bits := ⟨16, 10⟩
/-- Offset of FLOG_TRIGM. -/
def rFLOG_TRIGM : Nat := 0xE10008
def fFLOG_TRIGM_TRIG : Bits := ⟨0, 5⟩
/-- Offset of FLOG_CMD. -/
def rFLOG_CMD : Nat := 0xE1000C
def fFLOG_CMD_UNFREEZE : Bits := ⟨0, 1⟩
def fFLOG_CMD_FLUSH : Bits := ⟨1, 1⟩
/-- Offset of FLOG_STAT. -/
def rFLOG_STAT : Nat := 0xE10010
def fFLOG_STAT_FROZEN : Bits := ⟨0, 1⟩
def fFLOG_STAT_FULL : Bits := ⟨1, 1⟩
def fFLOG_STAT_LOSTSEEN : Bits := ⟨2, 1⟩
def fFLOG_STAT_TRIGD : Bits := ⟨3, 1⟩
/-- Offset of FLOG_FILL. -/
def rFLOG_FILL : Nat := 0xE10014
def fFLOG_FILL_FILL : Bits := ⟨0, 26⟩
/-- Offset of FLOG_TRACE. -/
def rFLOG_TRACE (k : Nat) : Nat := 0xE10020 + k * 0x4
def fFLOG_TRACE_AX : Bits := ⟨0, 32⟩
/-- Offset of FLOG_LOST. -/
def rFLOG_LOST (k : Nat) : Nat := 0xE10040 + k * 0x4
def fFLOG_LOST_COUNT : Bits := ⟨0, 16⟩
def fFLOG_LOST_OVF : Bits := ⟨16, 1⟩
/-- Offset of PIL_STAT. -/
def rPIL_STAT : Nat := 0xE20000
def fPIL_STAT_VALA : Bits := ⟨0, 1⟩
def fPIL_STAT_VALB : Bits := ⟨1, 1⟩
def fPIL_STAT_BOOT : Bits := ⟨2, 1⟩
def fPIL_STAT_P0SLOT : Bits := ⟨3, 1⟩
def fPIL_STAT_P1SLOT : Bits := ⟨4, 1⟩
def fPIL_STAT_P0RUN : Bits := ⟨5, 1⟩
def fPIL_STAT_P1RUN : Bits := ⟨6, 1⟩
def fPIL_STAT_JSYNC0 : Bits := ⟨7, 1⟩
def fPIL_STAT_JSYNC1 : Bits := ⟨8, 1⟩
def fPIL_STAT_UPD : Bits := ⟨9, 2⟩
/-- Offset of PIL_VERA. -/
def rPIL_VERA : Nat := 0xE20004
def fPIL_VERA_VER : Bits := ⟨0, 32⟩
/-- Offset of PIL_VERB. -/
def rPIL_VERB : Nat := 0xE20008
def fPIL_VERB_VER : Bits := ⟨0, 32⟩
/-- Offset of SU_STAT. -/
def rSU_STAT : Nat := 0xE2000C
def fSU_STAT_PHASE : Bits := ⟨0, 3⟩
def fSU_STAT_CALDONE : Bits := ⟨3, 1⟩
def fSU_STAT_DDRREADY : Bits := ⟨4, 1⟩
def fSU_STAT_TRIEDALT : Bits := ⟨5, 1⟩
def fSU_STAT_BOOTSEL : Bits := ⟨6, 2⟩
def fSU_STAT_FAILA : Bits := ⟨8, 3⟩
def fSU_STAT_FAILB : Bits := ⟨11, 3⟩
def fSU_STAT_CALFAIL : Bits := ⟨16, 16⟩
/-- Offset of MSIX_ADDR_LO. -/
def rMSIX_ADDR_LO (v : Nat) : Nat := 0x220000 + v * 0x10
def fMSIX_ADDR_LO_ADDR : Bits := ⟨2, 30⟩
/-- Offset of MSIX_ADDR_HI. -/
def rMSIX_ADDR_HI (v : Nat) : Nat := 0x220004 + v * 0x10
def fMSIX_ADDR_HI_ADDR : Bits := ⟨0, 32⟩
/-- Offset of MSIX_DATA. -/
def rMSIX_DATA (v : Nat) : Nat := 0x220008 + v * 0x10
def fMSIX_DATA_DATA : Bits := ⟨0, 32⟩
/-- Offset of MSIX_CTL. -/
def rMSIX_CTL (v : Nat) : Nat := 0x22000C + v * 0x10
def fMSIX_CTL_MASK : Bits := ⟨0, 1⟩
/-- Offset of MSIX_PBA. -/
def rMSIX_PBA (w : Nat) : Nat := 0x221000 + w * 0x4
def fMSIX_PBA_PEND : Bits := ⟨0, 32⟩

end Sys2Proof.Machine
end

