-- ==== Sys2Proof/Machine/State.lean ====
section
/-! DEFINITION. The state of the YT256 as the spec gives it: every register (the register file), every queue, buffer,
counter and internal state of the shell, the tether block, the gondolas, the lanes, the anchor, the field die and the pilots,
and the queue of waiting commands.  Field defaults are the reset values. -/
namespace Sys2Proof.Machine

/-- Faults: no rule of the spec makes a command stop the block with a fault; the one name is kept for an access that no
meaning of this model makes (safe: never raised). -/
inductive Fault where
  /-- Raised by no meaning (safe). -/
  | none_
deriving DecidableEq, Repr

/-- Refusals. -/
inductive Refusal where
  /-- Raised only by an arm of the dispatch that has no meaning (safe). -/
  | notModelled (mnemonic : String)
deriving DecidableEq, Repr

/-! ### Field time (02) -/

/-- One time comparator beside its registers (R45): target, period, what FT_TC wrote in this core cycle, the end of its output pulse,
whether it was armed with its target already reached (`wait`: in this core cycle), and whether a forward step has passed its target. -/
structure TimeComp where
  target : FTime := 0
  period : BitVec 64 := 0
  next : Option (FTime × BitVec 64) := none
  lateArm : Bool := false
  wait : Bool := false
  stepped : Bool := false
  out : Bool := false
  outEnd : FTime := 0
deriving DecidableEq, Repr

/-- The field-time unit (R34-R45): the accumulator, the increment in force, the steps accepted in this core cycle (R36), the level of the
PPS generator (R44), and the last distribution of time (R48). -/
structure TimeUnit where
  ft : FTime := 0
  frac : Word := 0
  locked : Bool := false
  halted : Bool := false
  prev : FTime := 0
  incI : BitVec 8 := 40
  incF : Word := 0
  stepPend : BitVec 64 := 0
  tdLast : Option FTime := none
  ppsGen : Bool := false
  ppsEnd : FTime := 0
  tc : Tbl TimeComp := []
  tsi : Tbl (List (Bool × FTime)) := []
  txts : Tbl (List (BitVec 16 × FTime)) := []
  cmAt : FTime := 0
  torg : FTime := 0
  /-- The model's own count of core cycles, by which what a cycle found at its start is told from what it changed (R301). -/
  cycles : Nat := 0
deriving DecidableEq, Repr

/-! ### Frames and tether ports (03) -/

/-- A CFG request outstanding at the device (R67). -/
structure CfgReq where
  tag : BitVec 8
  write : Bool
  addr : Word
  count : Nat
  /-- The word of a G_CLR write (R187). -/
  clr : Nat := 0
deriving DecidableEq, Repr

/-- The kind of the last enumeration of a tether (R72, R86). -/
inductive EnumKind where
  | idle | full | attach
deriving DecidableEq, Repr

/-- A device port beside its registers (R18, R69, R72, R77): what the partner declared, the enumeration, the frames that are ready or wait,
the last frame sent and its bytes on the line, the ring gondolas whose branch port is UP (R75), and the length of the last segment of a
ring, between its last gondola and this port, in mm (R79). -/
structure PortDev where
  role : BitVec 8 := 0
  cap : BitVec 8 := 0
  enumKind : EnumKind := .idle
  enumNext : BitVec 8 := 0
  enumOdd : Bool := false
  ready : List Nat := []
  waiting : List Frame := []
  sent : List Frame := []
  wire : List Byte := []
  seqCnt : Tbl (BitVec 8) := []
  mis : List Nat := []
  endMm : Nat := 0
  /-- EVENT frames started in the quiet window of the tick named (R292). -/
  evWindow : Nat := 0
  evTick : Option (BitVec 64) := none
deriving DecidableEq, Repr

/-- The device's view of the gondola at a position (R16, R67, R68, R87, R93, R95, R103): key 64 t + g. -/
structure GonDev where
  ident : List Byte := []
  /-- Gondolas and cable, in mm, between the device and this gondola, counted from the odd port of a ring if `odd` (R76, R79). -/
  hops : Nat := 0
  cableMm : Nat := 0
  odd : Bool := false
  descs : Tbl (BitVec 128) := []
  cfg : List CfgReq := []
  nextTag : BitVec 8 := 0
  credDn : Nat := 0
  grantUp : Nat := 0
  missRun : Nat := 0
  lock : Bool := false
  ripin : Bool := false
  forced : Bool := false
  silent : Bool := false
  thruUp : Bool := false
  branchUp : Bool := false
  vbus : BitVec 16 := 0
  temp : BitVec 8 := 0
  evPend : List FTime := []
  /-- The transmit assembler (R17): the channels whose records the tick's frame waits for, the records committed, those of the frame
  before, whether it still collects, and whether its frame is ready. -/
  due : List Nat := []
  recs : Tbl (Option (BitVec 128)) := []
  lastRecs : Tbl (Option (BitVec 128)) := []
  collecting : Bool := false
  ready : Bool := false
  ccT : FTime := 0
  upTick : Option (BitVec 64) := none
  /-- The tick last counted in UPMISS (R89). -/
  missTick : Option (BitVec 64) := none
  /-- Of the tick open: its TICK_UP was delivered; the lanes that took a substitute event (R354). -/
  got : Bool := false
  subst : List Nat := []
  bulkHeld : Nat := 0
  /-- Stream data that wait for the stream port: STREAM, LAST, OFFSET and the data (R405). -/
  upData : List (BitVec 8 × Bool × Word × List Byte) := []
  /-- The answer to a G_CLR.FORCE of each channel: whether it was released (R187, R316). -/
  forceClr : Tbl (Option Bool) := []
deriving DecidableEq, Repr

/-! ### The gondola (04, 08) -/

/-- A running carrier of a channel (R226, R229-R240): the pair in force, the start and length of the period in progress in 1/16 of
a field-time unit, its index, whether its mid-period reload is done, and per leg the carry, the effective on-time, and the edges not
yet executed (on, off). -/
structure Carrier where
  pair : BitVec 128
  start : FTime
  startFr : Nat := 0
  period16 : Nat
  j : Nat := 0
  midDone : Bool := false
  carry : List Int := [0, 0, 0, 0]
  onE : List Int := [0, 0, 0, 0]
  edges : List (Option FTime × Option FTime) := []
  /-- Legs that a state of higher precedence has held in this period (R239). -/
  held : List Nat := []
deriving DecidableEq, Repr

/-- A leg (R105): the state before the changes of `q`, the changes commanded with the times they are executed at, and the end of the
minimum dwell. -/
structure Leg where
  old : BitVec 2 := 0
  q : List (FTime × BitVec 2) := []
  dwellEnd : FTime := 0
deriving DecidableEq, Repr

/-- One channel of a gondola. -/
structure GChan where
  /-- The record in force, the start of the tick it belongs to and its tick number (R103). -/
  rec_ : Option (BitVec 128) := none
  recTk : FTime := 0
  /-- The next VECTOR change to execute (3: none left) and the execution time of the change before it (R104). -/
  nextChange : Nat := 3
  lastExec : FTime := 0
  forced : Bool := false
  legs : Tbl Leg := []
  /-- The samples commanded for a tick, its start, and their offsets in 0.25 ns (R106). -/
  nsmp : Nat := 0
  smpTk : Option FTime := none
  s1 : Nat := 0
  s2 : Nat := 0
  /-- The counter and its transitions (R108). -/
  cnt : Word := 0
  lastTrans : FTime := 0
  prevTrans : FTime := 0
  levels : BitVec 3 := 0
  ill : Bool := false
  idx : Option (BitVec 16) := none
  /-- What the samples of the tick took (R106). -/
  s1ok : Bool := false
  s2ok : Bool := false
  ia : Q23 := 0
  ib : Q23 := 0
  cntS : Word := 0
  edgeDt : BitVec 16 := 0
  aux : BitVec 16 := 0
  /-- The carrier, the shadow and when it was written, and a carrier start that waits for the next tick start (R226, R233). -/
  carrier : Option Carrier := none
  shadow : Option (BitVec 128) := none
  shadowAt : FTime := 0
  shadowTick : BitVec 8 := 0
  startPend : Bool := false
deriving DecidableEq, Repr

/-- A pending EVENT of a gondola (R115). -/
structure GEvent where
  exec : FTime
  out : Nat
  act : Nat
  pw : Nat
  id : Word
deriving DecidableEq, Repr

/-- A frame at a port of a gondola (R97): whether it is the gondola's own, the frame, the CRC it carries, and the local time at which its SOF
arrived. -/
structure OutFrame where
  port : GPort
  own : Bool
  frame : Frame
  crc : Word
  sof : FTime
deriving DecidableEq, Repr

/-- A gondola (R92-R125), keyed by node: its identity block and descriptors where they are known (empty: those of Config), its registers and
what is staged. -/
structure Gondola where
  ident : List Byte := []
  descs : Tbl (BitVec 128) := []
  regs : Tbl Word := []
  stage : Tbl Word := []
  pos : Option (Fin 64) := none
  epoch : BitVec 8 := 0
  /-- The training state of the upstream, through and branch port (R69): 0 OFF, 1 TRN1, 2 TRN2, 3 UP, 4 MISWIRE, 5 DOWN; an unlisted port is
  in TRN1. -/
  links : Tbl Nat := []
  serveThru : Bool := false
  branchLo : BitVec 8 := 0
  branchHi : BitVec 8 := 0
  branchSet : Bool := false
  chans : Tbl GChan := []
  missRun : Nat := 0
  /-- The start of the last tick whose TICK_DN was accepted (address 0 and, at the home gondola, address 1). -/
  acc0 : Option FTime := none
  acc1 : Option FTime := none
  /-- The start of the last tick counted as missed (R109). -/
  missTk : Option FTime := none
  sil : Bool := false
  staged : Bool := false
  actAt : FTime := 0
  applyTime : FTime := 0
  missedFlag : Bool := false
  silentFlag : Bool := false
  evLate : Bool := false
  cGrant : Nat := 0
  cRet : Nat := 0
  ripIn : Bool := false
  ripSince : FTime := 0
  ripOffAt : FTime := 0
  ripLatch : Bool := true
  rip10 : Bool := false
  timeSeen : Bool := false
  stepCnt : BitVec 16 := 0
  incInt : BitVec 8 := 0
  incFrac : Word := 0
  lastOrigin : FTime := 0
  /-- Local field time (R117): what it read at the timer reading `rawRef`, the rate since as a ratio of increments, the offset slewed out
  and the TIME interval over which it is, the last offset found. -/
  locRef : FTime := 0
  rawRef : FTime := 0
  rateNum : Nat := 1
  rateDen : Nat := 1
  slew : Int := 0
  timeIv : Nat := 0
  offset : BitVec 64 := 0
  goodTimes : Nat := 0
  lock : Bool := false
  segDelay : BitVec 64 := 0
  events : List GEvent := []
  outs : BitVec 16 := 0
  pulses : Tbl FTime := []
  /-- The BULK streams received so far, and the firmware image in force (R123). -/
  stored : Tbl (List Byte) := []
  image : Option (List Byte) := none
  firmware : List Byte := []
  /-- The frames that wait at the ports, the frame that left last, and the sequence counts of the gondola's own frames (R57, R97). -/
  queue : List OutFrame := []
  out : Option OutFrame := none
  seqCnt : Tbl (BitVec 8) := []
  /-- BRK ordered sets sent, with their segment number (R83). -/
  brk : List (GPort × BitVec 8) := []
deriving DecidableEq, Repr

/-! ### The axis: feedback (05), loops (06), torque control (07), pulse (08), set-point generator (09), latch (10) -/

/-- The source of a set-point (R252). -/
inductive Src where
  | rest | move | velocity | stream | bridle | cam | stop
deriving DecidableEq, Repr

/-- The requests of AXC_An_CMD (R181), in the order of its bits. -/
inductive Req where
  | arm | enable | disable | test | fclr
deriving DecidableEq, Repr

/-- A cause waiting for the next tick boundary of an axis (R184).  `cmd` is the number of the open command that the cause completes. -/
inductive Cause where
  /-- A fault cause of R186 and its reaction: `stop` true for STOP, false for OFF. -/
  | fault (code : Nat) (stop : Bool)
  /-- A stop request of kind 1 HOLD, 2 OFF or 3 FAULT. -/
  | stop (kind : Nat) (cmd : Option Nat)
  | req (r : Req) (cmd : Option Nat)
  /-- A motion command, by its number in the table of open commands. -/
  | motion (cmd : Nat)
  /-- A streamed point and its time (R258, R380). -/
  | point (t : FTime) (v : Val)
  /-- An end that R183 names: 1 alignment, 2 catch, 3 test, 4 loss reaction, 5 a motion that another member of its group started,
  6 stop profile. -/
  | done (what : Nat)
deriving DecidableEq, Repr

/-- State of one compensator (R177, R178). -/
structure LoopSt where
  e : List Q23 := [0, 0, 0]
  w : List Q23 := [0, 0, 0]
  s : Q23 := 0
  y : Q23 := 0
deriving DecidableEq, Repr

/-- The delay statistics of one window (R172). -/
structure DlyWin where
  dmin : Nat := 0
  dmax : Nat := 0
  dsum : Nat := 0
  cmax : Nat := 0
  n : Nat := 0
deriving DecidableEq, Repr

/-- Bridle and cam of a slave (R266-R275): master displacement, base and cam phase in 2^-16 counts. -/
structure Bridle where
  engaged : Bool := false
  mkind : Nat := 0
  master : Nat := 0
  mode : Nat := 0
  dir : Bool := false
  num : Int := 0
  den : Int := 1
  offset : Int := 0
  lr : Int := 0
  mpos : Val := 0
  mdisp : Int := 0
  base : Int := 0
  mlast : Val := 0
  /-- The ramp has reached its length (R268). -/
  gFull : Bool := false
  cam : Option Nat := none
  cphase : Int := 0
  /-- A cam armed with AT = CYCLE, and the period of the present cam in which it was armed (R275). -/
  camNext : Option Nat := none
  camK : Int := 0
  camEnd : Bool := false
deriving DecidableEq, Repr

/-- The set-point generator (R251-R265).  The present piece starts at `t0` with position, velocity and acceleration in 2^-48 counts,
counts/s and counts/s2; `pieces` are durations in field-time units with jerks in counts/s3; when they have run, the set-point stands at
`endP` (or goes on at `endV`). -/
structure Gen where
  src : Src := .rest
  t0 : FTime := 0
  p : Int := 0
  v : Int := 0
  a : Int := 0
  pieces : List (Nat × Int) := []
  endP : Option Val := none
  endV : Val := 0
  /-- A group member's share of the path (R264): base, own distance and leader's distance; a zero distance means no group move. -/
  gBase : Int := 0
  gNum : Int := 0
  gDen : Int := 0
  /-- The last evaluation (R251) and its field time. -/
  pset : Val := 0
  vset : Val := 0
  aset : Val := 0
  at_ : FTime := 0
  target : Val := 0
  isVel : Bool := false
  vl : Word := 0
  al : Word := 0
  dl : Word := 0
  jl : Word := 0
  tArr : FTime := 0
  arrived : Bool := true
  /-- The resume target and its limits (R261). -/
  resTgt : Val := 0
  resVel : Bool := false
  resVl : Word := 0
  resAl : Word := 0
  resDl : Word := 0
  resJl : Word := 0
  remain : Val := 0
  /-- The stream queue (R258), the last point passed, and the reference of CMODE 0b10. -/
  stream : List (FTime × Val) := []
  past : List (FTime × Val) := []
  ref : Val := 0
  staged : Option Val := none
  inSync : Bool := false
  /-- The demand of the previous run: its position and velocity (R259). -/
  dPrev : Option (Val × Val) := none
  /-- The time since which the axis has stood still (R277). -/
  restAt : FTime := 0
  /-- Demand minus limiter output (R259); the meeting planned by the limiter; a GEAR of mode POSITION that is armed (R268); a stop profile
  whose end records REMAIN (R261). -/
  lag : Val := 0
  meet : FTime := 0
  br : Bridle := {}
  brArm : Option Bridle := none
  remPend : Bool := false
  /-- The envelope changed: the present source is planned anew at the next run (R254). -/
  replan : Bool := false
  /-- The present state lies outside the envelope (R254). -/
  outside : Bool := false
deriving DecidableEq, Repr

/-- A latch record (R304). -/
structure LatRec where
  t : FTime
  pos : BitVec 48
  src : BitVec 6
  unit : Nat
  rising : Bool
  flags : BitVec 4
  cnt : BitVec 4
  post : Bool
deriving DecidableEq, Repr

/-- A capture that waits for the next record (R303). -/
structure LatWait where
  t : FTime
  src : BitVec 6
  unit : Nat
  rising : Bool
  plim : Bool
  cnt : BitVec 4
  post : Bool
deriving DecidableEq, Repr

/-- The motor model of a TQ axis (R193-R222): stator flux and current at the last sample instant `at_` in Q1.23 of their scales, the torque they
give, the rotor angle and the PLL angle in 2^-40 turn, the speeds in 2^-40 rad/s, the back-EMF estimate of CATCH in 2^-40 V, whether the PLL error
was saturated; the voltages applied, as on-times of the legs in 2^-16, until the schedule `plan` of the last record; whether a shift of that
record was limited; the count at the start of a hold, once the current has reached its value (R221), and at the end of the step before. -/
structure Motor where
  psiA : Q23 := 0
  psiB : Q23 := 0
  iA : Q23 := 0
  iB : Q23 := 0
  torque : Q23 := 0
  th : Nat := 0
  w : Int := 0
  thPll : Nat := 0
  wPll : Int := 0
  eA : Int := 0
  eB : Int := 0
  eCnt : Nat := 0
  pllSat : Bool := false
  /-- The current was measured at `at_`; the last measured current and its time (R217). -/
  meas : Bool := false
  mA : Q23 := 0
  mB : Q23 := 0
  mAt : Option FTime := none
  /-- The rate at which the measured current vector turns (R217). -/
  wCur : Option Int := none
  at_ : Option FTime := none
  line : List (FTime × List Nat) := []
  plan : List (FTime × List Nat) := []
  shLim : Bool := false
  holdX : Option (BitVec 64) := none
  stepX : BitVec 64 := 0
deriving DecidableEq, Repr

/-- An axis beside its registers. -/
structure Axis where
  -- feedback (R127-R153)
  x : BitVec 64 := 0
  cntPrev : Word := 0
  resync : Bool := true
  cix : BitVec 64 := 0
  cuser : BitVec 64 := 0
  turns : Word := 0
  /-- Edge history: time, extended count and tick start of each pair, newest first (R145). -/
  hist : List (FTime × BitVec 64 × FTime) := []
  spd : Val := 0
  spdMid : FTime := 0
  ts : FTime := 0
  /-- The last record's CNT differed from the one before (R147). -/
  moved : Bool := false
  raw : BitVec 128 := 0
  fresh : Bool := false
  hall : Option (Nat × Word) := none
  ssiPrev : Option Nat := none
  ssiRun : Nat := 0
  setPos : Option Val := none
  idxShift : Option (BitVec 64) := none
  /-- The index shift decided is that of a referencing edge (R138, R213). -/
  idxRef : Bool := false
  recent : List (FTime × Val × Val) := []
  /-- Shifts of the position (R140): the boundary, and the shift in 2^-16 counts, newest first (R142, R303). -/
  shifts : List (FTime × Int) := []
  missRun : Nat := 0
  -- fault levels (R186, R321): the channel reports FORCED; the bus stage that raised cause BUS
  forced : Bool := false
  busStage : Nat := 0
  /-- The fault levels that held at the last boundary, and the start of the tick it began (R182, R184). -/
  lev : List Nat := []
  bAt : Option FTime := none
  -- loops (R171-R188)
  d : Nat := 0
  dhat : Nat := 0
  win : DlyWin := {}
  closed : DlyWin := {}
  winNo : BitVec 16 := 0
  anyClosed : Bool := false
  l0 : LoopSt := {}
  l1 : LoopSt := {}
  l2 : LoopSt := {}
  vref : Val := 0
  tref : Q23 := 0
  causes : List Cause := []
  catchFrom : Nat := 1
  -- torque control (R196-R222)
  tqVec : BitVec 3 := 0
  mot : Motor := {}
  snap : List Word := [0, 0, 0, 0, 0, 0, 0, 0]
  lossRun : Nat := 0
  /-- The speed, in 2^-40 rad/s, before the run of R216 began (R217). -/
  preW : Int := 0
  stageAt : FTime := 0
  stageCnt : Nat := 0
  alignStep : Nat := 0
  /-- A stage of the loss reaction that begins at the next boundary; 0 none (R217). -/
  react : Nat := 0
  /-- The time at which HOLDI set, and the time and current from which the run current rises (R277). -/
  restAt : FTime := 0
  rise : Option (FTime × Int) := none
  -- pulse and stepper (R225, R277)
  test : Option (List Word) := none
  testNew : Bool := false
  /-- The duty of a coil, which stands while loop 2 does not run (R176). -/
  duty : Q23 := 0
  -- set-point generator
  gen : Gen := {}
  -- compare evaluation points (R287)
  evalPos : Option (FTime × Val) := none
  evalSet : Option (FTime × Val) := none
  -- latch (R301-R304)
  lat : List LatRec := []
  latWait : List LatWait := []
  capCnt0 : BitVec 4 := 0
  capCnt1 : BitVec 4 := 0
  /-- The core cycle in which a unit was last armed or disarmed, and what that cycle found (R301). -/
  armCyc : Option Nat := none
  armOld : Bool × Bool := (false, false)
  -- lanes
  /-- The index of the axis within its lane (R360). -/
  lidx : Nat := 0
deriving DecidableEq, Repr

/-! ### Compare (10) -/

/-- The state of a compare entry (R284, R290, R306). -/
inductive CmpSt where
  | free | armed | held | fired | disarmed
deriving DecidableEq, Repr

/-- A compare entry: its 32 bytes and its state; whether it is suspended (R285); whether the free index was last freed by firing (R297);
the fire time, the lateness in time and counts, and whether the fire was late and predicted (R299, R300); its EVENT frame sent, or held
(R292); its other actions done; of an entry to re-arm, whether the point opposite has been crossed (R290); and whether a forward step has
passed the time of a TIME entry (R39). -/
structure CmpEnt where
  raw : BitVec 256 := 0
  st : CmpSt := .free
  susp : Bool := false
  byFire : Bool := false
  tf : FTime := 0
  latT : Word := 0
  latCnt : Word := 0
  late : Bool := false
  pred : Bool := false
  evSent : Bool := false
  evHeld : Bool := false
  done : Bool := false
  opposed : Bool := false
  stepped : Bool := false
deriving DecidableEq, Repr

/-! ### Bus groups (11) -/

/-- A bus group beside its registers (R311-R315). -/
structure BusGrp where
  nocur : Nat := 0
  rise : Nat := 0
  vbPrev : Option Nat := none
  okEvals : Nat := 0
  /-- The ballast channel's latest record reports FORCED; the latest record not yet evaluated (R315). -/
  forced : Bool := false
  lastRec : Option (BitVec 128) := none
  /-- An FCLR awaits the answer to its G_CLR.FORCE (R316). -/
  clrWait : Bool := false
  duty : Nat := 0
  /-- The loops the stage-3 request named that stood closed, and whether its answer is awaited (R317, R320). -/
  reqLoops : BitVec 25 := 0
  reqWait : Bool := false
deriving DecidableEq, Repr

/-! ### Lanes (12) -/

/-- An event in a lane's queue (R354). -/
structure LEvent where
  tick : Bool
  t : Nat
  pos : Nat
  cls : Nat
  tk : FTime
  raised : FTime
  subst : Bool
  tickNo : BitVec 8
deriving DecidableEq, Repr

/-- One register bank of a lane (R326). -/
structure LBank where
  d : Tbl (BitVec 24) := []
  a : Tbl (BitVec 56) := []
  p : Tbl (BitVec 24) := []
  m : Tbl (BitVec 24) := []
  q : Tbl (BitVec 24) := []
  scl : BitVec 5 := 0
  flg : BitVec 4 := 0
  rot : BitVec 3 := 0
  iter : BitVec 12 := 0
  rpt : BitVec 11 := 0
  lr : BitVec 12 := 0
  evi : BitVec 8 := 0
  pc : BitVec 12 := 0
  /-- Body of the active LOOP (R350), and whether an instruction is latched by REP (R353). -/
  loopStart : BitVec 12 := 0
  loopEnd : BitVec 12 := 0
  latch : Bool := false
deriving DecidableEq, Repr

/-- A load in its load-use slot (R347): the physical destination (0-15 d, 16-19 a, 24-31 p, 32-39 m, 40-47 q) and the value. -/
structure LPend where
  dst : Nat
  val : BitVec 56
  /-- Of the foreground bank? -/
  fg : Bool := true
deriving DecidableEq, Repr

/-- A lane (R326-R363) beside its registers in block LPE. -/
structure Lane where
  fg : LBank := {}
  bg : LBank := {}
  /-- Register writes of a load issued in the previous instruction (R347). -/
  pend : List LPend := []
  /-- A word WADD writes at the end of the next instruction (R349). -/
  pendSt : Option (Nat × BitVec 64) := none
  /-- Branch or END whose delay slots are issuing: (slots left, target, ends the work item). -/
  slots : Option (Nat × BitVec 12 × Bool) := none
  mem : Tbl Byte := []
  upsets : List (Nat × Bool) := []
  evq : List LEvent := []
  /-- The tick start of the last TICK event, by class. -/
  tickRaised : Tbl (Option FTime) := []
  work : Option LEvent := none
  /-- The banked window (R360, R361): its two banks, and the one the work item in progress sampled. -/
  bank0 : Tbl Byte := []
  bank1 : Tbl Byte := []
  wbank : Bool := false
  cseq : Tbl Word := []
  outs : List Nat := []
  trapped : Bool := false
  stsz : Nat := 192
  stbase : Nat := 0x9000
  target : BitVec 2 := 3
  /-- The figures w of the six loops that the image declares (R368); none for a loop it does not implement, empty without an image. -/
  loops : List (Option Nat) := []
  imgKind : BitVec 8 := 0
  /-- Program memory (R330), the entry indices, the configuration block size and map of the image (R368). -/
  prog : Tbl (BitVec 64) := []
  eframe : BitVec 12 := 0x400
  etick : BitVec 12 := 0x400
  cbsz : Nat := 8
  cmap : List Word := []
  lastPass : FTime := 0
deriving DecidableEq, Repr

/-! ### Host rings and stream port (13), access plan (14) -/

/-- A completion entry before its ring phase (R385). -/
structure Cqe where
  ft : FTime
  payload : BitVec 128
  tag : BitVec 16
  planver : BitVec 16
  status : BitVec 8
  kind : BitVec 3
  sq : BitVec 5
  sqhead : BitVec 12
deriving DecidableEq, Repr

/-- A command admitted and not yet complete (R379): what its completion needs. -/
structure OpenCmd where
  src : DescSrc
  opc : Nat
  tag : BitVec 16
  nocomp : Bool
  planver : BitVec 16
  axis : Nat
  op : MotionOp
  left : Nat := 0
  count : Nat := 0
  sqhead : BitVec 12 := 0
  /-- Its completion is discarded: the endpoint was reset after its admission (R396). -/
  dead : Bool := false
deriving DecidableEq, Repr

/-- A submission ring (R374-R384, R394). -/
structure Sq where
  staged : Nat := 0
  stopped : Bool := false
  lastDb : FTime := 0
deriving DecidableEq, Repr

/-- A completion ring (R376, R377, R390): the head, the entries written and not consumed, and the backlog. -/
structure Cq where
  head : BitVec 12 := 0
  ring : List (Cqe × Bool × FTime) := []
  backlog : List Cqe := []
  msgs : Nat := 0
deriving DecidableEq, Repr

/-- A frame in a port's transmit queue (R391). -/
structure TxItem where
  /-- The frame SQ that carried it; none for a published frame (R272). -/
  q : Option Nat
  tag : BitVec 16
  nocomp : Bool
  tsreq : Bool
  frameId : BitVec 16
  canid : Word
  data : List Byte
deriving DecidableEq, Repr

/-- A remote master slot (R271). -/
structure RmSlot where
  valid : Bool := false
  t : FTime := 0
  p : Val := 0
  v : Val := 0
deriving DecidableEq, Repr

/-- A stream frame (R401). -/
structure StrFrame where
  typ : BitVec 8
  seq : BitVec 16
  cret : BitVec 16
  payload : List Byte
deriving DecidableEq, Repr

/-- The stream port (R400-R405): INIT sent and received, the counts of R401, credits to return, the receive queue with each frame's
credits and whether it has been dealt with, and the frames that the last command sent. -/
structure Stream where
  sentInit : Bool := false
  rcvdInit : Bool := false
  seqTx : BitVec 16 := 0
  seqRx : BitVec 16 := 0
  retPend : Nat := 0
  rxq : List (Nat × Bool) := []
  sent : List StrFrame := []
  /-- The bytes of those frames (R401). -/
  wire : List Byte := []
deriving DecidableEq, Repr

/-! ### Commit path (15) -/

/-- The commit in the path (R438-R440). -/
structure CommitRec where
  groups : BitVec 8
  axsel : BitVec 256
  sched : Bool
  at_ : FTime
  fromDesc : Option Nat
  captured : List (Nat × Word)
  stagedG : Bool
  accepted : FTime
  armed : Bool
  /-- Its time was reached during CHECK (R440). -/
  late : Bool := false
  stepped : Bool := false
deriving DecidableEq, Repr

/-! ### Anchor (16) -/

/-- The state of a rip loop at the anchor (R458-R463, R472). -/
structure Loop where
  hi : Bool := false
  lo : Bool := false
  phase : BitVec 3 := 0
  latched : BitVec 16 := 0x800
  cause : BitVec 4 := 0xB
  fault : Bool := false
  tfh : Bool := false
  tfl : Bool := false
  ovl : Bool := false
  opens : BitVec 8 := 0
  dis : Bool := false
  testing : BitVec 2 := 0
deriving DecidableEq, Repr

/-- A pilot as the anchor sees it (R474-R479). -/
structure BeatSt where
  seq : BitVec 4 := 0
  any : Bool := false
  fresh : Bool := true
  missed : Nat := 0
  good : Nat := 0
  goodAct : Nat := 0
  refuse : Bool := true
deriving DecidableEq, Repr

/-- The anchor (R451-R480). -/
structure Anchor where
  st : BitVec 3 := 0
  fcode : BitVec 3 := 0
  strapLatched : BitVec 8 := 0
  straps : BitVec 8 := 0
  strapsN : BitVec 8 := 0xFF
  strapErr : Bool := false
  loops : Tbl Loop := []
  ch : BitVec 4 := 0
  pair : BitVec 2 := 0
  disc : BitVec 2 := 0
  seenOpen : BitVec 2 := 0
  stop1 : Bool := false
  stop1run : Bool := false
  stop1causes : BitVec 16 := 0
  stop1first : BitVec 4 := 0
  /-- The STOP0s in force: the cause and the loops that still hold it (R470). -/
  stop0s : List (BitVec 4 × BitVec 25) := []
  stop2 : Bool := false
  holdopen : BitVec 25 := 0x1FFFFFF
  lostlane : BitVec 25 := 0
  active : Bool := false
  actval : Bool := false
  stby : Bool := false
  nopilot : Bool := false
  assigned : Bool := false
  promoted : Bool := false
  beat0 : BeatSt := {}
  beat1 : BeatSt := {}
  bustrip : Bool := false
  alive : BitVec 16 := 0
  badbeat : Nat := 0
  missedCnt : Nat := 0
  promCnt : Nat := 0
  discCnt : Nat := 0
  evts : List (Nat × Nat × BitVec 24) := []
  /-- The answer to a stage-3 request, for the status word: true accepted, false refused (R320). -/
  reqAns : Option Bool := none
deriving DecidableEq, Repr

/-- The shell side of the anchor link: what the last status word showed (R454, R468). -/
structure AncView where
  lastAlive : BitVec 16 := 0
  aliveAt : FTime := 0
  /-- Words sent on STOPREQ that the anchor has not taken (R454). -/
  sent : List StopReqSrc := []
  /-- The trip record of each loop as the shell last saw it (R483). -/
  lat : Tbl (BitVec 16) := []
  openCause : Tbl Nat := []
  openAt : Tbl FTime := []
  closeAt : Tbl FTime := []
  ripSince : Tbl FTime := []
  lostSince : Tbl FTime := []
  fenced : Option Bool := none
deriving DecidableEq, Repr

/-! ### Field die (17) -/

/-- A field input in the shell (R485-R488). -/
structure FinSt where
  raw : Bool := false
  word : FTime := 0
  filt : Bool := false
  run : Option FTime := none
  lastRise : FTime := 0
  lastFall : FTime := 0
deriving DecidableEq, Repr

/-- A field output on the field die (R489-R494). -/
structure FoutSt where
  on_ : Bool := false
  sil : Bool := true
  words : Bool := false
  tsd : Bool := false
  safe : BitVec 2 := 0
  held : Bool := false
  shutAt : FTime := 0
  pulse : Option FTime := none
deriving DecidableEq, Repr

/-! ### Service (18) and start-up (19) -/

/-- A migration in progress (R501-R504). -/
structure Migration where
  src : Nat
  dst : Nat
  axes : List Nat
  at_ : FTime
  tw : Option FTime
  moved : Nat
  repair : Bool
  cmd : Option Nat
  /-- The lane-local index that each moved axis takes on the destination. -/
  idx : List (Nat × Nat) := []
  /-- The boundary at which axes last switched, and the words of state that switched there (R502). -/
  bAt : FTime := 0
  bWords : Nat := 0
deriving DecidableEq, Repr

/-- The flight log (R513-R515). -/
structure FLog where
  seq : BitVec 16 := 0
  staging : List (BitVec 256) := []
  store : List (BitVec 256) := []
  lostPend : Bool := false
  postLeft : Option Nat := none
  trig : Nat := 0
  snap : Tbl Word := []
  /-- FLOG_AREA as it is in force (R520). -/
  area : Word := 0x3F0000
deriving DecidableEq, Repr

/-- A pilot (R509-R511, R530). -/
structure Pilot where
  running : Bool := false
  slot : Bool := false
  /-- It beats with SWAP = 1 (R511). -/
  swap : Bool := false
  /-- The slot that a PL_START boots it from, until the boot ends; whether that slot becomes the boot slot (R510). -/
  bootPend : Option Bool := none
  bootNext : Bool := false
deriving DecidableEq, Repr

/-- Start-up and resets (R521-R535). -/
structure Startup where
  poreset : Bool := true
  sysreset : Bool := false
  railFault : Bool := false
  perst : Bool := true
  vfield : Bool := true
  calRun : Bool := false
  /-- The corrections in force, four words to an index of CAL_READ, and the time of the calibration (R533, R537). -/
  cal : Tbl Word := []
  calAt : FTime := 0
  /-- A pilot image update runs, into the slot named (R509). -/
  updRun : Option Bool := none
  /-- Lanes whose LN_LOAD runs (R506). -/
  loadMask : BitVec 16 := 0
  /-- The length in bytes of the image that it named. -/
  loadLen : Word := 0
  /-- The boot slot that the boot control block names; it outlasts every reset (R529). -/
  bootSlot : Bool := false
  /-- The slot that the boot ROM reads and verifies (R530). -/
  booting : Option Bool := none
deriving DecidableEq, Repr

/-- A part of the tick plan that a commit has loaded and that waits for the first tick start of its tether (R170): until `start` the device
uses the words `regs` in place of the working copies. -/
structure PlanHold where
  t : Nat
  start : FTime
  regs : List (Nat × Word)
deriving DecidableEq, Repr

/-- The answer of a mailbox request that is being performed: core cycles until it is written, its status and its DATA words (R444). -/
structure MbxAns where
  left : Nat
  status : Nat
  data : List Word
deriving DecidableEq, Repr

/-- The YT256. -/
structure State where
  /-- The register file: value at the base offset of every register not at its reset value (R429, R437: shadows of sh fields). -/
  regs : Tbl Word := []
  /-- Working copies of sh registers not at their reset value (R437). -/
  work : Tbl Word := []
  /-- Parts of the tick plan that wait for a tick start (R170). -/
  hold : List PlanHold := []
  time : TimeUnit := {}
  ports : Tbl PortDev := []
  gdev : Tbl GonDev := []
  gons : Tbl Gondola := []
  axes : Tbl Axis := []
  emuAcc : Tbl Nat := []
  cmp : Tbl CmpEnt := []
  bus : Tbl BusGrp := []
  lanes : Tbl Lane := []
  sram : Tbl Byte := []
  sramUpsets : List (Nat × Bool) := []
  /-- Words of the configuration journal whose records are marked invalid (R26). -/
  journalBad : List Nat := []
  scrub : Nat := 0
  sqs : Tbl Sq := []
  cqs : Tbl Cq := []
  host : Tbl Byte := []
  msgs : Tbl Nat := []
  txq : Tbl (List TxItem) := []
  /-- The last frame that each frame port sent. -/
  txSent : Tbl (List Byte) := []
  cmds : Tbl (Option OpenCmd) := []
  nextCmd : Nat := 0
  rm : Tbl RmSlot := []
  stream : Stream := {}
  commit : Option CommitRec := none
  anchor : Anchor := {}
  ancView : AncView := {}
  fltIn : BitVec 4 := 0
  fins : Tbl FinSt := []
  fouts : Tbl FoutSt := []
  mig : Option Migration := none
  repairs : List Nat := []
  flog : FLog := {}
  pilot0 : Pilot := {}
  pilot1 : Pilot := {}
  su : Startup := {}
  /-- What the last read of a register returned; none stands for Unsupported Request (R373, R434). -/
  answer : Option Word := none
  /-- The submission ring whose descriptor was admitted last (R382). -/
  sqLast : Nat := 31
  /-- Answers of mailbox requests that are being performed, by set (R444). -/
  mbxAns : Tbl (Option MbxAns) := []
  /-- The stamp of the last frame that each CAN controller received (R393, R426). -/
  canT : Tbl (Option FTime) := []
  /-- Network configuration in force that its register no longer holds, by offset: a change waits for a disabled interface (R407). -/
  netHeld : Tbl (Option Word) := []
  /-- The model's own field, not the spec's: how many free values have been drawn. -/
  freeCtr : Nat := 0
  /-- The commands that are waiting, first in, first out. -/
  pending : List Instr := []
deriving DecidableEq, Repr

/-- The machine right after reset. -/
def State.reset : State := {}

end Sys2Proof.Machine
end

