-- ==== Sys2Proof/Machine/Ops.lean ====
section
/-! DEFINITION. The named operations over the tables, the register file, the working copies, the units and the memories: every
meaning reads and writes the state through them. -/
namespace Sys2Proof.Machine

/-- The outcome of a command. -/
abbrev Out := Host.Outcome State Fault Refusal

/-! ### Words and checksums -/

/-- Low and high words of a 64-bit value. -/
def lo32 (x : BitVec 64) : Word := x.setWidth 32
def hi32 (x : BitVec 64) : Word := (x >>> 32).setWidth 32
def words64 (x : BitVec 64) : List Word := [lo32 x, hi32 x]
/-- The 64-bit value of two words. -/
def join64 (lo hi : Word) : BitVec 64 := hi ++ lo

/-- One step of the CRC-32 of R58 on one bit, reflected. -/
def crcBit (c : BitVec 32) : BitVec 32 := if c.getLsbD 0 then (c >>> 1) ^^^ 0xEDB88320#32 else c >>> 1
/-- One byte of the CRC-32. -/
def crcByte (c : BitVec 32) (b : Byte) : BitVec 32 :=
  crcBit (crcBit (crcBit (crcBit (crcBit (crcBit (crcBit (crcBit (c ^^^ b.setWidth 32))))))))
/-- The CRC-32 of IEEE 802.3 (R58). -/
def crc32 (bs : List Byte) : BitVec 32 := ~~~(bs.foldl crcByte 0xFFFFFFFF#32)

/-! ### Tables -/

/-- The entry at a key; an unlisted key reads as `d`. -/
def tget {α : Type} (d : α) : Tbl α → Nat → α
  | [], _ => d
  | (k', v) :: r, k => if k = k' then v else tget d r k

/-- The table without a key. -/
def tdrop {α : Type} : Tbl α → Nat → Tbl α
  | [], _ => []
  | (k', v) :: r, k => if k = k' then tdrop r k else (k', v) :: tdrop r k

/-- Write the entry at a key; writing what an unlisted key reads as removes it. -/
def tset {α : Type} [DecidableEq α] (d : α) : Tbl α → Nat → α → Tbl α
  | [], k, v => if v = d then [] else [(k, v)]
  | (k', v') :: r, k, v =>
    if k < k' then (if v = d then tdrop ((k', v') :: r) k else (k, v) :: (k', v') :: r)
    else if k = k' then (if v = d then tdrop r k else (k, v) :: r)
    else (k', v') :: tset d r k v

/-- Every entry changed by a function that keeps what an unlisted key reads as. -/
def tmap {α : Type} [DecidableEq α] (d : α) (f : α → α) : Tbl α → Tbl α
  | [] => []
  | (k, v) :: r => if f v = d then tdrop (tmap d f r) k else (k, f v) :: tmap d f r

/-- Keys strictly rising. -/
def tsorted {α : Type} : Tbl α → Bool
  | [] => true
  | [_] => true
  | (a, _) :: (b, v) :: r => decide (a < b) && tsorted ((b, v) :: r)

/-- The canonical form of a table: keys strictly rising, no entry equal to what an unlisted key reads as. -/
def twf {α : Type} [DecidableEq α] (d : Nat → α) (t : Tbl α) : Bool :=
  tsorted t && t.all (fun e => decide (e.2 ≠ d e.1))

/-- The canonical form of a byte memory: addresses strictly rising, and no entry equal to 0, which an unlisted address reads as. -/
def Memory.wf (m : Tbl Byte) : Bool := twf (fun _ => 0) m

/-! ### Registers -/

/-- The bits of a field within a register. -/
def Bits.mask (b : Bits) : Nat := (2 ^ b.w - 1) <<< b.lo

/-- The value of a field of a register word. -/
def bget (v : Word) (b : Bits) : Nat := (v.toNat >>> b.lo) % 2 ^ b.w

/-- A register word with a field replaced. -/
def bset (v : Word) (b : Bits) (x : Nat) : Word :=
  (v &&& ~~~(BitVec.ofNat 32 b.mask)) ||| BitVec.ofNat 32 ((x % 2 ^ b.w) <<< b.lo)

/-- The value of the register at an offset (its shadow, for `sh` fields). -/
def State.rget (s : State) (o : Nat) : Word := tget (regReset o) s.regs o

/-- Write the register at an offset. -/
def State.rset (s : State) (o : Nat) (v : Word) : State := { s with regs := tset (regReset o) s.regs o v }

/-- The working copy of an `sh` register (R437). -/
def State.wcopy (s : State) (o : Nat) : Word := tget (regReset o) s.work o

/-- The word that a register of the tick plan keeps in use until a tick start (R170). -/
def State.held (s : State) (o : Nat) : Option Word := s.hold.findSome? (fun h => (h.regs.find? (fun e => e.1 == o)).map (fun e => e.2))

/-- The word of an `sh` register that the device uses: its working copy, but for a part of the tick plan that waits (R170, R437). -/
def State.wget (s : State) (o : Nat) : Word := (s.held o).getD (s.wcopy o)

/-- A held part of the plan with one of its words replaced. -/
def PlanHold.map (h : PlanHold) (o : Nat) (f : Word → Word) : PlanHold :=
  { h with regs := h.regs.map (fun e => if e.1 = o then (o, f e.2) else e) }

/-- Write the working copy of an `sh` register. -/
def State.wset (s : State) (o : Nat) (v : Word) : State :=
  { s with work := tset (regReset o) s.work o v, hold := s.hold.map (fun h => h.map o (fun _ => v)) }

/-- A field of a register. -/
def State.fget (s : State) (o : Nat) (b : Bits) : Nat := bget (s.rget o) b

/-- Write a field of a register. -/
def State.fset (s : State) (o : Nat) (b : Bits) (x : Nat) : State := s.rset o (bset (s.rget o) b x)

/-- Is a one-bit field set? -/
def State.flag (s : State) (o : Nat) (b : Bits) : Bool := s.fget o b != 0

/-- Write a one-bit field. -/
def State.fsetb (s : State) (o : Nat) (b : Bits) (x : Bool) : State := s.fset o b (if x then 1 else 0)

/-- Set a status bit. -/
def State.raise (s : State) (o : Nat) (b : Bits) : State := s.fset o b 1

/-- An `sh` field as a place in a word. -/
def Sh.b (b : Sh) : Bits := ⟨b.lo, b.w⟩

/-- A field of a working copy. -/
def State.wfld (s : State) (o : Nat) (b : Sh) : Nat := bget (s.wget o) b.b

/-- Is a one-bit field of a working copy set? -/
def State.wflag (s : State) (o : Nat) (b : Sh) : Bool := s.wfld o b != 0

/-- Write a field of a working copy. -/
def State.wfset (s : State) (o : Nat) (b : Sh) (x : Nat) : State :=
  { s with
    work := tset (regReset o) s.work o (bset (s.wcopy o) b.b x)
    hold := s.hold.map (fun h => h.map o (fun v => bset v b.b x)) }

/-- Write a field of a working copy and of its shadow alike (R437). -/
def State.bothSet (s : State) (o : Nat) (b : Sh) (x : Nat) : State :=
  (s.wfset o b x).rset o (bset (s.rget o) b.b x)

/-- The COUNT field that every 16-bit saturating counter register has. -/
def cntBits : Bits := ⟨0, 16⟩

/-- The sticky OVF bit beside a COUNT (R90). -/
def ovfBits : Bits := ⟨16, 1⟩

/-- Count `n` more in a 16-bit saturating counter; at 0xFFFF it stays and OVF sets (R90). -/
def State.countN (s : State) (o : Nat) (n : Nat) : State :=
  let c := s.fget o cntBits + n
  if 0xFFFF ≤ c then (s.fset o cntBits 0xFFFF).raise o ovfBits else s.fset o cntBits c

/-- Count one more. -/
def State.count (s : State) (o : Nat) : State := s.countN o 1

/-! ### Units -/

/-- A device port. -/
def State.port (s : State) (t : Nat) : PortDev := tget {} s.ports t
def State.setPort (s : State) (t : Nat) (p : PortDev) : State := { s with ports := tset {} s.ports t p }
def State.updPort (s : State) (t : Nat) (f : PortDev → PortDev) : State := s.setPort t (f (s.port t))

/-- The key of a gondola as the device sees it: tether `t`, position `g` (R11). -/
def gkey (t g : Nat) : Nat := 64 * t + g

/-- The device's view of a gondola, by key. -/
def State.gd (s : State) (k : Nat) : GonDev := tget {} s.gdev k
def State.setGd (s : State) (k : Nat) (p : GonDev) : State := { s with gdev := tset {} s.gdev k p }
def State.updGd (s : State) (k : Nat) (f : GonDev → GonDev) : State := s.setGd k (f (s.gd k))

/-- A gondola, by node. -/
def State.gon (s : State) (n : Nat) : Gondola := tget {} s.gons n
def State.setGon (s : State) (n : Nat) (p : Gondola) : State := { s with gons := tset {} s.gons n p }
def State.updGon (s : State) (n : Nat) (f : Gondola → Gondola) : State := s.setGon n (f (s.gon n))

/-- A channel of a gondola. -/
def Gondola.chan (g : Gondola) (c : Nat) : GChan := tget {} g.chans c
def Gondola.setChan (g : Gondola) (c : Nat) (x : GChan) : Gondola := { g with chans := tset {} g.chans c x }
def Gondola.updChan (g : Gondola) (c : Nat) (f : GChan → GChan) : Gondola := g.setChan c (f (g.chan c))

/-- An axis. -/
def State.ax (s : State) (n : Nat) : Axis := tget {} s.axes n
def State.setAx (s : State) (n : Nat) (a : Axis) : State := { s with axes := tset {} s.axes n a }
def State.updAx (s : State) (n : Nat) (f : Axis → Axis) : State := s.setAx n (f (s.ax n))
def State.updGen (s : State) (n : Nat) (f : Gen → Gen) : State := s.updAx n (fun a => { a with gen := f a.gen })

/-- A compare entry. -/
def State.ce (s : State) (i : Nat) : CmpEnt := tget {} s.cmp i
def State.setCe (s : State) (i : Nat) (e : CmpEnt) : State := { s with cmp := tset {} s.cmp i e }
def State.updCe (s : State) (i : Nat) (f : CmpEnt → CmpEnt) : State := s.setCe i (f (s.ce i))

/-- A bus group. -/
def State.bg (s : State) (b : Nat) : BusGrp := tget {} s.bus b
def State.setBg (s : State) (b : Nat) (g : BusGrp) : State := { s with bus := tset {} s.bus b g }
def State.updBg (s : State) (b : Nat) (f : BusGrp → BusGrp) : State := s.setBg b (f (s.bg b))

/-- A lane. -/
def State.ln (s : State) (l : Nat) : Lane := tget {} s.lanes l
def State.setLn (s : State) (l : Nat) (x : Lane) : State := { s with lanes := tset {} s.lanes l x }
def State.updLn (s : State) (l : Nat) (f : Lane → Lane) : State := s.setLn l (f (s.ln l))

/-- A submission ring. -/
def State.sq (s : State) (q : Nat) : Sq := tget {} s.sqs q
def State.setSq (s : State) (q : Nat) (x : Sq) : State := { s with sqs := tset {} s.sqs q x }
def State.updSq (s : State) (q : Nat) (f : Sq → Sq) : State := s.setSq q (f (s.sq q))

/-- A completion ring. -/
def State.cq (s : State) (q : Nat) : Cq := tget {} s.cqs q
def State.setCq (s : State) (q : Nat) (x : Cq) : State := { s with cqs := tset {} s.cqs q x }
def State.updCq (s : State) (q : Nat) (f : Cq → Cq) : State := s.setCq q (f (s.cq q))

/-- An open command. -/
def State.cmd (s : State) (k : Nat) : Option OpenCmd := tget none s.cmds k
def State.setCmd (s : State) (k : Nat) (x : Option OpenCmd) : State := { s with cmds := tset none s.cmds k x }

/-- A remote master slot. -/
def State.rmSlot (s : State) (r : Nat) : RmSlot := tget {} s.rm r
def State.setRm (s : State) (r : Nat) (x : RmSlot) : State := { s with rm := tset {} s.rm r x }

/-- A field input and a field output. -/
def State.fin_ (s : State) (n : Nat) : FinSt := tget {} s.fins n
def State.setFin (s : State) (n : Nat) (x : FinSt) : State := { s with fins := tset {} s.fins n x }
def State.fout (s : State) (k : Nat) : FoutSt := tget {} s.fouts k
def State.setFout (s : State) (k : Nat) (x : FoutSt) : State := { s with fouts := tset {} s.fouts k x }
def State.updFout (s : State) (k : Nat) (f : FoutSt → FoutSt) : State := s.setFout k (f (s.fout k))

/-- A rip loop at the anchor. -/
def Anchor.loop (a : Anchor) (n : Nat) : Loop := tget {} a.loops n
def Anchor.setLoop (a : Anchor) (n : Nat) (l : Loop) : Anchor := { a with loops := tset {} a.loops n l }
def State.updAnchor (s : State) (f : Anchor → Anchor) : State := { s with anchor := f s.anchor }

/-- A time comparator. -/
def TimeUnit.comp (u : TimeUnit) (n : Nat) : TimeComp := tget {} u.tc n
def TimeUnit.setComp (u : TimeUnit) (n : Nat) (c : TimeComp) : TimeUnit := { u with tc := tset {} u.tc n c }
def State.updTime (s : State) (f : TimeUnit → TimeUnit) : State := { s with time := f s.time }

/-! ### Free values -/

/-- The `k`-th free value from here. -/
def State.free (s : State) (k : Nat) : BitVec 64 := freeValue (s.freeCtr + k)

/-- Advance past `n` free values. -/
def State.drew (s : State) (n : Nat) : State := { s with freeCtr := s.freeCtr + n }

/-! ### Numbers -/

/-- Limit a signed number to `w` bits. -/
def satInt (w : Nat) (x : Int) : Int :=
  if x > 2 ^ (w - 1) - 1 then 2 ^ (w - 1) - 1 else if x < -(2 ^ (w - 1)) then -(2 ^ (w - 1)) else x

/-- A velocity as written: brought within 48 bits (R6, R7). -/
def velIn (v : BitVec 64) : BitVec 64 := BitVec.ofInt 64 (satInt 48 v.toInt)

/-- The signed 64-bit container of a value, saturated (R7). -/
def val64 (x : Int) : BitVec 64 := BitVec.ofInt 64 (satInt 64 x)

/-- Little-endian bytes of a number (R6). -/
def leBytes : Nat → Nat → List Byte
  | 0, _ => []
  | k + 1, n => BitVec.ofNat 8 n :: leBytes k (n / 256)

/-- The number that little-endian bytes give. -/
def leNat : List Byte → Nat
  | [] => 0
  | b :: bs => b.toNat + 256 * leNat bs

/-- Bits `hi:lo` of a number. -/
def bitsOf (x lo w : Nat) : Nat := (x >>> lo) % 2 ^ w

/-- Bit `i` of a number. -/
def bitOf (x i : Nat) : Bool := x.testBit i

/-- A mask word with one bit written. -/
def setBit (x : Nat) (i : Nat) (b : Bool) : Nat := if b then x ||| 2 ^ i else if x.testBit i then x - 2 ^ i else x

/-- The list `0 … n - 1` without those a test refuses. -/
def idx (n : Nat) (p : Nat → Bool) : List Nat := (List.range n).filter p

/-- Bytes of a memory table, from an address on. -/
def memRead (m : Tbl Byte) (a : Nat) : Nat → List Byte
  | 0 => []
  | k + 1 => tget 0 m a :: memRead m (a + 1) k

/-- Write bytes to a memory table, from an address on. -/
def memWrite (m : Tbl Byte) (a : Nat) : List Byte → Tbl Byte
  | [] => m
  | b :: bs => memWrite (tset 0 m a b) (a + 1) bs

/-- A network configuration word in force, and a field and a flag of it (R407). -/
def State.netWord (s : State) (o : Nat) : Word := (tget none s.netHeld o).getD (s.rget o)
def State.netFld (s : State) (o : Nat) (b : Bits) : Nat := bget (s.netWord o) b
def State.netFlag (s : State) (o : Nat) (b : Bits) : Bool := s.netFld o b == 1

/-- Write bytes to host memory. -/
def State.hostWrite (s : State) (a : Nat) (bs : List Byte) : State := { s with host := memWrite s.host a bs }

/-- Write bytes to shared SRAM; a written word loses the upset it held (R26). -/
def State.sramWrite (s : State) (a : Nat) (bs : List Byte) : State :=
  { s with sram := memWrite s.sram a bs,
           sramUpsets := s.sramUpsets.filter (fun u => !(decide (a < 8 * u.1 + 8) && decide (8 * u.1 < a + bs.length))) }

/-! ### Time -/

/-- Field time now. -/
def State.now (s : State) : FTime := s.time.ft

/-- Field-time units in a microsecond (1/16 ns each, R6). -/
def usUnits : Nat := 16000

/-- Signed difference `a - b` of two field times (R33). -/
def tdiff (a b : FTime) : Int := (a - b).toInt

/-- Has `a` reached `b` (R33)? -/
def reached (a b : FTime) : Bool := decide (0 ≤ tdiff a b)

/-- The number of the path of a register access in the access plan: P0 or P8 (R408). -/
def RegPath.port : RegPath → Nat
  | .p0 => 0
  | .p8 => 8

end Sys2Proof.Machine
end

