-- ==== Sys2Proof/Machine/Rings.lean ====
section
/-! DEFINITION. Completion entries, their routing to the rings, the backlog and the messages (R376-R377, R385-R390), and the flight
log's writer (R513-R515), which records every entry that is produced. -/
namespace Sys2Proof.Machine

/-! ### The flight log -/

/-- The places of the flight-log staging region for records other than LOST (R513): 8,192 less the one kept for LOST. -/
def flogStaging : Nat := 8191

/-- A flight-log record (R514). -/
def flogRec (typ : Nat) (seq : BitVec 16) (source : Nat) (ft : FTime) (data : BitVec 128) : BitVec 256 :=
  BitVec.ofNat 256 (typ + seq.toNat <<< 16 + (source % 2 ^ 32) <<< 32 + ft.toNat <<< 64 + data.toNat <<< 128)

/-- The FLOG_LOST counter that counts lost records of a type (R520): EVENT, TRACE, COMMIT, ERRSNAP, TRIGGER. -/
def flogLostIdx (typ : Nat) : Nat := if typ = 6 then 4 else typ - 1

/-- The data of a LOST record: the lost counts, two bytes each (R515). -/
def flogLostData (s : State) : BitVec 128 :=
  BitVec.ofNat 128 (leNat ((List.range 5).flatMap (fun k => leBytes 2 (s.fget (rFLOG_LOST k) cntBits))))

/-- Put a record in staging, a LOST record before it when one is owed (R513). -/
def State.flogStage (s : State) (r : BitVec 256) : State :=
  if s.flog.lostPend ∧ s.flog.staging.length + 1 < flogStaging then
    let l := flogRec 5 s.flog.seq 0 s.now (flogLostData s)
    { s with flog := { s.flog with staging := s.flog.staging ++ [l, r], lostPend := false, seq := s.flog.seq + 1 } }
  else { s with flog := { s.flog with staging := s.flog.staging ++ [r] } }

/-- A record of a type is lost: counted, and a LOST record is owed (R513). -/
def State.flogLose (s : State) (typ : Nat) : State :=
  let s := (s.count (rFLOG_LOST (flogLostIdx typ))).raise rFLOG_STAT fFLOG_STAT_LOSTSEEN
  { s with flog := { s.flog with lostPend := true } }

/-- Does the log writer run (R520, R531): EN has no effect without LPDDR4X? -/
def State.flogOn (s : State) : Bool := s.flag rFLOG_CTL fFLOG_CTL_EN && s.flag rSU_STAT fSU_STAT_DDRREADY

/-- The log writer builds a record of type `typ` (R513): nothing while the log is off; neither stored nor counted while it is
frozen, or once the records after a trigger are taken (R515); lost when staging is full. SEQ advances for every record produced. -/
def State.flogAdd (s : State) (typ source : Nat) (ft : FTime) (data : BitVec 128) : State :=
  if !s.flogOn then s
  else if (1 ≤ typ ∧ typ ≤ 4) ∧ !(s.fget rFLOG_CTL fFLOG_CTL_TYPES).testBit (typ - 1) then s
  else
    let r := flogRec typ s.flog.seq source ft data
    let s := { s with flog := { s.flog with seq := s.flog.seq + 1 } }
    if s.flag rFLOG_STAT fFLOG_STAT_FROZEN ∨ s.flog.postLeft = some 0 then s
    else
      let s := { s with flog := { s.flog with postLeft := s.flog.postLeft.map (fun k => k - 1) } }
      if flogStaging ≤ s.flog.staging.length then s.flogLose typ else s.flogStage r

/-- A freeze trigger (R515): with FREEZE = 1 an enabled trigger writes TRIGGER, and POST × 256 further records follow. -/
def State.flogTrigger (s : State) (cause code : Nat) : State :=
  if s.flogOn ∧ s.flag rFLOG_CTL fFLOG_CTL_FREEZE ∧ !s.flag rFLOG_STAT fFLOG_STAT_FROZEN
      ∧ (cause = 0 ∨ (s.fget rFLOG_TRIGM fFLOG_TRIGM_TRIG).testBit (cause - 1)) then
    let s := (s.flogAdd 6 (cause + (code % 2 ^ 24) <<< 8) s.now 0).raise rFLOG_STAT fFLOG_STAT_TRIGD
    if s.flog.postLeft.isNone then
      { s with flog := { s.flog with postLeft := some (s.fget rFLOG_CTL fFLOG_CTL_POST * 256), trig := cause } }
    else s
  else s

/-! ### Messages -/

/-- Send the MSI-X message of a vector, or set its pending bit while it is masked (R390). -/
def State.sendMsg (s : State) (v : Nat) : State :=
  if s.flag (rMSIX_CTL v) fMSIX_CTL_MASK then s.fset (rMSIX_PBA (v / 32)) ⟨v % 32, 1⟩ 1
  else { s with msgs := tset 0 s.msgs v (tget 0 s.msgs v + 1) }

/-- The number of entries a completion ring holds (R374). -/
def State.cqSize (s : State) (q : Nat) : Nat := 2 ^ max 4 (min 12 (s.fget (rHIF_CQ_CFG q) fHIF_CQ_CFG_LOG2SIZE))

/-- Is the time of the oldest unconsumed entry of a ring up (R390)? -/
def State.cqAged (s : State) (q : Nat) : Bool :=
  let t := s.fget (rHIF_CQ_IMOD q) fHIF_CQ_IMOD_ITIME
  match (s.cq q).ring with
  | [] => false
  | (_, _, w) :: _ => t != 0 && reached s.now (w + BitVec.ofNat 64 (t * usUnits))

/-- The interrupt test of a completion ring (R390). -/
def State.cqTest (s : State) (q : Nat) : State :=
  if s.flag (rHIF_CQ_CFG q) fHIF_CQ_CFG_EN ∧ s.flag (rHIF_CQ_CFG q) fHIF_CQ_CFG_IEN ∧ s.flag (rHIF_CQ_STAT q) fHIF_CQ_STAT_ARMED
      ∧ (max 1 (s.fget (rHIF_CQ_IMOD q) fHIF_CQ_IMOD_ICNT) ≤ (s.cq q).ring.length ∨ s.cqAged q = true) then
    ((s.fset (rHIF_CQ_STAT q) fHIF_CQ_STAT_ARMED 0).updCq q (fun c => { c with msgs := c.msgs + 1 })).sendMsg
      (s.fget (rHIF_CQ_CFG q) fHIF_CQ_CFG_VEC)
  else s

/-- The 32 bytes of an entry (R385). -/
def cqeBytes (e : Cqe) (ph : Bool) : List Byte :=
  leBytes 8 e.ft.toNat ++ leBytes 16 e.payload.toNat ++ leBytes 2 e.tag.toNat ++ leBytes 2 e.planver.toNat ++ leBytes 1 e.status.toNat
    ++ leBytes 1 (e.kind.toNat + e.sq.toNat * 8) ++ leBytes 2 (e.sqhead.toNat + if ph then 32768 else 0)

/-- Where a slot of a completion ring lies in host memory (R374). -/
def State.cqSlot (s : State) (q i : Nat) : Nat :=
  (join64 (s.rget (rHIF_CQ_BASE_LO q)) (s.rget (rHIF_CQ_BASE_HI q))).toNat / 64 * 64 + 32 * i

/-- Write one entry to a completion ring at its tail (R376, R383): the phase inverts at each wrap. -/
def State.cqWrite (s : State) (q : Nat) (e : Cqe) : State :=
  let tail := s.fget (rHIF_CQ_STAT q) fHIF_CQ_STAT_TAIL
  let ph := s.flag (rHIF_CQ_STAT q) fHIF_CQ_STAT_PHASE
  let next := (tail + 1) % s.cqSize q
  let s := (s.hostWrite (s.cqSlot q tail) (cqeBytes e ph)).updCq q (fun c => { c with ring := c.ring ++ [(e, ph, s.now)] })
  let s := s.fset (rHIF_CQ_STAT q) fHIF_CQ_STAT_TAIL next
  s.fsetb (rHIF_CQ_STAT q) fHIF_CQ_STAT_PHASE (if next = 0 then !ph else ph)

/-- Has a completion ring room for one more unconsumed entry (R376)? -/
def State.cqRoom (s : State) (q : Nat) : Bool := decide ((s.cq q).ring.length + 1 < s.cqSize q)

/-- Entries the backlog of a completion ring holds (R377). -/
def backlogMax : Nat := 512

/-- Offer an entry to a completion ring (R376, R377): lost and counted while the ring is disabled; written when the ring has room
and no backlog waits; else in the backlog; lost when that is full, but for a command completion. -/
def State.cqOffer (s : State) (q : Nat) (e : Cqe) : State :=
  if !s.flag (rHIF_CQ_CFG q) fHIF_CQ_CFG_EN then s.count (rHIF_CQ_LOST q)
  else if (s.cq q).backlog = [] ∧ s.cqRoom q = true then (s.cqWrite q e).cqTest q
  else if (s.cq q).backlog.length < backlogMax ∨ e.kind = 0 then
    (s.updCq q (fun c => { c with backlog := c.backlog ++ [e] })).fset (rHIF_CQ_STAT q) fHIF_CQ_STAT_BKLOG
      (min backlogMax ((s.cq q).backlog.length + 1))
  else s.count (rHIF_CQ_LOST q)

/-- Produce an entry (R389, R515): an EVENT, CMPREP or LATCH entry is recorded by the flight log whether or not a ring is enabled
for it; with a ring it is offered to that ring. -/
def State.produce (s : State) (ring : Option Nat) (e : Cqe) : State :=
  let s := if e.kind = 1 ∨ e.kind = 2 ∨ e.kind = 3 then
      s.flogAdd 1 (e.kind.toNat + (if e.kind = 1 then e.payload.toNat % 2 ^ 16 else 0) <<< 16) e.ft e.payload
    else s
  match ring with
  | none => s
  | some q => s.cqOffer q e

/-- An EVENT entry (R388): the code, the source and the 12 bytes of data. -/
def eventEntry (code source data : Nat) (ft : FTime) : Cqe :=
  { ft := ft, payload := BitVec.ofNat 128 (code % 2 ^ 16 + (source % 2 ^ 16) <<< 16 + data <<< 32), tag := 0, planver := 0,
    status := 0, kind := 1, sq := 0, sqhead := 0 }

/-- The ring of an enabled routing field. -/
def ringIf (en : Bool) (q : Nat) : Option Nat := if en then some q else none

/-- An event of axis `n` (R389): to the ring of HIF_AXCQ, byte n. -/
def State.axEvent (s : State) (n code data : Nat) (ft : FTime) : State :=
  s.produce (ringIf (s.flag (rHIF_AXCQ (n / 4)) (fHIF_AXCQ_EN (n % 4))) (s.fget (rHIF_AXCQ (n / 4)) (fHIF_AXCQ_CQ (n % 4))))
    (eventEntry code n data ft)

/-- A tether event (R389). -/
def State.tetherEvent (s : State) (t bits : Nat) : State :=
  s.produce (ringIf (s.flag rHIF_DEVCQ fHIF_DEVCQ_TEN) (s.fget rHIF_DEVCQ fHIF_DEVCQ_TCQ)) (eventEntry 0x10 t bits s.now)

/-- An anchor or service event (R389). -/
def State.devEvent (s : State) (code source data : Nat) : State :=
  s.produce (ringIf (s.flag rHIF_DEVCQ fHIF_DEVCQ_SEN) (s.fget rHIF_DEVCQ fHIF_DEVCQ_SCQ)) (eventEntry code source data s.now)

/-- A stream event (R389). -/
def State.streamEvent (s : State) (code data : Nat) : State :=
  s.produce (ringIf (s.flag rHIF_DEVCQ fHIF_DEVCQ_PEN) (s.fget rHIF_DEVCQ fHIF_DEVCQ_PCQ)) (eventEntry code 0 data s.now)

/-- A field-I/O event (R389, R495). -/
def State.fioEvent (s : State) (code source data : Nat) (ft : FTime) : State :=
  s.produce (ringIf (s.flag rFIO_CTL fFIO_CTL_EVEN) (s.fget rFIO_CTL fFIO_CTL_CQ)) (eventEntry code source data ft)

/-- An event of a submission ring, to its own completion ring (R389). -/
def State.sqEvent (s : State) (q code data : Nat) : State :=
  s.produce (some (s.fget (rHIF_SQ_CFG q) fHIF_SQ_CFG_CQ)) (eventEntry code q data s.now)

/-- Raise bits of TTH_Tn_EVT (R91): each bit that sets also posts an event. -/
def State.tthEvt (s : State) (t : Nat) (bits : Nat) : State :=
  (s.rset (rTTH_EVT t) (s.rget (rTTH_EVT t) ||| BitVec.ofNat 32 bits)).tetherEvent t bits

/-! ### Command completions -/

/-- Completion statuses (R386). -/
def stOK : Nat := 0x00
def stSTATE : Nat := 0x01
def stFULL : Nat := 0x02
def stFORMAT : Nat := 0x03
def stDENIED : Nat := 0x04
def stREFUSED : Nat := 0x05
def stBUSY : Nat := 0x06
def stRANGE : Nat := 0x07
def stNOREMAIN : Nat := 0x08
def stDMAERR : Nat := 0x09
def stABORTED : Nat := 0x0A
def stMEMERR : Nat := 0x0B

/-- Bits [15:0] of the plan version in force (R417). -/
def State.planver (s : State) : BitVec 16 := BitVec.ofNat 16 (s.rget rPLAN_VERSION).toNat

/-- The completion of a command (R379, R385, R410): a COMMAND entry to the ring bound to the submitting SQ, unless NOCOMP and the
status is OK; for a peer's command the PEERCMD event; nothing after an endpoint reset (R396). -/
def State.complete (s : State) (c : OpenCmd) (status payload : Nat) : State :=
  if c.dead then s else
  match c.src with
  | .sq q =>
    if c.nocomp ∧ status = stOK then s
    else s.produce (some (s.fget (rHIF_SQ_CFG q) fHIF_SQ_CFG_CQ))
      { ft := s.now, payload := BitVec.ofNat 128 payload, tag := c.tag, planver := c.planver, status := BitVec.ofNat 8 status,
        kind := 0, sq := BitVec.ofNat 5 q, sqhead := c.sqhead }
  | .peer t g =>
    s.produce (ringIf (s.wflag (rPLAN_P_CQ 9) fPLAN_P_CQ_EN) (s.wfld (rPLAN_P_CQ 9) fPLAN_P_CQ_CQ))
      (eventEntry 0x1A (gkey t g) (c.opc + status <<< 8 + c.tag.toNat <<< 16 + c.planver.toNat <<< 32) s.now)

/-- Complete an open command and forget it. -/
def State.finish (s : State) (k status payload : Nat) : State :=
  match s.cmd k with
  | none => s
  | some c => (s.complete c status payload).setCmd k none

/-- Open a command: give it the next number. -/
def State.openCmd (s : State) (c : OpenCmd) : State × Nat :=
  ({ (s.setCmd s.nextCmd (some c)) with nextCmd := s.nextCmd + 1 }, s.nextCmd)

/-- Is a command of a submission ring still open (R382, FENCE)? -/
def State.sqBusy (s : State) (q : Fin 32) : Bool :=
  s.cmds.any (fun e => match e.2 with
    | some c => decide (c.src = .sq q)
    | none => false)

end Sys2Proof.Machine
end

