-- ==== Sys2Proof/Machine/RegPort.lean ====
section
/-! DEFINITION. The register port (R428-R435, R448): what a write stores by the type of each field, the aliases, the reads that
clear, the rights of P8; and the frame of a mailbox request (R443-R446). -/
namespace Sys2Proof.Machine

/-- Count a denial of a port (R414). -/
def State.deny (s : State) (p : Nat) : State := s.count (rPLAN_P_DENY p)

/-- Is a register write of a path ignored (R409, R448): from P8 without REGW, or to block PLAN? -/
def State.p8Denied (s : State) (via : RegPath) (o : Nat) : Bool :=
  match via with
  | .p0 => false
  | .p8 => !s.wflag (rPLAN_P_FLAGS 8) fPLAN_P_FLAGS_REGW || o / 0x100000 == 1

/-- The word a register holds after a write of `v` (R12, R13, R432, R437): `rw` and `sh` bits take `v`, `wm` bits take it under the
mask in the upper half, every other bit stays. -/
def regStore (r : RegRow) (old v : Word) : Word :=
  let m := BitVec.ofNat 32 (r.rw ||| r.sh)
  let sel := (v >>> 16) &&& BitVec.ofNat 32 r.wm &&& 0xFFFF#32
  (old &&& ~~~(m ||| sel)) ||| (v &&& m) ||| (v &&& sel)

/-- Bits of a row of registers that a single register of it does not have: RING of the odd ports (R91). -/
def absentBits (o : Nat) : Word :=
  if rTTH_CTL 0 ≤ o ∧ o ≤ rTTH_CTL 24 ∧ (o - rTTH_CTL 0) % 0x2000 = 0x1000 then 4 else 0

/-- Store a write at an implemented register by its fields' types. -/
def State.storeWord (s : State) (r : RegRow) (o : Nat) (v : Word) : State := s.rset o (regStore r (s.rget o) v &&& ~~~absentBits o)

/-- A register write at a base offset (R429, R448): refused to P8 without the right, dropped with UNMAP at an unimplemented offset;
else the fields store and the effect of the register's write follows, told the word before. -/
def State.portWrite (s : State) (via : RegPath) (o : Nat) (v : Word) (eff : Word → State → State) : State :=
  if s.p8Denied via o then s.deny 8
  else match regRow o with
    | none => s.raise rGLB_STAT fGLB_STAT_UNMAP
    | some r => eff (s.rget o) (s.storeWord r o v)

/-- A write through a BAR that is no request of one DW with every byte enable set, or reaches a reserved offset of BAR2: dropped (R373, R406). -/
def State.barDrop (s : State) : State := s.raise rHIF_STAT fHIF_STAT_BARERR

/-- A write through a BAR (R373): done if the request is `whole`, one DW with every byte enable set. -/
def State.barWrite (s : State) (whole : Bool) (f : State → State) : State := if whole then f s else s.barDrop

/-- The base offset and the alias number of an offset (R428): 0 base, 1 set, 2 clear, 3 toggle. -/
def aliasOf (o : Nat) : Nat × Nat :=
  let rel := o % 0x100000
  (o - (rel / 0x40000) * 0x40000, rel / 0x40000)

/-- The MSI-X table and pending-bit array have no aliases (R429). -/
def isMsix (o : Nat) : Bool := decide (0x220000 ≤ o ∧ o < 0x221008)

/-- The word an alias write gives its register's `rw` bits (R431). -/
def aliasWord (r : RegRow) (a : Nat) (old v : Word) : Word :=
  let sel := v &&& BitVec.ofNat 32 r.rw
  let new := match a with
    | 1 => old ||| sel
    | 2 => old &&& ~~~sel
    | _ => old ^^^ sel
  (new &&& BitVec.ofNat 32 r.rw) ||| (old &&& BitVec.ofNat 32 r.sh)

/-- A read through the register port clears every `rc` bit it returned as 1 (R434, R435). -/
def State.rcRead (s : State) (o : Nat) : State :=
  match regRow o with
  | none => s
  | some r => s.rset o (s.rget o &&& ~~~(BitVec.ofNat 32 r.rc))

/-! ### Mailbox requests -/

/-- What a mailbox object does: the state after it, the status of R446, and the DATA words it returns. -/
structure MbxRes where
  st : State
  status : Nat
  data : List Word

def mbxOK : Nat := 0
def mbxREFUSED : Nat := 1
def mbxUNKNOWN : Nat := 2
def mbxRANGE : Nat := 3
def mbxDENIED : Nat := 4
def mbxMEMERR : Nat := 5

/-- A result without data. -/
def mbxRes (st : State) (status : Nat) : MbxRes := ⟨st, status, []⟩

/-- Write DATA words of a mailbox set from word `k` on. -/
def State.mbxData (s : State) (set k : Nat) : List Word → State
  | [] => s
  | w :: ws => State.mbxData (s.rset (rMBX_DATA set k) w) set (k + 1) ws

/-- The operands as DATA0-DATA7 hold them (R444). -/
def State.mbxOps (s : State) (set : Nat) : List Word := (List.range 8).map (fun k => s.rget (rMBX_DATA set k))

/-- The MBX_REQ word of a request (R450). -/
def mbxReqWord (code op : Nat) (index : BitVec 14) : Word := BitVec.ofNat 32 (code % 1024 + op % 4 * 1024 + index.toNat * 4096)

/-- The object of a request is performed, or denied to P8 without MBX (R446, counted). -/
def State.mbxRun (s : State) (via : RegPath) (perform : State → MbxRes) : MbxRes :=
  if via = .p8 ∧ !s.wflag (rPLAN_P_FLAGS 8) fPLAN_P_FLAGS_MBX then mbxRes (s.deny 8) mbxDENIED else perform s

/-- A set is BUSY with a request: VALID clears (R444). -/
def State.mbxBusy (s : State) (set : Nat) : State := (s.fset (rMBX_STAT set) fMBX_STAT_VALID 0).fset (rMBX_STAT set) fMBX_STAT_BUSY 1

/-- A write of MBX_REQ (R444): ignored with OVERRUN while BUSY; else the object is performed on the state of the acceptance, and its answer
follows within 256 core cycles, when is a free value. -/
def State.mbxAccept (s : State) (set : Nat) (via : RegPath) (perform : State → MbxRes) : State :=
  if s.flag (rMBX_STAT set) fMBX_STAT_BUSY then s.raise (rMBX_STAT set) fMBX_STAT_OVERRUN
  else
    let r := (s.mbxBusy set).mbxRun via perform
    { (r.st.drew 1) with mbxAns := tset none r.st.mbxAns set (some ⟨(r.st.free 0).toNat % 256, r.status, r.data⟩) }

/-- An answer is written: DATA words, STATUS and VALID; SEQ advances (R444). -/
def State.mbxDone (s : State) (set : Nat) (a : MbxAns) : State :=
  let st := rMBX_STAT set
  let s := (State.mbxData { s with mbxAns := tset none s.mbxAns set none } set 0 a.data).fset st fMBX_STAT_STATUS a.status
  ((s.fset st fMBX_STAT_VALID 1).fset st fMBX_STAT_BUSY 0).fset st fMBX_STAT_SEQ (s.fget st fMBX_STAT_SEQ + 1)

/-- A core cycle of one mailbox set. -/
def State.mbxTick1 (s : State) (set : Nat) : State :=
  match tget none s.mbxAns set with
  | none => s
  | some a => if a.left = 0 then s.mbxDone set a else { s with mbxAns := tset none s.mbxAns set (some { a with left := a.left - 1 }) }

/-- A core cycle of the mailbox. -/
def State.mbxTick (s : State) : State := (List.range 4).foldl State.mbxTick1 s

/-- A mailbox request as a whole (R443): the operands into DATA0 on, MBX_REQ written, the request performed. -/
def State.mbx (s : State) (set : Nat) (via : RegPath) (code op : Nat) (index : BitVec 14) (ops : List Word)
    (perform : State → MbxRes) : State :=
  if s.flag (rMBX_STAT set) fMBX_STAT_BUSY then (s.mbxData set 0 ops).mbxAccept set via perform
  else ((s.mbxData set 0 ops).rset (rMBX_REQ set) (mbxReqWord code op index)).mbxAccept set via perform

end Sys2Proof.Machine
end

