-- ==== Sys2Proof/Machine/Anchor.lean ====
section
/-!
DEFINITION. The anchor and the rip loops (16_anchor, R451-R480, R483, R528). The anchor is `State.anchor`; the shell sees it only through
its status word (`AncView` and block ANC), which `Machine/AncWord.lean` receives.
-/
namespace Sys2Proof.Machine

open Sys2Proof

/-! ### Causes and straps -/

def cGUARD : Nat := 0x1
def cSTRAP : Nat := 0x2
def cNOPILOT : Nat := 0x4
def cBALLAST : Nat := 0x5
def cBUSCMP : Nat := 0x6
def cLOSTLANE : Nat := 0x7
def cSWREQ : Nat := 0x8
def cOVERLOAD : Nat := 0x9
def cSTARTUP : Nat := 0xB

/-- The 25 loops. -/
def loops25 : List Nat := List.range 25

/-- Every loop, as a mask. -/
def allLoops : BitVec 25 := 0x1FFFFFF

/-- The stop category the latched straps select: 0b11 is taken as STOP0 (R455). -/
def Anchor.stopcat (a : Anchor) : Nat := if a.strapLatched.toNat % 4 = 3 then 0 else a.strapLatched.toNat % 4

/-- The guard pairs the latched straps select (R455). -/
def Anchor.pairs (a : Anchor) : List Nat := if a.strapLatched.getLsbD 2 then [0, 1] else [0]

/-- Do the straps select test pulses (R455)? -/
def Anchor.tpi (a : Anchor) : Bool := a.strapLatched.getLsbD 5 || a.strapLatched.getLsbD 6

/-- BALRIP (R455, R320). -/
def Anchor.balrip (a : Anchor) : Bool := a.strapLatched.getLsbD 7

/-- Is every guard pair closed (R464)? -/
def Anchor.guardClosed (a : Anchor) : Bool := a.pairs.all a.pair.getLsbD

/-- Post an anchor event, carried by the next status word (R482). -/
def Anchor.post (a : Anchor) (code source data : Nat) : Anchor := { a with evts := a.evts ++ [(code, source, BitVec.ofNat 24 data)] }

/-- The data of a STOP event (R482): category, began or ended, cause. -/
def stopData (cat : Nat) (began : Bool) (c : Nat) : Nat := cat + (if began then 256 else 0) + c * 65536

/-! ### Opening and closing a loop (R458-R461, R472, R473) -/

/-- Is the loop other than open: closing, closed or in a test? -/
def Loop.live (l : Loop) : Bool := l.phase != 0 && l.phase != 5

/-- Latch a cause: CAUSE shows the first one latched since the loop was last closed (R472, R473). -/
def Loop.latch (l : Loop) (c : Nat) : Loop :=
  { l with latched := l.latched ||| BitVec.ofNat 16 (2 ^ c)
           cause := if l.cause = 0 then BitVec.ofNat 4 c else l.cause }

/-- Both switches off, the discharge current on, the opening counted (R458). -/
def Loop.opened (l : Loop) : Loop :=
  { l with hi := false, lo := false, dis := true, testing := 0, phase := if l.fault then 5 else 0
           opens := if l.opens = 0xFF then 0xFF else l.opens + 1 }

/-- Open loop n, unless it is open, and post LOOPOPEN with the cause. -/
def Anchor.openLoop (a : Anchor) (n c : Nat) : Anchor :=
  if (a.loop n).live then (a.setLoop n (a.loop n).opened).post 0x23 n c else a

/-- Latch a cause on loop n, then open it. -/
def Anchor.latchLoop (a : Anchor) (c : Nat) (n : Nat) : Anchor := (a.setLoop n ((a.loop n).latch c)).openLoop n c

/-- May the loop be closed (R460)? -/
def Anchor.mayClose (a : Anchor) (n : Nat) : Bool :=
  a.st == 2 && (a.guardClosed || a.stopcat == 2) && (a.loop n).latched == 0 && !a.holdopen.getLsbD n && !(a.loop n).fault

/-- Must a loop that is not open be opened (R460)? Under STOP1 an opening guard leaves it (R468). -/
def Anchor.mustOpen (a : Anchor) (n : Nat) : Bool :=
  a.st != 2 || (!a.guardClosed && a.stopcat == 0) || (a.loop n).latched != 0 || a.holdopen.getLsbD n || (a.loop n).fault

/-- R460 on one loop: open it when a condition has stopped holding; begin to close it, low side first, when all hold. -/
def Anchor.settleLoop (a : Anchor) (n : Nat) : Anchor :=
  if (a.loop n).live then (if a.mustOpen n then a.openLoop n 0 else a)
  else if (a.loop n).phase = 0 ∧ a.mayClose n then a.setLoop n { a.loop n with lo := true, phase := 1 }
  else a

/-- R460 on every loop. -/
def Anchor.settle (a : Anchor) : Anchor := loops25.foldl Anchor.settleLoop a

/-! ### Stops (R468-R471) -/

/-- The loops of a mask. -/
def inMask (m : BitVec 25) : List Nat := loops25.filter m.getLsbD

/-- A mask from a list of loops. -/
def maskOf (l : List Nat) : BitVec 25 := BitVec.ofNat 25 (l.foldl (fun m n => setBit m n true) 0)

/-- A STOP0 on the loops of a mask: the cause latches and they open at once; it is in force on the loops that take the cause
(R468-R470). -/
def Anchor.stop0 (a : Anchor) (m : BitVec 25) (c : Nat) : Anchor :=
  let fresh := (inMask m).filter (fun n => !(a.loop n).latched.getLsbD c)
  let a := if fresh.isEmpty then a
    else { a with stop0s := a.stop0s ++ [(BitVec.ofNat 4 c, maskOf fresh)] }.post 0x22 0 (stopData 0 true c)
  (inMask m).foldl (fun a n => a.latchLoop c n) a

/-- A source of STOP1 (R470): it starts STOP1_T; while that counts its cause is latched at the expiry; after the expiry at once. -/
def Anchor.stop1From (a : Anchor) (c : Nat) : Anchor :=
  let bit := BitVec.ofNat 16 (2 ^ c)
  if a.stop1run then { a with stop1causes := a.stop1causes ||| bit }
  else if a.stop1 then loops25.foldl (fun a n => a.latchLoop c n) { a with stop1causes := a.stop1causes ||| bit }
  else ({ a with stop1 := true, stop1run := true, stop1causes := bit, stop1first := BitVec.ofNat 4 c }.post 0x22 0 (stopData 1 true c))

/-- STOP1_T expires: every loop takes the causes of the STOP1, the first of them first, and opens; a guard cycle then starts anew
(R468, R470, R471). -/
def Anchor.expire (a : Anchor) : Anchor :=
  let rest := (List.range 16).filter (fun c => a.stop1causes.getLsbD c && c != a.stop1first.toNat)
  let a := loops25.foldl (fun a n => a.latchLoop a.stop1first.toNat n) { a with stop1run := false }
  let a := rest.foldl (fun a c => loops25.foldl (fun a n => a.latchLoop c n) a) a
  if a.stop1causes.getLsbD cGUARD then { a with seenOpen := 0 } else a

/-- The loops on which a STOP0 is still in force. -/
def Anchor.stop0Left (a : Anchor) (r : BitVec 4 × BitVec 25) : BitVec 4 × BitVec 25 :=
  (r.1, maskOf ((inMask r.2).filter (fun n => (a.loop n).latched.getLsbD r.1.toNat)))

/-- Ends of stops after causes have been cleared (R470). -/
def Anchor.endStops (a : Anchor) : Anchor :=
  let left := a.stop0s.map a.stop0Left
  let a := (left.filter (fun r => r.2 == 0)).foldl (fun a r => a.post 0x22 0 (stopData 0 false r.1.toNat))
    { a with stop0s := left.filter (fun r => r.2 != 0) }
  if a.stop1 && !a.stop1run && loops25.all (fun n => (a.loop n).latched &&& a.stop1causes == 0) then
    { a with stop1 := false, stop1causes := 0 }.post 0x22 0 (stopData 1 false a.stop1first.toNat)
  else a

/-! ### The guard (R464-R467) -/

/-- The causes a guard cycle clears on a loop (R472). -/
def Anchor.cleared (a : Anchor) (n : Nat) : List Nat :=
  [cGUARD, cBALLAST, cSWREQ, cOVERLOAD] ++ (if a.actval then [cNOPILOT] else []) ++ (if a.bustrip then [] else [cBUSCMP])
    ++ (if a.lostlane.getLsbD n then [] else [cLOSTLANE])

/-- Clear causes on a loop. -/
def Loop.unlatch (l : Loop) (cs : List Nat) : Loop :=
  { l with latched := cs.foldl (fun m c => m &&& ~~~(BitVec.ofNat 16 (2 ^ c))) l.latched }

/-- The end of a guard cycle (R467, R472). -/
def Anchor.guardCycle (a : Anchor) : Anchor :=
  (loops25.foldl (fun (a : Anchor) n => a.setLoop n ((a.loop n).unlatch (a.cleared n))) { a with seenOpen := 0 }).endStops

/-- The end of the start-up test: RUN, and cause STARTUP clears (R466). -/
def Anchor.startupPassed (a : Anchor) : Anchor :=
  loops25.foldl (fun (a : Anchor) n => a.setLoop n ((a.loop n).unlatch [cSTARTUP])) { a with st := 2, seenOpen := 0 }

/-- Has every guard pair been seen open, and is it closed again? -/
def Anchor.cycled (a : Anchor) : Bool := a.guardClosed && a.pairs.all a.seenOpen.getLsbD

/-- The state of a pair from its channels and its discrepancy (R464). -/
def Anchor.pairNow (a : Anchor) (p : Nat) : Bool :=
  decide (p ∈ a.pairs) && a.ch.getLsbD (2 * p) && a.ch.getLsbD (2 * p + 1) && !a.disc.getLsbD p

/-- Are both channels of a pair open? -/
def Anchor.bothOpen (a : Anchor) (p : Nat) : Bool := !a.ch.getLsbD (2 * p) && !a.ch.getLsbD (2 * p + 1)

/-- A bit of a small vector set or cleared. -/
def putBit {w : Nat} (v : BitVec w) (i : Nat) (b : Bool) : BitVec w := BitVec.ofNat w (setBit v.toNat i b)

/-- A guard pair opens in RUN: the category of STOPCAT (R469, R470). -/
def Anchor.guardOpens (a : Anchor) (p : Nat) : Anchor :=
  let a := { a with seenOpen := putBit a.seenOpen p true }
  if a.stopcat = 1 then a.stop1From cGUARD
  else if a.stopcat = 2 then
    (if a.stop2 then a else { a with stop2 := true }.post 0x22 0 (stopData 2 true cGUARD))
  else a.stop0 allLoops cGUARD

/-- A guard pair closes in RUN: STOP2 ends with the last one (R470); a guard cycle may end (R467), unless a STOP1 of the guard still
counts (R471). -/
def Anchor.guardCloses (a : Anchor) : Anchor :=
  let a := if a.stop2 && a.guardClosed then { a with stop2 := false }.post 0x22 0 (stopData 2 false cGUARD) else a
  if a.cycled && !(a.stop1run && a.stop1causes.getLsbD cGUARD) then a.guardCycle else a

/-- The pair has taken a new state (R466, R469). -/
def Anchor.pairTo (a : Anchor) (p : Nat) (closed : Bool) : Anchor :=
  if a.pair.getLsbD p = closed then a
  else
    let a := { a with pair := putBit a.pair p closed }.post 0x20 p (if closed then 1 else 0)
    if a.st = 2 then (if closed then a.guardCloses else a.guardOpens p) else a

/-- A channel's filtered state changes (R464-R466). DISC clears when both channels of the pair have been seen open together. -/
def Anchor.channel (a : Anchor) (ch : Nat) (closed : Bool) : Anchor :=
  let p := ch / 2
  let a := { a with ch := putBit a.ch ch closed }
  let a := if a.bothOpen p then { a with disc := putBit a.disc p false } else a
  let a := if a.st = 1 ∧ a.bothOpen p then { a with seenOpen := putBit a.seenOpen p true } else a
  let a := a.pairTo p (a.pairNow p)
  (if a.st = 1 ∧ a.cycled then a.startupPassed else a).settle

/-! ### Pilots (R474-R479) -/

def Anchor.beat (a : Anchor) (p : Nat) : BeatSt := if p = 0 then a.beat0 else a.beat1
def Anchor.setBeat (a : Anchor) (p : Nat) (b : BeatSt) : Anchor := if p = 0 then { a with beat0 := b } else { a with beat1 := b }

/-- The pilot that holds the active role, as a number. -/
def Anchor.activeNo (a : Anchor) : Nat := if a.active then 1 else 0

/-- Is p the active pilot? -/
def Anchor.isActive (a : Anchor) (p : Nat) : Bool := a.assigned && a.activeNo == p

/-- A valid beat (R474): CHK, SEQ unless any is accepted, and ACT of the role, where the pilot holds one. -/
def Anchor.beatValid (a : Anchor) (p : Nat) (w : BitVec 16) : Bool :=
  let b := a.beat p
  (w >>> 8).setWidth 8 == ~~~(w.setWidth 8 : BitVec 8) && (b.fresh || w.setWidth 4 == b.seq + 1)
    && (!a.assigned || w.getLsbD 4 == a.isActive p)

/-- The pilot's beat as the anchor keeps it. -/
def BeatSt.took (b : BeatSt) (w : BitVec 16) : BeatSt :=
  { seq := w.setWidth 4, any := true, fresh := false, missed := 0, good := min 3 (b.good + 1)
    goodAct := if w.getLsbD 4 then min 3 (b.goodAct + 1) else 0, refuse := w.getLsbD 5 }

/-- The role count of a pilot starts over. -/
def BeatSt.again (b : BeatSt) : BeatSt := { b with good := 0, goodAct := 0 }

/-- The active role goes to the first pilot with three consecutive valid beats that claim it; the other is standby and absent (R479,
R531). -/
def Anchor.assign (a : Anchor) (p : Nat) : Anchor :=
  let a := { a with active := p == 1, assigned := true, nopilot := false, actval := true, stby := false, promoted := false }
  (a.setBeat (1 - p) (a.beat (1 - p)).again).post 0x26 0 (p + 2 * 256)

/-- A swap of roles asked for by the active pilot's beat (R479). -/
def Anchor.trySwap (a : Anchor) (p : Nat) (w : BitVec 16) : Anchor :=
  if w.getLsbD 6 ∧ a.stby ∧ !(a.beat (1 - p)).refuse then
    { a with active := p == 0, promCnt := a.promCnt + 1 }.post 0x26 0 (1 - p + 256)
  else a

/-- A valid beat. -/
def Anchor.goodBeat (a : Anchor) (p : Nat) (w : BitVec 16) : Anchor :=
  let a := a.setBeat p ((a.beat p).took w)
  if !a.assigned then (if (a.beat p).goodAct = 3 then a.assign p else a)
  else if a.isActive p then { a with promoted := false, actval := true }.trySwap p w
  else if !a.stby ∧ (a.beat p).good = 3 then { a with stby := true }.post 0x27 p 1
  else a

/-- An invalid beat is counted and is no beat (R474). -/
def Anchor.badBeat (a : Anchor) (p : Nat) (w : BitVec 16) : Anchor :=
  { a with badbeat := a.badbeat + 1 }.post 0x2C p (w.toNat % 256)

/-- Does the pilot hold a role in which missed beats count (R475)? -/
def Anchor.counts (a : Anchor) (p : Nat) : Bool := a.assigned && (a.activeNo == p || a.stby)

/-- An interval without a valid beat (R474, R475). -/
def Anchor.missBeat (a : Anchor) (p : Nat) : Anchor :=
  let b := a.beat p
  let m := min 3 (b.missed + 1)
  let counted := a.counts p
  let a := a.setBeat p { b with missed := m, good := 0, goodAct := 0, fresh := b.fresh || m == 3 }
  let a := if counted then { a with missedCnt := a.missedCnt + 1 } else a
  if counted ∧ m = 3 ∧ !a.isActive p then { a with stby := false }.post 0x27 p 0 else a

/-- The promotion fails: STOP1 with NOPILOT, and no pilot holds the active role (R478, R479). -/
def Anchor.noPilot (a : Anchor) : Anchor :=
  ({ a with nopilot := true, assigned := false, actval := false, promoted := false, stby := false
            beat0 := a.beat0.again, beat1 := a.beat1.again }).stop1From cNOPILOT

/-- Three missed beats of the active pilot (R476). -/
def Anchor.promote (a : Anchor) : Anchor :=
  let p := a.activeNo
  let o := 1 - p
  if a.stby ∧ !(a.beat o).refuse then
    ({ a with active := o == 1, stby := false, promoted := true, actval := false, promCnt := a.promCnt + 1 }.setBeat p
      (a.beat p).again).post 0x26 0 o
  else a.noPilot

/-! ### Resets and faults (R452, R453, R528) -/

/-- Every switch off (R452): the loops open without a latched cause. -/
def Anchor.allOff (a : Anchor) : Anchor := loops25.foldl (fun a n => a.openLoop n 0) a

/-- The anchor in reset (R453): every switch off, every latch at its reset value; the words that the shell keeps sending stand. -/
def Anchor.cleared0 (a : Anchor) : Anchor := { holdopen := a.holdopen, lostlane := a.lostlane, straps := a.straps, strapsN := a.strapsN }

/-- Is the anchor held in reset (R453, R523)? -/
def State.ancHeld (s : State) : Bool := !s.su.vfield || s.su.poreset || s.su.railFault

/-- An event of the anchor: nothing happens while it is held in reset, nor where its condition does not hold. -/
def State.ancEvent (s : State) (cond : Bool) (f : Anchor → Anchor) : State := if !s.ancHeld && cond then s.updAnchor f else s

/-- Has the self-test passed, so that the anchor supervises: WAITGUARD, RUN or FAULT? -/
def Anchor.up (a : Anchor) : Bool := a.st != 0

/-- ANCHOR_RESET: VFIELD has been below 16.0 V for 1 ms (R453); PORESET_N resets the anchor in its own row. -/
def execAnchorReset (s : State) : Out :=
  .next { s with anchor := s.anchor.cleared0, su := { s.su with vfield := false } }

/-- VFIELD_RETURN: the anchor leaves reset and starts its self-test (R453, R528). -/
def execVfieldReturn (s : State) : Out := .next { s with su := { s.su with vfield := true } }

/-- ANCHOR_SELF_TEST_END: the straps latch and WAITGUARD begins, or internal fault 0x4 (R528, R455, R466). -/
def execAnchorSelfTestEnd (pass : Bool) (straps : BitVec 8) (s : State) : Out :=
  .next (s.ancEvent (s.anchor.st == 0) (fun a =>
    if pass then
      let a := { a with st := 1, strapLatched := straps, straps := straps, strapsN := ~~~straps }
      { a with pair := BitVec.ofNat 2 (a.pairs.foldl (fun m p => setBit m p (a.pairNow p)) 0)
               seenOpen := BitVec.ofNat 2 (a.pairs.foldl (fun m p => setBit m p (a.bothOpen p)) 0) }
    else { a with st := 3, fcode := 4 }.post 0x2A 0 4))

/-- ANCHOR_INTERNAL_FAULT (R452). -/
def execAnchorInternalFault (code : BitVec 3) (s : State) : Out :=
  .next (s.ancEvent (s.anchor.st != 3 && code != 0 && code.toNat ≤ 4) (fun a => ({ a with st := 3, fcode := code }.allOff).post 0x2A 0 code.toNat))

/-- STRAP_FAULT (R456): latched until an anchor reset. -/
def execStrapFault (live liven : BitVec 8) (s : State) : Out :=
  .next (s.ancEvent (s.anchor.up && (live != ~~~liven || live != s.anchor.strapLatched)) (fun a =>
    let a := { a with straps := live, strapsN := liven }
    if a.strapErr then a
    else ({ a with strapErr := true }.stop0 allLoops cSTRAP).post 0x28 0 (live.toNat + 256 * liven.toNat)))

/-! ### The guard's rows -/

/-- GUARD_CHANNEL_CHANGE (R464). -/
def execGuardChannelChange (ch : Fin 4) (closed : Bool) (s : State) : Out :=
  .next (s.ancEvent (s.anchor.ch.getLsbD ch.val != closed) (fun a => a.channel ch.val closed))

/-- GUARD_DISCREPANCY (R465). -/
def execGuardDiscrepancy (pair : Fin 2) (s : State) : Out :=
  .next (s.ancEvent (decide (pair.val ∈ s.anchor.pairs) && !s.anchor.disc.getLsbD pair.val
      && s.anchor.ch.getLsbD (2 * pair.val) != s.anchor.ch.getLsbD (2 * pair.val + 1)) (fun a =>
    ({ a with disc := putBit a.disc pair.val true, discCnt := a.discCnt + 1 }.post 0x21 pair.val 0)))

/-- STOP1_EXPIRY (R468, R470, R471). -/
def execStop1Expiry (s : State) : Out := .next (s.ancEvent s.anchor.stop1run Anchor.expire)

/-! ### Loops -/

/-- LOOP_HIGH_SIDE_ON (R460). -/
def execLoopHighSideOn (n : Fin 25) (s : State) : Out :=
  .next (s.ancEvent ((s.anchor.loop n.val).phase == 1) (fun a => a.setLoop n.val { a.loop n.val with hi := true }))

/-- LOOP_CLOSED (R460). -/
def execLoopClosed (n : Fin 25) (s : State) : Out :=
  .next (s.ancEvent ((s.anchor.loop n.val).phase == 1 && (s.anchor.loop n.val).hi) (fun a =>
    (a.setLoop n.val { a.loop n.val with phase := 2, cause := 0, ovl := false }).post 0x24 n.val 0))

/-- LOOP_CLOSE_TIMEOUT (R460). -/
def execLoopCloseTimeout (n : Fin 25) (s : State) : Out :=
  .next (s.ancEvent ((s.anchor.loop n.val).phase == 1) (fun a => a.latchLoop cOVERLOAD n.val))

/-- LOOP_DISCHARGE_END (R458). -/
def execLoopDischargeEnd (n : Fin 25) (s : State) : Out :=
  .next (s.ancEvent ((s.anchor.loop n.val).dis && (s.anchor.loop n.val).testing == 0) (fun a =>
    a.setLoop n.val { a.loop n.val with dis := false }))

/-- LOOP_OVERLOAD (R459). -/
def execLoopOverload (n : Fin 25) (s : State) : Out :=
  .next (s.ancEvent (s.anchor.loop n.val).live (fun a =>
    (a.setLoop n.val { a.loop n.val with ovl := true }).latchLoop cOVERLOAD n.val))

/-- TEST_PULSE_START (R462). -/
def execTestPulseStart (n : Fin 25) (lowSide : Bool) (s : State) : Out :=
  .next (s.ancEvent (s.anchor.tpi && (s.anchor.loop n.val).phase == 2) (fun a =>
    a.setLoop n.val (if lowSide then { a.loop n.val with lo := false, phase := 4, testing := 2 }
      else { a.loop n.val with hi := false, dis := true, phase := 3, testing := 1 })))

/-- Is the tested switch of the loop off: steps 1 to 3 of R462? -/
def Loop.pulsed (l : Loop) : Bool := l.testing != 0 && !(l.hi && l.lo)

/-- TEST_PULSE_CHECK_OFF: step 2 (R463). -/
def execTestPulseCheckOff (n : Fin 25) (above5 : Bool) (s : State) : Out :=
  .next (s.ancEvent ((s.anchor.loop n.val).pulsed && above5) (fun a =>
    let l := a.loop n.val
    let low := l.testing == 2
    (((a.setLoop n.val { l with fault := true, tfh := l.tfh || !low, tfl := l.tfl || low }).openLoop n.val 0).post 0x25 n.val
      ((if low then 1 else 0) + 2 * 256))))

/-- TEST_PULSE_RESTORE: step 3 (R462). -/
def execTestPulseRestore (n : Fin 25) (s : State) : Out :=
  .next (s.ancEvent (s.anchor.loop n.val).pulsed (fun a =>
    a.setLoop n.val { a.loop n.val with hi := true, lo := true, dis := false }))

/-- TEST_PULSE_CHECK_ON: step 4 (R462, R463). -/
def execTestPulseCheckOn (n : Fin 25) (below15 : Bool) (s : State) : Out :=
  .next (s.ancEvent ((s.anchor.loop n.val).testing != 0 && !(s.anchor.loop n.val).pulsed) (fun a =>
    let l := a.loop n.val
    if below15 then (a.latchLoop cOVERLOAD n.val).post 0x25 n.val ((if l.testing == 2 then 1 else 0) + 4 * 256)
    else a.setLoop n.val { l with phase := 2, testing := 0 }))

/-! ### Pilots' rows -/

/-- PILOT_BEAT (R474-R479, R531). -/
def execPilotBeat (p : Fin 2) (word : BitVec 16) (s : State) : Out :=
  .next (s.ancEvent true (fun a => if a.beatValid p.val word then a.goodBeat p.val word else a.badBeat p.val word))

/-- MISSED_BEAT (R475). -/
def execMissedBeat (p : Fin 2) (s : State) : Out := .next (s.ancEvent true (fun a => a.missBeat p.val))

/-- PROMOTION (R476-R478). The shell fences the former active pilot and handles its commit at the status word that announces the roles
(R477). -/
def execPromotion (s : State) : Out :=
  .next (s.ancEvent (s.anchor.assigned && (s.anchor.beat s.anchor.activeNo).missed == 3) Anchor.promote)

/-- PROMOTION_FAIL (R478). -/
def execPromotionFail (s : State) : Out := .next (s.ancEvent s.anchor.promoted Anchor.noPilot)

/-! ### The words of the shell -/

/-- Has the LOSTLANE bit stood for 20 ms, within the 5 % of the anchor's time (R455, R480)? -/
def State.lostStood (s : State) (n : Nat) : Bool :=
  reached s.now (tget 0 s.ancView.lostSince n + BitVec.ofNat 64 (19000 * usUnits))

/-- LOSTLANE_OPEN (R480): 20 ms, or at once while no active pilot beats. -/
def execLostlaneOpen (n : Fin 25) (s : State) : Out :=
  .next (s.ancEvent (s.anchor.lostlane.getLsbD n.val && (!s.anchor.actval || s.lostStood n.val)) (fun a =>
    a.stop0 (maskOf [n.val]) cLOSTLANE))

/-- What a word on STOPREQ does at the anchor (R469, R320). -/
def Anchor.stopreq (a : Anchor) : StopReqSrc → Anchor
  | .req0 m => a.stop0 m cSWREQ
  | .bus m => if a.balrip then { a.stop0 m cBALLAST with reqAns := some true } else { a with reqAns := some false }
  | .req1 => a.stop1From cSWREQ

/-- ANCHOR_STOPREQ_RECEIVE: the anchor takes a word that the shell has sent (R454). -/
def execAnchorStopreqReceive (src : StopReqSrc) (s : State) : Out :=
  .next (if !s.ancHeld ∧ src ∈ s.ancView.sent then
    { s with anchor := s.anchor.stopreq src, ancView := { s.ancView with sent := s.ancView.sent.erase src } }
  else s)

/-- ANCHOR_HOLDOPEN_RECEIVE (R461): the word that stands on the channel is that of the register (R21, R454). -/
def execAnchorHoldopenReceive (mask : BitVec 25) (s : State) : Out :=
  .next (s.ancEvent (mask == (s.rget rANC_HOLDOPEN).setWidth 25) (fun a => ({ a with holdopen := mask }).settle))

/-- ANCHOR_ALIVE_ADVANCE (R454). -/
def execAnchorAliveAdvance (s : State) : Out := .next (s.ancEvent true (fun a => { a with alive := a.alive + 1 }))

/-- BUS_COMPARATOR_TRIP (R324): bit 0 AIN0, bit 1 AIN1. -/
def execBusComparatorTrip (inputs : BitVec 2) (s : State) : Out :=
  .next (s.ancEvent (inputs != 0) (fun a =>
    ({ a with bustrip := true }.stop0 (maskOf [24]) cBUSCMP).post 0x29 0 inputs.toNat))

/-- BUS_COMPARATOR_RELEASE (R324, R472). -/
def execBusComparatorRelease (s : State) : Out := .next (s.ancEvent true (fun a => { a with bustrip := false }))

/-! ### The shell's writes -/

/-- Do two words on STOPREQ carry the same part (R454)? -/
def stopPart : StopReqSrc → StopReqSrc → Bool
  | .req0 _, .req0 _ | .bus _, .bus _ | .req1, .req1 => true
  | _, _ => false

/-- The loops that a waiting word of the bus-energy manager names (R320). -/
def busPart : StopReqSrc → BitVec 25
  | .bus m => m
  | _ => 0

/-- The shell sends a word on STOPREQ.  The channel holds one word for each of its parts, of which the latest stands (R21, R454); the
manager's word names every loop that it still asks for. -/
def State.sendStopreq (s : State) (src : StopReqSrc) : State :=
  let out := s.ancView.sent
  let src := match src with
    | .bus m => .bus (out.foldl (fun m w => m ||| busPart w) m)
    | x => x
  { s with ancView := { s.ancView with sent := out.filter (fun w => !stopPart w src) ++ [src] } }

/-- The effect of a write of ANC_REQ0 (R469). -/
def req0Eff (v _old : Word) (s : State) : State := if v.setWidth 25 = (0 : BitVec 25) then s else s.sendStopreq (.req0 (v.setWidth 25))

/-- The effect of a write of ANC_REQ1 (R469). -/
def req1Eff (v _old : Word) (s : State) : State := if v.getLsbD 0 then s.sendStopreq .req1 else s

/-- STOP0_REQUEST (R469, R481). -/
def execStop0Request (via : RegPath) (v : Word) (s : State) : Out := .next (s.portWrite via rANC_REQ0 v (req0Eff v))

/-- STOP1_REQUEST (R469, R481). -/
def execStop1Request (via : RegPath) (v : Word) (s : State) : Out := .next (s.portWrite via rANC_REQ1 v (req1Eff v))

/-- ANC_HOLDOPEN: the register's word goes to the anchor, which takes it in ANCHOR_HOLDOPEN_RECEIVE (R461, R481). -/
def execAncHoldopen (via : RegPath) (v : Word) (s : State) : Out := .next (s.portWrite via rANC_HOLDOPEN v (fun _ s => s))

/-- The trip record of a loop (R483). -/
def mboAncTrip (index : BitVec 14) (s : State) : MbxRes :=
  let n := index.toNat
  if 25 ≤ n then mbxRes s mbxRANGE
  else
    let l := rANC_LOOP n
    ⟨s, mbxOK, [BitVec.ofNat 32 (tget 0 s.ancView.openCause n + 16 * s.fget l fANC_LOOP_STATE)]
      ++ words64 (tget 0 s.ancView.openAt n) ++ words64 (tget 0 s.ancView.closeAt n)
      ++ [BitVec.ofNat 32 (s.fget l fANC_LOOP_OPENS), (tget 0x800 s.ancView.lat n).setWidth 32]⟩

/-- ANC_TRIP (R483). -/
def execAncTrip (set : Fin 4) (via : RegPath) (index : BitVec 14) (s : State) : Out := .next (s.mbx set via 0x060 0 index [] (mboAncTrip index))

end Sys2Proof.Machine
end

