-- ==== Sys2Proof/Machine/FieldTime.lean ====
section
/-! DEFINITION. Field time (R32-R48): the increment, the step, the stamp queues, PPS_OUT and the time comparators. -/
namespace Sys2Proof.Machine

/-- The increment in force in units of 2^-32 (R35, R36). -/
def State.increment (s : State) : Nat := s.time.incI.toNat * 2 ^ 32 + s.time.incF.toNat

/-- The accumulator: field time above the fraction (R35). -/
def State.accum (s : State) : Nat := s.time.ft.toNat * 2 ^ 32 + s.time.frac.toNat

/-- Does the core clock run: the PLL locked, the core domain neither halted nor in reset (R34, R248, R523-R525)? -/
def State.coreClock (s : State) : Bool := s.time.locked && !s.time.halted && !s.su.poreset && !s.su.sysreset && !s.su.railFault

/-- CORE_PLL_LOCK (R34): counting starts from 0. -/
def execCorePllLock (s : State) : Out :=
  if s.time.locked then .next s
  else .next { s with time := { s.time with locked := true, ft := 0, frac := 0, prev := 0 } }

/-! ### Mailbox objects (R39) -/

/-- FT_NOW. -/
def mboFtNow (s : State) : MbxRes :=
  ⟨s, mbxOK, words64 s.now ++ [s.time.frac, s.time.incI.setWidth 32, s.time.incF]⟩

/-- Does the committed tick plan hold any axis (R38)? -/
def State.planHolds (s : State) : Bool := (List.range 256).any (fun n => s.wflag (rAXC_CFG n) fAXC_CFG_INPLAN)

/-- A forward step passes a target (R39): the time before it, the time after it, the target. -/
def passed (a b tgt : FTime) : Bool := decide (0 < tdiff b a) && !reached a tgt && reached b tgt

/-- FT_STEP (R37, R38): the offset is added at the end of the accepting core cycle (R36). -/
def mboFtStep (offset : BitVec 64) (s : State) : MbxRes :=
  if s.planHolds then mbxRes s mbxREFUSED
  else mbxRes ((s.updTime (fun u => { u with stepPend := u.stepPend + offset })).fset rFTM_STAT fFTM_STAT_STEP_CNT
    (s.fget rFTM_STAT fFTM_STAT_STEP_CNT + 1)) mbxOK

/-- The CNT field of a time-stamp input. -/
def tsiCnt (k : Nat) : Bits := ⟨16 + 3 * k, 3⟩

/-- FT_TSI (R43). -/
def mboFtTsi (index : BitVec 14) (s : State) : MbxRes :=
  let k := index.toNat
  if 4 ≤ k then mbxRes s mbxRANGE
  else match tget [] s.time.tsi k with
    | [] => ⟨s, mbxOK, [BitVec.ofNat 32 k, 0, 0]⟩
    | (rising, t) :: rest =>
      ⟨(s.updTime (fun u => { u with tsi := tset [] u.tsi k rest })).fset rFTM_TSI_STAT (tsiCnt k) rest.length, mbxOK,
        BitVec.ofNat 32 (k + (if rising then 0x100 else 0) + 0x80000000) :: words64 t⟩

/-- The CNT field of a transmit time-stamp queue. -/
def txtsCnt (p : Nat) : Bits := ⟨8 + 4 * p, 4⟩

/-- Pop the oldest transmit stamp of a port (R42). -/
def State.txtsPop (s : State) (p : Nat) : State × Option (BitVec 16 × FTime) :=
  match tget [] s.time.txts p with
  | [] => (s, none)
  | e :: rest =>
    ((s.updTime (fun u => { u with txts := tset [] u.txts p rest })).fset rFTM_TXTS_STAT (txtsCnt p) rest.length, some e)

/-- Queue a transmit stamp (R42): with 8 entries queued it is lost and counted. -/
def State.txtsPush (s : State) (p : Nat) (frame : BitVec 16) (t : FTime) : State :=
  let q := tget [] s.time.txts p
  if 8 ≤ q.length then
    let lost : Bits := ⟨16 + 8 * p, 8⟩
    (s.fset rFTM_TXTS_STAT ⟨p, 1⟩ 1).fset rFTM_TXTS_STAT lost (min 255 (s.fget rFTM_TXTS_STAT lost + 1))
  else
    (s.updTime (fun u => { u with txts := tset [] u.txts p (q ++ [(frame, t)]) })).fset rFTM_TXTS_STAT (txtsCnt p) (q.length + 1)

/-- FT_TXTS (R42). -/
def mboFtTxts (index : BitVec 14) (s : State) : MbxRes :=
  if 2 ≤ index.toNat then mbxRes s mbxRANGE
  else match s.txtsPop index.toNat with
    | (s, none) => ⟨s, mbxOK, [0, 0, 0]⟩
    | (s, some (f, t)) => ⟨s, mbxOK, BitVec.ofNat 32 (f.toNat + 0x80000000) :: words64 t⟩

/-- FT_TC (R45): the period must be 0, or lie between 4,000 units and 2^48; target and period take effect from the next core cycle. -/
def mboFtTc (index : BitVec 14) (target period : BitVec 64) (s : State) : MbxRes :=
  if 8 ≤ index.toNat then mbxRes s mbxRANGE
  else if period ≠ 0 ∧ ¬(4000 ≤ period.toNat ∧ period.toNat ≤ 2 ^ 48) then mbxRes s mbxRANGE
  else mbxRes (s.updTime (fun u => u.setComp index.toNat { u.comp index.toNat with next := some (target, period) })) mbxOK

def execFtNow (set : Fin 4) (via : RegPath) (s : State) : Out := .next (s.mbx set via 0x001 0 0 [] mboFtNow)
def execFtStep (set : Fin 4) (via : RegPath) (offset : BitVec 64) (s : State) : Out :=
  .next (s.mbx set via 0x002 1 0 (words64 offset) (mboFtStep offset))
def execFtTsi (set : Fin 4) (via : RegPath) (index : BitVec 14) (s : State) : Out :=
  .next (s.mbx set via 0x003 2 index [] (mboFtTsi index))
def execFtTxts (set : Fin 4) (via : RegPath) (index : BitVec 14) (s : State) : Out :=
  .next (s.mbx set via 0x004 2 index [] (mboFtTxts index))
def execFtTc (set : Fin 4) (via : RegPath) (index : BitVec 14) (target period : BitVec 64) (s : State) : Out :=
  .next (s.mbx set via 0x005 1 index (words64 target ++ words64 period) (mboFtTc index target period))

/-! ### Comparators (R45) -/

/-- The effect of a write of FTM_TCn_CTL: a comparator that EN arms notes whether its target has already been reached; it then fires in the
next core cycle. -/
def tcCtlWritten (n : Nat) (old : Word) (s : State) : State :=
  let was := bget old fFTM_TC_CTL_EN != 0
  let is_ := s.flag (rFTM_TC_CTL n) fFTM_TC_CTL_EN
  if was = is_ then s
  else
    let late := is_ && reached s.now (s.time.comp n).target
    s.updTime (fun u => u.setComp n { u.comp n with lateArm := late, wait := late, stepped := false })

/-- TC_ARM. -/
def execTcArm (via : RegPath) (n : Fin 8) (v : Word) (s : State) : Out :=
  .next (s.portWrite via (rFTM_TC_CTL n) v (tcCtlWritten n))

/-- Whole periods from a target until it lies after a time (R45). -/
def periodsPast (target : FTime) (period : Nat) (now : FTime) : Nat := (now - target).toNat / period + 1

/-- After a firing: EN clears in one-shot mode; else the target advances and the periods skipped beyond the first are counted. -/
def State.tcAdvance (s : State) (n : Nat) : State :=
  let c := s.time.comp n
  if c.period = 0 then
    (s.fset (rFTM_TC_CTL n) fFTM_TC_CTL_EN 0).updTime (fun u => u.setComp n { c with lateArm := false, stepped := false })
  else
    let k := periodsPast c.target c.period.toNat s.now
    (s.fset (rFTM_TC_STAT n) fFTM_TC_STAT_SKIP (min 0xFFFF (s.fget (rFTM_TC_STAT n) fFTM_TC_STAT_SKIP + (k - 1)))).updTime
      (fun u => u.setComp n { c with target := c.target + BitVec.ofNat 64 (k * c.period.toNat), lateArm := false, stepped := false })

/-- The pulse action (R45, R44): the output rises for 1 ms. -/
def State.tcPulse (s : State) (n : Nat) : State :=
  if s.flag (rFTM_TC_CTL n) fFTM_TC_CTL_ACT_PLS then
    s.updTime (fun u =>
      u.setComp n { u.comp n with out := true, outEnd := s.now + BitVec.ofNat 64 (1000 * usUnits) })
  else s

/-- The TIMECMP event (R45, R388). -/
def State.tcPost (s : State) (n : Nat) (target : FTime) : State :=
  if s.flag (rFTM_TC_CTL n) fFTM_TC_CTL_ACT_EVT then
    s.produce (some (s.fget (rFTM_TC_CTL n) fFTM_TC_CTL_CQ))
      (eventEntry 0x13 n ((s.rget (rFTM_TC_STAT n)).toNat % 8 + s.now.toNat <<< 32) target)
  else s

/-- Is comparator `n` due (R45)? -/
def State.tcDue (s : State) (n : Nat) : Bool :=
  s.flag (rFTM_TC_CTL n) fFTM_TC_CTL_EN && !(s.time.comp n).wait && reached s.now (s.time.comp n).target

/-- TC_PULSE_END (R45): the 1 ms output ends. -/
def execTcPulseEnd (n : Fin 8) (s : State) : Out :=
  let c := s.time.comp n
  if c.out ∧ reached s.now c.outEnd then
    .next (s.updTime (fun u => u.setComp n { u.comp n with out := false }))
  else .next s

/-! ### PPS_OUT and the time-stamp inputs (R43, R44) -/

/-- One second in field-time units. -/
def secUnits : Nat := 16000000000

/-- The phase of PPS_OUT in units; larger values are taken as 999,999,999 ns. -/
def State.ppsPhase (s : State) : Nat := min 999999999 (s.fget rFTM_PPS_CTL fFTM_PPS_CTL_PHASE) * 16

/-- Units since the last second boundary of PPS_OUT. -/
def State.ppsSince (s : State) : Int := ((s.now.toNat : Int) - s.ppsPhase) % secUnits

/-- The high time of PPS_OUT in ms (R48). -/
def ppsWidth : Nat → Nat
  | 0 => 1
  | 1 => 10
  | 2 => 100
  | _ => 500

/-- Has the present core cycle been the first to reach a second boundary (R44)? -/
def State.ppsDue (s : State) : Bool :=
  s.flag rFTM_CTL fFTM_CTL_PPS_EN && !s.flag rFTM_CTL fFTM_CTL_PPS_SRC && decide (s.ppsSince < tdiff s.now s.time.prev)

/-- The level of PPS_OUT (R44): low while PPS_EN is 0; comparator 0 drives it when PPS_SRC is 1, else the generator does. -/
def State.ppsOut (s : State) : Bool :=
  s.flag rFTM_CTL fFTM_CTL_PPS_EN && (if s.flag rFTM_CTL fFTM_CTL_PPS_SRC then (s.time.comp 0).out else s.time.ppsGen)

/-- The effect of a write of FTM_CTL: a pulse of the generator ends when the generator no longer drives PPS_OUT (log entry 112). -/
def ftmCtlWritten (s : State) : State :=
  if s.flag rFTM_CTL fFTM_CTL_PPS_EN ∧ !s.flag rFTM_CTL fFTM_CTL_PPS_SRC then s else s.updTime (fun u => { u with ppsGen := false })

/-- PPS_OUT_RISE (R44). -/
def execPpsOutRise (s : State) : Out :=
  if s.ppsDue then
    .next (s.updTime (fun u => { u with
      ppsGen := true
      ppsEnd := s.now + BitVec.ofNat 64 (ppsWidth (s.fget rFTM_PPS_CTL fFTM_PPS_CTL_WIDTH) * 1000 * usUnits) }))
  else .next s

/-- PPS_OUT_FALL (R44): the generator's level falls after WIDTH. -/
def execPpsOutFall (s : State) : Out :=
  if s.time.ppsGen ∧ reached s.now s.time.ppsEnd then
    .next (s.updTime (fun u => { u with ppsGen := false }))
  else .next s

/-- The field time that three core cycles take at the increment in force, brought down to a whole unit (R21, R43; log entry 113). -/
def State.threeCycles (s : State) : BitVec 64 := BitVec.ofNat 64 (3 * s.increment / 2 ^ 32)

end Sys2Proof.Machine
end

