-- ==== Sys2Proof/Machine/Operands.lean ====
section
/-! DEFINITION. Operand forms: the fields of tick frames and records (R60-R63), of identity blocks and channel descriptors (R93,
R95), the configuration of an axis, and the tick arithmetic (R100, R163). -/
namespace Sys2Proof.Machine

/-- Bits `lo + w - 1 : lo` of a bit vector. -/
def fieldOf {n : Nat} (x : BitVec n) (lo w : Nat) : Nat := (x.toNat >>> lo) % 2 ^ w
/-- Bit `i` of a bit vector. -/
def bitAt {n : Nat} (x : BitVec n) (i : Nat) : Bool := x.toNat.testBit i
/-- A Nat field read as a signed number of `w` bits. -/
def asSigned (w x : Nat) : Int := (BitVec.ofNat w x).toInt

/-! ### TICK_UP (R60, R61) -/

def upAPPLY_T (f : BitVec 80) : Nat := fieldOf f 0 40
def upVBUS (f : BitVec 80) : Nat := fieldOf f 40 16
def upTEMP (f : BitVec 80) : Nat := fieldOf f 56 8
def upLOCK (f : BitVec 80) : Bool := bitAt f 64
def upFORCED (f : BitVec 80) : Bool := bitAt f 65
def upSILENT (f : BitVec 80) : Bool := bitAt f 66
def upMISSED (f : BitVec 80) : Bool := bitAt f 67
def upTHRU_UP (f : BitVec 80) : Bool := bitAt f 68
def upBRANCH_UP (f : BitVec 80) : Bool := bitAt f 69
def upRIPIN (f : BitVec 80) : Bool := bitAt f 70
def upEVLATE (f : BitVec 80) : Bool := bitAt f 71
def upCRET (f : BitVec 80) : Nat := fieldOf f 72 4

def recCH (r : BitVec 128) : Nat := fieldOf r 0 4
def recKIND (r : BitVec 128) : Nat := fieldOf r 4 4
def recS1OK (r : BitVec 128) : Bool := bitAt r 8
def recS2OK (r : BitVec 128) : Bool := bitAt r 9
def recILL (r : BitVec 128) : Bool := bitAt r 10
def recIDX (r : BitVec 128) : Bool := bitAt r 11
def recFORCED (r : BitVec 128) : Bool := bitAt r 12
def recIA (r : BitVec 128) : Q23 := BitVec.ofNat 24 (fieldOf r 16 24)
def recIB (r : BitVec 128) : Q23 := BitVec.ofNat 24 (fieldOf r 40 24)
def recCNT (r : BitVec 128) : Word := BitVec.ofNat 32 (fieldOf r 64 32)
def recEDGE_DT (r : BitVec 128) : Nat := fieldOf r 96 16
def recAUX (r : BitVec 128) : Nat := fieldOf r 112 16

/-! ### TICK_DN (R60, R62) -/

def dnCC_T (f : BitVec 80) : FTime := BitVec.ofNat 64 (fieldOf f 0 64)
def dnCGRANT (f : BitVec 80) : Nat := fieldOf f 64 4

/-- Record kinds (R62). -/
def kVECTOR : Nat := 0
def kPWM : Nat := 1
def kSPWM : Nat := 2
def kOFF : Nat := 3
def kSHORT : Nat := 4

def vecV0 (r : BitVec 128) : Nat := fieldOf r 8 8
def vecV1 (r : BitVec 128) : Nat := fieldOf r 16 8
def vecV2 (r : BitVec 128) : Nat := fieldOf r 24 8
def vecNCH (r : BitVec 128) : Nat := fieldOf r 32 2
def vecNSMP (r : BitVec 128) : Nat := fieldOf r 34 2
def vecT1 (r : BitVec 128) : Nat := fieldOf r 40 24
def vecT2 (r : BitVec 128) : Nat := fieldOf r 64 24
def vecS1 (r : BitVec 128) : Nat := fieldOf r 88 20
def vecS2 (r : BitVec 128) : Nat := fieldOf r 108 20

def pwmCARRIER (r : BitVec 128) : Nat := fieldOf r 8 2
def pwmUPD (r : BitVec 128) : Bool := bitAt r 10
def pwmCARRY (r : BitVec 128) : Bool := bitAt r 11
def pwmPERIOD (r : BitVec 128) : Nat := fieldOf r 16 32
def pwmD (r : BitVec 128) (k : Nat) : Nat := fieldOf r (48 + 20 * k) 20

def spwmPERIOD (r : BitVec 128) : Nat := fieldOf r 8 24
def spwmON (r : BitVec 128) (k : Nat) : Nat := fieldOf r (32 + 32 * k) 16
def spwmSHIFT (r : BitVec 128) (k : Nat) : Int := asSigned 16 (fieldOf r (48 + 32 * k) 16)

/-- An OFF record of a channel (R62). -/
def offRec (ch : Nat) : BitVec 128 := BitVec.ofNat 128 (ch % 16 + kOFF * 16)
/-- A SHORT record of a channel (R62). -/
def shortRec (ch : Nat) : BitVec 128 := BitVec.ofNat 128 (ch % 16 + kSHORT * 16)

/-- A VECTOR record (R62). -/
def vectorRec (ch v0 v1 v2 nch nsmp t1 t2 s1 s2 : Nat) : BitVec 128 :=
  BitVec.ofNat 128 (ch % 16 + (v0 % 256) <<< 8 + (v1 % 256) <<< 16 + (v2 % 256) <<< 24 + (nch % 4) <<< 32 + (nsmp % 4) <<< 34
    + (t1 % 2 ^ 24) <<< 40 + (t2 % 2 ^ 24) <<< 64 + (s1 % 2 ^ 20) <<< 88 + (s2 % 2 ^ 20) <<< 108)

/-- A PWM record (R62). -/
def pwmRec (ch carrier : Nat) (upd carry : Bool) (period d0 d1 d2 d3 : Nat) : BitVec 128 :=
  BitVec.ofNat 128 (ch % 16 + kPWM * 16 + (carrier % 4) <<< 8 + (if upd then 1 else 0) <<< 10 + (if carry then 1 else 0) <<< 11
    + (period % 2 ^ 32) <<< 16 + (d0 % 2 ^ 20) <<< 48 + (d1 % 2 ^ 20) <<< 68 + (d2 % 2 ^ 20) <<< 88 + (d3 % 2 ^ 20) <<< 108)

/-- An SPWM record (R62). -/
def spwmRec (ch period on0 sh0 on1 sh1 on2 sh2 : Nat) : BitVec 128 :=
  BitVec.ofNat 128 (ch % 16 + kSPWM * 16 + (period % 2 ^ 24) <<< 8 + (on0 % 2 ^ 16) <<< 32 + (sh0 % 2 ^ 16) <<< 48
    + (on1 % 2 ^ 16) <<< 64 + (sh1 % 2 ^ 16) <<< 80 + (on2 % 2 ^ 16) <<< 96 + (sh2 % 2 ^ 16) <<< 112)

/-! ### Identity blocks and channel descriptors (R93, R95) -/

/-- `n` bytes of a block from byte `i`, little-endian. -/
def identF (b : List Byte) (i n : Nat) : Nat := leNat ((b.drop i).take n)
def idPORTS (b : List Byte) : Nat := identF b 11 1
def idNCH (b : List Byte) : Nat := identF b 12 1
def idNLEG (b : List Byte) : Nat := identF b 13 1
def idNEVO (b : List Byte) : Nat := identF b 14 1
def idCRED (b : List Byte) : Nat := identF b 15 1 % 16
def idTQUANT (b : List Byte) : Nat := identF b 16 2
def idTFWD (b : List Byte) : Nat := identF b 18 2
def idTSR (b : List Byte) : Nat := identF b 20 2
def idTAP (b : List Byte) : Nat := identF b 22 2
def idTSET (b : List Byte) : Nat := identF b 24 2
def idTSPC (b : List Byte) : Nat := identF b 26 2
def idTDEAD (b : List Byte) : Nat := identF b 28 2
def idTMINP (b : List Byte) : Nat := identF b 30 2
def idSMAX (b : List Byte) : Nat := identF b 32 4
def idTRIPF (b : List Byte) : Nat := identF b 36 2
def idVBUSFS (b : List Byte) : Nat := identF b 38 2
def idEVQ (b : List Byte) : Nat := identF b 40 2
def idFCLK (b : List Byte) : Nat := identF b 42 2

def descTYPE (d : BitVec 128) : Nat := fieldOf d 0 8
def descLEGS (d : BitVec 128) : Nat := fieldOf d 8 3
def descSENSE (d : BitVec 128) : Nat := fieldOf d 16 8
def descFB (d : BitVec 128) : Nat := fieldOf d 24 8
def descIFS (d : BitVec 128) : Nat := fieldOf d 32 32


/-- The header of a frame (R57). -/
def frameHeader (f : Frame) : List Byte :=
  [BitVec.ofNat 8 (f.typ.toNat + f.route.toNat <<< 4 + 1 <<< 6), BitVec.ofNat 8 f.addr.toNat] ++ leBytes 2 f.body.length ++ [f.seq, f.tag]

/-- The CRC of a frame, over its header and body (R58). -/
def frameCrc (f : Frame) : Word := crc32 (frameHeader f ++ f.body)

/-- The bytes of a frame between SOF and EOF, its CRC least significant byte first (R56-R58). -/
def frameWire (f : Frame) : List Byte := frameHeader f ++ f.body ++ leBytes 4 (frameCrc f).toNat

/-- A frame from its parts. -/
def mkFrame (typ route addr : Nat) (seq tag : BitVec 8) (body : List Byte) : Frame :=
  { typ := BitVec.ofNat 4 typ, route := BitVec.ofNat 2 route, addr := BitVec.ofNat 6 addr, seq := seq, tag := tag, body := body }

/-- Is an identity block good (R94): its check, its contract version, and every field in the range of R93? -/
def identGood (b : List Byte) : Bool :=
  b.length == 64 && decide (identF b 60 4 = (crc32 (b.take 60)).toNat) && identF b 10 1 == 1 && identF b 0 2 != 0
    && decide (1 ≤ idNCH b ∧ idNCH b ≤ 16) && decide (1 ≤ idNLEG b ∧ idNLEG b ≤ 64) && decide (idNEVO b ≤ 16)
    && decide (1 ≤ idTQUANT b ∧ idTQUANT b ≤ 320) && decide (idTFWD b ≤ 120) && (idTFWD b == 0 || decide (idPORTS b % 4 ≠ 0)) && decide (idSMAX b ≤ 0xFFFFF)
    && decide (500 ≤ idTRIPF b ∧ idTRIPF b ≤ 1000) && decide (16 ≤ idEVQ b) && decide (80 ≤ idFCLK b)
    && decide (idPORTS b < 16) && decide (identF b 15 1 < 16) && decide (identF b 44 16 = 0)

/-- Do the channel descriptors agree with NCH and NLEG (R94, R95)? -/
def descsGood (nch nleg : Nat) (ds : Tbl (BitVec 128)) : Bool :=
  let l := (List.range nch).map (fun c => tget 0 ds c)
  l.all (fun d => decide (descTYPE d ≤ 3) && decide (1 ≤ descLEGS d ∧ descLEGS d ≤ 4) && decide (descSENSE d ≤ 3) && decide (descFB d ≤ 4))
    && decide ((l.map descLEGS).sum = nleg)

/-! ### The axis's configuration in force (R160-R163, R190) -/

/-- Axis types (R160). -/
def tyTQ : Nat := 0
def tyST : Nat := 1
def tyCL : Nat := 2
def tyVX : Nat := 3

def State.axType (s : State) (n : Nat) : Nat := s.wfld (rAXC_CFG n) fAXC_CFG_TYPE
def State.axClass (s : State) (n : Nat) : Nat := s.wfld (rAXC_CFG n) fAXC_CFG_CLASS
def State.axLane (s : State) (n : Nat) : Nat := s.wfld (rAXC_CFG n) fAXC_CFG_LANE
def State.axTether (s : State) (n : Nat) : Nat := s.wfld (rAXC_CFG n) fAXC_CFG_TETHER
def State.axPos (s : State) (n : Nat) : Nat := s.wfld (rAXC_CFG n) fAXC_CFG_POS
def State.axCh (s : State) (n : Nat) : Nat := s.wfld (rAXC_CFG n) fAXC_CFG_CH
def State.axVdiv (s : State) (n : Nat) : Nat := match s.wfld (rAXC_CFG n) fAXC_CFG_VDIV with
  | 0 => 1
  | 1 => 2
  | _ => 4
def State.axPdiv (s : State) (n : Nat) : Nat := s.wfld (rAXC_CFG n) fAXC_CFG_PDIV + 1
def State.axCmode (s : State) (n : Nat) : Nat := min 2 (s.wfld (rAXC_CFG n) fAXC_CFG_CMODE)
def State.inPlan (s : State) (n : Nat) : Bool := s.wflag (rAXC_CFG n) fAXC_CFG_INPLAN

/-- The period of a class in field-time units (R163). -/
def classPeriod (c : Nat) : Nat := 200000 * 2 ^ c

/-- The even port of the ring in force that a port belongs to (R75). -/
def State.ringEven (s : State) (t : Nat) : Option Nat :=
  let e := t - t % 2
  if t < 24 ∧ s.wflag (rTTH_CTL e) fTTH_CTL_RING then some e else none

/-- The tether under which the gondolas of a port are kept: the even port on a ring. -/
def State.tetherKey (s : State) (t : Nat) : Nat := (s.ringEven t).getD t

/-- The key of the gondola at a position behind a port. -/
def State.gk (s : State) (t g : Nat) : Nat := gkey (s.tetherKey t) g

/-- The key of an axis's gondola. -/
def State.axGon (s : State) (n : Nat) : Nat := s.gk (s.axTether n) (s.axPos n)

/-- All axes. -/
def allAxes : List Nat := List.range 256

/-- The axes of the committed tick plan whose channel lies on a tether (both ports of a ring). -/
def State.tetherAxes (s : State) (t : Nat) : List Nat :=
  allAxes.filter (fun n => s.inPlan n && s.axType n != tyVX && s.tetherKey (s.axTether n) == s.tetherKey t)

/-- The axes of the committed tick plan on a gondola. -/
def State.gonAxes (s : State) (k : Nat) : List Nat :=
  allAxes.filter (fun n => s.inPlan n && s.axType n != tyVX && s.axGon n == k)

/-- The phase of a tether (R163). -/
def State.tphase (s : State) (t : Nat) : Nat := s.wfld (rLPE_TPHASE t) fLPE_TPHASE_PHASE * 40

/-- Field time of tick 0 of an axis (R163): virtual axes have no phase. -/
def State.tickOrigin (s : State) (n : Nat) : FTime :=
  s.time.torg + BitVec.ofNat 64 (if s.axType n = tyVX then 0 else s.tphase (s.tetherKey (s.axTether n)))

/-- The tick of a period and an origin that a field time lies in (R163): every integer. -/
def tickAt (origin : FTime) (period : Nat) (t : FTime) : Int := tdiff t origin / (period : Int)

/-- Field time of the start of tick `k` (R163). -/
def tickStartOf (origin : FTime) (period : Nat) (k : Int) : FTime := origin + BitVec.ofInt 64 (k * period)

/-- The tick period of an axis. -/
def State.axPeriod (s : State) (n : Nat) : Nat := classPeriod (s.axClass n)

/-- The present tick of an axis and its start. -/
def State.axTick (s : State) (n : Nat) : Int := tickAt (s.tickOrigin n) (s.axPeriod n) s.now
def State.axTickStart (s : State) (n : Nat) : FTime := tickStartOf (s.tickOrigin n) (s.axPeriod n) (s.axTick n)

/-- Is `k mod n` zero, with the non-negative remainder (R100, R162)? -/
def divides (n : Nat) (k : Int) : Bool := k % (n : Int) == 0

/-! ### States of an axis (R181) -/

def xOFF : Nat := 0x0
def xARMED : Nat := 0x1
def xALIGN : Nat := 0x2
def xREADY : Nat := 0x3
def xRUN : Nat := 0x4
def xSTOPPING : Nat := 0x5
def xHOLD : Nat := 0x6
def xCATCH : Nat := 0x7
def xTEST : Nat := 0x8
def xFAULT : Nat := 0x9

/-- The state of an axis. -/
def State.axState (s : State) (n : Nat) : Nat := s.fget (rAXC_STATE n) fAXC_STATE_STATE

/-- The energised states (R181). -/
def energised (x : Nat) : Bool := decide (xALIGN ≤ x ∧ x ≤ xTEST)

/-- OFF, ARMED or FAULT (R183). -/
def atRestState (x : Nat) : Bool := x == xOFF || x == xARMED || x == xFAULT

/-- A cause waits for the next tick boundary of an axis (R184). -/
def State.cause (s : State) (n : Nat) (c : Cause) : State := s.updAx n (fun a => { a with causes := a.causes ++ [c] })

/-- Fault causes (R186). -/
def fcRIPLOSS : Nat := 0x01
def fcFORCED : Nat := 0x02
def fcLINK : Nat := 0x03
def fcSILENT : Nat := 0x04
def fcLOCK : Nat := 0x05
def fcFOLLOW : Nat := 0x06
def fcPOSLIM : Nat := 0x07
def fcINDEX : Nat := 0x08
def fcILLEGAL : Nat := 0x09
def fcSSI : Nat := 0x0A
def fcALIGN : Nat := 0x0B
def fcOBSLOSS : Nat := 0x0C
def fcSKIPMAX : Nat := 0x0D
def fcBUS : Nat := 0x0E
def fcHOST : Nat := 0x0F
def fcLANE : Nat := 0x10

/-- Is the reaction of a configurable fault cause STOP (R190)? -/
def State.actStop (s : State) (n : Nat) (f : Sh) : Bool := s.wfld (rAXC_FLT n) f != 0

/-- Axes of a mask, as GLB_COMMIT_AXSEL or a descriptor gives it. -/
def axesOf (m : BitVec 256) : List Nat := allAxes.filter (fun n => m.getLsbD n)

/-- The members of a row group (R189). -/
def State.rowGroup (s : State) (g : Nat) : List Nat :=
  allAxes.filter (fun n => s.wflag (rAXC_GRP n) fAXC_GRP_RGEN && s.wfld (rAXC_GRP n) fAXC_GRP_RGRP == g)

end Sys2Proof.Machine
end

