-- ==== Sys2Proof/Machine/StreamTx.lean ====
section
/-! DEFINITION. What the stream port sends (R400-R402, R405): its link state, its credits, and the upstream stream data of gondolas. -/
namespace Sys2Proof.Machine

/-- Link states (R400). -/
def skDOWN : Nat := 0
def skINIT : Nat := 1
def skUP : Nat := 2

/-- The state of the stream link. -/
def State.strLink (s : State) : Nat := s.fget rNET_STR_STAT fNET_STR_STAT_LINK

/-- Change the link state: each change posts an event (R400). -/
def State.strSet (s : State) (l : Nat) : State :=
  if s.strLink = l then s
  else ((s.fset rNET_STR_STAT fNET_STR_STAT_LINK l).raise rNET_STR_STAT fNET_STR_STAT_LINKEVT).streamEvent 0x16 l

/-- The link goes down: credits are lost, and INIT starts anew. -/
def State.strDown (s : State) : State :=
  let s := (s.fset rNET_STR_CRED fNET_STR_CRED_TXCRED 0).strSet skDOWN
  { s with stream := { s.stream with sentInit := false, rcvdInit := false, seqTx := 0, retPend := 0,
                                     rxq := s.stream.rxq.map (fun e => (0, e.2)) } }

/-- Credits that a frame of a payload length needs (R402). -/
def strNeed (len : Nat) : Nat := (len + 12 + 63) / 64

/-- Types of stream frames (R401). -/
def sfINIT : BitVec 8 := 1
def sfCREDIT : BitVec 8 := 2
def sfTRAJ : BitVec 8 := 3
def sfBULK : BitVec 8 := 4
def sfLOG : BitVec 8 := 5

/-- The CRC of a stream frame (R401), over its header, whose reserved byte is 0, and its payload. -/
def strCrc (typ : BitVec 8) (len : Nat) (seq cret : BitVec 16) (payload : List Byte) : Word :=
  crc32 ([typ, 0] ++ leBytes 2 len ++ leBytes 2 seq.toNat ++ leBytes 2 cret.toNat ++ payload)

/-- The bytes of a stream frame (R401). -/
def StrFrame.bytes (f : StrFrame) : List Byte :=
  [f.typ, 0] ++ leBytes 2 f.payload.length ++ leBytes 2 f.seq.toNat ++ leBytes 2 f.cret.toNat ++ f.payload
    ++ leBytes 4 (strCrc f.typ f.payload.length f.seq f.cret f.payload).toNat

/-- Send one frame: it returns the credits that wait; a TRAJ, BULK or LOG frame counts and spends credits. -/
def State.strSend (s : State) (typ : BitVec 8) (payload : List Byte) : State :=
  let st := s.stream
  let f : StrFrame := { typ := typ, seq := st.seqTx, cret := BitVec.ofNat 16 st.retPend, payload := payload }
  let counted := 3 ≤ typ.toNat
  let s := { s with stream := { st with sent := st.sent ++ [f], wire := st.wire ++ f.bytes, retPend := 0, seqTx := if counted then st.seqTx + 1 else st.seqTx } }
  if counted then s.fset rNET_STR_CRED fNET_STR_CRED_TXCRED (s.fget rNET_STR_CRED fNET_STR_CRED_TXCRED - strNeed payload.length) else s

/-- Forget what the last command sent. -/
def State.strFresh (s : State) : State := { s with stream := { s.stream with sent := [], wire := [] } }

/-- May a counted frame of a payload length be sent? -/
def State.strMay (s : State) (len : Nat) : Bool :=
  s.strLink == skUP && decide (strNeed len ≤ s.fget rNET_STR_CRED fNET_STR_CRED_TXCRED)

/-- A BULK payload of a gondola's upstream data (R405): XFER 0, FIRST at offset 0, the data filled up to a multiple of 8. -/
def bulkOut (k : Nat) (d : BitVec 8 × Bool × Word × List Byte) : List Byte :=
  let n := d.2.2.2.length
  leBytes 4 0 ++ [0, BitVec.ofNat 8 ((if d.2.2.1 = 0 then 1 else 0) + if d.2.1 then 2 else 0), BitVec.ofNat 8 (k / 64), BitVec.ofNat 8 (k % 64), d.1]
    ++ [0, 0, 0] ++ leBytes 4 d.2.2.1.toNat ++ d.2.2.2 ++ List.replicate ((8 - n % 8) % 8) 0

/-- Send the data of one gondola that wait, as far as credits go. -/
def State.strPumpOne (s : State) (k : Nat) : List (BitVec 8 × Bool × Word × List Byte) → State
  | [] => s
  | d :: rest =>
    let p := bulkOut k d
    if s.strMay p.length then
      State.strPumpOne ((s.strSend sfBULK p).updGd k (fun g => { g with upData := rest, bulkHeld := g.bulkHeld - 1 })) k rest
    else s

/-- Send the upstream data that wait, gondola by gondola (R405). -/
def State.strPump (s : State) : State :=
  let ks := (s.gdev.filter (fun e => !e.2.upData.isEmpty)).map (fun e => e.1)
  if ks.isEmpty ∨ s.strLink ≠ skUP then s else ks.foldl (fun s k => s.strPumpOne k (s.gd k).upData) s.strFresh

end Sys2Proof.Machine
end

