-- ==== Sys2Proof/Machine/Tether.lean ====
section
/-! DEFINITION. The device's tether ports (R49-R91): training, enumeration, receive errors, control frames, credits and rings.
Frames with records of the tick plan are in TickUp. -/
namespace Sys2Proof.Machine

/-! ### Status of a port -/

/-- Link states (R91). -/
def lkOFF : Nat := 0
def lkTRN1 : Nat := 1
def lkTRN2 : Nat := 2
def lkUP : Nat := 3
def lkMISWIRE : Nat := 4
def lkDOWN : Nat := 5

/-- The training state of a port: LINK, but UP while LINK shows a branch port of a ring gondola as MISWIRE (R75). -/
def State.link (s : State) (t : Nat) : Nat :=
  let v := s.fget (rTTH_STAT t) fTTH_STAT_LINK
  if v = lkMISWIRE ∧ (s.port t).mis ≠ [] then lkUP else v
def State.setLink (s : State) (t v : Nat) : State :=
  s.fset (rTTH_STAT t) fTTH_STAT_LINK (if v = lkUP ∧ (s.port t).mis ≠ [] then lkMISWIRE else v)

/-- Write a field of TTH_Tn_STAT; only LINK carries function on T24 (R91). -/
def State.tthStat (s : State) (t : Nat) (b : Bits) (v : Nat) : State := if t < 24 then s.fset (rTTH_STAT t) b v else s

/-- Set event bits of a port; T24 has none (R91). -/
def State.tthRaise (s : State) (t bit : Nat) : State := if t < 24 then s.tthEvt t (2 ^ bit) else s

def evUP : Nat := 0
def evDOWN : Nat := 1
def evGSEEN : Nat := 2
def evGLOST : Nat := 3
def evENUM_DONE : Nat := 4
def evRING_BREAK : Nat := 5
def evRING_CLOSE : Nat := 6
def evIDENT_NEW : Nat := 7

/-- Counters of a port (R91); T24 keeps CRCERR, FMTERR and UPMISS alone. -/
def cCVERR : Nat := 0
def cCRCERR : Nat := 1
def cFMTERR : Nat := 2
def cRXDROP : Nat := 3
def cUPMISS : Nat := 4
def cLOCKLOSS : Nat := 5
def cRETRAIN : Nat := 6
def cLATEWIN : Nat := 7

def State.tthCountN (s : State) (t k n : Nat) : State :=
  if t < 24 ∨ k = cCRCERR ∨ k = cFMTERR ∨ k = cUPMISS then s.countN (rTTH_ERR t k) n else s

/-- The bits of a pair of 32-bit mask registers as one number. -/
def State.pairMask (s : State) (lo hi : Nat) : Nat := (s.rget lo).toNat + (s.rget hi).toNat * 2 ^ 32
def State.setPairMask (s : State) (lo hi v : Nat) : State :=
  (s.rset lo (BitVec.ofNat 32 v)).rset hi (BitVec.ofNat 32 (v / 2 ^ 32))

/-- Is the gondola at a position present (R91)? T24.0 is. -/
def State.present (s : State) (t g : Nat) : Bool :=
  if s.tetherKey t < 24 then (s.pairMask (rTTH_PRES0 (s.tetherKey t)) (rTTH_PRES1 (s.tetherKey t))).testBit g else g == 0

/-- Is a position served by a port (R91)? -/
def State.homed (s : State) (t g : Nat) : Bool :=
  if t < 24 then (s.pairMask (rTTH_HOME0 t) (rTTH_HOME1 t)).testBit g else g == 0

/-- Write the presence of a position and the number of gondolas present. -/
def State.setPresent (s : State) (t g : Nat) (b : Bool) : State :=
  if 24 ≤ t then s else
  let e := s.tetherKey t
  let m := setBit (s.pairMask (rTTH_PRES0 e) (rTTH_PRES1 e)) g b
  (s.setPairMask (rTTH_PRES0 e) (rTTH_PRES1 e) m).tthStat e fTTH_STAT_NGOND ((List.range 64).filter (fun i => m.testBit i)).length

/-- Write whether a port serves a position. -/
def State.setHomed (s : State) (t g : Nat) (b : Bool) : State :=
  if 24 ≤ t then s else
  s.setPairMask (rTTH_HOME0 t) (rTTH_HOME1 t) (setBit (s.pairMask (rTTH_HOME0 t) (rTTH_HOME1 t)) g b)

/-- The port that serves a position: on a ring the odd port where its HOME bit is set. -/
def State.homePort (s : State) (t g : Nat) : Nat :=
  match s.ringEven t with
  | some e => if s.homed (e + 1) g then e + 1 else e
  | none => t

/-- Home a position to one port of a ring. -/
def State.rehome (s : State) (e g : Nat) (odd : Bool) : State := (s.setHomed e g (!odd)).setHomed (e + 1) g odd

/-! ### Training (R69-R71) -/

/-- A port of a gondola. -/
def gportIdx : GPort → Nat
  | .up => 0
  | .thru => 1
  | .branch => 2

def Gondola.glink (g : Gondola) (p : GPort) : Nat := tget lkTRN1 g.links (gportIdx p)
def Gondola.setGlink (g : Gondola) (p : GPort) (v : Nat) : Gondola := { g with links := tset lkTRN1 g.links (gportIdx p) v }
def Gondola.portUp (g : Gondola) (p : GPort) : Bool := g.glink p == lkUP

/-- ROLE of a gondola's port (R70). -/
def gportRole : GPort → Nat
  | .up => 2
  | .thru => 3
  | .branch => 4

/-- Are the roles of a segment compatible (R70)? `ringOdd`: the device port of the segment is the odd port of a ring pair in force. -/
def rolesOK (mine theirs : Nat) (ringOdd : Bool) : Bool :=
  (mine == 2 && (theirs == 1 || theirs == 3 || theirs == 4)) || (theirs == 2 && (mine == 1 || mine == 3 || mine == 4))
    || (ringOdd && ((mine == 1 && theirs == 3) || (mine == 3 && theirs == 1)))

/-- TRN1_COMPLETE (R69): symbol lock and 64 clean sets take a port from TRN1 to TRN2. -/
def execTrn1Complete (e : LinkEnd) (s : State) : Out :=
  match e with
  | .dev t =>
    if s.link t = lkTRN1 then .next ((s.setLink t lkTRN2).tthStat t fTTH_STAT_LOCK 1) else .next s
  | .gon n p =>
    if (s.gon n).glink p = lkTRN1 then .next (s.updGon n (fun g => g.setGlink p lkTRN2)) else .next s

/-- Queue a frame at a device port. -/
def State.txQueue (s : State) (t : Nat) (f : Frame) : State := s.updPort t (fun p => { p with waiting := p.waiting ++ [f] })

/-- An ENUM frame (R66). -/
def enumFrame (next : Nat) (done ovr attach : Bool) (epoch : BitVec 8) : Frame :=
  mkFrame 6 2 0 0 0
    [BitVec.ofNat 8 next, BitVec.ofNat 8 ((if done then 1 else 0) + (if ovr then 2 else 0) + (if attach then 4 else 0)), epoch, 0]

/-- One more than the highest position present on a tether (R86). -/
def State.nextPos (s : State) (t : Nat) : Nat :=
  ((List.range 64).filter (fun g => s.present t g)).foldl (fun m g => max m (g + 1)) 0

/-- Forget a position: presence, homes and what the device knew of the gondola. -/
def State.forget (s : State) (t g : Nat) : State :=
  let e := s.tetherKey t
  let s := ((s.setPresent t g false).setHomed e g false)
  let s := if (s.ringEven t).isSome then s.setHomed (e + 1) g false else s
  s.setGd (gkey e g) {}

/-- Start an enumeration of a tether on a fresh epoch (R72, R86, R88): the whole tether, whose positions are forgotten at once, or those
without a position; one that is still running is left behind with its epoch (log entry 115). -/
def State.startEnum (s : State) (t : Nat) (attach : Bool) : State :=
  let e := s.tetherKey t
  if 24 ≤ e ∨ s.link e ≠ lkUP then s else
  let s := if attach then s else (List.range 64).foldl (fun s g => if s.present e g then s.forget e g else s) s
  let epoch := BitVec.ofNat 8 (s.fget (rTTH_ENUM e) fTTH_ENUM_EPOCH + 1)
  let next := if attach then s.nextPos e else 0
  let s := (s.fset (rTTH_ENUM e) fTTH_ENUM_EPOCH epoch.toNat).tthStat e fTTH_STAT_ENUM_BUSY 1
  let s := s.updPort e (fun p => { p with enumKind := if attach then .attach else .full, enumNext := BitVec.ofNat 8 next, enumOdd := false })
  s.txQueue e (enumFrame next false false attach epoch)

/-- The enumeration that AUTO_ENUM starts on link UP (R91): a full one, or an attach while the plan holds an axis there (R88). -/
def State.autoEnum (s : State) (t : Nat) : State :=
  if s.flag (rTTH_CTL t) fTTH_CTL_AUTO_ENUM then s.startEnum t (!(s.tetherAxes t).isEmpty) else s

/-- Ring segment `seg` returned to UP (R85): if it is the broken one the ring is whole, and the event; the homes stay. -/
def State.ringClosed (s : State) (e seg : Nat) : State :=
  if s.fget (rTTH_STAT e) fTTH_STAT_RING_BROKEN = 1 ∧ s.fget (rTTH_STAT e) fTTH_STAT_BRKSEG = seg then
    (s.tthStat e fTTH_STAT_RING_WHOLE 1).tthRaise e evRING_CLOSE
  else s

/-- The ring gondolas behind an even port whose branch port is UP (R75). -/
def State.ringMis (s : State) (t : Nat) : List Nat :=
  if s.ringEven t = some t then ((List.range 64).filter (fun g => s.present t g && (s.gd (gkey t g)).branchUp)).map (gkey t) else []

/-- A device port reaches UP (R69): UP event, the enumeration of AUTO_ENUM (R86), the closing of a ring (R85). -/
def State.portUp (s : State) (t : Nat) : State :=
  let m := s.ringMis t
  let s := (((s.updPort t (fun p => { p with mis := m })).setLink t lkUP).tthStat t fTTH_STAT_LOCK 1).tthRaise t evUP
  match s.ringEven t with
  | some e => let s := s.ringClosed e (if t = e then 0 else s.nextPos e); if t = e then s.autoEnum t else s
  | none => s.autoEnum t

/-- Is a gondola on a ring (R75): is its tether the port of a ring pair in force? -/
def State.onRing (s : State) (node : Nat) : Bool := (s.ringEven (node / 64)).isSome

/-- A branch port of a ring gondola that is UP is a miswire, which LINK of the ring's even port shows until the branch goes down (R75). -/
def State.ringBranch (s : State) (e g : Nat) (up : Bool) : State :=
  let l := s.link e
  (s.updPort e (fun p => { p with mis := p.mis.filter (fun x => x != g) ++ (if up then [g] else []) })).setLink e l

/-- An unasked report of a gondola outside every tick plan (R86): a CFG_RSP with G_STAT (log entry 116). -/
def gstatReport (g : Gondola) (pos : Nat) (thru branch : Bool) : Frame :=
  mkFrame 0xA 0 pos 0 0 (leBytes 2 0 ++ leBytes 2 0 ++ leBytes 4
    ((if g.lock then 1 else 0) + (if g.sil then 2 else 0) + (if thru then 16 else 0) + (if branch then 32 else 0) + 64 + pos <<< 24))

/-- Queue a frame at a port of a gondola (R97). -/
def Gondola.queueAt (g : Gondola) (p : GPort) (own : Bool) (f : Frame) (crc : Word) (sof : FTime) : Gondola :=
  { g with queue := g.queue ++ [{ port := p, own := own, frame := f, crc := crc, sof := sof }] }

/-- The port toward the device: on a ring the serving side (R82). -/
def Gondola.serving (g : Gondola) (ring : Bool) : GPort := if ring && g.serveThru then .thru else .up

/-- A gondola's through or branch port reached UP: with no tick plan it reports the port in a CFG_RSP (R86); else its next TICK_UP does. -/
def Gondola.reportPort (g : Gondola) (ring : Bool) (p : GPort) : Gondola :=
  match p, g.pos with
  | .up, _ => g
  | _, none => g
  | _, some pos =>
    if (tget 0 g.regs 0x06C : Word) = 0 then
      g.queueAt (g.serving ring) true (gstatReport g pos (g.portUp .thru) (g.portUp .branch)) 0 0
    else g

/-- TRN2_COMPLETE (R69, R70): UP with compatible roles, MISWIRE otherwise. -/
def execTrn2Complete (e : LinkEnd) (role cap : BitVec 8) (s : State) : Out :=
  match e with
  | .dev t =>
    if s.link t = lkTRN2 ∨ s.link t = lkMISWIRE then
      let s := s.updPort t (fun p => { p with role := role, cap := cap })
      let ringOdd := t.val % 2 = 1 ∧ (s.ringEven t).isSome
      .next (if rolesOK 1 role.toNat ringOdd then s.portUp t else (s.updPort t (fun p => { p with mis := [] })).setLink t lkMISWIRE)
    else .next s
  | .gon n p =>
    if (s.gon n).glink p = lkTRN2 ∨ (s.gon n).glink p = lkMISWIRE then
      if rolesOK (gportRole p) role.toNat (s.onRing n) then
        .next (s.updGon n (fun g => (g.setGlink p lkUP).reportPort (s.onRing n) p))
      else .next (s.updGon n (fun g => g.setGlink p lkMISWIRE))
    else .next s

/-- TRAINING_TIMEOUT (R69): 10 ms in TRN1 or TRN2 restart TRN1. -/
def execTrainingTimeout (e : LinkEnd) (s : State) : Out :=
  match e with
  | .dev t =>
    if s.link t ∈ [lkTRN1, lkTRN2] then .next (((s.setLink t lkTRN1).tthStat t fTTH_STAT_LOCK 0).tthCountN t cRETRAIN 1) else .next s
  | .gon n p =>
    if (s.gon n).glink p ∈ [lkTRN1, lkTRN2] then .next (s.updGon n (fun g => g.setGlink p lkTRN1)) else .next s

/-- A device port leaves its state: its event if it was UP, no symbol lock, and its ring no longer whole (R91); from DOWN it goes on to TRN1
at once (R69). -/
def State.portDown (s : State) (t : Nat) (to_ : Nat) : State :=
  let was := s.link t
  let s := (s.setLink t (if to_ = lkDOWN then lkTRN1 else to_)).tthStat t fTTH_STAT_LOCK 0
  let s := match s.ringEven t with
    | some e => s.tthStat e fTTH_STAT_RING_WHOLE 0
    | none => s
  if was = lkUP then s.tthRaise t evDOWN else s

/-- The ring segment at a port of a gondola at position `g` (R83). -/
def ringSegment (g : Nat) : GPort → Nat
  | .up => g
  | _ => g + 1

/-- The other ring port. -/
def otherPort : GPort → GPort
  | .up => .thru
  | _ => .up

/-- A gondola's port leaves UP and trains again (R69): on a ring it sends BRK out of its other port and serves from there (R83); its position
goes with its last port that leads toward the device (R99). -/
def Gondola.portDown (g : Gondola) (ring : Bool) (p : GPort) : Gondola :=
  let g := g.setGlink p lkTRN1
  let g := match ring, g.pos with
    | true, some pos =>
      if p = .branch then g else
      { g with brk := g.brk ++ [(otherPort p, BitVec.ofNat 8 (ringSegment pos p))],
               serveThru := if p = .up then true else false }
    | _, _ => g
  let gone := if ring then !g.portUp .up && !g.portUp .thru else !g.portUp .up
  if p ≠ .branch ∧ gone then { g with pos := none } else g

/-- Count in a gondola counter G_CNTk (R122): 16 bits, saturating, with OVF. -/
def Gondola.countN (g : Gondola) (k n : Nat) : Gondola :=
  let a := 0x080 + 4 * k
  let v := (tget 0 g.regs a : Word)
  let c := bget v cntBits + n
  { g with regs := tset 0 g.regs a (if 0xFFFF ≤ c then bset (bset v cntBits 0xFFFF) ovfBits 1 else bset v cntBits c) }

/-- The effect of a write of TTH_Tn_CTL (R69, R91): EN, and RETRAIN. -/
def tthCtlWritten (t : Nat) (v old : Word) (s : State) : State :=
  let was := bget old fTTH_CTL_EN != 0
  let is_ := s.flag (rTTH_CTL t) fTTH_CTL_EN
  if was ∧ !is_ then s.portDown t lkOFF
  else if !was ∧ is_ then s.setLink t lkTRN1
  else if is_ ∧ t < 24 ∧ bget v fTTH_CTL_RETRAIN = 1 ∧ s.link t ≠ lkOFF then s.portDown t lkDOWN
  else s

/-- PORT_ENABLE and RETRAIN. -/
def execPortEnable (via : RegPath) (t : Fin 25) (v : Word) (s : State) : Out := .next (s.portWrite via (rTTH_CTL t) v (tthCtlWritten t v))
def execRetrain (via : RegPath) (t : Fin 25) (v : Word) (s : State) : Out :=
  .next (s.portWrite via (rTTH_CTL t) (bset v fTTH_CTL_RETRAIN 1) (tthCtlWritten t (bset v fTTH_CTL_RETRAIN 1)))

/-! ### Enumeration (R72-R75, R86, R88) -/

/-- The effect of a write of TTH_Tn_ENUM: START is refused while the plan holds an axis on the tether (R88). In the window of a ring's odd
port it is the ring's, whose enumeration is sent on the even port (R75; log entry 115). -/
def tthEnumWritten (t : Nat) (v : Word) (s : State) : State :=
  let e := s.tetherKey t
  if 24 ≤ e then s
  else if bget v fTTH_ENUM_START = 1 then
    if (s.tetherAxes e).isEmpty then s.startEnum e false else s.raise (rTTH_ENUM e) fTTH_ENUM_REFUSED
  else if bget v fTTH_ENUM_ATTACH = 1 then s.startEnum e true
  else s

def execEnumStart (via : RegPath) (t : Fin 25) (v : Word) (s : State) : Out :=
  .next (s.portWrite via (rTTH_ENUM t) (bset v fTTH_ENUM_START 1) (fun _ => tthEnumWritten t (bset v fTTH_ENUM_START 1)))
def execEnumAttach (via : RegPath) (t : Fin 25) (v : Word) (s : State) : Out :=
  .next (s.portWrite via (rTTH_ENUM t) (bset (bset v fTTH_ENUM_START 0) fTTH_ENUM_ATTACH 1)
    (fun _ => tthEnumWritten t (bset (bset v fTTH_ENUM_START 0) fTTH_ENUM_ATTACH 1)))

/-- The axes a gondola declares: the channels whose descriptors have been read, but the ballast channels (R74, R95). -/
def GonDev.axisCount (d : GonDev) : Nat :=
  ((List.range (idNCH d.ident)).filter (fun c => tget 0 d.descs c != 0 && descTYPE (tget 0 d.descs c) != 3)).length

/-- The axes declared by the gondolas of a tether up to and with position `g` (R74). -/
def State.axesUpTo (s : State) (t g : Nat) : Nat :=
  (((List.range (g + 1)).filter (fun i => s.present t i)).map (fun i => (s.gd (s.gk t i)).axisCount)).sum

/-- Is a gondola beyond the 128-axis limit of its tether (R74)? -/
def State.overAxes (s : State) (t g : Nat) : Bool := decide (128 < s.axesUpTo t g)

/-- Set AXIS_OVER where the gondolas declare more axes than 128 (R74). -/
def State.checkAxes (s : State) (t : Nat) : State :=
  if s.overAxes t 63 then s.tthStat (s.tetherKey t) fTTH_STAT_AXIS_OVER 1 else s

/-- The split of a ring (R82). -/
def State.split (s : State) (e : Nat) : Nat := s.wfld (rTTH_SPLIT e) fTTH_SPLIT_M

/-- Home every gondola of a whole ring by the split (R81); on an open ring each is served by the port its IDENT came to. -/
def State.homeRing (s : State) (e : Nat) : State :=
  (List.range 64).foldl (fun s g => if s.present e g then s.rehome e g (decide (s.split e ≤ g)) else s) s

/-- An enumeration ends (R72): not busy, ENUM_DONE, OVER noted, the axis limit checked. -/
def State.enumEnd (s : State) (e : Nat) (ovr : Bool) : State :=
  let s := (s.tthStat e fTTH_STAT_ENUM_BUSY 0).updPort e (fun p => { p with enumKind := .idle, enumOdd := false })
  let s := if ovr then s.tthStat e fTTH_STAT_ENUM_OVER 1 else s
  (s.checkAxes e).tthRaise e evENUM_DONE

/-- Receive checks of a port (R89): the counter named, and whether the frame is kept. A frame that shows several of the conditions counts
under the first of them (log entry 117). -/
def State.rxCheck (s : State) (t : Nat) (q : RxQual) (f : Frame) (nonTick : Bool) : State × Bool :=
  let s := s.tthCountN t cCVERR (q.cv + q.cvBetween)
  if q.cv ≠ 0 then (s, false)
  else if q.eofx ∨ !q.fmtOk then (s.tthCountN t cFMTERR 1, false)
  else if q.crc ≠ frameCrc f then (s.tthCountN t cCRCERR 1, false)
  else if q.full then (s.tthCountN t cRXDROP 1, false)
  else if nonTick ∧ q.lateWin then (s.tthCountN t cLATEWIN 1, true)
  else (s, true)

/-- Receive a frame of a type, address, TAG and body: only a port in UP receives; its CRC is checked against the bytes (R58). -/
def State.rx (s : State) (t : Nat) (q : RxQual) (fr : Frame) (f : State → State) : State :=
  if s.link t = lkUP then (match s.rxCheck t q fr (fr.typ != 2) with
    | (s, true) => f s
    | (s, false) => s)
  else s

/-- The ENUM frame that comes back to a port (R66, R72, R75): with DONE, but for the one that has run round a whole ring; with ATTACH as it was
sent. -/
def State.enumBackFrame (s : State) (t : Nat) (next epoch : BitVec 8) (ovr : Bool) : Frame :=
  let e := s.tetherKey t
  let p := s.port e
  enumFrame next.toNat (decide (t = e) || p.enumOdd) ovr (decide (p.enumKind = .attach) || p.enumOdd) epoch

/-- ENUM_DONE (R72, R75): ends the enumeration, or goes on from the odd port of an open ring with ATTACH set. -/
def execEnumDone (t : Fin 25) (next : BitVec 8) (ovr : Bool) (epoch : BitVec 8) (endMm : Nat) (q : RxQual) (s : State) : Out :=
  .next (s.rx t q ({ s.enumBackFrame t next epoch ovr with seq := q.seq }) (fun s =>
    let e := s.tetherKey t
    if s.fget (rTTH_STAT e) fTTH_STAT_ENUM_BUSY = 1 ∧ s.fget (rTTH_ENUM e) fTTH_ENUM_EPOCH = epoch.toNat then
      match s.ringEven t with
      | none => s.enumEnd e ovr
      | some e =>
        let p := s.port e
        if t.val ≠ e ∧ !p.enumOdd then
          let s := (s.tthStat e fTTH_STAT_RING_WHOLE 1).updPort (e + 1) (fun p => { p with endMm := endMm })
          let s := if p.enumKind = .full then (s.homeRing e).tthStat e fTTH_STAT_RING_BROKEN 0 else s
          s.enumEnd e ovr
        else if t.val = e ∧ !p.enumOdd ∧ !ovr ∧ s.link (e + 1) = lkUP then
          let s := (s.tthStat e fTTH_STAT_RING_WHOLE 0).updPort e (fun p => { p with enumOdd := true, enumNext := next })
          s.txQueue (e + 1) (enumFrame next.toNat false false true epoch)
        else (s.tthStat e fTTH_STAT_RING_WHOLE 0).enumEnd e ovr
    else s))

/-- A CFG_RD the device sends to read a gondola's register space (R67). -/
def cfgRdFrame (g : Nat) (tag : BitVec 8) (addr count : Nat) : Frame :=
  mkFrame 9 0 g 0 tag (leBytes 4 addr ++ leBytes 2 count ++ [0, 0])

/-- A CFG_WR (R67): addressed to one gondola, or broadcast. -/
def cfgWrFrame (g : Nat) (broadcast : Bool) (tag : BitVec 8) (addr : Nat) (data : List Word) : Frame :=
  mkFrame 8 (if broadcast then 1 else 0) (if broadcast then 0 else g) 0 tag (leBytes 4 addr ++ data.flatMap (fun w => leBytes 4 w.toNat))

/-- Queue a CFG request to a gondola (R67); the rule of 4 outstanding holds back its frame (NON_TICK_FRAME_START). -/
def State.cfgReq (s : State) (t g : Nat) (write : Bool) (addr count : Nat) (data : List Word) : State :=
  let k := s.gk t g
  let d := s.gd k
  let s := s.setGd k { d with cfg := d.cfg ++ [{ tag := d.nextTag, write := write, addr := BitVec.ofNat 32 addr, count := count,
                                                  clr := (data.headD 0).toNat }],
                              nextTag := d.nextTag + 1 }
  s.txQueue (s.homePort t g) (if write then cfgWrFrame g false d.nextTag addr data else cfgRdFrame g d.nextTag addr count)

/-- Read the channel descriptors of a gondola, four to a request (R95). -/
def State.readDescs (s : State) (t g : Nat) : State :=
  let n := idNCH (s.gd (s.gk t g)).ident
  (List.range ((n + 3) / 4)).foldl (fun s i => s.cfgReq t g false (0x100 + 64 * i) (16 * min 4 (n - 4 * i)) []) s

/-! ### Control frames at the device -/

/-- DLY_REQ_RECEIVE (R65, R32): the answer carries T1 and the field time of the arrival; its departure is written as it leaves. -/
def execDlyReqReceive (t : Fin 25) (t1 : FTime) (q : RxQual) (s : State) : Out :=
  .next (if t.val = 24 then s else s.rx t q (mkFrame 4 2 0 q.seq 0 (leBytes 8 t1.toNat)) (fun s =>
    s.txQueue t (mkFrame 5 2 0 0 0 (leBytes 8 t1.toNat ++ leBytes 8 s.now.toNat ++ leBytes 8 0))))

/-- A gondola reported its ports (R86): a new port UP sets GSEEN and starts the attach enumeration of AUTO_ENUM. On a ring its through port
is a ring segment (R85, R91) and its branch port a miswire (R75). -/
def State.portsReported (s : State) (t g : Nat) (thru branch : Bool) : State :=
  let k := s.gk t g
  let d := s.gd k
  let new := (thru && !d.thruUp) || (branch && !d.branchUp)
  let s := s.setGd k { d with thruUp := thru, branchUp := branch }
  let e := s.tetherKey t
  let s := match s.ringEven t with
    | some e =>
      let s := if branch = d.branchUp then s else s.ringBranch e k branch
      if thru && !d.thruUp then s.ringClosed e (g + 1) else if !thru && d.thruUp then s.tthStat e fTTH_STAT_RING_WHOLE 0 else s
    | none => s
  if new ∧ t < 24 then
    let s := s.tthRaise e evGSEEN
    if s.flag (rTTH_CTL e) fTTH_CTL_AUTO_ENUM then s.startEnum e true else s
  else s

/-- Store channel descriptors that a CFG_RD returned (R95). -/
def storeDescs (ds : Tbl (BitVec 128)) (first : Nat) (data : List Byte) : Nat → Tbl (BitVec 128)
  | 0 => ds
  | n + 1 => storeDescs (tset 0 ds first (BitVec.ofNat 128 (leNat (data.take 16)))) (first + 1) (data.drop 16) n

/-- What an answer tells the device: descriptors, G_STAT, or whether a G_CLR write was refused (R95, R86, R187). -/
def State.cfgAnswer (s : State) (t g : Nat) (r : CfgReq) (status : Nat) (data : List Byte) : State :=
  let k := s.gk t g
  if r.write then
    if r.addr = 0x048 then
      s.updGd k (fun d => { d with forceClr := ((List.range 16).filter r.clr.testBit).foldl (fun m c => tset none m c (some (status == 0))) d.forceClr })
    else s
  else if status ≠ 0 then s
  else if 0x100 ≤ r.addr.toNat ∧ r.addr.toNat < 0x200 then
    (s.updGd k (fun d => { d with descs := storeDescs d.descs ((r.addr.toNat - 0x100) / 16) data (data.length / 16) })).checkAxes t
  else if r.addr = 0x044 then
    let w := leNat (data.take 4)
    (s.updGd k (fun d => { d with lock := w.testBit 0 })).portsReported t g (w.testBit 4) (w.testBit 5)
  else s

/-- CFG_RSP_RECEIVE (R67): matched by its TAG to an outstanding request; one that matches none and carries a word is the report of a gondola
outside every tick plan (R86; log entry 116). -/
def execCfgRspReceive (t : Fin 25) (pos : Fin 64) (tag : BitVec 8) (status : BitVec 16) (data : List Byte) (q : RxQual) (s : State) : Out :=
  .next (s.rx t q (mkFrame 0xA 0 pos q.seq tag (leBytes 2 status.toNat ++ [0, 0] ++ data)) (fun s =>
    let k := s.gk t pos
    match (s.gd k).cfg.find? (fun r => r.tag == tag) with
    | none => if data.length = 4 ∧ status = 0 then s.cfgAnswer t pos { tag := tag, write := false, addr := 0x044, count := 4 } 0 data else s
    | some r =>
      (s.updGd k (fun d => { d with cfg := d.cfg.filter (fun r => r.tag != tag) })).cfgAnswer t pos r status.toNat data))

/-- Return downstream credits (R68): the count saturates at 15; a frame that returns more is counted, and the rest of it discarded (R89). -/
def State.returnCredits (s : State) (t g n : Nat) : State × Bool :=
  let k := s.gk t g
  let c := (s.gd k).credDn + n
  let s := s.updGd k (fun d => { d with credDn := min 15 c })
  if 15 < c then (s.tthCountN t cFMTERR 1, false) else (s, true)

/-- CREDIT_RECEIVE (R68). -/
def execCreditReceive (t : Fin 25) (pos : Fin 64) (count : BitVec 4) (q : RxQual) (s : State) : Out :=
  .next (s.rx t q (mkFrame 13 0 pos q.seq 0 [BitVec.ofNat 8 count.toNat, 0]) (fun s => (s.returnCredits t pos count.toNat).1))

/-- RING_BREAK (R83): the segment is recorded, and every gondola between the break and the split moves to the other port. -/
def execRingBreak (t : Fin 25) (seg : BitVec 8) (s : State) : Out :=
  match s.ringEven t with
  | none => .next s
  | some e =>
    let m := s.split e
    let g := seg.toNat
    let s := ((s.tthStat e fTTH_STAT_BRKSEG g).tthStat e fTTH_STAT_RING_BROKEN 1).tthStat e fTTH_STAT_RING_WHOLE 0
    let s := (List.range 64).foldl (fun s i =>
      if s.present e i then (if g ≤ i ∧ i < m then s.rehome e i true else if m ≤ i ∧ i < g then s.rehome e i false else s) else s) s
    .next (s.tthRaise e evRING_BREAK)

/-! ### Frames the device sends -/

/-- A TIME frame (R64); the origin, the increment and the step count are written as it leaves. -/
def timeFrame : Frame := mkFrame 3 1 0 0 0 (leBytes 8 0 ++ leBytes 8 0 ++ leBytes 8 0 ++ leBytes 8 0)

/-- The TIME interval in units (R48): 250 us, 500 us, 1 ms or 2 ms. -/
def State.tdist (s : State) : Nat := 250 * usUnits * 2 ^ s.fget rFTM_CTL fFTM_CTL_TDIST

/-- Has the TIME interval passed since the last distribution? -/
def State.tdistDue (s : State) : Bool :=
  match s.time.tdLast with
  | none => true
  | some x => reached s.now (x + BitVec.ofNat 64 s.tdist)

/-- TIME_DISTRIBUTION (R64, R48): while TDIST_EN is 1 each of T0-T23 in UP queues a TIME frame every TDIST interval. -/
def execTimeDistribution (s : State) : Out :=
  if s.flag rFTM_CTL fFTM_CTL_TDIST_EN ∧ s.tdistDue then
    .next ((List.range 24).foldl (fun s t => if s.link t = lkUP then s.txQueue t timeFrame else s)
      (s.updTime (fun u => { u with tdLast := some s.now })))
  else .next s

/-- The fields of a frame that the device writes as it leaves (R64, R65). -/
def State.stamp (s : State) (f : Frame) : Frame :=
  if f.typ = 3 then
    { f with body := leBytes 8 s.now.toNat ++ leBytes 8 0 ++ leBytes 8 0 ++ leBytes 1 s.time.incI.toNat
                       ++ leBytes 4 s.time.incF.toNat ++ leBytes 2 (s.fget rFTM_STAT fFTM_STAT_STEP_CNT) ++ [0] }
  else if f.typ = 5 then { f with body := f.body.take 16 ++ leBytes 8 s.now.toNat }
  else f

/-- The channels of a gondola in the committed plan, ballast channels among them: those with a record to send. -/
def recList (d : GonDev) : List (BitVec 128) := d.recs.filterMap (fun e => e.2)

/-- Upstream credits granted in this frame (R68): up to 4 outstanding. -/
def GonDev.grant (d : GonDev) : Nat := 4 - min 4 (d.grantUp + d.bulkHeld)

/-- The TICK_DN frame of a gondola (R60). -/
def GonDev.tickDn (d : GonDev) (g : Nat) (seq : BitVec 8) : Frame :=
  mkFrame 1 0 g seq 0 (leBytes 8 d.ccT.toNat ++ leBytes 2 d.grant ++ (recList d).flatMap (fun r => leBytes 16 r.toNat))

/-- The first ready tick frame of a device port leaves (R18). -/
def State.tickDnStart (s : State) (t : Nat) : State :=
  match (s.port t).ready with
  | [] => s
  | k :: rest =>
    let d := s.gd k
    let f := d.tickDn (k % 64) ((d.upTick.getD 0).setWidth 8)
    let s := s.updPort t (fun p => { p with ready := rest, sent := [f], wire := frameWire f })
    let last := d.recs.foldl (fun m e => tset none m e.1 e.2) d.lastRecs
    s.setGd k { d with ready := false, grantUp := d.grantUp + d.grant, lastRecs := last, recs := [] }

end Sys2Proof.Machine
end

