-- ==== Sys2Proof/Machine/Legs.lean ====
section
/-! DEFINITION. What a gondola is (R93, R95, R100, R101, R122-R125): its identity, its registers, its ticks, its legs (R105) and the
states that override them (R114). A gondola is named by its node; node 1536 is the home gondola, and node 1537 names its address 1
(channels, plan and descriptors), the rest of it being that of node 1536. -/
namespace Sys2Proof.Machine

/-! ### Identity -/

/-- The node of the home gondola, and of its address 1 (R125). -/
def homeNode : Nat := 1536
def homeBal : Nat := 1537

/-- Is a node the home gondola? -/
def isHome (n : Nat) : Bool := n == homeNode || n == homeBal

/-- The node that holds what is one for the whole gondola. -/
def baseNode (n : Nat) : Nat := if n = homeBal then homeNode else n

/-- Bytes of the home gondola's identity block that the spec gives (R93, R124), by place. -/
def homeIdentGiven : List (Nat × Nat) :=
  [(10, 1), (11, 8), (12, 16), (13, 48), (14, 16), (16, 40), (17, 0), (18, 0), (19, 0), (20, 0x58), (21, 0x02), (22, 30), (23, 0),
   (24, 180), (25, 0), (26, 0x54), (27, 0x01), (28, 10), (29, 0), (30, 50), (31, 0), (32, 0xFF), (33, 0xFF), (34, 0x0F), (35, 0),
   (40, 64), (41, 0), (42, 0x90), (43, 0x01)]

/-- The first 60 bytes of the home gondola's identity block: the given bytes, zero where reserved, open elsewhere. -/
def homeIdent60 : List Byte :=
  (List.range 60).map (fun i => match homeIdentGiven.find? (fun e => e.1 == i) with
    | some e => BitVec.ofNat 8 e.2
    | none => if 44 ≤ i then 0 else homeIdent i)

/-- The first 60 bytes of the identity block of a tether gondola whose block is not in the state: contract version 0x01, zero where reserved,
open elsewhere (R93; log entry 114). -/
def gonIdent60 (n : Nat) : List Byte := (List.range 60).map (fun i => if i = 10 then 1 else if 44 ≤ i then 0 else gonIdent n i)

/-- The identity block of a gondola (R93), closed by its ICRC. -/
def State.gident (s : State) (n : Nat) : List Byte :=
  if isHome n then homeIdent60 ++ leBytes 4 (crc32 homeIdent60).toNat
  else if (s.gon n).ident = [] then gonIdent60 n ++ leBytes 4 (crc32 (gonIdent60 n)).toNat
  else (s.gon n).ident

/-- The channel descriptor of channel `c` (R95): at home from PGN_HCHc (R244), ballast channels at address 1.  The one FB byte of a home
channel, which reads any source (R124), declares quadrature with index (log entry 118). -/
def State.gdesc (s : State) (n c : Nat) : BitVec 128 :=
  if n = homeBal then BitVec.ofNat 128 (3 + 1 <<< 8 + 2 <<< 16 + (homeIfs (16 + c)).toNat <<< 32)
  else if n = homeNode then
    BitVec.ofNat 128 (min 2 (s.wfld (rPGN_HCH c) fPGN_HCH_TYPE) + s.wfld (rPGN_HCH c) fPGN_HCH_NLEG <<< 8 + 1 <<< 16 + 2 <<< 24
      + (homeIfs c).toNat <<< 32)
  else if (s.gon n).ident = [] then gonDesc n c
  else tget 0 (s.gon n).descs c

/-- The number of channels of a gondola. -/
def State.gnch (s : State) (n : Nat) : Nat := if n = homeBal then 2 else if n = homeNode then 16 else idNCH (s.gident n)

/-- The timer quantum in field-time units (R93, R124). -/
def State.gquant (s : State) (n : Nat) : Nat := if isHome n then 40 else max 1 (idTQUANT (s.gident n))

/-- Does the gondola have a rip-loop input (R93, R124)? -/
def State.hasRip (s : State) (n : Nat) : Bool := !isHome n && (idPORTS (s.gident n)).testBit 2

/-- Does the gondola hold a position? The home gondola is T24.0. -/
def State.gpos (s : State) (n : Nat) : Option Nat := if isHome n then some 0 else (s.gon n).pos.map (·.val)

/-- Local field time of a gondola at a reading of its timer, in steps of its quantum (R117): at home it is field time (R124). -/
def State.gtime (s : State) (n : Nat) (raw : FTime) : FTime :=
  if isHome n then s.now
  else
    let g := s.gon n
    let d := (raw - g.rawRef).toNat * g.rateNum / max 1 g.rateDen
    let off : Int := if g.timeIv = 0 then 0 else g.slew * min d g.timeIv / (g.timeIv : Int)
    let q := s.gquant n
    BitVec.ofNat 64 ((g.locRef + BitVec.ofNat 64 d + BitVec.ofInt 64 off).toNat / q * q)

/-- The key under which the device knows the gondola. -/
def State.gkeyOf (s : State) (n : Nat) : Nat := gkey (n / 64) ((s.gpos n).getD 0)

/-! ### Registers of a gondola (R122) -/

def aG_CTL : Nat := 0x040
def aG_STAT : Nat := 0x044
def aG_CLR : Nat := 0x048
def aG_SIL : Nat := 0x04C
def aG_TPER : Nat := 0x050
def aG_TPH_LO : Nat := 0x054
def aG_TPH_HI : Nat := 0x058
def aG_DLN : Nat := 0x05C
def aG_QW_W : Nat := 0x060
def aG_QW_E : Nat := 0x064
def aG_DPROP : Nat := 0x068
def aG_PLAN : Nat := 0x06C
def aG_ACT_LO : Nat := 0x070
def aG_ACT_HI : Nat := 0x074
def aG_CNT (k : Nat) : Nat := 0x080 + 4 * k
def aCH_CFG (c : Nat) : Nat := 0x200 + 16 * c
def aCH_CNT (c : Nat) : Nat := 0x204 + 16 * c

/-- Gondola counters (R122). -/
def gcCRC_OWN : Nat := 3
def gcCRC_FWD : Nat := 4
def gcMISSED : Nat := 5
def gcSEQERR : Nat := 6
def gcLATEDN : Nat := 7
def gcLATECHG : Nat := 8
def gcDWELLPP : Nat := 9
def gcEVLATE : Nat := 10
def gcEVFULL : Nat := 11
def gcLOCKLOSS : Nat := 12
def gcSILENT : Nat := 13
def gcFORCE : Nat := 14
def gcRIPDROP : Nat := 15

/-- Reset value of a gondola register. -/
def greset (a : Nat) : Word := if a = aG_SIL then 3 else 0

/-- Bits of type sh of a gondola register. -/
def gsh (a : Nat) : Nat :=
  if a ∈ [aG_TPER, aG_TPH_LO, aG_TPH_HI, aG_DLN, aG_QW_W, aG_QW_E, aG_DPROP] then 0xFFFFFFFF
  else if a = aG_PLAN then 0xFFFF
  else if 0x200 ≤ a ∧ a < 0x300 ∧ a % 16 = 0 then 0xFFF00D else 0

/-- Bits of type rw of a gondola register. -/
def grw (a : Nat) : Nat :=
  if a = aG_CTL then 1 else if a = aG_SIL then 0xF else if a = aG_ACT_LO ∨ a = aG_ACT_HI then 0xFFFFFFFF
  else if 0x200 ≤ a ∧ a < 0x300 ∧ a % 16 = 0 then 0xFF0 else 0

/-- The working value of a register of a gondola. -/
def Gondola.greg (g : Gondola) (a : Nat) : Word := tget (greset a) g.regs a
def Gondola.setGreg (g : Gondola) (a : Nat) (v : Word) : Gondola := { g with regs := tset (greset a) g.regs a v }
/-- The staged value of the sh bits of a register. -/
def Gondola.gstage (g : Gondola) (a : Nat) : Word := tget 0 g.stage a
def Gondola.setGstage (g : Gondola) (a : Nat) (v : Word) : Gondola := { g with stage := tset 0 g.stage a v }

/-- Where a node keeps a register: G_PLAN and CH_CFG of address 1 are its own, all else is mirrored (R125). -/
def regNode (n a : Nat) : Nat := if a = aG_PLAN ∨ 0x200 ≤ a then n else baseNode n

/-- A register of a node. -/
def State.greg (s : State) (n a : Nat) : Word := (s.gon (regNode n a)).greg a

def State.gTPER (s : State) (n : Nat) : Nat := (s.greg n aG_TPER).toNat
def State.gTPH (s : State) (n : Nat) : FTime := join64 (s.greg n aG_TPH_LO) (s.greg n aG_TPH_HI)
def State.gDLN (s : State) (n : Nat) : Nat := (s.greg n aG_DLN).toNat
def State.gPLAN (s : State) (n : Nat) : Nat := (s.greg n aG_PLAN).toNat % 65536
/-- Is a channel in the gondola's tick plan? -/
def State.gInPlan (s : State) (n c : Nat) : Bool := (s.gPLAN n).testBit c

/-- The tick divider of a channel (R101). -/
def State.gCDIV (s : State) (n c : Nat) : Nat := 2 ^ bget (s.greg n (aCH_CFG c)) ⟨2, 2⟩

/-- Count in a gondola counter. -/
def State.gcount (s : State) (n k : Nat) : State := s.updGon (baseNode n) (fun g => g.countN k 1)

/-! ### Ticks (R100, R101) -/

/-- The tick a local time lies in, and its start. -/
def State.gTick (s : State) (n : Nat) (t : FTime) : Int := tickAt (s.gTPH n) (s.gTPER n) t
def State.gTickStart (s : State) (n : Nat) (k : Int) : FTime := tickStartOf (s.gTPH n) (s.gTPER n) k

/-- Does the gondola count ticks (R100)? -/
def State.gTicking (s : State) (n : Nat) : Bool := (s.gpos n).isSome && s.gTPER n != 0

/-- The channels of a node due at tick `k`, ascending (R101). -/
def State.gDue (s : State) (n : Nat) (k : Int) : List Nat :=
  idx 16 (fun c => s.gInPlan n c && divides (s.gCDIV n c) k)

/-- The nodes of a gondola: the home gondola has two. -/
def nodesOf (n : Nat) : List Nat := if isHome n then [homeNode, homeBal] else [n]

/-- Every due channel of the whole gondola. -/
def State.gAllDue (s : State) (n : Nat) (k : Int) : List (Nat × Nat) :=
  (nodesOf n).flatMap (fun m => (s.gDue m k).map (fun c => (m, c)))

/-- Bits [7:0] of a tick number. -/
def tickByte (k : Int) : BitVec 8 := BitVec.ofInt 8 k

/-- The timer instant nearest to a time, the later when midway (R104). -/
def nearest (q : Nat) (t : FTime) : FTime := BitVec.ofNat 64 ((2 * t.toNat + q) / (2 * q) * q)

/-- The last timer instant at or before a time. -/
def floorInstant (q : Nat) (t : FTime) : FTime := BitVec.ofNat 64 (t.toNat / q * q)

/-! ### Legs (R105) -/

/-- The legs of a channel. -/
def State.gLegs (s : State) (n c : Nat) : Nat := min 4 (descLEGS (s.gdesc n c))

/-- The home leg of a channel's leg (R244). -/
def State.homeLeg (s : State) (c k : Nat) : Nat := s.wfld (rPGN_HCH c) fPGN_HCH_LEG0 + k

/-- Is a channel a ballast channel (R95)? -/
def State.isBal (s : State) (n c : Nat) : Bool := descTYPE (s.gdesc n c) == 3

/-- Dead time of a leg in field-time units (R93, R232). -/
def State.legDead (s : State) (n c k : Nat) : Nat :=
  if n = homeNode then s.wfld (rPGN_LEG (s.homeLeg c k)) fPGN_LEG_TDEAD * 40 else idTDEAD (s.gident n) * 16

/-- Minimum pulse of a leg in field-time units. -/
def State.legMinp (s : State) (n c k : Nat) : Nat :=
  if n = homeNode then s.wfld (rPGN_LEG (s.homeLeg c k)) fPGN_LEG_TMINP * 40 else idTMINP (s.gident n) * 16

/-- Does a leg never turn its low side on (R232)? -/
def State.legNoLow (s : State) (n c k : Nat) : Bool :=
  s.isBal n c || (n == homeNode && s.wflag (rPGN_LEG (s.homeLeg c k)) fPGN_LEG_NOLOW)

/-- MINON and MINOFF of a leg (R232). -/
def State.legMin (s : State) (n c k : Nat) : Nat :=
  s.legMinp n c k + (if s.legNoLow n c k then 0 else s.legDead n c k)

/-- The last level commanded of a leg. -/
def Leg.last (l : Leg) : BitVec 2 := match l.q.getLast? with
  | some e => e.2
  | none => l.old

/-- Forget the changes of a leg that a later executed change has replaced by time `t`. -/
def legPrune (t : FTime) : BitVec 2 → List (FTime × BitVec 2) → BitVec 2 × List (FTime × BitVec 2)
  | o, [] => (o, [])
  | o, [e] => (o, [e])
  | o, e :: f :: r => if reached t f.1 then legPrune t e.2 (f :: r) else (o, e :: f :: r)

/-- The level of a leg at a time: both off within a dead time (R105). -/
def legLevel (dead : Nat) (t : FTime) : BitVec 2 → List (FTime × BitVec 2) → BitVec 2
  | o, [] => o
  | o, e :: r =>
    if !reached t e.1 then o
    else match r with
      | f :: _ => if reached t f.1 then legLevel dead t e.2 r
        else if o ≠ 0 ∧ e.2 ≠ 0 ∧ o ≠ e.2 ∧ !reached t (e.1 + BitVec.ofNat 64 dead) then 0 else e.2
      | [] => if o ≠ 0 ∧ e.2 ≠ 0 ∧ o ≠ e.2 ∧ !reached t (e.1 + BitVec.ofNat 64 dead) then 0 else e.2

/-- Cancel the changes of a leg not yet executed at a time (R103): the dwell is that of the change before them. -/
def legCancel (t : FTime) (dead minp : Nat) (l : Leg) : Leg :=
  let q := l.q.filter (fun e => reached t e.1)
  { l with q := q, dwellEnd := match q.getLast? with
      | some e => e.1 + BitVec.ofNat 64 (dead + minp)
      | none => l.dwellEnd }

/-- Set a leg at a time whatever its dwell: forcing, silence and carrier edges. Changes not yet executed are dropped. -/
def legForce (t : FTime) (v : BitVec 2) (dead minp : Nat) (l : Leg) : Leg :=
  let q := l.q.filter (fun e => reached t e.1)
  let l : Leg := { l with q := q }
  if l.last = v then l
  else
    let p := legPrune t l.old (q ++ [(t, v)])
    { old := p.1, q := p.2, dwellEnd := t + BitVec.ofNat 64 (dead + minp) }

/-- A change of a leg commanded at a time (R105): inside the dwell it is postponed to its end. Answers whether it was. -/
def legChange (t : FTime) (v : BitVec 2) (dead minp : Nat) (l : Leg) : Leg × Bool :=
  if l.last = v then (l, false)
  else
    let late := l.q ≠ [] ∧ !reached t l.dwellEnd
    let x := if late then l.dwellEnd else t
    let p := legPrune t l.old (l.q ++ [(x, v)])
    ({ old := p.1, q := p.2, dwellEnd := x + BitVec.ofNat 64 (dead + minp) }, decide late)

/-- The level a vector byte gives leg `k` (R63): 0b11 is executed as both off. -/
def vecLevel (v k : Nat) : BitVec 2 :=
  let x := (v >>> (2 * k)) % 4
  if x = 3 then 0 else BitVec.ofNat 2 x

def GChan.leg (c : GChan) (k : Nat) : Leg := tget {} c.legs k
def GChan.setLeg (c : GChan) (k : Nat) (l : Leg) : GChan := { c with legs := tset {} c.legs k l }

/-! ### Overrides (R114) -/

/-- Does fault latch `i` of the home gondola cover a leg (R245)? -/
def State.fltCovers (s : State) (i leg : Nat) : Bool :=
  if leg < 32 then (s.wfld (rPGN_FLT_MASK0 i) fPGN_FLT_MASK0_LEGS).testBit leg
  else (s.wfld (rPGN_FLT_MASK1 i) fPGN_FLT_MASK1_LEGS).testBit (leg - 32)

/-- Is fault latch `i` set, and the software force latch (R245, R247)? -/
def State.fltLatch (s : State) (i : Nat) : Bool := (s.fget rPGN_HSTAT fPGN_HSTAT_LATCH).testBit i
def State.swLatch (s : State) : Bool := s.flag rPGN_HSTAT fPGN_HSTAT_SWLATCH

/-- Is a leg of the home gondola forced (R245, R247)? -/
def State.homeForced (s : State) (leg : Nat) : Bool :=
  s.swLatch || (List.range 4).any (fun i => s.fltLatch i && s.fltCovers i leg)

/-- Is a ballast output of the home gondola forced off? -/
def State.balForced (s : State) (c : Nat) : Bool :=
  s.swLatch || (List.range 4).any (fun i => s.fltLatch i &&
    s.wflag (rPGN_FLT_MASK1 i) (if c = 0 then fPGN_FLT_MASK1_BAL0 else fPGN_FLT_MASK1_BAL1))

/-- A SAFE field's level (R112, R245): low side on, or both off. -/
def safeLevel (x : Nat) : BitVec 2 := if x = 1 then 1 else 0

/-- Is a leg of a channel held by fault forcing, and at which level? -/
def State.forceLevel (s : State) (n c k : Nat) : Option (BitVec 2) :=
  if n = homeBal then (if s.balForced c then some 0 else none)
  else if n = homeNode then
    (if s.homeForced (s.homeLeg c k) then some (safeLevel (s.wfld (rPGN_LEG (s.homeLeg c k)) fPGN_LEG_SAFE)) else none)
  else if ((s.gon n).chan c).forced then some (safeLevel (bget (s.greg n (aCH_CFG c)) ⟨4 + 2 * k, 2⟩)) else none

/-- Is any leg of a channel forced? -/
def State.chForced (s : State) (n c : Nat) : Bool :=
  (List.range (max 1 (s.gLegs n c))).any (fun k => (s.forceLevel n c k).isSome)

/-- Is the gondola's power stage disabled by its rip input (R120, R121)? -/
def State.ripOff (s : State) (n : Nat) : Bool := s.hasRip n && (s.gon n).ripLatch

/-- The level that a state of higher precedence than records holds a leg at (R114). -/
def State.legOver (s : State) (n c k : Nat) : Option (BitVec 2) :=
  let g := s.gon (baseNode n)
  if s.ripOff n then some 0
  else match s.forceLevel n c k with
    | some v => some v
    | none =>
      if g.sil ∨ bget (g.greg aG_CTL) ⟨0, 1⟩ = 1 then some 0
      else if (s.gpos n).isNone ∨ !s.gInPlan n c then some 0 else none

/-- Put a level on a leg unless an override holds it; then the override's level. While the core is halted the change needs no clock: it
stands as done (R15, R248). -/
def State.legPut (s : State) (n c k : Nat) (t : FTime) (v : BitVec 2) : State :=
  let v := (s.legOver n c k).getD v
  s.updGon n (fun g => g.updChan c (fun ch => ch.setLeg k (
    if isHome n && s.time.halted then { old := v, q := [], dwellEnd := t }
    else legForce t v (s.legDead n c k) (s.legMinp n c k) (ch.leg k))))

/-- Command a change of a leg under the dwell rule (R105), counted in DWELLPP when it is postponed. -/
def State.legCmd (s : State) (n c k : Nat) (t : FTime) (v : BitVec 2) : State :=
  if (s.legOver n c k).isSome then s.legPut n c k t v
  else
    let r := legChange t v (s.legDead n c k) (s.legMinp n c k) (((s.gon n).chan c).leg k)
    let s := s.updGon n (fun g => g.updChan c (fun ch => ch.setLeg k r.1))
    if r.2 then s.gcount n gcDWELLPP else s

/-- A new record of a channel cancels the changes of the one before that are not yet executed (R103). -/
def State.legsCancel (s : State) (n c : Nat) (t : FTime) : State :=
  (List.range (s.gLegs n c)).foldl (fun s k =>
    s.updGon n (fun g => g.updChan c (fun ch => ch.setLeg k (legCancel t (s.legDead n c k) (s.legMinp n c k) (ch.leg k))))) s

/-- Command all legs of a channel. -/
def State.legsCmd (s : State) (n c : Nat) (t : FTime) (f : Nat → BitVec 2) : State :=
  (List.range (s.gLegs n c)).foldl (fun s k => s.legCmd n c k t (f k)) s

/-- A leg's carry is lost in a period in which a state of higher precedence holds the leg (R239). -/
def Carrier.hold (k : Carrier) (i : Nat) : Carrier := if k.held.contains i then k else { k with held := i :: k.held }

/-- Bring the legs of a channel under the overrides in force: a held leg takes its level and loses its carry, any other keeps what it has. -/
def State.overCh (s : State) (n c : Nat) (t : FTime) : State :=
  let ks := (List.range 4).filter (fun k => decide (k < max 1 (s.gLegs n c)) && (s.legOver n c k).isSome)
  let s := if ks = [] ∨ ((s.gon n).chan c).carrier = none then s
    else s.updGon n (fun g => g.updChan c (fun ch => { ch with carrier := ch.carrier.map (fun x => ks.foldl Carrier.hold x) }))
  (List.range (max 1 (s.gLegs n c))).foldl (fun s k => match s.legOver n c k with
    | some v => if (((s.gon n).chan c).leg k).last = v then s else s.legPut n c k t v
    | none => s) s

/-- Does a leg of the home gondola belong to no channel? -/
def State.spareLeg (s : State) (l : Nat) : Bool :=
  (List.range 16).all (fun c => !(decide (s.homeLeg c 0 ≤ l) && decide (l < s.homeLeg c 0 + s.gLegs homeNode c)))

/-- Show the level of a leg in a register field; `w1`: one bit, 1 for high. -/
def State.showLeg (s : State) (t : FTime) (n c k o : Nat) (b : Bits) (w1 : Bool) : State :=
  let l := ((s.gon n).chan c).leg k
  let v := legLevel (s.legDead n c k) t l.old l.q
  s.fset o b (if w1 then (if v = 2 then 1 else 0) else v.toNat)

/-- Two bits of PGN_LEGSTj for each leg of the home gondola (R249). -/
def legstField (l : Nat) : Bits := ⟨2 * (l % 16), 2⟩

/-- Show the legs of one channel of the home gondola. -/
def State.showCh (t : FTime) (s : State) (c : Nat) : State :=
  (List.range (s.gLegs homeNode c)).foldl (fun s k =>
    let l := s.homeLeg c k
    if l < 48 then s.showLeg t homeNode c k (rPGN_LEGST (l / 16)) (legstField l) false else s) s

/-- Show a leg of no channel: it is off unless it is forced (R114, R245). -/
def State.showSpare (s : State) (l : Nat) : State :=
  if s.homeForced l && s.spareLeg l then
    s.fset (rPGN_LEGST (l / 16)) (legstField l) (safeLevel (s.wfld (rPGN_LEG l) fPGN_LEG_SAFE)).toNat
  else s

/-- The leg states of the home gondola as PGN_LEGSTj and BALON show them (R249). -/
def State.homeView (s : State) (t : FTime) : State :=
  let s := (List.range 3).foldl (fun s j => s.rset (rPGN_LEGST j) 0) s
  let s := (List.range 16).foldl (State.showCh t) s
  let s := (List.range 48).foldl State.showSpare s
  (List.range 2).foldl (fun s c => s.showLeg t homeBal c 0 rPGN_HSTAT ⟨24 + c, 1⟩ true) s

/-- Refresh what shows the legs of a gondola after an effect on them. -/
def State.gview (s : State) (n : Nat) (t : FTime) : State := if isHome n then s.homeView t else s

/-- Bring every channel of a gondola under the overrides in force. -/
def State.overAll (s : State) (n : Nat) (t : FTime) : State :=
  ((nodesOf n).foldl (fun s m => (List.range 16).foldl (fun s c => s.overCh m c t) s) s).gview n t

end Sys2Proof.Machine
end

