-- ==== Sys2Proof/Machine/Carrier.lean ====
section
/-! DEFINITION. Carriers (R225-R243): pairs, periods, minimum pulses, edges with dither, reloads, and the samples under a carrier.
Times inside a carrier are in 1/16 of a field-time unit. -/
namespace Sys2Proof.Machine

/-! ### Pairs -/

/-- Is a pair a PWM pair (R226)? -/
def pairPwm (p : BitVec 128) : Bool := recKIND p == kPWM

/-- CARRIER of a PWM pair: edge-aligned, centre-aligned, CON, COFF. -/
def cEDGE : Nat := 0
def cCENTRE : Nat := 1
def cCON : Nat := 2
def cCOFF : Nat := 3

/-- Have two pairs the same kind and carrier (R234)? -/
def sameCarrier (a b : BitVec 128) : Bool := pairPwm a == pairPwm b && (!pairPwm a || pwmCARRIER a == pwmCARRIER b)

/-- The PERIOD field of a pair. -/
def pairPERIOD (p : BitVec 128) : Nat := if pairPwm p then pwmPERIOD p else spwmPERIOD p

/-- PERIOD as a gondola executes it, in 1/16 units: not below 4,000 units nor below 32 quanta (R228). -/
def pairPer16 (q : Nat) (p : BitVec 128) : Nat := 16 * max (pairPERIOD p) (max 4000 (32 * q))

/-- Does the cap of 16 constant times apply (R230)? -/
def pairCapped (p : BitVec 128) : Bool :=
  let d := if pwmCARRIER p = cCON then pwmD p 0 else 2 ^ 20 - pwmD p 0
  d == 0 || decide (16 * d < 2 ^ 20)

/-- Length of the period a pair gives, in 1/16 units (R229-R231). -/
def pairP16 (q : Nat) (p : BitVec 128) : Nat :=
  let per := pairPer16 q p
  if pairPwm p ∧ cCON ≤ pwmCARRIER p then
    if pairCapped p then 16 * per
    else per * 2 ^ 20 / (if pwmCARRIER p = cCON then pwmD p 0 else 2 ^ 20 - pwmD p 0)
  else per

/-- Is leg `k` a carrier leg of a pair (R230, R231)? -/
def pairLeg (p : BitVec 128) (k : Nat) : Bool :=
  if !pairPwm p then decide (k < 3) else if cCON ≤ pwmCARRIER p then k == 0 else decide (k < 4)

/-- On-time of a carrier leg in 1/16 units (R229-R231). -/
def pairOn16 (q : Nat) (p : BitVec 128) (k : Nat) : Nat :=
  let len := pairP16 q p
  if !pairPwm p then spwmON p k * len / 2 ^ 16
  else if pwmCARRIER p < cCON then len * pwmD p k / 2 ^ 20
  else if pairCapped p then pwmD p 0 * len / 2 ^ 20
  else if pwmCARRIER p = cCON then pairPer16 q p else len - pairPer16 q p

/-- Does a duty hold its leg on for the whole period (R229)? -/
def pairFull (p : BitVec 128) (k : Nat) : Bool := pairPwm p && decide (pwmCARRIER p < cCON) && pwmD p k == 0xFFFFF

/-- The static level of a leg that is no carrier leg (R230, R231). -/
def pairStatic (p : BitVec 128) (k : Nat) : BitVec 2 := if pairPwm p then vecLevel (pwmD p k % 4) 0 else 0

/-- Does a pair keep unemitted volt-seconds (R238)? SPWM has no CARRY. -/
def pairCarry (p : BitVec 128) : Bool := pairPwm p && pwmCARRY p

/-- Does a pair reload at mid-period (R234)? -/
def pairMid (p : BitVec 128) : Bool := pairPwm p && pwmCARRIER p == cCENTRE && pwmUPD p

/-! ### Minimum pulses (R238) -/

/-- What a leg delivers of an effective on-time, and whether a pulse or gap was not emitted. -/
def deliver (onE len minp : Int) (full : Bool) : Int × Bool :=
  if full then (len, false)
  else if onE ≤ 0 then (0, false)
  else if onE < minp then (0, true)
  else if len - onE < minp then (len, true)
  else (onE, false)

/-! ### Dither (R240) -/

/-- The four bits of a number in reverse order. -/
def bitrev4 (j : Nat) : Nat := (j % 2) * 8 + (j / 2 % 2) * 4 + (j / 4 % 2) * 2 + j / 8 % 2

/-- The timer instant at which an edge at `x` (1/16 units) executes in period `j`. -/
def ditherAt (q j x : Nat) : FTime :=
  let a := x / (16 * q) * (16 * q)
  let r := (x - a) / q
  BitVec.ofNat 64 ((a + if bitrev4 (j % 16) < r then 16 * q else 0) / 16)

/-! ### Windows of the pulse registers (R249, R250) -/

/-- The registers that show a channel's carrier: SEQ, MINP, OVWR and STAT of its axis or bus group. -/
structure PulseWin where
  seq : Nat
  minp : Nat
  ovwr : Nat
  stat : Nat

/-- The axis that the committed plan puts on a channel. -/
def State.axisAt (s : State) (key c : Nat) : Option Nat := (s.gonAxes key).find? (fun n => s.axCh n == c)

/-- Sense gondola and ballast channel of a bus group (R309, R314). -/
def State.busBal (s : State) (b : Nat) : Option (Nat × Nat) :=
  let ch := s.wfld (rBUS_G_CFG b) fBUS_G_CFG_BALCH
  if !s.wflag (rBUS_G_CFG b) fBUS_G_CFG_EN ∨ ch = 15 then none
  else if b < 2 then some (homeBal, b)
  else some (s.gk (s.wfld (rBUS_G_CFG b) fBUS_G_CFG_STETH) (s.wfld (rBUS_G_CFG b) fBUS_G_CFG_SPOS), ch)

/-- The window of a channel of a node. -/
def State.pulseWin (s : State) (n c : Nat) : Option PulseWin :=
  let key := if n = homeBal then homeBal else s.gkeyOf n
  match if n = homeBal then none else s.axisAt key c with
  | some a => some ⟨rPGN_SEQ a, rPGN_MINP a, rPGN_OVWR a, rPGN_STAT a⟩
  | none => ((List.range 32).find? (fun b => s.busBal b == some (key, c))).map
      (fun b => ⟨rPGN_B_SEQ b, rPGN_B_MINP b, rPGN_B_OVWR b, rPGN_B_STAT b⟩)

/-- Act on the window of a channel, if it has one. -/
def State.onWin (s : State) (n c : Nat) (f : PulseWin → State → State) : State :=
  match s.pulseWin n c with
  | some w => f w s
  | none => s

/-! ### Periods -/

/-- Absolute time of a carrier's period in 1/16 units. -/
def Carrier.base16 (k : Carrier) : Nat := k.start.toNat * 16 + k.startFr
/-- End of the period. -/
def Carrier.end16 (k : Carrier) : Nat := k.base16 + k.period16

/-- An entry of a list of four, zero beyond. -/
def nth4 (l : List Int) (k : Nat) : Int := l.getD k 0

/-- On and off edge of a leg in a period, from the period's start (R229-R231). -/
def legEdges (p : BitVec 128) (k : Nat) (len onE : Int) : Int × Int :=
  if !pairPwm p then
    let lim := (2 ^ 16 - (spwmON p k : Int)) / 2
    let sh := max (-lim) (min lim (spwmSHIFT p k))
    let ctr := len / 2 + sh * len / 2 ^ 16
    (ctr - onE / 2, ctr - onE / 2 + onE)
  else if pwmCARRIER p = cCENTRE then ((len - onE) / 2, (len + onE) / 2)
  else (0, onE)

/-- The edges of a leg in a period as they will execute: a leg off throughout only falls, one on throughout only rises. -/
def edgePair (q j base : Nat) (p : BitVec 128) (k : Nat) (len onE minp : Int) (full : Bool) : Option FTime × Option FTime :=
  let d := (deliver onE len minp full).1
  if d = 0 then (none, some (ditherAt q j base))
  else if d = len then (some (ditherAt q j base), none)
  else
    let e := legEdges p k len d
    (some (ditherAt q j (base + e.1.toNat)), some (ditherAt q j (base + e.2.toNat)))

/-- Samples under a carrier (R241, R242): count and offsets from the period's start in 1/16 units. -/
def carrierSamples (p : BitVec 128) (len onE0 : Int) (shunt : Bool) (win : Int) : Nat × Int × Int :=
  if pairPwm p then
    let on := decide (len ≤ 2 * onE0)
    if pwmCARRIER p = cCENTRE then (1, if on then len / 2 else 0, 0)
    else (1, if on then onE0 / 2 else (len + onE0) / 2, 0)
  else if !shunt then (1, len / 2, 0)
  else
    let key := fun k => (spwmON p k : Int) * 4 + (3 - (k : Int))
    let a := if key 0 > key 1 ∧ key 0 > key 2 then 0 else if key 1 > key 2 then 1 else 2
    let c := if key 0 < key 1 ∧ key 0 < key 2 then 0 else if key 1 < key 2 then 1 else 2
    let b := 3 - a - c
    let at_ := fun k => (legEdges p k len ((spwmON p k : Int) * len / 2 ^ 16)).1
    if at_ b - at_ a < win ∨ at_ c - at_ b < win then (0, 0, 0)
    else (2, at_ a, at_ b)

/-- An offset from a tick start in 0.25 ns, rounded to the nearest, of a time in 1/16 units. -/
def quarterNs (x16 : Nat) (tk : FTime) : Nat := ((x16 : Int) - 16 * (tk.toNat : Int) + 32).toNat / 64

/-- The latest due tick start of a channel at or before a time (R101). -/
def State.dueStart (s : State) (n c : Nat) (t : FTime) : FTime :=
  let k := s.gTick n t
  s.gTickStart n (k - k % (s.gCDIV n c : Int))

/-- The samples of a tick lie in the first period that begins at or after its start (R241): place them. -/
def State.placeSamples (s : State) (n c : Nat) (p : BitVec 128) (base : Nat) (len onE0 : Int) : State :=
  let tk := s.dueStart n c (BitVec.ofNat 64 (base / 16))
  let ch := (s.gon n).chan c
  if ch.smpTk = some tk then s
  else
    let id := s.gident n
    let shunt := descSENSE (s.gdesc n c) == 3
    let lead : Int := 256 * ((idTDEAD id : Int) + idTSET id)
    let r := carrierSamples p len onE0 shunt (lead + 16 * (s.gquant n : Int))
    let add := if pairPwm p ∨ !shunt then 0 else lead
    let nsmp := if (s.gon n).missedFlag then 0 else r.1
    s.updGon n (fun g => g.updChan c (fun ch =>
      { ch with smpTk := some tk, nsmp := nsmp, s1 := quarterNs (base + (r.2.1 + add).toNat) tk,
                s2 := quarterNs (base + (r.2.2 + add).toNat) tk }))

/-- Begin a period of a channel under a pair, at `base` (1/16 units), with its index and the carries of its legs. -/
def State.beginPeriod (s : State) (n c : Nat) (p : BitVec 128) (base j : Nat) (carry : List Int) : State :=
  let q := s.gquant n
  let len : Int := pairP16 q p
  let legs := s.gLegs n c
  let cs := (List.range 4).map (fun k => if (s.legOver n c k).isSome then 0 else nth4 carry k)
  let full := fun k => pairFull p k && nth4 cs k == 0
  let onE := (List.range 4).map (fun k =>
    if k < legs ∧ pairLeg p k = true then (if full k then len else (pairOn16 q p k : Int) + nth4 cs k) else 0)
  let edges := (List.range 4).map (fun k =>
    if k < legs ∧ pairLeg p k = true then edgePair q j base p k len (nth4 onE k) (16 * s.legMin n c k) (full k) else (none, none))
  let st := BitVec.ofNat 64 (base / 16)
  let s := s.updGon n (fun g => g.updChan c (fun ch =>
    { ch with carrier := some { pair := p, start := st, startFr := base % 16, period16 := len.toNat, j := j, carry := cs,
                                onE := onE, edges := edges } }))
  let s := (List.range legs).foldl (fun s k => if pairLeg p k then s else s.legCmd n c k st (pairStatic p k)) s
  s.placeSamples n c p base len (nth4 onE 0)

/-- The carries of the next period, and the pulses or gaps not emitted in the one that ends (R238). -/
def State.endPeriod (s : State) (n c : Nat) (k : Carrier) : State × List Int :=
  let res := (List.range 4).map (fun i =>
    if i < s.gLegs n c ∧ pairLeg k.pair i = true then
      let f := pairFull k.pair i && nth4 k.carry i == 0
      let d := deliver (nth4 k.onE i) k.period16 (16 * s.legMin n c i) f
      ((if pairCarry k.pair ∧ (s.legOver n c i).isNone ∧ !k.held.contains i then nth4 k.onE i - d.1 else 0), d.2)
    else (0, false))
  let hits := (res.filter (fun r => r.2)).length
  (s.onWin n c (fun w s => if hits = 0 then s else s.countN w.minp hits), res.map (fun r => r.1))

/-! ### Shadow and reload -/

/-- Stop a carrier (R233): edges not yet executed are dropped and the shadow is emptied. -/
def GChan.stopCarrier (c : GChan) : GChan := { c with carrier := none, shadow := none, startPend := false }

/-- A pair is written to the shadow (R226, R236): over a new pair it replaces it, and the replaced one is counted. -/
def State.shadowWrite (s : State) (n c : Nat) (p : BitVec 128) (t : FTime) (tick : BitVec 8) : State :=
  let ch := (s.gon n).chan c
  let s := s.onWin n c (fun w s =>
    let s := if ch.shadow.isSome then s.count w.ovwr else s
    s.fset w.seq fPGN_SEQ_TICKW tick.toNat)
  s.updGon n (fun g => g.updChan c (fun ch => { ch with shadow := some p, shadowAt := t, shadowTick := tick }))

/-- The shadow is consumed (R237): its new mark clears, SHADOW_SEQ advances, TICKC is its tick. -/
def State.shadowTake (s : State) (n c : Nat) : State :=
  let tick := ((s.gon n).chan c).shadowTick
  let s := s.onWin n c (fun w s =>
    (s.fset w.seq fPGN_SEQ_SHADOW_SEQ (s.fget w.seq fPGN_SEQ_SHADOW_SEQ + 1)).fset w.seq fPGN_SEQ_TICKC tick.toNat)
  s.updGon n (fun g => g.updChan c (fun ch => { ch with shadow := none }))

/-- What a reload at instant `r` finds (R234, R236): the pair it takes, and whether a pair was written at `r` itself. -/
def GChan.reloadPair (ch : GChan) (q : Nat) (force : BitVec 128) (r : FTime) (mid : Bool) : Option (BitVec 128) × Bool :=
  match ch.shadow with
  | none => (none, false)
  | some p =>
    let takes := if mid then sameCarrier p force else (!pairMid force || !sameCarrier p force)
    if !takes then (none, false)
    else
      let w := floorInstant q ch.shadowAt
      if w = r then (none, true) else if reached r w then (some p, false) else (none, false)

/-- A mid-period reload that takes a pair reshapes the period in progress (R235). -/
def State.reshape (s : State) (n c : Nat) (k : Carrier) (p : BitVec 128) (r : FTime) : State :=
  let q := s.gquant n
  let len' : Int := pairP16 q p
  let half : Int := k.period16 / 2
  let legs := s.gLegs n c
  let changes := pairPERIOD p ≠ pairPERIOD k.pair
  let cs := (List.range 4).map (fun i => if changes then 0 else nth4 k.carry i)
  let on' := fun i => (pairOn16 q p i : Int)
  let onE := (List.range 4).map (fun i =>
    if i < legs ∧ pairLeg p i = true then (pairOn16 q k.pair i : Int) / 2 + on' i / 2 + nth4 cs i else 0)
  let len := half + len' / 2
  let isOn := fun i => (((s.gon n).chan c).leg i).last == 2
  let edges := (List.range 4).map (fun i =>
    if i < legs ∧ pairLeg p i = true then
      let d := (deliver (nth4 onE i) len (16 * s.legMin n c i) false).1
      if d = 0 ∨ on' i = 0 then (none, some (ditherAt q k.j (k.base16 + half.toNat)))
      else
        ((if isOn i then none else some r),
          if d = len then none else some (ditherAt q k.j (k.base16 + (half + on' i / 2).toNat)))
    else (none, none))
  s.updGon n (fun g => g.updChan c (fun ch =>
    { ch with carrier := some { k with pair := p, period16 := len.toNat, midDone := true, carry := cs, onE := onE, edges := edges } }))

/-- Has a time in 1/16 units come? -/
def come (now : FTime) (x16 : Nat) : Bool := reached now (BitVec.ofNat 64 ((x16 + 15) / 16))

/-- CARRIER_RELOAD (R234-R239): the mid-period reload of UPD, or the period boundary. -/
def execCarrierReload (n : Nat) (c : Fin 16) (now : FTime) (s : State) : Out :=
  let now := s.gtime n now
  let ch := (s.gon n).chan c
  match ch.carrier with
  | none => .next s
  | some k =>
    let q := s.gquant n
    let mid := pairMid k.pair && !k.midDone
    let x := if mid then k.base16 + k.period16 / 2 else k.end16
    if !come now x then .next s
    else
      let r := nearest q (BitVec.ofNat 64 ((x + 15) / 16))
      let f := ch.reloadPair q k.pair r mid
      let s := if f.2 then s.onWin n c (fun w s => s.raise w.stat fPGN_STAT_RACE) else s
      if mid then
        match f.1 with
        | some p => .next ((s.shadowTake n c).reshape n c k p r)
        | none => .next (s.updGon n (fun g => g.updChan c (fun ch => { ch with carrier := some { k with midDone := true } })))
      else
        let e := s.endPeriod n c k
        match f.1 with
        | some p =>
          let keep := sameCarrier p k.pair && pairPERIOD p == pairPERIOD k.pair
          .next (((e.1.shadowTake n c).beginPeriod n c p k.end16 (k.j + 1) (if keep then e.2 else [0, 0, 0, 0])).gview n now)
        | none => .next ((e.1.beginPeriod n c k.pair k.end16 (k.j + 1) e.2).gview n now)

/-- The edges of a leg. -/
def Carrier.edge (k : Carrier) (i : Nat) : Option FTime × Option FTime := k.edges.getD i (none, none)

/-- A carrier without one of its edges. -/
def Carrier.dropEdge (k : Carrier) (i : Nat) (off : Bool) : Carrier :=
  { k with edges := (List.range 4).map (fun m => if m = i then (if off then ((k.edge m).1, none) else (none, (k.edge m).2)) else k.edge m) }

/-- CARRIER_EDGE (R229-R232, R240): an edge whose instant has come turns its leg's high side on, or off and the low side on. -/
def execCarrierEdge (n : Nat) (c : Fin 16) (leg : Fin 4) (off : Bool) (now : FTime) (s : State) : Out :=
  let now := s.gtime n now
  match ((s.gon n).chan c).carrier with
  | none => .next s
  | some k =>
    match if off then (k.edge leg).2 else (k.edge leg).1 with
    | none => .next s
    | some t =>
      if !reached now t then .next s
      else
        let s := s.updGon n (fun g => g.updChan c (fun ch => { ch with carrier := some (k.dropEdge leg off) }))
        let v : BitVec 2 := if !off then 2 else if s.legNoLow n c leg then 0 else 1
        .next ((s.legPut n c leg t v).gview n now)

/-- CARRIER_START (R233): at the next tick start of the channel's class the first period begins under the new pair. -/
def execCarrierStart (n : Nat) (c : Fin 16) (now : FTime) (s : State) : Out :=
  let now := s.gtime n now
  let ch := (s.gon n).chan c
  match ch.startPend, ch.shadow with
  | true, some p =>
    let t := s.dueStart n c now
    if s.gTicking n ∧ reached t (ch.shadowAt + 1) then
      let s := (s.shadowTake n c).updGon n (fun g => g.updChan c (fun ch => { ch with startPend := false }))
      .next ((s.beginPeriod n c p (t.toNat * 16) 0 [0, 0, 0, 0]).gview n now)
    else .next s
  | _, _ => .next s

end Sys2Proof.Machine
end

