-- ==== Sys2Proof/Machine/Gondola.lean ====
section
/-! DEFINITION. The gondola contract (R92-R125): tick frames, VECTOR changes, samples, missed ticks and silence, forcing, EVENTs, field
time, rip input, registers, positions and forwarding; the feedback counters of R108 and the encoder emulation of R154-R155. -/
namespace Sys2Proof.Machine

/-- A gondola queues a frame of its own at a port (R97); its CRC and stamps are written as it leaves. -/
def State.gfwd (s : State) (n : Nat) (p : GPort) (f : Frame) : State := s.updGon n (fun g => g.queueAt p true f 0 0)

/-- A gondola queues a frame of its own toward the device, out of its serving side (R82). -/
def State.gsend (s : State) (n : Nat) (f : Frame) : State := s.gfwd n ((s.gon n).serving (s.onRing n)) f

/-- An upstream frame of a gondola, addressed by its position. -/
def State.gframe (s : State) (n : Nat) (typ : Nat) (seq tag : BitVec 8) (body : List Byte) : Frame :=
  mkFrame typ 0 ((s.gpos n).getD 0) seq tag body

/-! ### Link loss (R71, R96) -/

/-- LINK_LOSS (R71): a port in UP goes to DOWN and trains again, counts LOCKLOSS, and its code violations. -/
def execLinkLoss (e : LinkEnd) (cv : Nat) (now : FTime) (s : State) : Out :=
  match e with
  | .dev t =>
    if s.link t = lkUP then .next (((s.portDown t lkDOWN).tthCountN t cLOCKLOSS 1).tthCountN t cCVERR cv) else .next s
  | .gon n p =>
    if (s.gon n).portUp p then
      .next ((s.updGon n (fun g => ((g.portDown (s.onRing n) p).countN (gportIdx p) cv).countN gcLOCKLOSS 1)).overAll n (s.gtime n now))
    else .next s

/-! ### TICK_DN (R102-R105) -/

/-- The instant at which an accepted TICK_DN applies (R103): an instant of the gondola's timer within t_ap after its arrival. -/
def State.applyAt (s : State) (n : Nat) (arrival : FTime) : FTime :=
  let q := s.gquant n
  arrival + BitVec.ofNat 64 (q * ((s.free 0).toNat % (idTAP (s.gident n) * 16 / q + 1)))

/-- What an accepted record does at the apply time (R103, R104, R226, R233). -/
def State.applyRec (s : State) (n c : Nat) (r : BitVec 128) (at_ tk : FTime) (tick : BitVec 8) : State :=
  let ch := (s.gon n).chan c
  let nextTk := tk + BitVec.ofNat 64 (s.gCDIV n c * s.gTPER n)
  let kind := recKIND r
  let s := s.legsCancel n c at_
  if (s.gon (baseNode n)).sil then
    s.updGon n (fun g => g.updChan c (fun ch =>
      { ch.stopCarrier with rec_ := none, nextChange := 3, recTk := tk,
                            nsmp := if kind = kVECTOR then vecNSMP r else 0, smpTk := some nextTk, s1 := vecS1 r, s2 := vecS2 r }))
  else if kind = kPWM ∨ kind = kSPWM then
    let runs := match ch.rec_ with
      | some o => recKIND o == kPWM || recKIND o == kSPWM
      | none => false
    let s := s.updGon n (fun g => g.updChan c (fun ch =>
      { ch with rec_ := some r, recTk := tk, nextChange := 3, startPend := ch.startPend || !runs }))
    s.shadowWrite n c r at_ tick
  else
    let s := s.updGon n (fun g => g.updChan c (fun ch =>
      { ch.stopCarrier with rec_ := some r, recTk := tk, lastExec := at_,
                            nextChange := if kind = kVECTOR ∧ 1 ≤ vecNCH r then 1 else 3,
                            nsmp := if kind = kVECTOR then vecNSMP r else 0, smpTk := some nextTk, s1 := vecS1 r, s2 := vecS2 r }))
    s.legsCmd n c at_ (fun k => if kind = kVECTOR then vecLevel (vecV0 r) k else if kind = kSHORT then 1 else 0)

/-- Has the TICK_DN of every due address been accepted for the tick that starts at `tk` (R101)? -/
def State.allAccepted (s : State) (n : Nat) (k : Int) (tk : FTime) : Bool :=
  let g := s.gon (baseNode n)
  (nodesOf n).all (fun m => (s.gDue m k).isEmpty || (if m = homeBal then g.acc1 == some tk else g.acc0 == some tk))

/-- GONDOLA_TICK_DN_RECEIVE (R102, R103): accepted by its CRC, its tick, its deadline and its record list, in that order. -/
def execGondolaTickDnReceive (node : Nat) (addr : Fin 2) (arrival : FTime) (crc : Word) (cv : Nat) (seq : BitVec 8) (fixed : BitVec 80)
    (recs : List (BitVec 128)) (s : State) : Out :=
  let n := if isHome node then (if addr = 1 then homeBal else homeNode) else node
  let b := baseNode n
  let arrival := s.gtime n arrival
  let f := mkFrame 1 0 (if isHome n then addr.val else (s.gpos n).getD 0) seq 0
    (leBytes 10 fixed.toNat ++ recs.flatMap (fun r => leBytes 16 r.toNat))
  let s := if cv = 0 then s else s.updGon b (fun g => g.countN (gportIdx (g.serving (s.onRing n))) cv)
  let k := s.gTick n arrival
  let tk := s.gTickStart n k
  if !s.gTicking n ∨ (!isHome n ∧ addr = 1) then .next s
  else if crc ≠ frameCrc f then .next (s.gcount n gcCRC_OWN)
  else if seq ≠ tickByte k then .next (s.gcount n gcSEQERR)
  else if !reached (tk + BitVec.ofNat 64 (s.gDLN n)) arrival then .next (s.gcount n gcLATEDN)
  else if recs.map recCH ≠ s.gDue n k then .next (s.gcount n gcSEQERR)
  else
    let at_ := s.applyAt n arrival
    let s := (s.drew 1).updGon b (fun g =>
      { g with applyTime := at_, cGrant := min 15 (g.cGrant + dnCGRANT fixed),
               acc0 := if n = homeBal then g.acc0 else some tk, acc1 := if n = homeBal then some tk else g.acc1 })
    let s := if s.allAccepted n k tk then s.updGon b (fun g => { g with missRun := 0 }) else s
    .next ((recs.foldl (fun s r => s.applyRec n (recCH r) r at_ tk seq) s).gview n at_)

/-- VECTOR_CHANGE (R104, R105): V1 or V2 at its commanded time; a time already past executes at once, counted in LATECHG. -/
def execVectorChange (node : Nat) (c : Fin 16) (second : Bool) (now : FTime) (s : State) : Out :=
  let ch := (s.gon node).chan c
  let now := s.gtime node now
  match ch.rec_ with
  | none => .next s
  | some r =>
    let i := if second then 2 else 1
    if recKIND r ≠ kVECTOR ∨ ch.nextChange ≠ i then .next s
    else
      let cmd := ch.recTk + BitVec.ofNat 64 (if second then vecT2 r else vecT1 r)
      let late := !reached cmd ch.lastExec
      let x := if late then ch.lastExec else nearest (s.gquant node) cmd
      if !reached now x then .next s
      else
        let s := if late then s.gcount node gcLATECHG else s
        let s := s.updGon node (fun g => g.updChan c (fun ch =>
          { ch with nextChange := if !second ∧ vecNCH r = 2 then 2 else 3, lastExec := x }))
        .next ((s.legsCmd node c x (fun k => vecLevel (if second then vecV2 r else vecV1 r) k)).gview node now)

/-! ### Samples and TICK_UP (R106-R108, R128) -/

/-- The AUX value of a channel (R128). -/
def State.auxOf (s : State) (n c : Nat) : BitVec 16 :=
  let ch := (s.gon n).chan c
  match bget (s.greg n (aCH_CFG c)) ⟨12, 4⟩ with
  | 1 => ch.levels.setWidth 16
  | 2 => ch.levels.setWidth 16
  | 3 => BitVec.ofNat 16 (min 0xFFFF ((ch.lastTrans - ch.prevTrans).toNat / 40))
  | _ => 0

/-- Bits of the SSI word of a channel (R122): 8 to 32. -/
def State.gSsiBits (s : State) (n c : Nat) : Nat := max 8 (bget (s.greg n (aCH_CFG c)) ⟨16, 5⟩ + 1)

/-- What sample 1 takes of the feedback (R106, R108): the counter, or the SSI word right-aligned with unused bits zero; the time since the
last transition; AUX. -/
def State.takeCount (s : State) (n c : Nat) (t : FTime) (ssi : Option Word) : State :=
  let aux := s.auxOf n c
  let bits := s.gSsiBits n c
  s.updGon n (fun g => g.updChan c (fun ch =>
    { ch with cntS := (ssi.map (fun w => BitVec.ofNat 32 (w.toNat % 2 ^ bits))).getD ch.cnt, edgeDt := BitVec.ofNat 16 (min 0xFFFF ((t - ch.lastTrans).toNat / 40)), aux := aux }))

/-- SAMPLE_INSTANT (R106, R241, R242): sample 1 with the counter, or sample 2, at the timer instant nearest to its commanded time; a sample 1
that SMAX omits takes the counter there (log entry 119); with no sample commanded the counter alone at the tick start.  While the analogue
core is calibrated no current is valid (R534). -/
def execSampleInstant (node : Nat) (c : Fin 16) (second : Bool) (now : FTime) (ia ib : BitVec 24) (ssi : Option Word) (s : State) : Out :=
  let ch := (s.gon node).chan c
  let id := s.gident node
  let now := s.gtime node now
  let cal := node == homeNode && s.su.calRun
  match ch.smpTk with
  | none => .next s
  | some tk =>
    if !s.gTicking node ∨ !s.gInPlan node c then .next s
    else if !second then
      let cur := decide (1 ≤ ch.nsmp)
      let ok := cur && decide (ch.s1 ≤ idSMAX id) && !cal
      let t := if cur then nearest (s.gquant node) (tk + BitVec.ofNat 64 (4 * ch.s1)) else tk
      if !reached now t then .next s
      else
        let s := s.takeCount node c t ssi
        .next (s.updGon node (fun g => g.updChan c (fun ch =>
          { ch with s1ok := ok, s2ok := false, ia := if ok then ia else 0, ib := if ok then ib else 0 })))
    else
      let ok := decide (ch.nsmp = 2 ∧ ch.s2 ≤ idSMAX id ∧ ch.s1 + 4 * idTSPC id ≤ ch.s2) && !cal
      let t := nearest (s.gquant node) (tk + BitVec.ofNat 64 (4 * ch.s2))
      if !ok ∨ !reached now t then .next s
      else
        let shunt := descSENSE (s.gdesc node c) == 3
        .next (s.updGon node (fun g => g.updChan c (fun ch =>
          { ch with s2ok := true, ib := if shunt then ia else ib })))

/-- The record of a channel in TICK_UP (R61). -/
def upRecord (c : Nat) (ch : GChan) (forced : Bool) : BitVec 128 :=
  let b := fun (x : Bool) (i : Nat) => if x then 2 ^ i else 0
  BitVec.ofNat 128 (c % 16 + b ch.s1ok 8 + b ch.s2ok 9 + b ch.ill 10 + b ch.idx.isSome 11 + b forced 12 + ch.ia.toNat <<< 16
    + ch.ib.toNat <<< 40 + ch.cntS.toNat <<< 64 + ch.edgeDt.toNat <<< 96 + (ch.idx.getD ch.aux).toNat <<< 112)

/-- The fixed part of TICK_UP (R60). -/
def State.upFixed (s : State) (n : Nat) (vbus : BitVec 16) (temp : BitVec 8) : Nat :=
  let g := s.gon (baseNode n)
  let b := fun (x : Bool) (i : Nat) => if x then 2 ^ i else 0
  let forced := (nodesOf n).any (fun m => (List.range 16).any (fun c => s.chForced m c && decide (c < s.gnch m)))
  g.applyTime.toNat % 2 ^ 40 + vbus.toNat <<< 40 + temp.toNat <<< 56 + b (isHome n || g.lock) 64 + b forced 65 + b g.silentFlag 66
    + b (s.gon n).missedFlag 67 + b (g.portUp .thru) 68 + b (g.portUp .branch) 69 + b (!s.ripOff n) 70 + b g.evLate 71 + (g.cRet % 16) <<< 72

/-- VBUS that a home address reports in 1/64 V (R309): its 14-bit conversion of 3.000 V full scale, times K. -/
def State.homeVbus (s : State) (a : Nat) (x : BitVec 16) : BitVec 16 :=
  let k := if a = 0 then s.wfld rBUS_HSCALE fBUS_HSCALE_K0 else s.wfld rBUS_HSCALE fBUS_HSCALE_K1
  BitVec.ofNat 16 (min 0xFFFF (((x.toNat % 16384) * 3 * k + 8192) / 16384))

/-- GONDOLA_TICK_UP_SEND (R107): for a tick with channels in G_PLAN one record per channel due, and what was reported is reported once. -/
def execGondolaTickUpSend (node : Nat) (addr : Fin 2) (now : FTime) (vbus : BitVec 16) (temp : BitVec 8) (s : State) : Out :=
  let n := if isHome node then (if addr = 1 then homeBal else homeNode) else node
  let k := s.gTick n (s.gtime n now)
  let due := s.gDue n k
  if !s.gTicking n ∨ (!isHome n ∧ addr = 1) ∨ s.gPLAN n = 0 then .next s
  else
    let recs := due.map (fun c => upRecord c ((s.gon n).chan c) (s.chForced n c))
    let f := s.gframe n 2 (tickByte k) 0 (leBytes 10 (s.upFixed n (if isHome n then s.homeVbus addr vbus else vbus) temp) ++ recs.flatMap (fun r => leBytes 16 r.toNat))
    let f := if n = homeBal then { f with addr := 1 } else f
    let s := due.foldl (fun s c => s.updGon n (fun g => g.updChan c (fun ch => { ch with ill := false, idx := none, s1ok := false, s2ok := false }))) s
    let s := s.updGon (baseNode n) (fun g => { g with silentFlag := false, evLate := false, cRet := 0 })
    .next ((s.updGon n (fun g => { g with missedFlag := false })).gsend (baseNode n) f)

/-! ### Missed ticks and stream silence (R109, R110) -/

/-- The miss action of a channel (R109, R243). -/
def State.missAction (s : State) (n c : Nat) (t : FTime) : State :=
  let ch := (s.gon n).chan c
  let vLevel : BitVec 2 := if bget (s.greg n (aCH_CFG c)) ⟨0, 1⟩ = 1 then 0 else 1
  let s := s.updGon n (fun g => g.updChan c (fun ch => { ch with nsmp := 0 }))
  match ch.rec_ with
  | none => s
  | some r =>
    let next := some (ch.recTk + BitVec.ofNat 64 (s.gCDIV n c * s.gTPER n))
    if recKIND r = kVECTOR then
      (s.updGon n (fun g => g.updChan c (fun ch => { ch with nextChange := 3 }))).legsCmd n c t (fun _ => vLevel)
    else if recKIND r = kSPWM then
      (s.updGon n (fun g => g.updChan c (fun ch => { ch.stopCarrier with rec_ := none, smpTk := next }))).legsCmd n c t (fun _ => vLevel)
    else s

/-- TICK_DN_DEADLINE (R109): the tick whose deadline has come is missed unless every due TICK_DN was accepted. -/
def execTickDnDeadline (node : Nat) (now : FTime) (s : State) : Out :=
  let b := baseNode node
  let now := s.gtime b now
  let k := s.gTick b now
  let tk := s.gTickStart b k
  let due := s.gAllDue b k
  let dl := tk + BitVec.ofNat 64 (s.gDLN b)
  if !s.gTicking b ∨ due = [] ∨ !reached now dl ∨ s.allAccepted b k tk = true ∨ (s.gon b).missTk = some tk then .next s
  else
    let s := (s.gcount b gcMISSED).updGon b (fun g => { g with missRun := g.missRun + 1, missTk := some tk })
    let s := (nodesOf b).foldl (fun s m => s.updGon m (fun g => { g with missedFlag := true })) s
    let s := due.foldl (fun s e =>
      (s.missAction e.1 e.2 dl).updGon e.1 (fun g => g.updChan e.2 (fun ch =>
        { ch with smpTk := some (tk + BitVec.ofNat 64 (s.gCDIV e.1 e.2 * s.gTPER b)) }))) s
    .next (s.gview b now)

/-- Consecutive missed ticks before stream silence (R122): 0 and 1 are taken as 2. -/
def State.gSILN (s : State) (n : Nat) : Nat := max 2 (bget (s.greg n aG_SIL) ⟨0, 4⟩)

/-- The stream-silence reaction (R110, R243): every leg off, carriers stopped. -/
def State.silence (s : State) (n : Nat) (now : FTime) : State :=
  let b := baseNode n
  let s := (s.gcount b gcSILENT).updGon b (fun g => { g with sil := true, silentFlag := true })
  let s := (nodesOf b).foldl (fun s m => (List.range 16).foldl (fun s c =>
    if ((s.gon m).chan c) = {} then s else
      s.updGon m (fun g => g.updChan c (fun ch => { ch.stopCarrier with rec_ := none, nextChange := 3 }))) s) s
  s.overAll b now

/-- STREAM_SILENCE (R110). -/
def execStreamSilence (node : Nat) (now : FTime) (s : State) : Out :=
  let g := s.gon (baseNode node)
  if s.gSILN node ≤ g.missRun ∧ !g.sil then .next (s.silence node (s.gtime node now)) else .next s

/-! ### Configuration registers (R122) -/

/-- What a CFG access finds at a word address: 0 writable, 1 not implemented, 2 read-only. -/
def State.gclass (s : State) (n a : Nat) : Nat :=
  let nch := s.gnch n
  if a % 4 ≠ 0 then 1
  else if a < 0x40 ∨ a = aG_STAT ∨ (0x080 ≤ a ∧ a < 0x0C0) then 2
  else if a < 0x078 then 0
  else if 0x100 ≤ a ∧ a < 0x200 then (if (a - 0x100) / 16 < nch then 2 else 1)
  else if 0x200 ≤ a ∧ a < 0x300 ∧ (a - 0x200) / 16 < nch then (if a % 16 = 0 then 0 else if a % 16 = 4 then 2 else 1)
  else 1

/-- G_STAT (R122). -/
def State.gstat (s : State) (n : Nat) : Word :=
  let g := s.gon (baseNode n)
  let b := fun (x : Bool) (i : Nat) => if x then 2 ^ i else 0
  let forced := ((List.range 16).map (fun c => if s.chForced n c && decide (c < s.gnch n) then 2 ^ (8 + c) else 0)).sum
  BitVec.ofNat 32 (b (isHome n || g.lock) 0 + b g.sil 1 + b (!s.ripOff n) 2 + b g.staged 3 + b (g.portUp .thru) 4 + b (g.portUp .branch) 5
    + b (s.gpos n).isSome 6 + forced + ((s.gpos n).getD 0) <<< 24)

/-- The word a CFG_RD finds: sh bits as staged, identity and descriptors, the other registers as they work. -/
def State.gread (s : State) (n a : Nat) : Word :=
  if a < 0x40 then BitVec.ofNat 32 (identF (s.gident n) a 4)
  else if a = aG_STAT then s.gstat n
  else if a = aG_CLR then 0
  else if 0x100 ≤ a ∧ a < 0x200 then BitVec.ofNat 32 (fieldOf (s.gdesc n ((a - 0x100) / 16)) (8 * (a % 16)) 32)
  else
    let g := s.gon (regNode n a)
    let m := BitVec.ofNat 32 (gsh a)
    (g.greg a &&& ~~~m) ||| (g.gstage a &&& m)

/-- A CFG_RSP (R67). -/
def State.cfgRsp (s : State) (n : Nat) (tag : BitVec 8) (status : Nat) (data : List Byte) : State :=
  s.gsend (baseNode n) (s.gframe n 0xA 0 tag (leBytes 2 status ++ [0, 0] ++ data))

/-- Does fault latch `i` force a leg of a home channel, or a ballast output (R245)? -/
def State.latchOf (s : State) (n c i : Nat) : Bool :=
  if n = homeBal then s.wflag (rPGN_FLT_MASK1 i) (if c = 0 then fPGN_FLT_MASK1_BAL0 else fPGN_FLT_MASK1_BAL1)
  else (List.range (s.gLegs n c)).any (fun k => s.fltCovers i (s.homeLeg c k))

/-- Is the cause of a channel's forcing still active (R113, R246)? At home: an input of a latch that forces a leg of it, or the software
latch; elsewhere as `active` says. -/
def State.causeActive (s : State) (n c : Nat) (active : Nat) : Bool :=
  if isHome n then s.swLatch || (List.range 4).any (fun i => s.fltLatch i && s.fltIn.getLsbD i && s.latchOf n c i)
  else active.testBit c

/-- Clear a fault latch of the home gondola. -/
def State.clrLatch (s : State) (i : Nat) : State :=
  s.fset rPGN_HSTAT fPGN_HSTAT_LATCH (setBit (s.fget rPGN_HSTAT fPGN_HSTAT_LATCH) i false)

/-- Release the forcing of a channel (R113, R246). -/
def State.releaseCh (s : State) (n c : Nat) (active : Nat) : State :=
  if isHome n then
    (List.range 4).foldl (fun s i => if s.fltLatch i && !s.fltIn.getLsbD i && s.latchOf n c i then s.clrLatch i else s) s
  else if s.causeActive n c active then s
  else s.updGon n (fun g => g.updChan c (fun ch => { ch with forced := false }))

/-- G_CLR.FORCE (R113): each selected channel whose cause is gone is released; status 0x0002 when one is not. -/
def State.clrForce (s : State) (n chans active : Nat) : State × Nat :=
  let sel := idx 16 (fun c => chans.testBit c)
  let held := sel.any (fun c => s.chForced n c && s.causeActive n c active)
  (sel.foldl (fun s c => s.releaseCh n c active) s, if held then 2 else 0)

/-- G_CLR.SIL (R110): silence ends, and the count of consecutive missed ticks begins anew (log entry 120). -/
def State.clrSil (s : State) (n : Nat) : State := s.updGon (baseNode n) (fun g => { g with sil := false, missRun := 0 })

/-- G_CLR.RIP (R121): counts only after 10 ms energised without a break. -/
def State.clrRip (s : State) (n : Nat) : State × Nat :=
  if !s.hasRip n then (s, 0)
  else if (s.gon n).rip10 then (s.updGon n (fun g => { g with ripLatch := false }), 0) else (s, 2)

/-- G_CLR.CNT (R122): every G_CNTk and CH_CNT. -/
def State.clrCnt (s : State) (n : Nat) : State :=
  (nodesOf n).foldl (fun s m => s.updGon m (fun g =>
    let g := (List.range 16).foldl (fun (g : Gondola) k => g.setGreg (aG_CNT k) 0) g
    (List.range 16).foldl (fun (g : Gondola) c => g.setGreg (aCH_CNT c) 0) g)) s

/-- A write of G_CLR as a whole. -/
def State.gclr (s : State) (n : Nat) (v : Word) (active : Nat) : State × Nat :=
  let a := s.clrForce n (bget v ⟨0, 16⟩) active
  let s := if bget v ⟨16, 1⟩ = 1 then a.1.clrSil n else a.1
  let r := if bget v ⟨17, 1⟩ = 1 then s.clrRip n else (s, 0)
  let s := if bget v ⟨18, 1⟩ = 1 then r.1.clrCnt n else r.1
  (s, max a.2 r.2)

/-- Write one writable word of a gondola's register space. -/
def State.gwrite (s : State) (n a : Nat) (v : Word) (active : Nat) (now : FTime) : State × Nat :=
  if a = aG_CLR then s.gclr n v active
  else
    let m := BitVec.ofNat 32 (grw a)
    let sh := BitVec.ofNat 32 (gsh a)
    let s := s.updGon (regNode n a) (fun g =>
      let g := if grw a = 0 then g else g.setGreg a ((g.greg a &&& ~~~m) ||| (v &&& m))
      if gsh a = 0 then g else g.setGstage a (v &&& sh))
    if a = aG_ACT_HI then
      (s.updGon (baseNode n) (fun g =>
        let t := join64 (g.greg aG_ACT_LO) (g.greg aG_ACT_HI)
        { g with staged := true, actAt := if reached now t then now else t }), 0)
    else if a = aG_CTL ∨ 0x200 ≤ a then (s.overAll n now, 0)
    else (s, 0)

/-- Does a gondola take an addressed frame: has it a position (R99)? -/
def State.gTakes (s : State) (n : Nat) (broadcast : Bool) : Bool := broadcast || (s.gpos n).isSome

/-- GONDOLA_CFG_WR (R67, R122): nothing is written when the frame is malformed, reaches a read-only word, or an address not
implemented; a broadcast is not answered.  `active` names the channels whose forcing cause is still active (R113). -/
def execGondolaCfgWr (node : Nat) (broadcast : Bool) (tag : BitVec 8) (addr : Word) (data : List Word) (active : BitVec 16) (now : FTime)
    (s : State) : Out :=
  if !s.gTakes node broadcast then .next s else
  let now := s.gtime node now
  let addrs := (List.range data.length).map (fun i => addr.toNat + 4 * i)
  let r : State × Nat :=
    if addr.toNat % 4 ≠ 0 ∨ data = [] ∨ 16 < data.length then (s, 3)
    else if addrs.any (fun a => s.gclass node a == 2) then (s, 2)
    else if addrs.any (fun a => s.gclass node a == 1) then (s, 1)
    else (addrs.zip data).foldl (fun r e => let x := r.1.gwrite node e.1 e.2 active.toNat now; (x.1, max r.2 x.2)) (s, 0)
  .next (if broadcast then r.1 else r.1.cfgRsp node tag r.2 [])

/-- GONDOLA_CFG_RD (R67). -/
def execGondolaCfgRd (node : Nat) (tag : BitVec 8) (addr : Word) (count : BitVec 16) (s : State) : Out :=
  if !s.gTakes node false then .next s else
  let k := count.toNat / 4
  let addrs := (List.range k).map (fun i => addr.toNat + 4 * i)
  if addr.toNat % 4 ≠ 0 ∨ count.toNat % 4 ≠ 0 ∨ k = 0 ∨ 16 < k then .next (s.cfgRsp node tag 3 [])
  else if addrs.any (fun a => s.gclass node a == 1) then .next (s.cfgRsp node tag 1 [])
  else .next (s.cfgRsp node tag 0 (addrs.flatMap (fun a => leBytes 4 (s.gread node a).toNat)))

/-- The staged values take effect together (R122). -/
def Gondola.activate (g : Gondola) : Gondola :=
  let one := fun (g : Gondola) (a : Nat) =>
    let m := BitVec.ofNat 32 (gsh a)
    g.setGreg a ((g.greg a &&& ~~~m) ||| (g.gstage a &&& m))
  let g := [aG_TPER, aG_TPH_LO, aG_TPH_HI, aG_DLN, aG_QW_W, aG_QW_E, aG_DPROP, aG_PLAN].foldl one g
  (List.range 16).foldl (fun g c => one g (aCH_CFG c)) g

/-- Has the first tick start under the staged timing that reached the armed time come (R122)? With a staged period of 0 there is none,
and the armed time itself is taken. -/
def Gondola.actDue (g : Gondola) (now : FTime) : Bool :=
  let per := (g.gstage aG_TPER).toNat
  let org := join64 (g.gstage aG_TPH_LO) (g.gstage aG_TPH_HI)
  if per = 0 then reached now g.actAt
  else reached (tickStartOf org per (tickAt org per now)) g.actAt

/-- A received firmware image comes into force while G_PLAN is 0 (R123; log entry 121). -/
def Gondola.useImage (g : Gondola) (plan : Nat) : Gondola :=
  match g.image with
  | some b => if plan = 0 then { g with firmware := b, image := none } else g
  | none => g

/-- STAGED_ACTIVATION (R122, R100). -/
def execStagedActivation (node : Nat) (now : FTime) (s : State) : Out :=
  let b := baseNode node
  let now := s.gtime b now
  if (s.gon b).staged ∧ (s.gon b).actDue now then
    let s := (nodesOf b).foldl (fun s m => s.updGon m (fun g => { g.activate with staged := false })) s
    let s := (nodesOf b).foldl (fun s m => (List.range 16).foldl (fun s c =>
      if s.gInPlan m c ∨ ((s.gon m).chan c) = {} then s else
        s.updGon m (fun g => g.updChan c (fun ch => { ch.stopCarrier with rec_ := none, nextChange := 3, smpTk := none, nsmp := 0 }))) s) s
    .next ((s.updGon b (fun g => g.useImage (s.gPLAN b))).overAll b now)
  else .next s

/-- The answer to a G_CLR write: none to a broadcast. -/
def State.clrAnswer (s : State) (n : Nat) (broadcast : Bool) (tag : BitVec 8) (status : Nat) : State :=
  if broadcast then s else s.cfgRsp n tag status []

/-- G_CLR_FORCE (R113, R246): `active` names the channels of a tether gondola whose cause is still active; at home the FLT inputs show it. -/
def execGClrForce (node : Nat) (broadcast : Bool) (tag : BitVec 8) (chans active : BitVec 16) (now : FTime) (s : State) : Out :=
  if !s.gTakes node broadcast then .next s else
  let r := s.clrForce node chans.toNat active.toNat
  .next ((r.1.gview node (s.gtime node now)).clrAnswer node broadcast tag r.2)

/-- G_CLR_SIL (R110, R243). -/
def execGClrSil (node : Nat) (broadcast : Bool) (tag : BitVec 8) (s : State) : Out :=
  .next (if s.gTakes node broadcast then (s.clrSil node).clrAnswer node broadcast tag 0 else s)

/-- G_CLR_RIP (R121). -/
def execGClrRip (node : Nat) (broadcast : Bool) (tag : BitVec 8) (s : State) : Out :=
  if !s.gTakes node broadcast then .next s else
  let r := s.clrRip node
  .next (r.1.clrAnswer node broadcast tag r.2)

/-- G_CLR_CNT (R122). -/
def execGClrCnt (node : Nat) (broadcast : Bool) (tag : BitVec 8) (s : State) : Out :=
  .next (if s.gTakes node broadcast then (s.clrCnt node).clrAnswer node broadcast tag 0 else s)

/-- FAULT_FORCING (R112): a protection of a tether gondola trips; the home gondola's protections are its FLT inputs (R245). -/
def execFaultForcing (node : Nat) (c : Fin 16) (now : FTime) (s : State) : Out :=
  if isHome node then .next s
  else
    let s := (s.gcount node gcFORCE).updGon node (fun g => g.updChan c (fun ch => { ch with forced := true }))
    .next (s.overCh node c (s.gtime node now))

/-! ### EVENT execution (R115, R116) -/

/-- An action on an event output (R115): it cancels the scheduled return of a pulse. -/
def Gondola.act (g : Gondola) (out act pw : Nat) (t : FTime) : Gondola :=
  let g := { g with pulses := tdrop g.pulses out }
  let lv := fun b => BitVec.ofNat 16 (setBit g.outs.toNat out b)
  match act with
  | 0 => { g with outs := lv false }
  | 1 => { g with outs := lv true }
  | 2 => { g with outs := lv (!g.outs.toNat.testBit out) }
  | 3 => { g with outs := lv true, pulses := g.pulses.filter (fun e => decide (e.1 < out)) ++
             (out, t + BitVec.ofNat 64 (pw * usUnits)) :: g.pulses.filter (fun e => decide (out < e.1)) }
  | _ => g

/-- Insert an EVENT by EXEC, after those of equal EXEC (R115). -/
def insEvent (e : GEvent) : List GEvent → List GEvent
  | [] => [e]
  | x :: r => if 0 < tdiff x.exec e.exec then e :: x :: r else x :: insEvent e r

/-- GONDOLA_EVENT_ACCEPT (R115, R116). -/
def execGondolaEventAccept (node : Nat) (exec : FTime) (out act : BitVec 8) (pw : BitVec 16) (id : Word) (now : FTime) (s : State) : Out :=
  let ident := s.gident node
  let now := s.gtime node now
  if !s.gTakes node false then .next s
  else if idNEVO ident ≤ out.toNat then .next (s.gcount node gcEVFULL)
  else if 0 < tdiff now exec then
    .next ((s.gcount node gcEVLATE).updGon node (fun g => { g.act out.toNat act.toNat pw.toNat now with evLate := true }))
  else if (if isHome node then 64 else idEVQ ident) ≤ (s.gon node).events.length then .next (s.gcount node gcEVFULL)
  else .next (s.updGon node (fun g =>
    { g with events := insEvent { exec := exec, out := out.toNat, act := act.toNat, pw := pw.toNat, id := id } g.events }))

/-- EVENT_EXECUTE (R115): the first queued action, at the timer instant nearest to EXEC. -/
def execEventExecute (node : Nat) (now : FTime) (s : State) : Out :=
  match (s.gon node).events with
  | [] => .next s
  | e :: r =>
    let t := nearest (s.gquant node) e.exec
    if reached (s.gtime node now) t then .next (s.updGon node (fun g => ({ g with events := r } : Gondola).act e.out e.act e.pw t)) else .next s

/-- EVENT_PULSE_RETURN (R115). -/
def execEventPulseReturn (node : Nat) (out : Fin 16) (now : FTime) (s : State) : Out :=
  let g := s.gon node
  let now := s.gtime node now
  if g.pulses.any (fun e => e.1 == out.val && reached now e.2) then
    .next (s.setGon node { g with outs := BitVec.ofNat 16 (setBit g.outs.toNat out false), pulses := tdrop g.pulses out })
  else .next s

/-! ### Keeping field time (R64, R65, R117-R119) -/

/-- A signed number with 16 fraction bits as whole units. -/
def fix16 (x : BitVec 64) : Int := x.toInt / 65536

/-- The ports that a gondola sends a broadcast frame on by: both ports, on a ring the one opposite (R73, R82). -/
def State.castPorts (s : State) (n : Nat) (port : GPort) : List GPort :=
  (if s.onRing n then [otherPort port] else [.thru, .branch]).filter (fun p => (s.gon n).portUp p)

/-- GONDOLA_TIME_RECEIVE (R64, R117, R118): `sof` is the timer reading at SOF arrival; the residence is added as the frame leaves. -/
def execGondolaTimeReceive (node : Nat) (port : GPort) (origin : FTime) (corr pathdly : BitVec 64) (incInt : BitVec 8) (incFrac : Word)
    (stepCnt : BitVec 16) (hops : BitVec 8) (sof : FTime) (s : State) : Out :=
  let g := s.gon node
  let loc := s.gtime node sof
  let path := pathdly + g.segDelay
  let target := origin + BitVec.ofInt 64 (fix16 (corr + path))
  let off := tdiff loc target
  let stepNow := (g.timeSeen ∧ stepCnt ≠ g.stepCnt) ∨ usUnits ≤ off.natAbs
  let interval := if g.timeSeen then (origin - g.lastOrigin).toNat else 0
  let lim : Int := (interval * 200 / 1000000 : Nat)
  let slew := max (-lim) (min lim (-off))
  let inc := incInt.toNat * 2 ^ 32 + incFrac.toNat
  let old := g.incInt.toNat * 2 ^ 32 + g.incFrac.toNat
  let good := if off.natAbs ≤ 80 then g.goodTimes + 1 else 0
  let lost := g.lock && decide (800 < off.natAbs)
  let g' := { g with
    timeSeen := true
    stepCnt := stepCnt
    incInt := incInt
    incFrac := incFrac
    lastOrigin := origin
    offset := BitVec.ofInt 64 off
    locRef := if stepNow then target else loc
    rawRef := sof
    slew := if stepNow then 0 else slew
    timeIv := interval
    rateNum := if g.timeSeen then inc else g.rateNum
    rateDen := if g.timeSeen then (if g.rateNum = 1 ∧ g.rateDen = 1 then old else g.rateDen) else g.rateDen
    goodTimes := good
    lock := if 800 < off.natAbs then false else (g.lock || decide (4 ≤ good)) }
  let s := s.setGon node g'
  let s := if lost then s.gcount node gcLOCKLOSS else s
  let s := if stepNow ∧ s.gPLAN node ≠ 0 then s.silence node target else s
  let f := mkFrame 3 1 0 0 0 (leBytes 8 origin.toNat ++ leBytes 8 corr.toNat ++ leBytes 8 path.toNat ++ [incInt] ++ leBytes 4 incFrac.toNat
    ++ leBytes 2 stepCnt.toNat ++ [hops + 1])
  .next ((s.castPorts node port).foldl (fun s p => s.updGon node (fun g => g.queueAt p false f 0 loc)) s)

/-- GONDOLA_LOCK_LOSS (R118): four TIME intervals without a TIME frame. -/
def execGondolaLockLoss (node : Nat) (now : FTime) (s : State) : Out :=
  let g := s.gon node
  if g.timeIv ≠ 0 ∧ (4 * g.timeIv : Int) ≤ tdiff (s.gtime node now) g.locRef then
    let s := if g.lock then s.gcount node gcLOCKLOSS else s
    .next (s.updGon node (fun g => { g with lock := false, goodTimes := 0 }))
  else .next s

/-- GONDOLA_DLY_REQ (R65, R119): toward the neighbour on the way to the device; T1 is written as it leaves. -/
def execGondolaDlyReq (node : Nat) (s : State) : Out := .next (s.gsend node (mkFrame 4 2 0 0 0 (leBytes 8 0)))

/-- GONDOLA_DLY_RSP_RECEIVE (R65): half of the round trip less the neighbour's turn-round, kept in 2^-16 units; T4 is the arrival. -/
def execGondolaDlyRspReceive (node : Nat) (t1 t2 t3 now : FTime) (s : State) : Out :=
  let t4 := s.gtime node now
  .next (s.updGon node (fun g => { g with segDelay := BitVec.ofInt 64 ((tdiff t4 t1 - tdiff t3 t2) * 32768) }))

/-- GONDOLA_DLY_REQ_RECEIVE (R65, R119): answered on the through and branch ports, on a ring that is served the other way round also on the
upstream port (log entry 122); T3 is written as the answer leaves. -/
def execGondolaDlyReqReceive (node : Nat) (port : GPort) (t1 sof : FTime) (s : State) : Out :=
  if port = .up ∧ (s.gon node).serving (s.onRing node) = .up then .next s
  else .next (s.gfwd node port (mkFrame 5 2 0 0 0 (leBytes 8 t1.toNat ++ leBytes 8 (s.gtime node sof).toNat ++ leBytes 8 0)))

/-! ### Position and forwarding (R72, R73, R82, R83, R99) -/

/-- IDENT of a gondola (R67). -/
def State.identFrame (s : State) (n : Nat) : Frame := s.gframe n 7 0 0 (s.gident n)

/-- An ENUM that returns with DONE (R72): from the branch it goes on out of the through port, else toward the device. -/
def State.enumBack (s : State) (node : Nat) (port : GPort) (next : BitVec 8) (ovr attach : Bool) (epoch : BitVec 8) : State :=
  if s.onRing node then
    (if port = .thru then s.updGon node (fun g => { g with serveThru := false }) else s).gfwd node (otherPort port)
      (enumFrame next.toNat true ovr attach epoch)
  else if port = .branch then
    let s := s.updGon node (fun g => { g with branchHi := next - 1, branchSet := decide (g.branchLo.toNat < next.toNat) })
    if !ovr ∧ (s.gon node).portUp .thru then s.gfwd node .thru (enumFrame next.toNat false false attach epoch)
    else s.gfwd node .up (enumFrame next.toNat true ovr attach epoch)
  else s.gfwd node .up (enumFrame next.toNat true ovr attach epoch)

/-- A gondola takes a position (R72, R82, R99) and sends IDENT. -/
def State.takePos (s : State) (node : Nat) (port : GPort) (next epoch : BitVec 8) : State :=
  let ring := s.onRing node
  let s := s.updGon node (fun g => { g with
    pos := some (Fin.ofNat 64 next.toNat), epoch := epoch, branchSet := false
    serveThru := ring && (port == .thru || decide (s.split (node / 64 - node / 64 % 2) ≤ next.toNat)) })
  s.gfwd node port (s.identFrame node)

/-- GONDOLA_ENUM_RECEIVE (R72, R75, R99). -/
def execGondolaEnumReceive (node : Nat) (port : GPort) (next : BitVec 8) (done ovr attach : Bool) (epoch : BitVec 8) (now : FTime)
    (s : State) : Out :=
  let g := s.gon node
  let up := fun (p : GPort) => g.portUp p
  let takes := g.pos.isNone ∨ (!attach ∧ epoch ≠ g.epoch)
  if done then .next (s.enumBack node port next ovr attach epoch)
  else if 64 ≤ next.toNat then
    let s := if takes then (s.updGon node (fun g => { g with pos := none })).overAll node (s.gtime node now) else s
    .next (s.gfwd node port (enumFrame next.toNat true true attach epoch))
  else
    let nxt := if takes then next.toNat + 1 else next.toNat
    let s := if takes then s.takePos node port next epoch else s
    if s.onRing node then
      let o := otherPort port
      .next (s.gfwd node (if up o then o else port) (enumFrame nxt (!up o) false attach epoch))
    else if up .branch then
      .next ((s.updGon node (fun g => { g with branchLo := BitVec.ofNat 8 nxt })).gfwd node .branch (enumFrame nxt false false attach epoch))
    else .next (s.gfwd node (if up .thru then .thru else .up) (enumFrame nxt (!up .thru) false attach epoch))

/-- The ports a frame leaves by (R73, R82): a hop frame and one for the gondola itself by none. -/
def State.fwdPorts (s : State) (n : Nat) (port : GPort) (route addr : Nat) : List GPort :=
  let g := s.gon n
  let own := g.pos.map (·.val) == some addr
  if route = 2 then []
  else if s.onRing n then (if route = 0 ∧ own then [] else [otherPort port])
  else if port ≠ .up then [.up]
  else if route = 1 then [GPort.thru, GPort.branch]
  else if own then []
  else if g.branchSet ∧ g.branchLo.toNat ≤ addr ∧ addr ≤ g.branchHi.toNat then [.branch] else [.thru]

/-- GONDOLA_FRAME_FORWARD (R73, R97): cut-through and unchanged, its CRC with it; a bad CRC is let pass and counted. -/
def execGondolaFrameForward (node : Nat) (port : GPort) (f : Frame) (crc : Word) (cv : Nat) (sof : FTime) (s : State) : Out :=
  let out := (s.fwdPorts node port f.route.toNat f.addr.toNat).filter (fun p => (s.gon node).portUp p)
  let s := if cv = 0 then s else s.updGon node (fun g => g.countN (gportIdx port) cv)
  let s := if out ≠ [] ∧ crc ≠ frameCrc f then s.gcount node gcCRC_FWD else s
  .next (out.foldl (fun s p => s.updGon node (fun g => g.queueAt p false f crc (s.gtime node sof))) s)

/-! ### The frames that leave (R57, R58, R97, R98) -/

/-- Is a frame a tick frame (R59)? -/
def frameIsTick (f : Frame) : Bool := f.typ == 1 || f.typ == 2

/-- The start rule of R77 at a gondola (R98): with ticks, a non-tick frame of its own lies in the quiet window of G_QW_W, G_QW_E and
G_DPROP, which may reach into the tick after. -/
def State.gQuiet (s : State) (n bytes : Nat) (t : FTime) : Bool :=
  let per := s.gTPER n
  let off := (tdiff t (s.gTickStart n (s.gTick n t))).toNat
  let w := (s.greg n aG_QW_W).toNat
  let room := fun (o : Nat) => decide (w ≤ o ∧ o + 80 * bytes + (s.greg n aG_DPROP).toNat ≤ (s.greg n aG_QW_E).toNat)
  per == 0 || room off || room (off + per)

/-- What a gondola writes into a frame that leaves at local time `t`: SEQ of its own non-tick frames, T1 and T3, the residence of a TIME
frame, and the CRC of what it wrote (R57, R58, R64, R65). -/
def Gondola.leaving (g : Gondola) (o : OutFrame) (t : FTime) : Frame × Word :=
  let f := o.frame
  if o.own then
    let f := if frameIsTick f then f else { f with seq := tget 0 g.seqCnt f.typ.toNat }
    let f := if f.typ = 4 then { f with body := leBytes 8 t.toNat }
      else if f.typ = 5 then { f with body := f.body.take 16 ++ leBytes 8 t.toNat } else f
    (f, frameCrc f)
  else if f.typ = 3 then
    let corr := leNat ((f.body.drop 8).take 8) + (t - o.sof).toNat * 65536
    let f := { f with body := f.body.take 8 ++ leBytes 8 corr ++ f.body.drop 16 }
    (f, frameCrc f)
  else (f, o.crc)

/-- The place in the queue of a gondola of the frame that starts next at a port: the first tick frame if `tick`, else, with none waiting, the
first other one that may start. -/
def State.gNext (s : State) (n : Nat) (p : GPort) (tick : Bool) (t : FTime) : Option Nat :=
  let q := (s.gon n).queue
  let at_ := fun (o : OutFrame) => o.port == p && frameIsTick o.frame
  if tick then q.findIdx? at_
  else if q.any at_ then none
  else q.findIdx? (fun o => o.port == p && (!o.own || s.gQuiet n (o.frame.body.length + 14) t))

/-- A frame leaves a gondola by a port that is UP (the home gondola's internal link always is). -/
def State.gStart (s : State) (n : Nat) (p : GPort) (tick : Bool) (now : FTime) : State :=
  let t := s.gtime n now
  if !isHome n ∧ !(s.gon n).portUp p then s
  else match s.gNext n p tick t with
    | none => s
    | some i => match (s.gon n).queue[i]? with
      | none => s
      | some o => s.updGon n (fun g =>
          let x := g.leaving o t
          let typ := o.frame.typ.toNat
          { g with queue := g.queue.eraseIdx i, out := some { o with frame := x.1, crc := x.2 }
                   seqCnt := if o.own ∧ !frameIsTick o.frame then tset 0 g.seqCnt typ (tget 0 g.seqCnt typ + 1) else g.seqCnt })

/-- TICK_DN_TRANSMIT (R18, R97): the first tick frame that is ready at a port leaves, after any frame in progress. -/
def execTickDnTransmit (e : LinkEnd) (now : FTime) (s : State) : Out :=
  match e with
  | .dev t => .next (if t.val = 24 ∧ s.time.halted then s else s.tickDnStart t)
  | .gon n p => .next (s.gStart n p true now)

/-- GONDOLA_BRK_RECEIVE (R83): the serving side moves when BRK arrives on it, and the set goes on out of the opposite port. -/
def execGondolaBrkReceive (node : Nat) (port : GPort) (seg : BitVec 8) (s : State) : Out :=
  if port = .branch ∨ !s.onRing node then .next s
  else .next (s.updGon node (fun g =>
    { g with serveThru := if g.serveThru = (port == .thru) then !g.serveThru else g.serveThru, brk := g.brk ++ [(otherPort port, seg)] }))

/-- GONDOLA_BULK_RECEIVE (R123): stored at its offset; LAST ends the stream, and a firmware image then waits to come into force.  The credit
goes back in the next TICK_UP, or in a CREDIT frame when no tick plan holds the gondola. -/
def execGondolaBulkReceive (node : Nat) (stream : BitVec 8) (last : Bool) (offset : Word) (data : List Byte) (s : State) : Out :=
  if !s.gTakes node false then .next s else
  let plan := s.gPLAN node
  let s := s.updGon node (fun g =>
    let b := (tget [] g.stored stream.toNat).take offset.toNat ++ data
    let g := { g with stored := tset [] g.stored stream.toNat b, cRet := if plan = 0 then g.cRet else min 15 (g.cRet + 1) }
    if last ∧ stream = 0 then { g with image := some b, stored := tset [] g.stored 0 [] : Gondola }.useImage plan else g)
  .next (if plan = 0 then s.gsend node (s.gframe node 13 0 0 [1, 0]) else s)

/-- GONDOLA_CREDIT_RECEIVE (R68): granted upstream credits. -/
def execGondolaCreditReceive (node : Nat) (count : BitVec 4) (s : State) : Out :=
  .next (if s.gTakes node false then s.updGon node (fun g => { g with cGrant := min 15 (g.cGrant + count.toNat) }) else s)

/-! ### The rip-loop input (R120, R121) -/

/-- RIP_INPUT_DROP. -/
def execRipInputDrop (node : Nat) (now : FTime) (s : State) : Out :=
  if s.hasRip node ∧ (s.gon node).ripIn then
    .next (s.updGon node (fun g => { g with ripIn := false, ripOffAt := s.gtime node now, rip10 := false }))
  else .next s

/-- RIP_INPUT_ENERGISED. -/
def execRipInputEnergised (node : Nat) (now : FTime) (s : State) : Out :=
  if s.hasRip node ∧ !(s.gon node).ripIn then .next (s.updGon node (fun g => { g with ripIn := true, ripSince := s.gtime node now })) else .next s

/-- POWER_STAGE_DISABLE (R120): de-energised for more than 400 µs; the disable latches and counts RIPDROP. -/
def execPowerStageDisable (node : Nat) (now : FTime) (s : State) : Out :=
  let g := s.gon node
  let now := s.gtime node now
  if s.hasRip node ∧ !g.ripIn ∧ !g.ripLatch ∧ 400 * (usUnits : Int) < tdiff now g.ripOffAt then
    .next (((s.gcount node gcRIPDROP).updGon node (fun g => { g with ripLatch := true })).overAll node now)
  else .next s

/-- RIP_ENERGISED_10MS (R121). -/
def execRipEnergised10ms (node : Nat) (now : FTime) (s : State) : Out :=
  let g := s.gon node
  if s.hasRip node ∧ g.ripIn ∧ 10000 * (usUnits : Int) ≤ tdiff (s.gtime node now) g.ripSince then
    .next (s.updGon node (fun g => { g with rip10 := true }))
  else .next s

/-! ### Feedback counters and encoder emulation (R108, R154, R155) -/

/-- Count an illegal transition in CH_CNT (R108, R122). -/
def Gondola.countIll (g : Gondola) (c : Nat) : Gondola :=
  let v := g.greg (aCH_CNT c)
  g.setGreg (aCH_CNT c) (bset v ⟨0, 16⟩ (min 0xFFFF (bget v ⟨0, 16⟩ + 1)))

/-- Count a further index edge in CH_CNT. -/
def Gondola.countIdx (g : Gondola) (c : Nat) : Gondola :=
  let v := g.greg (aCH_CNT c)
  g.setGreg (aCH_CNT c) (bset v ⟨16, 8⟩ (min 0xFF (bget v ⟨16, 8⟩ + 1)))

/-- One counted transition at emulation output `e` (R154). -/
def State.emuStep (s : State) (e : Nat) (d : Int) : State :=
  let num := s.wfld (rFBK_EMU_NUM e) fFBK_EMU_NUM_NUM
  let den : Int := s.wfld (rFBK_EMU_DEN e) fFBK_EMU_DEN_DEN
  let acc : Int := (tget 0 s.emuAcc e : Nat) + d * num
  let out := s.rget (rFBK_EMU_CNT e)
  if den ≤ acc then { s.rset (rFBK_EMU_CNT e) (out + 1) with emuAcc := tset 0 s.emuAcc e (acc - den).toNat }
  else if acc < 0 then { s.rset (rFBK_EMU_CNT e) (out - 1) with emuAcc := tset 0 s.emuAcc e (acc + den).toNat }
  else { s with emuAcc := tset 0 s.emuAcc e acc.toNat }

/-- What feeds a channel's counter (R95, R124): its FB byte; a home channel reads the source of the axis that the plan puts on it, and
quadrature with none. -/
def State.fbKind (s : State) (n c : Nat) : Nat :=
  if n = homeNode then
    match s.axisAt (gkey 24 0) c with
    | some a => if s.wfld (rFBK_CFG a) fFBK_CFG_SRC = 3 then 3 else if s.wfld (rFBK_CFG a) fFBK_CFG_SRC = 4 then 4 else 2
    | none => 2
  else descFB (s.gdesc n c)

/-- Emulation output `e` at its pins (R155): A and B by the output count modulo 4; Z in the quadrant 0 of every Z period, once a turn of
ZCPR counts; all low while EN is 0. -/
def State.emuPins (s : State) (e : Nat) : Bool × Bool × Bool :=
  let out := (s.rget (rFBK_EMU_CNT e)).toNat
  let z := s.wfld (rFBK_EMU_ZCPR e) fFBK_EMU_ZCPR_ZCPR
  if s.wflag (rFBK_EMU_CTL e) fFBK_EMU_CTL_EN then
    (out % 4 == 1 || out % 4 == 2, out % 4 == 2 || out % 4 == 3, z != 0 && out % z == 0)
  else (false, false, false)

/-- The emulation outputs that follow a home receiver: every counted transition steps them (R154). -/
def State.emu (s : State) (c : Nat) (d : Int) : State :=
  (List.range 4).foldl (fun s e =>
    if s.wfld (rFBK_EMU_CTL e) fFBK_EMU_CTL_SRC = c then
      s.emuStep e (if s.wflag (rFBK_EMU_CTL e) fFBK_EMU_CTL_DIR then -d else d) else s) s

/-- The place of a pair in the sequence 00, 10, 11, 01 of (A, B) (R129). -/
def quadPhase (l : BitVec 3) : Nat := match l.getLsbD 0, l.getLsbD 1 with
  | false, false => 0
  | true, false => 1
  | true, true => 2
  | false, true => 3

/-- The sector of Hall levels U, V, W in the forward order (R108, R148): 001, 011, 010, 110, 100, 101 as W V U; none when all are alike. -/
def hallSector (l : BitVec 3) : Option Nat := match l.toNat with
  | 1 => some 0
  | 3 => some 1
  | 2 => some 2
  | 6 => some 3
  | 4 => some 4
  | 5 => some 5
  | _ => none

/-- What a change of levels is (R108, R129): none where the levels that count stay. -/
def transOf (hall : Bool) (old new : BitVec 3) : Option QTrans :=
  if hall then
    match hallSector old, hallSector new with
    | _, none => if old = new then none else some .illegal
    | none, some _ => none
    | some a, some b => if a = b then none else if b = (a + 1) % 6 then some .fwd else if a = (b + 1) % 6 then some .back else some .illegal
  else match (quadPhase new + 4 - quadPhase old) % 4 with
    | 0 => none
    | 1 => some .fwd
    | 3 => some .back
    | _ => some .illegal

/-- QUADRATURE_TRANSITION (R108, R129, R154): new levels of the inputs move the counter, or set ILL and count CH_ILL. -/
def execQuadratureTransition (node : Nat) (c : Fin 16) (levels : BitVec 3) (now : FTime) (s : State) : Out :=
  let kind := s.fbKind node c
  let old := ((s.gon node).chan c).levels
  let levels := if kind = 3 then levels else (levels &&& 3) ||| (old &&& 4)
  let s := s.updGon node (fun g => g.updChan c (fun ch => { ch with levels := levels }))
  match transOf (kind == 3) old levels with
  | none => .next s
  | some .illegal => .next (s.updGon node (fun g => (g.updChan c (fun ch => { ch with ill := true })).countIll c))
  | some tr =>
    let d : Int := if tr = .fwd then 1 else -1
    let t := s.gtime node now
    let s := s.updGon node (fun g => g.updChan c (fun ch =>
      { ch with cnt := ch.cnt + BitVec.ofInt 32 d, prevTrans := ch.lastTrans, lastTrans := t }))
    .next (if node = homeNode ∧ kind ≠ 3 then s.emu c d else s)

/-- INDEX_EDGE (R108): Z takes a level; its rising edge is an index edge, of which the first since the last record latches counter bits and any
further one is counted. -/
def execIndexEdge (node : Nat) (c : Fin 16) (z : Bool) (_now : FTime) (s : State) : Out :=
  let s := s.updGon node (fun g => g.updChan c (fun ch => { ch with levels := (ch.levels &&& 3) ||| if z then 4 else 0 }))
  .next (if z then s.updGon node (fun g =>
      if ((g.chan c).idx).isSome then g.countIdx c
      else g.updChan c (fun ch => { ch with idx := some (ch.cnt.setWidth 16) }))
    else s)

end Sys2Proof.Machine
end

