-- ==== Sys2Proof/Machine/Pulse.lean ====
section
/-! DEFINITION. The home gondola's fault inputs, software force latch, test pairs and debug halt (R225, R245-R248). -/
namespace Sys2Proof.Machine

/-- The FLT inputs that are active now, as the shell shows them (R245). -/
def State.fltLive (s : State) (live : BitVec 4) : State :=
  State.fset { s with fltIn := live } rPGN_HSTAT fPGN_HSTAT_LIVE live.toNat

/-- Channels of the home gondola with a forced leg. -/
def State.homeForcedChs (s : State) : List (Nat × Nat) :=
  [homeNode, homeBal].flatMap (fun n => (idx (s.gnch n) (fun c => s.chForced n c)).map (fun c => (n, c)))

/-- The forced legs of the home gondola take their levels; each channel that was not forced in the state `old` counts FORCE (R112). -/
def State.homeForceFrom (old s : State) : State :=
  let was := old.homeForcedChs
  let new := s.homeForcedChs.filter (fun e => !was.contains e)
  (s.updGon homeNode (fun g => if new = [] then g else g.countN gcFORCE new.length)).overAll homeNode s.now

/-- A force latch of the home gondola sets (R245, R247). -/
def State.homeForce (s : State) (f : State → State) : State := State.homeForceFrom s (f s)

/-- FAULT_INPUT_LATCH (R245): an active level of 25 ns sets the latch. -/
def execFaultInputLatch (i : Fin 4) (s : State) : Out :=
  let s := s.fltLive (s.fltIn ||| (1 <<< i.val))
  .next (s.homeForce (fun s =>
    let s := s.fset rPGN_HSTAT fPGN_HSTAT_LATCH (setBit (s.fget rPGN_HSTAT fPGN_HSTAT_LATCH) i true)
    s.fset rPGN_HSTAT fPGN_HSTAT_EVT (setBit (s.fget rPGN_HSTAT fPGN_HSTAT_EVT) i true)))

/-- What a write of PGN_FLT_CMD does (R246, R247). -/
def fltCmdWritten (v : Word) (s : State) : State :=
  let s := (List.range 4).foldl (fun s i =>
    if (bget v fPGN_FLT_CMD_CLR).testBit i then
      (if s.fltIn.toNat.testBit i then s.raise rPGN_HSTAT fPGN_HSTAT_CLRREF else s.clrLatch i)
    else s) s
  let s := if bget v fPGN_FLT_CMD_SWCLR = 1 then s.fset rPGN_HSTAT fPGN_HSTAT_SWLATCH 0 else s
  if bget v fPGN_FLT_CMD_SWSET = 1 then s.homeForce (fun s => s.raise rPGN_HSTAT fPGN_HSTAT_SWLATCH) else s.homeView s.now

/-- FLT_CLR (R246): `live` is the state of the FLT inputs at the write. -/
def execFltClr (via : RegPath) (i : Fin 4) (live : BitVec 4) (s : State) : Out :=
  let v := bset 0 fPGN_FLT_CMD_CLR (2 ^ i.val)
  .next ((s.fltLive live).portWrite via rPGN_FLT_CMD v (fun _ => fltCmdWritten v))

/-- SWSET (R247). -/
def execSwset (via : RegPath) (s : State) : Out :=
  let v := bset 0 fPGN_FLT_CMD_SWSET 1
  .next (s.portWrite via rPGN_FLT_CMD v (fun _ => fltCmdWritten v))

/-- SWCLR (R247). -/
def execSwclr (via : RegPath) (s : State) : Out :=
  let v := bset 0 fPGN_FLT_CMD_SWCLR 1
  .next (s.portWrite via rPGN_FLT_CMD v (fun _ => fltCmdWritten v))

/-- What a write of PGN_An_TCTL does (R225): a PUSH captures the test pair in TEST, and is refused in any other state. -/
def tctlWritten (n : Nat) (v : Word) (s : State) : State :=
  if bget v fPGN_TCTL_PUSH = 1 then
    if s.axState n = xTEST then
      let pair := [s.rget (rPGN_TCTL n) &&& 0xF, s.rget (rPGN_TPER n)] ++ (List.range 4).map (fun k => s.rget (rPGN_TD n k))
      (s.updAx n (fun a => { a with test := some pair, testNew := true })).raise (rPGN_STAT n) fPGN_STAT_TPPEND
    else s.raise (rPGN_STAT n) fPGN_STAT_TPREF
  else s

/-- TEST_PAIR_PUSH (R225). -/
def execTestPairPush (via : RegPath) (n : Fin 256) (v : Word) (s : State) : Out :=
  .next (s.portWrite via (rPGN_TCTL n) (bset v fPGN_TCTL_PUSH 1) (fun _ => tctlWritten n (bset v fPGN_TCTL_PUSH 1)))

/-- DEBUG_HALT (R248): the core domain and the home timer stop; the outputs hold their levels. -/
def execDebugHalt (s : State) : Out := .next (s.updTime (fun u => { u with halted := true }))

/-- DEBUG_RELEASE (R248). -/
def execDebugRelease (s : State) : Out := .next (s.updTime (fun u => { u with halted := false }))

end Sys2Proof.Machine
end

