-- ==== Sys2Proof/Machine/Feedback.lean ====
section
/-! DEFINITION. Position and speed feedback (R126-R159): the feedback stage of the router, index handling, speed, Hall and SSI, and the
feedback objects of the mailbox. -/
namespace Sys2Proof.Machine

/-! ### Configuration -/

/-- Feedback source (R126): 6 and 7 are taken as 0. -/
def State.fbSrc (s : State) (n : Nat) : Nat :=
  let v := s.wfld (rFBK_CFG n) fFBK_CFG_SRC
  if 6 ≤ v then 0 else v

/-- Does the axis take its position from its set-point (R133)? -/
def State.fbOwn (s : State) (n : Nat) : Bool := s.fbSrc n == 0 || s.fbSrc n == 5

def State.fbModulo (s : State) (n : Nat) : Bool := s.wflag (rFBK_CFG n) fFBK_CFG_MODULO
def State.fbM (s : State) (n : Nat) : Int := max 2 (s.wfld (rFBK_MOD n) fFBK_MOD_M)
def State.fbCPR (s : State) (n : Nat) : Int := max 4 (s.wfld (rFBK_CPR n) fFBK_CPR_CPR)
def State.fbDir (s : State) (n : Nat) : Int := if s.wflag (rFBK_CFG n) fFBK_CFG_DIR then -1 else 1

/-- A fault cause of an axis (R186), resolved at its next tick boundary (R184). -/
def State.faultCause (s : State) (n code : Nat) (stop : Bool) : State := s.cause n (.fault code stop)

/-- The reference of an axis is lost (R132, R213): the next record takes no difference, and an angle read from the position is not valid. -/
def State.unref (s : State) (n : Nat) : State :=
  let s := (s.updAx n (fun a => { a with resync := true })).fset (rFBK_STAT n) fFBK_STAT_REFD 0
  if s.axType n = tyTQ ∧ s.wfld (rTQ_CFG n) fTQ_CFG_ANGSRC = 0 then s.fset (rAXC_STATE n) fAXC_STATE_ANGVAL 0 else s

/-- The angle of a Hall axis is valid while its Hall state is (R213). -/
def State.hallAngle (s : State) (n : Nat) (ok : Bool) : State :=
  if s.axType n = tyTQ ∧ s.wfld (rTQ_CFG n) fTQ_CFG_ANGSRC = 1 then s.fsetb (rAXC_STATE n) fAXC_STATE_ANGVAL ok else s

/-! ### Position (R131-R135) -/

/-- X + C_ix + C_user. -/
def Axis.sum (a : Axis) : Int := a.x.toInt + a.cix.toInt + a.cuser.toInt

/-- The ends of the range of a linear position (R134). -/
def linHi : Int := 2 ^ 47
def linClamped (sum : Int) : Bool := decide (linHi ≤ sum) || decide (sum < -linHi)

/-- Position of an axis from its count sum (R133, R134). -/
def State.posOfSum (s : State) (n : Nat) (sum : Int) : Val :=
  if s.fbModulo n then BitVec.ofInt 64 (sum % s.fbM n * 65536)
  else if linHi ≤ sum then 0x7FFFFFFFFFFFFFFF#64
  else if sum < -linHi then 0x8000000000000000#64
  else BitVec.ofInt 64 (sum * 65536)

/-- The actual position (R133). -/
def State.actPos (s : State) (n : Nat) : Val :=
  if s.fbOwn n then (s.ax n).gen.pset else s.posOfSum n (s.ax n).sum

/-- The measured speed; an axis without feedback has that of its set-point. -/
def State.actSpd (s : State) (n : Nat) : Val := if s.fbOwn n then (s.ax n).gen.vset else (s.ax n).spd

/-- TURNS after `d` more wraps (R135): saturating, with its sticky bit. -/
def State.addTurns (s : State) (n : Nat) (d : Int) : State :=
  if d = 0 then s
  else
    let t := (s.ax n).turns.toInt + d
    let lim : Int := 0x7FFFFFFF
    let v := max (-lim) (min lim t)
    let s := s.updAx n (fun a => { a with turns := BitVec.ofInt 32 v })
    if v = lim ∨ v = -lim then s.raise (rFBK_STAT n) fFBK_STAT_TURNS_OVF else s

/-- The count sum moved from `old` to its present value: TURNS on a modulo axis, the clamp on a linear one (R134, R135). -/
def State.sumMoved (s : State) (n : Nat) (old : Int) (ft : FTime) : State :=
  let new := (s.ax n).sum
  if s.fbModulo n then (s.addTurns n (new / s.fbM n - old / s.fbM n)).fset (rFBK_STAT n) fFBK_STAT_PLIM_NOW 0
  else
    let c := linClamped new
    let was := s.flag (rFBK_STAT n) fFBK_STAT_PLIM_NOW
    let s := s.fsetb (rFBK_STAT n) fFBK_STAT_PLIM_NOW c
    if c ∧ !was then
      let s := (s.raise (rFBK_STAT n) fFBK_STAT_POSLIM).axEvent n 0x05 0 ft
      if s.wflag (rFBK_CFG n) fFBK_CFG_PLIM_F then s.faultCause n fcPOSLIM (s.actStop n fAXC_FLT_ACT_POSLIM) else s
    else s

/-! ### The index (R136-R139) -/

/-- The value congruent to `x` modulo `m` from -m/2 to m/2 - 1. -/
def centred (x m : Int) : Int := (x + m / 2) % m - m / 2

/-- Is the speed low enough for the index to be evaluated (R136)? -/
def State.idxSpeedOK (s : State) (n : Nat) : Bool :=
  decide ((s.ax n).spd.toInt.natAbs * 2 * s.axPeriod n < 32768 * 65536 * 16000000000)

/-- The index-corrected count at the edge of a record (R136, R137). -/
def State.idxCount (s : State) (n : Nat) (r : BitVec 128) : Int :=
  let d : Int := ((recCNT r).setWidth 16 - BitVec.ofNat 16 (recAUX r)).toInt
  (s.ax n).x.toInt - s.fbDir n * d + (s.ax n).cix.toInt

/-- Event data of an index error. -/
def errData (e : Int) : Nat := (BitVec.ofInt 32 e).toNat

/-- A position shift is decided (R140). -/
def State.decideShift (s : State) (n : Nat) (d : Int) : State :=
  (s.updAx n (fun a => { a with idxShift := some (a.idxShift.getD 0 + BitVec.ofInt 64 d) })).raise (rFBK_STAT n) fFBK_STAT_SHIFT_PEND

/-- An index edge in a record (R136-R139). -/
def State.indexEdge (s : State) (n : Nat) (r : BitVec 128) (ft : FTime) : State :=
  if !s.idxSpeedOK n then s.raise (rFBK_STAT n) fFBK_STAT_IDXSKIP
  else
    let e := centred (s.idxCount n r - s.wfld (rFBK_IORG n) fFBK_IORG_INDEX_ORG) (s.fbCPR n)
    let s := (s.count (rFBK_ICNT n)).rset (rFBK_IERR n) (BitVec.ofInt 32 e)
    if !s.flag (rFBK_STAT n) fFBK_STAT_REFD then
      (((s.decideShift n (-e)).updAx n (fun a => { a with idxRef := true })).raise (rFBK_STAT n) fFBK_STAT_REFD).axEvent n 0x03 (errData e) ft
    else
      let s := s.countN (rFBK_DRIFT n) (min e.natAbs 0xFFFF)
      let big := decide (s.wfld (rFBK_ITOL n) fFBK_ITOL_INDEX_TOL < e.natAbs)
      let pol := s.wfld (rFBK_CFG n) fFBK_CFG_IPOL
      let s := if big then (s.raise (rFBK_STAT n) fFBK_STAT_IDXOVER).axEvent n 0x04 (errData e) ft else s
      if pol = 0 then s.decideShift n (-e)
      else if pol = 2 ∧ big = true then s.faultCause n fcINDEX (s.actStop n fAXC_FLT_ACT_INDEX)
      else s

/-! ### Speed (R145-R147) -/

/-- The window of R146: the first older pair with enough counts, else the oldest. -/
def spdWindow (x0 minc : Int) : List (FTime × BitVec 64 × FTime) → Option (FTime × Int)
  | [] => none
  | (t, x, _) :: r =>
    if minc ≤ (x0 - x.toInt).natAbs then some (t, x.toInt)
    else match spdWindow x0 minc r with
      | some w => some w
      | none => some (t, x.toInt)

/-- A speed in 2^-16 counts/s, saturated to the velocity format (R6, R7). -/
def spdVal (v : Int) : Val := BitVec.ofInt 64 (satInt 48 v)

/-- A record adds a pair: the mean speed over the window and its midpoint (R146); with no earlier pair the time is that of the pair (log
entry 124). -/
def State.speedPair (s : State) (n : Nat) (te tk : FTime) : State :=
  let a := s.ax n
  let win := (s.wfld (rFBK_CFG n) fFBK_CFG_MAXW + 1) * s.axPeriod n
  let old := a.hist.filter (fun h => decide (tdiff tk h.2.2 < win))
  let x0 := a.x.toInt
  let r : Val × FTime := match spdWindow x0 (s.wfld (rFBK_SPD n) fFBK_SPD_MINC) old with
    | none => ((0 : Val), te)
    | some (t, x) =>
      let dt := tdiff te t
      (spdVal (((x0 - x) * 16000000000 * 65536).tdiv dt), t + BitVec.ofInt 64 (dt / 2))
  let s := s.updAx n (fun a => { a with hist := (te, a.x, tk) :: old, spd := r.1, spdMid := r.2 })
  if r.1 = 0 then s else s.fset (rFBK_STAT n) fFBK_STAT_STILL 0

/-- A record without motion bounds the speed by the count that has not yet arrived (R147). -/
def State.speedBound (s : State) (n : Nat) (ts : FTime) : State :=
  let a := s.ax n
  match a.hist with
  | [] => s
  | h :: _ =>
    let dt := tdiff ts h.1
    if dt ≤ 0 then s
    else
      let lim := (16000000000 * 65536 : Int) / dt
      let v := a.spd.toInt
      s.updAx n (fun a => { a with spd := spdVal (if v < 0 then max v (-lim) else min v lim) })

/-- The speed after a record (R145-R147): a pair, the bound, or, with no edge time, the speed before. -/
def State.speedStep (s : State) (n : Nat) (r : BitVec 128) (ts tk : FTime) (moved : Bool) : State :=
  let s := s.updAx n (fun a => { a with moved := moved })
  if !moved then s.speedBound n ts
  else if recEDGE_DT r < 0xFFFF then s.speedPair n (ts - BitVec.ofNat 64 (40 * recEDGE_DT r)) tk
  else s

/-! ### SSI (R152, R153) -/

/-- Gray to binary over `w` bits. -/
def grayBin (x : Nat) : Nat → Nat
  | 0 => x
  | k + 1 => grayBin (x ^^^ (x >>> 2 ^ k)) k

/-- The position that an SSI word carries (R152). -/
def State.ssiPos (s : State) (n : Nat) (w : Word) : Nat :=
  let x := (w.toNat >>> s.wfld (rFBK_SSI n) fFBK_SSI_SHIFT) % 2 ^ (s.wfld (rFBK_SSI n) fFBK_SSI_WIDTH + 1)
  if s.wflag (rFBK_CFG n) fFBK_CFG_SSIGRAY then grayBin x 5 else x

/-- The node of a gondola, by the key under which the device knows it. -/
def State.nodeOf (s : State) (k : Nat) : Option Nat :=
  if k = gkey 24 0 then some homeNode
  else (s.gons.map (fun e => e.1)).find? (fun n => !isHome n && (s.gpos n).isSome && s.gkeyOf n == k)

/-- The length that the field of FBK_An_SSI takes up: what an SSI word must have at least (log entry 36). -/
def State.ssiNeed (s : State) (n : Nat) : Nat :=
  max 8 (min 32 (s.wfld (rFBK_SSI n) fFBK_SSI_SHIFT + s.wfld (rFBK_SSI n) fFBK_SSI_WIDTH + 1))

/-- The length of an SSI word, as CH_CFG.SSIBITS of the gondola's channel gives it (R122). -/
def State.ssiBits (s : State) (n : Nat) : Nat :=
  match s.nodeOf (s.axGon n) with
  | some g => s.gSsiBits g (s.axCh n)
  | none => s.ssiNeed n

/-- An SSI read in a record (R152, R153): v times T is rounded to the nearest count, halves upward (log entry 123). -/
def State.ssiRead (s : State) (n : Nat) (r : BitVec 128) : State :=
  let a := s.ax n
  let p := s.ssiPos n (recCNT r)
  let w := 2 ^ (s.wfld (rFBK_SSI n) fFBK_SSI_WIDTH + 1)
  let jmax := s.wfld (rFBK_SSI n) fFBK_SSI_JMAX * 256
  let d := centred ((p : Int) - (a.ssiPrev.getD p : Nat)) w
  let ones := decide ((recCNT r).toNat % 2 ^ s.ssiBits n = 2 ^ s.ssiBits n - 1)
  let jump := !a.resync && decide (jmax ≠ 0 ∧ jmax < d.natAbs)
  if ones || jump then
    let adv := (a.spd.toInt * s.axPeriod n + 65536 * 8000000000) / (65536 * 16000000000)
    ((s.raise (rFBK_STAT n) fFBK_STAT_SSIERR).count (rFBK_FERR n)).updAx n (fun a =>
      { a with x := a.x + BitVec.ofInt 64 adv, ssiRun := a.ssiRun + 1 })
  else if a.resync then
    (s.raise (rFBK_STAT n) fFBK_STAT_REFD).updAx n (fun a =>
      { a with x := BitVec.ofNat 64 p, cix := 0, ssiPrev := some p, ssiRun := 0, resync := false })
  else s.updAx n (fun a => { a with x := a.x + BitVec.ofInt 64 (s.fbDir n * d), ssiPrev := some p, ssiRun := 0 })

/-! ### Hall (R149, R150) -/

/-- The check of a Hall record (R150). -/
def State.hallCheck (s : State) (n : Nat) (r : BitVec 128) : State :=
  let bad := fun (s : State) => (s.raise (rFBK_STAT n) fFBK_STAT_HALLERR).count (rFBK_FERR n)
  match hallSector (BitVec.ofNat 3 (recAUX r)) with
  | none => bad (s.hallAngle n false)
  | some h =>
    let s := s.hallAngle n true
    let ok := match (s.ax n).hall with
      | none => true
      | some (h0, c0) => decide (((h : Int) - h0) % 6 = (recCNT r - c0).toInt % 6)
    let s := s.updAx n (fun a => { a with hall := some (h, recCNT r) })
    if ok then s else bad s

/-! ### The feedback stage (R127) -/

/-- Illegal transitions in a record (R130). -/
def State.illRecord (s : State) (n : Nat) (r : BitVec 128) (ft : FTime) : State :=
  if !recILL r then s
  else
    let s := (s.count (rFBK_ILL n)).raise (rFBK_STAT n) fFBK_STAT_ILLSEEN
    match s.wfld (rFBK_CFG n) fFBK_CFG_ILLACT with
    | 0 => s
    | 1 => s.axEvent n 0x06 0 ft
    | _ => s.faultCause n fcILLEGAL (s.actStop n fAXC_FLT_ACT_ILL)

/-- The count of a record of a counting source (R131, R132), and the speed it gives (R145-R147). -/
def State.countRecord (s : State) (n : Nat) (r : BitVec 128) (ts tk : FTime) : State :=
  let a := s.ax n
  let cnt := recCNT r
  if a.resync then
    ((s.fset (rFBK_STAT n) fFBK_STAT_REFD 0).updAx n (fun a => { a with cntPrev := cnt, resync := false })).speedBound n ts
  else
    let d := s.fbDir n * (cnt - a.cntPrev).toInt
    (s.updAx n (fun a => { a with x := a.x + BitVec.ofInt 64 d, cntPrev := cnt })).speedStep n r ts tk (cnt != a.cntPrev)

/-- The feedback stage on one record of an axis (R127-R153): sample instant `ts`, tick start `tk`. -/
def State.feedback (s : State) (n : Nat) (r : BitVec 128) (ts tk : FTime) : State :=
  let src := s.fbSrc n
  let s := (s.updAx n (fun a => { a with ts := ts, raw := r, fresh := true })).illRecord n r ts
  if s.fbOwn n then s.updAx n (fun a => { a with recent := (ts, s.actPos n, s.actSpd n) :: a.recent.take 7 })
  else
    let old := (s.ax n).sum
    let spd0 := (s.ax n).spd
    let prev := (s.ax n).cntPrev
    let s := if src = 4 then s.ssiRead n r else s.countRecord n r ts tk
    let s := if src = 3 then s.hallCheck n r else s
    let s := if src = 2 ∧ recIDX r = true then
        let v := (s.ax n).spd
        ((s.updAx n (fun a => { a with spd := spd0 })).indexEdge n r ts).updAx n (fun a => { a with spd := v })
      else s
    let s := if src = 4 then
        (s.updAx n (fun a => { a with cntPrev := recCNT r })).speedStep n r ts tk (recCNT r != prev)
      else s
    let s := s.sumMoved n old ts
    s.updAx n (fun a => { a with recent := (ts, s.actPos n, a.spd) :: a.recent.take 7 })

/-! ### Rows -/

/-- SPEED_STANDSTILL (R145, R147): after a record without motion. -/
def execSpeedStandstill (n : Fin 256) (s : State) : Out :=
  match (s.ax n).hist with
  | [] => .next s
  | h :: _ =>
    if !(s.ax n).moved ∧ (s.wfld (rFBK_SPD n) fFBK_SPD_STILL * 1000 * usUnits : Nat) ≤ tdiff (s.ax n).ts h.1 then
      .next ((s.updAx n (fun a => { a with spd := 0, hist := [] })).raise (rFBK_STAT n) fFBK_STAT_STILL)
    else .next s

/-- SSI_ERROR_FAULT (R153). -/
def execSsiErrorFault (n : Fin 256) (s : State) : Out :=
  if max 1 (s.wfld (rFBK_SSI n) fFBK_SSI_ERRN) ≤ (s.ax n).ssiRun then .next (s.faultCause n fcSSI false) else .next s

/-! ### Mailbox objects (R144, R159) -/

/-- An index that names an axis. -/
def axisIdx (i : BitVec 14) (f : Nat → MbxRes) (s : State) : MbxRes := if 256 ≤ i.toNat then mbxRes s mbxRANGE else f i.toNat

/-- FB_POS. -/
def mboFbPos (i : BitVec 14) (s : State) : MbxRes :=
  axisIdx i (fun n =>
    let st := rFBK_STAT n
    let b := fun (f : Bits) (k : Nat) => if s.flag st f then 2 ^ k else 0
    ⟨s, mbxOK, words64 (s.actPos n) ++ words64 (s.actSpd n) ++ [(s.ax n).turns] ++ words64 (s.ax n).spdMid
      ++ [BitVec.ofNat 32 (b fFBK_STAT_REFD 0 + b fFBK_STAT_STILL 1 + b fFBK_STAT_PLIM_NOW 2 + b fFBK_STAT_SHIFT_PEND 3)]⟩) s

/-- FB_SETPOS (R144). -/
def mboFbSetpos (i : BitVec 14) (p : BitVec 64) (s : State) : MbxRes :=
  axisIdx i (fun n =>
    let v := p.toInt
    if p.toNat % 65536 ≠ 0 ∨ (s.fbModulo n = true ∧ ¬(0 ≤ v ∧ v < s.fbM n * 65536)) then mbxRes s mbxREFUSED
    else mbxRes ((s.updAx n (fun a => { a with setPos := some p })).raise (rFBK_STAT n) fFBK_STAT_SHIFT_PEND) mbxOK) s

/-- FB_UNREF (R132, R144). -/
def mboFbUnref (i : BitVec 14) (s : State) : MbxRes :=
  axisIdx i (fun n => mbxRes (s.unref n) mbxOK) s

/-- FB_CORR. -/
def mboFbCorr (i : BitVec 14) (s : State) : MbxRes :=
  axisIdx i (fun n => ⟨s, mbxOK, words64 (s.ax n).cix ++ words64 (s.ax n).cuser ++ words64 (s.ax n).x⟩) s

def execFbPos (set : Fin 4) (via : RegPath) (index : BitVec 14) (s : State) : Out := .next (s.mbx set via 0x010 0 index [] (mboFbPos index))
def execFbSetpos (set : Fin 4) (via : RegPath) (index : BitVec 14) (pos : BitVec 64) (s : State) : Out :=
  .next (s.mbx set via 0x011 1 index (words64 pos) (mboFbSetpos index pos))
def execFbUnref (set : Fin 4) (via : RegPath) (index : BitVec 14) (s : State) : Out := .next (s.mbx set via 0x012 1 index [] (mboFbUnref index))
def execFbCorr (set : Fin 4) (via : RegPath) (index : BitVec 14) (s : State) : Out := .next (s.mbx set via 0x013 0 index [] (mboFbCorr index))

end Sys2Proof.Machine
end

