-- ==== Sys2Proof/Machine/Kinematics.lean ====
section
/-! DEFINITION. Jerk-limited motion (R251, R253): pieces of constant jerk, their evaluation, and the direct plans. Positions,
velocities and accelerations inside a plan are integers in units of 2^-48; jerks are in counts/s3; durations in field-time units. The
piece ends are rounded to these units (log entry 31). -/
namespace Sys2Proof.Machine

/-- Field-time units in a second. -/
def unitHz : Int := 16000000000

/-- Scale of the internal units above one count. -/
def kScale : Int := 2 ^ 48

/-- Nearest integer of a quotient, ties toward +∞ (R251). -/
def roundDiv (n d : Int) : Int := (2 * n + d) / (2 * d)

/-- A motion state. -/
structure Kin where
  p : Int
  v : Int
  a : Int
deriving DecidableEq, Repr

/-- The state `t` units later under jerk `j` (counts/s3). -/
def Kin.after (k : Kin) (j : Int) (t : Int) : Kin :=
  let u := unitHz
  let jj := j * kScale
  { p := k.p + roundDiv (6 * u ^ 2 * k.v * t + 3 * u * k.a * t ^ 2 + jj * t ^ 3) (6 * u ^ 3),
    v := k.v + roundDiv (2 * u * k.a * t + jj * t ^ 2) (2 * u ^ 2),
    a := k.a + roundDiv (jj * t) u }

/-- The state at the end of a list of pieces. -/
def Kin.run (k : Kin) : List (Nat × Int) → Kin
  | [] => k
  | (d, j) :: r => (k.after j d).run r

/-- The duration of a list of pieces. -/
def piecesDur (l : List (Nat × Int)) : Nat := (l.map (fun e => e.1)).sum

/-- The state `t` units after the start of a list of pieces; past the end of the list, the state at its end and the time since. -/
def Kin.at_ (k : Kin) (t : Nat) : List (Nat × Int) → Kin × Option Nat
  | [] => (k, some t)
  | (d, j) :: r => if t < d then (k.after j t, none) else (k.after j d).at_ (t - d) r

/-- Integer square root by bisection on `n` bits. -/
def isqrt (x : Nat) : Nat → Nat → Nat
  | 0, acc => acc
  | n + 1, acc =>
    let c := acc + 2 ^ n
    isqrt x n (if c * c ≤ x then c else acc)

/-- Sign of a number, +1 for zero. -/
def sgn (x : Int) : Int := if x < 0 then -1 else 1

/-- Units that a change `x` (2^-48) of acceleration takes under jerk `j`. -/
def jerkTime (x j : Int) : Nat := (roundDiv (x * unitHz) (j * kScale)).toNat

/-- The pieces from velocity `k.v` and acceleration `k.a` to velocity `v1` with zero acceleration, under an acceleration limit `lim`
(counts/s2) and jerk `j` (R253). -/
def rampTo (k : Kin) (v1 lim j : Int) : List (Nat × Int) :=
  let jj := j * kScale
  let l := lim * kScale
  -- the velocity at which the present acceleration, taken off at once, would end
  let w := k.v + k.a * k.a.natAbs / (2 * jj)
  let sg := if v1 = w then sgn k.a else sgn (v1 - w)
  let x := sg * k.a
  let dv := sg * (v1 - k.v)
  if l < x then
    let th := roundDiv ((dv - x * x / (2 * jj)) * unitHz) l
    [(jerkTime (x - l) j, -sg * j), (th.toNat, 0), (jerkTime l j, -sg * j)]
  else
    let full := (2 * l * l - x * x) / (2 * jj)
    if full ≤ dv then
      let th := roundDiv ((dv - full) * unitHz) l
      [(jerkTime (l - x) j, sg * j), (th.toNat, 0), (jerkTime l j, -sg * j)]
    else
      let ap : Int := isqrt (jj * dv + x * x / 2).toNat 100 0
      [(jerkTime (max 0 (ap - x)) j, sg * j), (jerkTime (max ap x) j, -sg * j)]

/-- The limits of a plan (counts/s, counts/s2, counts/s2, counts/s3). -/
structure Limits where
  v : Int
  a : Int
  d : Int
  j : Int
deriving DecidableEq, Repr

/-- Pieces to a velocity with zero acceleration: |v| falls under D and rises under A; through zero it stops there (R253, R256). -/
def planVel (k : Kin) (v1 : Int) (l : Limits) : List (Nat × Int) :=
  if k.v * v1 < 0 then
    let down := rampTo k 0 l.d l.j
    down ++ rampTo { (k.run down) with v := 0, a := 0 } v1 l.a l.j
  else rampTo k v1 (if k.v.natAbs < v1.natAbs then l.a else l.d) l.j

/-- Pieces of a plan that goes to speed `vp` and then to rest. -/
def planVia (k : Kin) (vp : Int) (l : Limits) (cruise : Nat) : List (Nat × Int) :=
  planVel k vp l ++ [(cruise, 0)] ++ rampTo { p := 0, v := vp, a := 0 } 0 l.d l.j

/-- Distance of such a plan. -/
def viaDist (k : Kin) (vp : Int) (l : Limits) : Int := (k.run (planVia k vp l 0)).p - k.p

/-- The greatest speed, below `lo + 2^n`, at which a plan via that speed goes no further than `dist`. -/
def bisectV (k : Kin) (dir dist : Int) (l : Limits) : Nat → Int → Int
  | 0, lo => lo
  | n + 1, lo =>
    let c := lo + 2 ^ n
    bisectV k dir dist l n (if c ≤ l.v * kScale ∧ dir * viaDist k (dir * c) l ≤ dist then c else lo)

/-- The direct plan from a state to rest at a position (R253, R256): a reversed target is reached through a rest at p_stop. -/
def planTo (k : Kin) (target : Int) (l : Limits) : List (Nat × Int) :=
  let stop := rampTo k 0 l.d l.j
  let rest := k.run stop
  let moving := decide (k.v ≠ 0 ∨ k.a ≠ 0)
  let dir := sgn (target - rest.p)
  let reversed := moving && decide (dir * (if k.v = 0 then k.a else k.v) < 0)
  let k1 : Kin := if reversed then { p := rest.p, v := 0, a := 0 } else k
  let pre := if reversed then stop else []
  let dist := dir * (target - k1.p)
  let vmax := l.v * kScale
  let full := dir * viaDist k1 (dir * vmax) l
  let vp := if full ≤ dist then vmax else bisectV k1 dir dist l 80 0
  let gap := dist - dir * viaDist k1 (dir * vp) l
  pre ++ planVia k1 (dir * vp) l (if vp ≤ 0 then 0 else (roundDiv (gap * unitHz) vp).toNat)

end Sys2Proof.Machine
end

