-- ==== Sys2Proof/Machine/Profile.lean ====
section
/-! DEFINITION. The set-point generator (R251-R282): sources, moves, streams and the envelope limiter, stops and resumes, interpolation
groups, the bridle, cams, remote masters, the stepper's current and the objects of the mailbox. -/
namespace Sys2Proof.Machine

/-! ### The envelope (R253, R280) -/

/-- The envelope in force. -/
def State.env (s : State) (n : Nat) : Limits :=
  { v := max 1 (s.wfld (rPRF_VMAX n) fPRF_VMAX_VMAX), a := max 1 (s.wfld (rPRF_AMAX n) fPRF_AMAX_AMAX),
    d := max 1 (s.wfld (rPRF_DMAX n) fPRF_DMAX_DMAX), j := max 1 (s.wfld (rPRF_JMAX n) fPRF_JMAX_JMAX) }

/-- A limit that zero leaves at a default. -/
def orElseZ (x d : Int) : Int := if x = 0 then d else x

/-- The limits of a stop profile (R260). -/
def State.stopLimits (s : State) (n : Nat) : Limits :=
  let e := s.env n
  { e with d := orElseZ (s.wfld (rPRF_DSTOP n) fPRF_DSTOP_DSTOP) e.d, j := orElseZ (s.wfld (rPRF_JSTOP n) fPRF_JSTOP_JSTOP) e.j }

/-- The limits of a MOVE (R255): the smaller of each request and the envelope; whether a request exceeds it. -/
def State.moveLimits (s : State) (n : Nat) (vl al dl jl : Word) : Limits × Bool :=
  let e := s.env n
  let f := fun (r : Word) (x : Int) => if r = 0 then x else min (r.toNat : Int) x
  ({ v := f vl e.v, a := f al e.a, d := f dl e.d, j := f jl e.j },
    decide (e.v < vl.toNat ∨ e.a < al.toNat ∨ e.d < dl.toNat ∨ e.j < jl.toNat))

/-! ### Evaluation (R251) -/

/-- The state of the generator at a field time, in internal units; past the last piece it stands, or goes on at the end velocity. -/
def Gen.kinAt (g : Gen) (t : FTime) : Kin × Bool :=
  let r := ({ p := g.p, v := g.v, a := g.a } : Kin).at_ (max 0 (tdiff t g.t0)).toNat g.pieces
  match r.2 with
  | none => (r.1, false)
  | some rest => (({ r.1 with v := g.endV.toInt * 2 ^ 32, a := 0 } : Kin).after 0 rest, true)

/-- From internal units to 2^-16, rounded to nearest (R251). -/
def to16 (x : Int) : Int := roundDiv x (2 ^ 32)

/-- Reduce a position (2^-16) to the range of its axis (R133, R134). -/
def State.fold (s : State) (n : Nat) (p : Int) : Val :=
  if s.fbModulo n then BitVec.ofInt 64 (p % (s.fbM n * 65536)) else val64 p

/-- p_set, v_set and a_set at a field time (R251, R257, R264). -/
def State.spAt (s : State) (n : Nat) (t : FTime) : Val × Val × Val :=
  let g := (s.ax n).gen
  let r := g.kinAt t
  if g.gDen = 0 then
    match r.2, g.endP with
    | true, some p => (p, 0, 0)
    | _, _ => (s.fold n (to16 r.1.p), spdVal (to16 r.1.v), val64 (to16 r.1.a))
  else
    match r.2, g.endP with
    | true, some p => (p, 0, 0)
    | _, _ => (s.fold n (g.gBase + roundDiv (r.1.p * g.gNum) (g.gDen * 2 ^ 32)),
        spdVal (roundDiv (r.1.v * g.gNum) (g.gDen * 2 ^ 32)), val64 (roundDiv (r.1.a * g.gNum) (g.gDen * 2 ^ 32)))

/-- The set-point at a field time in 2^-16 counts, not reduced to the range of a modulo axis. -/
def State.spRaw (s : State) (n : Nat) (t : FTime) : Int :=
  let g := (s.ax n).gen
  let r := g.kinAt t
  let x := if g.gDen = 0 then to16 r.1.p else g.gBase + roundDiv (r.1.p * g.gNum) (g.gDen * 2 ^ 32)
  match r.2, g.endP with
  | true, some p => if s.fbModulo n then p.toInt + s.fbM n * 65536 * roundDiv (x - p.toInt) (s.fbM n * 65536) else p.toInt
  | _, _ => x

/-- The wraps of a modulo axis without feedback since the last evaluation (R135). -/
def State.spWraps (s : State) (n : Nat) (t : FTime) : State :=
  if s.fbOwn n ∧ s.fbModulo n = true then
    let m := s.fbM n * 65536
    s.addTurns n (s.spRaw n t / m - s.spRaw n (s.ax n).gen.at_ / m)
  else s

/-- The present state from which a plan starts (R251). -/
def State.kinNow (s : State) (n : Nat) (t : FTime) : Kin :=
  let g := (s.ax n).gen
  let sp := s.spAt n t
  if g.gDen = 0 ∧ (g.kinAt t).2 = false then
    let k := (g.kinAt t).1
    if s.fbModulo n then { k with p := k.p % (s.fbM n * kScale) } else k
  else { p := sp.1.toInt * 2 ^ 32, v := sp.2.1.toInt * 2 ^ 32, a := sp.2.2.toInt * 2 ^ 32 }

/-- RATELIM, with its sticky RATESEEN (R280). -/
def State.setRate (s : State) (n : Nat) (b : Bool) : State :=
  let s := s.fsetb (rPRF_STAT n) fPRF_STAT_RATELIM b
  if b then s.raise (rPRF_STAT n) fPRF_STAT_RATESEEN else s

/-- Evaluate the generator at a field time, and note since when the axis stands still (R277). -/
def State.spUpdate (s : State) (n : Nat) (t : FTime) : State :=
  let sp := s.spAt n t
  let still := decide (sp.2.1 = 0 ∧ sp.2.2 = 0)
  let s := (s.spWraps n t).updGen n (fun g =>
    { g with pset := sp.1, vset := sp.2.1, aset := sp.2.2, at_ := t,
             restAt := if still && g.vset == 0 && g.aset == 0 then g.restAt else t })
  s.fsetb (rPRF_STAT n) fPRF_STAT_MOVING (sp.2.1 != 0)

/-- Start a plan: a source, the state it starts from, its pieces and its end. -/
def State.startPlan (s : State) (n : Nat) (t : FTime) (src : Src) (k : Kin) (pieces : List (Nat × Int)) (endP : Option Val) (endV : Val) : State :=
  let old := (s.spAt n t).1.toInt
  let s := (s.spWraps n t).updGen n (fun g =>
    { g with src := src, t0 := t, p := k.p, v := k.v, a := k.a, pieces := pieces, endP := endP, endV := endV, gDen := 0, gNum := 0,
             tArr := t + BitVec.ofNat 64 (piecesDur pieces), arrived := false, outside := false, at_ := t })
  let s := if s.fbOwn n ∧ s.fbModulo n = true then
      let m := s.fbM n * 65536
      s.addTurns n ((old + centred ((s.spAt n t).1.toInt - old) m) / m)
    else s
  s.spUpdate n t

/-- Source Rest at the present set-point (R252). -/
def State.startRest (s : State) (n : Nat) (t : FTime) : State :=
  let p := (s.spAt n t).1
  (s.startPlan n t .rest { p := p.toInt * 2 ^ 32, v := 0, a := 0 } [] (some p) 0).updGen n (fun g => { g with arrived := true })

/-! ### Leaving a source -/

/-- Count the users of a cam (R281). -/
def State.camUse (s : State) (c : Nat) (d : Int) : State :=
  s.fset (rLPE_CAM_CTL c) fLPE_CAM_CTL_USERS ((s.fget (rLPE_CAM_CTL c) fLPE_CAM_CTL_USERS : Int) + d).toNat

/-- Release the cams of a bridle. -/
def State.camsFree (s : State) (b : Bridle) : State :=
  let s := match b.cam with
    | some c => s.camUse c (-1)
    | none => s
  match b.camNext with
  | some c => s.camUse c (-1)
  | none => s

/-- A source other than bridle, cam and stream takes over: the bridle disengages, the stream queue empties and
the streamed torque reference is zero. -/
def State.leaveSource (s : State) (n : Nat) : State :=
  let b := (s.ax n).gen.br
  let s := s.camsFree b
  let s := s.updGen n (fun g => { g with br := {}, stream := [], past := [], lag := 0, ref := 0 })
  (s.fset (rPRF_STAT n) fPRF_STAT_ENGAGED 0).fset (rPRF_STAT n) fPRF_STAT_SYNC 0

/-- A motion command other than RESUME forgets the resume target (R261). -/
def State.dropResume (s : State) (n : Nat) : State :=
  (s.updGen n (fun g => { g with remain := 0, resTgt := 0, resVel := false, remPend := false })).fset (rPRF_STAT n) fPRF_STAT_REMV 0

/-! ### Moves (R255-R257) -/

/-- The end of a plan to a position, in the internal units of a present state: the shorter way round on a modulo axis, ties forward. -/
def State.tgtFrom (s : State) (n : Nat) (k : Kin) (target : Val) : Int :=
  let t := target.toInt * 2 ^ 32
  if s.fbModulo n then
    let m := s.fbM n * kScale
    let d := (t - k.p) % m
    k.p + (if 2 * d ≤ m then d else d - m)
  else t

/-- Plan a move to a position or to a velocity from the present state. -/
def State.planMove (s : State) (n : Nat) (t : FTime) (target : Val) (rel isVel : Bool) (vl al dl jl : Word) : State :=
  let k := s.kinNow n t
  let l := s.moveLimits n vl al dl jl
  let s := s.updGen n (fun g => { g with vl := vl, al := al, dl := dl, jl := jl, isVel := isVel })
  let s := if isVel then
      let v := max (-l.1.v * 65536) (min (l.1.v * 65536) (velIn target).toInt)
      (s.startPlan n t .velocity k (planVel k (v * 2 ^ 32) l.1) none (BitVec.ofInt 64 v)).updGen n (fun g => { g with target := velIn target })
    else
      let p := (s.spAt n t).1
      let abs_ : Val := if rel then s.fold n (p.toInt + target.toInt) else s.fold n target.toInt
      let tgt := if rel then (to16 k.p + target.toInt) * 2 ^ 32 else s.tgtFrom n k abs_
      (s.startPlan n t .move k (planTo k tgt l.1) (some abs_) 0).updGen n (fun g => { g with target := abs_ })
  s.setRate n l.2

/-! ### Interpolation groups (R263-R265) -/

/-- Is the axis a member of an interpolation group? -/
def State.inGroup (s : State) (n : Nat) : Bool := s.wflag (rPRF_CFG n) fPRF_CFG_IGEN

/-- The members of the axis's interpolation group. -/
def State.igroup (s : State) (n : Nat) : List Nat :=
  allAxes.filter (fun m => s.inGroup m && s.wfld (rPRF_CFG m) fPRF_CFG_IGRP == s.wfld (rPRF_CFG n) fPRF_CFG_IGRP)

/-- Does the group move? -/
def State.groupMoves (s : State) (n : Nat) : Bool :=
  s.inGroup n && (s.igroup n).any (fun m => (s.ax m).gen.gDen != 0 && !(s.ax m).gen.arrived)

/-- The leader of a list of distances: the largest, the lowest slot on a tie. -/
def leaderOf (ds : List (Nat × Int)) : Nat × Int :=
  ds.foldl (fun b e => if b.2.natAbs < e.2.natAbs then e else b) (0, 0)

/-- A path limit: the smallest member limit scaled to the leader (R264). -/
def pathLimit (ds : List (Nat × Int)) (lead : Int) (f : Nat → Int) : Int :=
  let l := (ds.filter (fun e => e.2 ≠ 0)).map (fun e => f e.1 * lead / e.2.natAbs)
  max 1 (l.foldl min (match l with
    | x :: _ => x
    | [] => 1))

/-- Limits of a group's path. -/
def State.pathLimits (s : State) (ds : List (Nat × Int)) (lead : Int) (stop : Bool) : Limits :=
  let lim := fun n => if stop then s.stopLimits n else s.env n
  { v := pathLimit ds lead (fun n => (lim n).v), a := pathLimit ds lead (fun n => (lim n).a),
    d := pathLimit ds lead (fun n => (lim n).d), j := pathLimit ds lead (fun n => (lim n).j) }

/-- Start a group on a line with the given distances (2^-16), the path's speed and acceleration (internal units) at its start. -/
def State.startLine (s : State) (t : FTime) (ds : List (Nat × Int)) (ends : Nat → Val) (v a : Int) : State :=
  let lead := (leaderOf ds).2.natAbs
  let k : Kin := { p := 0, v := v, a := a }
  let pieces := planTo k ((lead : Int) * 2 ^ 32) (s.pathLimits ds lead false)
  ds.foldl (fun s e =>
    let base := (s.spAt e.1 t).1
    let s := s.startPlan e.1 t .move k pieces (some (ends e.1)) 0
    let s := s.updGen e.1 (fun g => { g with gBase := base.toInt, gNum := e.2, gDen := max 1 (lead : Int), target := ends e.1, isVel := false,
                                             vl := 0, al := 0, dl := 0, jl := 0, staged := none })
    s.spUpdate e.1 t) s

/-- GO of a group move (R264): a member with no staged target keeps its position. -/
def State.groupGo (s : State) (n : Nat) (t : FTime) : State :=
  let ms := s.igroup n
  let dist := fun m =>
    let p := (s.spAt m t).1
    match (s.ax m).gen.staged with
    | none => (p, (0 : Int))
    | some tg => (tg, if s.fbModulo m then (s.tgtFrom m { p := p.toInt * 2 ^ 32, v := 0, a := 0 } tg) / 2 ^ 32 - p.toInt else tg.toInt - p.toInt)
  s.startLine t (ms.map (fun m => (m, (dist m).2))) (fun m => (dist m).1) 0 0

/-- Stop a group's path (R265). -/
def State.groupStop (s : State) (n : Nat) (t : FTime) : State :=
  let ms := s.igroup n
  let ds := ms.map (fun m => (m, (s.ax m).gen.gNum))
  let lead := (s.ax n).gen.gDen
  let l := s.pathLimits ds lead true
  ms.foldl (fun s m =>
    let g := (s.ax m).gen
    let k := (g.kinAt t).1
    let s := s.updGen m (fun g => { g with resTgt := g.target, resVel := false, resVl := 0, resAl := 0, resDl := 0, resJl := 0, remPend := true })
    let pieces := rampTo k 0 l.d l.j
    let s := s.startPlan m t .stop k pieces none 0
    (s.updGen m (fun x => { x with gBase := g.gBase, gNum := g.gNum, gDen := g.gDen })).spUpdate m t) s

/-- The group re-bases after a shift of a member (R265): new bases, remaining distances and leader, without a step in speed. -/
def State.groupRebase (s : State) (n : Nat) (t : FTime) : State :=
  let ms := s.igroup n
  let ds := ms.map (fun m => (m, (s.ax m).gen.target.toInt - (s.spAt m t).1.toInt))
  let l := leaderOf ds
  let sp := s.spAt l.1 t
  s.startLine t ds (fun m => (s.ax m).gen.target) ((sp.2.1.toInt.natAbs : Int) * 2 ^ 32) (sp.2.2.toInt * sgn l.2 * 2 ^ 32)

/-! ### Stop, REMAIN and RESUME (R260-R262) -/

/-- A stop request replaces the source with the stop profile (R260, R261). -/
def State.startStop (s : State) (n : Nat) (t : FTime) : State :=
  let g := (s.ax n).gen
  if g.gDen ≠ 0 ∧ g.src = .move then s.groupStop n t
  else
    let k := s.kinNow n t
    let l := s.stopLimits n
    let s := match g.src with
      | .move | .velocity => s.updGen n (fun g =>
          { g with resTgt := g.target, resVel := g.isVel, resVl := g.vl, resAl := g.al, resDl := g.dl, resJl := g.jl, remPend := true })
      | .stream | .bridle | .cam => s.dropResume n
      | _ => s
    let s := if g.src = .stop then s else s.leaveSource n
    let s := s.updGen n (fun g => { g with brArm := none })
    (s.startPlan n t .stop k (rampTo k 0 l.d l.j) none 0).setRate n false

/-- Is the stop profile complete at a tick boundary (R260)? -/
def State.stopDone (s : State) (n : Nat) (t : FTime) : Bool :=
  let sp := s.spAt n t
  decide (sp.2.1 = 0 ∧ sp.2.2 = 0)

/-- The stop profile completes: REMAIN and REMV (R261), source Rest. -/
def State.endStop (s : State) (n : Nat) (t : FTime) : State :=
  let g := (s.ax n).gen
  let s := s.startRest n t
  if g.remPend then
    let p := (s.ax n).gen.pset
    (s.updGen n (fun g => { g with remain := if g.resVel then 0 else val64 (g.resTgt.toInt - p.toInt), remPend := false })).fset
      (rPRF_STAT n) fPRF_STAT_REMV 1
  else s

/-- Run the generator again to its resume target under the kept limits (R262). -/
def State.resumeNow (s : State) (n : Nat) (t : FTime) : State :=
  let g := (s.ax n).gen
  (s.planMove n t g.resTgt false g.resVel g.resVl g.resAl g.resDl g.resJl).dropResume n

/-- RESUME (R262, R265): completion status. -/
def State.resume (s : State) (n : Nat) (t : FTime) (still : Nat → Bool) : State × Nat :=
  if !s.flag (rPRF_STAT n) fPRF_STAT_REMV then (s, stNOREMAIN)
  else if s.inGroup n then
    let ms := s.igroup n
    if !ms.all still then (s, stSTATE)
    else
      let tgt := fun m => if s.flag (rPRF_STAT m) fPRF_STAT_REMV then (s.ax m).gen.resTgt else (s.spAt m t).1
      let s' := s.startLine t (ms.map (fun m => (m, (tgt m).toInt - (s.spAt m t).1.toInt))) tgt 0 0
      (ms.foldl (fun s m => s.dropResume m) s', stOK)
  else (s.resumeNow n t, stOK)

/-! ### Masters (R266, R271) -/

/-- Maximum age of a remote master's message, in field-time units. -/
def State.rmAge (s : State) (r : Nat) : Nat := max 1 (min 1000 (s.fget (rLPE_RM_CFG r) fLPE_RM_CFG_MAGE)) * 1000 * usUnits

/-- Position and velocity of a remote master at a time (R271): extrapolated, and after MAGE brought to rest at RDEC. -/
def State.rmAt (s : State) (r : Nat) (t : FTime) : Int × Int :=
  let m := s.rmSlot r
  let dt := tdiff t m.t
  let age : Int := s.rmAge r
  let p := m.p.toInt
  let v := m.v.toInt
  if dt ≤ age then (p + roundDiv (v * dt) unitHz, v)
  else
    let dec : Int := (max 1 (s.fget (rLPE_RM_DEC r) fLPE_RM_DEC_RDEC) : Nat) * 65536
    let p1 := p + roundDiv (v * age) unitHz
    let stopT := (v.natAbs : Int) * unitHz / dec
    let x := min (dt - age) stopT
    (p1 + roundDiv (v * x) unitHz - sgn v * roundDiv (dec * x * x) (2 * unitHz * unitHz),
      if stopT ≤ dt - age then 0 else v - sgn v * roundDiv (dec * x) unitHz)

/-- Position and velocity of a bridle's master at a time (R266), and its modulus (2^-16) where it has one. -/
def State.masterAt (s : State) (b : Bridle) (t : FTime) : Int × Int × Option Int :=
  let m := b.master
  let md := if b.mkind < 2 ∧ s.fbModulo m = true then some (s.fbM m * 65536) else none
  match b.mkind with
  | 0 =>
    let v := (s.actSpd m).toInt
    ((s.actPos m).toInt + roundDiv (v * tdiff t (if s.fbOwn m then (s.ax m).gen.at_ else (s.ax m).ts)) unitHz, v, md)
  | 1 => let sp := s.spAt m t; (sp.1.toInt, sp.2.1.toInt, md)
  | _ => let r := s.rmAt m t; (r.1, r.2, none)

/-- The change of a master's position, nearest for a modulo master (R267). -/
def masterStep (old new : Int) (md : Option Int) : Int :=
  match md with
  | some m => centred (new - old) m
  | none => new - old

/-! ### Cams (R273-R275) -/

/-- Where cam points lie in shared SRAM (R28). -/
def camBase : Nat := 0x104000

def State.camN (s : State) (c : Nat) : Nat := s.fget (rLPE_CAM_N c) fLPE_CAM_N_N
def State.camStep (s : State) (c : Nat) : Int := s.fget (rLPE_CAM_STEP c) fLPE_CAM_STEP_MSTEP
def State.camCyclic (s : State) (c : Nat) : Bool := s.flag (rLPE_CAM_CTL c) fLPE_CAM_CTL_MODE

/-- Point `i` of a cam (2^-16). -/
def State.camPt (s : State) (c : Nat) (i : Int) : Int :=
  let n := s.camN c
  let j := (max 0 (min ((n : Int) - 1) i)).toNat
  (BitVec.ofNat 64 (leNat (memRead s.sram (camBase + 8 * (s.fget (rLPE_CAM_BASE c) fLPE_CAM_BASE_BASE + j)) 8))).toInt

/-- A point with the neighbours beyond the ends that the cubic takes (R274). -/
def State.camPtX (s : State) (c : Nat) (i : Int) : Int :=
  let n : Int := s.camN c
  if s.camCyclic c then
    let span := s.camPt c (n - 1) - s.camPt c 0
    if i < 0 then s.camPt c (n - 1 + i) - span
    else if n - 1 < i then s.camPt c (i - (n - 1)) + span else s.camPt c i
  else s.camPt c i

/-- The master length of a cam (2^-16). -/
def State.camLen (s : State) (c : Nat) : Int := ((s.camN c : Int) - 1) * s.camStep c * 65536

/-- I(u) and I'(u) as a ratio over one second of master counts: value (2^-16) and slope times 2^32 (R274). -/
def State.camI (s : State) (c : Nat) (u : Int) : Int × Int :=
  let st := max 1 (s.camStep c * 65536)
  let i := min (u / st) ((s.camN c : Int) - 2)
  let x := u - i * st
  let p0 := s.camPtX c (i - 1)
  let p1 := s.camPtX c i
  let p2 := s.camPtX c (i + 1)
  let p3 := s.camPtX c (i + 2)
  if s.flag (rLPE_CAM_CTL c) fLPE_CAM_CTL_INTERP then
    let c1 := p2 - p0
    let c2 := 2 * p0 - 5 * p1 + 4 * p2 - p3
    let c3 := 3 * (p1 - p2) + p3 - p0
    (p1 + roundDiv (c1 * x * st ^ 2 + c2 * x ^ 2 * st + c3 * x ^ 3) (2 * st ^ 3),
      roundDiv ((c1 * st ^ 2 + 2 * c2 * x * st + 3 * c3 * x ^ 2) * 2 ^ 32) (2 * st ^ 3))
  else (p1 + roundDiv ((p2 - p1) * x) st, roundDiv ((p2 - p1) * 2 ^ 32) st)

/-- C(u), the slope, and whether a single cam stands at an end (0 start, 1 finish). -/
def State.camC (s : State) (c : Nat) (u : Int) : Int × Int × Option Nat :=
  let len := max 1 (s.camLen c)
  if s.camCyclic c then
    let k := u / len
    let r := s.camI c (u - k * len)
    (k * (s.camPt c ((s.camN c : Int) - 1) - s.camPt c 0) + r.1 - s.camPt c 0, r.2, none)
  else
    let r := s.camI c (max 0 (min len u))
    (r.1 - s.camPt c 0, if u ≤ 0 ∨ len ≤ u then 0 else r.2, if u ≤ 0 then some 0 else if len ≤ u then some 1 else none)

/-- Where in shared SRAM the points lie that a cam is evaluated from at u (R28, R274). -/
def State.camPlaces (s : State) (c : Nat) (u : Int) : List Nat :=
  let n : Int := s.camN c
  let cyc := s.camCyclic c
  let len := max 1 (s.camLen c)
  let v := if cyc then u - u / len * len else max 0 (min len u)
  let i := min (v / max 1 (s.camStep c * 65536)) (n - 2)
  let js := if s.flag (rLPE_CAM_CTL c) fLPE_CAM_CTL_INTERP then [i - 1, i, i + 1, i + 2] else [i, i + 1]
  let place := fun (j : Int) => if !cyc then j else if j < 0 then n - 1 + j else if n - 1 < j then j - (n - 1) else j
  ((0 :: js.map place) ++ (if cyc then [n - 1] else [])).map (fun j =>
    camBase + 8 * (s.fget (rLPE_CAM_BASE c) fLPE_CAM_BASE_BASE + (max 0 (min (n - 1) j)).toNat)) |>.eraseDups

/-! ### The bridle's demand (R267, R268, R274) -/

/-- The ramp g(M), whether it is full, and its slope times 2^32 (R268). -/
def ramped (b : Bridle) : Int × Bool × Int :=
  if b.mode ≠ 2 ∨ b.lr = 0 then (b.mdisp, true, 2 ^ 32)
  else if b.gFull ∨ b.lr.natAbs ≤ b.mdisp.natAbs ∧ 0 < b.mdisp * sgn b.lr then (b.mdisp - b.lr / 2, true, 2 ^ 32)
  else if b.mdisp * sgn b.lr ≤ 0 then (0, false, 0)
  else (roundDiv (b.mdisp * b.mdisp) (2 * b.lr), false, roundDiv (b.mdisp * 2 ^ 32) b.lr)

/-- A quotient by a signed denominator, rounded to nearest. -/
def ratio (m num den : Int) : Int := if den < 0 then roundDiv (-(m * num)) (-den) else roundDiv (m * num) den

/-- u of a cam (R274). -/
def Bridle.camU (b : Bridle) : Int := ratio (ramped b).1 b.num b.den + b.cphase

/-- Demand and its velocity for a master velocity, and the cam end reached (R267, R274). -/
def State.brDemand (s : State) (b : Bridle) (vm : Int) : Int × Int × Option Nat :=
  let r := ramped b
  let v := roundDiv (ratio vm b.num b.den * r.2.2) (2 ^ 32)
  match b.cam with
  | none => (b.base + ratio r.1 b.num b.den + b.offset, v, none)
  | some c =>
    let x := s.camC c (ratio r.1 b.num b.den + b.cphase)
    (b.base + x.1 + b.offset, roundDiv (v * x.2.1) (2 ^ 32), x.2.2)

/-- Keep |M| below 2^40 counts without moving the demand (R267): with a cam the phase takes what M loses; a ramp not yet full keeps M
(log entry 133). -/
def Bridle.renorm (b : Bridle) : Bridle :=
  if b.mdisp.natAbs < 2 ^ 56 ∨ (ramped b).2.1 = false then b
  else
    let unit : Int := (b.den.natAbs : Int) * 65536
    let k := b.mdisp.tdiv (max 1 unit)
    let d := k * b.num * sgn b.den * 65536
    let b := { b with mdisp := b.mdisp - k * unit, gFull := true }
    if b.cam.isSome then { b with cphase := b.cphase + d } else { b with base := b.base + d }

/-- Take the master's motion up to a time into M. -/
def State.brAdvance (s : State) (b : Bridle) (t : FTime) : Bridle × Int :=
  let m := s.masterAt b t
  let b := { b with mdisp := b.mdisp + masterStep b.mlast.toInt m.1 m.2.2, mlast := BitVec.ofInt 64 m.1 }
  (({ b with gFull := b.gFull || (b.mode == 2 && (ramped b).2.1) } : Bridle).renorm, m.2.1)

/-- A bridle with M = 0 whose demand is `p` (R268, R269). -/
def State.brBase (s : State) (b : Bridle) (p : Int) (t : FTime) : Bridle :=
  let b := { b with mdisp := 0, gFull := false, mlast := BitVec.ofInt 64 (s.masterAt b t).1, base := 0 }
  { b with base := p - (s.brDemand b 0).1 }

/-! ### Streams (R258) -/

/-- Queue a stream point; `false` when 16 are queued. A point not later than queued ones replaces them. -/
def Gen.pushPoint (g : Gen) (t now : FTime) (v : Val) : Gen × Bool :=
  let t := if t = 0 ∨ reached now t then now else t
  let kept := g.stream.filter (fun e => decide (0 < tdiff t e.1))
  if 16 ≤ g.stream.length then (g, false) else ({ g with stream := kept ++ [(t, v)] }, true)

/-- Points whose time has come pass out of the queue. -/
def Gen.passPoints (g : Gen) (t : FTime) : Gen :=
  let done := g.stream.takeWhile (fun e => reached t e.1)
  { g with stream := g.stream.drop done.length, past := (done.reverse ++ g.past).take 2 }

/-- Slope between two points, times 2^64 per unit. -/
def slope (a b : FTime × Val) : Int :=
  let dt := tdiff b.1 a.1
  if dt ≤ 0 then 0 else (b.2.toInt - a.2.toInt) * 2 ^ 64 / dt

/-- The demand of a position stream at a time (R258): cubic Hermite through the points; past the last it holds. -/
def Gen.streamAt (g : Gen) (t : FTime) : Int × Int :=
  match g.past, g.stream with
  | [], [] => (g.pset.toInt, 0)
  | a :: _, [] => (a.2.toInt, 0)
  | [], b :: _ => (b.2.toInt, 0)
  | a :: ps, b :: ns =>
    let h := tdiff b.1 a.1
    let x := tdiff t a.1
    let sl := slope a b
    let m0 := match ps with
      | z :: _ => (slope z a + sl) / 2
      | [] => sl
    let m1 := match ns with
      | z :: _ => (sl + slope b z) / 2
      | [] => sl
    if h ≤ 0 then (b.2.toInt, 0)
    else
      (roundDiv (a.2.toInt * (2 * x ^ 3 - 3 * x ^ 2 * h + h ^ 3) + b.2.toInt * (3 * x ^ 2 * h - 2 * x ^ 3)) (h ^ 3)
          + roundDiv (m0 * (x ^ 3 - 2 * x ^ 2 * h + x * h ^ 2) + m1 * (x ^ 3 - x ^ 2 * h)) (h ^ 2 * 2 ^ 64),
        roundDiv ((b.2.toInt - a.2.toInt) * (6 * x * h - 6 * x ^ 2) * unitHz) (h ^ 3)
          + roundDiv ((m0 * (3 * x ^ 2 - 4 * x * h + h ^ 2) + m1 * (3 * x ^ 2 - 2 * x * h)) * unitHz) (h ^ 2 * 2 ^ 64))

/-! ### The envelope limiter (R259) -/

/-- The time step of the profile in field-time units (R162). -/
def State.profStep (s : State) (n : Nat) : Int := s.axPdiv n * s.axPeriod n

/-- One run of the limiter on a demand of a position and velocity (2^-16), or of a velocity alone. -/
def State.limiter (s : State) (n : Nat) (t : FTime) (pd vd : Int) (velOnly : Bool) : State :=
  let g := (s.ax n).gen
  let e := s.env n
  let k := s.kinNow n t
  let dt := s.profStep n
  let acc := (vd * 2 ^ 32 - k.v) * unitHz / dt
  let alim := if k.v.natAbs ≤ vd.natAbs * 2 ^ 32 then e.a else e.d
  let fits := decide (vd.natAbs ≤ e.v.toNat * 65536) && decide ((acc.natAbs : Int) ≤ alim * kScale)
    && decide (((acc - k.a).natAbs : Int) * unitHz ≤ e.j * kScale * dt)
  let prevEq := match g.dPrev with
    | some d => if velOnly then g.vset == d.2 else g.pset == d.1 && g.vset == d.2
    | none => false
  let sync := (prevEq || (!g.inSync && reached t g.meet && g.dPrev.isSome)) && fits
  let dem : Val × Val := (s.fold n pd, spdVal vd)
  let pd' := if s.fbModulo n then to16 k.p + centred (pd - to16 k.p) (s.fbM n * 65536) else pd
  let s := if sync then
      let a := acc
      let p0 := if velOnly then k.p else pd' * 2 ^ 32
      (s.startPlan n t g.src { p := p0, v := vd * 2 ^ 32, a := a } [(dt.toNat, 0)] none (spdVal vd)).updGen n (fun g => { g with a := 0 })
    else if velOnly then
      let v := max (-e.v * 65536) (min (e.v * 65536) vd)
      s.startPlan n t g.src k (planVel k (v * 2 ^ 32) e) none (spdVal v)
    else
      let err := pd' * 2 ^ 32 - k.p
      let room := if 0 ≤ err then e.v * 65536 - vd else e.v * 65536 + vd
      if room ≤ 0 then
        let v := sgn vd * e.v * kScale
        s.startPlan n t g.src k (planVel k v e) none (spdVal (sgn vd * e.v * 65536))
      else
        let kr : Kin := { p := 0, v := k.v - vd * 2 ^ 32, a := k.a }
        let pieces := planTo kr err { e with v := max 1 (room / 65536) }
        s.startPlan n t g.src k pieces none (spdVal vd)
  let sp := s.spAt n t
  let s := s.updGen n (fun g =>
    { g with inSync := sync, dPrev := some dem, meet := g.tArr, lag := if velOnly then 0 else val64 (pd' - sp.1.toInt), arrived := true })
  let s := s.setRate n (!sync)
  if g.src = .bridle ∨ g.src = .cam then s.fsetb (rPRF_STAT n) fPRF_STAT_SYNC sync else s

/-- Is a state outside an envelope (R254)? -/
def Kin.outside (k : Kin) (e : Limits) : Bool :=
  decide (e.v * kScale < k.v.natAbs) || decide ((if 0 ≤ k.v * k.a then e.a else e.d) * kScale < (k.a.natAbs : Int))

/-- Pieces that bring |a| and then |v| of a state within an envelope, at D under J (R254). -/
def bringIn (k : Kin) (e : Limits) : List (Nat × Int) :=
  let lim := (if 0 ≤ k.v * k.a then e.a else e.d) * kScale
  let p1 : List (Nat × Int) := if lim < (k.a.natAbs : Int) then [(jerkTime (k.a.natAbs - lim) e.j, -(sgn k.a) * e.j)] else []
  let k1 := k.run p1
  p1 ++ (if e.v * kScale < k1.v.natAbs then rampTo k1 (sgn k1.v * e.v * kScale) e.d e.j else [])

/-- RATELIM of a move or velocity (R254, R255): outside the envelope, or with a request above it. -/
def State.moveRate (s : State) (n : Nat) (t : FTime) : State :=
  let g := (s.ax n).gen
  let out := (s.kinNow n t).outside (s.env n)
  (s.updGen n (fun g => { g with outside := out })).setRate n (out || (s.moveLimits n g.vl g.al g.dl g.jl).2)

/-- The present source planned anew after a change of the envelope (R254): a move keeps its end, a velocity its target, a stop its ramp;
streams, bridles and cams meet the new envelope in the limiter. -/
def State.replan (s : State) (n : Nat) (t : FTime) : State :=
  let s := s.updGen n (fun g => { g with replan := false })
  let g := (s.ax n).gen
  let k := s.kinNow n t
  let pre := bringIn k (s.env n)
  let l := (s.moveLimits n g.vl g.al g.dl g.jl).1
  match g.src with
  | .move =>
    if g.arrived then s
    else if g.gDen ≠ 0 then s.groupRebase n t
    else
      let endK := (g.kinAt g.tArr).1.p + k.p - (g.kinAt t).1.p
      (s.startPlan n t .move k (pre ++ planTo (k.run pre) endK l) g.endP 0).moveRate n t
  | .velocity =>
    let v := max (-l.v * 65536) (min (l.v * 65536) g.target.toInt)
    ((s.startPlan n t .velocity k (pre ++ planVel (k.run pre) (v * 2 ^ 32) l) none (BitVec.ofInt 64 v)).updGen n (fun x => { x with arrived := g.arrived })).moveRate n t
  | .stop =>
    if g.gDen ≠ 0 then s.groupStop n t
    else let l := s.stopLimits n; s.startPlan n t .stop k (rampTo k 0 l.d l.j) none 0
  | _ => s

/-- A run of the profile (R162, R259): streams, bridles and cams give their demand to the limiter; every source is evaluated. -/
def State.profileRun (s : State) (n : Nat) (t : FTime) : State :=
  let s := if (s.ax n).gen.replan then s.replan n t else s
  let g := (s.ax n).gen
  match g.src with
  | .stream =>
    let g' := g.passPoints t
    let s := s.updGen n (fun _ => g')
    let s := if g.stream ≠ [] ∧ g'.stream = [] then s.raise (rPRF_STAT n) fPRF_STAT_STARVE else s
    if s.axCmode n = 1 then
      let v := match g'.past with
        | a :: _ => a.2.toInt
        | [] => g.vset.toInt
      s.limiter n t 0 v true
    else
      let d := g'.streamAt t
      s.limiter n t d.1 d.2 false
  | .bridle | .cam =>
    let a := s.brAdvance g.br t
    let d := s.brDemand a.1 a.2
    let atEnd := d.2.2.isSome
    let s := s.updGen n (fun g => { g with br := { a.1 with camEnd := atEnd } })
    let s := match d.2.2, g.br.camEnd with
      | some e, false => (s.raise (rPRF_STAT n) fPRF_STAT_CAMEND).axEvent n 0x0A ((g.br.cam.getD 0) + 256 * e) t
      | _, _ => s
    s.limiter n t d.1 d.2.1 false
  | _ =>
    let s := s.spUpdate n t
    if g.outside then s.moveRate n t else s

/-! ### Motion commands at a tick boundary (R252, R255, R258, R262, R264, R268, R269, R275) -/

/-- Would a GEAR close a chain of masters (R266)? -/
def State.masterChain (s : State) (slave : Nat) : Nat → Nat → Bool
  | 0, _ => true
  | fuel + 1, m =>
    if m = slave then true
    else
      let b := (s.ax m).gen.br
      if b.engaged ∧ b.mkind < 2 then s.masterChain slave fuel b.master else false

/-- A new ratio or master of an engaged slave (R269): M = 0, and the base such that the demand goes on; a cam stays selected. -/
def State.gearChange (s : State) (n : Nat) (t : FTime) (b : Bridle) : State :=
  let o := (s.brAdvance (s.ax n).gen.br t).1
  let b := { b with engaged := true, cam := o.cam, camNext := o.camNext, camEnd := o.camEnd, cphase := o.cphase }
  let b := s.brBase b (s.brDemand o 0).1 t
  let b := match b.cam with
    | some c => { b with camK := b.camU / max 1 (s.camLen c) }
    | none => b
  s.updGen n (fun g => { g with br := b, brArm := none })

/-- Bind or change a bridle (R268, R269). -/
def State.gearNow (s : State) (n : Nat) (t : FTime) (b : Bridle) : State :=
  if (s.ax n).gen.br.engaged then s.gearChange n t b
  else
  let p := (s.spAt n t).1.toInt
  let b := s.brBase { b with engaged := true } p t
  let s := s.leaveSource n
  let s := s.updGen n (fun g => { g with src := .bridle, br := b, brArm := none, dPrev := none, inSync := false })
  s.raise (rPRF_STAT n) fPRF_STAT_ENGAGED

/-- GEAR as taken at a boundary: the completion status. -/
def State.gear (s : State) (n : Nat) (t : FTime) (mode mkind master : BitVec 8) (gf : BitVec 2) (num den : Word) (offset lr mpos : BitVec 64) : State × Nat :=
  let g := (s.ax n).gen
  if s.axCmode n ≠ 0 then (s, stSTATE)
  else if mode = 0 then
    let k := s.kinNow n t
    let s := ((s.leaveSource n).updGen n (fun g => { g with brArm := none })).dropResume n
    ((s.startPlan n t .velocity k (planVel k 0 (s.env n)) none 0).updGen n (fun g =>
      { g with target := 0, isVel := true, vl := 0, al := 0, dl := 0, jl := 0 }), stOK)
  else if gf.toNat.testBit 1 ∧ g.br.engaged then
    ((s.updGen n (fun g => { g with br := { g.br with offset := offset.toInt } })).dropResume n, stOK)
  else if mkind ≠ 2 ∧ s.masterChain n 257 master.toNat then (s, stSTATE)
  else
    let b : Bridle := { mkind := mkind.toNat, master := master.toNat, mode := mode.toNat, dir := gf.toNat.testBit 0, num := num.toInt,
                        den := den.toInt, offset := offset.toInt, lr := lr.toInt, mpos := mpos }
    let s := s.dropResume n
    if mode = 3 then
      (s.updGen n (fun g => { g with brArm := some { b with mlast := BitVec.ofInt 64 (s.masterAt b t).1 } }), stOK)
    else
      ((s.gearNow n t b).axEvent n 0x0B 0 t, stOK)

/-- CAM SELECT (R275). -/
def State.camSelect (s : State) (n : Nat) (_t : FTime) (cam : Nat) (cf : BitVec 4) (cphase : BitVec 64) : State × Nat :=
  let g := (s.ax n).gen
  if !g.br.engaged ∨ s.camN cam < 2 then (s, stSTATE)
  else if cf.toNat.testBit 2 ∧ g.br.cam.isSome then
    let s := match g.br.camNext with
      | some c => s.camUse c (-1)
      | none => s
    let len := max 1 (s.camLen (g.br.cam.getD 0))
    ((s.camUse cam 1).updGen n (fun g => { g with br := { g.br with camNext := some cam, camK := g.br.camU / len } }), stOK)
  else
    let p := (s.brDemand g.br 0).1
    let s := (s.camsFree g.br).camUse cam 1
    let b := { g.br with cam := some cam, cphase := cphase.toInt, camNext := none, camEnd := false, base := 0 }
    let b := { b with base := p - (s.brDemand b 0).1 }
    ((s.updGen n (fun g => { g with br := b, src := .cam })).dropResume n, stOK)

/-- CAM DESELECT (R275). -/
def State.camDeselect (s : State) (n : Nat) : State × Nat :=
  let g := (s.ax n).gen
  if g.br.cam.isNone then (s, stSTATE)
  else
    let p := (s.brDemand g.br 0).1
    let s := s.camsFree g.br
    let b := { g.br with cam := none, camNext := none, base := 0 }
    let b := { b with base := p - (s.brDemand b 0).1 }
    ((s.updGen n (fun g => { g with br := b, src := .bridle })).dropResume n, stOK)

/-- MOVE as taken at a boundary: status and completion payload (the planned arrival time, R255, R387). -/
def State.moveNow (s : State) (n : Nat) (t : FTime) (target : BitVec 64) (vl al dl jl : Word) (mf : BitVec 3) : State × Nat × Nat :=
  let grp := mf.toNat.testBit 1
  let go := mf.toNat.testBit 2
  if s.axCmode n = 2 ∨ (grp ∧ !s.inGroup n) ∨ (!grp ∧ s.groupMoves n) then (s, stSTATE, 0)
  else
    let s := (s.dropResume n).updGen n (fun g => { g with brArm := none })
    if grp then
      let rel := mf.toNat.testBit 0
      let p := (s.spAt n t).1
      let tg : Val := if rel then s.fold n (p.toInt + target.toInt) else s.fold n target.toInt
      let s := s.updGen n (fun g => { g with staged := some tg })
      if go then
        let s := (s.igroup n).foldl (fun s m => s.leaveSource m) s
        let s := s.groupGo n t
        (s, stOK, (s.ax n).gen.tArr.toNat)
      else (s, stOK, 0)
    else
      let s := s.leaveSource n
      let s := s.planMove n t target (mf.toNat.testBit 0) (s.axCmode n == 1) vl al dl jl
      (s, stOK, (s.ax n).gen.tArr.toNat)

/-- A streamed point takes the source at a boundary and enters the queue (R252, R258, R380). -/
def State.streamNow (s : State) (n : Nat) (t pt : FTime) (v : Val) : State :=
  let g := (s.ax n).gen
  let push := fun (s : State) => s.updGen n (fun g => (g.pushPoint pt t v).1)
  if s.axCmode n = 2 ∨ g.src = .stream then push (s.dropResume n)
  else push <|
    let s := s.camsFree g.br
    let s := (s.dropResume n).updGen n (fun g =>
      { g with src := .stream, br := {}, brArm := none, dPrev := none, inSync := false,
               past := [(t, if s.axCmode n = 1 then g.vset else g.pset)] })
    (s.fset (rPRF_STAT n) fPRF_STAT_ENGAGED 0).fset (rPRF_STAT n) fPRF_STAT_SYNC 0

/-- A motion command taken in a state that accepts it: status and payload. -/
def State.motionNow (s : State) (n : Nat) (t : FTime) (op : MotionOp) (still : Nat → Bool) : State × Nat × Nat :=
  match op with
  | .move target vl al dl jl mf => s.moveNow n t target vl al dl jl mf
  | .resume => let r := s.resume n t still; (r.1, r.2, 0)
  | .gear mode mkind master gf num den offset lr mpos => let r := s.gear n t mode mkind master gf num den offset lr mpos; (r.1, r.2, 0)
  | .camSelect cam cf cphase => let r := s.camSelect n t cam.toNat cf cphase; (r.1, r.2, 0)
  | .camDeselect _ => let r := s.camDeselect n; (r.1, r.2, 0)
  | _ => (s, stOK, 0)

/-! ### Rows -/

/-- MOVE_ARRIVAL (R257): the plan has reached its target. -/
def execMoveArrival (n : Fin 256) (s : State) : Out :=
  let g := (s.ax n).gen
  if (g.src = .move ∨ g.src = .velocity) ∧ !g.arrived ∧ reached s.now g.tArr then
    let s := (s.updGen n (fun g => { g with arrived := true })).axEvent n 0x02 g.tArr.toNat g.tArr
    .next ((if g.src = .move then s.startRest n s.now else s.spUpdate n s.now).setRate n (g.src == .velocity && s.flag (rPRF_STAT n) fPRF_STAT_RATELIM))
  else .next s

/-- Has a master crossed a position between two runs (R268)? -/
def crossed (old step target : Int) (back : Bool) (md : Option Int) : Bool :=
  let d := match md with
    | some m => centred (target - old) m
    | none => target - old
  if back then decide (step ≤ d ∧ d < 0) else decide (0 < d ∧ d ≤ step)

/-- GEAR_ENGAGE (R268): at a profile run, an armed POSITION bridle engages if its master has crossed MPOS. -/
def execGearEngage (n : Fin 256) (s : State) : Out :=
  match (s.ax n).gen.brArm with
  | none => .next s
  | some b =>
    let t := s.axTickStart n
    let m := s.masterAt b t
    if crossed b.mlast.toInt (masterStep b.mlast.toInt m.1 m.2.2) b.mpos.toInt b.dir m.2.2 then
      .next ((s.gearNow n t b).axEvent n 0x0B 0 t)
    else .next (s.updGen n (fun g => { g with brArm := some { b with mlast := BitVec.ofInt 64 m.1 } }))

/-- CAM_CYCLE_SWITCH (R275): u of the present cam has crossed a multiple of its length since the new cam was armed. -/
def execCamCycleSwitch (n : Fin 256) (s : State) : Out :=
  let g := (s.ax n).gen
  match g.br.cam, g.br.camNext with
  | some c, some c' =>
    let a := s.brAdvance g.br (s.axTickStart n)
    let len := max 1 (s.camLen c)
    let u := a.1.camU
    let k := u / len
    if k = g.br.camK then .next s
    else
      let cross := if g.br.camK < k then k else k + 1
      let p := (s.brDemand a.1 0).1
      let u' := u - cross * len
      let b := { a.1 with cam := some c', camNext := none, camEnd := false, cphase := a.1.cphase - cross * len, base := 0 }
      -- the new cam starts at u = 0 where the old one crossed: its demand there is the old one's
      let old := cross * (s.camPt c ((s.camN c : Int) - 1) - s.camPt c 0)
      let b := { b with base := if s.camCyclic c then a.1.base + old else p - (s.camC c' u').1 - b.offset }
      .next ((s.camUse c (-1)).updGen n (fun g => { g with br := b }))
  | _, _ => .next s

/-- The slaves bound to a remote master slot. -/
def State.rmSlaves (s : State) (r : Nat) : List Nat :=
  allAxes.filter (fun n => (s.ax n).gen.br.engaged && (s.ax n).gen.br.mkind == 2 && (s.ax n).gen.br.master == r)

/-- REMOTE_MASTER_STALE (R271). -/
def execRemoteMasterStale (r : Fin 16) (s : State) : Out :=
  let m := s.rmSlot r
  if m.valid ∧ !s.flag (rLPE_RM_STAT r) fLPE_RM_STAT_STALE ∧ (s.rmAge r : Int) < tdiff s.now m.t then
    let s := s.raise (rLPE_RM_STAT r) fLPE_RM_STAT_STALE
    .next ((s.rmSlaves r).foldl (fun s n => (s.raise (rPRF_STAT n) fPRF_STAT_MSTALE).axEvent n 0x09 r.val s.now) s)
  else .next s

/-- The current of a stepper in 2^-28 of IFS and its slope per second (R277): it falls over HRAMP from the time HOLDI set, and rises over one tick
when motion starts. -/
def State.stCurrent (s : State) (n : Nat) (t : FTime) : Int × Int :=
  let i : Int := s.wfld (rST_I n) fST_I_IRUN * 65536
  let hold := i * min 100 (s.wfld (rST_CFG n) fST_CFG_HOLD_PCT) / 100
  if s.flag (rPRF_STAT n) fPRF_STAT_HOLDI then
    let ramp : Int := (max 1 (s.wfld (rST_I n) fST_I_HRAMP) * 1000 * usUnits : Nat)
    let x := max 0 (tdiff t (s.ax n).restAt)
    if x < ramp then (i - (i - hold) * x / ramp, -((i - hold) * unitHz / ramp)) else (hold, 0)
  else match (s.ax n).rise with
    | none => (i, 0)
    | some (t0, i0) =>
      let p : Int := s.axPeriod n
      let x := max 0 (tdiff t t0)
      if x < p then (i0 + (i - i0) * x / p, (i - i0) * unitHz / p) else (i, 0)

/-- Motion starts: HOLDI clears and the current rises from where it stands (R277). -/
def State.stWake (s : State) (n : Nat) (t : FTime) : State :=
  if s.flag (rPRF_STAT n) fPRF_STAT_HOLDI then
    (s.updAx n (fun a => { a with rise := some (t, (s.stCurrent n t).1) })).fset (rPRF_STAT n) fPRF_STAT_HOLDI 0
  else s

/-- HOLD_CURRENT_REDUCE (R277): v_set and a_set have been zero for HDELAY ms. -/
def execHoldCurrentReduce (n : Fin 256) (s : State) : Out :=
  let s := s.spUpdate n s.now
  let g := (s.ax n).gen
  let delay : Nat := max 1 (s.wfld (rST_I n) fST_I_HDELAY) * 1000 * usUnits
  if s.axType n = tyST ∧ !s.flag (rPRF_STAT n) fPRF_STAT_HOLDI ∧ g.vset = 0 ∧ g.aset = 0 ∧ (delay : Int) ≤ tdiff s.now g.restAt then
    .next ((s.raise (rPRF_STAT n) fPRF_STAT_HOLDI).updAx n (fun a => { a with restAt := s.now }))
  else .next s

/-! ### Mailbox objects (R282) -/

/-- PRF_SP: all from one instant. -/
def mboPrfSp (i : BitVec 14) (s : State) : MbxRes :=
  axisIdx i (fun n =>
    let sp := s.spAt n s.now
    ⟨s, mbxOK, words64 sp.1 ++ words64 sp.2.1 ++ words64 sp.2.2 ++ words64 s.now⟩) s

/-- Codes of the sources. -/
def srcCode : Src → Nat
  | .rest => 0
  | .move => 1
  | .velocity => 2
  | .stream => 3
  | .bridle => 4
  | .cam => 5
  | .stop => 6

/-- PRF_STATE. -/
def mboPrfState (i : BitVec 14) (s : State) : MbxRes :=
  axisIdx i (fun n =>
    let g := (s.ax n).gen
    let remv := s.flag (rPRF_STAT n) fPRF_STAT_REMV
    let tgt : Val := if remv ∨ g.remPend then g.resTgt else g.target
    ⟨s, mbxOK, words64 tgt ++ words64 g.remain ++ words64 g.tArr
      ++ [BitVec.ofNat 32 (srcCode g.src + if remv then 8 else 0), BitVec.ofNat 32 g.stream.length]⟩) s

/-- BR_STATE. -/
def mboBrState (i : BitVec 14) (s : State) : MbxRes :=
  axisIdx i (fun n =>
    let g := (s.ax n).gen
    ⟨s, mbxOK, words64 (BitVec.ofInt 64 g.br.mdisp) ++ words64 (BitVec.ofInt 64 g.br.base) ++ words64 (BitVec.ofInt 64 g.br.offset)
      ++ words64 g.lag⟩) s

/-- RM_READ. -/
def mboRmRead (i : BitVec 14) (s : State) : MbxRes :=
  if 16 ≤ i.toNat then mbxRes s mbxRANGE
  else
    let m := s.rmSlot i.toNat
    ⟨s, mbxOK, words64 m.t ++ words64 m.p ++ words64 m.v ++ [BitVec.ofNat 32 (s.fget (rLPE_RM_STAT i.toNat) fLPE_RM_STAT_STALE)]⟩

def execPrfSp (set : Fin 4) (via : RegPath) (index : BitVec 14) (s : State) : Out := .next (s.mbx set via 0x040 0 index [] (mboPrfSp index))
def execPrfState (set : Fin 4) (via : RegPath) (index : BitVec 14) (s : State) : Out := .next (s.mbx set via 0x041 0 index [] (mboPrfState index))
def execBrState (set : Fin 4) (via : RegPath) (index : BitVec 14) (s : State) : Out := .next (s.mbx set via 0x042 0 index [] (mboBrState index))
def execRmRead (set : Fin 4) (via : RegPath) (index : BitVec 14) (s : State) : Out := .next (s.mbx set via 0x043 0 index [] (mboRmRead index))

end Sys2Proof.Machine
end

