-- ==== Sys2Proof/Machine/Path.lean ====
section
/-! DEFINITION. Path latency (R74-R80), the quiet window (R76, R77), the admission terms (R167, R168) and the lead of an event
(R292).  Times are in 10^-4 of a field-time unit, so that every figure of the spec is whole. -/
namespace Sys2Proof.Machine

/-- `n` ns. -/
def ptNs (n : Nat) : Nat := 160000 * n

/-- From field-time units, and to them, rounded up. -/
def ptOf (u : Nat) : Nat := 10000 * u
def ptUp (p : Nat) : Nat := (p + 9999) / 10000

/-- The fastest class with axes of the committed plan on a tether (R75, R125). -/
def State.tetherClass (s : State) (t : Nat) : Option Nat :=
  match (s.tetherAxes t).map s.axClass with
  | [] => none
  | c :: cs => some (cs.foldl min c)

/-- The ballast channels in the tick plan, each as its gondola and channel (R314). -/
def State.planBals (s : State) : List (Nat × Nat) := (List.range 32).filterMap s.busBal

/-- The gondolas of a tether that hold channels of the committed plan (R60, R314). -/
def State.planGons (s : State) (t : Nat) : List Nat :=
  ((s.tetherAxes t).map s.axGon ++ (s.planBals.map (fun e => e.1)).filter (fun k => k / 64 == s.tetherKey t)).eraseDups

/-- c(g): the channels of a gondola in the tick plan, ballast included (R60, R314). -/
def State.planCount (s : State) (k : Nat) : Nat := (s.gonAxes k).length + (s.planBals.filter (fun e => e.1 == k)).length

/-- s(g): the largest sample offset the plan permits at a gondola (R76, R190). -/
def State.sampleOff (s : State) (k : Nat) : Nat :=
  (s.gonAxes k).foldl (fun m n => max m (ptOf (40 * s.wfld (rAXC_SMP n) fAXC_SMP_SOFF))) 0

/-- The SSI clock of a channel in kHz (R122): 125 kHz, doubling to 2 MHz. -/
def State.ssiKHz (s : State) (n : Nat) : Nat :=
  match s.nodeOf (s.axGon n) with
  | some g => 125 * 2 ^ min 4 (bget (s.greg g (aCH_CFG (s.axCh n))) ⟨21, 3⟩)
  | none => 125

/-- t_ssi of an axis (R151). -/
def State.tSsi (s : State) (n : Nat) : Nat := ptNs ((s.ssiBits n + 2) * 1000000) / s.ssiKHz n

/-- t_sr(g): the declared sample-to-ready time, or the longest SSI transfer of its axes (R93, R124, R151). -/
def State.tSr (s : State) (k : Nat) : Nat :=
  let d := ptNs (if k = gkey 24 0 then 600 else idTSR (s.gd k).ident)
  (s.gonAxes k).foldl (fun m n => if s.fbSrc n = 4 then max m (s.tSsi n) else m) d

/-- t_ap(g). -/
def State.tAp (s : State) (k : Nat) : Nat := ptNs (if k = gkey 24 0 then 30 else idTAP (s.gd k).ident)

/-- 120 ns a gondola and 5.2 ns a metre on the way to a gondola (R76). -/
def pathProp (hops mm : Nat) : Nat := ptNs (120 * hops) + 832 * mm

/-- The greatest cable length to a gondola of a ring that is counted from its odd port, or from its even one. -/
def State.farCable (s : State) (t : Nat) (odd : Bool) : Nat :=
  ((List.range 64).filter (fun g => s.present t g && (s.gd (gkey t g)).odd == odd)).foldl (fun m g => max m (s.gd (gkey t g)).cableMm) 0

/-- The way to a gondola from the port that its place is counted from, and on a ring from the other end (R79): the gondolas beyond it and
the rest of the ring's cable, its last segment among it. -/
def State.propTo (s : State) (k : Nat) : Nat := let d := s.gd k; pathProp d.hops d.cableMm
def State.propFrom (s : State) (k : Nat) : Nat :=
  let d := s.gd k
  let all := (List.range 64).filter (fun g => s.present (k / 64) g)
  let len := s.farCable (k / 64) false + s.farCable (k / 64) true + (s.port (k / 64 + 1)).endMm
  pathProp (all.length - 1 - d.hops) (len - d.cableMm)
def State.propMax (s : State) (k : Nat) : Nat :=
  if (s.ringEven (k / 64)).isSome then max (s.propTo k) (s.propFrom k) else s.propTo k

/-- q and D_prop of a tether (R76). -/
def State.qTerm (s : State) (t : Nat) : Nat :=
  match (s.planGons t).map (fun k => s.sampleOff k + s.tSr k) with
  | [] => 0
  | x :: xs => xs.foldl min x
def State.dProp (s : State) (t : Nat) : Nat :=
  (List.range 64).foldl (fun m g => if s.present t g then max m (s.propMax (s.gk t g)) else m) 0

/-- X (R76). -/
def State.xTerm (s : State) (t : Nat) : Nat := ptNs 1390 + s.dProp t - ptNs 2000 - s.qTerm t

/-- The quiet window of the tick that starts at `t0` (R76): its begin and its end, after `t0`. -/
def State.quietW (s : State) (t period : Nat) : Nat := ptOf period - ptNs 2000 - s.xTerm t
def State.quietE (s : State) (t period : Nat) : Nat := ptOf period + s.qTerm t

/-- Bytes of the tick frames of the gondolas that a port serves, in one direction (R60, R78). -/
def State.sigmaF (s : State) (t : Nat) : Nat :=
  ((s.planGons t).map (fun k => 16 * s.planCount k + 24)).sum

/-- U(g) and D(g) of R78, and P(g) of R78-R80. -/
def State.upLat (s : State) (t k : Nat) : Nat :=
  if t = 24 then s.sampleOff k + s.tSr k + ptNs 60 + ptNs 40 + ptNs (5 * ((s.sigmaF 24 + 15) / 16) + 90)
  else s.sampleOff k + s.tSr k + ptNs (5 * s.sigmaF t) + s.propMax k + ptNs 200
def State.dnLat (s : State) (t k : Nat) : Nat :=
  if t = 24 then s.tAp k + ptNs 60 + ptNs (5 * ((s.sigmaF 24 + 15) / 16) + 90)
  else ptNs 160 + ptNs (5 * s.sigmaF t) + s.propMax k + s.tAp k
def State.pathP (s : State) (t k : Nat) : Nat := s.upLat t k + s.dnLat t k + (if t = 24 then 0 else s.xTerm t)

/-- The figures w = c + 16 m of the stock image's loops (R168), in the order of an image header (R368). -/
def stockLoops : List (Option Nat) := [some 394, some 102, some 174, some 198, some 112, none]

/-- The loops that an axis runs (R160, R161), by their place in an image header: torque, velocity, position with profile, stepper, coil. -/
def State.axLoops (s : State) (n : Nat) : List Nat :=
  let ty := s.axType n
  let cm := s.axCmode n
  if ty = tyST then [3, 2]
  else if ty = tyVX then [2]
  else (if ty = tyTQ then [0] else [4]) ++ (if cm < 2 then [1] else []) ++ (if cm = 0 then [2] else [])

/-- w(b) of an axis by the image of lane `l` (R167, R168), in core cycles; a bridle and a cam add the runtime's figures. -/
def State.axWorkOn (s : State) (l n : Nat) : Nat :=
  let loops := if (s.ln l).loops = [] then stockLoops else (s.ln l).loops
  let br := (s.ax n).gen.br
  ((s.axLoops n).map (fun k => ((loops.getD k none).getD 0))).sum
    + (if br.engaged then 108 + (if br.cam.isSome then 140 else 0) else 0)

/-- w(b) on the owning lane. -/
def State.axWork (s : State) (n : Nat) : Nat := s.axWorkOn (s.axLane n) n

/-- H_L: the event hold-off of a lane, in core cycles (R167). -/
def holdOff (l : Nat) : Nat := if l < 14 then 12 else 1024

/-- H_L + Σ w(b) of a lane, in core cycles. -/
def State.laneCycles (s : State) (l : Nat) : Nat :=
  holdOff l + ((allAxes.filter (fun n => s.inPlan n && s.axLane n == l)).map s.axWork).sum

/-- K_L (R167). -/
def State.kLane (s : State) (l : Nat) : Nat := ptOf (40 * s.laneCycles l)

/-- P(g) + K_L: the predicted delay before the first measurement (R173). -/
def State.firstDelay (s : State) (n : Nat) : Nat :=
  ptUp ((if s.axType n = tyVX then 0 else s.pathP (s.axTether n) (s.axGon n)) + s.kLane (s.axLane n))

/-- The lead of an event on a tether (R292), in field-time units rounded up. -/
def State.leadPt (s : State) (t : Nat) : Nat :=
  if 24 ≤ t then ptNs 500
  else
    let base := match s.tetherClass t with
      | some c => ptOf (classPeriod c)
      | none => ptNs 1390
    base + ptNs 1240 + s.dProp t
def State.lead (s : State) (t : Nat) : Nat := ptUp (s.leadPt t)

/-- Show the quiet window and the lead of a tether (R91, R305). -/
def State.pathShow (s : State) (t : Nat) : State :=
  let s := s.fset (rCMP_LEAD t) fCMP_LEAD_LEAD (min 0xFFFF ((s.leadPt t + ptNs 10 - 1) / ptNs 10))
  if 24 ≤ t then s
  else match s.tetherClass t with
    | none => (s.fset (rTTH_QW t) fTTH_QW_QLEN 0).fset (rTTH_QW t) fTTH_QW_SPAN 0
    | some c =>
      let q := s.quietE t (classPeriod c) - s.quietW t (classPeriod c)
      (s.fset (rTTH_QW t) fTTH_QW_QLEN (min 0xFFFF (q / ptNs 10))).fset (rTTH_QW t) fTTH_QW_SPAN (min 0xFFFF ((q - s.dProp t) / ptNs 10))

end Sys2Proof.Machine
end

