-- ==== Sys2Proof/Machine/Latch.lean ====
section
/-! DEFINITION. The latch engine (R301-R304): arming, captures, the position of a capture, the latch queue, posting and LAT_POP. -/
namespace Sys2Proof.Machine

/-! ### Arming (R301) -/

def latArmed (u : Nat) : Bits := ⟨u, 1⟩

/-- The arm states of both units at the start of the core cycle (R301). -/
def State.latWas (s : State) (n : Nat) : Bool × Bool :=
  if (s.ax n).armCyc = some s.time.cycles then (s.ax n).armOld else (s.flag (rLAT_STAT n) (latArmed 0), s.flag (rLAT_STAT n) (latArmed 1))

/-- Arm or disarm a unit: from the next core cycle on. -/
def State.latArm (s : State) (n u : Nat) (b : Bool) : State :=
  (s.updAx n (fun a => { a with armCyc := some s.time.cycles, armOld := s.latWas n })).fsetb (rLAT_STAT n) (latArmed u) b

/-- Entry into OFF disarms both units and keeps the queue (R301). -/
def State.latOff (s : State) (n : Nat) : State := (s.latArm n 0 false).latArm n 1 false

/-- Does a unit capture this edge (R301, R302)? -/
def State.latHit (s : State) (n u : Nat) (src : Nat) (rising : Bool) : Bool :=
  let cfg := rLAT_CFG n u
  let e := s.fget cfg fLAT_CFG_EDGE
  (if u = 0 then (s.latWas n).1 else (s.latWas n).2) && s.fget cfg fLAT_CFG_LSRC == src && decide (1 ≤ src ∧ src ≤ 0x36)
    && (if e = 0 then rising else if e = 1 then !rising else true)

/-! ### The position of a capture (R303, R142) -/

/-- Shifts with a boundary after `a` and not after `b`. -/
def shiftSum (l : List (FTime × Int)) (a b : FTime) : Int :=
  (l.filter (fun e => decide (0 < tdiff e.1 a) && reached b e.1)).foldl (fun x e => x + e.2) 0

/-- What a position recorded at `ts` changes by to stand on the side of the shifts that `t` lies on. -/
def sideOf (l : List (FTime × Int)) (ts t : FTime) : Int := if reached t ts then shiftSum l ts t else -(shiftSum l t ts)

/-- A position rounded to whole counts and reduced to the range of its axis (R133, R303). -/
def State.wholeCounts (s : State) (n : Nat) (p : Int) : BitVec 48 :=
  let c := roundDiv p 65536
  BitVec.ofInt 48 (if s.fbModulo n then c % s.fbM n else satInt 48 c)

/-- A position at `t`, `v` being the speed at a record `(ts, p)` (R303, EXTRAP). -/
def State.extrap (s : State) (n : Nat) (t ts : FTime) (p v : Val) : BitVec 48 :=
  s.wholeCounts n (p.toInt + sideOf (s.ax n).shifts ts t + roundDiv (v.toInt * tdiff t ts) unitHz)

def lfINTERP : Nat := 1
def lfEST : Nat := 2
def lfEXTRAP : Nat := 4
def lfPLIM : Nat := 8

/-- The position from the kept records, newest first: between the two that bracket `t`, or back from the oldest. -/
def State.interpAt (s : State) (n : Nat) (t : FTime) : List (FTime × Val × Val) → BitVec 48 × Nat
  | [] => (0, lfEXTRAP)
  | [(ts, p, v)] => (s.extrap n t ts p v, lfEXTRAP)
  | (t1, p1, _) :: (t0, p0, v0) :: r =>
    if reached t t0 then
      let sh := (s.ax n).shifts
      let a := p0.toInt + sideOf sh t0 t
      let b := p1.toInt + sideOf sh t1 t
      let d := if s.fbModulo n then centred (b - a) (s.fbM n * 65536) else b - a
      (s.wholeCounts n (a + roundDiv (d * tdiff t t0) (max 1 (tdiff t1 t0))), lfINTERP)
    else s.interpAt n t ((t0, p0, v0) :: r)

/-- Position and flags of a capture at `t`; none while it must wait for the next record (R303). -/
def State.capturePos (s : State) (n : Nat) (t : FTime) : Option (BitVec 48 × Nat) :=
  if s.axType n = tyVX then some (s.wholeCounts n ((s.spAt n t).1.toInt + sideOf (s.ax n).shifts s.now t), 0)
  else match (s.ax n).recent with
    | [] => none
    | (t1, p1, v1) :: r => if reached t t1 then none else some (s.interpAt n t ((t1, p1, v1) :: r))

/-- Time and position of the index edge of the record in hand (R136, R303). -/
def State.indexPos (s : State) (n : Nat) : FTime × BitVec 48 :=
  let a := s.ax n
  let d : Int := ((recCNT a.raw).setWidth 16 - BitVec.ofNat 16 (recAUX a.raw)).toInt * s.fbDir n
  let v := a.spd.toInt
  let t := if v = 0 then a.ts else a.ts - BitVec.ofInt 64 (roundDiv (d * 65536 * unitHz) v)
  (t, s.wholeCounts n (s.posOfSum n (a.sum - d)).toInt)

/-! ### The queue (R304) -/

/-- Records a latch queue holds. -/
def latDepth : Nat := 8

/-- Bytes 8-15 of a latch record. -/
def LatRec.tail (r : LatRec) : BitVec 64 :=
  BitVec.ofNat 64 (r.pos.toNat + (r.src.toNat + r.unit * 64 + (if r.rising then 128 else 0)) <<< 48 + (r.flags.toNat + r.cnt.toNat * 16) <<< 56)

/-- Show how many records are queued and whether a capture waits. -/
def State.latShow (s : State) (n : Nat) : State :=
  (s.fset (rLAT_STAT n) fLAT_STAT_CNT (s.ax n).lat.length).fsetb (rLAT_STAT n) fLAT_STAT_WAIT (!(s.ax n).latWait.isEmpty)

/-- Does a completion ring take a latch record now (R304, R377)? A disabled ring takes it, and counts it lost. -/
def State.cqTakes (s : State) (q : Nat) : Bool := !s.flag (rHIF_CQ_CFG q) fHIF_CQ_CFG_EN || decide ((s.cq q).backlog.length < backlogMax)

/-- The LATCH entry of a record (R387). -/
def latEntry (n : Nat) (r : LatRec) : Cqe :=
  { ft := r.t, payload := BitVec.ofNat 128 (r.tail.toNat + n <<< 64), tag := 0, planver := 0, status := 0, kind := 3, sq := 0, sqhead := 0 }

/-- Post the records that are to be posted, oldest first, until a ring does not take one (R304). -/
def State.latDrain (s : State) (n : Nat) : Nat → State
  | 0 => s
  | k + 1 =>
    match (s.ax n).lat.find? (fun r => r.post) with
    | none => s
    | some r =>
      let q := s.fget (rLAT_CFG n r.unit) fLAT_CFG_CQ
      if s.cqTakes q then
        State.latDrain ((s.updAx n (fun a => { a with lat := a.lat.erase r })).produce (some q) (latEntry n r)) n k
      else s

/-- Write a record into the queue; a full queue loses it (R304). -/
def State.latPush (s : State) (n : Nat) (r : LatRec) : State :=
  if latDepth ≤ (s.ax n).lat.length then
    (s.raise (rLAT_STAT n) fLAT_STAT_OVF).fset (rLAT_STAT n) fLAT_STAT_LOST (min 255 (s.fget (rLAT_STAT n) fLAT_STAT_LOST + 1))
  else ((s.updAx n (fun a => { a with lat := a.lat ++ [r] })).latDrain n latDepth)

/-- Write the record of a capture. -/
def State.latWrite (s : State) (n : Nat) (w : LatWait) (t : FTime) (pos : BitVec 48) (flags : Nat) : State :=
  s.latPush n { t := t, pos := pos, src := w.src, unit := w.unit, rising := w.rising,
                flags := BitVec.ofNat 4 (flags + if w.plim then lfPLIM else 0), cnt := w.cnt, post := w.post }

/-- A unit captures an edge at `t` (R301-R304). -/
def State.capture (s : State) (n u : Nat) (src : Nat) (rising : Bool) (t : FTime) : State :=
  let cfg := rLAT_CFG n u
  let a := s.ax n
  let cnt := if u = 0 then a.capCnt0 else a.capCnt1
  let w : LatWait := { t := t, src := BitVec.ofNat 6 src, unit := u, rising := rising, plim := s.flag (rFBK_STAT n) fFBK_STAT_PLIM_NOW,
                       cnt := cnt, post := s.flag cfg fLAT_CFG_POST }
  let s := if s.flag cfg fLAT_CFG_MODE then s else s.latArm n u false
  let s := s.updAx n (fun a => if u = 0 then { a with capCnt0 := cnt + 1 } else { a with capCnt1 := cnt + 1 })
  let s := if src = 1 then let p := s.indexPos n; s.latWrite n w p.1 p.2 lfEST
    else match s.capturePos n t with
      | some (p, f) => s.latWrite n w t p f
      | none => s.updAx n (fun a => { a with latWait := a.latWait ++ [w] })
  s.latShow n

/-- Offer an edge to both units of an axis, unit 0 first (R304). -/
def State.latEdge (s : State) (n src : Nat) (rising : Bool) (t : FTime) : State :=
  let h0 := s.latHit n 0 src rising
  let h1 := s.latHit n 1 src rising
  let s := if h0 then s.capture n 0 src rising t else s
  if h1 then s.capture n 1 src rising t else s

/-- Offer an edge to every unit whose source it is (R302, R488). -/
def State.latOffer (s : State) (src : Nat) (rising : Bool) (t : FTime) : State :=
  (allAxes.filter (fun n => s.latHit n 0 src rising || s.latHit n 1 src rising)).foldl (fun s n => s.latEdge n src rising t) s

/-! ### Rows -/

/-- LATCH_CAPTURE (R32, R301, R302): the edge is stamped with the field time of its arrival. -/
def execLatchCapture (n : Fin 256) (unit : Fin 2) (src : BitVec 6) (rising : Bool) (s : State) : Out :=
  if s.latHit n unit src.toNat rising then .next (s.capture n unit src.toNat rising s.now) else .next s

/-- Resolve the captures that wait: `missing` when the next record is missing (R303). -/
def State.latResolve (s : State) (n : Nat) (missing : Bool) : State :=
  let ws := (s.ax n).latWait
  let one := fun (s : State) (w : LatWait) =>
    match s.capturePos n w.t, (s.ax n).recent, missing with
    | some (p, f), _, _ => s.latWrite n w w.t p f
    | none, (ts, p, v) :: _, true => s.latWrite n w w.t (s.extrap n w.t ts p v) lfEXTRAP
    | none, _, _ => s.updAx n (fun a => { a with latWait := a.latWait ++ [w] })
  (ws.foldl one (s.updAx n (fun a => { a with latWait := [] }))).latShow n

/-- LATCH_WAIT_RESOLVE (R303). -/
def execLatchWaitResolve (n : Fin 256) (missing : Bool) (s : State) : Out := .next (s.latResolve n missing)

/-- LATCH_REPOST (R304). -/
def execLatchRepost (n : Fin 256) (s : State) : Out := .next ((s.latDrain n latDepth).latShow n)

/-- The effect of a write of LAT_An_CTL (R301, R305). -/
def latCtlWritten (n : Nat) (v : Word) (s : State) : State :=
  let one := fun (u : Nat) (s : State) =>
    if v.toNat.testBit (2 + u) then s.latArm n u false else if v.toNat.testBit u then s.latArm n u true else s
  let s := one 1 (one 0 s)
  if v.toNat.testBit 4 then (s.updAx n (fun a => { a with lat := [] })).latShow n else s

/-- LAT_CTL_ARM, LAT_CTL_DISARM and LAT_CTL_FLUSH. -/
def execLatCtlArm (via : RegPath) (n : Fin 256) (v : Word) (s : State) : Out := .next (s.portWrite via (rLAT_CTL n) v (fun _ => latCtlWritten n v))
def execLatCtlDisarm (via : RegPath) (n : Fin 256) (v : Word) (s : State) : Out :=
  .next (s.portWrite via (rLAT_CTL n) v (fun _ => latCtlWritten n v))
def execLatCtlFlush (via : RegPath) (n : Fin 256) (v : Word) (s : State) : Out :=
  .next (s.portWrite via (rLAT_CTL n) v (fun _ => latCtlWritten n v))

/-- TIME_COMPARATOR_FIRE (R45, R39, R302). -/
def execTimeComparatorFire (n : Fin 8) (s : State) : Out :=
  if s.tcDue n then
    let c := s.time.comp n
    let o := rFTM_TC_STAT n
    let s := s.raise o fFTM_TC_STAT_FIRED
    let s := if c.lateArm then s.raise o fFTM_TC_STAT_LATE else s
    let s := if c.stepped then s.raise o fFTM_TC_STAT_STEPPED else s
    let s := if s.flag (rFTM_TC_CTL n) fFTM_TC_CTL_ACT_LAT then s.latOffer (0x2E + n) true c.target else s
    .next (((s.tcPost n c.target).tcPulse n).tcAdvance n)
  else .next s

/-- TSI_EDGE (R43, R302): a selected edge is stamped; a full queue of 4 loses the stamp and sets the input's TSI_OVF bit.  The edge is
offered to the latch units whatever the queue does. -/
def execTsiEdge (k : Fin 4) (rising : Bool) (s : State) : Out :=
  let t := s.now - s.threeCycles
  let s := s.latOffer (0x2A + k) rising t
  let e := s.fget rFTM_TSI_CTL (fFTM_TSI_CTL_EDGE k)
  if e.testBit (if rising then 0 else 1) then
    let q := tget [] s.time.tsi k
    if 4 ≤ q.length then .next (s.fset rFTM_TSI_STAT ⟨k, 1⟩ 1)
    else .next ((s.updTime (fun u => { u with tsi := tset [] u.tsi k (q ++ [(rising, t)]) })).fset
      rFTM_TSI_STAT (tsiCnt k) (q.length + 1))
  else .next s

/-- LAT_POP (R304, R306). -/
def mboLatPop (i : BitVec 14) (s : State) : MbxRes :=
  axisIdx i (fun n =>
    match (s.ax n).lat with
    | [] => ⟨s, mbxOK, [0, 0, 0, 0, 0, 0]⟩
    | r :: rest =>
      let s := (s.updAx n (fun a => { a with lat := rest })).latShow n
      ⟨s, mbxOK, words64 r.t ++ words64 (BitVec.ofInt 64 (r.pos.toInt * 65536))
        ++ [BitVec.ofNat 32 (r.tail.toNat / 2 ^ 48 + 2 ^ 31), BitVec.ofNat 32 rest.length]⟩) s

def execLatPop (set : Fin 4) (via : RegPath) (index : BitVec 14) (s : State) : Out := .next (s.mbx set via 0x052 2 index [] (mboLatPop index))

end Sys2Proof.Machine
end

