-- ==== Sys2Proof/Machine/FieldIo.lean ====
section
/-! DEFINITION. Field inputs and outputs (R484-R497): debounce, coupler errors, commanded states, the field die's switches, silence,
thermal shutdown and the FIO_EDGE object. -/
namespace Sys2Proof.Machine

/-! ### Inputs -/

/-- FIO_INLAT (R485): 360 ns. -/
def finLat : BitVec 64 := 5760

/-- Write one bit of a mask register. -/
def State.bitSet (s : State) (o i : Nat) (b : Bool) : State := s.fsetb o ⟨i, 1⟩ b

/-- The debounce time of an input (R487). -/
def State.finDeb (s : State) (n : Nat) : BitVec 64 := BitVec.ofNat 64 (max 1 (s.wfld (rFIO_FIN_CFG n) fFIO_FIN_CFG_DEB) * usUnits)

/-- The filtered state takes a level: an accepted edge (R488); `cpl`: forced by a coupler error. -/
def State.finAccepted (s : State) (n : Nat) (level : Bool) (stamp : FTime) (cpl : Bool) : State :=
  let st := rFIO_FIN_STAT n
  let acc := (s.fget st fFIO_FIN_STAT_ACC + 1) % 65536
  let f := s.fin_ n
  let s := s.setFin n { f with filt := level, run := none, lastRise := if level then stamp else f.lastRise,
                               lastFall := if level then f.lastFall else stamp }
  let s := (s.bitSet rFIO_IN n level).fset st fFIO_FIN_STAT_ACC acc
  let s := s.latOffer (0x0A + n) level stamp
  if (s.wfld (rFIO_FIN_CFG n) fFIO_FIN_CFG_EV).testBit (if level then 0 else 1) then
    s.fioEvent 0x1B n ((if level then 1 else 0) + (if cpl then 256 else 0) + acc * 65536) stamp
  else s

/-- A run that has lasted DEB is accepted (R487). -/
def State.finDue (s : State) (n : Nat) : State :=
  match (s.fin_ n).run with
  | some t => if reached s.now (t + s.finDeb n) then s.finAccepted n (s.fin_ n).raw t false else s
  | none => s

/-- A word of an input's coupler shows a level (R485, R487): a change starts or ends a run; a keep-alive word shows the level again. -/
def State.finRaw (s : State) (n : Nat) (level : Bool) : State :=
  let t := s.now - finLat
  let s := s.finDue n
  let f := s.fin_ n
  let s := s.setFin n { f with raw := level, word := t }
  let s := s.bitSet rFIO_INRAW n level
  if level = f.raw then s
  else if level ≠ f.filt then s.setFin n { s.fin_ n with run := some t }
  else if f.run.isNone then s
  else
    let st := rFIO_FIN_STAT n
    let g := min 255 (s.fget st fFIO_FIN_STAT_GLITCH + 1)
    let s := (s.setFin n { s.fin_ n with run := none }).fset st fFIO_FIN_STAT_GLITCH g
    if g = 255 then s.raise st fFIO_FIN_STAT_GOVF else s

/-- Has an input's coupler failed? -/
def State.finCpl (s : State) (n : Nat) : Bool := s.flag rFIO_INCPL ⟨n, 1⟩

/-- Words arrive again after a coupler error (R486): the level is taken as a change from de-energised. -/
def State.finRestore (s : State) (n : Nat) (level : Bool) : State :=
  let s := (s.bitSet rFIO_INCPL n false).fioEvent 0x1D n 3 s.now
  (s.setFin n { s.fin_ n with raw := false, run := none }).finRaw n level

/-- Do words of the field die reach the core domain, which samples them (R485): is the die up, and does the core clock run? -/
def State.finHeard (s : State) : Bool := s.flag rFIO_STAT fFIO_STAT_FIELDUP && s.coreClock

/-- FIN_RAW_EDGE (R485, R487). -/
def execFinRawEdge (n : Fin 32) (level : Bool) (s : State) : Out :=
  .next (if !s.finHeard then s else if s.finCpl n then s.finRestore n level else s.finRaw n level)

/-- FIN_EDGE_ACCEPT (R487, R488). -/
def execFinEdgeAccept (n : Fin 32) (s : State) : Out := .next (if s.coreClock then s.finDue n else s)

/-- FIN_COUPLER_ERROR (R486): the input is de-energised at once; an edge carries CPL and the raw time of the last word. -/
def execFinCouplerError (n : Fin 32) (s : State) : Out :=
  if s.finCpl n ∨ s.coreClock = false then .next s
  else
    let s := ((s.bitSet rFIO_INCPL n true).raise (rFIO_FIN_STAT n) fFIO_FIN_STAT_CPLSEEN).fioEvent 0x1D n 2 s.now
    let s := s.setFin n { s.fin_ n with run := none }
    .next (if (s.fin_ n).filt then s.finAccepted n false (s.fin_ n).word true else s)

/-- FIN_COUPLER_RESTORE (R486). -/
def execFinCouplerRestore (n : Fin 32) (level : Bool) (s : State) : Out :=
  if s.finCpl n && s.finHeard then .next (s.finRestore n level) else .next s

/-! ### Outputs -/

/-- The commanded state of an output (R491). -/
def State.foutCmd (s : State) (k : Nat) : Bool := s.flag rFIO_FOUT ⟨k, 1⟩

/-- Is the field die powered, and do its words arrive? -/
def State.fieldUp (s : State) : Bool := s.flag rFIO_STAT fFIO_STAT_FIELDUP

/-- The state the switch takes (R492). -/
def State.foutWants (s : State) (k : Nat) : Bool :=
  let f := s.fout k
  if !s.fieldUp then false
  else if f.tsd then false
  else if f.sil then (if f.safe = 1 then true else if f.safe = 2 then f.held else false)
  else s.foutCmd k

/-- The field die switches an output and reports it (R492, R489): turning off ends a current limit, turning on an open load. -/
def State.foutTake (s : State) (k : Nat) : State :=
  let on_ := s.foutWants k
  let s := (s.updFout k (fun f => { f with on_ := on_ })).bitSet rFIO_FOUTST k on_
  if on_ then s.fset (rFIO_FOUT_STAT k) fFIO_FOUT_STAT_OPENL 0 else s.fset (rFIO_FOUT_STAT k) fFIO_FOUT_STAT_ILIM 0

/-- The clear of a pulse falls due first (R491). -/
def State.foutClear (s : State) (k : Nat) : State :=
  match (s.fout k).pulse with
  | some t => if reached s.now t then ((s.updFout k (fun f => { f with pulse := none })).bitSet rFIO_FOUT k false).foutTake k else s
  | none => s

/-- An action on an output (R491): 0 clear, 1 set, 2 toggle, 3 pulse of `pw` µs. -/
def State.foutAct (s : State) (k op pw : Nat) : State :=
  let s := s.foutClear k
  let b := if op = 0 then false else if op = 2 then !s.foutCmd k else true
  let p := if op = 3 then some (s.now + BitVec.ofNat 64 (max 1 pw * usUnits)) else none
  ((s.updFout k (fun f => { f with pulse := p })).bitSet rFIO_FOUT k b).foutTake k

/-- The effect of a masked write of FIO_FOUT (R491): it cancels the pulses of the outputs it acts on. -/
def foutWritten (v : Word) (s : State) : State :=
  (List.range 16).foldl (fun s k =>
    if v.toNat.testBit (16 + k) then (s.updFout k (fun f => { f with pulse := none })).foutTake k else s) s

/-- FOUT_WRITE (R491, R432). -/
def execFoutWrite (via : RegPath) (v : Word) (s : State) : Out := .next (s.portWrite via rFIO_FOUT v (fun _ => foutWritten v))

/-- FOUT_PULSE_CLEAR (R491). -/
def execFoutPulseClear (k : Fin 16) (s : State) : Out := .next (if s.coreClock then s.foutClear k else s)

/-- Do the shell's words leave it (R493): is it out of reset and not halted? -/
def State.shellRuns (s : State) : Bool := !s.su.poreset && !s.su.sysreset && !s.su.railFault && !s.time.halted

/-- FOUT_REFRESH (R493): a word reaches the field die. -/
def execFoutRefresh (k : Fin 16) (s : State) : Out :=
  if s.shellRuns ∧ s.fieldUp then .next ((s.updFout k (fun f => { f with words := true })).foutTake k) else .next s

/-- FOUT_SILENCE (R494): no valid word for SILENCE ms. -/
def execFoutSilence (k : Fin 16) (s : State) : Out :=
  if !s.fieldUp then .next s
  else if (s.fout k).sil then .next (s.updFout k (fun f => { f with words := false }))
  else
    let c := s.wfld (rFIO_FOUT_CFG k) fFIO_FOUT_CFG_SAFE
    let s := s.updFout k (fun f => { f with sil := true, words := false, held := f.on_, safe := BitVec.ofNat 2 (if c = 3 then 0 else c) })
    .next (((s.bitSet rFIO_FOUTST (16 + k) true).foutTake k).fioEvent 0x1D k 0 s.now)

/-- What TCLR finds on one output (R490): `hot` when its junction is not below the restart threshold. -/
def State.tclr (s : State) (k : Nat) (hot : Bool) : State :=
  if !(s.fout k).tsd ∨ s.wflag (rFIO_FOUT_CFG k) fFIO_FOUT_CFG_TSDM then s
  else if hot then s.raise rFIO_STAT fFIO_STAT_CLRREF
  else ((s.updFout k (fun f => { f with tsd := false })).fset (rFIO_FOUT_STAT k) fFIO_FOUT_STAT_TSD 0).foutTake k

/-- What SILCLR does on one output (R494). -/
def State.silclr (s : State) (k : Nat) : State :=
  if !(s.fout k).sil then s
  else if !(s.fout k).words ∨ !s.fieldUp then s.raise rFIO_STAT fFIO_STAT_CLRREF
  else (((s.updFout k (fun f => { f with sil := false })).bitSet rFIO_FOUTST (16 + k) false).foutTake k).fioEvent 0x1D k 1 s.now

/-- The effect of a write of FIO_CMD; `hot`: the outputs whose junction is not below its restart threshold. -/
def fioCmdWritten (v : Word) (hot : Nat) (s : State) : State :=
  (List.range 16).foldl (fun s k =>
    let s := if v.toNat.testBit (16 + k) then s.tclr k (hot.testBit k) else s
    if v.toNat.testBit k then s.silclr k else s) s

/-- SILCLR (R494). -/
def execSilclr (via : RegPath) (mask : BitVec 16) (s : State) : Out :=
  let v := mask.setWidth 32
  .next (s.portWrite via rFIO_CMD v (fun _ => fioCmdWritten v 0))

/-- TCLR (R490). -/
def execTclr (via : RegPath) (mask hot : BitVec 16) (s : State) : Out :=
  let v := mask ++ (0 : BitVec 16)
  .next (s.portWrite via rFIO_CMD v (fun _ => fioCmdWritten v hot.toNat))

/-- THERMAL_SHUTDOWN (R490). -/
def execThermalShutdown (k : Fin 16) (s : State) : Out :=
  if !s.fieldUp ∨ (s.fout k).tsd then .next s
  else
    let st := rFIO_FOUT_STAT k
    let c := min 255 (s.fget st fFIO_FOUT_STAT_TSDCNT + 1)
    let s := (s.updFout k (fun f => { f with tsd := true, shutAt := s.now })).raise st fFIO_FOUT_STAT_TSD
    let s := s.fset st fFIO_FOUT_STAT_TSDCNT c
    let s := if c = 255 then s.raise st fFIO_FOUT_STAT_TOVF else s
    .next ((s.foutTake k).fioEvent 0x1C k (256 * s.wfld (rFIO_FOUT_CFG k) fFIO_FOUT_CFG_TSDM) s.now)

/-- THERMAL_RETRY (R490): cooled, and 10 ms after the shutdown. -/
def execThermalRetry (k : Fin 16) (s : State) : Out :=
  if (s.fout k).tsd ∧ s.wflag (rFIO_FOUT_CFG k) fFIO_FOUT_CFG_TSDM ∧ reached s.now ((s.fout k).shutAt + BitVec.ofNat 64 (10000 * usUnits)) then
    .next (((s.updFout k (fun f => { f with tsd := false })).fset (rFIO_FOUT_STAT k) fFIO_FOUT_STAT_TSD 0).foutTake k)
  else .next s

/-- OPEN_LOAD (R489, R495). -/
def execOpenLoad (k : Fin 16) (s : State) : Out :=
  if s.fieldUp ∧ !(s.fout k).on_ ∧ s.wflag (rFIO_FOUT_CFG k) fFIO_FOUT_CFG_OLDEN ∧ !s.flag (rFIO_FOUT_STAT k) fFIO_FOUT_STAT_OPENL then
    .next ((s.raise (rFIO_FOUT_STAT k) fFIO_FOUT_STAT_OPENL).fioEvent 0x1C k (1 + 256 * s.wfld (rFIO_FOUT_CFG k) fFIO_FOUT_CFG_TSDM) s.now)
  else .next s

/-- FOUT_CURRENT_LIMIT (R490). -/
def execFoutCurrentLimit (k : Fin 16) (s : State) : Out :=
  if (s.fout k).on_ then
    .next ((s.raise (rFIO_FOUT_STAT k) fFIO_FOUT_STAT_ILIM).raise (rFIO_FOUT_STAT k) fFIO_FOUT_STAT_ILIMSEEN)
  else .next s

/-- A reset of the field die (R453, R494): every output off, every channel silent with SAFE off. -/
def State.fieldDieReset (s : State) : State :=
  let s := s.fset rFIO_STAT fFIO_STAT_FIELDUP 0
  (List.range 16).foldl (fun s k =>
    let s := s.updFout k (fun f => { f with sil := true, words := false, tsd := false, safe := 0, held := false })
    (((s.bitSet rFIO_FOUTST (16 + k) true).fset (rFIO_FOUT_STAT k) fFIO_FOUT_STAT_TSD 0).fset (rFIO_FOUT_STAT k) fFIO_FOUT_STAT_OPENL 0).foutTake k) s

/-- FIELD_DIE_RESTORE (R494): the field die communicates again; its outputs stay off until SILCLR. -/
def execFieldDieRestore (s : State) : Out :=
  if s.fieldUp then .next s
  else .next (((s.raise rFIO_STAT fFIO_STAT_FIELDUP).raise rFIO_STAT fFIO_STAT_FLDRST).fioEvent 0x1D 0 4 s.now)

/-! ### The mailbox object (R496) -/

/-- FIO_EDGE. -/
def mboFioEdge (i : BitVec 14) (s : State) : MbxRes :=
  if 32 ≤ i.toNat then mbxRes s mbxRANGE
  else
    let f := s.fin_ i.toNat
    ⟨s, mbxOK, words64 f.lastRise ++ words64 f.lastFall
      ++ [BitVec.ofNat 32 (s.fget (rFIO_FIN_STAT i.toNat) fFIO_FIN_STAT_ACC + (if f.filt then 65536 else 0) + (if f.run.isSome then 131072 else 0))]
      ++ words64 (f.run.getD 0)⟩

def execFioEdge (set : Fin 4) (via : RegPath) (index : BitVec 14) (s : State) : Out := .next (s.mbx set via 0x070 0 index [] (mboFioEdge index))

end Sys2Proof.Machine
end

