-- ==== Sys2Proof/Machine/Compare.lean ====
section
/-! DEFINITION. The compare engine (R283-R300, R306): the table, insertion, evaluation, prediction, firing, actions, deletion, reports. -/
namespace Sys2Proof.Machine

/-! ### Entries (R286) -/

def CmpEnt.f (e : CmpEnt) (lo w : Nat) : Nat := fieldOf e.raw lo w
def CmpEnt.key (e : CmpEnt) : BitVec 64 := BitVec.ofNat 64 (e.f 0 64)
def CmpEnt.topen (e : CmpEnt) : FTime := BitVec.ofNat 64 (e.f 64 64)
def CmpEnt.width (e : CmpEnt) : Int := e.f 128 32
def CmpEnt.tdur (e : CmpEnt) : Nat := e.f 160 16
def CmpEnt.axis (e : CmpEnt) : Nat := e.f 176 8
def CmpEnt.trig (e : CmpEnt) : Nat := e.f 184 2
def CmpEnt.dir (e : CmpEnt) : Nat := e.f 186 2
def CmpEnt.discard (e : CmpEnt) : Bool := e.raw.getLsbD 188
def CmpEnt.predicts (e : CmpEnt) : Bool := e.raw.getLsbD 189
def CmpEnt.psrc (e : CmpEnt) : Nat := e.f 190 1
def CmpEnt.rearm (e : CmpEnt) : Bool := e.raw.getLsbD 191
def CmpEnt.act (e : CmpEnt) : Nat := e.f 192 2
def CmpEnt.op (e : CmpEnt) : Nat := e.f 194 2
def CmpEnt.tgtT (e : CmpEnt) : Nat := e.f 196 5
def CmpEnt.tgtG (e : CmpEnt) : Nat := e.f 201 6
def CmpEnt.taxis (e : CmpEnt) : Nat := e.f 196 8
def CmpEnt.out (e : CmpEnt) : Nat := e.f 207 4
def CmpEnt.pw (e : CmpEnt) : Nat := max 1 (e.f 211 16)
def CmpEnt.report (e : CmpEnt) : Bool := e.raw.getLsbD 227
def CmpEnt.cq (e : CmpEnt) : Nat := e.f 228 5
def CmpEnt.chain (e : CmpEnt) : Bool := e.raw.getLsbD 233
def CmpEnt.chidx (e : CmpEnt) : Nat := e.f 234 14
def CmpEnt.tag (e : CmpEnt) : Nat := e.f 248 7
def CmpEnt.heldBit (e : CmpEnt) : Bool := e.raw.getLsbD 255

def trPOS : Nat := 0
def trTIME : Nat := 1
def trWIN : Nat := 2

def acEVENT : Nat := 1
def acFOUT : Nat := 2
def acLATCH : Nat := 3

/-- Does DIR admit forward, and reverse, motion? -/
def CmpEnt.fwd (e : CmpEnt) : Bool := e.dir != 1
def CmpEnt.rev (e : CmpEnt) : Bool := e.dir != 0

/-- Entries of the table (R283). -/
def cmpSize : Nat := 16384

/-! ### Reports (R299, R300) -/

def rcFIRED : Nat := 0
def rcLATE : Nat := 1
def rcDISCARDED : Nat := 2
def rcEXPIRED : Nat := 3
def rcDELETED : Nat := 4
def rcPARTIAL : Nat := 5
def rcNOTARGET : Nat := 6
def rcNOENTRY : Nat := 7

/-- Post a report of an entry to its ring (R299, R387); LATE, DISCARDED and EXPIRED also count. -/
def State.cmpReport (s : State) (i code : Nat) (t : FTime) (latT latCnt : Word) (pred : Bool) : State :=
  let e := s.ce i
  let s := if code = rcLATE ∨ code = rcDISCARDED ∨ code = rcEXPIRED then s.count (rCMP_CNT (code - 1)) else s
  s.produce (some e.cq)
    { ft := t, payload := BitVec.ofNat 128 (i + e.tag <<< 16 + (code + if pred then 16 else 0) <<< 24 + latT.toNat <<< 32 + latCnt.toNat <<< 64),
      tag := 0, planver := 0, status := 0, kind := 2, sq := 0, sqhead := 0 }

/-! ### Freeing and allocating (R283, R297) -/

/-- Free an entry; `fired`: its actions have executed. -/
def State.cmpFree (s : State) (i : Nat) (fired : Bool) : State :=
  (s.setCe i { byFire := fired }).fset rCMP_FREE fCMP_FREE_FREE (s.fget rCMP_FREE fCMP_FREE_FREE + 1)

/-- The `need` lowest free indices from `i` up to `hi`, ascending. -/
def freeIdx (s : State) (hi : Nat) : Nat → Nat → Nat → List Nat
  | 0, _, _ => []
  | fuel + 1, i, need =>
    if need = 0 ∨ hi < i then []
    else if (s.ce i).st = .free then i :: freeIdx s hi fuel (i + 1) (need - 1)
    else freeIdx s hi fuel (i + 1) need

/-- The indices a CMPADD of `n` entries takes in a range, if it has them all. -/
def State.cmpAlloc (s : State) (lo hi n : Nat) : Option (List Nat) :=
  let l := freeIdx s (min hi (cmpSize - 1)) (s.cmp.length + n) lo n
  if l.length = n then some l else none

/-! ### Lead and firing (R288, R292) -/

/-- 16 core cycles in field time (R288, R294). -/
def State.cycles16 (s : State) : Nat := 16 * s.increment / 2 ^ 32

/-- The lead of an entry's action (R292). -/
def State.cmpLead (s : State) (e : CmpEnt) : Nat := if e.act = acEVENT then s.lead e.tgtT else 640

/-- The EVENT frame of an entry (R67, R293). -/
def eventFrame (i : Nat) (e : CmpEnt) (exec : FTime) : Frame :=
  { typ := 11, route := 0, addr := BitVec.ofNat 6 e.tgtG, seq := 0, tag := 0,
    body := leBytes 8 exec.toNat ++ leBytes 1 e.out ++ leBytes 1 e.op ++ leBytes 2 e.pw ++ leBytes 4 (i + e.tag * 2 ^ 14) }

/-- EVENT frames a gondola has not yet executed, and EVENT frames queued on a port (R292). -/
def State.evOpen (s : State) (k : Nat) : List FTime := (s.gd k).evPend.filter (fun t => !reached s.now t)
def State.evQueued (s : State) (t : Nat) : Nat := ((s.port t).waiting.filter (fun f => f.typ == 11)).length

/-- Send the EVENT of a fired entry, hold it, or drop it (R292); a held one sent later than its lead is recorded. -/
def State.cmpSend (s : State) (i : Nat) : State :=
  let e := s.ce i
  let k := s.gk e.tgtT e.tgtG
  let p := s.homePort e.tgtT e.tgtG
  if !s.present e.tgtT e.tgtG then
    (s.setCe i { e with evHeld := false }).cmpReport i rcNOTARGET s.now 0 0 false
  else if 16 ≤ (s.evOpen k).length ∨ 8 ≤ s.evQueued p then s.setCe i { e with evHeld := true }
  else
    let late := e.evHeld && !reached e.tf (s.now + BitVec.ofNat 64 (s.cmpLead e))
    let s := if late then (s.raise rCMP_STAT fCMP_STAT_EVWAIT).count (rCMP_CNT 3) else s
    ((s.setCe i { e with evHeld := false, evSent := true }).updGd k (fun d => { d with evPend := s.evOpen k ++ [e.tf] })).txQueue p
      (eventFrame i e e.tf)

/-- Saturate a lateness to its field (R299). -/
def latTime (x : Int) : Word := BitVec.ofNat 32 (min 0xFFFFFFFF x.toNat)
def latCount (x : Int) : Word := BitVec.ofInt 32 (satInt 32 x)

/-- Fire an entry: fix its fire time and commit its actions (R288). -/
def State.cmpFire (s : State) (i : Nat) (tf : FTime) (latT latCnt : Int) (pred late : Bool) : State :=
  let e := s.ce i
  let s := s.setCe i { e with st := .fired, tf := tf, latT := latTime latT, latCnt := latCount latCnt, pred := pred, late := late,
                              evSent := false, evHeld := false, done := false, opposed := false }
  if e.act = acEVENT then s.cmpSend i else s

/-- Discard an entry (R296, R285). -/
def State.cmpDiscard (s : State) (i : Nat) : State := (s.cmpReport i rcDISCARDED s.now 0 0 false).cmpFree i false

/-- `now + λ_a`. -/
def State.nowLead (s : State) (e : CmpEnt) : FTime := s.now + BitVec.ofNat 64 (s.cmpLead e)

/-- The later of two times. -/
def laterOf (a b : FTime) : FTime := if reached a b then a else b

/-! ### Positions (R287) -/

/-- A position difference of an axis: along the shorter way on a modulo axis. -/
def State.posDiff (s : State) (n : Nat) (a b : Int) : Int := if s.fbModulo n then centred (a - b) (s.fbM n * 65536) else a - b

/-- Motion by `d` from `p` crosses `k`: forward when p ≤ k < p + d, reverse when p ≥ k > p + d (R287). -/
def State.crosses (s : State) (n : Nat) (p d k : Int) (fwd rev : Bool) : Bool :=
  let m := s.fbM n * 65536
  let up := if s.fbModulo n then (k - p) % m else k - p
  let dn := if s.fbModulo n then (p - k) % m else p - k
  (fwd && decide (0 ≤ up ∧ up < d)) || (rev && decide (0 ≤ dn ∧ dn < -d))

/-- KEY of a position entry, modulo M on a modulo axis (R286). -/
def State.cmpKey (s : State) (e : CmpEnt) : Int := if s.fbModulo e.axis then e.key.toInt % (s.fbM e.axis * 65536) else e.key.toInt

/-- How far a position lies from a window, signed; zero inside (R288, R299). -/
def State.winDist (s : State) (e : CmpEnt) (p : Int) : Int :=
  let k := s.cmpKey e
  let w := e.width * 65536
  if s.fbModulo e.axis then
    let m := s.fbM e.axis * 65536
    let x := (p - k) % m
    if x ≤ w then 0 else if x - w ≤ m - x then x - w else x - m
  else if p < k then p - k else if k + w < p then p - k - w else 0

/-- Counts of a 2^-16 difference. -/
def cnts (x : Int) : Int := roundDiv x 65536

/-- The latest evaluation point of an axis, by PSRC, and its velocity (R287, R295). -/
def State.evalPoint (s : State) (n psrc : Nat) : Option (FTime × Val) := if psrc = 0 then (s.ax n).evalPos else (s.ax n).evalSet
def State.evalVel (s : State) (n psrc : Nat) : Int := if psrc = 0 then (s.actSpd n).toInt else (s.ax n).gen.vset.toInt

/-! ### Prediction (R289) -/

/-- The predicted path: displacement from `p` at `dt` units after `t`; by the speed, or by the generator's plan. -/
def State.predPath (s : State) (n psrc : Nat) (t : FTime) (p : Int) (dt : Nat) : Int :=
  if psrc = 0 then roundDiv ((s.actSpd n).toInt * dt) unitHz
  else s.posDiff n (s.spAt n (t + BitVec.ofNat 64 dt)).1.toInt p

/-- The first place, within `step` units of `a`, from which a test holds: halving `k` times between a place where it does not and
one where it does. -/
def firstHold (f : Nat → Bool) (a b : Nat) : Nat → Nat
  | 0 => b
  | k + 1 => if b ≤ a + 1 then b else let m := (a + b) / 2; if f m then firstHold f a m k else firstHold f m b k

/-- The first of `k` steps of a predicted path that crosses a key, refined to a unit. -/
def State.predCross (s : State) (e : CmpEnt) (t : FTime) (p : Int) (step : Nat) : Nat → Nat → Option Nat
  | 0, _ => none
  | k + 1, a =>
    let f := s.predPath e.axis e.psrc t p
    let x := f a
    if s.crosses e.axis (p + x) (f (a + step) - x) (s.cmpKey e) e.fwd e.rev then
      some (firstHold (fun m => s.crosses e.axis (p + x) (f m - x) (s.cmpKey e) e.fwd e.rev) a (a + step) 32)
    else s.predCross e t p step k (a + step)

/-- The first of `k` steps of a predicted path that lies in a window, refined to a unit. -/
def State.predEnter (s : State) (e : CmpEnt) (t : FTime) (p : Int) (step : Nat) : Nat → Nat → Option Nat
  | 0, _ => none
  | k + 1, a =>
    let f := s.predPath e.axis e.psrc t p
    if s.winDist e (p + f a) = 0 then some a
    else if s.winDist e (p + f (a + step)) = 0 then
      some (firstHold (fun m => s.winDist e (p + f m) == 0) a (a + step) 32)
    else s.predEnter e t p step k (a + step)

/-- Steps of a prediction. -/
def predSteps : Nat := 64

/-- t_c of a predicted entry from its evaluation point, if it comes within the horizon (R289). -/
def State.predTime (s : State) (e : CmpEnt) (t : FTime) (p : Int) : Option FTime :=
  let hor := s.nowLead e + BitVec.ofNat 64 (s.axPeriod e.axis)
  let span := (tdiff hor t).toNat
  let step := span / predSteps + 1
  if e.trig = trWIN then
    let a := (max 0 (tdiff e.topen t)).toNat
    if span < a then none
    else ((s.predEnter e t p ((span - a) / predSteps + 1) predSteps a).filter (fun x => decide (x ≤ span))).map (fun x => t + BitVec.ofNat 64 x)
  else ((s.predCross e t p step predSteps 0).filter (fun x => decide (x ≤ span))).map (fun x => t + BitVec.ofNat 64 x)

/-- Fire a predicted entry whose time has come within reach (R289). -/
def State.cmpPredict (s : State) (i : Nat) (t : FTime) (p : Int) : State :=
  let e := s.ce i
  match s.predTime e t p with
  | none => s
  | some tc =>
    let tf := laterOf tc (s.nowLead e)
    let ti := if e.trig = trWIN then e.topen else tc
    let lat := tdiff tf ti
    let cnt := if e.trig = trWIN then s.winDist e p
      else
        let d := s.posDiff e.axis p (s.cmpKey e)
        if s.evalVel e.axis e.psrc < 0 then -d else d
    s.cmpFire i tf lat (cnts cnt) true (e.trig == trPOS && decide ((s.cycles16 : Int) < lat))

/-! ### Insertion (R295, R296) -/

/-- Arm an entry as if inserted now. -/
def State.cmpInsert (s : State) (i : Nat) : State :=
  let s := s.updCe i (fun e => { e with st := .armed, susp := false, opposed := false, stepped := false })
  let e := s.ce i
  let late := fun (s : State) (ref : FTime) =>
    if reached ref (s.nowLead e) then s
    else if e.discard then s.cmpDiscard i
    else s.cmpFire i (s.nowLead e) (tdiff (s.nowLead e) (if e.trig = trWIN then e.topen else ref)) 0 false true
  if e.trig = trTIME then late s e.key
  else if e.trig = trWIN then
    if e.tdur = 0 then s else late s (e.topen + BitVec.ofNat 64 (e.tdur * 100 * usUnits))
  else
    let v := s.evalVel e.axis e.psrc
    match s.evalPoint e.axis e.psrc with
    | none => s
    | some (_, p) =>
      let d := s.posDiff e.axis (s.cmpKey e) p.toInt
      if (0 < v ∧ e.fwd = true ∧ d < 0) ∨ (v < 0 ∧ e.rev = true ∧ 0 < d) then
        if e.discard then s.cmpDiscard i
        else s.cmpFire i (s.nowLead e) (roundDiv (-d * unitHz) v) (cnts d.natAbs) false true
      else s

/-- Add entries at allocated indices, and arm those without HELD (R283, R296). -/
def State.cmpAdd (s : State) (l : List (Nat × BitVec 256)) : State :=
  let s := l.foldl (fun s e =>
    (s.setCe e.1 { raw := e.2, st := .held }).fset rCMP_FREE fCMP_FREE_FREE (s.fget rCMP_FREE fCMP_FREE_FREE - 1)) s
  l.foldl (fun s e => if (s.ce e.1).heldBit then s else s.cmpInsert e.1) s

/-! ### Evaluation (R287-R290) -/

/-- Evaluate one entry at an evaluation point (t, p) that follows `prev`. -/
def State.cmpEvalOne (s : State) (i : Nat) (prev : Option (FTime × Val)) (t : FTime) (p : Int) : State :=
  let e := s.ce i
  let n := e.axis
  let k := s.cmpKey e
  let p0 : Int := match prev with
    | some q => q.2.toInt
    | none => p
  let d := s.posDiff n p p0
  let t0 := match prev with
    | some q => q.1
    | none => t
  if e.st = .armed then
    if e.trig = trPOS then
      if s.crosses n p0 d k e.fwd e.rev then
        let x := if 0 < d then (if s.fbModulo n then (k - p0) % (s.fbM n * 65536) else k - p0)
          else -(if s.fbModulo n then (p0 - k) % (s.fbM n * 65536) else p0 - k)
        let ti := t0 + BitVec.ofInt 64 (roundDiv (x * tdiff t t0) d)
        let c := if 0 < d then d - x else x - d
        s.cmpFire i (s.nowLead e) (tdiff (s.nowLead e) ti) (cnts c) false false
      else if e.predicts then s.cmpPredict i t p
      else s
    else if e.predicts then s.cmpPredict i t p
    else if reached t e.topen ∧ s.winDist e p = 0 then
      let tf := laterOf (s.nowLead e) e.topen
      s.cmpFire i tf (tdiff tf e.topen) 0 false false
    else s
  else if (e.st = .disarmed ∨ e.st = .fired) ∧ e.rearm = true ∧ s.fbModulo n = true then
    let opp := (k + (s.fbM n / 2) * 65536) % (s.fbM n * 65536)
    if s.crosses n p0 d opp true true then
      if e.st = .disarmed then s.setCe i { e with st := .armed } else s.setCe i { e with opposed := true }
    else s
  else s

/-- The position list of an axis, by PSRC. -/
def State.cmpList (s : State) (n psrc : Nat) : List Nat :=
  (s.cmp.filter (fun x => decide (x.2.axis = n ∧ x.2.trig ≠ trTIME ∧ x.2.psrc = psrc ∧ x.2.susp = false
    ∧ (x.2.st = .armed ∨ x.2.st = .disarmed ∨ x.2.st = .fired)))).map (fun x => x.1)

/-- An evaluation point of an axis (R287). -/
def State.cmpEval (s : State) (n psrc : Nat) (t : FTime) (p : Val) : State :=
  let prev := s.evalPoint n psrc
  let s := s.updAx n (fun a => if psrc = 0 then { a with evalPos := some (t, p) } else { a with evalSet := some (t, p) })
  (s.cmpList n psrc).foldl (fun s i => s.cmpEvalOne i prev t p.toInt) s

/-- A shift boundary (R141): `d` 2^-16 counts moved the positions of an axis, `post` being the position after, by PSRC. -/
def State.cmpShift (s : State) (n psrc : Nat) (d : Int) (post : Val) : State :=
  let v := s.evalVel n psrc
  let pre := post.toInt - d
  let one := fun (s : State) (i : Nat) =>
    let e := s.ce i
    let x := s.cmpKey e - pre
    let m := s.fbM n * 65536
    let up := if s.fbModulo n then x % m else x
    let dn := if s.fbModulo n then -((-x) % m) else x
    let behind := if 0 < d then decide (0 < v ∧ e.fwd = true ∧ 0 < up ∧ up ≤ d) else decide (v < 0 ∧ e.rev = true ∧ dn < 0 ∧ d ≤ dn)
    if e.st = .armed ∧ e.trig = trPOS ∧ behind = true then
      if e.discard then s.cmpDiscard i
      else s.cmpFire i (s.nowLead e) 0 (cnts (if 0 < d then d - up else dn - d)) false true
    else s
  let s := (s.cmpList n psrc).foldl one s
  match s.evalPoint n psrc with
  | none => s
  | some (t, _) => s.updAx n (fun a => if psrc = 0 then { a with evalPos := some (t, post) } else { a with evalSet := some (t, post) })

/-! ### Deletion (R297, R298) and row groups (R285) -/

/-- Delete an entry: the report code. -/
def State.cmpDel (s : State) (i : Nat) : State × Nat :=
  let e := s.ce i
  match e.st with
  | .free => (s, if e.byFire then rcFIRED else rcNOENTRY)
  | .fired => (s.cmpFree i false, if e.evSent then rcPARTIAL else rcDELETED)
  | _ => (s.cmpFree i false, rcDELETED)

/-- Entries that a test names among those held (R297). -/
def State.cmpWhere (s : State) (f : CmpEnt → Bool) : List Nat :=
  (s.cmp.filter (fun x => decide (x.2.st ≠ .free) && f x.2)).map (fun x => x.1)

/-- An axis enters OFF (R298): its POS and WIN entries are deleted, each with its report. -/
def State.cmpAxisOff (s : State) (n : Nat) : State :=
  (s.cmpWhere (fun e => e.axis == n && e.trig != trTIME)).foldl (fun s i =>
    let code := if (s.ce i).st = .fired ∧ (s.ce i).evSent then rcPARTIAL else rcDELETED
    ((s.cmpReport i code s.now 0 0 false).cmpDel i).1) s

/-- The shared compare list of a row group (R285). -/
def State.cmpGroup (s : State) (g : Nat) : List Nat :=
  s.cmpWhere (fun e => (e.st == .armed || e.st == .disarmed) && (s.rowGroup g).contains e.axis)

/-- Suspend a row group's entries (R285, R425). -/
def State.cmpSuspend (s : State) (g : Nat) : State :=
  ((s.cmpGroup g).foldl (fun s i => s.updCe i (fun e => { e with susp := true })) s).fset (rCMP_RG g) fCMP_RG_SUSP 1

/-- Re-arm a row group's suspended entries, as if inserted (R285, R296). -/
def State.cmpResume (s : State) (g : Nat) : State :=
  ((s.cmpGroup g).foldl (fun s i =>
    if !(s.ce i).susp then s
    else if (s.ce i).st = .disarmed then s.updCe i (fun e => { e with susp := false })
    else s.cmpInsert i) s).fset (rCMP_RG g) fCMP_RG_SUSP 0

/-- The fault treatment of a row group (R285). -/
def State.cmpFact (s : State) (g : Nat) : State :=
  match s.wfld (rCMP_RG g) fCMP_RG_FACT with
  | 0 => s
  | 1 => s.cmpSuspend g
  | _ => (s.cmpGroup g).foldl (fun s i => s.cmpDiscard i) s

/-! ### Rows -/

/-- COMPARE_FIRE (R288, R289, R294): a TIME entry falls due; a predicted entry comes within reach; a window opens over the position. -/
def execCompareFire (i : Fin 16384) (s : State) : Out :=
  let e := s.ce i
  if e.st ≠ .armed ∨ e.susp = true ∨ s.time.halted then .next s
  else if e.trig = trTIME then
    let due := e.key - BitVec.ofNat 64 (s.cmpLead e + s.cycles16)
    if reached s.now due then
      let s := if (s.cycles16 : Int) < tdiff s.now due then s.raise rCMP_STAT fCMP_STAT_OVERRUN else s
      let tf := laterOf e.key (s.nowLead e)
      .next (s.cmpFire i tf (tdiff tf e.key) 0 false (decide ((s.cycles16 : Int) < tdiff tf e.key)))
    else .next s
  else match s.evalPoint e.axis e.psrc with
    | none => .next s
    | some (t, p) =>
      if e.predicts then .next (s.cmpPredict i t p.toInt)
      else if e.trig = trWIN ∧ reached s.now e.topen ∧ !reached t e.topen
          ∧ s.winDist e (p.toInt + s.predPath e.axis e.psrc t p.toInt (tdiff e.topen t).toNat) = 0 then
        let tf := laterOf (s.nowLead e) e.topen
        .next (s.cmpFire i tf (tdiff tf e.topen) 0 false false)
      else .next s

/-- All actions of a fired entry have executed: it is freed, or waits for its re-arming (R290). -/
def State.cmpDone (s : State) (i : Nat) : State :=
  let e := s.ce i
  if e.rearm ∧ e.trig = trPOS ∧ s.fbModulo e.axis = true then
    s.setCe i { e with st := if e.opposed then .armed else .disarmed, opposed := false }
  else s.cmpFree i true

/-- COMPARE_ACTION (R293, R300): at the fire time. -/
def execCompareAction (i : Fin 16384) (s : State) : Out :=
  let e := s.ce i
  if e.st ≠ .fired ∨ !reached s.now e.tf then .next s
  else
    let s := if e.evHeld then s.cmpSend i else s
    let s := if e.done then s
      else
        let s := if e.act = acFOUT then s.foutAct e.out e.op e.pw
          else if e.act = acLATCH ∧ s.latHit e.taxis (e.out % 2) 0x36 true then s.capture e.taxis (e.out % 2) 0x36 true e.tf
          else s
        let s := if e.late then s.cmpReport i rcLATE e.tf e.latT e.latCnt e.pred
          else if e.report then s.cmpReport i rcFIRED e.tf e.latT e.latCnt e.pred else s
        let s := s.updCe i (fun e => { e with done := true })
        if e.chain then (if (s.ce e.chidx).st = .held then s.cmpInsert e.chidx else s.raise rCMP_STAT fCMP_STAT_CHERR) else s
    .next (if (s.ce i).evHeld then s else s.cmpDone i)

/-- WIN_EXPIRE (R288). -/
def execWinExpire (i : Fin 16384) (s : State) : Out :=
  let e := s.ce i
  if e.st = .armed ∧ e.trig = trWIN ∧ e.tdur ≠ 0 ∧ reached s.now (e.topen + BitVec.ofNat 64 (e.tdur * 100 * usUnits)) then
    .next ((s.cmpReport i rcEXPIRED s.now 0 0 false).cmpFree i false)
  else .next s

/-- The effect of a write of CMP_RGg (R285). -/
def cmpRgWritten (g : Nat) (v : Word) (s : State) : State := if bget v fCMP_RG_RESUME = 1 then s.cmpResume g else s

/-- CMP_RG_RESUME (R285, R296). -/
def execCmpRgResume (via : RegPath) (g : Fin 64) (v : Word) (s : State) : Out :=
  .next (s.portWrite via (rCMP_RG g) v (fun _ => cmpRgWritten g v))

/-- Send held EVENTs as soon as the limits allow (R292). -/
def State.cmpRelease (s : State) : State :=
  (s.cmpWhere (fun e => e.st == .fired && e.evHeld)).foldl (fun s i =>
    let s := s.cmpSend i
    if (s.ce i).done ∧ !(s.ce i).evHeld then s.cmpDone i else s) s

/-! ### Mailbox objects (R306) -/

/-- CMP_READ. -/
def mboCmpRead (i : BitVec 14) (s : State) : MbxRes :=
  ⟨s, mbxOK, (List.range 8).map (fun k => BitVec.ofNat 32 ((s.ce i.toNat).raw.toNat >>> (32 * k)))⟩

/-- CMP_INFO. -/
def mboCmpInfo (i : BitVec 14) (s : State) : MbxRes :=
  let e := s.ce i.toNat
  let st := match e.st with
    | .free => 0
    | .armed => 1
    | .held => 2
    | .fired => 3
    | .disarmed => 8
  ⟨s, mbxOK, BitVec.ofNat 32 (st + if e.susp then 4 else 0) :: words64 (if e.st = .fired then e.tf else 0)⟩

def execCmpRead (set : Fin 4) (via : RegPath) (index : BitVec 14) (s : State) : Out := .next (s.mbx set via 0x050 0 index [] (mboCmpRead index))
def execCmpInfo (set : Fin 4) (via : RegPath) (index : BitVec 14) (s : State) : Out := .next (s.mbx set via 0x051 0 index [] (mboCmpInfo index))

end Sys2Proof.Machine
end

