-- ==== Sys2Proof/Machine/LaneEvt.lean ====
section
/-! DEFINITION. What the shell keeps of the lanes: roles (R498), the event queue (R354), traps and retirement (R358, R499), the LOSTLANE
mask (R480), the end of a migration (R502); the transmit assemblers (R17); and configuration requests to gondolas (R67). -/
namespace Sys2Proof.Machine

/-! ### Roles (R498) -/

def roFREE : Nat := 0
def roOWNER : Nat := 1
def roSPARE : Nat := 2
def roRETIRED : Nat := 3

def State.laneRole (s : State) (l : Nat) : Nat := s.fget rLPE_LROLE (fLPE_LROLE_ROLE l)
def State.setRole (s : State) (l r : Nat) : State := s.fset rLPE_LROLE (fLPE_LROLE_ROLE l) r

/-- The axes of the committed plan that a lane owns. -/
def State.laneAxes (s : State) (l : Nat) : List Nat := allAxes.filter (fun n => s.inPlan n && s.axLane n == l)

/-- The role of a lane that is not retired. -/
def State.freeRole (s : State) (l : Nat) : Nat :=
  if !(s.laneAxes l).isEmpty then roOWNER
  else if (s.fget rLPE_SPARE fLPE_SPARE_SPARE).testBit l then roSPARE else roFREE

/-- Show the roles of the lanes that are not retired. -/
def State.showRoles (s : State) : State :=
  (List.range 16).foldl (fun s l => if s.laneRole l = roRETIRED then s else s.setRole l (s.freeRole l)) s

/-! ### LOSTLANE (R480) -/

/-- The tethers with an energised axis on a trapped lane. -/
def State.lostTethers (s : State) : List Nat :=
  if !(List.range 16).any (fun l => (s.ln l).trapped) then []
  else (allAxes.filter (fun n => s.inPlan n && s.axType n != tyVX && energised (s.axState n) && (s.ln (s.axLane n)).trapped)).map s.axTether

/-- Bring the mask up to date; a bit that sets is timed. -/
def State.lostRefresh (s : State) : State :=
  let ts := s.lostTethers
  let old := s.anchor.lostlane
  let new := BitVec.ofNat 25 (((List.range 25).filter (fun t => ts.contains t)).map (fun t => 2 ^ t)).sum
  if new = old then s
  else
    let since := (List.range 25).foldl (fun m t => if new.getLsbD t && !old.getLsbD t then tset 0 m t s.now else m) s.ancView.lostSince
    { (s.updAnchor (fun a => { a with lostlane := new })) with ancView := { s.ancView with lostSince := since } }

/-! ### Migrations (R502, R503) -/

/-- The flight log's COMMIT record (R515): of a commit applied or refused, or of a migration. -/
def State.flogCommit (s : State) (src dst moved : Nat) : State :=
  s.flogAdd 3 (s.rget rGLB_COMMIT_STAT).toNat s.now
    (BitVec.ofNat 128 ((s.rget rPLAN_VERSION).toNat + src * 2 ^ 32 + dst * 2 ^ 40 + moved * 2 ^ 48))

/-- A migration ends: PHASE idle, MIGRATED, and the completion of the command that started it (R387). -/
def State.migEnd (s : State) (m : Migration) (status : Nat) : State :=
  let s := (State.fset { s with mig := none } rLPE_MIG fLPE_MIG_PHASE 0).flogCommit m.src m.dst m.moved
  let s := s.devEvent 0x30 m.src (m.dst + m.moved * 256 + (if m.repair then 65536 else 0) + status * 2 ^ 24)
  match m.cmd with
  | some k => s.finish k status m.moved
  | none => s

/-! ### Transmit assemblers (R17, R362) -/

/-- The assembler's frame is ready when every record it waits for has been committed. -/
def State.frameCheck (s : State) (k : Nat) : State :=
  let d := s.gd k
  if d.collecting && d.due.all (fun c => (tget none d.recs c).isSome) then
    let s := s.setGd k { d with collecting := false, ready := true, ccT := s.now }
    s.updPort (if 24 * 64 ≤ k then 24 else s.homePort (k / 64) (k % 64)) (fun p => { p with ready := p.ready ++ [k] })
  else s

/-- Commit a record of a channel to the assembler of a gondola while its frame collects. -/
def State.commitRec (s : State) (k c : Nat) (r : BitVec 128) : State :=
  if (s.gd k).collecting ∧ (s.gd k).due.contains c then
    (s.updGd k (fun d => { d with recs := tset none d.recs c (some r) })).frameCheck k
  else s

/-- Commit OFF records for the axes of a lane that still lack one (R358). -/
def State.laneOff (s : State) (l : Nat) : State :=
  (s.laneAxes l).foldl (fun s n =>
    if s.axType n = tyVX ∨ (tget none (s.gd (s.axGon n)).recs (s.axCh n)).isSome then s
    else s.commitRec (s.axGon n) (s.axCh n) (offRec (s.axCh n))) s

/-! ### Traps (R358, R499) -/

/-- Trap codes (R358). -/
def tcRESERVED : Nat := 1
def tcLOOP : Nat := 2
def tcREP : Nat := 3
def tcADDR : Nat := 4
def tcQUEUE : Nat := 5
def tcMEM : Nat := 6
def tcWDG : Nat := 7
def tcSELFTEST : Nat := 8

/-- Show how many events wait (R371). -/
def State.evqShow (s : State) (l : Nat) : State :=
  let n := (s.ln l).evq.length
  let s := s.fset (rLPE_L_EVQ l) fLPE_L_EVQ_NOW n
  if s.fget (rLPE_L_EVQ l) fLPE_L_EVQ_PEAK < n then s.fset (rLPE_L_EVQ l) fLPE_L_EVQ_PEAK n else s

/-- A trap stops the lane and retires it: its events are discarded, its axes send OFF, LANE and RETIRED are posted, the log may freeze,
a migration to it ends (R503), and a repair of its axes waits (R504). -/
def State.trapLane (s : State) (l code : Nat) : State :=
  if (s.ln l).trapped then s
  else
    let st := rLPE_L_STAT l
    let hard := code == tcMEM || code == tcSELFTEST
    let pc := (s.ln l).fg.pc
    let s := ((s.fset st fLPE_L_STAT_RUN 0).fset st fLPE_L_STAT_BUSY 0).raise st fLPE_L_STAT_TRAP
    let s := (s.fset st fLPE_L_STAT_TRAPCODE code).fset st fLPE_L_STAT_TRAPPC pc.toNat
    let s := s.updLn l (fun x => { x with trapped := true, evq := [], work := none, outs := [], pend := [], pendSt := none,
                                          slots := none })
    let s := (s.evqShow l).setRole l roRETIRED
    let s := if hard then s.fset rLPE_RETIRE fLPE_RETIRE_HARD (setBit (s.fget rLPE_RETIRE fLPE_RETIRE_HARD) l true) else s
    let s := (s.devEvent 0x15 l code).devEvent 0x31 l (code + if hard then 256 else 0)
    let s := ((s.flogTrigger 3 0).laneOff l).lostRefresh
    let s := if (s.laneAxes l).isEmpty then s else { s with repairs := s.repairs ++ [l] }
    match s.mig with
    | some m =>
      if m.dst ≠ l then s
      else
        let s := if m.repair ∧ !m.axes.isEmpty then { s with repairs := s.repairs ++ [m.src] } else s
        s.migEnd m stREFUSED
    | none => s

/-! ### Events (R354) -/

/-- Events a lane's queue holds. -/
def laneQueue : Nat := 512

/-- Is an axis traced in a tick (R515)? -/
def State.traced (s : State) (n : Nat) (k : Int) : Bool :=
  s.flag (rFLOG_TRACE (n / 32)) ⟨n % 32, 1⟩ && divides (s.fget rFLOG_CTL fFLOG_CTL_TDIV + 1) k

/-- The TRACE record of an axis for the tick that starts at `tk` (R515). -/
def State.trace (s : State) (n : Nat) (tk : FTime) : State :=
  let a := s.ax n
  let data := (s.actPos n).toNat + (min a.dhat 0xFFFFFFFF) * 2 ^ 64 + (s.axState n) * 2 ^ 96
    + ((if a.fresh then 1 else 0) + (if a.missRun = 0 then 0 else 2)) * 2 ^ 104 + (s.fget (rAXC_STATE n) fAXC_STATE_SKIND) * 2 ^ 112
  s.flogAdd 2 n tk (BitVec.ofNat 128 data)

/-- Trace the axes of an event (R515): those of the gondola, or the virtual axes of the class. -/
def State.traceEvent (s : State) (l : Nat) (e : LEvent) : State :=
  let mine := (s.laneAxes l).filter (fun n =>
    if e.tick then s.axType n == tyVX && s.axClass n == e.cls else s.axType n != tyVX && s.axGon n == s.gk e.t e.pos)
  (mine.filter (fun n => s.traced n (tickAt (s.tickOrigin n) (s.axPeriod n) e.tk))).foldl (fun s n => s.trace n e.tk) s

/-- Raise an event for a lane: a retired lane takes none; an event that finds the queue full traps the lane. -/
def State.raiseEvent (s : State) (l : Nat) (e : LEvent) : State :=
  if (s.ln l).trapped ∨ s.laneRole l = roRETIRED then s
  else if laneQueue ≤ (s.ln l).evq.length then s.trapLane l tcQUEUE
  else ((s.updLn l (fun x => { x with evq := x.evq ++ [e] })).evqShow l).traceEvent l e

/-! ### Configuration requests (R67) -/

/-- Write one register of a gondola. -/
def State.cfgWrite (s : State) (k addr : Nat) (v : Word) : State := s.cfgReq (k / 64) (k % 64) true addr 4 [v]

end Sys2Proof.Machine
end

