-- ==== Sys2Proof/Machine/Axis.lean ====
section
/-! DEFINITION. Axis states (R181-R189): the tick boundary with its shifts, causes and transitions, the requests of AXC_An_CMD, the back-EMF
test (R217), and the bus group of an axis (R308, R309). -/
namespace Sys2Proof.Machine

/-! ### Conditions -/

/-- Is power enabled on an axis (R181, R454)? -/
def State.powered (s : State) (n : Nat) : Bool :=
  s.axType n == tyVX || (!s.flag rANC_STAT fANC_STAT_LINKLOST &&
    (if s.axTether n = 24 then (s.rget rANC_RIPCL).getLsbD 24 else (s.gd (s.axGon n)).ripin))

/-- Does the anchor hold a stop (R183)? -/
def State.anchorStop (s : State) : Bool := s.flag rANC_STAT fANC_STAT_STOP1 || s.flag rANC_STAT fANC_STAT_STOP2

/-- Is the axis's gondola present, and does it report LOCK (R183)? -/
def State.axPresent (s : State) (n : Nat) : Bool := s.axType n == tyVX || s.present (s.axTether n) (s.axPos n)
def State.axLock (s : State) (n : Nat) : Bool := s.axType n == tyVX || s.axTether n == 24 || (s.gd (s.axGon n)).lock

/-- The descriptor of the axis's channel (R95). -/
def State.axDesc (s : State) (n : Nat) : BitVec 128 :=
  if s.axTether n = 24 then s.gdesc homeNode (s.axCh n) else tget 0 (s.gd (s.axGon n)).descs (s.axCh n)

/-- The bus group in use that an axis belongs to (R308). -/
def State.axBus (s : State) (n : Nat) : Option Nat :=
  if s.axType n = tyVX then none
  else
    let g := if s.axTether n = 24 then some (if (s.wfld rBUS_HGRP fBUS_HGRP_G1).testBit (s.axCh n) then 1 else 0)
      else
        let p := s.axPos n
        let o := rBUS_GMAP (s.axTether n) (p / 4)
        if s.wflag o (fBUS_GMAP_EN (p % 4)) then some (s.wfld o (fBUS_GMAP_GROUP (p % 4))) else none
    match g with
    | some b => if s.wflag (rBUS_G_CFG b) fBUS_G_CFG_EN then some b else none
    | none => none

/-- The latest VBUS of an axis, in 1/64 V (R309). -/
def State.axVbus (s : State) (n : Nat) : Nat :=
  match s.axBus n with
  | some b => s.fget (rBUS_G_LIVE b) fBUS_G_LIVE_VBUS
  | none => 0

/-- ANGSRC of a TQ axis (R213): 0 position, 1 Hall, 2 sensorless. -/
def State.angSrc (s : State) (n : Nat) : Nat := min 2 (s.wfld (rTQ_CFG n) fTQ_CFG_ANGSRC)

/-- Does the channel of a TQ axis meet R195? -/
def State.tqConfigured (s : State) (n : Nat) : Bool :=
  let d := s.axDesc n
  let fb := s.fbSrc n
  descTYPE d == 0 && descLEGS d == 3 && (descSENSE d == 1 || descSENSE d == 3)
    && (s.angSrc n != 0 || fb == 1 || fb == 2 || fb == 4) && (s.angSrc n != 1 || fb == 3)

/-! ### The back-EMF test (R217) -/

/-- Stages of the loss reaction and of CATCH (R223). -/
def lsNONE : Nat := 0
def lsSHORT : Nat := 1
def lsOFF : Nat := 2
def lsZERO : Nat := 3
def lsSTAND : Nat := 4
def lsSYNC : Nat := 5
def lsVERIFY : Nat := 6

def State.lstage (s : State) (n : Nat) : Nat := s.fget (rTQ_LIVE n) fTQ_LIVE_LSTAGE

/-- Put an axis in a stage, timed from `t`. -/
def State.setStage (s : State) (n st : Nat) (t : FTime) : State :=
  (s.fset (rTQ_LIVE n) fTQ_LIVE_LSTAGE st).updAx n (fun a =>
    { a with stageAt := t, stageCnt := 0, mot := { a.mot with mAt := none, eCnt := 0, holdX := none, wCur := none } })

/-- Does a loss reaction run on the axis? -/
def State.reacting (s : State) (n : Nat) : Bool := s.axType n == tyTQ && (s.lstage n == lsSHORT || s.lstage n == lsOFF)

/-- π to twenty places, times 10^20. -/
def pi20 : Nat := 314159265358979323846

/-- The electrical speed that the feedback gives, in 2^-40 rad/s (R213, R149). -/
def State.omegaFb (s : State) (n : Nat) : Int :=
  let hall := s.angSrc n == 1
  roundDiv (2 * pi20 * (if hall then 1 else max 1 (s.wfld (rTQ_CFG n) fTQ_CFG_POLES) : Nat) * (s.actSpd n).toInt * 2 ^ 24)
    (10 ^ 20 * (if hall then 6 else max 4 (s.wfld (rTQ_CPT n) fTQ_CPT_CPT) : Nat))

/-- ω̂_e (R213): of the feedback, or of the PLL. -/
def State.omegaNow (s : State) (n : Nat) : Int := if s.angSrc n = 2 then (s.ax n).mot.wPll else s.omegaFb n

/-- E ≥ VBUS × `frac` / 256 at an electrical speed in 2^-40 rad/s, squared on both sides: E = √3 × |ω_e| × ψm (R217). -/
def State.emfAbove (s : State) (n : Nat) (w : Int) (frac : Nat) : Bool :=
  decide ((s.axVbus n * frac * (10 ^ 6 * 2 ^ 40)) ^ 2 ≤ 3 * (w.natAbs * max 1 (s.wfld (rTQ_PSIM n) fTQ_PSIM_PSIM) * 64 * 256) ^ 2)

/-- The loss reaction or the OFF reaction of a TQ axis begins (R185, R217): SHORT when E ≥ VBUS and SHORTEN permits it, else OFF.  A
stage already in force stays. -/
def State.startReaction (s : State) (n : Nat) (w : Int) (t : FTime) : State :=
  if s.reacting n then s
  else
    s.setStage n (if s.emfAbove n w 256 ∧ s.wflag (rTQ_CFG n) fTQ_CFG_SHORTEN then lsSHORT else lsOFF) t

/-! ### Shifts (R140-R144) -/

/-- A shift of an axis's set-point and profile state, in 2^-16 counts (R140, R265, R270). -/
def State.genShift (s : State) (n : Nat) (d : Int) (t : FTime) : State :=
  let big := d * 2 ^ 32
  let s := if s.fbOwn n ∧ s.fbModulo n = true then s.addTurns n (((s.ax n).gen.pset.toInt + d) / (s.fbM n * 65536)) else s
  let s := s.updGen n (fun g =>
    { g with p := if g.gDen = 0 then g.p + big else g.p, gBase := if g.gDen = 0 then g.gBase else g.gBase + d,
             pset := s.fold n (g.pset.toInt + d),
             endP := if g.src = .rest then g.endP.map (fun e => s.fold n (e.toInt + d)) else g.endP,
             br := { g.br with base := g.br.base + d },
             dPrev := if g.src = .bridle ∨ g.src = .cam then g.dPrev.map (fun e => (s.fold n (e.1.toInt + d), e.2)) else g.dPrev })
  let g := (s.ax n).gen
  if g.src = .move ∧ !g.arrived then
    if g.gDen ≠ 0 then s.groupRebase n t else s.planMove n t g.target false false g.vl g.al g.dl g.jl
  else s

/-- A shift of a master leaves M and its slaves as they are (R270). -/
def State.masterShift (s : State) (n : Nat) (d : Int) : State :=
  let on := fun (b : Bridle) => decide (b.mkind < 2) && b.master == n
  let mv := fun (b : Bridle) => { b with mlast := b.mlast + BitVec.ofInt 64 d }
  (allAxes.filter (fun m => ((s.ax m).gen.br.engaged && on (s.ax m).gen.br) || (match (s.ax m).gen.brArm with
    | some b => on b
    | none => false))).foldl (fun s m => s.updGen m (fun g =>
      { g with br := if g.br.engaged && on g.br then mv g.br else g.br, brArm := g.brArm.map (fun b => if on b then mv b else b) })) s

/-- ANGOFF takes the angle of a referencing shift, so that the angle does not jump (R213). -/
def State.angleShift (s : State) (n : Nat) (d : Int) : State :=
  let a := roundDiv ((s.wfld (rTQ_CFG n) fTQ_CFG_POLES : Int) * 2 ^ 24 * d) (max 4 (s.wfld (rTQ_CPT n) fTQ_CPT_CPT) : Nat)
  s.bothSet (rTQ_ANGOFF n) fTQ_ANGOFF_ANGOFF (((s.wfld (rTQ_ANGOFF n) fTQ_ANGOFF_ANGOFF : Int) - a) % 2 ^ 24).toNat

/-- The shifts decided take effect (R140-R143): FB_SETPOS first, then the index; the clamp and TURNS last. -/
def State.applyShifts (s : State) (n : Nat) (tb : FTime) : State :=
  let a := s.ax n
  if a.setPos = none ∧ a.idxShift = none then s
  else
    let old := a.sum
    let own := s.fbOwn n
    let s1 : Int := match a.setPos with
      | none => 0
      | some v => if own then v.toInt - a.gen.pset.toInt
        else v.toInt - (if s.fbModulo n then old % s.fbM n else old) * 65536
    let s2 : Int := match a.idxShift with
      | none => 0
      | some d => d.toInt
    let d := s1 + s2 * 65536
    let s := s.updAx n (fun a =>
      { a with cuser := a.cuser + BitVec.ofInt 64 (s1 / 65536), cix := a.cix + BitVec.ofInt 64 s2, setPos := none, idxShift := none, idxRef := false,
               shifts := (tb, d) :: a.shifts.take 7 })
    let s := if a.idxRef ∧ s.axType n = tyTQ ∧ s.angSrc n = 0 then s.angleShift n s2 else s
    let s := (s.genShift n d tb).masterShift n d
    let s := if own then s else s.sumMoved n old tb
    let s := (s.cmpShift n 0 d (s.actPos n)).cmpShift n 1 d (s.ax n).gen.pset
    s.fset (rFBK_STAT n) fFBK_STAT_SHIFT_PEND 0

/-! ### Entering a state -/

/-- The STATE event (R182, R388). -/
def State.stateEvent (s : State) (n old new code : Nat) (t : FTime) : State :=
  s.axEvent n 0x01 (old + new * 256 + code * 65536 + s.fget (rAXC_STATE n) fAXC_STATE_SKIND * 2 ^ 24) t

/-- The first cause is recorded (R186). -/
def State.recordCause (s : State) (n code : Nat) : State :=
  if s.fget (rAXC_STATE n) fAXC_STATE_FCAUSE = 0 then s.fset (rAXC_STATE n) fAXC_STATE_FCAUSE code else s

/-- Clear the loops, the delay statistics and the missing-record count (R188). -/
def State.clearLoops (s : State) (n : Nat) : State :=
  (s.updAx n (fun a => { a with l0 := {}, l1 := {}, l2 := {}, win := {}, closed := {}, anyClosed := false })).rset (rAXC_MISS n) 0

/-- Hold a position as the set-point, source Rest (R252). -/
def State.restAtPos (s : State) (n : Nat) (p : Val) (t : FTime) : State :=
  ((s.leaveSource n).startPlan n t .rest { p := p.toInt * 2 ^ 32, v := 0, a := 0 } [] (some p) 0).updGen n (fun g =>
    { g with arrived := true, brArm := none, staged := none, remPend := false })

/-- The first delay figure after an entry (R173). -/
def State.freshDelay (s : State) (n : Nat) : State := s.updAx n (fun a => { a with dhat := s.firstDelay n })

/-- The comparators start anew (R197). -/
def State.freshComparators (s : State) (n : Nat) : State := (s.fset (rTQ_LIVE n) fTQ_LIVE_CT 0).fset (rTQ_LIVE n) fTQ_LIVE_CF 1

/-- Row-group propagation (R189) and the group's compare list (R285): a member has entered FAULT, or STOPPING with kind FAULT. -/
def State.groupFault (s : State) (n : Nat) : State :=
  if !s.wflag (rAXC_GRP n) fAXC_GRP_RGEN then s
  else
    let g := s.wfld (rAXC_GRP n) fAXC_GRP_RGRP
    let s := ((s.rowGroup g).filter (fun m => m != n)).foldl (fun s m =>
      let k := min 2 (s.wfld (rAXC_GRP m) fAXC_GRP_RGSTOP)
      if k = 0 then s else s.cause m (.stop k none)) s
    s.cmpFact g

/-- Stop requests to the other members of an interpolation group (R265). -/
def State.igStop (s : State) (n kind : Nat) : State :=
  if !s.inGroup n then s
  else ((s.igroup n).filter (fun m => m != n)).foldl (fun s m => s.cause m (.stop (if kind = 3 then 2 else kind) none)) s

/-- The generator after CATCH (R218): from the actual position and speed toward the target it had, as RESUME does; else source Rest. -/
def State.genRestart (s : State) (n : Nat) (t : FTime) : State :=
  let g := (s.ax n).gen
  let p := s.actPos n
  if (g.src = .move ∧ g.arrived = false) ∨ g.src = .velocity then
    let s := s.startPlan n t g.src { p := p.toInt * 2 ^ 32, v := (s.actSpd n).toInt * 2 ^ 32, a := 0 } [(1, 0)] none 0
    s.planMove n t g.target false g.isVel g.vl g.al g.dl g.jl
  else s.restAtPos n p t

/-- Enter a state at a boundary: the register, the event, and what the entry does. -/
def State.enter (s : State) (n new skind : Nat) (t : FTime) : State :=
  let r := rAXC_STATE n
  let old := s.axState n
  let s := ((s.fset r fAXC_STATE_STATE new).fset r fAXC_STATE_PREV old).fset r fAXC_STATE_SKIND skind
  let s := (s.stateEvent n old new (s.fget r fAXC_STATE_FCAUSE) t).lostRefresh
  let tq := s.axType n == tyTQ
  let s := if tq ∧ !energised new then s.fset (rAXC_STATE n) fAXC_STATE_ANGVAL
      (if s.angSrc n = 2 then 0 else s.fget (rAXC_STATE n) fAXC_STATE_ANGVAL) else s
  let s := if tq ∧ (new = xOFF ∨ new = xARMED) then s.setStage n lsNONE t else s
  if new = xOFF then
    (((((s.restAtPos n (s.ax n).gen.pset t).dropResume n).clearLoops n).cmpAxisOff n).latOff n)
  else if new = xARMED then s.restAtPos n (s.spAt n t).1 t
  else if new = xREADY then
    let s := if old = xCATCH ∧ (s.ax n).catchFrom ≠ xARMED then (s.updAx n (fun a => { a with l0 := {}, l1 := {} })).genRestart n t
      else s.restAtPos n (s.actPos n) t
    ((s.freshDelay n).freshComparators n).setStage n lsNONE t
  else if new = xRUN then
    if old = xCATCH then
      ((((s.updAx n (fun a => { a with l0 := {}, l1 := {} })).genRestart n t).freshComparators n).setStage n lsNONE t)
    else s.stWake n t
  else if new = xALIGN then
    (s.freshDelay n).updAx n (fun a => { a with stageAt := t, stageCnt := 0, alignStep := 0, mot := { a.mot with mAt := none, holdX := none } })
  else if new = xCATCH then
    let s := ((s.freshDelay n).setStage n lsZERO t).fset (rTQ_LIVE n) fTQ_LIVE_CATT 0
    s.updAx n (fun a => { a with catchFrom := old, alignStep := 0 })
  else if new = xTEST then
    (s.freshDelay n).updAx n (fun a => { a with stageAt := t, stageCnt := 0, test := none, testNew := false })
  else if new = xSTOPPING then
    let s := if (s.ax n).gen.src = .stop ∧ (s.ax n).gen.gDen ≠ 0 then s else (s.startStop n t).igStop n skind
    if skind = 3 then s.groupFault n else s
  else if new = xHOLD then s
  else
    -- FAULT (R185, R189, R515)
    let moving := (s.ax n).gen.gDen != 0 && !(s.ax n).gen.arrived
    let s := if moving then s.igStop n 2 else s
    let s := s.restAtPos n (s.spAt n t).1 t
    let s := if tq then s.startReaction n (s.omegaNow n) t else s
    ((s.flogTrigger 2 0).groupFault n)

/-! ### Completions of stop and request commands (R379, R387) -/

/-- One axis of a STOP's scope has taken (or refused) it: when all have, it completes, STATE when none took it. -/
def State.stopAck (s : State) (cmd : Option Nat) (took : Bool) : State :=
  match cmd with
  | none => s
  | some k => match s.cmd k with
    | none => s
    | some c =>
      let n := c.count + if took then 1 else 0
      if c.left ≤ 1 then s.finish k (if n = 0 then stSTATE else stOK) n
      else s.setCmd k (some { c with left := c.left - 1, count := n })

/-- One request of an AXSET has been taken or refused: when all have, it completes, STATE when one was refused. -/
def State.reqAck (s : State) (cmd : Option Nat) (took : Bool) : State :=
  match cmd with
  | none => s
  | some k => match s.cmd k with
    | none => s
    | some c =>
      let bad := c.count + if took then 0 else 1
      if c.left ≤ 1 then s.finish k (if bad = 0 then stOK else stSTATE) 0
      else s.setCmd k (some { c with left := c.left - 1, count := bad })

/-- A request or command is refused (R184). -/
def State.axRefuse (s : State) (n : Nat) : State := s.raise (rAXC_STAT n) fAXC_STAT_REFUSED

/-! ### Taking one cause (R183, R184) -/

/-- What taking a cause answers: the state, whether a transition has now been made at this boundary, and whether the cause waits. -/
structure Taken where
  st : State
  moved : Bool
  wait : Bool

def keepFor (s : State) (moved : Bool) : Taken := ⟨s, moved, true⟩
def tookNo (s : State) (moved : Bool) : Taken := ⟨s, moved, false⟩

/-- Make a transition, unless one has been made at this boundary: then the cause waits (R182). -/
def State.goTo (s : State) (n new skind : Nat) (t : FTime) (moved : Bool) (pre post : State → State) : Taken :=
  if moved then keepFor s moved else tookNo (post ((pre s).enter n new skind t)) true

/-- Raise the kind of the stop in force (R183). -/
def State.raiseKind (s : State) (n k : Nat) : State :=
  if s.fget (rAXC_STATE n) fAXC_STATE_SKIND < k then s.fset (rAXC_STATE n) fAXC_STATE_SKIND k else s

/-- A fault cause (R183, R186). -/
def State.takeFault (s : State) (n code : Nat) (stop : Bool) (t : FTime) (moved : Bool) : Taken :=
  let x := s.axState n
  let later := x == xFAULT || (x == xSTOPPING && s.fget (rAXC_STATE n) fAXC_STATE_SKIND == 3)
  let post := fun (s : State) => if later then s.stateEvent n x x code t else s
  if x = xOFF then tookNo s moved
  else if x = xFAULT then tookNo (post s) moved
  else if !stop then s.goTo n xFAULT 0 t moved (fun s => (post s).recordCause n code) id
  else if x = xARMED then tookNo s moved
  else if x = xALIGN ∨ x = xTEST ∨ x = xCATCH then s.goTo n xFAULT 0 t moved (fun s => s.recordCause n code) id
  else if x = xSTOPPING then
    tookNo (if later then post s else (((s.recordCause n code).raiseKind n 3).groupFault n)) moved
  else s.goTo n xSTOPPING 3 t moved (fun s => s.recordCause n code) id

/-- A stop request (R183); during a loss reaction kind HOLD is taken as OFF (R218). -/
def State.takeStop (s : State) (n kind : Nat) (cmd : Option Nat) (t : FTime) (moved : Bool) : Taken :=
  let x := s.axState n
  let kind := if s.reacting n then max 2 kind else kind
  let yes := fun (s : State) => s.stopAck cmd true
  if x = xREADY ∨ x = xRUN then s.goTo n xSTOPPING kind t moved id yes
  else if x = xALIGN ∨ x = xTEST ∨ x = xCATCH then s.goTo n xARMED 0 t moved id yes
  else if x = xHOLD then
    if kind = 1 then tookNo (yes s) moved
    else if kind = 2 then s.goTo n xARMED 0 t moved id yes
    else s.goTo n xSTOPPING 3 t moved id yes
  else if x = xSTOPPING then tookNo (yes (s.raiseKind n kind)) moved
  else tookNo (if cmd.isSome then (s.axRefuse n).stopAck cmd false else s) moved

/-- Is a fault cause of R186 still active on an axis in FAULT (R187)?  The causes that the device can act on are left to `fclrActs`. -/
def State.activeCause (s : State) (n : Nat) : Option Nat :=
  let a := s.ax n
  let bus := match s.axBus n with
    | some b => (a.busStage != 0 && decide (a.busStage ≤ s.fget (rBUS_G_STAT b) fBUS_G_STAT_STAGE))
        || (s.flag (rBUS_G_STAT b) fBUS_G_STAT_BALFLT && s.wfld (rBUS_G_CFG b) fBUS_G_CFG_FACT != 0)
    | none => false
  let host := (List.range 32).any (fun q => s.flag (rHIF_SQ_STAT q) fHIF_SQ_STAT_SILENT && decide (3 ≤ s.fget (rHIF_SQ_WD q) fHIF_SQ_WD_REACT)
    && (s.rget (rHIF_SQ_WDAXM q (n / 32))).getLsbD (n % 32))
  if !s.axPresent n then some fcLINK
  else if !s.axLock n then some fcLOCK
  else if s.flag (rFBK_STAT n) fFBK_STAT_PLIM_NOW ∧ s.wflag (rFBK_CFG n) fFBK_CFG_PLIM_F ∧ !s.fbOwn n then some fcPOSLIM
  else if s.fbSrc n = 4 ∧ max 1 (s.wfld (rFBK_SSI n) fFBK_SSI_ERRN) ≤ a.ssiRun then some fcSSI
  else if bus then some fcBUS
  else if host then some fcHOST
  else if (s.ln (s.axLane n)).trapped then some fcLANE
  else none

/-- Has a rip loop been closed for 10 ms as the shell saw it? -/
def State.ripClosed10 (s : State) (t : Nat) : Bool :=
  (s.rget rANC_RIPCL).getLsbD t && reached s.now (tget 0 s.ancView.ripSince t + BitVec.ofNat 64 (10000 * usUnits))

/-- The clearing actions of R187 before an FCLR is decided: `none` while the answer to G_CLR.FORCE is awaited, else the state and the
cause found active. -/
def State.fclrActs (s : State) (n : Nat) : State × Option (Option Nat) :=
  let k := s.axGon n
  let d := s.gd k
  let vx := s.axType n == tyVX
  let c := s.axCh n
  let clr := tget none d.forceClr c
  if !vx ∧ (s.ax n).forced ∧ clr = none then
    (if d.cfg.any (fun r => r.write && r.addr == 0x048 && r.clr == 2 ^ c) then s else s.cfgWrite k 0x048 (BitVec.ofNat 32 (2 ^ c)), none)
  else
    let forced := !vx && (s.ax n).forced && clr == some false
    let s := if vx then s else s.updGd k (fun d => { d with forceClr := tset none d.forceClr c none })
    let s := if !vx ∧ d.silent then (s.updGd k (fun d => { d with silent := false })).cfgWrite k 0x048 (1 <<< 16) else s
    let noRip := !vx && !s.powered n
    let t := s.axTether n
    let s := if noRip ∧ t < 24 ∧ s.ripClosed10 t then s.cfgWrite k 0x048 (1 <<< 17) else s
    let rip := noRip && !(decide (t < 24) && s.ripClosed10 t)
    (s, some (if forced then some fcFORCED else if rip then some fcRIPLOSS else s.activeCause n))

/-- Where an accepted ENABLE leads (R183, R195, R309, R533); the state carries the reason of a refusal. -/
def State.enableTo (s : State) (n : Nat) : State × Option Nat :=
  let ty := s.axType n
  let s := if ty = tyTQ ∧ !s.tqConfigured n then s.raise (rTQ_STAT n) fTQ_STAT_CFGERR else s
  if ty ≠ tyVX ∧ s.axTether n = 24 ∧ (s.fget rSU_STAT fSU_STAT_CALFAIL).testBit (s.axCh n) then (s, none)
  else if (ty = tyTQ ∨ ty = tyST) ∧ s.axBus n = none then (s.raise rBUS_STAT fBUS_STAT_NOGRP, none)
  else if ty = tyTQ then
    if !s.tqConfigured n then (s, none)
    else if s.wflag (rAXC_CFG n) fAXC_CFG_CATCHEN then (s, some xCATCH)
    else if s.flag (rAXC_STATE n) fAXC_STATE_ANGVAL then (s, some xREADY)
    -- a Hall axis never aligns (R220): without a valid Hall state no transition of R183 applies (log entry 128)
    else if s.angSrc n = 1 then (s, none)
    else (s, some xALIGN)
  else if ty = tyST then (s, some xALIGN)
  else (s, some xREADY)

/-- A request (R183, R187). -/
def State.takeReq (s : State) (n : Nat) (r : Req) (cmd : Option Nat) (t : FTime) (moved : Bool) : Taken :=
  let x := s.axState n
  let yes := fun (s : State) => s.reqAck cmd true
  let no := fun (s : State) => tookNo ((s.axRefuse n).reqAck cmd false) moved
  match r with
  | .disable =>
    if x = xARMED then s.goTo n xOFF 0 t moved id yes
    else if x = xREADY ∨ x = xHOLD ∨ x = xALIGN ∨ x = xTEST ∨ x = xCATCH then s.goTo n xARMED 0 t moved id yes
    else if x = xRUN then s.goTo n xSTOPPING 2 t moved id yes
    else if x = xSTOPPING then tookNo (yes (s.raiseKind n 2)) moved
    else no s
  | .arm =>
    if x = xOFF ∧ s.inPlan n ∧ s.axPresent n ∧ s.axLock n then s.goTo n xARMED 0 t moved id yes else no s
  | .enable =>
    if x = xARMED ∧ !s.powered n ∧ s.axType n = tyTQ ∧ !s.tqConfigured n then no (s.raise (rTQ_STAT n) fTQ_STAT_CFGERR)
    else if x ≠ xARMED ∨ !s.powered n then no s
    else if moved then keepFor s moved
    else match s.enableTo n with
      | (s, some new) => s.goTo n new 0 t moved id yes
      | (s, none) => no s
  | .test =>
    if x = xARMED ∧ s.powered n ∧ s.axType n ≠ tyVX then s.goTo n xTEST 0 t moved id yes else no s
  | .fclr =>
    if x ≠ xFAULT then no s
    else if moved then keepFor s moved
    else match s.fclrActs n with
      | (s, none) => keepFor s moved
      | (s, some (some code)) => no (s.stateEvent n x x code t)
      | (s, some none) =>
        s.goTo n xARMED 0 t moved (fun s => (s.fset (rAXC_STATE n) fAXC_STATE_FCAUSE 0).updAx n (fun a => { a with busStage := 0 })) yes

/-- Does the present state take motion commands (R181, R183)? RESUME is not taken in RUN (R262). -/
def State.takesMotion (s : State) (n : Nat) (resume : Bool) : Bool :=
  let x := s.axState n
  x == xREADY || (x == xRUN && !resume) || (x == xHOLD && !s.anchorStop)

/-- The other members of a group that resumes go to RUN with it (R265). -/
def State.groupRun (s : State) (n : Nat) (op : MotionOp) : State :=
  match op with
  | .resume => if s.inGroup n then ((s.igroup n).filter (fun m => m != n)).foldl (fun s m => s.cause m (.done 5)) s else s
  | _ => s

/-- A motion command (R183, R184, R379). -/
def State.takeMotion (s : State) (n k : Nat) (t : FTime) (moved : Bool) : Taken :=
  match s.cmd k with
  | none => tookNo s moved
  | some c =>
    let x := s.axState n
    if !s.takesMotion n (c.op == .resume) then tookNo ((s.axRefuse n).finish k stSTATE 0) moved
    else if x ≠ xRUN ∧ moved then keepFor s moved
    else
      let r := s.motionNow n t c.op (fun m => s.axState m == xREADY || s.axState m == xHOLD)
      if r.2.1 = stOK then
        let s := (r.1.stWake n t).groupRun n c.op
        if x = xRUN then tookNo (s.finish k stOK r.2.2) moved
        else s.goTo n xRUN 0 t moved id (fun s => s.finish k stOK r.2.2)
      else tookNo ((if r.2.1 = stSTATE then r.1.axRefuse n else r.1).finish k r.2.1 r.2.2) moved

/-- A streamed point (R252, R258). -/
def State.takePoint (s : State) (n : Nat) (pt : FTime) (v : Val) (t : FTime) (moved : Bool) : Taken :=
  let x := s.axState n
  if !s.takesMotion n false then tookNo (s.axRefuse n) moved
  else if x = xRUN then tookNo (s.streamNow n t pt v) moved
  else s.goTo n xRUN 0 t moved id (fun s => s.streamNow n t pt v)

/-- An end named by R183. -/
def State.takeDone (s : State) (n what : Nat) (t : FTime) (moved : Bool) : Taken :=
  let x := s.axState n
  let kind := s.fget (rAXC_STATE n) fAXC_STATE_SKIND
  match what with
  | 1 => if x = xALIGN then s.goTo n xREADY 0 t moved id id else tookNo s moved
  | 2 => if x = xCATCH then s.goTo n (if (s.ax n).catchFrom = xRUN then xRUN else xREADY) 0 t moved id id else tookNo s moved
  | 3 => if x = xTEST then s.goTo n xARMED 0 t moved id id else tookNo s moved
  | 4 =>
    if x = xREADY ∨ x = xRUN then s.goTo n xCATCH 0 t moved id id
    else if x = xSTOPPING then s.goTo n (if kind = 3 then xFAULT else xARMED) 0 t moved (fun s => (s.endStop n t).setStage n lsNONE t) id
    else if x = xHOLD then s.goTo n xARMED 0 t moved id id
    else tookNo s moved
  | 5 => if x = xREADY ∨ x = xHOLD then s.goTo n xRUN 0 t moved id id else tookNo s moved
  | 7 =>
    if !s.inPlan n ∧ x ≠ xOFF ∧ atRestState x = true then
      s.goTo n xOFF 0 t moved id (fun s => s.fset (rAXC_STATE n) fAXC_STATE_FCAUSE 0)
    else tookNo s moved
  | _ =>
    if x = xSTOPPING ∧ !s.reacting n ∧ s.stopDone n t then
      s.goTo n (if kind = 1 then xHOLD else if kind = 2 then xARMED else xFAULT) 0 t moved (fun s => s.endStop n t) id
    else tookNo s moved

/-- Take one cause. -/
def State.take (s : State) (n : Nat) (c : Cause) (t : FTime) (moved : Bool) : Taken :=
  match c with
  | .fault code stop => s.takeFault n code stop t moved
  | .stop kind cmd => s.takeStop n kind cmd t moved
  | .req r cmd => s.takeReq n r cmd t moved
  | .motion k => s.takeMotion n k t moved
  | .point pt v => s.takePoint n pt v t moved
  | .done w => s.takeDone n w t moved

/-- The rank of a cause (R184); the ends of R183 stand after DISABLE. -/
def Cause.rank : Cause → Nat
  | .fault _ b => if b then 1 else 0
  | .stop k _ => 5 - min 3 k
  | .req .disable _ => 5
  | .done _ => 6
  | .req _ _ => 7
  | .motion _ => 8
  | .point _ _ => 8

/-- The causes of one rank. -/
def ofRank (l : List Cause) (r : Nat) : List Cause := l.filter (fun c => c.rank == r)

/-- The order of R184. -/
def inOrder (l : List Cause) : List Cause := (List.range 9).flatMap (ofRank l)

/-- Take causes in order; those that wait are kept for the next boundary. -/
def State.takeAll (s : State) (n : Nat) (t : FTime) : List Cause → Bool → List Cause → State × List Cause
  | [], _, w => (s, w)
  | c :: cs, moved, w =>
    let r := s.take n c t moved
    State.takeAll r.st n t cs r.moved (if r.wait then w ++ [c] else w)

/-! ### The boundary (R182, R184) -/

/-- Fault levels that hold at the boundary in a state that they concern (R186). -/
def State.levels (s : State) (n : Nat) : List Cause :=
  let x := s.axState n
  let e := energised x
  let a := e || x == xARMED
  if s.axType n = tyVX then []
  else
    (if e && !s.powered n then [Cause.fault fcRIPLOSS false] else [])
      ++ (if a && (s.ax n).forced then [Cause.fault fcFORCED false] else [])
      ++ (if a && !s.axPresent n then [Cause.fault fcLINK false] else [])
      ++ (if e && s.axPresent n && !s.axLock n then [Cause.fault fcLOCK (s.actStop n fAXC_FLT_ACT_LOCK)] else [])

/-- The code of a fault cause. -/
def Cause.code : Cause → Nat
  | .fault c _ => c
  | _ => 0

/-- A fault level arises while the tick runs: it takes its place among the causes of the tick (R184). -/
def State.noteLevels (s : State) (n : Nat) : State :=
  let new := (s.levels n).filter (fun c => !(s.ax n).lev.contains c.code)
  s.updAx n (fun a => { a with causes := a.causes ++ new, lev := (s.levels n).map Cause.code })

/-- The TICK event of the lane of a virtual axis: one at each tick start of a class (R166, R354). -/
def State.tickEvent (s : State) (n : Nat) (tb : FTime) : State :=
  let l := s.axLane n
  let c := s.axClass n
  if s.axType n ≠ tyVX ∨ !s.inPlan n ∨ tget none (s.ln l).tickRaised c = some tb then s
  else
    (s.updLn l (fun x => { x with tickRaised := tset none x.tickRaised c (some tb) })).raiseEvent l
      { tick := true, t := 0, pos := 0, cls := c, tk := tb, raised := s.now, subst := false, tickNo := BitVec.ofInt 8 (s.axTick n) }

/-- A change of stage that waits for the boundary (R217). -/
def State.stageDue (s : State) (n : Nat) (tb : FTime) : State :=
  let r := (s.ax n).react
  let s := s.updAx n (fun a => { a with react := 0 })
  if r ≠ 0 ∧ s.reacting n then s.setStage n r tb else s

/-- AXIS_TICK_BOUNDARY (R140, R182-R189): shifts, then causes, then the TICK event of a virtual axis; once in a tick of the axis. -/
def execAxisTickBoundary (n : Fin 256) (s : State) : Out :=
  let tb := s.axTickStart n
  if (s.ax n).bAt = some tb ∨ s.time.halted then .next s
  else
    let s := (((s.updAx n (fun a => { a with bAt := some tb })).applyShifts n tb).stageDue n tb).noteLevels n
    let s := s.fsetb (rAXC_STATE n) fAXC_STATE_NOPWR (!s.powered n)
    let cs := (s.ax n).causes ++ (if s.axState n = xSTOPPING then [.done 6] else [])
    let r := (s.updAx n (fun a => { a with causes := [] })).takeAll n tb (inOrder cs) false []
    let s := r.1.updAx n (fun a => { a with causes := r.2.filter (fun c => c != .done 6) ++ a.causes })
    .next (s.tickEvent n tb)

/-! ### Requests (R181, R190) -/

/-- What a write of AXC_An_CMD does. -/
def axcCmdWritten (n : Nat) (v : Word) (s : State) : State :=
  let one := fun (b : Bits) (r : Req) (s : State) => if bget v b = 1 then s.cause n (.req r none) else s
  one fAXC_CMD_FCLR .fclr (one fAXC_CMD_TEST .test (one fAXC_CMD_DISABLE .disable (one fAXC_CMD_ENABLE .enable (one fAXC_CMD_ARM .arm s))))

/-- A request by the register: it is resolved at the axis's next tick boundary. -/
def State.axcReq (s : State) (via : RegPath) (n : Nat) (b : Bits) : State :=
  s.portWrite via (rAXC_CMD n) (bset 0 b 1) (fun _ => axcCmdWritten n (bset 0 b 1))

/-- ARM, ENABLE, DISABLE, TEST, FCLR (R181, R183, R187). -/
def execArm (via : RegPath) (n : Fin 256) (s : State) : Out := .next (s.axcReq via n fAXC_CMD_ARM)
def execEnable (via : RegPath) (n : Fin 256) (s : State) : Out := .next (s.axcReq via n fAXC_CMD_ENABLE)
def execDisable (via : RegPath) (n : Fin 256) (s : State) : Out := .next (s.axcReq via n fAXC_CMD_DISABLE)
def execTest (via : RegPath) (n : Fin 256) (s : State) : Out := .next (s.axcReq via n fAXC_CMD_TEST)
def execFclr (via : RegPath) (n : Fin 256) (s : State) : Out := .next (s.axcReq via n fAXC_CMD_FCLR)

end Sys2Proof.Machine
end

