-- ==== Sys2Proof/Machine/Bus.lean ====
section
/-!
DEFINITION. The bus-energy manager (11_bus_energy, R307-R323): ballast, ballast faults and the escalation ladder. The registers of block
BUS hold what software sees; `State.bus` holds the rest.
-/
namespace Sys2Proof.Machine

open Sys2Proof

/-- Is the group in use (R307)? -/
def State.busOn (s : State) (b : Nat) : Bool := s.wflag (rBUS_G_CFG b) fBUS_G_CFG_EN

/-- The device's key of the gondola whose TICK_UP carries the group's VBUS (R308, R309). -/
def State.senseKey (s : State) (b : Nat) : Nat :=
  if b < 2 then gkey 24 b else s.gk (s.wfld (rBUS_G_CFG b) fBUS_G_CFG_STETH) (s.wfld (rBUS_G_CFG b) fBUS_G_CFG_SPOS)

/-- The axes that belong to the group. -/
def State.busMembers (s : State) (b : Nat) : List Nat := allAxes.filter (fun n => s.inPlan n && s.axBus n == some b)

/-- Does the map name group `b` for position g of tether t? -/
def State.mapsTo (s : State) (t g b : Nat) : Bool :=
  s.wflag (rBUS_GMAP t (g / 4)) (fBUS_GMAP_EN (g % 4)) && s.wfld (rBUS_GMAP t (g / 4)) (fBUS_GMAP_GROUP (g % 4)) == b

/-- The rip loops that serve a member gondola (R320). -/
def State.busLoops (s : State) (b : Nat) : BitVec 25 :=
  if b < 2 then maskOf [24] else maskOf ((List.range 24).filter (fun t => (List.range 64).any (fun g => s.mapsTo t g b)))

def State.vOn (s : State) (b : Nat) : Nat := s.wfld (rBUS_G_V0 b) fBUS_G_V0_VBALON
def State.vClamp (s : State) (b : Nat) : Nat := s.wfld (rBUS_G_V0 b) fBUS_G_V0_VCLAMP
def State.vAsc (s : State) (b : Nat) : Nat := s.wfld (rBUS_G_V1 b) fBUS_G_V1_VASC
def State.vTrip (s : State) (b : Nat) : Nat := s.wfld (rBUS_G_V1 b) fBUS_G_V1_VTRIP
def State.busHys (s : State) (b : Nat) : Nat := s.wfld (rBUS_G_BAL b) fBUS_G_BAL_HYS
def State.balConf (s : State) (b : Nat) : Nat := max 1 (s.wfld (rBUS_G_BAL b) fBUS_G_BAL_BAL_CONF)
def State.busStage (s : State) (b : Nat) : Nat := s.fget (rBUS_G_STAT b) fBUS_G_STAT_STAGE
def State.balFlt (s : State) (b : Nat) : Bool := s.flag (rBUS_G_STAT b) fBUS_G_STAT_BALFLT
def State.senseLost (s : State) (b : Nat) : Bool := s.flag (rBUS_G_STAT b) fBUS_G_STAT_SENSELOST

/-! ### What a commit may not hold (R308, R312, R314) -/

/-- The type of a channel that the sense gondola declares, if it has that channel. -/
def State.chanTypeAt (s : State) (k c : Nat) : Option Nat :=
  if idNCH (s.gd k).ident ≤ c then none else some (descTYPE (tget 0 (s.gd k).descs c))

/-- Do the identity block and the channel descriptors of a gondola let it enter a tick plan (R94)? -/
def State.gonGood (s : State) (k : Nat) : Bool :=
  let d := s.gd k
  identGood d.ident && descsGood (idNCH d.ident) (idNLEG d.ident) d.descs

/-- Does the ballast of the group break R314, or R94 by the gondola that it places in the tick plan? -/
def State.busBadBallast (s : State) (b : Nat) : Bool :=
  let ch := s.wfld (rBUS_G_CFG b) fBUS_G_CFG_BALCH
  ch != 15 && (if b < 2 then ch != 0 else s.chanTypeAt (s.senseKey b) ch != some 3 || !s.gonGood (s.senseKey b))

/-- Would the plan `p` admit the ballast channel of a group anew on a gondola that has not reported lock (R47)? -/
def ballastNoLock (s p : State) (b : Nat) : Bool :=
  decide (2 ≤ b) && s.busBal b != p.busBal b && (p.busBal b).isSome && !(p.gd (p.senseKey b)).lock

/-- Do the working copies break R308, R312 or R314 for a group? -/
def State.busBad (s : State) (b : Nat) : Bool :=
  let t := s.wfld (rBUS_G_CFG b) fBUS_G_CFG_STETH
  let g := s.wfld (rBUS_G_CFG b) fBUS_G_CFG_SPOS
  (s.busOn b &&
    (!decide (s.vOn b < s.vClamp b ∧ s.vClamp b < s.vAsc b ∧ s.vAsc b < s.vTrip b ∧ s.busHys b < s.vClamp b - s.vOn b)
      || (decide (2 ≤ b) && (decide (24 ≤ t) || !(idPORTS (s.gd (s.senseKey b)).ident).testBit 3 || !s.mapsTo t g b))
      || s.busBadBallast b))
  || (decide (b < 2) && (List.range 24).any (fun t => (List.range 64).any (fun g => s.mapsTo t g b)))

/-- A group taken out of use, or put in use: from the state at rest, with its counters kept (R307). -/
def State.busRestart (s : State) (b : Nat) : State :=
  let s := ([fBUS_G_STAT_STAGE, fBUS_G_STAT_BALFLT, fBUS_G_STAT_BFCAUSE, fBUS_G_STAT_SENSELOST] : List Bits).foldl
    (fun s f => s.fset (rBUS_G_STAT b) f 0) s
  (s.fset (rBUS_G_LIVE b) fBUS_G_LIVE_DUTY 0).setBg b {}

/-! ### Causes raised on members -/

/-- Cause BUS on an axis; `st` is the stage that raises it, 0 for a ballast fault (R316, R319, R320). -/
def State.busCause (s : State) (n st : Nat) (stop : Bool) : State :=
  if (s.ax n).causes.contains (.fault fcBUS stop) then s
  else
    let s := if st ≠ 0 ∧ s.axState n ≠ xFAULT then s.updAx n (fun a => { a with busStage := st }) else s
    s.faultCause n fcBUS stop

/-! ### Ballast (R313-R316) -/

/-- The ballast duty (R313), in 1/256. -/
def dutyOf (vb on clamp hys dmin prev : Nat) : Nat :=
  if clamp ≤ vb then 256
  else if on ≤ vb then dmin + (256 - dmin) * (vb - on) / (clamp - on)
  else if on ≤ vb + hys ∧ prev ≠ 0 then dmin
  else 0

/-- The ballast record of a duty (R314). -/
def State.balRec (s : State) (b ch d : Nat) : BitVec 128 :=
  let car := s.wfld (rBUS_G_BCFG b) fBUS_G_BCFG_CARRIER
  pwmRec ch (if car = 0 then 0 else 1) false (s.wflag (rBUS_G_BCFG b) fBUS_G_BCFG_CARRY) (s.wfld (rBUS_G_BPER b) fBUS_G_BPER_PERIOD)
    (min (d * 4096) 0xFFFFF) 0 0 0

/-- Commit the ballast record of the duty in force. -/
def State.balCommit (s : State) (b : Nat) : State :=
  match s.busBal b with
  | none => s
  | some kc => s.commitRec kc.1 kc.2 (s.balRec b kc.2 (s.bg b).duty)

/-- The cause of a ballast fault that now stands (R315). -/
def State.balCauseNow (s : State) (b : Nat) : Option Nat :=
  let g := s.bg b
  if s.busBal b = none then none
  else if s.balConf b ≤ g.nocur then some 1
  else if s.balConf b ≤ g.rise then some 2
  else if g.forced || (decide (b < 2) && s.balForced b) then some 3
  else none

/-- Declare a ballast fault (R315, R316): not while SENSELOST is set, and once until it is cleared. -/
def State.balDeclare (s : State) (b : Nat) : State :=
  match s.balCauseNow b with
  | none => s
  | some c =>
    if s.balFlt b ∨ s.senseLost b then s
    else
      let s := ((s.raise (rBUS_G_STAT b) fBUS_G_STAT_BALFLT).fset (rBUS_G_STAT b) fBUS_G_STAT_BFCAUSE c).count (rBUS_G_CNT b 0)
      let s := s.produce (some (s.fget rBUS_CTL fBUS_CTL_CQ)) (eventEntry 0x11 b c s.now)
      let fact := s.wfld (rBUS_G_CFG b) fBUS_G_CFG_FACT
      if fact = 0 then s else (s.busMembers b).foldl (fun s n => s.busCause n 0 (fact == 1)) s

/-- Clear the ballast-fault latch; both counts restart (R316). -/
def State.balClear (s : State) (b : Nat) : State :=
  ((s.fset (rBUS_G_STAT b) fBUS_G_STAT_BALFLT 0).fset (rBUS_G_STAT b) fBUS_G_STAT_BFCAUSE 0).updBg b
    (fun g => { g with nocur := 0, rise := 0, forced := false, clrWait := false })

/-- A refused FCLR. -/
def State.balClrRef (s : State) (b : Nat) : State :=
  (s.raise (rBUS_G_STAT b) fBUS_G_STAT_CLRREF).updBg b (fun g => { g with clrWait := false })

/-- The answer to the G_CLR.FORCE that an FCLR sent (R316), taken at the next evaluation. -/
def State.balClrAnswer (s : State) (b : Nat) : State :=
  match s.busBal b with
  | none => s
  | some kc =>
    if !(s.bg b).clrWait then s
    else match tget none (s.gd kc.1).forceClr kc.2 with
      | none => s
      | some ok =>
        let s := s.updGd kc.1 (fun d => { d with forceClr := tset none d.forceClr kc.2 none })
        if ok then s.balClear b else s.balClrRef b

/-- The effect of a write of BUS_Gb_CMD (R316). -/
def busCmdWritten (b : Nat) (v : Word) (s : State) : State :=
  if bget v fBUS_G_CMD_FCLR = 0 ∨ !s.balFlt b then s
  else if s.fget (rBUS_G_STAT b) fBUS_G_STAT_BFCAUSE = 3 then
    match s.busBal b with
    | none => s.balClear b
    | some kc =>
      if (s.bg b).clrWait then s
      else ((s.updBg b (fun g => { g with clrWait := true })).updGd kc.1 (fun d => { d with forceClr := tset none d.forceClr kc.2 none })).cfgWrite kc.1 0x048
        (BitVec.ofNat 32 (2 ^ kc.2))
  else if s.vOn b ≤ s.fget (rBUS_G_LIVE b) fBUS_G_LIVE_VBUS then s.balClrRef b
  else s.balClear b

/-- BUS_FCLR (R316). -/
def execBusFclr (via : RegPath) (b : Fin 32) (s : State) : Out :=
  .next (s.portWrite via (rBUS_G_CMD b) 1 (fun _ => busCmdWritten b 1))

/-- BALLAST_FAULT (R315, R316): an evaluation declares a fault in the same way. -/
def execBallastFault (b : Fin 32) (s : State) : Out := .next (if s.busOn b then s.balDeclare b else s)

/-- ballast_check (R315): the counts, from the duty in force at the sample, and the declaration. -/
def State.balCheck (s : State) (b vb d0 : Nat) : State :=
  let g := s.bg b
  let imin : Int := s.wfld (rBUS_G_BCFG b) fBUS_G_BCFG_IMIN * 2048
  let nocur := match g.lastRec with
    | none => g.nocur
    | some r => if 128 ≤ d0 ∧ (recIA r).toInt < imin then g.nocur + 1 else 0
  let rise := match g.vbPrev with
    | some p => if d0 = 256 ∧ p < vb then g.rise + 1 else 0
    | none => 0
  let forced := match g.lastRec with
    | none => g.forced
    | some r => recFORCED r
  (s.setBg b { g with nocur := nocur, rise := rise, forced := forced, lastRec := none }).balDeclare b

/-! ### The ladder (R317-R320) -/

/-- The stage that the voltage, BALFLT and SENSELOST ask for. -/
def State.stageAsked (s : State) (b vb : Nat) : Nat :=
  if s.vTrip b ≤ vb then 3 else if s.vAsc b ≤ vb then 2
  else if s.vClamp b ≤ vb ∨ s.balFlt b ∨ s.senseLost b then 1 else 0

/-- Is every rip that the stage opened closed again (R317)? -/
def State.ripsBack (s : State) (b : Nat) : Bool :=
  let g := s.bg b
  !g.reqWait && (inMask g.reqLoops).all (s.rget rANC_RIPCL).getLsbD

/-- May the group leave its stage for the one below (R317)? -/
def State.stageLeft (s : State) (b vb st : Nat) : Bool :=
  let below := fun v => decide (vb + s.busHys b < v)
  match st with
  | 1 => below (s.vClamp b) && !s.balFlt b && !s.senseLost b
  | 2 => below (s.vAsc b)
  | 3 => below (s.vTrip b) && s.ripsBack b
  | _ => false

/-- stage_update (R317): several stages up, or one down. -/
def State.stageNext (s : State) (b vb st : Nat) : Nat :=
  if st < s.stageAsked b vb then s.stageAsked b vb else if s.stageLeft b vb st then st - 1 else st

/-- The back-EMF test of stage 2 on a member (R319). -/
def State.stageAscAxis (s : State) (n : Nat) : State :=
  let x := s.axState n
  if s.axType n = tyTQ ∧ (x = xARMED ∨ energised x) then
    if s.emfAbove n (s.omegaNow n) 256 then s.busCause n 2 false else s
  else s

/-- Entry into stage 3 (R320): the request to the anchor, and cause BUS on every member. -/
def State.stageTrip (s : State) (b : Nat) : State :=
  let m := s.busLoops b
  let closed := maskOf ((inMask m).filter (s.rget rANC_RIPCL).getLsbD)
  let s := (s.updBg b (fun g => { g with reqLoops := closed, reqWait := true })).sendStopreq (.bus m)
  ((s.busMembers b).foldl (fun s n => s.busCause n 3 false) s).flogTrigger 5 0

/-- The group takes a stage: counts, the event, and the actions of the stages entered (R317). -/
def State.toStage (s : State) (b st new vb : Nat) : State :=
  if new = st then s
  else
    let s := s.fset (rBUS_G_STAT b) fBUS_G_STAT_STAGE new
    let s := ((List.range 4).filter (fun k => decide (st < k ∧ k ≤ new))).foldl (fun s k => s.count (rBUS_G_CNT b k)) s
    let s := if new = 3 then s.stageTrip b else s
    s.produce (some (s.fget rBUS_CTL fBUS_CTL_CQ)) (eventEntry 0x12 b (st + new * 256 + vb * 65536) s.now)

/-- One evaluation of a group (R310-R319). -/
def State.busEval (s : State) (b vb : Nat) : State :=
  let cal := decide (b < 2) && s.su.calRun
  let vb := if cal then s.fget (rBUS_G_LIVE b) fBUS_G_LIVE_VBUS else vb
  let s := s.balClrAnswer b
  let s := if s.senseLost b then
      let s := s.updBg b (fun g => { g with okEvals := g.okEvals + 1 })
      if 2 ≤ (s.bg b).okEvals then s.fset (rBUS_G_STAT b) fBUS_G_STAT_SENSELOST 0 else s
    else s
  let st := s.busStage b
  let d0 := (s.bg b).duty
  let s := s.fset (rBUS_G_LIVE b) fBUS_G_LIVE_VBUS vb
  let s := if s.busBal b = none then s
    else
      let d := if st = 3 then 256 else dutyOf vb (s.vOn b) (s.vClamp b) (s.busHys b) (max 1 (s.wfld (rBUS_G_BAL b) fBUS_G_BAL_DMIN)) d0
      let s := ((s.updBg b (fun g => { g with duty := d })).fset (rBUS_G_LIVE b) fBUS_G_LIVE_DUTY d).balCommit b
      if cal then s.updBg b (fun g => { g with lastRec := none }) else s.balCheck b vb d0
  let s := s.updBg b (fun g => { g with vbPrev := some vb })
  let new := s.stageNext b vb st
  let s := s.toStage b st new vb
  if 2 ≤ new then (s.busMembers b).foldl State.stageAscAxis s else s

/-- The groups that a TICK_UP of a gondola evaluates, after its ballast records have been handed to their groups (R310, R315). -/
def State.busTick (s : State) (k vb : Nat) (recs : List (BitVec 128)) : State :=
  let s := (idx 32 s.busOn).foldl (fun s b =>
    match s.busBal b with
    | some kc => if kc.1 = k then
        match recs.find? (fun r => recCH r == kc.2) with
        | some r => s.updBg b (fun g => { g with lastRec := some r })
        | none => s
      else s
    | none => s) s
  (idx 32 s.busOn).foldl (fun s b => if s.senseKey b = k then s.busEval b vb else s) s

/-- The sense gondola is lost (R311): at least stage 1 at once. -/
def State.busSenseLost (s : State) (k : Nat) : State :=
  (idx 32 s.busOn).foldl (fun s b =>
    if s.senseKey b = k then
      let s := (s.raise (rBUS_G_STAT b) fBUS_G_STAT_SENSELOST).updBg b (fun g => { g with okEvals := 0 })
      s.toStage b (s.busStage b) (max 1 (s.busStage b)) (s.fget (rBUS_G_LIVE b) fBUS_G_LIVE_VBUS)
    else s) s

end Sys2Proof.Machine
end

