-- ==== Sys2Proof/Machine/Flags.lean ====
section
/-!
DEFINITION. A register bank of a lane, the arithmetic slot and its flags (12_loop_engine, R326, R338, R341-R343, R351).
-/
namespace Sys2Proof.Machine

open Sys2Proof

/-! ### Registers (R326, R337, R351) -/

/-- The physical register that logical dX names (R351). -/
def physD (rot : BitVec 3) (x : Nat) : Nat := if x < 8 then x else 8 + (x - 8 + 8 - rot.toNat) % 8

def LBank.dAt (b : LBank) (x : Nat) : BitVec 24 := tget 0 b.d (physD b.rot x)
def LBank.aAt (b : LBank) (k : Nat) : BitVec 56 := tget 0 b.a k
def LBank.pAt (b : LBank) (k : Nat) : BitVec 24 := tget 0 b.p k
def LBank.mAt (b : LBank) (k : Nat) : BitVec 24 := tget 0 b.m k
def LBank.qAt (b : LBank) (k : Nat) : BitVec 24 := tget 0 b.q k

/-- Write a physical register: 0-15 d, 16-19 a, 24-31 p, 32-39 m, 40-47 q. -/
def LBank.putPhys (b : LBank) (k : Nat) (v : BitVec 56) : LBank :=
  if k < 16 then { b with d := tset 0 b.d k (v.setWidth 24) }
  else if k < 20 then { b with a := tset 0 b.a (k - 16) v }
  else if k < 24 then b
  else if k < 32 then { b with p := tset 0 b.p (k - 24) (v.setWidth 24) }
  else if k < 40 then { b with m := tset 0 b.m (k - 32) (v.setWidth 24) }
  else if k < 48 then { b with q := tset 0 b.q (k - 40) (v.setWidth 24) }
  else b

def LBank.putA (b : LBank) (k : Nat) (v : BitVec 56) : LBank := { b with a := tset 0 b.a k v }
def LBank.putD (b : LBank) (rot : BitVec 3) (x : Nat) (v : BitVec 24) : LBank := { b with d := tset 0 b.d (physD rot x) v }
def LBank.putP (b : LBank) (k : Nat) (v : BitVec 24) : LBank := { b with p := tset 0 b.p k v }

/-- Limited to a width, and whether that limited it (R338). -/
def sat (w : Nat) (x : Int) : Int × Bool := (satInt w x, satInt w x != x)

/-! ### The arithmetic slot (R338) -/

/-- What the slot writes: an accumulator, a data register, or nothing. -/
inductive AWrite where
  | none
  | acc (k : Nat) (v : Int)
  | data (x : Nat) (v : Int)
deriving DecidableEq, Repr

/-- A result of the slot: what it writes, the value Z and N are taken from, and whether it was limited. -/
structure ARes where
  wr : AWrite
  fl : Option Int
  lim : Bool
deriving DecidableEq, Repr

/-- An accumulator result, limited to 56 bits. -/
def accRes (k : Nat) (x : Int) : ARes := ⟨.acc k (sat 56 x).1, some (sat 56 x).1, (sat 56 x).2⟩

/-- A data result, limited to 24 bits. -/
def satRes (k : Nat) (x : Int) : ARes := ⟨.data k (sat 24 x).1, some (sat 24 x).1, (sat 24 x).2⟩

/-- A data result modulo 2^24. -/
def wrapRes (k : Nat) (x : Int) : ARes := ⟨.data k (BitVec.ofInt 24 x).toInt, some (BitVec.ofInt 24 x).toInt, false⟩

/-- A comparison. -/
def cmpRes (x : Int) : ARes := ⟨.none, some x, false⟩

/-- A data result given as bits. -/
def bitRes (k : Nat) (v : BitVec 24) : ARes := wrapRes k v.toInt

def shl24 (x : BitVec 24) (n : Nat) : BitVec 24 := if 23 < n then 0 else x <<< n
def shr24 (x : BitVec 24) (n : Nat) : BitVec 24 := x >>> n
def sra24 (x : BitVec 24) (n : Nat) : BitVec 24 := x.sshiftRight n

/-- The shift count of a data register or an immediate: its low five bits. -/
def cnt5 {w : Nat} (v : BitVec w) : Nat := v.toNat % 32

/-- The operation of the arithmetic slot on the bank as the instruction finds it (R338, R346). -/
def LBank.alu (b : LBank) : ArithOp → ARes
  | .nop => ⟨.none, none, false⟩
  | .mpy ad x y => accRes ad ((b.dAt x).toInt * (b.dAt y).toInt)
  | .mac ad x y => accRes ad ((b.aAt ad).toInt + (b.dAt x).toInt * (b.dAt y).toInt)
  | .msu ad x y => accRes ad ((b.aAt ad).toInt - (b.dAt x).toInt * (b.dAt y).toInt)
  | .aclr ad => accRes ad 0
  | .ald ad x => accRes ad ((b.dAt x).toInt * 2 ^ 23)
  | .aadd ad as_ => accRes ad ((b.aAt ad).toInt + (b.aAt as_).toInt)
  | .asub ad as_ => accRes ad ((b.aAt ad).toInt - (b.aAt as_).toInt)
  | .amov ad as_ => accRes ad (b.aAt as_).toInt
  | .aneg ad as_ => accRes ad (-(b.aAt as_).toInt)
  | .aabs ad as_ => accRes ad (b.aAt as_).toInt.natAbs
  | .acmp ad as_ => cmpRes ((b.aAt ad).toInt - (b.aAt as_).toInt)
  | .add dd x y => wrapRes dd ((b.dAt x).toInt + (b.dAt y).toInt)
  | .adds dd x y => satRes dd ((b.dAt x).toInt + (b.dAt y).toInt)
  | .sub dd x y => wrapRes dd ((b.dAt x).toInt - (b.dAt y).toInt)
  | .subs dd x y => satRes dd ((b.dAt x).toInt - (b.dAt y).toInt)
  | .and dd x y => bitRes dd (b.dAt x &&& b.dAt y)
  | .or dd x y => bitRes dd (b.dAt x ||| b.dAt y)
  | .xor dd x y => bitRes dd (b.dAt x ^^^ b.dAt y)
  | .min dd x y => satRes dd (min (b.dAt x).toInt (b.dAt y).toInt)
  | .max dd x y => satRes dd (max (b.dAt x).toInt (b.dAt y).toInt)
  | .shl dd x y => bitRes dd (shl24 (b.dAt x) (cnt5 (b.dAt y)))
  | .shr dd x y => bitRes dd (shr24 (b.dAt x) (cnt5 (b.dAt y)))
  | .sra dd x y => bitRes dd (sra24 (b.dAt x) (cnt5 (b.dAt y)))
  | .cmp x y => cmpRes ((b.dAt x).toInt - (b.dAt y).toInt)
  | .neg dd x => satRes dd (-(b.dAt x).toInt)
  | .abs dd x => satRes dd (b.dAt x).toInt.natAbs
  | .addi dd x imm => wrapRes dd ((b.dAt x).toInt + imm.toInt)
  | .addis dd x imm => satRes dd ((b.dAt x).toInt + imm.toInt)
  | .andi dd x imm => bitRes dd (b.dAt x &&& imm.signExtend 24)
  | .shli dd x imm => bitRes dd (shl24 (b.dAt x) (cnt5 imm))
  | .shri dd x imm => bitRes dd (shr24 (b.dAt x) (cnt5 imm))
  | .srai dd x imm => bitRes dd (sra24 (b.dAt x) (cnt5 imm))
  | .cmpi x imm => cmpRes ((b.dAt x).toInt - imm.toInt)

/-! ### Flags (R341): bit 0 Z, 1 N, 2 V, 3 SV -/

def LBank.fZ (b : LBank) : Bool := b.flg.getLsbD 0
def LBank.fN (b : LBank) : Bool := b.flg.getLsbD 1
def LBank.fV (b : LBank) : Bool := b.flg.getLsbD 2
def LBank.fSV (b : LBank) : Bool := b.flg.getLsbD 3

/-- FLG of four flags. -/
def flgOf (z n v sv : Bool) : BitVec 4 :=
  BitVec.ofNat 4 ((if z then 1 else 0) + (if n then 2 else 0) + (if v then 4 else 0) + (if sv then 8 else 0))

/-- Z and N from a value. -/
def LBank.setZN (b : LBank) (x : Int) : LBank := { b with flg := flgOf (x == 0) (decide (x < 0)) b.fV b.fSV }

/-- V as given, SV sticky. -/
def LBank.setV (b : LBank) (v : Bool) : LBank := { b with flg := flgOf b.fZ b.fN v (b.fSV || v) }

/-- A limiting by a load: V and SV set, never cleared (R339, R342). -/
def LBank.limited (b : LBank) (v : Bool) : LBank := if v then b.setV true else b

/-- Write the slot's result (R338). -/
def LBank.write (b : LBank) (rot : BitVec 3) : AWrite → LBank
  | .none => b
  | .acc k v => b.putA k (BitVec.ofInt 56 v)
  | .data x v => b.putD rot x (BitVec.ofInt 24 v)

/-- The arithmetic slot as a whole: result and flags. -/
def LBank.arith (b : LBank) (op : ArithOp) : LBank :=
  let r := b.alu op
  match r.fl with
  | none => b
  | some x => ((b.write b.rot r.wr).setZN x).setV r.lim

/-- Does COND hold (R340)? -/
def LBank.cond (b : LBank) (c : BitVec 4) : Bool :=
  match c.toNat with
  | 0 => true
  | 1 => b.fZ
  | 2 => !b.fZ
  | 3 => b.fN
  | 4 => !b.fN
  | 5 => !b.fZ && !b.fN
  | 6 => b.fZ || b.fN
  | 7 => b.fV
  | 8 => !b.fV
  | _ => false

/-- The automatic scaler (R343): floor(A × 2^(SCL − 23) + 1/2), limited to 24 bits. -/
def scaler (scl : BitVec 5) (a : BitVec 56) : Int × Bool := sat 24 ((a.toInt * 2 ^ (scl.toInt + 8).toNat + 2 ^ 30) / 2 ^ 31)

/-- A value limited to −8 to +8, as SCL takes it (R339). -/
def sclOf (x : Int) : BitVec 5 := BitVec.ofInt 5 (max (-8) (min 8 x))

end Sys2Proof.Machine
end

