-- ==== Sys2Proof/Machine/Lane.lean ====
section
/-!
DEFINITION. The lanes (12_loop_engine, R326-R363): event sources and work items, lane memory, the move slot, and the issue of one
instruction. Each row of the instruction set is one issue on a lane; the row gives the instruction that the lane's program holds.
-/
namespace Sys2Proof.Machine

open Sys2Proof

/-! ### Event sources (R354, R360) -/

/-- One entry of a lane's plan table. -/
structure LSource where
  tick : Bool
  t : Nat
  pos : Nat
  cls : Nat
  axes : List Nat
deriving DecidableEq, Repr

/-- The axes that a source serves. -/
def State.srcAxes (s : State) (l t pos : Nat) : List Nat :=
  (s.laneAxes l).filter (fun n => s.axType n != tyVX && s.axTether n == t && s.axPos n == pos)

/-- The sources of a lane: gondolas by tether and position, then the classes of its virtual axes (the order is the model's). -/
def State.laneSources (s : State) (l : Nat) : List LSource :=
  let frames := ((s.laneAxes l).filter (fun n => s.axType n != tyVX)).map (fun n => 64 * s.axTether n + s.axPos n)
  let vx := ((s.laneAxes l).filter (fun n => s.axType n == tyVX)).map s.axClass
  ((List.range (25 * 64)).filter frames.contains).map (fun k =>
      ⟨false, k / 64, k % 64, (s.tetherClass (k / 64)).getD 0, s.srcAxes l (k / 64) (k % 64)⟩)
    ++ ((List.range 4).filter vx.contains).map (fun c =>
      ⟨true, 0, 0, c, (s.laneAxes l).filter (fun n => s.axType n == tyVX && s.axClass n == c)⟩)

/-- The plan-table index of an event (R360). -/
def State.srcIndex (s : State) (l : Nat) (e : LEvent) : Nat :=
  (s.laneSources l).findIdx (fun x => x.tick == e.tick && (if e.tick then x.cls == e.cls else x.t == e.t && x.pos == e.pos))

/-- Does a tick of the axis's class start at an instant? -/
def State.dueAt (s : State) (n : Nat) (tk : FTime) : Bool := tdiff tk (s.tickOrigin n) % (s.axPeriod n : Int) == 0

/-- The axes whose laws a work item runs: those of the event that are due at its tick (R166). -/
def State.evAxes (s : State) (l : Nat) (e : LEvent) : List Nat :=
  if e.tick then (s.laneAxes l).filter (fun n => s.axType n == tyVX && s.axClass n == e.cls)
  else (s.srcAxes l e.t e.pos).filter (fun n => s.dueAt n e.tk)

/-! ### The inbox (R359) -/

/-- The FLAGS word of an inbox slot. -/
def State.inboxFlags (s : State) (n : Nat) (missed : Bool) : Nat :=
  let a := s.ax n
  let b := fun (x : Bool) (k : Nat) => if x then 2 ^ k else 0
  let tb := s.axTickStart n
  b a.fresh 0 + b (recS1OK a.raw) 1 + b (recS2OK a.raw) 2 + b (a.shifts.head?.any (fun x => x.1 == tb)) 3
    + b (s.flag (rFBK_STAT n) fFBK_STAT_REFD) 4 + b (s.flag (rFBK_STAT n) fFBK_STAT_STILL) 5 + b (s.flag (rFBK_STAT n) fFBK_STAT_PLIM_NOW) 6
    + b missed 7 + b (recFORCED a.raw) 8 + s.axState n * 2 ^ 12 + s.fget (rAXC_STATE n) fAXC_STATE_SKIND * 2 ^ 16
    + b (s.flag (rAXC_STATE n) fAXC_STATE_STOPSRC) 18 + b (s.flag (rAXC_STATE n) fAXC_STATE_ANGVAL) 19
    + (s.axTick n % 256).toNat * 2 ^ 24

/-- Is the regenerative clamp in force on an axis (R318)? -/
def State.clamped (s : State) (n : Nat) : Bool :=
  match s.axBus n with
  | some b => s.busStage b != 0
  | none => false

/-- Write the inbox slot of an axis into its lane's memory. -/
def State.inboxWrite (s : State) (n : Nat) (missed : Bool) : State :=
  let a := s.ax n
  let vx := s.axType n == tyVX
  let bytes := leBytes 16 (if vx then 0 else a.raw.toNat) ++ leBytes 8 (if vx then a.gen.pset else s.actPos n).toNat
    ++ leBytes 8 (s.actSpd n).toNat ++ leBytes 8 a.ts.toNat ++ leBytes 8 a.spdMid.toNat ++ leBytes 4 (s.inboxFlags n missed)
    ++ leBytes 4 (s.axVbus n + (if s.clamped n then 65536 else 0)) ++ leBytes 4 (min 0xFFFFFFFF a.dhat) ++ leBytes 4 0
  s.updLn (s.axLane n) (fun x => { x with mem := memWrite x.mem (64 * n) bytes })

/-! ### Work items (R355, R363) -/

/-- Does the lane execute (R371)? -/
def State.laneRuns (s : State) (l : Nat) : Bool := s.flag (rLPE_L_STAT l) fLPE_L_STAT_RUN && !(s.ln l).trapped && !s.time.halted

/-- May background code be interrupted here (R356)? -/
def Lane.atBoundary (x : Lane) : Bool := x.pend.isEmpty && x.slots.isNone && !x.bg.latch && x.bg.rpt == 0

/-- The foreground bank at the entry of a work item (R327). -/
def LBank.entered (b : LBank) (evi pc : Nat) : LBank :=
  { b with scl := 0, flg := 0, rot := 0, iter := 0, rpt := 0, latch := false, evi := BitVec.ofNat 8 evi, pc := BitVec.ofNat 12 pc }

/-- Begin the work item of the first event (R355, R361); a TICK event's slots are written (R359). -/
def State.enterWork (s : State) (l : Nat) : State :=
  match (s.ln l).evq with
  | [] => s
  | e :: rest =>
    let i := s.srcIndex l e
    let bank := s.flag (rLPE_L_STAT l) fLPE_L_STAT_PBANK
    let s := s.updLn l (fun x => { x with evq := rest, work := some e, outs := [], wbank := bank,
                                          fg := x.fg.entered i (if e.tick then x.etick else x.eframe).toNat })
    let s := (s.raise (rLPE_L_STAT l) fLPE_L_STAT_BUSY).evqShow l
    if e.tick then (s.evAxes l e).foldl (fun s n => s.inboxWrite n false) s else s

/-- Core cycles since an instant. -/
def State.cyclesSince (s : State) (t : FTime) : Nat := (tdiff s.now t).toNat / 40

/-- The record that the state of an axis forces on its output, whatever the law commits (R181, R185, R217, R363). -/
def State.forcedRec (s : State) (n : Nat) : Option (BitVec 128) :=
  let x := s.axState n
  let ch := s.axCh n
  if x = xOFF ∨ x = xARMED then some (offRec ch)
  else if x = xFAULT then some (if s.axType n = tyTQ ∧ s.lstage n = lsSHORT then shortRec ch else offRec ch)
  else if s.axType n = tyTQ ∧ s.lstage n = lsSHORT then some (shortRec ch)
  else if s.axType n = tyTQ ∧ s.lstage n = lsOFF then some (offRec ch)
  else none

/-- A record with the channel of its axis. -/
def withCh (r : BitVec 128) (ch : Nat) : BitVec 128 := BitVec.ofNat 128 (r.toNat / 16 * 16 + ch % 16)

/-- An output is discarded (R362). -/
def State.outDrop (s : State) (l : Nat) : State := (s.raise (rLPE_L_STAT l) fLPE_L_STAT_OUTDROP).count (rLPE_L_CNT l 1)

/-- OUT (R362, R363, R287): the record of axis `n` enters the assembler of its gondola. -/
def State.outCommit (s : State) (l n : Nat) (r : BitVec 128) : State :=
  if !s.inPlan n ∨ s.axLane n ≠ l ∨ s.axType n = tyVX ∨ !(s.gd (s.axGon n)).collecting then s.outDrop l
  else
    let tb := s.axTickStart n
    let s := s.updLn l (fun x => { x with outs := n :: x.outs })
    let s := s.commitRec (s.axGon n) (s.axCh n) (withCh ((s.forcedRec n).getD r) (s.axCh n))
    s.cmpEval n 1 tb (s.spAt n tb).1

/-- The END of a work item (R341, R363, R370, R361). -/
def State.endWork (s : State) (l : Nat) : State :=
  match (s.ln l).work with
  | none => s
  | some e =>
    let s := if (s.ln l).fg.fSV then s.count (rLPE_L_CNT l 2) else s
    let s := if e.tick then s
      else ((s.evAxes l e).filter (fun n => !(s.ln l).outs.contains n)).foldl (fun s n =>
        ((s.raise (rLPE_L_STAT l) fLPE_L_STAT_OUTMISS).count (rLPE_L_CNT l 0)).commitRec (s.axGon n) (s.axCh n) (offRec (s.axCh n))) s
    let span := min 0xFFFFFF (s.cyclesSince e.raised)
    let s := if s.fget (rLPE_L_SPAN l) fLPE_L_SPAN_SPAN < span then s.fset (rLPE_L_SPAN l) fLPE_L_SPAN_SPAN span else s
    let s := (s.fset (rLPE_L_STAT l) fLPE_L_STAT_BUSY 0).fset (rLPE_L_STAT l) fLPE_L_STAT_BANKBUSY 0
    s.updLn l (fun x => { x with work := none, outs := [] })

/-! ### Lane memory (R328, R329, R331, R360) -/

/-- The event block of a work item (R331), with field time as it stands. -/
def State.eventBlock (s : State) (l : Nat) : List Byte :=
  match (s.ln l).work with
  | none => leBytes 64 0
  | some e =>
    leBytes 8 e.raised.toNat ++ leBytes 8 s.now.toNat ++ leBytes 8 e.tk.toNat
      ++ leBytes 4 ((if e.tick then 2 else 1) + e.cls * 4 + (if e.subst then 16 else 0) + (s.ln l).fg.evi.toNat * 256 + e.tickNo.toNat * 65536)
      ++ leBytes 36 0

/-- The bank that a lane reads: that of its work item, else the bank in force (R361). -/
def State.laneBank (s : State) (l : Nat) : Tbl Byte :=
  let x := s.ln l
  if (if x.work.isSome then x.wbank else s.flag (rLPE_L_STAT l) fLPE_L_STAT_PBANK) then x.bank1 else x.bank0

/-- Bytes of the local space. -/
def State.localBytes (s : State) (l a k : Nat) : List Byte :=
  if 0x8000 ≤ a ∧ a < 0x8040 then ((s.eventBlock l).drop (a - 0x8000)).take k
  else if 0x4000 ≤ a ∧ a < 0x8000 then memRead (s.laneBank l) a k
  else memRead (s.ln l).mem a k

/-- A read of the local space of `k` bytes: the value, or a trap for a double-bit error; a single-bit error is corrected and counted
(R329). -/
def State.localRead (s : State) (l a k : Nat) : State × Option Nat :=
  match (s.ln l).upsets.find? (fun u => u.1 == a / 8) with
  | none => (s, some (leNat (s.localBytes l a k)))
  | some u =>
    if u.2 then (s, none)
    else
      let s := (s.updLn l (fun x => { x with upsets := x.upsets.filter (fun v => v.1 != a / 8) })).count (rLPE_L_CNT l 3)
      (s, some (leNat (s.localBytes l a k)))

/-- A store to the local space: the event block ignores it (R328). -/
def State.localWrite (s : State) (l a : Nat) (bs : List Byte) : State :=
  if 0x8000 ≤ a ∧ a < 0x8040 then s
  else s.updLn l (fun x =>
    let x := { x with upsets := x.upsets.filter (fun v => v.1 != a / 8) }
    if 0x4000 ≤ a ∧ a < 0x8000 then
      (if x.wbank then { x with bank1 := memWrite x.bank1 a bs } else { x with bank0 := memWrite x.bank0 a bs })
    else { x with mem := memWrite x.mem a bs })

/-! ### Shared SRAM (R26, R29, R332, R364, R365) -/

/-- Size of an axis record with its padding (R29). -/
def recStride : Nat := 2112

/-- End of shared SRAM (R28). -/
def sramEnd : Nat := 0xA00000

/-- Where the compare table begins and ends (R28). -/
def cmpBase : Nat := 0x84000
def cmpEnd : Nat := 0x104000

/-- Does an address lie where the device keeps what the spec gives no layout for: its own parts of an axis record (R364), and the regions from
the latch queues to the flight-log staging (R28)? -/
def deviceKept (a : Nat) : Bool :=
  (decide (a < 256 * recStride) && (decide (a % recStride < 0x100) || (decide (0x480 ≤ a % recStride) && decide (a % recStride < 0x500))))
    || (decide (0x304000 ≤ a) && decide (a < 0x910000))

/-- What shared SRAM holds at an address (R28): a compare entry as stored (R283, R306), a byte memory, or a free value. -/
def State.sharedWord (s : State) (a k : Nat) : State × Nat :=
  if deviceKept a then (s.drew 1, (s.free 0).toNat % 2 ^ (8 * k))
  else if cmpBase ≤ a ∧ a < cmpEnd then (s, (s.ce ((a - cmpBase) / 32)).raw.toNat / 2 ^ (8 * (a % 32)) % 2 ^ (8 * k))
  else (s, leNat (memRead s.sram a k))

/-- A double-bit error of shared SRAM is counted and shown (R26). -/
def State.sramUe (s : State) : State := (s.count rGLB_SRAM_UE).raise rGLB_STAT fGLB_STAT_SRAMUE

/-- The word of shared SRAM at an address is read (R26): a single-bit error is corrected and counted, a double-bit error counted; does the
data come without an error flag? -/
def State.sramCheck (s : State) (a : Nat) : State × Bool :=
  match s.sramUpsets.find? (fun u => u.1 == a / 8) with
  | none => (s, true)
  | some u =>
    if u.2 then (s.sramUe, false)
    else (({ s with sramUpsets := s.sramUpsets.filter (fun v => v.1 != a / 8) } : State).count (rGLB_SRAM_CE (a / 64 % 32)), true)

/-- A read of shared SRAM (R26): corrected and counted, or flagged. -/
def State.sharedRead (s : State) (a k : Nat) : State × Option Nat :=
  let r := s.sramCheck a
  if r.2 then
    let w := r.1.sharedWord a k
    (w.1, some w.2)
  else (r.1, none)

/-- Where a store of a lane into shared SRAM goes. -/
inductive SharedAt where
  | mem
  | port (n off : Nat)
  | forbidden
deriving DecidableEq, Repr

/-- The limits on a lane's shared stores (R332, R364). -/
def State.sharedAt (s : State) (l a pc : Nat) : SharedAt :=
  if 0x910000 ≤ a ∧ a < sramEnd then .mem
  else if a < 256 * recStride then
    let n := a / recStride
    let off := a % recStride
    if !s.inPlan n ∨ s.axLane n ≠ l then .forbidden
    else if off < 0x100 then .forbidden
    else if off < 0x480 then (if pc < 0x400 then .mem else .forbidden)
    else if off < 0x500 then .forbidden
    else if off < 0x540 then .port n off
    else if off < 0x600 then .mem
    else .forbidden
  else .forbidden

/-- The status registers of the status port. -/
def portReg (n r : Nat) : Nat := match r with
  | 0 => rAXC_STAT n
  | 1 => rTQ_STAT n
  | 2 => rPRF_STAT n
  | _ => rPGN_STAT n

/-- The law-owned ro bits of a status register (R365). -/
def lawBits (r : Nat) : Word :=
  let m := fun (b : Bits) => BitVec.ofNat 32 b.mask
  match r with
  | 1 => m fTQ_STAT_VLIM ||| m fTQ_STAT_LOSS
  | 2 => m fPRF_STAT_STVSAT ||| m fPRF_STAT_HOLDI
  | _ => 0

/-- The rc bits of a register. -/
def rcMask (o : Nat) : Word := match regRow o with
  | some r => BitVec.ofNat 32 r.rc
  | none => 0

/-- A store of a word to the status port (R365). -/
def State.statusPort (s : State) (n off : Nat) (v : Word) : State :=
  let r := off / 4 % 4
  let o := portReg n r
  if off < 0x510 then s.rset o (s.rget o ||| (v &&& rcMask o))
  else if off < 0x520 then s.rset o ((s.rget o &&& ~~~(lawBits r)) ||| (v &&& lawBits r))
  else if off < 0x530 then s.countN (rTQ_CNT n r) (v.toNat % 65536)
  else s

/-- A shared store of `k` bytes: taken, a register effect, or forbidden. -/
def State.sharedWrite (s : State) (l a pc k v : Nat) : Option State :=
  match s.sharedAt l a pc with
  | .mem => some (s.sramWrite a (leBytes k v))
  | .port n off =>
    let s := s.statusPort n off (BitVec.ofNat 32 v)
    some (if k = 8 then s.statusPort n (off + 4) (BitVec.ofNat 32 (v / 2 ^ 32)) else s)
  | .forbidden => none

/-! ### Addressing (R333) -/

/-- The least power of two at or above a length. -/
def pow2At (q : Nat) : Nat → Nat → Nat
  | 0, p => p
  | k + 1, p => if q ≤ p then p else pow2At q k (2 * p)

/-- The pointer after a step, reduced once into its circular buffer; none where it still lies outside. -/
def stepPtr (p : Nat) (step : Int) (q : Nat) : Option (BitVec 24) :=
  let np := (p : Int) + step
  if q = 0 then some (BitVec.ofInt 24 np)
  else
    let b : Int := p - p % pow2At q 24 1
    let np := if b + q ≤ np then np - q else if np < b then np + q else np
    if b ≤ np ∧ np < b + q then some (BitVec.ofInt 24 np) else none

/-- A memory operand: the address and the pointer afterwards; none for a trap (reserved mode apart). -/
def LBank.operand (b : LBank) (p : Nat) (am : BitVec 2) (mi : Nat) (off : BitVec 16) : Option (Nat × BitVec 24) :=
  let a := b.pAt p
  match am.toNat with
  | 0 => some ((BitVec.ofInt 24 (a.toNat + off.toInt)).toNat, a)
  | 1 => (stepPtr a.toNat (b.mAt mi).toInt (b.qAt p).toNat).map (fun np => (a.toNat, np))
  | _ => (stepPtr a.toNat off.toInt (b.qAt p).toNat).map (fun np => (a.toNat, np))

/-! ### The move slot (R339) -/

/-- What the move slot does: the state and the bank after it, the loads that land one instruction later, and a store that does. -/
structure MRes where
  s : State
  b : LBank
  ld : List LPend := []
  st : Option (Nat × BitVec 64) := none

/-- The bank of a lane. -/
def Lane.bank (x : Lane) (fgd : Bool) : LBank := if fgd then x.fg else x.bg
def Lane.setBank (x : Lane) (fgd : Bool) (b : LBank) : Lane := if fgd then { x with fg := b } else { x with bg := b }

/-- What an earlier load fetched lands in its register (R347). -/
def Lane.land (x : Lane) (p : LPend) : Lane := x.setBank p.fg ((x.bank p.fg).putPhys p.dst p.val)

/-- A register number that a load or store may name (R337, R339): d, p, m or q. -/
def plainReg (r : Nat) : Bool := decide (r < 16) || (decide (24 ≤ r) && decide (r < 48))

/-- The physical number of a register under a rotation. -/
def physReg (rot : BitVec 3) (r : Nat) : Nat := if r < 16 then physD rot r else r

/-- The value that a store of a register gives (R339): d sign-extended; p, m and q zero-extended. -/
def LBank.storeVal (b : LBank) (r : Nat) : Int :=
  if r < 16 then (b.dAt r).toInt
  else if r < 32 then (b.pAt (r - 24)).toNat
  else if r < 40 then (b.mAt (r - 32)).toNat
  else (b.qAt (r - 40)).toNat

/-- A word of `k` bytes of an integer. -/
def wordOf (k : Nat) (x : Int) : Nat := (x % 2 ^ (8 * k)).toNat

/-- The source of a MOV other than an accumulator (R337); none for a reserved number. -/
def LBank.movSrc (b : LBank) (r : Nat) : Option Int :=
  if plainReg r then some (if r < 16 ∨ (32 ≤ r ∧ r < 40) then (if r < 16 then (b.dAt r).toInt else (b.mAt (r - 32)).toInt) else b.storeVal r)
  else match r with
    | 0x30 => some b.scl.toInt
    | 0x31 => some b.flg.toNat
    | 0x32 => some b.rot.toNat
    | 0x33 => some b.iter.toNat
    | 0x34 => some b.rpt.toNat
    | 0x35 => some b.lr.toNat
    | 0x36 => some b.evi.toNat
    | _ => none

/-- Write a register named by MOV or LDI; none for a reserved number, an accumulator or EVI. -/
def LBank.movDst (b : LBank) (rot : BitVec 3) (r : Nat) (x : Int) : Option LBank :=
  if plainReg r then some (b.putPhys (physReg rot r) (BitVec.ofInt 56 x))
  else match r with
    | 0x30 => some { b with scl := sclOf x }
    | 0x31 => some { b with flg := BitVec.ofInt 4 x }
    | 0x32 => some { b with rot := BitVec.ofInt 3 x }
    | 0x33 => some { b with iter := BitVec.ofInt 12 x }
    | 0x34 => some { b with rpt := BitVec.ofInt 11 x }
    | 0x35 => some { b with lr := BitVec.ofInt 12 x }
    | _ => none

/-- A memory access of `k` bytes: the operand, checked (R333); the address or the trap. -/
def LBank.access (b : LBank) (shared : Bool) (p : Nat) (am : BitVec 2) (mi : Nat) (off : BitVec 16) (k : Nat) : Except Nat (Nat × LBank → Nat × LBank) :=
  if am = 3 then .error tcRESERVED
  else match b.operand p am mi off with
    | none => .error tcADDR
    | some (a, np) =>
      if a % k ≠ 0 ∨ (if shared then sramEnd else 0x10000) ≤ a then .error tcADDR
      else .ok (fun x => (a, x.2.putP p np))

/-- A load of `k` bytes. -/
def State.loadAt (s : State) (l : Nat) (shared : Bool) (a k : Nat) : State × Option Nat := if shared then s.sharedRead a k else s.localRead l a k

/-- A store of `k` bytes; none where it is forbidden. -/
def State.storeAt (s : State) (l : Nat) (shared : Bool) (a pc k v : Nat) : Option State :=
  if shared then s.sharedWrite l a pc k v else some (s.localWrite l a (leBytes k v))

/-- LD, LDQ, LDS, LDQS (R339, R347): a local load lands one instruction later, a shared one at once. -/
def mLoad (s : State) (l : Nat) (b0 b1 : LBank) (shared quad : Bool) (reg : BitVec 6) (p : Nat) (am : BitVec 2) (mi : Nat) (off : BitVec 16) :
    Except Nat MRes :=
  let r := reg.toNat
  if (if quad then decide (16 ≤ r) && decide (r < 20) else plainReg r) = false then .error tcRESERVED
  else do
    let k := if quad then 8 else 4
    let f ← b0.access shared p am mi off k
    let ab := f (0, b1)
    let rd := s.loadAt l shared ab.1 k
    match rd.2 with
    | none => .error tcMEM
    | some v =>
      let q := sat 56 (BitVec.ofNat 64 v).toInt
      let v56 := if quad then BitVec.ofInt 56 q.1 else BitVec.ofNat 56 (v % 2 ^ 24)
      let b := if quad then ab.2.limited q.2 else ab.2
      let dst := physReg b0.rot r
      .ok (if shared then { s := rd.1, b := b.putPhys dst v56 } else { s := rd.1, b := b, ld := [⟨dst, v56, true⟩] })

/-- ST, STQ, STS, STQS (R339). -/
def mStore (s : State) (l : Nat) (b0 b1 : LBank) (shared quad : Bool) (reg : BitVec 6) (p : Nat) (am : BitVec 2) (mi : Nat) (off : BitVec 16) :
    Except Nat MRes :=
  let r := reg.toNat
  if (if quad then decide (16 ≤ r) && decide (r < 20) else plainReg r) = false then .error tcRESERVED
  else do
    let k := if quad then 8 else 4
    let f ← b0.access shared p am mi off k
    let ab := f (0, b1)
    let v := wordOf k (if quad then (b0.aAt (r - 16)).toInt else b0.storeVal r)
    match s.storeAt l shared ab.1 b0.pc.toNat k v with
    | none => .error tcADDR
    | some s => .ok { s := s, b := ab.2 }

/-- LD2 and ST2 (R339): logical d(REG) and d(REG + 1). -/
def mPair (s : State) (l : Nat) (b0 b1 : LBank) (store : Bool) (reg : BitVec 6) (p : Nat) (am : BitVec 2) (mi : Nat) (off : BitVec 16) :
    Except Nat MRes :=
  let r := reg.toNat
  if 14 < r ∨ r % 2 ≠ 0 then .error tcRESERVED
  else do
    let f ← b0.access false p am mi off 4
    let ab := f (0, b1)
    if 0x10000 ≤ ab.1 + 4 then .error tcADDR
    else if store then
      let s := s.localWrite l ab.1 (leBytes 4 (wordOf 4 (b0.dAt r).toInt))
      .ok { s := s.localWrite l (ab.1 + 4) (leBytes 4 (wordOf 4 (b0.dAt (r + 1)).toInt)), b := ab.2 }
    else
      let x := s.localRead l ab.1 4
      let y := x.1.localRead l (ab.1 + 4) 4
      match x.2, y.2 with
      | some u, some v =>
        .ok { s := y.1, b := ab.2, ld := [⟨physD b0.rot r, BitVec.ofNat 56 (u % 2 ^ 24), true⟩,
            ⟨physD b0.rot (r + 1), BitVec.ofNat 56 (v % 2 ^ 24), true⟩] }
      | _, _ => .error tcMEM

/-- OUT (R339, R362). -/
def mOut (s : State) (l : Nat) (b0 b1 : LBank) (reg : BitVec 6) (p : Nat) (am : BitVec 2) (mi : Nat) (off : BitVec 16) : Except Nat MRes :=
  if am ≠ 0 ∨ !plainReg reg.toNat then .error tcRESERVED
  else do
    let f ← b0.access false p am mi off 8
    let ab := f (0, b1)
    if 0x10000 ≤ ab.1 + 8 then .error tcADDR
    else
      let lo := s.localRead l ab.1 8
      let hi := lo.1.localRead l (ab.1 + 8) 8
      match lo.2, hi.2 with
      | some u, some v => .ok { s := hi.1.outCommit l (wordOf 1 (b0.storeVal reg.toNat)) (BitVec.ofNat 128 (u + v * 2 ^ 64)), b := ab.2 }
      | _, _ => .error tcMEM

/-- MOV (R339, R343): an accumulator reaches a data register through the scaler; what it gives another register the spec does not state
(a free value). `alim`: the arithmetic slot limited a value (R341). -/
def mMov (s : State) (b0 b1 : LBank) (alim : Bool) (rd rs : BitVec 6) : Except Nat MRes :=
  let r := rs.toNat
  if 16 ≤ r ∧ r < 20 then
    if rd.toNat < 16 then
      let x := scaler b0.scl (b0.aAt (r - 16))
      .ok { s := s, b := (b1.putD b0.rot rd.toNat (BitVec.ofInt 24 x.1)).setV (x.2 || alim) }
    else match b1.movDst b0.rot rd.toNat (s.free 0).toInt with
      | none => .error tcRESERVED
      | some b => .ok { s := s.drew 1, b := b }
  else match b0.movSrc r with
    | none => .error tcRESERVED
    | some x => match b1.movDst b0.rot rd.toNat x with
      | none => .error tcRESERVED
      | some b => .ok { s := s, b := b }

/-- LDI: d, p, m, q or SCL (R339). -/
def mLdi (s : State) (b0 b1 : LBank) (rd : BitVec 6) (imm : BitVec 24) : Except Nat MRes :=
  if plainReg rd.toNat ∨ rd = 0x30 then
    match b1.movDst b0.rot rd.toNat imm.toInt with
    | none => .error tcRESERVED
    | some b => .ok { s := s, b := b }
  else .error tcRESERVED

/-- WDIF (R344). -/
def mWdif (s : State) (l : Nat) (b0 b1 : LBank) (ad pa pb : Nat) (sh : BitVec 7) : Except Nat MRes :=
  let x := (b0.pAt pa).toNat
  let y := (b0.pAt pb).toNat
  if sh.toInt = -64 ∨ 30 < sh.toInt then .error tcRESERVED
  else if x % 8 ≠ 0 ∨ y % 8 ≠ 0 ∨ 0x10000 ≤ x ∨ 0x10000 ≤ y then .error tcADDR
  else
    let u := s.localRead l x 8
    let v := u.1.localRead l y 8
    match u.2, v.2 with
    | some a, some b =>
      let d : Int := (BitVec.ofNat 64 a - BitVec.ofNat 64 b).toInt
      let r := sat 56 (if sh.toInt < 0 then d / 2 ^ (-sh.toInt).toNat else d * 2 ^ sh.toInt.toNat)
      .ok { s := v.1, b := b1.limited r.2, ld := [⟨16 + ad, BitVec.ofInt 56 r.1, true⟩] }
    | _, _ => .error tcMEM

/-- WADD (R344, R349): the word is read at issue and written at the end of the next instruction. -/
def mWadd (s : State) (l : Nat) (b0 b1 : LBank) (ad pa : Nat) (sh : BitVec 7) : Except Nat MRes :=
  let x := (b0.pAt pa).toNat
  if sh.toInt < 0 ∨ 30 < sh.toInt then .error tcRESERVED
  else if x % 8 ≠ 0 ∨ 0x10000 ≤ x then .error tcADDR
  else
    let u := s.localRead l x 8
    match u.2 with
    | none => .error tcMEM
    | some w => .ok { s := u.1, b := b1, st := some (x, BitVec.ofNat 64 w + BitVec.ofInt 64 ((b0.aAt ad).toInt * 2 ^ sh.toNat)) }

/-- A branch taken to a target: two delay slots follow; leaving the body of a loop ends it, but for a call (R348, R350). -/
def State.branch (s : State) (l : Nat) (b0 b1 : LBank) (tgt : BitVec 12) (call : Bool) : MRes :=
  let inBody := fun (x : BitVec 12) => decide (b0.loopStart.toNat ≤ x.toNat) && decide (x.toNat ≤ b0.loopEnd.toNat)
  let leaves := b0.iter != 0 && !call && inBody b0.pc && !inBody tgt
  { s := s.updLn l (fun x => { x with slots := some (3, tgt, false) })
    b := if leaves then { b1 with iter := 0 } else b1 }

/-- BR, BRL and RET (R339, R340). -/
def mBranch (s : State) (l : Nat) (b0 b1 : LBank) (c : BitVec 4) (tgt : BitVec 12) (call : Bool) : Except Nat MRes :=
  if 8 < c.toNat then .error tcRESERVED
  else if b0.cond c then .ok (s.branch l b0 (if call then { b1 with lr := b0.pc + 3 } else b1) tgt call)
  else .ok { s := s, b := b1 }

/-- The count of LOOP and REP (R350, R353). -/
def LBank.count (b : LBank) (fromReg : Bool) (cnt : BitVec 12) (most : Nat) : Nat :=
  if fromReg then min most (b.dAt (cnt.toNat % 16)).toNat else cnt.toNat

/-- LOOP (R350): a count of 0 skips the body, and a LOOP inside an active one traps. -/
def mLoop (s : State) (b0 b1 : LBank) (fromReg : Bool) (cnt tgt : BitVec 12) : Except Nat MRes :=
  if b0.iter ≠ 0 then .error tcLOOP
  else
    let k := b0.count fromReg cnt 4095
    .ok { s := s, b := if k = 0 then { b1 with pc := tgt } else { b1 with iter := BitVec.ofNat 12 k, loopStart := b0.pc + 1, loopEnd := tgt } }

/-- REP (R353): on L14 and L15; the next instruction issues that many times. -/
def mRep (s : State) (l : Nat) (b0 b1 : LBank) (fromReg : Bool) (cnt : BitVec 12) : Except Nat MRes :=
  let k := b0.count fromReg cnt 1024
  if l < 14 then .error tcREP
  else if 1024 < k then .error tcRESERVED
  else .ok { s := s, b := { b1 with rpt := BitVec.ofNat 11 k, latch := true } }

/-- The move slot (R339): sources from `b0`, the bank as the instruction finds it; results into `b1`, which has the arithmetic slot's. -/
def State.moveSlot (s : State) (l : Nat) (b0 b1 : LBank) (alim : Bool) : MoveOp → Except Nat MRes
  | .nop => .ok { s := s, b := b1 }
  | .ld reg p am mi off => mLoad s l b0 b1 false false reg p am mi off
  | .ldq reg p am mi off => mLoad s l b0 b1 false true reg p am mi off
  | .lds reg p am mi off => mLoad s l b0 b1 true false reg p am mi off
  | .ldqs reg p am mi off => mLoad s l b0 b1 true true reg p am mi off
  | .st reg p am mi off => mStore s l b0 b1 false false reg p am mi off
  | .stq reg p am mi off => mStore s l b0 b1 false true reg p am mi off
  | .sts reg p am mi off => mStore s l b0 b1 true false reg p am mi off
  | .stqs reg p am mi off => mStore s l b0 b1 true true reg p am mi off
  | .ld2 reg p am mi off => mPair s l b0 b1 false reg p am mi off
  | .st2 reg p am mi off => mPair s l b0 b1 true reg p am mi off
  | .out reg p am mi off => mOut s l b0 b1 reg p am mi off
  | .mov rd rs => mMov s b0 b1 alim rd rs
  | .ldi rd imm => mLdi s b0 b1 rd imm
  | .wdif ad pa pb sh => mWdif s l b0 b1 ad pa pb sh
  | .wadd ad pa sh => mWadd s l b0 b1 ad pa sh
  | .br c tgt => mBranch s l b0 b1 c tgt false
  | .brl c tgt => mBranch s l b0 b1 c tgt true
  | .ret c => mBranch s l b0 b1 c b0.lr false
  | .loop fromReg cnt tgt => mLoop s b0 b1 fromReg cnt tgt
  | .rep fromReg cnt => mRep s l b0 b1 fromReg cnt
  | .end_ => .ok { s := s.updLn l (fun x => { x with slots := some (3, 0, true) }), b := b1 }
  | .rota => .ok { s := s, b := { b1 with rot := b1.rot + 1 } }

/-! ### Runtime routines (R367) -/

/-- The runtime routine at an index: RT_PROFILE runs the generator of axis d0 for this tick, and its set-points and a status word the spec
does not lay out go to [p4]; the demands of RT_BRIDLE and RT_CAM are part of that generator.  The registers a routine may change hold values
the spec does not give (free values); control returns to LR. -/
def State.routine (s : State) (l : Nat) (fgd : Bool) (entry : BitVec 12) : State :=
  let b := (s.ln l).bank fgd
  let n := (b.dAt 0).toNat % 256
  let p4 := (b.pAt 4).toNat
  let tb := s.axTickStart n
  let s := if entry = 0x008 ∧ s.inPlan n ∧ s.axLane n = l ∧ divides (s.axPdiv n) (s.axTick n) then s.profileRun n tb else s
  let ta := (s.ax n).ts + BitVec.ofNat 64 (s.ax n).dhat
  let words := leBytes 8 (s.spAt n (s.ax n).ts).1.toNat ++ leBytes 8 (s.spAt n ta).2.1.toNat ++ leBytes 8 (s.spAt n ta).2.2.toNat
    ++ leBytes 4 (s.free 51).toNat
  let s := if entry = 0x008 then s.localWrite l p4 words else s
  let put := fun (b : LBank) (k : Nat) => b.putPhys k ((s.free k).setWidth 56)
  let b := ((List.range 8) ++ [16, 17, 18, 19, 28, 29, 30, 31, 36, 37, 38, 39, 44, 45, 46, 47]).foldl (fun b k => put b k) b
  let b := { b with scl := sclOf (s.free 48).toInt, flg := (s.free 49).setWidth 4, pc := b.lr }
  (s.drew 52).updLn l (fun x => x.setBank fgd b)

/-- The entry of a runtime routine (R367). -/
def isRoutine (pc : BitVec 12) : Bool := pc == 0x008 || pc == 0x010 || pc == 0x018

/-! ### Issue (R345-R356) -/

/-- Control after an instruction at `pc`: the delay slots count down to the target, the end of a loop's body goes back, else the next
index (R348, R350, R351). -/
def State.advance (s : State) (l : Nat) (fgd : Bool) (pc : BitVec 12) : State :=
  let x := s.ln l
  let b := x.bank fgd
  let s := if b.iter ≠ 0 ∧ pc = b.loopEnd ∧ b.pc = pc then
      let b := { b with rot := b.rot + 1, iter := b.iter - 1 }
      s.updLn l (fun x => x.setBank fgd { b with pc := if b.iter = 0 then pc + 1 else b.loopStart })
    else s.updLn l (fun x => x.setBank fgd { b with pc := b.pc + 1 })
  match (s.ln l).slots with
  | none => s
  | some (1, tgt, fin) =>
    let s := s.updLn l (fun x => { x with slots := none })
    if fin then s.endWork l
    else
      let s := s.updLn l (fun x => x.setBank fgd { x.bank fgd with pc := tgt })
      if isRoutine tgt then s.routine l fgd tgt else s
  | some (k, tgt, fin) => s.updLn l (fun x => { x with slots := some (k - 1, tgt, fin) })

/-- One issue: both slots read the bank as they find it, arithmetic and moves write it, then what the previous instruction's loads and
WADD left lands (R346, R347, R349). A trap stops the lane with nothing written. -/
def State.issueCore (s : State) (l : Nat) (fgd : Bool) (ar : ArithOp) (mv : MoveOp) : State :=
  let x := s.ln l
  let b0 := x.bank fgd
  match s.moveSlot l b0 (b0.arith ar) (b0.alu ar).lim mv with
  | .error c => s.trapLane l c
  | .ok r =>
    let s := match x.pendSt with
      | some (a, w) => r.s.localWrite l a (leBytes 8 w.toNat)
      | none => r.s
    s.updLn l (fun y => { x.pend.foldl Lane.land (y.setBank fgd r.b) with pend := r.ld.map (fun p => { p with fg := fgd }), pendSt := r.st })

/-- Issue an instruction repeatedly (R353). -/
def State.issueTimes (s : State) (l : Nat) (fgd : Bool) (ar : ArithOp) (mv : MoveOp) : Nat → State
  | 0 => s
  | k + 1 =>
    let s := s.issueCore l fgd ar mv
    if (s.ln l).trapped then s
    else (s.updLn l (fun x => x.setBank fgd { x.bank fgd with rpt := BitVec.ofNat 11 k })).issueTimes l fgd ar mv k

/-- Issue the next instruction of a lane: an event that waits is entered first where it may be (R355, R356); after a REP the instruction
issues RPT times, or is skipped (R353). -/
def State.issue (s : State) (l : Nat) (ar : ArithOp) (mv : MoveOp) : State :=
  if !s.laneRuns l then s
  else
    let s := if (s.ln l).work.isNone && !(s.ln l).evq.isEmpty && (s.ln l).atBoundary then s.enterWork l else s
    let fgd := (s.ln l).work.isSome
    let b := (s.ln l).bank fgd
    let k := if b.latch then b.rpt.toNat else 1
    let s := if b.latch then s.updLn l (fun x => x.setBank fgd { b with latch := false }) else s
    let s := if b.latch then s.issueTimes l fgd ar mv k else s.issueCore l fgd ar mv
    if (s.ln l).trapped then s else s.advance l fgd b.pc

end Sys2Proof.Machine
end

