-- ==== Sys2Proof/Machine/Torque.lean ====
section
/-!
DEFINITION. The events of torque control outside the law of a tick (07_torque_control, R209-R224; R278): losses, stages, alignment, catch,
test, and the mailbox objects of the loops. The motor model is in `Machine/Motor.lean`, the law in `Machine/WorkItem.lean`.
-/
namespace Sys2Proof.Machine

open Sys2Proof

/-- A number of milliseconds after an instant. -/
def afterMs (t : FTime) (ms : Nat) : FTime := t + BitVec.ofNat 64 (ms * 1000 * usUnits)

/-- Does the TQ law of R200 run in this state? -/
def lawState (x : Nat) : Bool := x == xREADY || x == xRUN || x == xSTOPPING || x == xHOLD

/-- Is the channel sensed by a single shunt (R206)? -/
def State.singleShunt (s : State) (n : Nat) : Bool := descSENSE (s.axDesc n) == 3

/-- Declare observer loss (R216-R218), with the speed `w` before the run. -/
def State.declareLoss (s : State) (n : Nat) (w : Int) (tb : FTime) : State :=
  let s := ((s.raise (rTQ_STAT n) fTQ_STAT_LOSS).count (rTQ_CNT n 3)).axEvent n 0x08 0 tb
  let s := (s.updAx n (fun a => { a with lossRun := 0 })).startReaction n w tb
  if s.axState n = xSTOPPING then s.raiseKind n 2 else s

/-- OBSERVER_LOSS: declared at the boundary after LOSSN consecutive ticks over threshold; the loss reaction begins (R216-R218). -/
def execObserverLoss (n : Fin 256) (s : State) : Out :=
  .next (if s.axType n = tyTQ ∧ lawState (s.axState n) ∧ !s.reacting n ∧ max 1 (s.wfld (rTQ_CFG n) fTQ_CFG_LOSSN) ≤ (s.ax n).lossRun then
    s.declareLoss n (s.ax n).preW (s.axTickStart n)
  else s)

/-- SKIPMAX: SKIPRUN has reached its limit (R209). -/
def execSkipmax (n : Fin 256) (s : State) : Out :=
  .next (if s.axType n = tyTQ ∧ lawState (s.axState n)
      ∧ max 1 (s.wfld (rTQ_CFG n) fTQ_CFG_SKIPMAX) ≤ s.fget (rTQ_LIVE n) fTQ_LIVE_SKIPRUN
      ∧ !(s.ax n).causes.contains (.fault fcSKIPMAX false) then s.faultCause n fcSKIPMAX false
  else s)

/-- SHORT_TIMEOUT: a single-shunt sensorless axis leaves SHORT after ASCT ms, at the next boundary (R217). -/
def execShortTimeout (n : Fin 256) (s : State) : Out :=
  .next (if s.axType n = tyTQ ∧ s.lstage n = lsSHORT ∧ s.singleShunt n ∧ s.angSrc n = 2
      ∧ reached s.now (afterMs (s.ax n).stageAt (max 1 (s.wfld (rTQ_CATCH2 n) fTQ_CATCH2_ASCT))) then
    s.updAx n (fun a => { a with react := lsOFF })
  else s)

/-! ### CATCH (R219) -/

/-- A failed attempt: counted, and OFF records from then on. -/
def State.catchFail (s : State) (n : Nat) : State :=
  let s := s.raise (rTQ_STAT n) fTQ_STAT_CATCHFAIL
  (s.fset (rTQ_LIVE n) fTQ_LIVE_CATT (min 3 (s.fget (rTQ_LIVE n) fTQ_LIVE_CATT + 1))).setStage n lsOFF s.now

/-- CATCH_RETRY: CWAIT ms after a failed attempt that was not the third, the zero-voltage phase starts again. -/
def execCatchRetry (n : Fin 256) (s : State) : Out :=
  .next (if s.axType n = tyTQ ∧ s.axState n = xCATCH ∧ s.lstage n = lsOFF ∧ s.fget (rTQ_LIVE n) fTQ_LIVE_CATT < 3
      ∧ reached s.now (afterMs (s.ax n).stageAt (max 1 (s.wfld (rTQ_CATCH2 n) fTQ_CATCH2_CWAIT))) then s.setStage n lsZERO s.now
  else s)

/-- CATCH_THIRD_FAILURE: cause OBSLOSS. -/
def execCatchThirdFailure (n : Fin 256) (s : State) : Out :=
  .next (if s.axType n = tyTQ ∧ s.axState n = xCATCH ∧ s.fget (rTQ_LIVE n) fTQ_LIVE_CATT = 3
      ∧ !(s.ax n).causes.contains (.fault fcOBSLOSS false) then s.faultCause n fcOBSLOSS false
  else s)

/-! ### ALIGN and TEST (R220-R222, R278) -/

/-- The ramp and the whole duration of one alignment step, in ms (R220). -/
def State.rampMs (s : State) (n : Nat) : Nat := max 1 (s.wfld (rTQ_ALIGN n) fTQ_ALIGN_ARAMP)
def State.alignMs (s : State) (n : Nat) : Nat := s.rampMs n + max 1 (s.wfld (rTQ_ALIGN2 n) fTQ_ALIGN2_AHOLD)

/-- Does an alignment run: in ALIGN, or in the standstill phase of CATCH (R219-R221)? -/
def State.aligning (s : State) (n : Nat) : Bool := s.axState n == xALIGN || (s.axState n == xCATCH && s.lstage n == lsSTAND)

/-- The angle of the step in progress, in 2^-40 turn: AANG, or the present estimate in CATCH, and a quarter turn on in the second step
(R219-R221). -/
def State.alignAngle (s : State) (n : Nat) : Int :=
  ((if s.axState n = xCATCH then ((s.ax n).mot.thPll : Int) else s.wfld (rTQ_ALIGN n) fTQ_ALIGN_AANG * 2 ^ 28)
    + (s.ax n).alignStep * 2 ^ 38) % 2 ^ 40

/-- ANGOFF so that the rotor angle at the present count is `angle` (R213, R220), rounded to the nearest unit. -/
def State.angoffFor (s : State) (n : Nat) (angle : Int) : Nat :=
  let cpt : Int := max 4 (s.wfld (rTQ_CPT n) fTQ_CPT_CPT)
  let poles : Int := max 1 (s.wfld (rTQ_CFG n) fTQ_CFG_POLES)
  let x := ((s.ax n).x.toInt + (s.ax n).cix.toInt) % cpt
  ((angle - roundDiv (poles * 2 ^ 24 * x) cpt) % 2 ^ 24).toNat

/-- Write ANGOFF to the working copy and the shadow alike (R220). -/
def State.setAngoff (s : State) (n v : Nat) : State := s.bothSet (rTQ_ANGOFF n) fTQ_ANGOFF_ANGOFF v

/-- Is a count of `256 d / 4p` within the tolerance of the 90° step, ATOL / 256 of CPT / 4p (R220, R221)? Counts, exactly. -/
def State.inTol (s : State) (n : Nat) (d : Int) : Bool :=
  decide (256 * d.natAbs ≤ max 4 (s.wfld (rTQ_CPT n) fTQ_CPT_CPT) * s.wfld (rTQ_ALIGN2 n) fTQ_ALIGN2_ATOL)

/-- Four times the pole pairs. -/
def State.poles4 (s : State) (n : Nat) : Int := 4 * (max 1 (s.wfld (rTQ_CFG n) fTQ_CFG_POLES) : Nat)

/-- Has the feedback moved by the 90° step within its tolerance (R220)? -/
def State.stepMoved (s : State) (n : Nat) (moved : Int) : Bool :=
  s.inTol n (moved * s.poles4 n - (max 4 (s.wfld (rTQ_CPT n) fTQ_CPT_CPT) : Nat))

/-- Has the feedback stood within the tolerance since the hold began (R221)? -/
def State.holdStood (s : State) (n : Nat) (x0 : BitVec 64) : Bool := s.fbOwn n || s.inTol n (((s.ax n).x - x0).toInt * s.poles4 n)

/-- An alignment fails: cause ALIGN in ALIGN, a failed attempt in CATCH (R221). -/
def State.alignFail (s : State) (n : Nat) : State :=
  if s.axState n = xCATCH then s.catchFail n else s.faultCause n fcALIGN false

/-- An alignment is complete, at an angle in 2^-40 turn: the PLL starts there; READY from ALIGN, the synchronise phase in CATCH (R219, R220). -/
def State.alignEnd (s : State) (n : Nat) (th : Int) : State :=
  let s := s.updAx n (fun a => { a with alignStep := 0, mot := { a.mot with thPll := th.toNat, wPll := 0 } })
  if s.axState n = xCATCH then s.setStage n lsSYNC s.now
  else (s.fset (rAXC_STATE n) fAXC_STATE_ANGVAL 1).cause n (.done 1)

/-- ALIGN_STEP_END: the ramp and the hold of a step have ended (R220, R221): the second step of ANGSRC 0b00, or the end. A step whose ramp waits for
a measured tick goes on (R211). -/
def execAlignStepEnd (n : Fin 256) (s : State) : Out :=
  .next (
    let a := s.ax n
    match a.mot.holdX with
    | none => s
    | some x0 =>
      if s.axType n = tyTQ ∧ s.aligning n ∧ !a.causes.contains (.done 1) ∧ reached s.now (afterMs a.stageAt (s.alignMs n)) then
        if !s.holdStood n x0 then s.alignFail n
        else if s.angSrc n ≠ 0 then s.alignEnd n (s.alignAngle n)
        else if a.alignStep = 0 then
          s.updAx n (fun a => { a with alignStep := 1, stageAt := s.now, mot := { a.mot with holdX := none, stepX := a.x } })
        else if !s.stepMoved n (a.x - a.mot.stepX).toInt then s.alignFail n
        else (s.setAngoff n (s.angoffFor n (s.alignAngle n / 65536))).alignEnd n (s.alignAngle n)
      else s)

/-- TEST_END: the sequence of a TQ axis has run for TT ms (R222). -/
def execTestEnd (n : Fin 256) (s : State) : Out :=
  .next (if s.axType n = tyTQ ∧ s.axState n = xTEST ∧ reached s.now (afterMs (s.ax n).stageAt (max 1 (s.wfld (rTQ_TST n) fTQ_TST_TT))) then
    s.cause n (.done 3)
  else s)

/-- ST_ALIGN_END: the ramp and the hold of a stepper have ended (R278). -/
def execStAlignEnd (n : Fin 256) (s : State) : Out :=
  .next (if s.axType n = tyST ∧ s.axState n = xALIGN ∧ !(s.ax n).causes.contains (.done 1)
      ∧ reached s.now (afterMs (s.ax n).stageAt (s.wfld (rST_ALIGN n) fST_ALIGN_SARAMP + s.wfld (rST_ALIGN n) fST_ALIGN_SAHOLD)) then
    let fe := s.wfld (rAXC_FEMAX n) fAXC_FEMAX_FEMAX
    let err := ((s.ax n).gen.pset.toInt - (s.actPos n).toInt).natAbs
    if !s.fbOwn n ∧ fe ≠ 0 ∧ fe * 65536 < err then s.faultCause n fcALIGN false else s.cause n (.done 1)
  else s)

/-! ### Mailbox objects (R172, R163, R224) -/

/-- A time in a 32-bit word, saturating. -/
def satWord (x : Nat) : Word := BitVec.ofNat 32 (min 0xFFFFFFFF x)

/-- AX_DLY (R172, R192): the last closed window, the last d and d̂. -/
def mboAxDly (i : BitVec 14) (s : State) : MbxRes :=
  axisIdx i (fun n =>
    let a := s.ax n
    let w := a.closed
    ⟨s, mbxOK, [satWord w.dmin, satWord w.dmax, satWord (if w.n = 0 then 0 else w.dsum / w.n), satWord w.cmax, satWord w.n, satWord a.d,
      satWord a.dhat, a.winNo.setWidth 32]⟩) s

def execAxDly (set : Fin 4) (via : RegPath) (index : BitVec 14) (s : State) : Out := .next (s.mbx set via 0x020 0 index [] (mboAxDly index))

/-- TP_ORG_READ (R163). -/
def execTpOrgRead (set : Fin 4) (via : RegPath) (s : State) : Out :=
  .next (s.mbx set via 0x021 0 0 [] (fun s => ⟨s, mbxOK, words64 s.time.torg⟩))

/-- TP_ORG_WRITE: refused while the committed plan holds any axis (R164). -/
def mboTpOrgWrite (torg : FTime) (s : State) : MbxRes :=
  if allAxes.any s.inPlan then mbxRes s mbxREFUSED else mbxRes (s.updTime (fun u => { u with torg := torg })) mbxOK

def execTpOrgWrite (set : Fin 4) (via : RegPath) (torg : FTime) (s : State) : Out :=
  .next (s.mbx set via 0x021 1 0 (words64 torg) (mboTpOrgWrite torg))

/-- TQ_EST (R224): the snapshot of one tick. -/
def mboTqEst (i : BitVec 14) (s : State) : MbxRes := axisIdx i (fun n => ⟨s, mbxOK, (s.ax n).snap⟩) s

def execTqEst (set : Fin 4) (via : RegPath) (index : BitVec 14) (s : State) : Out := .next (s.mbx set via 0x030 0 index [] (mboTqEst index))

end Sys2Proof.Machine
end

