-- ==== Sys2Proof/Machine/Motor.lean ====
section
/-! DEFINITION. The motor model of torque control (R193-R222): quantities, vectors, slopes, the observer, the PLL, the measured current, the
predictive schedule and the placement of samples. Quantities are integers in units of 2^-40 of their SI unit, angles in 2^-40 turn, times in
field-time units; each product is rounded to the nearest (log entry 125). A quotient by zero is free. -/
namespace Sys2Proof.Machine

open Sys2Proof

/-! ### Fixed point -/

/-- One. -/
def fx1 : Int := 2 ^ 40

/-- A product. -/
def fmul (a b : Int) : Int := roundDiv (a * b) fx1

/-- `x · m / d`; by zero, the `k`-th free value. -/
def State.ratio (s : State) (k : Nat) (x m d : Int) : Int := if d = 0 then (s.free k).toInt else if d < 0 then roundDiv (-(x * m)) (-d) else roundDiv (x * m) d

/-- √3. -/
def root3 : Int := 1904410002820

/-- A rate per second over a time in field-time units. -/
def rateFor (x t : Int) : Int := roundDiv (x * t) unitHz

/-- Radians in 2^-40 to 2^-40 turn, and back. -/
def radTurn (x : Int) : Int := roundDiv (x * 10 ^ 20) (2 * pi20)
def turnRad (x : Int) : Int := roundDiv (x * (2 * pi20)) (10 ^ 20)

/-- An angle reduced to a turn, and to half a turn each way. -/
def wrapTurn (x : Int) : Int := x % fx1
def halfTurn (x : Int) : Int := (x + fx1 / 2) % fx1 - fx1 / 2

/-- `n` terms of the series of cosine (k = 0, t = 1) or sine (k = 1, t = x), `x2` the square of the angle in radians. -/
def trigSum (x2 : Int) : Nat → Int → Int → Int
  | 0, _, _ => 0
  | n + 1, k, t => t + trigSum x2 n (k + 2) (-roundDiv (t * x2) (fx1 * ((k + 1) * (k + 2))))

/-- Cosine and sine of an angle in 2^-40 turn. -/
def cosOf (th : Int) : Int := let x := turnRad (halfTurn th); trigSum (fmul x x) 14 0 fx1
def sinOf (th : Int) : Int := let x := turnRad (halfTurn th); trigSum (fmul x x) 14 1 x

/-- A vector in the α-β frame. -/
structure Vec where
  a : Int
  b : Int
deriving DecidableEq, Repr

def Vec.add (x y : Vec) : Vec := ⟨x.a + y.a, x.b + y.b⟩
def Vec.sub (x y : Vec) : Vec := ⟨x.a - y.a, x.b - y.b⟩
/-- Scaled by a number. -/
def Vec.scale (c : Int) (x : Vec) : Vec := ⟨fmul c x.a, fmul c x.b⟩
/-- A rate over a time. -/
def Vec.forT (x : Vec) (t : Int) : Vec := ⟨rateFor x.a t, rateFor x.b t⟩
/-- Turned by an angle. -/
def Vec.rot (th : Int) (x : Vec) : Vec :=
  let c := cosOf th
  let d := sinOf th
  ⟨fmul c x.a - fmul d x.b, fmul d x.a + fmul c x.b⟩
/-- Turned by a right angle. -/
def Vec.turn (x : Vec) : Vec := ⟨-x.b, x.a⟩
def Vec.mag (x : Vec) : Int := isqrt (x.a ^ 2 + x.b ^ 2).toNat 64 0
def Vec.cross (x y : Vec) : Int := fmul x.a y.b - fmul x.b y.a
def Vec.dot (x y : Vec) : Int := fmul x.a y.a + fmul x.b y.b

/-- The angle of a vector of the first quadrant by bisection on `n` bits of 2^-24 turn. -/
def angBits (x : Vec) : Nat → Int → Int
  | 0, acc => acc
  | n + 1, acc =>
    let c := acc + 2 ^ n * 65536
    angBits x n (if x.a * sinOf c ≤ x.b * cosOf c then c else acc)

/-- The angle of a vector in 2^-40 turn, to 2^-24 turn (R6). -/
def Vec.angle (x : Vec) : Int :=
  if 0 < x.a ∧ 0 ≤ x.b then angBits x 22 0
  else if x.a ≤ 0 ∧ 0 < x.b then fx1 / 4 + angBits ⟨x.b, -x.a⟩ 22 0
  else if x.a < 0 ∧ x.b ≤ 0 then fx1 / 2 + angBits ⟨-x.a, -x.b⟩ 22 0
  else if x.b < 0 then 3 * (fx1 / 4) + angBits ⟨-x.b, x.a⟩ 22 0
  else 0

/-! ### Parameters (R193, R194) -/

/-- The motor and its scales. -/
structure MotPar where
  p : Int
  rs : Int
  ld : Int
  lq : Int
  psim : Int
  ifs : Int
  vbus : Int
  tfs : Int
  psiRef : Int

/-- The parameters of an axis in force (R193-R195, R223). -/
def State.motPar (s : State) (n : Nat) : MotPar :=
  let p : Int := max 1 (s.wfld (rTQ_CFG n) fTQ_CFG_POLES)
  let psim := roundDiv ((max 1 (s.wfld (rTQ_PSIM n) fTQ_PSIM_PSIM) : Nat) * fx1) (10 ^ 6)
  let ifs := roundDiv ((descIFS (s.axDesc n) : Int) * fx1) 1000
  { p := p, rs := roundDiv ((s.wfld (rTQ_RS n) fTQ_RS_RS : Int) * fx1) (10 ^ 5), ld := roundDiv ((s.wfld (rTQ_LD n) fTQ_LD_LD : Int) * fx1) (10 ^ 8),
    lq := roundDiv ((s.wfld (rTQ_LQ n) fTQ_LQ_LQ : Int) * fx1) (10 ^ 8), psim := psim, ifs := ifs, vbus := roundDiv ((s.axVbus n : Int) * fx1) 64,
    tfs := roundDiv (3 * p * fmul psim ifs) 2, psiRef := roundDiv ((s.wfld (rTQ_PSIREF n) fTQ_PSIREF_PSIREF : Int) * fx1) (10 ^ 6) }

/-- A Q1.23 value of a scale, and the value in Q1.23 of it. -/
def fromQ (q : Q23) (scale : Int) : Int := roundDiv (q.toInt * scale) (2 ^ 23)
def State.toQ (s : State) (k : Nat) (x scale : Int) : Q23 := BitVec.ofInt 24 (satInt 24 (s.ratio k x (2 ^ 23) scale))

/-- The torque that flux and current give (R212). -/
def MotPar.torque (m : MotPar) (psi i : Vec) : Int := roundDiv (3 * m.p * psi.cross i) 2

/-! ### Voltages (R198, R201, R210) -/

/-- On-times of the legs under a switching vector, in 2^-16. -/
def vecDuty : Nat → List Nat
  | 1 => [65536, 0, 0]
  | 2 => [65536, 65536, 0]
  | 3 => [0, 65536, 0]
  | 4 => [0, 65536, 65536]
  | 5 => [0, 0, 65536]
  | 6 => [65536, 0, 65536]
  | 7 => [65536, 65536, 65536]
  | _ => [0, 0, 0]

/-- The mean voltage that on-times give: 2/3 VBUS at its direction under an active vector. -/
def MotPar.volt (m : MotPar) (d : List Nat) : Vec :=
  let x := fun k => (d.getD k 0 : Int)
  ⟨roundDiv (m.vbus * (2 * x 0 - x 1 - x 2)) (3 * 65536), roundDiv (m.vbus * (x 1 - x 2) * fx1) (root3 * 65536)⟩

/-- The on-times that give a voltage vector, their mean range centred on one half (log entry 126). -/
def State.onOf (s : State) (m : MotPar) (u : Vec) : List Nat :=
  let y := fmul (root3 / 2) u.b
  let x := [u.a, y - u.a / 2, -y - u.a / 2].map (fun v => s.ratio 27 v 65536 m.vbus)
  let mid := (x.foldl max (x.headD 0) + x.foldl min (x.headD 0)) / 2
  x.map (fun v => (min (max (v - mid + 32768) 0) 65535).toNat)

/-- The voltages applied, as on-times from each time on: those of the older records until the schedule of the newest begins. -/
def Motor.applied (m : Motor) : List (FTime × List Nat) :=
  match m.plan with
  | [] => m.line
  | e :: _ => m.line.filter (fun x => !reached x.1 e.1) ++ m.plan

/-- The pieces of a time line between two offsets: on-times and duration. -/
def pieces (cur : List Nat) (from_ to_ : Int) : List (Int × List Nat) → List (List Nat × Int)
  | [] => if from_ < to_ then [(cur, to_ - from_)] else []
  | (t, d) :: r =>
    if t ≤ from_ then pieces d from_ to_ r
    else if to_ ≤ t then (if from_ < to_ then [(cur, to_ - from_)] else [])
    else (cur, t - from_) :: pieces d t to_ r

/-- The pieces of what is applied between two times. -/
def Motor.between (m : Motor) (a b : FTime) : List (List Nat × Int) :=
  pieces [0, 0, 0] 0 (tdiff b a) (m.applied.map (fun e => (tdiff e.1 a, e.2)))

/-- The on-times in force at a time. -/
def Motor.dutyAt (m : Motor) (t : FTime) : List Nat :=
  ((m.applied.filter (fun e => reached t e.1)).getLast?.map (fun e => e.2)).getD [0, 0, 0]

/-! ### The model (R201, R205) -/

/-- A predicted state: flux, current, rotor angle and speed; torque, flux magnitude and flux angle as they are extrapolated. -/
structure Pred where
  psi : Vec
  i : Vec
  th : Int
  w : Int
  torque : Int := 0
  mag : Int := 0
  ang : Int := 0

/-- The slopes of R201. -/
structure Slopes where
  dpsi : Vec
  di : Vec
  dT : Int
  dmag : Int
  dang : Int

/-- The current slope of the dq model, in the α-β frame (R201; log entry 127). -/
def State.modelDi (s : State) (m : MotPar) (x : Pred) (u : Vec) : Vec :=
  let ud := u.rot (-x.th)
  let id := x.i.rot (-x.th)
  let dd := s.ratio 1 (ud.a - fmul m.rs id.a + fmul x.w (fmul m.lq id.b)) fx1 m.ld
  let dq := s.ratio 2 (ud.b - fmul m.rs id.b - fmul x.w (fmul m.ld id.a + m.psim)) fx1 m.lq
  ((⟨dd, dq⟩ : Vec).rot x.th).add (x.i.turn.scale x.w)

/-- The slopes under a voltage. -/
def State.slopes (s : State) (m : MotPar) (x : Pred) (u : Vec) : Slopes :=
  let dpsi := u.sub (x.i.scale m.rs)
  let di := s.modelDi m x u
  let g := x.psi.mag
  { dpsi := dpsi, di := di, dT := roundDiv (3 * m.p * (dpsi.cross x.i + x.psi.cross di)) 2,
    dmag := s.ratio 3 (x.psi.dot dpsi) fx1 g, dang := s.ratio 4 (x.psi.cross dpsi) fx1 (fmul g g) }

/-- The state `t` units later, linear in the slopes. -/
def Pred.step (x : Pred) (k : Slopes) (t : Int) : Pred :=
  { psi := x.psi.add (k.dpsi.forT t), i := x.i.add (k.di.forT t), th := wrapTurn (x.th + radTurn (rateFor x.w t)), w := x.w,
    torque := x.torque + rateFor k.dT t, mag := x.mag + rateFor k.dmag t, ang := wrapTurn (x.ang + radTurn (rateFor k.dang t)) }

/-- The state at the end of pieces of applied voltage. -/
def State.motorRun (s : State) (m : MotPar) (x : Pred) (l : List (List Nat × Int)) : Pred :=
  l.foldl (fun x e => x.step (s.slopes m x (m.volt e.1)) e.2) x

/-- The mean voltage over pieces, for a duration. -/
def MotPar.mean (m : MotPar) (l : List (List Nat × Int)) (dt : Int) : Vec :=
  let t := l.foldl (fun (v : Vec) e => v.add ⟨(m.volt e.1).a * e.2, (m.volt e.1).b * e.2⟩) ⟨0, 0⟩
  if dt ≤ 0 then ⟨0, 0⟩ else ⟨roundDiv t.a dt, roundDiv t.b dt⟩

/-! ### What the laws see of a tick (R171, R174, R176) -/

/-- The axis, tick start, sample instant, predicted apply instant and tick number; whether the record is missing. -/
structure LawIn where
  n : Nat
  tk : FTime
  ts : FTime
  ta : FTime
  k : Int
  missing : Bool

/-- S1 and S2 of a channel in the tick at `tk`: of the VECTOR record that commanded them, or as the gondola derives them (R250). -/
def State.smpOf (s : State) (k c : Nat) (tk : FTime) : Nat × Nat :=
  match tget none (s.gd k).lastRecs c with
  | none => (0, 0)
  | some r =>
    if recKIND r = kVECTOR then (vecS1 r, vecS2 r)
    else match (if k = gkey 24 1 then some homeBal else s.nodeOf k) with
      | none => (0, 0)
      | some g => let ch := (s.gon g).chan c; if ch.smpTk = some tk then (ch.s1, ch.s2) else (0, 0)

/-! ### The measured current (R193, R206) -/

/-- The phase that a shunt shows under on-times, and its sign: that of the one leg that is high, or of the one that is low, negated. In a window
of SPWM the legs are high in the order of their on-times (R210). -/
def shuntPhase (hi : List Bool) : Option (Nat × Int) :=
  let up := (List.range 3).filter (fun k => hi.getD k false)
  match up with
  | [k] => some (k, 1)
  | [j, k] => some (3 - j - k, -1)
  | _ => none

/-- The legs ordered by on-time, the longest first; equal ones by number (R210). -/
def byOn (on : List Nat) : List Nat :=
  ((List.range 3).map (fun k => (on.getD k 0, k))).foldr (fun e l => (l.takeWhile (fun x => decide (e.1 < x.1))) ++ e :: l.dropWhile (fun x => decide (e.1 < x.1))) []
    |>.map (fun e => e.2)

/-- Legs that are high in window `w` (1 or 2) of on-times under a carrier, or under a vector. -/
def highLegs (d : List Nat) (w : Nat) : List Bool :=
  if d.all (fun x => x == 0 || x == 65536) then d.map (fun x => x == 65536)
  else
    let l := byOn d
    (List.range 3).map (fun k => k == l.getD 0 0 || (w == 2 && k == l.getD 1 1))

/-- A phase of a current. -/
def Vec.phase (x : Vec) (k : Nat) : Int :=
  let y := fmul (root3 / 2) x.b
  if k = 0 then x.a else if k = 1 then y - x.a / 2 else -y - x.a / 2

/-- A current from phases U and V (R193). -/
def phaseVec (u v : Int) : Vec := ⟨u, roundDiv ((u + 2 * v) * fx1) root3⟩

/-- The model's state at the last sample instant. -/
def Motor.pred (a : Motor) (m : MotPar) : Pred :=
  { psi := ⟨fromQ a.psiA m.psim, fromQ a.psiB m.psim⟩, i := ⟨fromQ a.iA m.ifs, fromQ a.iB m.ifs⟩, th := a.th, w := a.w }

/-- The sample instant before, one tick ago if the law did not run then. -/
def State.lastAt (s : State) (i : LawIn) : FTime := (s.ax i.n).mot.at_.getD (i.ts - BitVec.ofNat 64 (s.axPeriod i.n))

/-- The measured current of a tick; none when it is skipped (R206, R208). -/
def State.measured (s : State) (i : LawIn) : Option Vec :=
  let r := (s.ax i.n).raw
  let m := s.motPar i.n
  let a := (s.ax i.n).mot
  if i.missing ∨ !recS1OK r then none
  else if !s.singleShunt i.n then some (phaseVec (fromQ (recIA r) m.ifs) (fromQ (recIB r) m.ifs))
  else if !recS2OK r then none
  else
    let smp := s.smpOf (s.axGon i.n) (s.axCh i.n) i.tk
    let t1 := i.tk + BitVec.ofNat 64 (4 * smp.1)
    let t2 := i.tk + BitVec.ofNat 64 (4 * smp.2)
    match shuntPhase (highLegs (a.dutyAt t1) 1), shuntPhase (highLegs (a.dutyAt t2) 2) with
    | some p1, some p2 =>
      if p1.1 = p2.1 then none
      else
        let x1 := s.motorRun m (a.pred m) (a.between (s.lastAt i) t1)
        let x2 := s.motorRun m x1 (a.between t1 t2)
        let i1 := p1.2 * fromQ (recIA r) m.ifs
        let i2 := p2.2 * fromQ (recIB r) m.ifs - (x2.i.phase p2.1 - x1.i.phase p2.1)
        let ph := fun k => if k = p1.1 then i1 else if k = p2.1 then i2 else -i1 - i2
        some (phaseVec (ph 0) (ph 1))
    | _, _ => none

/-- Was the current of the axis measured in this tick (R206, R208)? -/
def State.measuredNow (s : State) (i : LawIn) : Bool := (s.measured i).isSome

/-- Is the measured |i| at or above, or above, a threshold in 2^-12 of IFS (R217, R219)? -/
def State.currentAbove (s : State) (i : LawIn) (thr : Nat) (strict : Bool) : Bool :=
  match s.measured i with
  | none => false
  | some v =>
    let lim := (s.motPar i.n).ifs * thr
    let x := v.mag * 4096
    if strict then decide (lim < x) else decide (lim ≤ x)

/-! ### The rotor (R213) -/

/-- The Hall angle: the sector's, extrapolated with the Hall speed since its edge and held within half a sector, in 2^-40 turn. -/
def State.hallTh (s : State) (n : Nat) (t : FTime) : Int :=
  let a := s.ax n
  let sec : Int := (a.hall.map (fun h => (h.1 : Int))).getD 0
  let te := (a.hist.head?.map (fun h => h.1)).getD t
  let ext := radTurn (rateFor (s.omegaFb n) (tdiff t te))
  wrapTurn ((s.wfld (rTQ_HALLOFF n) fTQ_HALLOFF_HALLOFF : Int) * 65536 + roundDiv (sec * fx1) 6 + max (-(fx1 / 12)) (min (fx1 / 12) ext))

/-- The rotor angle of ANGSRC 0b00, exact (R213), in 2^-24 turn. -/
def State.posAngle (s : State) (n : Nat) : Nat :=
  let cpt : Int := max 4 (s.wfld (rTQ_CPT n) fTQ_CPT_CPT)
  let x := ((s.ax n).x.toInt + (s.ax n).cix.toInt) % cpt
  (((max 1 (s.wfld (rTQ_CFG n) fTQ_CFG_POLES) : Nat) * 2 ^ 24 * x / cpt + s.wfld (rTQ_ANGOFF n) fTQ_ANGOFF_ANGOFF) % 2 ^ 24).toNat

/-- Does the angle come from the PLL: under ANGSRC 0b10, and in CATCH after its estimate (R213, R219)? -/
def State.byPll (s : State) (n : Nat) : Bool := s.angSrc n == 2 || s.axState n == xCATCH

/-- The rotor angle at the sample instant, in 2^-40 turn (R213); without a record, that of the tick before advanced (R176). -/
def State.rotorTh (s : State) (i : LawIn) : Int :=
  let a := (s.ax i.n).mot
  if s.byPll i.n then a.thPll
  else if s.angSrc i.n = 1 then s.hallTh i.n i.ts
  else if i.missing then wrapTurn (a.th + radTurn (rateFor a.w (tdiff i.ts (s.lastAt i))))
  else (s.posAngle i.n : Int) * 65536

/-- The electrical speed (R213). -/
def State.rotorW (s : State) (n : Nat) : Int := if s.byPll n then (s.ax n).mot.wPll else s.omegaFb n

/-! ### Observer, PLL and loss (R212, R214, R216) -/

/-- The crossover frequency at a speed (R212). -/
def State.crossover (s : State) (n : Nat) (w : Int) : Int :=
  let lo : Int := s.wfld (rTQ_OBS n) fTQ_OBS_W_LO * fx1
  let hi : Int := s.wfld (rTQ_OBS n) fTQ_OBS_W_HI * fx1
  let cl : Int := s.wfld (rTQ_OBSG n) fTQ_OBSG_WC_LO * fx1
  let ch : Int := s.wfld (rTQ_OBSG n) fTQ_OBSG_WC_HI * fx1
  let x : Int := w.natAbs
  if x ≤ lo then cl else if hi ≤ x then ch else cl + roundDiv ((ch - cl) * (x - lo)) (hi - lo)

/-- Step 1 of R200: the current, measured or predicted, the angle and speed, the observer, the torque and the PLL; and whether the tick is over
threshold (R216). -/
def State.observe (s : State) (i : LawIn) : State × Bool :=
  let n := i.n
  let m := s.motPar n
  let a := (s.ax n).mot
  let t0 := s.lastAt i
  let dt := tdiff i.ts t0
  let ps := a.between t0 i.ts
  let x0 := a.pred m
  let cur := (s.measured i).getD (s.motorRun m x0 ps).i
  let th := s.rotorTh i
  let w := s.rotorW n
  let u := m.mean ps dt
  let id := cur.rot (-th)
  let psiI := (⟨fmul m.ld id.a + m.psim, fmul m.lq id.b⟩ : Vec).rot th
  let slope := (u.sub (cur.scale m.rs)).add ((psiI.sub x0.psi).scale (s.crossover n w))
  let psi := x0.psi.add (slope.forT dt)
  let act := psi.sub (cur.scale m.lq)
  let eps := halfTurn (act.angle - a.thPll)
  let bw : Int := s.wfld (rTQ_PLL n) fTQ_PLL_BW
  let er := turnRad eps
  let wp := if s.byPll n then a.wPll + rateFor (bw * bw * er) dt else a.wPll
  let thp := if s.byPll n then wrapTurn (a.thPll + radTurn (rateFor (wp + roundDiv (1414 * bw * er) 1000) dt)) else a.thPll
  let sat := decide ((s.wfld (rTQ_PLL n) fTQ_PLL_ESAT : Int) * 2 ^ 24 ≤ eps.natAbs)
  let did := if dt ≤ 0 then (⟨0, 0⟩ : Vec) else
    let d := cur.sub x0.i
    (⟨roundDiv (d.a * unitHz) dt, roundDiv (d.b * unitHz) dt⟩ : Vec).rot (-th)
  let emf := (u.sub (cur.scale m.rs)).sub ((⟨fmul m.ld did.a, fmul m.lq did.b⟩ : Vec).rot th)
  let rE := (emf.sub ((⟨0, fmul w m.psim⟩ : Vec).rot th)).mag
  let rF : Int := (act.mag - m.psim).natAbs
  let ovr := decide (m.vbus * s.wfld (rTQ_LOSS n) fTQ_LOSS_LOSS_E < rE * 256) || decide (m.psim * s.wfld (rTQ_LOSS n) fTQ_LOSS_LOSS_F < rF * 256)
    || (s.angSrc n == 2 && sat)
  (s.updAx n (fun x => { x with mot := { x.mot with
      psiA := s.toQ 3 psi.a m.psim, psiB := s.toQ 3 psi.b m.psim, iA := s.toQ 5 cur.a m.ifs, iB := s.toQ 5 cur.b m.ifs,
      torque := s.toQ 6 (m.torque psi cur) m.tfs, th := th.toNat, w := w, thPll := thp.toNat, wPll := wp, pllSat := sat,
      meas := s.measuredNow i, at_ := some i.ts } }), ovr)

/-! ### The schedule (R196-R204, R215) -/

/-- The sector of a flux angle (R196). -/
def sectorOf (th : Nat) : Nat := (th + 0x155555) % 2 ^ 24 * 6 / 2 ^ 24

/-- The three-level torque comparator (R197). -/
def torqueComp (ct e ht : Int) : Int :=
  if ct = 0 then (if ht ≤ e then 1 else if e ≤ -ht then -1 else 0)
  else if ct = 1 then (if e ≤ 0 then 0 else 1)
  else if 0 ≤ e then 0 else -1

/-- The two-level flux comparator (R197): true for +1. -/
def fluxComp (cf : Bool) (e hf : Int) : Bool := if cf then !decide (e ≤ -hf) else decide (hf ≤ e)

/-- The zero vector next to the vector in force (R199). -/
def zeroNear (cur : Nat) : Nat := if cur = 0 ∨ cur = 1 ∨ cur = 3 ∨ cur = 5 then 0 else 7

/-- The switching table (R199). -/
def tableVec (sec : Nat) (cf : Bool) (ct : Int) (cur : Nat) : Nat :=
  if ct = 0 then zeroNear cur
  else (sec + (if cf then (if ct = 1 then 1 else 5) else if ct = 1 then 2 else 4)) % 6 + 1

/-- The leg states of a vector (R198) in the form of a VECTOR record (R63): U in bits [1:0]. -/
def vecLegs (v : Nat) : Nat :=
  let m := fun (u v w : Nat) => (1 + u) + (1 + v) * 4 + (1 + w) * 16
  match v with
  | 1 => m 1 0 0
  | 2 => m 1 1 0
  | 3 => m 0 1 0
  | 4 => m 0 1 1
  | 5 => m 0 0 1
  | 6 => m 1 0 1
  | 7 => m 1 1 1
  | _ => m 0 0 0

/-- What a schedule works against: references and bands, the horizon, and the dwell of each leg; times are offsets from the tick start. -/
structure Bands where
  tref : Int
  psiRef : Int
  ht : Int
  hf : Int
  hor : Int
  dwell : List Int

/-- A schedule as it is built (R200, R202): comparators, sector and vector in force, the state predicted, the time reached, the last change of each
leg, the changes, what was moved or not scheduled, whether VLIM may hold (R215), and when each vector came into force. -/
structure Sched where
  ct : Int
  cf : Bool
  sec : Nat
  vec : Nat
  x : Pred
  at_ : Int
  legs : List Int
  ch : List (Int × Nat) := []
  moved : Nat := 0
  lost : Nat := 0
  vlim : Bool := true
  inForce : List (Int × Nat) := []

/-- Units until a quantity meets a bound that lies upward of it; at once if it is there. -/
def meetUp (x slope bound : Int) : Option Int :=
  if bound ≤ x then some 1 else if 0 < slope then some (max 1 (roundDiv ((bound - x) * unitHz) slope)) else none

/-- The events that lie ahead (R200, R201): time, and whether of torque (0), flux (1), or a sector boundary upward (2) or downward (3). -/
def Sched.ahead (c : Sched) (b : Bands) (k : Slopes) : List (Int × Nat) :=
  let eT := b.tref - c.x.torque
  let eF := b.psiRef - c.x.mag
  let up := fun (x sl bd : Int) (w : Nat) => ((meetUp x sl bd).map (fun t => (t, w))).toList
  let tq := if c.ct = 0 then up eT (-k.dT) b.ht 0 ++ up (-eT) k.dT b.ht 0 else if c.ct = 1 then up (-eT) k.dT 0 0 else up eT (-k.dT) 0 0
  let fl := if c.cf then up (-eF) k.dmag b.hf 1 else up eF (-k.dmag) b.hf 1
  let f := wrapTurn (c.x.ang + 0x155555 * 65536) * 6 - c.sec * fx1
  let sl := radTurn k.dang * 6
  tq ++ fl ++ (if 0 < sl then up f sl fx1 2 else if sl < 0 then up (-f) (-sl) 0 3 else [])

/-- The comparators and the sector after the events of one time. -/
def Sched.take (c : Sched) (b : Bands) (kinds : List Nat) : Sched :=
  let eT := b.tref - c.x.torque
  { c with ct := if kinds.contains 0 then (if c.ct = 0 then (if 0 < eT then 1 else -1) else 0) else c.ct,
           cf := if kinds.contains 1 then !c.cf else c.cf,
           sec := if kinds.contains 2 then (c.sec + 1) % 6 else if kinds.contains 3 then (c.sec + 5) % 6 else c.sec }

/-- The legs that two vectors set differently. -/
def legsDiffer (v w : Nat) : List Nat := (List.range 3).filter (fun k => (vecDuty v).getD k 0 != (vecDuty w).getD k 0)

/-- The earliest time at or after `t` at which a change from `v` to `w` keeps the dwell of every leg it alters (R203). -/
def Sched.dwellTo (c : Sched) (b : Bands) (w : Nat) (t : Int) : Int :=
  (legsDiffer c.vec w).foldl (fun t k => max t (c.legs.getD k 0 + b.dwell.getD k 0)) t

/-- The vector changes at the time reached. -/
def Sched.change (c : Sched) (w : Nat) : Sched :=
  { c with legs := (List.range 3).map (fun k => if (legsDiffer c.vec w).contains k then c.at_ else c.legs.getD k 0),
           vec := w, inForce := c.inForce ++ [(c.at_, w)] }

/-- Does c_T ask for a torque slope that no active vector of the table gives in the sector (R215)? -/
def State.vlimNow (s : State) (m : MotPar) (c : Sched) (ct0 : Int) : Bool :=
  c.ct != 0 && c.ct == ct0 &&
    [true, false].all (fun cf => decide ((s.slopes m c.x (m.volt (vecDuty (tableVec c.sec cf c.ct c.vec)))).dT * c.ct ≤ 0))

/-- Predict forward to the horizon: up to `k` events (R200 step 4, R201-R203). -/
def State.predict (s : State) (m : MotPar) (b : Bands) (ct0 : Int) : Nat → Sched → Sched
  | 0, c =>
    if (c.ahead b (s.slopes m c.x (m.volt (vecDuty c.vec)))).any (fun e => decide (c.at_ + e.1 ≤ b.hor)) then { c with lost := c.lost + 1 } else c
  | k + 1, c =>
    let c := { c with vlim := c.vlim && s.vlimNow m c ct0 }
    let sl := s.slopes m c.x (m.volt (vecDuty c.vec))
    let evs := c.ahead b sl
    match (evs.map (fun e => e.1)).min? with
    | none => c
    | some dt =>
      if b.hor < c.at_ + dt then c
      else
        let kinds := (evs.filter (fun e => e.1 == dt)).map (fun e => e.2)
        let c : Sched := { c with x := c.x.step sl dt, at_ := c.at_ + dt }
        let c := c.take b kinds
        let v := tableVec c.sec c.cf c.ct c.vec
        if v = c.vec then s.predict m b ct0 k c
        else if 2 ≤ c.ch.length then { c with lost := c.lost + 1 }
        else
          let t := c.dwellTo b v c.at_
          let c := { c with x := c.x.step sl (t - c.at_), at_ := t, moved := c.moved + if c.at_ < t then 1 else 0 }
          let c := c.change v
          s.predict m b ct0 k { c with ch := c.ch ++ [(t, v)] }

/-- The dwell of a leg: TDEAD + TMINP, declared or, at home, of PGN_LEGl (R203, R232). -/
def State.dwellOf (s : State) (n k : Nat) : Int :=
  if s.axTether n = 24 then
    let r := rPGN_LEG (s.homeLeg (s.axCh n) k)
    (s.wfld r fPGN_LEG_TDEAD + s.wfld r fPGN_LEG_TMINP : Nat) * 40
  else let d := (s.gd (s.axGon n)).ident; (idTDEAD d + idTMINP d : Nat) * 16

/-- The last change of a leg at or before a time, as an offset; none known: long before. -/
def lastChange (l : List (Int × List Nat)) (k : Nat) (t : Int) : Int :=
  (((l.zip (l.drop 1)).filter (fun e => decide (e.2.1 ≤ t) && e.1.2.getD k 0 != e.2.2.getD k 0)).getLast?.map (fun e => e.2.1)).getD (-(2 ^ 40))

/-- The vector that on-times of 0 and 1 spell. -/
def dutyVec (d : List Nat) : Nat := ((List.range 8).find? (fun v => vecDuty v == d)).getD 0

/-- Steps 2 to 4 of R200: the state at t_a, V0, and the schedule to the horizon; and the sector at t_a. -/
def State.schedule (s : State) (i : LawIn) (ct : Int) (cf : Bool) : Sched × Nat :=
  let n := i.n
  let m := s.motPar n
  let a := (s.ax n).mot
  let ta := tdiff i.ta i.tk
  let x := s.motorRun m (a.pred m) (a.between i.ts i.ta)
  let x := { x with torque := m.torque x.psi x.i, mag := x.psi.mag, ang := x.psi.angle }
  let b : Bands := { tref := fromQ (s.ax n).tref m.tfs, psiRef := m.psiRef, ht := roundDiv (m.tfs * s.wfld (rTQ_HYST n) fTQ_HYST_HT) 65536,
                     hf := roundDiv (m.psiRef * s.wfld (rTQ_HYST n) fTQ_HYST_HF) 65536, hor := ta + s.axPeriod n,
                     dwell := (List.range 3).map (fun k => s.dwellOf n k) }
  let line := a.applied.map (fun e => (tdiff e.1 i.tk, e.2))
  let ct := torqueComp ct (b.tref - x.torque) b.ht
  let cf := fluxComp cf (b.psiRef - x.mag) b.hf
  let sec := sectorOf (x.ang / 65536).toNat
  let cur := dutyVec (a.dutyAt i.ta)
  let c : Sched := { ct := ct, cf := cf, sec := sec, vec := cur, x := x, at_ := ta, legs := (List.range 3).map (fun k => lastChange line k ta) }
  let v0 := tableVec sec cf ct cur
  let t0 := c.dwellTo b v0 ta
  let c := { c with x := x.step (s.slopes m x (m.volt (vecDuty cur))) (t0 - ta), at_ := t0 }
  (s.predict m b ct 6 (if v0 = cur then { c with inForce := [(ta, v0)] } else c.change v0), sec)

/-- Keep the schedule of the record just made as what is predicted to be applied; the older time line is kept for as long as a dwell may ask. -/
def State.setPlan (s : State) (i : LawIn) (l : List (FTime × List Nat)) : State :=
  let keep := (List.range 3).foldl (fun t k => max t (s.dwellOf i.n k)) (2 * (s.axPeriod i.n : Int))
  s.updAx i.n (fun a => { a with mot := { a.mot with
    line := (a.mot.applied.zip (a.mot.applied.drop 1 ++ [(i.ts, [])])).filterMap (fun e => if tdiff i.ts e.2.1 ≤ keep then some e.1 else none), plan := l } })

/-! ### Placement of the samples (R207, R208) -/

/-- TSET and TQUANT of the axis's gondola, in field-time units (R93, R124, R207). -/
def State.setTimes (s : State) (n : Nat) : Int × Int :=
  if s.axTether n = 24 then (180 * 16, 40) else let d := (s.gd (s.axGon n)).ident; ((idTSET d : Int) * 16, idTQUANT d)

/-- Dead time of a leg as the device takes it (R207, R232). -/
def State.deadOf (s : State) (n k : Nat) : Int :=
  if s.axTether n = 24 then (s.wfld (rPGN_LEG (s.homeLeg (s.axCh n) k)) fPGN_LEG_TDEAD : Int) * 40 else (idTDEAD (s.gd (s.axGon n)).ident : Int) * 16

/-- The spans between changes: start, end, and the vector in force. -/
def spans (hor : Int) : List (Int × Nat) → List (Int × Int × Nat)
  | [] => []
  | [(t, v)] => [(t, hor, v)]
  | (t, v) :: (t', v') :: r => (t, t', v) :: spans hor ((t', v') :: r)

/-- The earliest valid instant at or after `lo` in the spans whose vector passes a test, as an offset rounded up to 0.25 ns from `t1`. -/
def placeIn (dead : Int) (set_ : Int × Int) (t1 lo : Int) (p : Nat → Bool) : List (Int × Int × Nat) → Option (Int × Nat)
  | [] => none
  | (a, e, v) :: r =>
    let t := t1 + (max lo (a + dead + set_.1) - t1 + 3) / 4 * 4
    if p v ∧ t + set_.2 ≤ e then some (t, v) else placeIn dead set_ t1 lo p r

/-- NSMP, S1 and S2 for the next tick (R208), from the schedule and the time line before it. -/
def State.placeLaw (s : State) (i : LawIn) (c : Sched) (hor : Int) : Nat × Nat × Nat :=
  let n := i.n
  let t1 : Int := s.axPeriod n
  let most := t1 + (s.wfld (rAXC_SMP n) fAXC_SMP_SOFF : Int) * 40
  let before := ((s.ax n).mot.applied.filter (fun e => decide (tdiff e.1 i.tk < (c.inForce.head?.map (fun e => e.1)).getD 0))).map
    (fun e => (tdiff e.1 i.tk, dutyVec e.2))
  let sp := spans hor (before ++ c.inForce)
  let dead := (List.range 3).foldl (fun t k => max t (s.deadOf n k)) 0
  let st := s.setTimes n
  let off := fun (t : Int) => ((t - t1) / 4).toNat
  if !s.singleShunt n then
    match placeIn dead st t1 t1 (fun _ => true) sp with
    | some e => if e.1 ≤ most then (1, off e.1, 0) else (0, 0, 0)
    | none => (0, 0, 0)
  else
    let active := fun v => decide (1 ≤ v ∧ v ≤ 6)
    match placeIn dead st t1 t1 active sp with
    | none => (0, 0, 0)
    | some e =>
      let spc : Int := if s.axTether n = 24 then 340 * 16 else (idTSPC (s.gd (s.axGon n)).ident : Int) * 16
      let ph := fun v => (shuntPhase ((vecDuty v).map (fun x => x == 65536))).map (fun p => p.1)
      match placeIn dead st t1 (e.1 + spc) (fun v => active v && ph v != ph e.2) sp with
      | some f => if e.1 ≤ most ∧ f.1 ≤ most then (2, off e.1, off f.1) else (0, 0, 0)
      | none => (0, 0, 0)

end Sys2Proof.Machine
end

