-- ==== Sys2Proof/Machine/WorkItem.lean ====
section
/-!
DEFINITION. The stock laws (06_axis_loops R160-R162, R174-R180; 07_torque_control R196-R222; 08_pulse_generation R225-R228; 09_profiles_bridle
R276-R279): what a work item of the stock lane image does.
-/
namespace Sys2Proof.Machine

open Sys2Proof

/-! ### Compensators (R177-R179) -/

/-- A signed 24-bit value. -/
def s24 (x : Nat) : Int := (BitVec.ofNat 24 x).toInt

/-- One run of loop k (R177, R178) between limits: its new state and whether it froze. -/
def State.compRun (s : State) (n k : Nat) (st : LoopSt) (e lo hi : Int) : LoopSt × Bool :=
  let cfg := rAXC_L_CFG n k
  let three := s.wflag cfg fAXC_L_CFG_ORDER
  let integ := s.wflag cfg fAXC_L_CFG_INTEG
  let b := fun i => s24 (s.wfld (rAXC_L_B n k i) fAXC_L_B_COEF)
  let c := fun i => s24 (s.wfld (rAXC_L_C n k i) fAXC_L_C_COEF)
  let eo := fun i => (st.e.getD i 0).toInt
  let wo := fun i => (st.w.getD i 0).toInt
  let acc := b 0 * e + b 1 * eo 0 + b 2 * eo 1 + (if three then b 3 * eo 2 else 0)
  let scl := sclOf (BitVec.ofNat 5 (s.wfld cfg fAXC_L_CFG_SCALE)).toInt
  let v := (scaler scl (BitVec.ofInt 56 acc)).1
  let two := three || !integ
  let acc2 := v * 2 ^ 23 + c 0 * wo 0 + (if two then c 1 * wo 1 else 0) + (if three && !integ then c 2 * wo 2 else 0)
  let wn := (scaler 0 (BitVec.ofInt 56 acc2)).1
  let yr := if integ then st.s.toInt + wn else wn
  let y := min (max yr lo) hi
  let freeze := decide (hi < yr ∧ 0 < e) || decide (yr < lo ∧ e < 0)
  let q := fun (x : Int) => BitVec.ofInt 24 x
  ({ e := [q e, st.e.getD 0 0, st.e.getD 1 0], w := [q (if integ then wn else y), st.w.getD 0 0, st.w.getD 1 0]
     s := if integ && !freeze then q y else st.s, y := q y }, freeze)

/-- The output limits of loop k. -/
def State.yMax (s : State) (n k : Nat) : Int := s24 (s.wfld (rAXC_L_YMAX n k) fAXC_L_YMAX_YMAX)
def State.yMin (s : State) (n k : Nat) : Int := s24 (s.wfld (rAXC_L_YMIN n k) fAXC_L_YMIN_YMIN)

/-- Limits under the regenerative clamp, by the sign of a quantity (R318). -/
def clampBy (on : Bool) (sign lo hi : Int) : Int × Int :=
  if !on then (lo, hi) else if 0 < sign then (max lo 0, hi) else if sign < 0 then (lo, min hi 0) else (lo, hi)

/-- An error in 2^-16 units as Q1.23 of 2^esc units (R179). -/
def errQ (d : Int) (esc : Nat) : Int := satInt 24 (roundDiv (d * 128) (2 ^ esc))

def State.kff (s : State) (n k : Nat) : Int := s.wfld (rAXC_L_FF n k) fAXC_L_FF_KFF
def State.esc (s : State) (n k : Nat) : Nat := s.wfld (rAXC_L_CFG n k) fAXC_L_CFG_ESC
def State.osc (s : State) (n k : Nat) : Nat := s.wfld (rAXC_L_CFG n k) fAXC_L_CFG_OSC

/-- The actual position that loop 0 uses (R174, R176). -/
def State.lawPos (s : State) (i : LawIn) : Int :=
  let p := (s.actPos i.n).toInt
  if i.missing then p + roundDiv ((s.actSpd i.n).toInt * tdiff i.tk (s.ax i.n).ts) (unitHz * 65536) * 65536 else p

/-- p_set(t_s) − p_act(t_s), reduced on a modulo axis (R179). -/
def State.posErr (s : State) (i : LawIn) : Int :=
  let d := (s.spAt i.n i.ts).1.toInt - s.lawPos i
  if s.fbModulo i.n then centred d (s.fbM i.n * 65536) else d

/-- Cause FOLLOW at a run of the position loop or profile (R186). -/
def State.followCheck (s : State) (i : LawIn) : State :=
  let fe := s.wfld (rAXC_FEMAX i.n) fAXC_FEMAX_FEMAX
  if fe ≠ 0 ∧ s.axCmode i.n ≠ 2 ∧ !s.fbOwn i.n ∧ fe * 65536 < (s.posErr i).natAbs then
    let stop := s.actStop i.n fAXC_FLT_ACT_FOLLOW
    if (s.ax i.n).causes.contains (.fault fcFOLLOW stop) then s else s.faultCause i.n fcFOLLOW stop
  else s

/-- Loop 0 (R179): the velocity reference. -/
def State.loop0 (s : State) (i : LawIn) : State :=
  let n := i.n
  let r := s.compRun n 0 (s.ax n).l0 (errQ (s.posErr i) (s.esc n 0)) (s.yMin n 0) (s.yMax n 0)
  let vref := satInt 48 (roundDiv (r.1.y.toInt * 2 ^ s.osc n 0 * 256 + s.kff n 0 * (s.spAt n i.ta).2.1.toInt) 32768)
  let s := s.updAx n (fun a => { a with l0 := r.1, vref := BitVec.ofInt 64 vref })
  if r.2 then s.raise (rAXC_STAT n) fAXC_STAT_CLAMP0 else s

/-- The sign that the clamp of a TQ axis goes by (R318). -/
def State.clampSign (s : State) (n : Nat) : Int := if s.axType n ≠ tyTQ then 0 else s.omegaNow n

/-- Loop 1 (R179): the torque or current reference. -/
def State.loop1 (s : State) (i : LawIn) : State :=
  let n := i.n
  let lim := clampBy (s.clamped n && s.axType n == tyTQ) (s.clampSign n) (s.yMin n 1) (s.yMax n 1)
  let r := s.compRun n 1 (s.ax n).l1 (errQ ((s.ax n).vref.toInt - (s.actSpd n).toInt) (s.esc n 1)) lim.1 lim.2
  let sc : Int := 2 ^ (8 + s.osc n 1)
  let tref := satInt 24 (roundDiv (r.1.y.toInt * sc + s.kff n 1 * (s.spAt n i.ta).2.2.toInt) sc)
  let s := s.updAx n (fun a => { a with l1 := r.1, tref := BitVec.ofInt 24 tref })
  if r.2 then s.raise (rAXC_STAT n) fAXC_STAT_CLAMP1 else s

/-- The outer loops of TQ and CL axes (R160-R162, R179). In CMODE 0b10 the streamed value is the reference. -/
def State.outerLoops (s : State) (i : LawIn) : State :=
  let n := i.n
  let m := s.axCmode n
  if m = 2 then
    let lim := clampBy (s.clamped n && s.axType n == tyTQ) (s.clampSign n) (-(2 ^ 23)) (2 ^ 23 - 1)
    s.updAx n (fun a => { a with tref := BitVec.ofInt 24 (min (max (satInt 24 a.gen.ref.toInt) lim.1) lim.2) })
  else
    let s := if m = 0 then (if divides (s.axPdiv n) i.k then s.loop0 i else s)
      else s.updAx n (fun a => { a with vref := (s.spAt n i.ts).2.1 })
    if divides (s.axVdiv n) i.k then s.loop1 i else s

/-! ### Coils (R227, R279) -/

/-- D(x) of R227 for x = num / den. -/
def duty (num den : Int) : Nat := (min (max (num * 2 ^ 20 / den) 0) 0xFFFFF).toNat

/-- The duties of an output in Q1.23 on a channel of 1 to 4 legs (R227). -/
def coilDuties (legs : Nat) (y : Int) : List Nat :=
  if legs ≤ 1 then [duty y (2 ^ 23), 0, 0, 0]
  else
    let a := duty (2 ^ 23 + y) (2 ^ 24)
    let b := duty (2 ^ 23 - y) (2 ^ 24)
    [a, b, if 3 ≤ legs then a else 0, if 4 ≤ legs then b else 0]

/-- The dither of a coil in Q1.23 (R279): triangle or square of the common phase. -/
def State.dither (s : State) (n : Nat) (ta : FTime) : Int :=
  let r := rCL_DITH n
  if !s.wflag r fCL_DITH_DEN then 0
  else
    let f : Int := max 1 (s.wfld r fCL_DITH_DFREQ)
    let ph := (tdiff ta s.time.torg * f) % unitHz
    let amp : Int := s.wfld r fCL_DITH_DAMP * 2048
    if s.wflag r fCL_DITH_DSHAPE then (if 2 * ph < unitHz then amp else -amp)
    else roundDiv (amp * (unitHz - 4 * ((2 * ph - unitHz).natAbs : Int) / 2)) unitHz

/-- The least PERIOD a device sends to a gondola (R228). -/
def State.leastPeriod (s : State) (n : Nat) : Nat := max 4000 (32 * (if s.axTether n = 24 then 40 else idTQUANT (s.gd (s.axGon n)).ident))

/-- A PWM record of an axis with the carrier of PGN_An_CFG (R225, R228): CON and COFF give way to centre-aligned where the type or the legs
ask it. -/
def State.pwmOf (s : State) (n carrier : Nat) (upd carry : Bool) (period : Nat) (d : List Nat) : State × BitVec 128 :=
  let p := max period (s.leastPeriod n)
  let s := if period < p then s.raise (rPGN_STAT n) fPGN_STAT_PLIM else s
  (s, pwmRec (s.axCh n) carrier upd carry p (d.getD 0 0) (d.getD 1 0) (d.getD 2 0) (d.getD 3 0))

/-- The PWM record of a law's duties. -/
def State.lawPwm (s : State) (n : Nat) (d : List Nat) : State × BitVec 128 :=
  let c := rPGN_CFG n
  s.pwmOf n (s.wfld c fPGN_CFG_CARRIER) (s.wflag c fPGN_CFG_UPD) (s.wflag c fPGN_CFG_CARRY) (s.wfld (rPGN_PER n) fPGN_PER_PERIOD) d

/-- Loop 2 of a coil (R176, R179, R279, R318): without a measurement the last duty stands. -/
def State.loop2 (s : State) (i : LawIn) : State :=
  let n := i.n
  let a := s.ax n
  if i.missing ∨ !recS1OK a.raw then s
  else
    let w := s.dither n i.ta
    let onDuty := s.wflag (rCL_DITH n) fCL_DITH_DTGT
    let iref := if onDuty then a.tref.toInt else satInt 24 (a.tref.toInt + w)
    let im := (recIA a.raw).toInt
    let lim := clampBy (s.clamped n) im (s.yMin n 2) (s.yMax n 2)
    let r := s.compRun n 2 a.l2 (satInt 24 (iref - im)) lim.1 lim.2
    let y := satInt 24 (roundDiv (r.1.y.toInt * 32768 + s.kff n 2 * iref) 32768)
    let y := if onDuty then satInt 24 (y + w) else y
    let c := clampBy (s.clamped n) im (-(2 ^ 23)) (2 ^ 23 - 1)
    let y := min (max y c.1) c.2
    let s := s.updAx n (fun a => { a with l2 := r.1, duty := BitVec.ofInt 24 y })
    if r.2 then s.raise (rAXC_STAT n) fAXC_STAT_CLAMP2 else s

/-- The record of a pushed test pair (R225): zero duties until the first push. -/
def State.testRec (s : State) (n : Nat) : State × BitVec 128 :=
  match (s.ax n).test with
  | none => s.lawPwm n [0, 0, 0, 0]
  | some ws =>
    let c := ws.getD 0 0
    let s := if (s.ax n).testNew then
        ((s.updAx n (fun a => { a with testNew := false })).fset (rPGN_STAT n) fPGN_STAT_TPPEND 0).fset (rPGN_STAT n) fPGN_STAT_TPTICK
          (s.axTick n % 256).toNat
      else s
    s.pwmOf n (bget c fPGN_TCTL_CARRIER) (bget c fPGN_TCTL_UPD != 0) (bget c fPGN_TCTL_CARRY != 0) (ws.getD 1 0).toNat
      ((ws.drop 2).map (fun w => bget w fPGN_TD_D))

/-! ### Steppers (R276-R278) -/

/-- The current of a stepper and its slope, in 2^-28 of IFS (R277, R278): in ALIGN it rises from zero over SARAMP. -/
def State.stAmp (s : State) (n : Nat) (t : FTime) : Int × Int :=
  if s.axState n = xALIGN then
    let top : Int := s.wfld (rST_I n) fST_I_IRUN * 65536
    let ramp : Int := (max 1 (s.wfld (rST_ALIGN n) fST_ALIGN_SARAMP) * 1000 * usUnits : Nat)
    let x := max 0 (tdiff t (s.ax n).stageAt)
    if x < ramp then (top * x / ramp, top * unitHz / ramp) else (top, 0)
  else s.stCurrent n t

/-- A phase voltage in Q1.23 of VBUS from its volts, limited to one, and whether the limit acted (R276); under the regenerative clamp zero
against the sign of the model current (R318). -/
def State.stPhase (s : State) (n k : Nat) (v cur : Int) : Int × Bool :=
  let y := s.ratio k v (2 ^ 23) (roundDiv ((s.axVbus n : Int) * fx1) 64)
  let l := max (-(2 ^ 23)) (min (2 ^ 23) y)
  (if s.clamped n ∧ l * cur < 0 then 0 else l, decide (l ≠ y))

/-- The stepper law (R276): the electrical angle of the profile at t_a and the voltages of the two phases. -/
def State.stepperRec (s : State) (i : LawIn) : State × BitVec 128 :=
  let n := i.n
  let sp := s.spAt n i.ta
  let cpe : Int := max 4 (s.wfld (rST_CFG n) fST_CFG_CPE)
  let th := wrapTurn (fx1 * sp.1.toInt / (65536 * cpe) + s.wfld (rST_ANGOFF n) fST_ANGOFF_ANGOFF * 65536)
  let w := roundDiv (2 * pi20 * sp.2.1.toInt * 2 ^ 24) (10 ^ 20 * cpe)
  let amp := s.stAmp n i.ta
  let ifs : Int := descIFS (s.axDesc n)
  let cur := roundDiv (amp.1 * ifs * fx1) (1000 * 2 ^ 28)
  let slope := roundDiv (amp.2 * ifs * fx1) (1000 * 2 ^ 28)
  let r := roundDiv ((s.wfld (rST_RL n) fST_RL_RPH : Int) * fx1) 1000
  let l := roundDiv ((s.wfld (rST_RL n) fST_RL_LPH : Int) * fx1) (10 ^ 6)
  let ke := roundDiv ((s.wfld (rST_KE n) fST_KE_KE : Int) * fx1) (10 ^ 6)
  let own := fmul r cur + fmul l slope
  let emf := fmul (fmul l cur + ke) w
  let c := cosOf th
  let d := sinOf th
  let ya := s.stPhase n 0 (fmul own c - fmul emf d) (fmul cur c)
  let yb := s.stPhase n 1 (fmul own d + fmul emf c) (fmul cur d)
  let a := coilDuties 2 ya.1
  let b := coilDuties 2 yb.1
  (s.fsetb (rPRF_STAT n) fPRF_STAT_STVSAT (ya.2 || yb.2)).lawPwm n [a.getD 0 0, a.getD 1 0, b.getD 0 0, b.getD 1 0]

/-! ### The torque law (R200-R215) -/

/-- A skipped measurement of the law of R200 (R209). -/
def State.lawSkip (s : State) (i : LawIn) : State :=
  let r := rTQ_LIVE i.n
  if i.missing then s
  else if s.measuredNow i then s.fset r fTQ_LIVE_SKIPRUN 0
  else ((s.count (rTQ_CNT i.n 0)).raise (rTQ_STAT i.n) fTQ_STAT_SKIPPED).fset r fTQ_LIVE_SKIPRUN (min 15 (s.fget r fTQ_LIVE_SKIPRUN + 1))

/-- The loss evaluation of a measured tick (R216): the run of ticks over threshold, and the speed before it (R217). -/
def State.lossEval (s : State) (i : LawIn) (ovr : Bool) : State :=
  if !s.measuredNow i then s
  else s.updAx i.n (fun a => if ovr then { a with lossRun := a.lossRun + 1 } else { a with lossRun := 0, preW := a.mot.w })

/-- VLIM as it holds in a tick (R215). -/
def State.setVlim (s : State) (n : Nat) (now : Bool) (tk : FTime) : State :=
  let r := rTQ_STAT n
  let was := s.flag r fTQ_STAT_VLIM
  let s := s.fsetb r fTQ_STAT_VLIM now
  if now ∧ !was then (s.raise r fTQ_STAT_VLIMSEEN).axEvent n 0x07 0 tk else s

/-- The snapshot of TQ_EST (R224). -/
def State.tqSnap (s : State) (n : Nat) : State :=
  let a := s.ax n
  let m := a.mot
  let snap := [m.psiA.signExtend 32, m.psiB.signExtend 32, m.torque.signExtend 32, a.tref.signExtend 32, BitVec.ofNat 32 (m.th / 65536 % 2 ^ 24),
    BitVec.ofInt 32 (satInt 32 (roundDiv m.w (2 ^ 32))), BitVec.ofNat 32 (min (2 ^ 23 - 1) (⟨m.iA.toInt, m.iB.toInt⟩ : Vec).mag.toNat), s.rget (rTQ_LIVE n)]
  s.updAx n (fun a => { a with snap := snap })

/-- c_T and c_F as LIVE shows them, and the law's results shown there (R223). -/
def State.liveCt (s : State) (n : Nat) : Int := (BitVec.ofNat 2 (s.fget (rTQ_LIVE n) fTQ_LIVE_CT)).toInt
def State.showLive (s : State) (n : Nat) (sec : Nat) (ct : Int) (cf : Bool) : State :=
  let r := rTQ_LIVE n
  ((s.fset r fTQ_LIVE_SECTOR sec).fset r fTQ_LIVE_CT (BitVec.ofInt 2 ct).toNat).fsetb r fTQ_LIVE_CF cf

/-- The torque law in READY, RUN, STOPPING and HOLD (R200): the VECTOR record. -/
def State.torqueLaw (s : State) (i : LawIn) : State × BitVec 128 :=
  let n := i.n
  let o := (s.lawSkip i).observe i
  let s := o.1.lossEval i o.2
  let c := s.schedule i (s.liveCt n) (s.flag (rTQ_LIVE n) fTQ_LIVE_CF)
  let s := s.setVlim n c.1.vlim i.tk
  let p := s.placeLaw i c.1 (tdiff i.ta i.tk + s.axPeriod n)
  let v0 := (c.1.inForce.head?.map (fun e => e.2)).getD c.1.vec
  let v := fun k => c.1.ch.getD k (0, 0)
  let leg := fun k => if k < c.1.ch.length then vecLegs (v k).2 else 0
  let rec0 := vectorRec (s.axCh n) (vecLegs v0) (leg 0) (leg 1) c.1.ch.length p.1 (v 0).1.toNat (v 1).1.toNat p.2.1 p.2.2
  let s := (s.countN (rTQ_CNT n 1) c.1.lost).countN (rTQ_CNT n 2) c.1.moved
  let s := s.showLive n c.2 c.1.ct c.1.cf
  let s := s.setPlan i (c.1.inForce.map (fun e => (i.tk + BitVec.ofInt 64 e.1, vecDuty e.2)))
  (s.tqSnap n, rec0)

/-! ### SPWM in ALIGN, TEST and CATCH (R210, R211, R219, R220, R222) -/

/-- PERIOD of the SPWM records of an axis (R210). -/
def State.spPeriod (s : State) (n : Nat) : Nat := s.axPeriod n / 2 ^ min 2 (s.wfld (rTQ_CFG n) fTQ_CFG_SPDIV)

/-- The window width W in 2^-16 of PERIOD, rounded up (R210, R207). -/
def State.winSteps (s : State) (n : Nat) : Nat :=
  let units := (((List.range 3).map (fun k => s.deadOf n k)).foldl max 0 + (s.setTimes n).1 + (s.setTimes n).2).toNat
  (units * 65536 + s.spPeriod n - 1) / s.spPeriod n

/-- The shifts of a single-shunt axis, and whether one was limited (R210). -/
def shiftsOf (on : List Nat) (w : Nat) : List Int × Bool :=
  let o := fun k => (on.getD k 0 : Int)
  let l := byOn on
  let a := l.getD 0 0
  let b := l.getD 1 1
  let c := l.getD 2 2
  let w1 := (o a - o b) / 2
  let w2 := (o b - o c) / 2
  let need1 := if w1 < w then (w : Int) - w1 else 0
  let need2 := if w2 < w then (w : Int) - w2 else 0
  let m1 := (65536 - o a) / 2
  let m2 := (65536 - o c) / 2
  ((List.range 3).map (fun k => if k = a then -(min need1 m1) else if k = c then min need2 m2 else 0), decide (m1 < need1) || decide (m2 < need2))

/-- An SPWM record of three on-times (R210), and a skip that R211 counts: SHIFTLIM when a shift of the record before was limited. -/
def State.spwmOf (s : State) (i : LawIn) (on : List Nat) : State × BitVec 128 :=
  let n := i.n
  let sh := if s.singleShunt n then shiftsOf on (s.winSteps n) else ([0, 0, 0], false)
  let s := if !i.missing ∧ !s.measuredNow i then
      let s := s.count (rTQ_CNT n 0)
      if (s.ax n).mot.shLim then s.raise (rTQ_STAT n) fTQ_STAT_SHIFTLIM else s
    else s
  let f := fun k => ((sh.1.getD k 0) % 65536).toNat
  let s := (s.setPlan i [(i.ta, on)]).updAx n (fun a => { a with mot := { a.mot with shLim := sh.2 } })
  (s, spwmRec (s.axCh n) (s.spPeriod n) (on.getD 0 0) (f 0) (on.getD 1 0) (f 1) (on.getD 2 0) (f 2))

/-- Note a measured current: |i| as TQ_EST shows it, the rate at which the vector turns while it is at least CATCHI, and the current for the next
tick (R217, R219, R222). -/
def State.noteCurrent (s : State) (i : LawIn) : State :=
  let n := i.n
  let m := s.motPar n
  match s.measured i with
  | none => s.updAx n (fun a => { a with mot := { a.mot with mAt := none, wCur := none } })
  | some v =>
    let a := (s.ax n).mot
    let old : Vec := ⟨fromQ a.mA m.ifs, fromQ a.mB m.ifs⟩
    let big := s.currentAbove i (s.wfld (rTQ_CATCH n) fTQ_CATCH_CATCHI) false
    let w := match a.mAt with
      | some t => if big ∧ 0 < tdiff i.ts t then some (roundDiv (turnRad (halfTurn (v.angle - old.angle)) * unitHz) (tdiff i.ts t)) else none
      | none => none
    let qa := s.toQ 5 v.a m.ifs
    let qb := s.toQ 5 v.b m.ifs
    s.updAx n (fun a => { a with mot := { a.mot with mA := qa, mB := qb, mAt := some i.ts, wCur := w, iA := qa, iB := qb } })

/-! ### CATCH (R219) -/

/-- Ticks that NCAT carrier periods take. -/
def State.ncatTicks (s : State) (n : Nat) : Nat :=
  let d := 2 ^ min 2 (s.wfld (rTQ_CFG n) fTQ_CFG_SPDIV)
  (max 2 (s.wfld (rTQ_CATCH n) fTQ_CATCH_NCAT) + d - 1) / d

/-- A successful catch: the angle is valid, LOSS and the attempt count clear; under ANGSRC 0b00 ANGOFF takes the verified angle. -/
def State.catchDone (s : State) (n : Nat) : State :=
  let s := if s.angSrc n = 0 then s.setAngoff n (s.angoffFor n ((s.ax n).mot.th / 65536)) else s
  let s := ((s.fset (rAXC_STATE n) fAXC_STATE_ANGVAL 1).fset (rTQ_STAT n) fTQ_STAT_LOSS 0).fset (rTQ_LIVE n) fTQ_LIVE_CATT 0
  if (s.ax n).causes.contains (.done 2) then s else s.cause n (.done 2)

/-- The back-EMF estimate of a measured tick at zero voltage, e = −L · di/dt, with the rotor angle and speed it gives (log entry 129). -/
def State.emfEstimate (s : State) (i : LawIn) (v : Vec) : State :=
  let n := i.n
  let m := s.motPar n
  let a := (s.ax n).mot
  match a.mAt with
  | none => s
  | some t =>
    let dt := tdiff i.ts t
    let old : Vec := ⟨fromQ a.mA m.ifs, fromQ a.mB m.ifs⟩
    let f := fun (x : Int) => if dt ≤ 0 then 0 else -roundDiv (fmul m.lq x * unitHz) dt
    let e : Vec := ⟨f (v.a - old.a), f (v.b - old.b)⟩
    let w := if a.eCnt = 0 ∨ dt ≤ 0 then a.wPll else roundDiv (turnRad (halfTurn (e.angle - (⟨a.eA, a.eB⟩ : Vec).angle)) * unitHz) dt
    s.updAx n (fun x => { x with mot := { x.mot with eA := e.a, eB := e.b, eCnt := a.eCnt + 1, wPll := w, thPll := (wrapTurn (e.angle - fx1 / 4)).toNat } })

/-- The end of the zero-voltage phase: standstill, or synchronise with observer and PLL at the estimates. A value that too few measured ticks have
not given is free (log entry 129). -/
def State.zeroEnd (s : State) (i : LawIn) : State :=
  let n := i.n
  let m := s.motPar n
  let s := s.updAx n (fun a => { a with alignStep := 0, mot := { a.mot with
    eA := if a.mot.eCnt = 0 then (s.free 28).toInt else a.mot.eA, eB := if a.mot.eCnt = 0 then (s.free 29).toInt else a.mot.eB,
    thPll := if a.mot.eCnt = 0 then (wrapTurn ((⟨(s.free 28).toInt, (s.free 29).toInt⟩ : Vec).angle - fx1 / 4)).toNat else a.mot.thPll,
    wPll := if a.mot.eCnt ≤ 1 then (s.free 30).toInt else a.mot.wPll } })
  let a := (s.ax n).mot
  if (⟨a.eA, a.eB⟩ : Vec).mag * 256 < m.vbus * s.wfld (rTQ_CATCH2 n) fTQ_CATCH2_CEMIN then
    (s.updAx n (fun a => { a with mot := { a.mot with wPll := 0 } })).setStage n lsSTAND s.now
  else
    let psi := (⟨m.psim, 0⟩ : Vec).rot a.thPll
    let th := (wrapTurn (a.thPll + radTurn (rateFor a.wPll (s.axPeriod n)))).toNat
    let a := { a with psiA := s.toQ 3 psi.a m.psim, psiB := s.toQ 3 psi.b m.psim, at_ := some i.ts, thPll := th }
    (s.updAx n (fun x => { x with mot := a })).setStage n lsSYNC s.now

/-- The on-times of zero voltage (R219). -/
def zeroOn : List Nat := [0x8000, 0x8000, 0x8000]

/-- One tick of a step of the alignment (R220, R221): a dq regulator that gives the current a first-order response of bandwidth ABW (log entry 130);
the end of the ramp and the hold are judged in measured ticks. -/
def State.alignTick (s : State) (i : LawIn) : State × List Nat :=
  let n := i.n
  let m := s.motPar n
  let a := s.ax n
  let th := s.alignAngle n
  let ms := (s.rampMs n * 1000 * usUnits : Nat)
  let ai := roundDiv (m.ifs * s.wfld (rTQ_ALIGN n) fTQ_ALIGN_AI) 4096
  let ref := ai * min (ms : Int) (max 0 (tdiff i.ta a.stageAt)) / ms
  let cur : Vec := (s.measured i).getD ⟨fromQ a.mot.iA m.ifs, fromQ a.mot.iB m.ifs⟩
  let x := cur.rot (-th)
  let bw : Int := s.wfld (rTQ_ALIGN2 n) fTQ_ALIGN2_ABW
  let u : Vec := (⟨fmul m.rs x.a + bw * fmul m.ld (ref - x.a), fmul m.rs x.b - bw * fmul m.lq x.b⟩ : Vec).rot th
  let s' := if !s.measuredNow i ∨ !reached i.ts (afterMs a.stageAt (s.rampMs n)) then s
    else match a.mot.holdX with
      | none => if 4 * (x.a - ai).natAbs ≤ ai.natAbs then s.updAx n (fun a => { a with mot := { a.mot with holdX := some a.x } }) else s.alignFail n
      | some x0 => if s.holdStood n x0 then s else s.alignFail n
  (s', s.onOf m u)

/-- One tick of a CATCH attempt (R219, R211): a decision that needs current waits for a measured tick. -/
def State.catchTick (s : State) (i : LawIn) : State × List Nat :=
  let n := i.n
  let m := s.motPar n
  let st := s.lstage n
  let step := fun (s : State) => s.updAx n (fun a => { a with stageCnt := a.stageCnt + 1 })
  let ovr := s.currentAbove i (s.wfld (rTQ_CATCH n) fTQ_CATCH_CIMAX) true
  if st = lsZERO then
    (match s.measured i with
      | none => s
      | some v =>
        if ovr then s.catchFail n
        else
          let s := (s.emfEstimate i v).noteCurrent i
          if s.ncatTicks n ≤ (s.ax n).stageCnt + 1 then s.zeroEnd i else step s, zeroOn)
  else if st = lsSTAND then
    let r := s.alignTick i
    (r.1.noteCurrent i, r.2)
  else if st = lsSYNC then
    let meas := s.measuredNow i
    let o := (s.observe i).1
    let a := (o.ax n).mot
    let u := (⟨0, fmul a.wPll m.psim⟩ : Vec).rot (a.th + radTurn (rateFor a.wPll (tdiff i.ta i.ts)))
    (if !meas then o else if ovr then o.catchFail n else if 8 ≤ (o.ax n).stageCnt + 1 then (o.freshComparators n).setStage n lsVERIFY s.now else step o, o.onOf m u)
  else if st = lsVERIFY then
    let meas := s.measuredNow i
    let o := s.observe i
    let c := o.1.schedule i (o.1.liveCt n) (o.1.flag (rTQ_LIVE n) fTQ_LIVE_CF)
    let v0 := (c.1.inForce.head?.map (fun e => e.2)).getD c.1.vec
    let s1 := o.1.showLive n c.2 c.1.ct c.1.cf
    (if !meas then s1
      else if o.2 then s1.catchFail n
      else if max 1 (s.wfld (rTQ_CATCH n) fTQ_CATCH_NVER) ≤ (s.ax n).stageCnt + 1 then (step s1).catchDone n
      else step s1, (vecDuty v0).map (fun x => min x 65535))
  else (s, zeroOn)

/-- The on-times of TEST (R222): TV × 2/3 × VBUS / 4,096, turning at TF Hz from the start. -/
def State.testOn (s : State) (i : LawIn) : List Nat :=
  let m := s.motPar i.n
  let amp := roundDiv (2 * m.vbus * s.wfld (rTQ_TST i.n) fTQ_TST_TV) (3 * 4096)
  let th := (s.wfld (rTQ_TST i.n) fTQ_TST_TF : Int) * fx1 * tdiff i.ta (s.ax i.n).stageAt / unitHz
  s.onOf m ((⟨amp, 0⟩ : Vec).rot (wrapTurn th))

/-- A TQ axis in ALIGN, TEST or CATCH; between two attempts of CATCH it sends OFF (R219). -/
def State.spwmLaw (s : State) (i : LawIn) : State × BitVec 128 :=
  let x := s.axState i.n
  if x = xCATCH ∧ s.lstage i.n = lsOFF then ((s.noteCurrent i).tqSnap i.n, offRec (s.axCh i.n))
  else
    let r := if x = xCATCH then s.catchTick i
      else if x = xALIGN then let r := s.alignTick i; (r.1.noteCurrent i, r.2)
      else (s.noteCurrent i, s.testOn i)
    let o := r.1.spwmOf i r.2
    (o.1.tqSnap i.n, o.2)

/-! ### The loss reaction (R217) -/

/-- A condition that must hold in two measured ticks in a row: act at the second. -/
def State.seenTwice (s : State) (n : Nat) (hit : Bool) (act : State → State) : State :=
  if !hit then s.updAx n (fun a => { a with stageCnt := 0 })
  else if 1 ≤ (s.ax n).stageCnt then act s
  else s.updAx n (fun a => { a with stageCnt := a.stageCnt + 1 })

/-- One tick of the reaction: a change of stage waits for the next boundary, and so does the end. Where no estimate or no measured current stands,
nothing is decided. -/
def State.reactTick (s : State) (i : LawIn) : State :=
  let n := i.n
  let s := s.noteCurrent i
  let rel := s.wfld (rTQ_LOSS n) fTQ_LOSS_REL
  if s.lstage n = lsSHORT then
    match if s.angSrc n ≠ 2 then some (s.omegaFb n) else if s.singleShunt n then none else (s.ax n).mot.wCur with
    | none => s
    | some w => s.seenTwice n (!s.emfAbove n w rel) (fun s => s.updAx n (fun a => { a with react := lsOFF }))
  else if !s.measuredNow i then s
  else if s.currentAbove i (s.wfld (rTQ_CATCH n) fTQ_CATCH_CATCHI) false then
    if s.wflag (rTQ_CFG n) fTQ_CFG_SHORTEN then s.updAx n (fun a => { a with react := lsSHORT })
    else s.updAx n (fun a => { a with stageCnt := 0 })
  else if s.axState n = xFAULT then s
  else s.seenTwice n true (fun s => if (s.ax n).causes.contains (.done 4) then s else s.cause n (.done 4))

/-- Outside the law of R200 VLIM does not hold, and the next run of the law has none before it (R215). -/
def State.lawIdle (s : State) (i : LawIn) : State :=
  (s.setVlim i.n false i.tk).updAx i.n (fun a => { a with mot := { a.mot with at_ := none } })

/-! ### One axis and one work item (R160-R166, R225) -/

/-- The streamed reference of CMODE 0b10: the point with the latest time reached (R380). -/
def Gen.torqueRef (g : Gen) (tk : FTime) : Gen :=
  let due := g.stream.takeWhile (fun e => reached tk e.1)
  match due.getLast? with
  | none => g
  | some e => { g with ref := e.2, stream := g.stream.drop due.length }

/-- The state after the profile of the tick: it runs at ticks that PDIV divides, and is suspended by a loss reaction (R162, R218). -/
def State.lawProfile (s : State) (i : LawIn) : State :=
  let s := if s.axCmode i.n = 2 then s.updGen i.n (fun g => g.torqueRef i.tk) else s
  if divides (s.axPdiv i.n) i.k && !(energised (s.axState i.n) && s.reacting i.n && s.axState i.n != xCATCH) then
    let s := s.profileRun i.n i.tk
    if lawState (s.axState i.n) then s.followCheck i else s
  else s

/-- The cam points that the profile of an axis takes are read from shared SRAM (R26): does every word come without an error flag? -/
def State.camFetch (s : State) (n : Nat) (tk : FTime) : State × Bool :=
  let b := (s.ax n).gen.br
  match b.cam with
  | none => (s, true)
  | some c =>
    if !b.engaged then (s, true)
    else (s.camPlaces c (s.brAdvance b tk).1.camU).foldl (fun r a =>
      let x := r.1.sramCheck a
      (x.1, r.2 && x.2)) (s, true)

/-- The law of an axis by its type and state, and the record it commits. -/
def State.axisRun (s : State) (l : Nat) (e : LEvent) (n : Nat) : State :=
  let a := s.ax n
  let missing := e.subst || !a.fresh
  let ts := if missing then e.tk else a.ts
  let i : LawIn := { n := n, tk := e.tk, ts := ts, ta := ts + BitVec.ofNat 64 a.dhat, k := tickAt (s.tickOrigin n) (s.axPeriod n) e.tk, missing := missing }
  let s := s.lawProfile i
  let x := s.axState n
  let out := fun (r : State × BitVec 128) => (r.1.drew 32).outCommit l n r.2
  match s.axType n with
  | 0 =>
    if s.reacting n ∧ x ≠ xCATCH then
      out (((s.reactTick i).lawIdle i).tqSnap n, if s.lstage n = lsSHORT then shortRec (s.axCh n) else offRec (s.axCh n))
    else if lawState x then out ((s.outerLoops i).torqueLaw i)
    else if x = xCATCH then out ((s.setVlim n false e.tk).spwmLaw i)
    else if x = xALIGN ∨ x = xTEST then out ((s.lawIdle i).spwmLaw i)
    else out ((s.lawIdle i).tqSnap n, offRec (s.axCh n))
  | 1 =>
    if lawState x ∨ x = xALIGN then out (s.stepperRec i)
    else if x = xTEST then out (s.testRec n)
    else out (s, offRec (s.axCh n))
  | 2 =>
    if lawState x then
      let s := (s.outerLoops i).loop2 i
      out (s.lawPwm n (coilDuties (descLEGS (s.axDesc n)) (s.ax n).duty.toInt))
    else if x = xTEST then out (s.testRec n)
    else out (s, offRec (s.axCh n))
  | _ => s

/-- The law of an axis, once the words that it reads from shared SRAM have come; a double-bit error among them traps the lane (R26, R499). -/
def State.axisLaw (s : State) (l : Nat) (e : LEvent) (n : Nat) : State :=
  if (s.ln l).trapped then s
  else
    let r := if divides (s.axPdiv n) (tickAt (s.tickOrigin n) (s.axPeriod n) e.tk) then s.camFetch n e.tk else (s, true)
    if r.2 then r.1.axisRun l e n else r.1.trapLane l tcMEM

/-- A work item of the stock image: the laws of every axis that the event concerns, in record order (R166, R355). -/
def State.stockItem (s : State) (l : Nat) (tick : Bool) : State :=
  match (s.ln l).evq with
  | [] => s
  | e :: _ =>
    if !s.laneRuns l ∨ (s.ln l).imgKind ≠ 1 ∨ (s.ln l).work.isSome ∨ !(s.ln l).atBoundary ∨ e.tick ≠ tick then s
    else
      let s := s.enterWork l
      ((s.evAxes l e).foldl (fun s n => s.axisLaw l e n) s).endWork l

/-- WORK_ITEM_FRAME (R166). -/
def execWorkItemFrame (lane : Fin 16) (s : State) : Out := .next (s.stockItem lane.val false)

/-- WORK_ITEM_TICK (R166). -/
def execWorkItemTick (lane : Fin 16) (s : State) : Out := .next (s.stockItem lane.val true)

end Sys2Proof.Machine
end

