-- ==== Sys2Proof/Machine/TickUp.lean ====
section
/-! DEFINITION. Tick frames from the gondolas: delivery of their records (R16, R60, R61, R89), the delay measurement (R171-R175),
substitute events (R176, R354), the loss of a gondola (R87); and the start of a non-tick frame (R67, R68, R77, R292). -/
namespace Sys2Proof.Machine

/-! ### The tick plan of a gondola -/

/-- The ballast channels that the enabled groups hold on a gondola. -/
def State.balChs (s : State) (k : Nat) : List (Nat × Nat) :=
  (idx 32 s.busOn).filterMap (fun b => match s.busBal b with
    | some e => if e.1 = k then some (b, e.2) else none
    | none => none)

/-- The channels of a gondola in the committed tick plan (R60). -/
def State.planChs (s : State) (k : Nat) : List Nat := (s.gonAxes k).map s.axCh ++ (s.balChs k).map (fun e => e.2)

/-- The channels due in the tick that starts at `tk`. -/
def State.dueChs (s : State) (k : Nat) (tk : FTime) : List Nat :=
  ((s.gonAxes k).filter (fun n => s.dueAt n tk)).map s.axCh ++ (s.balChs k).map (fun e => e.2)

/-- The tick period of the frames of a tether and the origin of its ticks (R163). -/
def State.framePeriod (s : State) (t : Nat) : Nat := classPeriod ((s.tetherClass t).getD 0)
def State.frameOrigin (s : State) (t : Nat) : FTime := s.time.torg + BitVec.ofNat 64 (s.tphase (s.tetherKey t))

/-- The latest tick of a tether with the given SEQ (R57). -/
def State.upTickOf (s : State) (t : Nat) (seq : BitVec 8) : Int :=
  let k := tickAt (s.frameOrigin t) (s.framePeriod t) s.now
  k - (k - seq.toNat) % 256

/-- Open the tick of a gondola's downstream frame (R17): the records it waits for; those of axes on a trapped lane are OFF (R358), and a
ballast channel whose voltage another gondola senses takes the record in force. -/
def State.openTick (s : State) (k : Nat) (tk : FTime) (j : Int) : State :=
  let d := s.gd k
  if d.upTick = some (BitVec.ofInt 64 j) then s
  else
    let due := s.dueChs k tk
    let off : Tbl (Option (BitVec 128)) := ((s.gonAxes k).filter (fun n => due.contains (s.axCh n) && (s.ln (s.axLane n)).trapped)).foldl
      (fun m n => tset none m (s.axCh n) (some (offRec (s.axCh n)))) []
    let s := s.setGd k { d with upTick := some (BitVec.ofInt 64 j), due := due, recs := off, collecting := true, ready := false,
                                got := false, subst := [] }
    let p := if 24 * 64 ≤ k then 24 else s.homePort (k / 64) (k % 64)
    let s := s.updPort p (fun p => { p with ready := p.ready.filter (fun x => x != k) })
    let s := (s.balChs k).foldl (fun s e => if s.senseKey e.1 = k then s else s.balCommit e.1) s
    s.frameCheck k

/-! ### The sample instant and the delay (R171-R175) -/

/-- t_s of a record (R171). -/
def State.sampleAt (s : State) (k : Nat) (tk : FTime) (r : BitVec 128) : FTime :=
  if recS1OK r then tk + BitVec.ofNat 64 (4 * (s.smpOf k (recCH r) tk).1) else tk

/-- One measurement in the window (R172). -/
def DlyWin.take (w : DlyWin) (d c : Nat) : DlyWin :=
  { dmin := if w.n = 0 then d else min w.dmin d, dmax := max w.dmax d, dsum := w.dsum + d, cmax := max w.cmax c, n := w.n + 1 }

/-- Ticks of a window (R172): WIN is 4 to 16. -/
def State.dlyWin (s : State) (n : Nat) : Nat := 2 ^ min 16 (max 4 (s.wfld (rAXC_DLY n) fAXC_DLY_WIN))

/-- The predicted delay (R173). -/
def Axis.predicted (a : Axis) (dsel d : Nat) : Nat :=
  if dsel = 0 ∨ !a.anyClosed then d else if dsel = 1 then a.closed.dsum / max 1 a.closed.n else a.closed.dmax

/-- Take a measurement (R172, R173). -/
def State.takeDelay (s : State) (n d c : Nat) : State :=
  let size := s.dlyWin n
  let dsel := s.wfld (rAXC_DLY n) fAXC_DLY_DSEL
  s.updAx n (fun a =>
    let w := a.win.take d c
    let a := if size ≤ w.n then { a with closed := w, anyClosed := true, winNo := a.winNo + 1, win := {} } else { a with win := w }
    { a with d := d, dhat := a.predicted dsel d })

/-- The apply time of the last record is known: the schedule predicted for it is corrected by it and by the quantised times of its changes
(R203, R205). -/
def State.planApplied (s : State) (n : Nat) (applyT : FTime) : State :=
  let q := if s.axTether n = 24 then 40 else max 1 (idTQUANT (s.gd (s.axGon n)).ident)
  let late := fun (t : FTime) => if reached t applyT then t else applyT
  s.updAx n (fun a => { a with mot := { a.mot with plan := match a.mot.plan with
    | [] => []
    | e :: r => (applyT, e.2) :: r.map (fun c => (late (nearest q c.1), c.2)) } })

/-- The measurement that a TICK_UP brings for an axis whose record was computed in the tick before (R171, R175). -/
def State.measure (s : State) (k n : Nat) (tk : FTime) (period : Nat) (missed : Bool) (applyT : FTime) : State :=
  let prev := tk - BitVec.ofNat 64 period
  if !s.dueAt n prev then s
  else if missed then s.raise (rAXC_STAT n) fAXC_STAT_DLYSTALE
  else match tget none (s.gd k).lastRecs (s.axCh n) with
    | none => s
    | some _ =>
      let a := s.ax n
      let ts := if reached a.ts prev && !reached a.ts tk then a.ts else prev
      let s := (s.takeDelay n (tdiff applyT ts).toNat (tdiff (s.gd k).ccT ts).toNat).planApplied n applyT
      if 0 < tdiff applyT (prev + BitVec.ofNat 64 (s.axPeriod n - 2 * usUnits)) then
        (s.count (rAXC_DOVR n)).raise (rAXC_STAT n) fAXC_STAT_DLYOVR
      else s

/-- Bits [39:0] of a time extended to the value nearest field time (R60). -/
def State.extend40 (s : State) (x : Nat) : FTime :=
  s.now + BitVec.ofInt 64 (BitVec.ofInt 40 (x - (s.now.toNat : Int))).toInt

/-! ### Delivery -/

/-- A missing record of an axis (R176). -/
def State.missRecord (s : State) (n : Nat) : State :=
  let s := (((s.count (rAXC_MISS n)).raise (rAXC_STAT n) fAXC_STAT_RECMISS).raise (rAXC_STAT n) fAXC_STAT_DLYSTALE)
  ((s.updAx n (fun a => { a with fresh := false })).latResolve n true)

/-- Deliver the record of an axis: the feedback stage, the index edge to its latch units, captures that waited, its position compares,
and the fault levels it reports (R127, R301-R303, R287, R186). -/
def State.deliver (s : State) (k n : Nat) (tk : FTime) (r : BitVec 128) : State :=
  let ts := s.sampleAt k tk r
  let s := ((s.feedback n r ts tk).updAx n (fun a => { a with forced := recFORCED r })).noteLevels n
  let s := if recIDX r then s.latEdge n 1 true ts else s
  (s.latResolve n false).cmpEval n 0 ts (s.actPos n)

/-- Raise the FRAME events of a frame, one for each lane with axes in it (R16, R354). -/
def State.frameEvents (s : State) (ns : List Nat) (tk : FTime) (j : Int) (subst : Bool) (lanes : List Nat) : State :=
  lanes.foldl (fun s l =>
    match ns.find? (fun n => s.axLane n == l) with
    | none => s
    | some n => s.raiseEvent l { tick := false, t := s.axTether n, pos := s.axPos n, cls := s.axClass n, tk := tk, raised := s.now,
                                 subst := subst, tickNo := BitVec.ofInt 8 j }) s

/-- The fixed part of a TICK_UP (R60): what it reports of the gondola, and SILENT as a fault cause (R186). -/
def State.upReport (s : State) (t addr : Nat) (f : BitVec 80) : State :=
  let k := s.gk t addr
  let s := s.updGd k (fun d => { d with missRun := 0, lock := upLOCK f, ripin := upRIPIN f, forced := upFORCED f, silent := upSILENT f,
                                        vbus := BitVec.ofNat 16 (upVBUS f), temp := BitVec.ofNat 8 (upTEMP f) })
  let s := s.portsReported t addr (upTHRU_UP f) (upBRANCH_UP f)
  let s := (s.gonAxes k).foldl State.noteLevels s
  if upSILENT f then
    (s.gonAxes k).foldl (fun s n =>
      if energised (s.axState n) || s.axState n == xARMED then s.faultCause n fcSILENT false else s) s
  else s

/-- TICK_UP_RECEIVE (R16, R60, R61, R89). -/
def execTickUpReceive (t : Fin 25) (addr : Fin 64) (seq : BitVec 8) (fixed : BitVec 80) (recs : List (BitVec 128)) (q : RxQual) (s : State) : Out :=
  .next (s.rx t q (mkFrame 2 0 addr seq 0 (leBytes 10 fixed.toNat ++ recs.flatMap (fun r => leBytes 16 r.toNat))) (fun s =>
    let k := s.gk t addr
    let plan := s.planChs k
    let c := s.returnCredits t addr (upCRET fixed)
    if !s.present t (if t.val = 24 then 0 else addr.val) then s
    else if plan.isEmpty ∨ !recs.all (fun r => plan.contains (recCH r)) then s.tthCountN t cFMTERR 1
    else if !c.2 then c.1
    else
      let s := c.1
      let j := s.upTickOf t seq
      let tk := tickStartOf (s.frameOrigin t) (s.framePeriod t) j
      let substed := if (s.gd k).upTick = some (BitVec.ofInt 64 j) then (s.gd k).subst else []
      let s := (s.upReport t addr fixed)
      let at_ := s.extend40 (upAPPLY_T fixed)
      let s := ((s.gonAxes k).filter (fun n => recs.any (fun r => recCH r == s.axCh n))).foldl
        (fun s n => s.measure k n tk (s.framePeriod t) (upMISSED fixed) at_) s
      let s := ((s.openTick k tk j).updGd k (fun d => { d with got := true })).busTick k (upVBUS fixed) recs
      let ns := ((s.gonAxes k).filter (fun n => s.dueAt n tk))
      let s := recs.foldl (fun s r =>
        match ns.find? (fun n => s.axCh n == recCH r) with
        | some n => s.deliver k n tk r
        | none => s) s
      let s := ns.foldl (fun s n =>
        let s := if recs.any (fun r => recCH r == s.axCh n) then s else s.missRecord n
        s.inboxWrite n (upMISSED fixed)) s
      s.frameEvents ns tk j false ((List.range 16).filter (fun l => !substed.contains l))))

/-- SUBSTITUTE_FRAME_EVENT (R176, R354): at t_k + U(g) without a delivered TICK_UP. -/
def execSubstituteFrameEvent (lane : Fin 16) (t : Fin 25) (pos : Fin 64) (s : State) : Out :=
  let k := s.gk t pos
  let j := tickAt (s.frameOrigin t) (s.framePeriod t) s.now
  let tk := tickStartOf (s.frameOrigin t) (s.framePeriod t) j
  let d := s.gd k
  let open_ := d.upTick = some (BitVec.ofInt 64 j)
  let ns := (s.gonAxes k).filter (fun n => s.axLane n == lane.val && s.dueAt n tk)
  if ns.isEmpty ∨ tdiff s.now tk < (ptUp (s.upLat t k) : Int) ∨ (open_ ∧ (d.got = true ∨ d.subst.contains lane.val)) then .next s
  else
    let s := s.openTick k tk j
    let s := s.updGd k (fun d => { d with subst := d.subst ++ [lane.val] })
    let s := (s.balChs k).foldl (fun s e => s.balCommit e.1) s
    let s := ns.foldl (fun s n => (s.missRecord n).inboxWrite n false) s
    .next (s.frameEvents ns tk j true [lane.val])

/-- IDENT_RECEIVE (R93, R72): the identity block of a position; the gondola is present and served,
and the axes of a gondola that comes back have lost their reference (R132). -/
def execIdentReceive (t : Fin 25) (pos : Fin 64) (block : List Byte) (hops : Fin 64) (cableMm : Nat) (q : RxQual) (s : State) : Out :=
  .next (s.rx t q (mkFrame 7 0 pos q.seq 0 block) (fun s =>
    let e := s.tetherKey t
    let k := gkey e pos
    let s := s.updGd k (fun d =>
      { d with ident := block, descs := [], odd := decide (t.val ≠ e), hops := hops.val, cableMm := cableMm, credDn := idCRED block, missRun := 0, grantUp := 0, ready := false })
    let s := (s.setPresent e pos true)
    let s := match s.ringEven t with
      | some e => s.rehome e pos (t.val ≠ e)
      | none => s.setHomed e pos true
    let s := (s.gonAxes k).foldl (fun s n => s.unref n) s
    (s.readDescs t pos).tthRaise e evIDENT_NEW))

/-- The number of the tick of a tether that ended last. -/
def State.tickEnded (s : State) (t : Nat) : Int := tickAt (s.frameOrigin t) (s.framePeriod t) s.now - 1

/-- Did the TICK_UP of the tick that ended last come: it was delivered, or that of the tick after it has been already? -/
def State.upCame (s : State) (t k : Nat) : Bool :=
  let j := s.tickEnded t
  let d := s.gd k
  d.got && (decide (d.upTick = some (BitVec.ofInt 64 j))
    || (decide (0 < tdiff s.now (tickStartOf (s.frameOrigin t) (s.framePeriod t) (j + 1))) && decide (d.upTick = some (BitVec.ofInt 64 (j + 1)))))

/-- TICK_UP_MISSING (R87, R89): the TICK_UP expected in the tick before the present one did not arrive by its end. -/
def execTickUpMissing (t : Fin 25) (pos : Fin 64) (s : State) : Out :=
  let k := s.gk t pos
  let j := some (BitVec.ofInt 64 (s.tickEnded t))
  if s.planChs k = [] ∨ !s.present t (if t.val = 24 then 0 else pos.val) ∨ s.upCame t k ∨ (s.gd k).missTick = j then .next s
  else .next ((s.tthCountN t cUPMISS 1).updGd k (fun d => { d with missRun := d.missRun + 1, missTick := j }))

/-! ### Loss (R87) -/

/-- Gondolas served through the one at a position on a chain or tree: positions are assigned depth first (R72), so they are those that follow
it and lie deeper. -/
def State.through (s : State) (t g : Nat) : List Nat :=
  let h := (s.gd (s.gk t g)).hops
  ((List.range 64).filter (fun i => decide (g < i) && s.present t i)).takeWhile (fun i => decide (h < (s.gd (s.gk t i)).hops))

/-- The upstream neighbour of a position on a chain or tree; none at the device port. -/
def State.parentOf (s : State) (t g : Nat) : Option Nat :=
  let h := (s.gd (s.gk t g)).hops
  if h = 0 then none else ((List.range g).filter (fun i => s.present t i && (s.gd (s.gk t i)).hops + 1 == h)).getLast?

/-- Does the upstream neighbour report its port toward a position down (R87)? Of two gondolas behind it the first lies behind the branch
port; the only one behind it is lost when no port is UP. -/
def State.portReportedDown (s : State) (t g : Nat) : Bool :=
  match s.parentOf t g with
  | none => s.link t != lkUP
  | some p =>
    let d := s.gd (s.gk t p)
    let kids := (List.range 64).filter (fun i => s.present t i && s.parentOf t i == some p)
    if kids.length < 2 then !d.thruUp && !d.branchUp else if kids.head? = some g then !d.branchUp else !d.thruUp

/-- Does a ring break isolate a position (R83, R85, R87): does it lie between the segment that broke before and one that is down now? -/
def State.isolated (s : State) (e g : Nat) : Bool :=
  let up := if s.homed (e + 1) g then (List.range 64).all (fun i => decide (i < g) || !s.present e i || (s.gd (gkey e i)).thruUp) && s.link (e + 1) == lkUP
    else (List.range g).all (fun i => !s.present e i || (s.gd (gkey e i)).thruUp) && s.link e == lkUP
  s.fget (rTTH_STAT e) fTTH_STAT_RING_BROKEN == 1 && !up

/-- Does the state show the cause of a loss? -/
def State.lossStands (s : State) (t pos : Nat) : LossCause → Bool
  | .portDown => (s.ringEven t).isNone && s.portReportedDown t pos
  | .ringIsolated => match s.ringEven t with
    | some e => s.isolated e pos
    | none => false
  | .threeMissing => decide (3 ≤ (s.gd (s.gk t pos)).missRun)

/-- Forget a lost gondola: its presence, its frames, and the bus groups that it sensed (R87, R311). -/
def State.loseGondola (s : State) (t g : Nat) : State :=
  if s.present t g then
    let k := s.gk t g
    let s := (s.updPort (s.homePort t g) (fun p => { p with ready := p.ready.filter (fun x => x != k) })).forget t g
    (s.gonAxes k).foldl (fun s n => (s.unref n).noteLevels n) (s.busSenseLost k)
  else s

/-- GONDOLA_LOST (R87): with every gondola served through it on a chain or tree. -/
def execGondolaLost (t : Fin 25) (pos : Fin 64) (cause : LossCause) (s : State) : Out :=
  if t.val = 24 ∨ !s.present t pos ∨ !s.lossStands t pos cause then .next s
  else
    let gs := pos.val :: (if (s.ringEven t).isSome then [] else s.through t pos)
    .next ((gs.foldl (fun s g => s.loseGondola t g) s).tthRaise (s.tetherKey t) evGLOST)

/-- BULK_RECEIVE (R68, R123, R410): against a granted credit. Stream 3 carries command descriptors: a frame that is not a whole number
of descriptors is discarded and counted as a denial of P9; its commands arrive as PEER_COMMAND. The gondola that sent it has spent a credit. Other streams wait for the stream
port, and leave on it as its credits allow; the credit is granted again when the data leave, or at once for stream 3. -/
def execBulkReceive (t : Fin 25) (pos : Fin 64) (stream : BitVec 8) (last : Bool) (offset : Word) (data : List Byte) (q : RxQual) (s : State) : Out :=
  .next (s.rx t q (mkFrame 12 0 pos q.seq 0 ([stream, if last then 1 else 0, 0, 0] ++ leBytes 4 offset.toNat ++ data)) (fun s =>
    let k := s.gk t pos
    if (s.gd k).grantUp = 0 then s else
    let s := match s.nodeOf k with
      | some n => s.updGon n (fun g => { g with cGrant := g.cGrant - 1 })
      | none => s
    if stream = 3 then
      let s := s.updGd k (fun d => { d with grantUp := d.grantUp - 1 })
      if offset.toNat % 64 = 0 ∧ data.length % 64 = 0 then s else s.deny 9
    else
      (s.updGd k (fun d =>
        { d with grantUp := d.grantUp - 1, bulkHeld := d.bulkHeld + 1, upData := d.upData ++ [(stream, last, offset, data)] })).strPump))

/-! ### Non-tick frames (R67, R68, R77) -/

/-- Bytes of a frame on the line: header, body, CRC and delimiters. -/
def frameBytes (f : Frame) : Nat := f.body.length + 14


/-- The rank of a waiting frame: EVENT, then TIME and DLY_RSP, then the others (R77). -/
def frameRank (f : Frame) : Nat := if f.typ = 11 then 0 else if f.typ = 3 ∨ f.typ = 5 then 1 else 2

/-- The start rule of R77: on a tether with axes in the plan, a frame lies in the quiet window. -/
def State.quietOK (s : State) (t bytes : Nat) : Bool :=
  match s.tetherClass t with
  | none => true
  | some c =>
    if t = 24 then true
    else
      let off := ptOf (tdiff s.now (tickStartOf (s.frameOrigin t) (classPeriod c) (tickAt (s.frameOrigin t) (classPeriod c) s.now))).toNat
      -- the window of the tick before reaches q into this one
      (s.quietW t (classPeriod c) ≤ off && decide (off + ptNs (5 * bytes) + s.dProp t ≤ s.quietE t (classPeriod c)))
        || decide (off + ptNs (5 * bytes) + s.dProp t + ptOf (classPeriod c) ≤ s.quietE t (classPeriod c))

/-- CFG requests of a gondola that have left and not been answered (R67). -/
def State.cfgSent (s : State) (t g : Nat) : Nat :=
  let k := s.gk t g
  (s.gd k).cfg.length - ((s.port t).waiting.filter (fun f => (f.typ == 8 || f.typ == 9) && f.route == 0 && f.addr.toNat == g)).length

/-- The quiet window an EVENT would start in (R292): a tether without axes has none. -/
def State.windowOf (s : State) (t : Nat) : Option (BitVec 64) :=
  match s.tetherClass t with
  | none => none
  | some c => if t = 24 then none
    else
      let per := classPeriod c
      let shift := BitVec.ofNat 64 (ptUp (s.qTerm t))
      some (tickStartOf (s.frameOrigin t) per (tickAt (s.frameOrigin t) per (s.now - shift)))

/-- May a waiting frame start: credits, CFG requests, and EVENTs of the window (R67, R68, R292)? -/
def State.frameFree (s : State) (t : Nat) (f : Frame) : Bool :=
  if f.typ = 12 then decide (0 < (s.gd (s.gk t f.addr.toNat)).credDn)
  else if (f.typ = 8 ∨ f.typ = 9) ∧ f.route = 0 then decide (s.cfgSent t f.addr.toNat < 4)
  else if f.typ = 11 then
    let p := s.port t
    (s.windowOf t).isNone || p.evTick != s.windowOf t || decide (p.evWindow < 8)
  else true

/-- The place of the frame that starts next (R77). -/
def State.nextFrame (s : State) (t : Nat) : Option Nat :=
  let w := (s.port t).waiting
  let pick := fun r => w.findIdx? (fun f => frameRank f == r && s.frameFree t f)
  (pick 0).orElse (fun _ => (pick 1).orElse (fun _ => pick 2))

/-- A gondola that no TICK_DN reaches and that may be granted upstream credits (R68). -/
def State.grantTo (s : State) (t : Nat) : Option Nat :=
  (List.range 64).find? (fun g => s.present t g && s.homed t g && (s.planChs (s.gk t g)).isEmpty && !(s.gd (s.gk t g)).ident.isEmpty
    && (s.gd (s.gk t g)).grant != 0)

/-- A frame leaves: its stamps and its SEQ are written (R57, R64, R65). -/
def State.startFrame (s : State) (t : Nat) (f : Frame) : State :=
  let f := s.stamp f
  let typ := f.typ.toNat
  s.updPort t (fun p =>
    let n := tget 0 p.seqCnt typ
    let f := { f with seq := n }
    { p with sent := [f], wire := frameWire f, seqCnt := tset 0 p.seqCnt typ (n + 1) })

/-- What a frame that starts uses up: a BULK credit (R68); a place in the quiet window (R292). -/
def State.spend (s : State) (t : Nat) (f : Frame) : State :=
  if f.typ = 12 then s.updGd (s.gk t f.addr.toNat) (fun d => { d with credDn := d.credDn - 1 })
  else if f.typ = 11 then
    let w := s.windowOf t
    s.updPort t (fun p => { p with evTick := w, evWindow := if p.evTick = w then p.evWindow + 1 else 1 })
  else s

/-- The CREDIT frame that grants a gondola upstream credits (R68). -/
def creditFrame (g n : Nat) : Frame := mkFrame 13 0 g 0 0 [BitVec.ofNat 8 n, 0]

/-- The next non-tick frame of a device port, in the order of R77; with none that may start, a CREDIT of a gondola that no TICK_DN reaches.  A tick
frame that is ready goes first (R18). -/
def State.nonTickStart (s : State) (t : Nat) : State :=
  if s.link t ≠ lkUP ∨ (s.port t).ready ≠ [] then s
  else match s.nextFrame t with
    | some i =>
      match (s.port t).waiting[i]? with
      | none => s
      | some f =>
        if s.quietOK t (frameBytes f) then
          let s := (s.updPort t (fun p => { p with waiting := p.waiting.eraseIdx i })).spend t f
          (s.startFrame t f).cmpRelease
        else s
    | none => match s.grantTo t with
      | none => s
      | some g =>
        let k := s.gk t g
        let n := (s.gd k).grant
        let f := creditFrame g n
        if s.quietOK t (frameBytes f) then (s.updGd k (fun d => { d with grantUp := d.grantUp + n })).startFrame t f else s

/-- NON_TICK_FRAME_START (R77, R97, R98): the device or a gondola starts its next frame that is no tick frame. -/
def execNonTickFrameStart (e : LinkEnd) (now : FTime) (s : State) : Out :=
  match e with
  | .dev t => .next (if t.val = 24 ∧ s.time.halted then s else s.nonTickStart t)
  | .gon n p => .next (s.gStart n p false now)

end Sys2Proof.Machine
end

