-- ==== Sys2Proof/Machine/Plan.lean ====
section
/-! DEFINITION. The access plan (R408-R427): rights, CAN acceptance, direct commands; and the remote and published masters (R271, R272),
whose ports the plan governs. -/
namespace Sys2Proof.Machine

/-! ### Rights (R411-R413) -/

/-- Permission bits of an axis (R411). -/
def pmMOTION : Nat := 0
def pmSTOP : Nat := 1
def pmREQ : Nat := 2
def pmCMP : Nat := 3
def pmREAD : Nat := 4
def pmCFG : Nat := 5

/-- Does port `p` hold a permission on an axis? -/
def State.perm (s : State) (p n b : Nat) : Bool := (s.wfld (rPLAN_P_AX p (n / 4)) (fPLAN_P_AX_PERM (n % 4))).testBit b

/-- Does port `p` hold it on every axis of a list? -/
def State.permAll (s : State) (p b : Nat) (ns : List Nat) : Bool := ns.all (fun n => s.perm p n b)

/-- A flag of a port's row (R412). -/
def State.portFlag (s : State) (p : Nat) (f : Sh) : Bool := s.wflag (rPLAN_P_FLAGS p) f

/-- May a port use an opcode (R412)? NOP is always permitted. -/
def State.opcOK (s : State) (p opc : Nat) : Bool :=
  opc == 0 || (s.wfld (rPLAN_P_OPC p) fPLAN_P_OPC_OPC).testBit (if opc = 0x10 then 15 else opc)

/-- May a port name a ring, a remote slot, an output (R412)? -/
def State.ringOK (s : State) (p q : Nat) : Bool := (s.wfld (rPLAN_P_RINGS p) fPLAN_P_RINGS_RINGS).testBit q
def State.rmOK (s : State) (p r : Nat) : Bool := (s.wfld (rPLAN_P_RM p) fPLAN_P_RM_RM).testBit r
def State.foutOK (s : State) (p k : Nat) : Bool := (s.wfld (rPLAN_P_FOUT p) fPLAN_P_FOUT_FOUT).testBit k

/-- The compare range of a port: first index, and one past the last (R412). -/
def State.cmpRange (s : State) (p : Nat) : Nat × Nat :=
  let b := s.wfld (rPLAN_P_CMP p) fPLAN_P_CMP_CMPBASE
  (b, min cmpSize (b + s.wfld (rPLAN_P_CMP p) fPLAN_P_CMP_CMPCNT))

/-- Is the right for a set of requests held (R413)? -/
def State.reqsOK (s : State) (p n req : Nat) : Bool :=
  (!req.testBit 2 || s.perm p n pmSTOP) && (req &&& 0x1B == 0 || s.perm p n pmREQ)

/-- The requests of a request byte, in the order of its bits (R380). -/
def reqsOf (req : Nat) : List Req :=
  (if req.testBit 0 then [.arm] else []) ++ (if req.testBit 1 then [.enable] else []) ++ (if req.testBit 2 then [.disable] else [])
    ++ (if req.testBit 3 then [.test] else []) ++ (if req.testBit 4 then [.fclr] else [])

/-! ### CAN acceptance (R420-R423) -/

/-- Entries of the acceptance table. -/
def canEntries : Nat := 1088

/-- Overflow places (R421). -/
def canOverflow : Nat := 64

/-- The bucket of a key (R421). -/
def canBucket (key : Nat) : Nat := (key % 1024) ^^^ (key / 1024 % 1024) ^^^ (key / 2 ^ 20 % 1024)

/-- Overflow places that a table needs: every enabled entry of a bucket but its first (R421). -/
def overflowUse (get : Nat → Word) : Nat :=
  let ks := (List.range canEntries).filter (fun k => bget (get (rPLAN_CF_LO k)) fPLAN_CF_LO_EN.b == 1)
  let hs := ks.map (fun k => canBucket (bget (get (rPLAN_CF_LO k)) fPLAN_CF_LO_KEY.b))
  hs.length - hs.eraseDups.length

/-- The key of a received frame (R420). -/
def State.canKey (s : State) (c : Nat) (id : BitVec 29) (ide : Bool) : Nat :=
  (id.toNat &&& s.wfld (rPLAN_CAN_KMASK c) fPLAN_CAN_KMASK_KMASK) + if ide then 2 ^ 29 else 0

/-- Does an enabled entry of the table in force match a frame (R420)? -/
def State.canMatch (s : State) (c : Nat) (id : BitVec 29) (ide : Bool) (k : Nat) : Bool :=
  s.wflag (rPLAN_CF_LO k) fPLAN_CF_LO_EN && s.wfld (rPLAN_CF_LO k) fPLAN_CF_LO_KEY == s.canKey c id ide
    && (s.wfld (rPLAN_CF_HI k) fPLAN_CF_HI_CTRL).testBit c
    && (!s.wflag (rPLAN_CF_HI k) fPLAN_CF_HI_SACHK || s.wfld (rPLAN_CF_HI k) fPLAN_CF_HI_SA == id.toNat % 256)

/-- The entry that decides a frame (R423): its bucket's entry, then the overflow list in ascending order, which is the lowest-numbered
entry that matches, since the entries of one key lie in one bucket. -/
def State.canLookup (s : State) (c : Nat) (id : BitVec 29) (ide : Bool) : Option Nat :=
  (List.range canEntries).find? (s.canMatch c id ide)

/-- A write of a PLAN_CF or KMASK register starts a build of the staged table (R422). -/
def canWritten (s : State) : State := s.fset rPLAN_CAN_STAT fPLAN_CAN_STAT_BUILD 1

/-- CAN_TABLE_BUILD_COMPLETE (R421, R422). -/
def execCanTableBuildComplete (s : State) : Out :=
  if s.flag rPLAN_CAN_STAT fPLAN_CAN_STAT_BUILD then
    let s := s.fset rPLAN_CAN_STAT fPLAN_CAN_STAT_BUILD 0
    .next (if canOverflow < overflowUse s.rget then s.raise rPLAN_CAN_STAT fPLAN_CAN_STAT_OVFULL else s)
  else .next s

/-- May a PLAN commit of captured values be applied (R416)? -/
def planRefused (get : Nat → Word) (building : Bool) : Bool :=
  building || decide (canOverflow < overflowUse get)
    || (List.range 10).any (fun p =>
        decide (cmpSize < bget (get (rPLAN_P_CMP p)) fPLAN_P_CMP_CMPBASE.b + bget (get (rPLAN_P_CMP p)) fPLAN_P_CMP_CMPCNT.b))

/-! ### Direct commands (R424-R426) -/

/-- Actions of R425. -/
def dcSTOP : Nat := 1
def dcREQ : Nat := 2
def dcSECT : Nat := 3
def dcFOUT : Nat := 4

def State.dcA (s : State) (k : Nat) (f : Sh) : Nat := s.wfld (rPLAN_DC_A k) f
def State.dcB (s : State) (k : Nat) (f : Sh) : Nat := s.wfld (rPLAN_DC_B k) f

/-- Data bytes that an entry reads: the match byte, and four bytes of states (R424, R425). -/
def State.dcReads (s : State) (k : Nat) : Nat :=
  let m := if s.dcA k fPLAN_DC_A_MMASK = 0 then 0 else s.dcA k fPLAN_DC_A_MB + 1
  let a := s.dcA k fPLAN_DC_A_ACTION
  max m (if a = dcSECT ∨ a = dcFOUT then s.dcB k fPLAN_DC_B_DB + 4 else 0)

/-- Does the match byte admit a frame's data (R424)? -/
def State.dcAdmits (s : State) (k : Nat) (data : List Byte) : Bool :=
  (data.getD (s.dcA k fPLAN_DC_A_MB) 0).toNat &&& s.dcA k fPLAN_DC_A_MMASK == s.dcA k fPLAN_DC_A_MVAL || s.dcA k fPLAN_DC_A_MMASK == 0

/-- The two-bit state of section or output `i` (R425). -/
def State.dcState (s : State) (k : Nat) (data : List Byte) (i : Nat) : Nat :=
  (data.getD (s.dcB k fPLAN_DC_B_DB + i / 4) 0).toNat >>> (2 * (i % 4)) % 4

/-- The axes of a STOP (R424). -/
def State.dcScope (s : State) (p k : Nat) : List Nat :=
  let tgt := s.dcB k fPLAN_DC_B_TGT
  match s.dcA k fPLAN_DC_A_SCOPE with
  | 1 => if tgt < 64 then s.rowGroup tgt else []
  | 2 => allAxes.filter (fun n => s.perm p n pmSTOP)
  | _ => [tgt]

/-- The row groups of section `i`; those beyond 63 are ignored (R425). -/
def State.dcGroups (s : State) (k i : Nat) : List Nat :=
  let gps := s.dcB k fPLAN_DC_B_GPS + 1
  ((List.range gps).map (fun j => s.dcB k fPLAN_DC_B_TGT + gps * i + j)).filter (fun g => decide (g < 64))

/-- A direct command runs when the lookup of its frame starts this entry with this action, and its data admit it (R424); it is denied, or
acts; and its event is posted (R426). -/
def State.direct (s : State) (action c k : Nat) (id : BitVec 29) (ide : Bool) (data : List Byte) (right : Bool)
    (act : State → State × Nat) : State :=
  let p := 2 + c
  let hit := match s.canLookup c id ide with
    | some e => s.wflag (rPLAN_CF_HI e) fPLAN_CF_HI_DCMD && s.wfld (rPLAN_CF_HI e) fPLAN_CF_HI_DCIDX == k
    | none => false
  if !hit ∨ s.dcA k fPLAN_DC_A_ACTION ≠ action ∨ data.length < s.dcReads k ∨ !s.dcAdmits k data then s
  else
    let ver := s.planver
    let r := if right then act s else (s.deny p, stDENIED)
    r.1.produce (ringIf (r.1.wflag (rPLAN_P_CQ p) fPLAN_P_CQ_EN) (r.1.wfld (rPLAN_P_CQ p) fPLAN_P_CQ_CQ))
      (eventEntry 0x19 p (k + r.2 <<< 8 + ver.toNat <<< 16 + id.toNat <<< 32) ((tget none s.canT c).getD s.now))

/-- DCMD_STOP (R425). -/
def execDcmdStop (c : Fin 4) (dcidx : Fin 64) (id : BitVec 29) (ide : Bool) (data : List Byte) (s : State) : Out :=
  let k := dcidx.val
  let ns := s.dcScope (2 + c) k
  let kind := s.dcA k fPLAN_DC_A_KIND
  .next (s.direct dcSTOP c k id ide data (s.permAll (2 + c) pmSTOP ns) (fun s =>
    if kind = 1 ∨ kind = 2 then (ns.foldl (fun s n => s.cause n (.stop kind none)) s, stOK) else (s, stFORMAT)))

/-- DCMD_REQ (R425). -/
def execDcmdReq (c : Fin 4) (dcidx : Fin 64) (id : BitVec 29) (ide : Bool) (data : List Byte) (s : State) : Out :=
  let k := dcidx.val
  let n := s.dcB k fPLAN_DC_B_TGT
  let req := s.dcA k fPLAN_DC_A_KIND
  .next (s.direct dcREQ c k id ide data (s.reqsOK (2 + c) n req) (fun s =>
    ((reqsOf req).foldl (fun s r => s.cause n (.req r none)) s, stOK)))

/-- DCMD_SECT (R425): the right is needed on every member of every group the entry names. -/
def execDcmdSect (c : Fin 4) (dcidx : Fin 64) (id : BitVec 29) (ide : Bool) (data : List Byte) (s : State) : Out :=
  let k := dcidx.val
  let all := (List.range 16).flatMap (s.dcGroups k)
  .next (s.direct dcSECT c k id ide data (all.all (fun g => s.permAll (2 + c) pmCMP (s.rowGroup g))) (fun s =>
    ((List.range 16).foldl (fun s i =>
      match s.dcState k data i with
      | 0 => (s.dcGroups k i).foldl State.cmpSuspend s
      | 1 => (s.dcGroups k i).foldl State.cmpResume s
      | _ => s) s, stOK)))

/-- DCMD_FOUT (R425). -/
def execDcmdFout (c : Fin 4) (dcidx : Fin 64) (id : BitVec 29) (ide : Bool) (data : List Byte) (s : State) : Out :=
  let k := dcidx.val
  let changed := (List.range 16).filter (fun i => decide (s.dcState k data i < 2))
  .next (s.direct dcFOUT c k id ide data (changed.all (s.foutOK (2 + c))) (fun s =>
    (changed.foldl (fun s i => s.foutAct i (s.dcState k data i) 0) s, stOK)))

/-! ### Remote and published masters (R271, R272) -/

/-- A master message for one slot (R271, R413, R414). -/
def State.rmTake (s : State) (p r : Nat) (t : FTime) (pos v : Val) : State :=
  let m := s.rmSlot r
  if !s.rmOK p r then s.deny p
  else if m.valid ∧ tdiff t m.t ≤ 0 then s.count (rLPE_RM_STAT r)
  else (s.setRm r { valid := true, t := t, p := pos, v := velIn v }).fset (rLPE_RM_STAT r) fLPE_RM_STAT_STALE 0

/-- MASTER_MESSAGE (R271): to every enabled slot with its identifier. -/
def execMasterMessage (port : Fin 2) (mid : Word) (t : FTime) (p v : BitVec 64) (s : State) : Out :=
  .next (((List.range 16).filter (fun r => s.flag (rLPE_RM_CFG r) fLPE_RM_CFG_EN && s.rget (rLPE_RM_ID r) == mid)).foldl
    (fun s r => s.rmTake (6 + port.val) r t p v) s)

/-- The transmit queue of a frame port, and whether it has room for a frame (R21). -/
def State.txq_ (s : State) (f : Nat) : List TxItem := tget [] s.txq f
def State.txRoom (s : State) (f len : Nat) : Bool :=
  if f < 2 then decide (((s.txq_ f).map (fun i => i.data.length)).sum + len ≤ 16384) else decide ((s.txq_ f).length < 32)
def State.setTxq (s : State) (f : Nat) (l : List TxItem) : State := { s with txq := tset [] s.txq f l }

/-- A master message of 32 bytes (R271). -/
def masterMsg (mid : Word) (t : FTime) (p v : Int) : List Byte :=
  leBytes 4 mid.toNat ++ leBytes 4 0 ++ leBytes 8 t.toNat ++ leBytes 8 (val64 p).toNat ++ leBytes 8 (val64 v).toNat

/-- The head of a frame of published messages (R271, R272): addresses, EtherType, version and count. -/
def State.pubHead (s : State) (e n : Nat) : List Byte :=
  leBytes 4 (s.rget rLPE_PUB_DA0).toNat ++ leBytes 2 (s.rget rLPE_PUB_DA1).toNat ++ leBytes 4 (s.netWord (rNET_ETH_MAC0 e)).toNat
    ++ leBytes 2 (s.netWord (rNET_ETH_MAC1 e)).toNat ++ [0x88, 0xB5, 0x01, BitVec.ofNat 8 n]

/-- The published frame at the end of a queue that a message of tick start `t` joins, with its messages. -/
def pubOpen (l : List TxItem) (t : FTime) : Option (List Byte × Nat) :=
  match l.getLast? with
  | none => none
  | some i =>
    let n := (i.data.getD 15 0).toNat
    if i.q = none ∧ n < 16 ∧ identF i.data 24 8 = t.toNat then some (i.data.drop 16, n) else none

/-- PUBLISH_MASTER (R272). -/
def execPublishMaster (q : Fin 16) (s : State) : Out :=
  let cfg := rLPE_PUB_CFG q
  let n := s.fget cfg fLPE_PUB_CFG_AXIS
  let e := s.fget cfg fLPE_PUB_CFG_PORT
  if !s.flag cfg fLPE_PUB_CFG_EN ∨ !divides (s.fget cfg fLPE_PUB_CFG_DIV + 1) (s.axTick n) then .next s
  else
    let t := s.axTickStart n
    let m := s.masterAt { mkind := s.fget cfg fLPE_PUB_CFG_SRCSEL, master := n } t
    let msg := masterMsg (s.rget (rLPE_PUB_ID q)) t m.1 m.2.1
    let l := s.txq_ e
    let item := fun d : List Byte => ({ q := none, tag := 0, nocomp := true, tsreq := false, frameId := 0, canid := 0, data := d } : TxItem)
    match pubOpen l t with
    | some (msgs, k) =>
      if s.txRoom e 32 then .next (s.setTxq e (l.dropLast ++ [item (s.pubHead e (k + 1) ++ msgs ++ msg)])) else .next (s.count rLPE_PUB_STAT)
    | none =>
      let d := s.pubHead e 1 ++ msg
      if s.txRoom e d.length then .next (s.setTxq e (l ++ [item d])) else .next (s.count rLPE_PUB_STAT)

end Sys2Proof.Machine
end

