-- ==== Sys2Proof/Machine/Commit.lean ====
section
/-! DEFINITION. The commit path (R436-R442): capture, the checks that refuse a commit (R94, R126, R161-R170, R189, R244, R263, R308, R360,
R416, R498, R508, R533), the limits of the fields' ranges, the staging of gondola registers (R170), the inactive lane banks (R360, R361),
and the application; with the mailbox objects PEEK, CFG_WORK and CM_AT (R447). -/
namespace Sys2Proof.Machine

/-! ### Groups and capture (R436, R438) -/

/-- The bit of a commit group (R436). -/
def Grp.bit : Grp → Nat
  | .axis => 0
  | .tether => 1
  | .time => 2
  | .plan => 3
  | .pulse => 4
  | .bus => 5
  | .fio => 6
  | .cmp => 7
  | .none_ => 8

/-- The axis whose window a register of group AXIS lies in. -/
def axisOfOff (o : Nat) : Nat := if o / 0x100000 = 5 then o % 0x100000 / 0x400 else o % 0x100000 / 0x100

/-- Does a commit select the register at an offset? -/
def selects (groups : BitVec 8) (axsel : BitVec 256) (o : Nat) : Bool :=
  match regRow o with
  | none => false
  | some r => r.sh != 0 && groups.getLsbD r.grp.bit && (r.grp != .axis || axsel.getLsbD (axisOfOff o))

/-- Is a group in a commit? -/
def CommitRec.has (c : CommitRec) (g : Grp) : Bool := c.groups.getLsbD g.bit

/-- The value captured for a selected register. -/
def CommitRec.cap (c : CommitRec) (o : Nat) : Word := tget (regReset o) c.captured o

/-- The registers that a commit may change: those captured off their reset value, and those whose working copy is off it. -/
def State.commitKeys (s : State) (c : CommitRec) : List Nat :=
  (c.captured.map (fun e => e.1) ++ (s.work.map (fun e => e.1)).filter (selects c.groups c.axsel)).eraseDups

/-- GLB_COMMIT_AXSEL0-7 as one mask. -/
def State.axselMask (s : State) : BitVec 256 :=
  BitVec.ofNat 256 (leNat ((List.range 8).flatMap (fun k => leBytes 4 (s.rget (rGLB_COMMIT_AXSEL k)).toNat)))

/-! ### Limits of the fields' ranges (R35, R190, R223, R249, R280, R325, R497) -/

/-- The range of a field in a family of registers. -/
structure Lim where
  base : Nat
  stride : Nat
  n : Nat
  f : Sh
  lo : Int
  hi : Int
  /-- The field is a signed number. -/
  sgn : Bool := false

/-- Is a register of the family? -/
def Lim.hits (r : Lim) (o : Nat) : Bool := decide (r.base ≤ o) && (o - r.base) % r.stride == 0 && decide ((o - r.base) / r.stride < r.n)

def limitsTQ : List Lim := [
  ⟨rAXC_CFG 0, 0x400, 256, fAXC_CFG_TETHER, 0, 24, false⟩,
  ⟨rAXC_DLY 0, 0x400, 256, fAXC_DLY_WIN, 4, 16, false⟩,
  ⟨rTQ_CFG 0, 0x400, 256, fTQ_CFG_POLES, 1, 31, false⟩,
  ⟨rTQ_CFG 0, 0x400, 256, fTQ_CFG_SKIPMAX, 1, 15, false⟩,
  ⟨rTQ_CFG 0, 0x400, 256, fTQ_CFG_LOSSN, 1, 15, false⟩,
  ⟨rTQ_PSIM 0, 0x400, 256, fTQ_PSIM_PSIM, 1, 0xFFFFFF, false⟩,
  ⟨rTQ_CATCH 0, 0x400, 256, fTQ_CATCH_NCAT, 2, 15, false⟩,
  ⟨rTQ_CATCH 0, 0x400, 256, fTQ_CATCH_NVER, 1, 15, false⟩,
  ⟨rTQ_CATCH2 0, 0x400, 256, fTQ_CATCH2_CWAIT, 1, 255, false⟩,
  ⟨rTQ_CATCH2 0, 0x400, 256, fTQ_CATCH2_ASCT, 1, 255, false⟩,
  ⟨rTQ_ALIGN 0, 0x400, 256, fTQ_ALIGN_ARAMP, 1, 255, false⟩,
  ⟨rTQ_ALIGN2 0, 0x400, 256, fTQ_ALIGN2_AHOLD, 1, 255, false⟩,
  ⟨rTQ_CPT 0, 0x400, 256, fTQ_CPT_CPT, 4, 0xFFFFFFFF, false⟩,
  ⟨rTQ_TST 0, 0x400, 256, fTQ_TST_TT, 1, 255, false⟩]

/-- The ranges of loop k (R177, R190). -/
def limitsLoop (k : Nat) : List Lim := [
  { base := rAXC_L_CFG 0 k, stride := 0x400, n := 256, f := fAXC_L_CFG_SCALE, lo := -8, hi := 8, sgn := true },
  ⟨rAXC_L_CFG 0 k, 0x400, 256, fAXC_L_CFG_ESC, 0, 47, false⟩,
  ⟨rAXC_L_CFG 0 k, 0x400, 256, fAXC_L_CFG_OSC, 0, 47, false⟩]

def limitsPRF : List Lim := [
  ⟨rST_CFG 0, 0x400, 256, fST_CFG_CPE, 4, 65535, false⟩,
  ⟨rST_CFG 0, 0x400, 256, fST_CFG_HOLD_PCT, 0, 100, false⟩,
  ⟨rST_I 0, 0x400, 256, fST_I_HDELAY, 1, 4095, false⟩,
  ⟨rST_I 0, 0x400, 256, fST_I_HRAMP, 1, 255, false⟩,
  ⟨rST_ALIGN 0, 0x400, 256, fST_ALIGN_SARAMP, 1, 255, false⟩,
  ⟨rST_ALIGN 0, 0x400, 256, fST_ALIGN_SAHOLD, 1, 255, false⟩,
  ⟨rCL_DITH 0, 0x400, 256, fCL_DITH_DFREQ, 1, 16383, false⟩,
  ⟨rPRF_VMAX 0, 0x400, 256, fPRF_VMAX_VMAX, 1, 0x7FFFFFFF, false⟩,
  ⟨rPRF_AMAX 0, 0x400, 256, fPRF_AMAX_AMAX, 1, 0xFFFFFFFF, false⟩,
  ⟨rPRF_DMAX 0, 0x400, 256, fPRF_DMAX_DMAX, 1, 0xFFFFFFFF, false⟩,
  ⟨rPRF_JMAX 0, 0x400, 256, fPRF_JMAX_JMAX, 1, 0xFFFFFFFF, false⟩,
  ⟨rPGN_PER 0, 0x100, 256, fPGN_PER_PERIOD, 4000, 0xFFFFFFFF, false⟩,
  ⟨rPGN_HCH 0, 4, 16, fPGN_HCH_NLEG, 0, 4, false⟩,
  ⟨rPGN_LEG 0, 4, 48, fPGN_LEG_TDEAD, 4, 1000, false⟩,
  ⟨rPGN_LEG 0, 4, 48, fPGN_LEG_TMINP, 20, 2000, false⟩]

def limitsDev : List Lim := [
  ⟨rFBK_CPR 0, 0x100, 256, fFBK_CPR_CPR, 4, 0x80000000, false⟩,
  ⟨rFBK_MOD 0, 0x100, 256, fFBK_MOD_M, 2, 0xFFFFFFFF, false⟩,
  ⟨rFBK_SPD 0, 0x100, 256, fFBK_SPD_MINC, 1, 65535, false⟩,
  ⟨rFBK_SPD 0, 0x100, 256, fFBK_SPD_STILL, 1, 1000, false⟩,
  ⟨rFBK_SSI 0, 0x100, 256, fFBK_SSI_SHIFT, 0, 24, false⟩,
  ⟨rFBK_SSI 0, 0x100, 256, fFBK_SSI_ERRN, 1, 7, false⟩,
  ⟨rFBK_SSI 0, 0x100, 256, fFBK_SSI_WIDTH, 7, 31, false⟩,
  ⟨rFBK_SSI 0, 0x100, 256, fFBK_SSI_TREC, 1, 255, false⟩,
  ⟨rFTM_INC_INT, 4, 1, fFTM_INC_INT_INT, 38, 41, false⟩,
  ⟨rBUS_G_BAL 0, 0x100, 32, fBUS_G_BAL_BAL_CONF, 1, 255, false⟩,
  ⟨rBUS_G_BAL 0, 0x100, 32, fBUS_G_BAL_DMIN, 1, 255, false⟩,
  ⟨rFIO_SIL, 4, 1, fFIO_SIL_SILENCE, 1, 1000, false⟩,
  ⟨rFIO_FIN_CFG 0, 4, 32, fFIO_FIN_CFG_DEB, 1, 65535, false⟩]

/-- A word with the field brought to the nearer limit of its range. -/
def Lim.clip (r : Lim) (v : Word) : Word :=
  let x : Int := if r.sgn then asSigned r.f.w (bget v r.f.b) else bget v r.f.b
  bset v r.f.b (max r.lo (min r.hi x) % 2 ^ r.f.w).toNat

/-- The ranges that hold for a register by itself. -/
def limits : List Lim := limitsTQ ++ limitsLoop 0 ++ limitsLoop 1 ++ limitsLoop 2 ++ limitsPRF ++ limitsDev

/-- A captured word with every field brought to the nearer limit of its range. -/
def limitWord (o : Nat) (v : Word) : Word :=
  limits.foldl (fun v r => if r.hits o then r.clip v else v) v

/-- The status bit that a limited value sets, by the register's window. -/
def satMark (o : Nat) : Option (Nat × Bits) :=
  let n := axisOfOff o
  match o / 0x100000 with
  | 3 => some (rFTM_STAT, fFTM_STAT_INC_SAT)
  | 5 =>
    let w := o % 0x100000 % 0x400
    if w < 0x200 then some (rAXC_STAT n, fAXC_STAT_CFGSAT)
    else if w < 0x280 then some (rTQ_STAT n, fTQ_STAT_CFGSAT) else some (rPRF_STAT n, fPRF_STAT_CFGSAT)
  | 8 => if o < 0x810000 then some (rPGN_STAT n, fPGN_STAT_CFGSAT) else none
  | 9 => if o < 0x910000 then some (rFBK_STAT n, fFBK_STAT_CFGSAT) else none
  | 0xA => some (rBUS_G_STAT (o % 0x100000 / 0x100), fBUS_G_STAT_CFGSAT)
  | 0xB => some (rFIO_STAT, fFIO_STAT_CFGSAT)
  | _ => none

/-- A limited value was applied at a register. -/
def State.sat (s : State) (o : Nat) : State :=
  match satMark o with
  | some m => s.raise m.1 m.2
  | none => s

/-- Load the captured value of one register into its working copy, limited. -/
def State.loadOne (c : CommitRec) (s : State) (o : Nat) : State :=
  match regRow o with
  | none => s
  | some r =>
    let m := BitVec.ofNat 32 r.sh
    let v := limitWord o (c.cap o)
    let s := s.wset o ((s.wget o &&& ~~~m) ||| (v &&& m))
    if v &&& m = c.cap o &&& m then s else s.sat o

/-- Limit a field of a working copy from above or below to another value. -/
def State.limitTo (s : State) (o : Nat) (f : Sh) (bad : Bool) (v : Nat) : State := if bad then (s.wfset o f v).sat o else s

/-- The largest sample offset of the axis's gondola, in 2.5 ns (R93, R190). -/
def State.soffMax (s : State) (n : Nat) : Nat :=
  idSMAX (if s.axTether n = 24 then s.gident homeNode else (s.gd (s.axGon n)).ident) / 10

/-- The limits that one register sets for another in an axis's window (R180, R190, R223, R227, R276, R279). -/
def State.limitAxis (s : State) (n : Nat) : State :=
  let s := (List.range 3).foldl (fun s k =>
    let hi := s.wfld (rAXC_L_YMAX n k) fAXC_L_YMAX_YMAX
    s.limitTo (rAXC_L_YMIN n k) fAXC_L_YMIN_YMIN (decide (asSigned 24 hi < asSigned 24 (s.wfld (rAXC_L_YMIN n k) fAXC_L_YMIN_YMIN))) hi) s
  let lo := s.wfld (rTQ_OBS n) fTQ_OBS_W_LO
  let s := s.limitTo (rTQ_OBS n) fTQ_OBS_W_HI (decide (s.wfld (rTQ_OBS n) fTQ_OBS_W_HI < lo)) lo
  if s.axType n = tyVX then s
  else
    let s := s.limitTo (rAXC_CFG n) fAXC_CFG_POS (s.axTether n == 24 && s.axPos n != 0) 0
    let m := s.soffMax n
    let s := s.limitTo (rAXC_SMP n) fAXC_SMP_SOFF (decide (m < s.wfld (rAXC_SMP n) fAXC_SMP_SOFF)) m
    let s := s.limitTo (rPGN_CFG n) fPGN_CFG_CARRIER
      (decide (2 ≤ s.wfld (rPGN_CFG n) fPGN_CFG_CARRIER)
        && (s.axType n == tyST || (s.axType n == tyCL && decide (1 < descLEGS (s.axDesc n))))) 1
    if s.axType n ≠ tyCL then s
    else
      let f := 4000000000 / s.axPeriod n
      s.limitTo (rCL_DITH n) fCL_DITH_DFREQ (decide (f < s.wfld (rCL_DITH n) fCL_DITH_DFREQ)) f

/-- The ratio of an emulation output (R156). -/
def State.limitEmu (s : State) (e : Nat) : State :=
  let put := fun (s : State) (o : Nat) (f : Sh) (bad : Bool) (v : Nat) =>
    if bad then (s.wfset o f v).raise (rFBK_EMU_STAT e) fFBK_EMU_STAT_RATIOSAT else s
  let s := put s (rFBK_EMU_DEN e) fFBK_EMU_DEN_DEN (s.wfld (rFBK_EMU_DEN e) fFBK_EMU_DEN_DEN == 0) 1
  let s := put s (rFBK_EMU_NUM e) fFBK_EMU_NUM_NUM (s.wfld (rFBK_EMU_NUM e) fFBK_EMU_NUM_NUM == 0) 1
  let d := s.wfld (rFBK_EMU_DEN e) fFBK_EMU_DEN_DEN
  put s (rFBK_EMU_NUM e) fFBK_EMU_NUM_NUM (decide (d < s.wfld (rFBK_EMU_NUM e) fFBK_EMU_NUM_NUM)) d

/-- The axes that a commit selects. -/
def CommitRec.axes (c : CommitRec) : List Nat := if c.has .axis then axesOf c.axsel else []

/-- The state in which every part of the tick plan is in force. -/
def State.lifted (s : State) : State := { s with hold := [] }

/-- The state with the captured values in the working copies, and the limits that they met. -/
def State.loaded (s : State) (c : CommitRec) : State :=
  let s := (s.commitKeys c).foldl (State.loadOne c) s
  let s := c.axes.foldl State.limitAxis s
  if c.has .pulse then (List.range 4).foldl State.limitEmu s else s

/-- The registers whose working copies differ between two states. -/
def changedKeys (s p : State) (c : CommitRec) : List Nat := (s.commitKeys c).filter (fun o => s.wget o != p.wget o)

/-- The axes whose configuration differs. -/
def changedAxes (s p : State) (c : CommitRec) : List Nat :=
  ((changedKeys s p c).filter (fun o => match regRow o with
    | some r => r.grp == .axis
    | none => false)).map axisOfOff |>.eraseDups

/-! ### What the device writes into a gondola (R101, R111, R128, R163, R170) -/

/-- The AUX selection of a feedback source (R128). -/
def auxSel (src : Nat) : Nat := if src = 3 then 1 else if src = 1 ∨ src = 2 then 2 else 0

/-- CH_CFG of a channel in the plan: the tick divider and the AUX selection, every other bit as it stands. -/
def State.chCfg (s : State) (k c : Nat) : Word :=
  let base := match (if k = gkey 24 1 then some homeBal else s.nodeOf k) with
    | some g => s.greg g (aCH_CFG c)
    | none => 0
  let ax := (s.gonAxes k).find? (fun n => s.axCh n == c)
  let cdiv := match ax with
    | some n => s.axClass n - (s.tetherClass (k / 64)).getD 0
    | none => 0
  let aux := match ax with
    | some n => auxSel (s.fbSrc n)
    | none => 0
  bset (bset base ⟨2, 2⟩ cdiv) ⟨12, 4⟩ aux

/-- The tick registers of a gondola under a plan: address and word (R77, R101, R128, R163, R170).  On a tether without channels in the
plan the period is 0, which stops tick counting (R122). -/
def State.gonRegs (s : State) (k : Nat) : List (Nat × Word) :=
  let t := k / 64
  let chs := s.planChs k
  let w := fun (x : Nat) => BitVec.ofNat 32 x
  let idle := s.tetherClass t == none && (s.planGons t).isEmpty
  let per := if idle then 0 else s.framePeriod t
  let q := fun (x : Nat) => if t = 24 then 0 else w (ptUp x)
  [(aG_PLAN, w ((List.range 16).filter chs.contains |>.map (fun c => 2 ^ c)).sum), (aG_TPER, w per),
    (aG_TPH_LO, lo32 (s.frameOrigin t)), (aG_TPH_HI, hi32 (s.frameOrigin t)), (aG_DLN, w (per - usUnits)),
    (aG_QW_W, if idle then 0 else q (s.quietW t per)), (aG_QW_E, if idle then 0 else q (s.quietE t per)), (aG_DPROP, q (s.dProp t))]
    ++ ((List.range 16).filter chs.contains).map (fun c => (aCH_CFG c, s.chCfg k c))

/-- Of those, the channels and the tick timing (R170). -/
def State.gonTiming (s : State) (k : Nat) : List (Nat × Word) :=
  (s.gonRegs k).filterMap (fun e =>
    if e.1 = aG_PLAN ∨ e.1 = aG_TPER ∨ e.1 = aG_TPH_LO ∨ e.1 = aG_TPH_HI then some e
    else if 0x200 ≤ e.1 then some (e.1, e.2 &&& 0xC#32) else none)

/-- The gondolas with a channel in the plan. -/
def State.gonKeys (s : State) : List Nat :=
  (((allAxes.filter (fun n => s.inPlan n && s.axType n != tyVX)).map s.axGon)
    ++ (idx 32 s.busOn).filterMap (fun b => (s.busBal b).map (fun e => e.1))).eraseDups

/-- The gondolas of the device's tethers, and those that either plan touches. -/
def gonsOf (s p : State) : List Nat :=
  ((List.range 24).flatMap (fun t => ((List.range 64).filter (fun g => p.present t g)).map (gkey t)) ++ s.gonKeys ++ p.gonKeys).eraseDups

/-- The tethers whose tick plan differs: those with a gondola that has other registers under it (R77). -/
def tethersMoved (s p : State) : List Nat := (((gonsOf s p).filter (fun k => s.gonRegs k != p.gonRegs k)).map (· / 64)).eraseDups

/-- What a commit writes to a gondola: all its tick registers if it changes the tick plan of the tether (R77, R170), else CH_CFG of the
channels of the axes that it selects (R128). -/
def stageRegs (p : State) (c : CommitRec) (moved : List Nat) (k : Nat) : List (Nat × Word) :=
  if moved.contains (k / 64) then p.gonRegs k
  else ((p.gonAxes k).filter c.axes.contains).map (fun n => (aCH_CFG (p.axCh n), p.chCfg k (p.axCh n)))

/-- All that a commit writes to gondolas. -/
def stageList (s p : State) (c : CommitRec) : List (Nat × List (Nat × Word)) :=
  let moved := tethersMoved s p
  ((gonsOf s p).map (fun k => (k, stageRegs p c moved k))).filter (fun e => !e.2.isEmpty)

/-- Does a commit change the channels of a gondola or the tick timing of a tether (R170)? -/
def structural (s p : State) : Bool := (gonsOf s p).any (fun k => s.gonTiming k != p.gonTiming k)

/-- Stage the registers of a gondola with CFG_WR, and arm G_ACT (R122, R170). -/
def State.stageGon (s : State) (k : Nat) (regs : List (Nat × Word)) (at_ : FTime) : State :=
  (regs ++ [(aG_ACT_LO, lo32 at_), (aG_ACT_HI, hi32 at_)]).foldl (fun s e => s.cfgWrite k e.1 e.2) s

/-- Stage every gondola that a commit writes to. -/
def State.stageGons (s : State) (l : List (Nat × List (Nat × Word))) (at_ : FTime) : State := l.foldl (fun s e => s.stageGon e.1 e.2 at_) s

/-! ### Admission (R94, R126, R161-R170, R183, R189, R498, R533) -/

/-- A refusal: the cause of R441, the LPE_ADM reason with its axis, and the group's status bits. -/
structure CommitNo where
  cause : Nat
  reason : Nat := 0
  axis : Nat := 0
  lane : Nat := 0
  mark : List (Nat × Bits) := []

/-- Causes of R441. -/
def ccADMISSION : Nat := 1
def ccGROUP : Nat := 2
def ccBUSY : Nat := 3
def ccNOPILOT : Nat := 4
def ccCANCELLED : Nat := 5

/-- The structure fields of AXC_An_CFG (R183): all but CATCHEN. -/
def structWord (v : Word) : Word := v &&& ~~~0x40000000#32

/-- Does the source match the channel's FB (R126)?  Every home channel carries quadrature, index, Hall and SSI (R124). -/
def State.sourceOK (s : State) (n : Nat) : Bool :=
  let fb := descFB (s.axDesc n)
  if s.axType n ≠ tyVX ∧ s.axTether n = 24 then decide (s.fbSrc n ≤ 4)
  else
  match s.fbSrc n with
  | 0 => true
  | 1 => fb == 1 || fb == 2
  | 2 => fb == 2
  | 3 => fb == 3
  | 4 => fb == 4
  | _ => s.axType n == tyVX

/-- Is the gondola of an axis fit to be admitted (R47, R74, R94)? -/
def State.gonFit (s : State) (n : Nat) : Bool :=
  if s.axType n = tyVX then true
  else if s.axTether n = 24 then decide (s.axCh n < 16)
  else
    let d := s.gd (s.axGon n)
    s.gonGood (s.axGon n) && d.lock && !s.overAxes (s.axTether n) (s.axPos n)
      && s.present (s.axTether n) (s.axPos n) && decide (s.axCh n < idNCH d.ident)

/-- Slack of an axis (R169): T_a - P(g) - K_L - 2 µs, in 10^-4 of a field-time unit. -/
def State.axSlack (s : State) (n : Nat) : Int :=
  (ptOf (s.axPeriod n) : Int) - (if s.axType n = tyVX then 0 else s.pathP (s.axTether n) (s.axGon n)) - s.kLane (s.axLane n) - ptNs 2000

/-- Plan-table entries and configuration-block bytes that a lane may hold (R360). -/
def laneSrcMax : Nat := 128
def laneBlkMax : Nat := 11264

/-- Does a lane's plan need more sources, or more configuration blocks, than the banked window holds (R360)? -/
def State.srcOvf (s : State) (l : Nat) : Bool := decide (laneSrcMax < (s.laneSources l).length)
def State.bankFull (s : State) (l : Nat) : Bool := decide (laneBlkMax < (s.laneAxes l).length * (s.ln l).cbsz)

/-- Is the control mode or a divider of an axis not permitted (R161, R162)? -/
def State.modeBad (s : State) (n : Nat) : Bool :=
  (s.axCmode n == 2 && (s.axType n == tyST || s.axType n == tyVX)) || s.axPdiv n % s.axVdiv n != 0

/-- Does an SSI read leave the encoder less than TREC (R151)? -/
def State.ssiTight (s : State) (n : Nat) : Bool :=
  s.axType n != tyVX && s.fbSrc n == 4
    && decide (ptOf (s.axPeriod n) < s.tSsi n + ptNs (1000 * s.wfld (rFBK_SSI n) fFBK_SSI_TREC))

/-- Why an axis of the plan `p` is not admitted in place of the plan `s` (R169): an LPE_ADM reason. -/
def axisNo (s p : State) (c : CommitRec) (n : Nat) : Option Nat :=
  let sel := c.axes.contains n
  let moved := structWord (s.wget (rAXC_CFG n)) != structWord (p.wget (rAXC_CFG n))
  if sel ∧ moved ∧ !atRestState (s.axState n) then some 7
  else if p.wflag (rAXC_GRP n) fAXC_GRP_RGEN
      ∧ 4 < ((p.rowGroup (p.wfld (rAXC_GRP n) fAXC_GRP_RGRP)).filter (fun m => decide (m ≤ n))).length then some 4
  else if !p.inPlan n then (if sel ∧ p.modeBad n then some 3 else none)
  else
    let l := p.axLane n
    let t := p.axTether n
    let new := sel && moved
    let fresh := !s.inPlan n || s.axLane n != l
    if fresh ∧ (s.laneRole l = roSPARE ∨ s.laneRole l = roRETIRED) then some 2
    else if p.axClass n = 0 ∧ (l < 14 ∨ p.axType n = tyVX ∨ t ≠ 24) then some 2
    else if p.axType n ≠ tyVX ∧ t < 24 ∧ (p.tetherAxes t).any (fun m => decide (m < n) && p.axClass m != p.axClass n) then some 2
    else if p.srcOvf l ∨ p.bankFull l then some 2
    else if p.modeBad n then some 3
    else if (new ∧ !p.gonFit n) ∨ (sel ∧ !p.sourceOK n) then some 5
    else if new ∧ p.axType n ≠ tyVX ∧ t = 24 ∧ !s.flag rSU_STAT fSU_STAT_CALDONE then some 8
    else if p.axSlack n < 0 ∨ p.ssiTight n then some 1
    else none

/-- The first axis that fails, with its reason. -/
def firstNo (s p : State) (c : CommitRec) : List Nat → Option (Nat × Nat)
  | [] => none
  | n :: ns => match axisNo s p c n with
    | some r => some (r, n)
    | none => firstNo s p c ns

/-- Status bits of lanes whose banked window overflows (R360). -/
def laneMarks (p : State) (l : Nat) : List (Nat × Bits) :=
  (if p.srcOvf l then [(rLPE_L_STAT l, fLPE_L_STAT_SRCOVF)] else []) ++ (if p.bankFull l then [(rLPE_L_STAT l, fLPE_L_STAT_BANKFULL)] else [])

/-- Admission of the whole plan (R169, R170). -/
def admissionNo (s p : State) (c : CommitRec) : Option CommitNo :=
  match firstNo s p c allAxes with
  | some (r, n) => some { cause := ccADMISSION, reason := r, axis := n, lane := p.axLane n, mark := if r = 2 then laneMarks p (p.axLane n) else [] }
  | none =>
    if structural s p ∧ !(c.sched && decide (500 * (usUnits : Int) ≤ tdiff c.at_ c.accepted)) then
      let n := (changedAxes s p c).foldl min 255
      some { cause := ccADMISSION, reason := 6, axis := n, lane := p.axLane n }
    else none

/-! ### Rules of the groups (R163, R244, R263, R308, R416, R508) -/

/-- The first interpolation group that breaks R263. -/
def groupNo (p : State) : Option CommitNo :=
  let bad := fun n =>
    let ms := p.igroup n
    p.inGroup n && (decide (8 < ms.length) || ms.length == 1 || ms.any (fun m => p.axCmode m != 0
      || p.axLane m != p.axLane n || p.axClass m != p.axClass n || p.axPdiv m != p.axPdiv n))
  (allAxes.find? bad).map (fun n => { cause := ccGROUP, axis := n, mark := [(rPRF_STAT n, fPRF_STAT_GRPERR)] })

/-- The legs of a home channel. -/
def State.hchLegs (s : State) (c : Nat) : List Nat :=
  (List.range (s.wfld (rPGN_HCH c) fPGN_HCH_NLEG)).map (fun k => s.wfld (rPGN_HCH c) fPGN_HCH_LEG0 + k)

/-- Does a PULSE commit break R244? -/
def mapNo (s p : State) : Bool :=
  let all := (List.range 16).flatMap p.hchLegs
  decide (all.eraseDups.length < all.length) || all.any (fun l => decide (48 ≤ l))
    || (List.range 16).any (fun c =>
        (p.wfld (rPGN_HCH c) fPGN_HCH_TYPE == 0 && !(p.hchLegs c).isEmpty && (p.hchLegs c).length != 3)
          || (s.wget (rPGN_HCH c) != p.wget (rPGN_HCH c)
                && (s.gonAxes (gkey 24 0)).any (fun n => s.axCh n == c && energised (s.axState n))))

/-- The first tether whose phase is not below its class's period (R163, R191), or the first broken ring with axes in the plan, when the
commit writes its split (R508). -/
def tetherNo (s p : State) (c : CommitRec) : Option CommitNo :=
  let bad := fun t =>
    (match p.tetherClass t with
      | some k => decide (classPeriod k ≤ p.tphase t)
      | none => false)
    || (c.has .tether && decide (t < 24) && t % 2 == 0 && (s.ringEven t).isSome && s.flag (rTTH_STAT t) fTTH_STAT_RING_BROKEN
          && !(s.tetherAxes t).isEmpty)
  ((List.range 25).find? bad).map (fun t =>
    { cause := ccGROUP, mark := if t < 24 then [(rTTH_ENUM t, fTTH_ENUM_REFUSED)] else [] })

/-- The first rule of a group that refuses a commit. -/
def groupsNo (s p : State) (c : CommitRec) : Option CommitNo :=
  match (if c.has .axis then groupNo p else none), (if c.has .axis || c.has .tether then tetherNo s p c else none) with
  | some e, _ => some e
  | none, some e => some e
  | none, none =>
    if c.has .plan ∧ planRefused c.cap (s.flag rPLAN_CAN_STAT fPLAN_CAN_STAT_BUILD) then
      some { cause := ccGROUP, mark := [(rPLAN_CAN_STAT, fPLAN_CAN_STAT_REFUSED)] }
    else if c.has .pulse ∧ mapNo s p then some { cause := ccGROUP, mark := [(rPGN_HSTAT, fPGN_HSTAT_MAPERR)] }
    else if c.has .bus then
      ((List.range 32).find? (fun b => p.busBad b || ballastNoLock s p b)).map (fun b => { cause := ccGROUP, mark := [(rBUS_G_STAT b, fBUS_G_STAT_CFGERR)] })
    else none

/-- Does a commit bear on the tick plan or on the laws' configuration (R169)? -/
def CommitRec.planned (c : CommitRec) : Bool := c.has .axis || c.has .tether || c.has .bus

/-- What CHECK finds (R439). -/
def commitVerdict (s p : State) (c : CommitRec) : Option CommitNo :=
  match (if c.planned then admissionNo s p c else none) with
  | some e => some e
  | none => groupsNo s p c

/-! ### Offer, refusal, cancellation (R438, R441, R442) -/

/-- Is a pilot active and the start-up over (R439, R532)? -/
def State.pilotReady (s : State) : Bool := s.flag rANC_STAT fANC_STAT_ACTVAL && s.fget rSU_STAT fSU_STAT_PHASE == 3

/-- Does an accepted PL_SWAP wait for the exchange (R511)? -/
def State.swapping (s : State) : Bool := s.pilot0.swap || s.pilot1.swap

/-- Complete a COMMIT descriptor. -/
def State.commitDone (s : State) (k : Option Nat) (status payload : Nat) : State :=
  match k with
  | some k => s.finish k status payload
  | none => s

/-- Record a refusal (R441). -/
def State.commitRefuse (s : State) (k : Option Nat) (e : CommitNo) : State :=
  let s := (s.raise rGLB_COMMIT_STAT fGLB_COMMIT_STAT_REFUSED).fset rGLB_COMMIT_STAT fGLB_COMMIT_STAT_CAUSE e.cause
  let s := if e.cause = ccADMISSION then
      (((s.raise rLPE_ADM fLPE_ADM_FAIL).fset rLPE_ADM fLPE_ADM_REASON e.reason).fset rLPE_ADM fLPE_ADM_AXIS e.axis).fset
        rLPE_ADM fLPE_ADM_LANE e.lane
    else s
  let s := e.mark.foldl (fun s m => s.raise m.1 m.2) s
  (s.flogCommit 0 0 0).commitDone k stREFUSED (if e.cause = ccADMISSION then e.reason else 0)

/-- Empty the commit path. -/
def State.commitIdle (s : State) : State := State.fset { s with commit := none } rGLB_COMMIT_STAT fGLB_COMMIT_STAT_PHASE 0

/-- Offer a commit (R438, R439): `at_` none is immediate; `early` completes a scheduled one at acceptance (R379). -/
def State.commitOffer (s : State) (groups : BitVec 8) (axsel : BitVec 256) (at_ : Option FTime) (cmd : Option Nat) (early : Bool) : State :=
  if s.commit.isSome ∨ s.mig.isSome ∨ s.swapping then s.commitRefuse cmd { cause := ccBUSY }
  else if !s.pilotReady then s.commitRefuse cmd { cause := ccNOPILOT }
  else
    let fin := cmd.isSome && early && at_.isSome
    let c : CommitRec := {
      groups := groups, axsel := axsel, sched := at_.isSome, at_ := at_.getD 0, fromDesc := if fin then none else cmd,
      captured := s.regs.filter (fun e => selects groups axsel e.1), stagedG := false, accepted := s.now, armed := false }
    let s := if fin then s.commitDone cmd stOK 0 else s
    let st := rGLB_COMMIT_STAT
    (((State.fset { s with commit := some c } st fGLB_COMMIT_STAT_PHASE 1).fset st fGLB_COMMIT_STAT_GROUPS groups.toNat).fsetb
      st fGLB_COMMIT_STAT_SRCDESC cmd.isSome)

/-- Discard the commit in the path (R442). -/
def State.commitDrop (s : State) (c : CommitRec) (cause : Nat) : State := s.commitIdle.commitRefuse c.fromDesc { cause := cause }

/-- Is a commit due in this cycle (R440)? -/
def State.commitDue (s : State) (c : CommitRec) : Bool := c.armed && (!c.sched || reached s.now c.at_)

/-- GLB_COMMIT.CANCEL (R442). -/
def State.commitCancel (s : State) : State :=
  match s.commit with
  | none => s
  | some c =>
    if c.stagedG ∨ s.commitDue c then s.raise rGLB_COMMIT_STAT fGLB_COMMIT_STAT_CANCELREF else s.commitDrop c ccCANCELLED

/-- What a write of GLB_COMMIT does (R449). -/
def glbCommitWritten (v : Word) (s : State) : State :=
  if bget v fGLB_COMMIT_CANCEL = 1 then s.commitCancel
  else if bget v fGLB_COMMIT_GROUP = 0 then s
  else s.commitOffer (BitVec.ofNat 8 (bget v fGLB_COMMIT_GROUP)) s.axselMask
    (if bget v fGLB_COMMIT_SCHED = 1 then some s.time.cmAt else none) none false

/-- COMMIT_OFFER (R438). -/
def execCommitOffer (via : RegPath) (v : Word) (s : State) : Out :=
  let v := bset v fGLB_COMMIT_CANCEL 0
  .next (s.portWrite via rGLB_COMMIT v (fun _ => glbCommitWritten v))

/-- COMMIT_CANCEL (R442). -/
def execCommitCancel (via : RegPath) (s : State) : Out :=
  let v := bset 0 fGLB_COMMIT_CANCEL 1
  .next (s.portWrite via rGLB_COMMIT v (fun _ => glbCommitWritten v))

/-! ### Lane banks (R360, R361) -/

/-- The lowest index that a list does not hold. -/
def lowestFree (used : List Nat) : Nat := ((List.range 256).find? (fun k => !used.contains k)).getD 0

/-- The indices of a lane that a migration to it has given (R502). -/
def State.migIdx (s : State) (l : Nat) : List Nat :=
  match s.mig with
  | some m => if m.dst = l then m.idx.map (fun e => e.2) else []
  | none => []

/-- Give the axes that a lane newly owns their lane-local index. -/
def State.giveIndex (s : State) (l : Nat) (old : List Nat) : State :=
  ((s.laneAxes l).filter (fun n => !old.contains n)).foldl (fun s' n =>
    let used := s.migIdx l ++ ((s.laneAxes l).filter (fun m => decide (m ≠ n) && (old.contains m || decide (m < n)))).map (fun m => (s'.ax m).lidx)
    s'.updAx n (fun a => { a with lidx := lowestFree used })) s

/-- The bytes of a plan-table entry. -/
def LSource.bytes (x : LSource) : List Byte :=
  let axs := x.axes.take 16
  leBytes 1 ((if x.tick then 2 else 1) + 4 * x.cls) ++ leBytes 1 x.t ++ leBytes 1 x.pos ++ leBytes 1 axs.length
    ++ axs.map (fun n => BitVec.ofNat 8 n) ++ List.replicate (16 - axs.length) 0xFF#8 ++ leBytes 12 0

/-- The address of an axis's configuration block. -/
def State.blockAt (s : State) (n : Nat) : Nat := 0x5400 + (s.ln (s.axLane n)).cbsz * (s.ax n).lidx

/-- The register that an entry of a configuration map names, in the window of an axis (R368). -/
def mapOff (m : Word) (n : Nat) : Nat :=
  let off := fieldOf m 0 16
  match fieldOf m 16 4 with
  | 0 => 0x500000 + 0x400 * n + off
  | 1 => 0x900000 + 0x100 * n + off
  | _ => 0x800000 + 0x100 * n + off

/-- The configuration block of an axis: CSEQ, then the mapped registers. -/
def State.writeBlock (s : State) (n : Nat) (m : Tbl Byte) : Tbl Byte :=
  let x := s.ln (s.axLane n)
  let m := memWrite m (s.blockAt n) (leBytes 4 (tget 0 x.cseq n).toNat)
  x.cmap.foldl (fun m e => memWrite m (s.blockAt n + 4 * fieldOf e 20 12) (leBytes 4 (s.wget (mapOff e n)).toNat)) m

/-- The banked window of a lane under the plan in force. -/
def State.bankBytes (s : State) (l : Nat) : Tbl Byte :=
  let m := memWrite [] 0x4000 ((s.laneSources l).take laneSrcMax |>.flatMap LSource.bytes)
  (s.laneAxes l).foldl (fun m n =>
    s.writeBlock n (memWrite m (0x5000 + 4 * n) (leBytes 4 (s.blockAt n + (s.ax n).lidx * 65536 + 2 ^ 24)))) m

/-- The plan as a lane's bank shows it: with the axes that a migration brings to the lane (R502). -/
def State.bankView (s : State) (l : Nat) : State :=
  match s.mig with
  | none => s
  | some m =>
    if m.dst ≠ l ∨ m.tw = none then s
    else (m.idx.filter (fun e => m.axes.contains e.1)).foldl (fun s e =>
      (s.bothSet (rAXC_CFG e.1) fAXC_CFG_LANE l).updAx e.1 (fun a => { a with lidx := e.2 })) s

/-- Write the bank not in force and flip (R361). -/
def State.flipBank (s : State) (l : Nat) : State :=
  let was := s.flag (rLPE_L_STAT l) fLPE_L_STAT_PBANK
  let m := (s.bankView l).bankBytes l
  let s := s.updLn l (fun x => if was then { x with bank0 := m } else { x with bank1 := m })
  (s.fsetb (rLPE_L_STAT l) fLPE_L_STAT_PBANK (!was)).fsetb (rLPE_L_STAT l) fLPE_L_STAT_BANKBUSY (s.ln l).work.isSome

/-- LPE_Ln_WDG of a lane (R357). -/
def State.setWdg (s : State) (l : Nat) : State :=
  s.fset (rLPE_L_WDG l) fLPE_L_WDG_WDG (if (s.laneAxes l).isEmpty then 0 else min 0xFFFFFF (s.laneCycles l + 64))

/-- LPE_SLACKL of a lane, in core cycles (R169). -/
def State.setSlack (s : State) (l : Nat) : State :=
  let p := s.lifted
  let v : Int := match (p.laneAxes l).map p.axSlack with
    | [] => 0x7FFFFFFF
    | x :: xs => xs.foldl min x / ptOf 40
  s.rset (rLPE_SLACK l) (BitVec.ofInt 32 v)

/-- The lanes whose plan table, or the configuration of one of whose axes, differs (R354). -/
def lanesChanged (s p : State) (c : CommitRec) : List Nat :=
  let ch := changedAxes s p c
  (List.range 16).filter (fun l => s.laneSources l != p.laneSources l || (p.laneAxes l).any ch.contains)

/-! ### CHECK (R439) -/

/-- COMMIT_CHECK_COMPLETE (R439, R441): refused, or ready to be applied; a scheduled commit stages the gondolas' registers (R170).  The
check cannot end while a lane still reads the bank to be written (R361). -/
def execCommitCheckComplete (s : State) : Out :=
  match s.commit with
  | none => .next s
  | some c =>
    let b := s.lifted
    let p := b.loaded c
    if c.armed ∨ s.time.halted ∨ (lanesChanged b p c).any (fun l => s.flag (rLPE_L_STAT l) fLPE_L_STAT_BANKBUSY) then .next s
    else if !s.pilotReady then .next (s.commitDrop c ccNOPILOT)
    else match commitVerdict b p c with
    | some e => .next (s.commitIdle.commitRefuse c.fromDesc e)
    | none =>
      let l := stageList b p c
      let staged := c.sched && !l.isEmpty
      let s := if staged then s.stageGons l c.at_ else s
      let c := { c with armed := true, stagedG := staged, late := c.sched && reached s.now c.at_ }
      .next (State.fset { s with commit := some c } rGLB_COMMIT_STAT fGLB_COMMIT_STAT_PHASE (if c.sched ∧ !c.late then 2 else 1))

/-! ### Application (R440) -/

/-- A loop whose ORDER or INTEG changed (R180). -/
def loopReset (l : LoopSt) (integ : Bool) : LoopSt := { l with e := [0, 0, 0], w := [0, 0, 0], s := if integ then l.y else l.s }

/-- The envelope fields of an axis (R254). -/
def State.envWords (s : State) (n : Nat) : List Word :=
  [s.wget (rPRF_VMAX n), s.wget (rPRF_AMAX n), s.wget (rPRF_DMAX n), s.wget (rPRF_JMAX n), s.wget (rPRF_DSTOP n), s.wget (rPRF_JSTOP n)]

/-- What a commit does to an axis beyond its registers: loops (R180), feedback (R132, R135), the generator (R254), leaving the plan (R183). -/
def State.applyAxis (old : State) (s : State) (n : Nat) : State :=
  let cfg := fun (s : State) (k : Nat) => bget (s.wget (rAXC_L_CFG n k)) ⟨0, 2⟩
  let re := fun (k : Nat) (l : LoopSt) => if cfg old k = cfg s k then l else loopReset l (decide (2 ≤ cfg s k))
  let s := s.updAx n (fun a => { a with l0 := re 0 a.l0, l1 := re 1 a.l1, l2 := re 2 a.l2 })
  let fb := fun (s : State) => (s.fbSrc n, s.wflag (rFBK_CFG n) fFBK_CFG_DIR, s.wget (rFBK_CPR n), s.wget (rFBK_IORG n))
  let place := fun (s : State) => (s.inPlan n, s.axTether n, s.axPos n, s.axCh n)
  let s := if fb old ≠ fb s ∨ (s.inPlan n = true ∧ place old ≠ place s) then s.unref n else s
  let md := fun (s : State) => (s.fbModulo n, s.wget (rFBK_MOD n))
  let s := if md old = md s then s
    else
      let s := s.updAx n (fun a => { a with turns := 0, gen := { a.gen with pset := s.fold n a.gen.pset.toInt } })
      s.fsetb (rFBK_STAT n) fFBK_STAT_PLIM_NOW (!s.fbModulo n && linClamped (s.ax n).sum)
  let s := if old.envWords n = s.envWords n then s else s.updGen n (fun g => { g with replan := true })
  if !s.inPlan n ∧ s.axState n ≠ xOFF ∧ atRestState (s.axState n) = true then s.cause n (.done 7) else s

/-- What a PULSE commit does beyond its registers: emulation accumulators (R156), the inputs' polarity, and the forced legs (R246). -/
def State.applyPulse (old s : State) : State :=
  let ratio := fun (s : State) (e : Nat) => (s.wget (rFBK_EMU_NUM e), s.wget (rFBK_EMU_DEN e), s.wfld (rFBK_EMU_CTL e) fFBK_EMU_CTL_SRC)
  let s := (List.range 4).foldl (fun (s : State) e => if ratio old e = ratio s e then s else { s with emuAcc := tset 0 s.emuAcc e 0 }) s
  let pol := fun (s : State) => BitVec.ofNat 4 (s.wfld rPGN_FLT_CTL fPGN_FLT_CTL_POL)
  let s := if pol old = pol s then s else s.fltLive (s.fltIn ^^^ (pol old ^^^ pol s))
  State.homeForceFrom old s

/-- What a TETHER commit does beyond its registers: the pairing in force, and the enumeration that restores a broken ring's split (R508). -/
def State.applyTether (s : State) : State :=
  (List.range 12).foldl (fun s k =>
    let e := 2 * k
    let s := s.fsetb (rTTH_STAT e) fTTH_STAT_RING_ACT (s.ringEven e).isSome
    if (s.ringEven e).isSome ∧ s.flag (rTTH_STAT e) fTTH_STAT_RING_BROKEN then s.startEnum e false else s) s

/-- The first tick start of a tether at or after `a` (R170). -/
def State.tickFrom (s : State) (t : Nat) (a : FTime) : FTime :=
  let start := tickStartOf (s.frameOrigin t) (s.framePeriod t) (tickAt (s.frameOrigin t) (s.framePeriod t) a)
  if start = a then a else start + BitVec.ofNat 64 (s.framePeriod t)

/-- The registers of the plan `s` that stay in use on a tether until its tick start: those of the axes that it holds under the new plan `p`,
or that leave it, its phase, and the groups whose ballast channel it carries. -/
def heldRegs (s p : State) (t : Nat) : List Nat :=
  let on := fun (q : State) n => q.inPlan n && q.axType n != tyVX && q.axTether n == t
  (((allAxes.filter (fun n => on p n || (on s n && !p.inPlan n))).map rAXC_CFG) ++ [rLPE_TPHASE t]
    ++ (((List.range 32).filter (fun b => s.busBal b != p.busBal b
      && (match p.busBal b, s.busBal b with
        | some e, _ => e.1 / 64 == t
        | none, some e => e.1 / 64 == t
        | none, none => false))).map rBUS_G_CFG)).filter (fun o => s.wget o != p.wget o)

/-- The parts of the tick plan that a commit leaves to the first tick start of their tether that has reached its time (R170). -/
def holdsOf (s p : State) (at_ : FTime) : List PlanHold :=
  (((gonsOf s p).filter (fun k => s.gonTiming k != p.gonTiming k)).map (· / 64)).eraseDups.filterMap (fun t =>
    match heldRegs s p t with
    | [] => none
    | l => some { t := t, start := (if (p.planGons t).isEmpty then s else p).tickFrom t at_, regs := l.map (fun o => (o, s.wget o)) })

/-- What a change of the tick plan or of the axes `ch` means to the lanes (R354, R357, R360, R361) and to what the device shows of it. -/
def State.planChanged (old : State) (ch lanes : List Nat) (s : State) : State :=
  let s := (List.range 16).foldl (fun s l => s.giveIndex l (old.laneAxes l)) s
  let s := ch.foldl (fun s n => s.updLn (s.axLane n) (fun x => { x with cseq := tset 0 x.cseq n (tget 0 x.cseq n + 1) })) s
  let s := lanes.foldl State.flipBank s
  let s := (List.range 16).foldl State.setWdg s
  ((List.range 25).foldl State.pathShow s.showRoles).lostRefresh

/-- Put bus groups that went in or out of use in their state at rest. -/
def State.busMoved (old s : State) : State :=
  (List.range 32).foldl (fun s b => if old.busOn b = s.busOn b then s else s.busRestart b) s

/-- A part of the tick plan comes into force (R170). -/
def State.planLift (s : State) (h : PlanHold) : State :=
  let old := s
  let s := { s with hold := s.hold.filter (fun x => x != h) }
  let axs := allAxes.filter (fun n => h.regs.any (fun e => e.1 == rAXC_CFG n))
  let lanes := (List.range 16).filter (fun l => old.laneSources l != s.laneSources l || (s.laneAxes l).any axs.contains)
  State.planChanged old axs lanes (State.busMoved old (axs.foldl (State.applyAxis old) s))

/-- The parts of the tick plan whose tick has started come into force. -/
def State.planTake (s : State) : State := (s.hold.filter (fun h => reached s.now h.start)).foldl State.planLift s

/-- Load a commit into the working copies and everything that follows in its cycle (R440). -/
def State.commitApply (s : State) (c : CommitRec) : State :=
  let old := s
  let b := s.lifted
  let p := b.loaded c
  let at_ := if c.sched ∧ !c.late then c.at_ else s.now
  let s := { p with hold := s.hold ++ (if c.planned ∧ c.sched then holdsOf b p at_ else []) }
  let ch := changedAxes old s c
  let lanes := lanesChanged old s c
  let s := if c.planned ∧ !c.stagedG then s.stageGons (stageList b p c) s.now else s
  let s := c.axes.foldl (State.applyAxis old) s
  let s := if c.has .tether then s.applyTether else s
  let s := if c.has .plan then
      (s.rset rPLAN_VERSION (s.rget rPLAN_VERSION + 1)).fset rPLAN_CAN_STAT fPLAN_CAN_STAT_OVUSE (overflowUse s.wget)
    else s
  let s := if c.has .pulse then State.applyPulse old s else s
  let s := if c.has .bus then State.busMoved old s else s
  let s := if c.has .fio then (List.range 32).foldl (fun s n => s.finDue n) s else s
  let s := if c.planned then State.planChanged old ch lanes (s.fset rLPE_ADM fLPE_ADM_REASON 0) else s
  let s := (List.range 16).foldl State.setSlack s
  let st := rGLB_COMMIT_STAT
  let s := (s.commitIdle.raise st fGLB_COMMIT_STAT_DONE).fset st fGLB_COMMIT_STAT_SEQ (s.fget st fGLB_COMMIT_STAT_SEQ + 1)
  let s := if c.late then s.raise st fGLB_COMMIT_STAT_LATEAPPLY else s
  let s := if c.stepped then s.raise st fGLB_COMMIT_STAT_STEPPED else s
  ((s.flogCommit 0 0 0).commitDone c.fromDesc stOK (if c.has .plan then s.planver.toNat * 65536 else 0)).planTake

/-- COMMIT_APPLY (R440). -/
def execCommitApply (s : State) : Out :=
  match s.commit with
  | some c => if s.commitDue c ∧ !s.time.halted then .next (s.commitApply c) else .next s
  | none => .next s

/-! ### PEEK, CFG_WORK, CM_AT (R447) -/

/-- What a read of a register returns where it follows another part of the state: the age of the last self-test pass (R500). -/
def State.view (s : State) (o : Nat) : Word :=
  match (List.range 16).find? (fun l => o == rLPE_L_STEST l) with
  | some l => bset (s.rget o) fLPE_L_STEST_AGE (min 255 ((tdiff s.now (s.ln l).lastPass).toNat / (1000 * usUnits)))
  | none => s.rget o

/-- May PEEK name an offset? -/
def peekOK (o : Nat) : Bool := o % 4 == 0 && decide (o < 0xF00000) && decide (o % 0x100000 < 0x40000) && (regRow o).isSome

/-- PEEK. -/
def mboPeek (off : BitVec 24) (s : State) : MbxRes :=
  let o := off.toNat
  if peekOK o then ⟨s, mbxOK, [off.setWidth 32, s.view o] ++ words64 s.now⟩ else mbxRes s mbxRANGE

/-- CFG_WORK. -/
def mboCfgWork (off : BitVec 24) (s : State) : MbxRes :=
  let o := off.toNat
  match regRow o with
  | some r =>
    if r.sh = 0 then mbxRes s mbxRANGE
    else ⟨s, mbxOK, [off.setWidth 32, s.wcopy o &&& BitVec.ofNat 32 r.sh, s.rget o &&& BitVec.ofNat 32 r.sh]⟩
  | none => mbxRes s mbxRANGE

/-- CM_AT, read. -/
def mboCmAtRead (s : State) : MbxRes :=
  let armed := match s.commit with
    | some c => if c.armed ∧ c.sched ∧ !c.late then c.at_ else 0
    | none => 0
  ⟨s, mbxOK, words64 s.time.cmAt ++ words64 armed⟩

/-- CM_AT, written. -/
def mboCmAtWrite (at_ : FTime) (s : State) : MbxRes := mbxRes (s.updTime (fun u => { u with cmAt := at_ })) mbxOK

def execPeek (set : Fin 4) (via : RegPath) (off : BitVec 24) (s : State) : Out :=
  .next (s.mbx set via 0x0F0 0 0 [off.setWidth 32] (mboPeek off))
def execCfgWork (set : Fin 4) (via : RegPath) (off : BitVec 24) (s : State) : Out :=
  .next (s.mbx set via 0x0F1 0 0 [off.setWidth 32] (mboCfgWork off))
def execCmAtRead (set : Fin 4) (via : RegPath) (s : State) : Out := .next (s.mbx set via 0x0F2 0 0 [] mboCmAtRead)
def execCmAtWrite (set : Fin 4) (via : RegPath) (at_ : FTime) (s : State) : Out :=
  .next (s.mbx set via 0x0F2 1 0 (words64 at_) (mboCmAtWrite at_))

end Sys2Proof.Machine
end

