-- ==== Sys2Proof/Machine/Cycle.lean ====
section
/-! DEFINITION. One core cycle: field time (R34-R36, R39, R45), the parts of the tick plan whose tick has come (R170), and the mailbox answers
that are due (R444). -/
namespace Sys2Proof.Machine

/-- A comparator at the end of a core cycle (R45): target and period that FT_TC wrote take effect. -/
def TimeComp.nextCycle (c : TimeComp) : TimeComp :=
  match c.next with
  | some (t, p) => { c with target := t, period := p, next := none, lateArm := false, wait := false, stepped := false }
  | none => { c with wait := false }

/-- The unit at the end of a core cycle (R36): the increment is loaded, then added with the steps accepted in the cycle. -/
def State.timeNext (s : State) : TimeUnit :=
  let i := BitVec.ofNat 8 (s.wfld rFTM_INC_INT fFTM_INC_INT_INT)
  let f := BitVec.ofNat 32 (s.wfld rFTM_INC_FRAC fFTM_INC_FRAC_FRAC)
  let a := s.accum + i.toNat * 2 ^ 32 + f.toNat
  { s.time with
    ft := BitVec.ofNat 64 (a / 2 ^ 32) + s.time.stepPend, frac := BitVec.ofNat 32 a, prev := s.time.ft, incI := i, incF := f, stepPend := 0, cycles := s.time.cycles + 1
    tc := tmap {} TimeComp.nextCycle s.time.tc }

/-- The armed time triggers whose targets a step from `a` to `b` has skipped (R39): comparators, TIME entries, a scheduled commit. -/
def State.markStepped (s : State) (a b : FTime) : State :=
  let u := (List.range 8).foldl (fun u n =>
    if s.flag (rFTM_TC_CTL n) fFTM_TC_CTL_EN ∧ passed a b (u.comp n).target then u.setComp n { u.comp n with stepped := true } else u) s.time
  { s with
    time := u
    cmp := tmap {} (fun e => if e.st = .armed ∧ e.trig = trTIME ∧ passed a b e.key then { e with stepped := true } else e) s.cmp
    commit := s.commit.map (fun c => if c.armed ∧ c.sched ∧ passed a b c.at_ then { c with stepped := true } else c) }

/-- One core cycle. -/
def State.cycle (s : State) : State :=
  if s.coreClock then
    let t := { s with time := s.timeNext }
    (if s.time.stepPend = 0 then t else t.markStepped (t.now - s.time.stepPend) t.now).planTake.mbxTick
  else s

end Sys2Proof.Machine
end

