-- ==== Sys2Proof/Machine/LaneCode.lean ====
section
/-! DEFINITION. The encoding of lane instructions (R334-R339), and what the loader refuses in the code of an image (R346-R353, R369). -/
namespace Sys2Proof.Machine

open Sys2Proof

/-! ### Fields of the two slots (R334-R336) -/

/-- `n` bits of a slot from bit `lo`. -/
def slotF (w lo n : Nat) : Nat := w / 2 ^ lo % 2 ^ n
def slotFin (k w lo : Nat) : Fin (k + 1) := Fin.ofNat (k + 1) (w / 2 ^ lo)
def slotReg (w lo : Nat) : BitVec 6 := BitVec.ofNat 6 (w / 2 ^ lo)

/-- The arithmetic slot of an instruction word: none where its operation is reserved or a reserved field is not zero (R335, R338). -/
def decodeArith (w : Nat) : Option ArithOp :=
  let op := slotF w 58 6
  let ad := slotFin 3 w 56
  let ax := slotFin 15 w 52
  let ay := slotFin 15 w 48
  let as_ := slotFin 3 w 46
  let dd := slotFin 15 w 54
  let x := slotFin 15 w 50
  let y := slotFin 15 w 46
  let imm : BitVec 14 := BitVec.ofNat 14 (w / 2 ^ 36)
  let inA := decide (1 ≤ op ∧ op ≤ 0x0B)
  let inD := decide (0x10 ≤ op ∧ op ≤ 0x1E)
  if (inA || inD) && slotF w 36 10 != 0 then none
  else match op with
    | 0x00 => some .nop
    | 0x01 => some (.mpy ad ax ay)
    | 0x02 => some (.mac ad ax ay)
    | 0x03 => some (.msu ad ax ay)
    | 0x04 => some (.aclr ad)
    | 0x05 => some (.ald ad ax)
    | 0x06 => some (.aadd ad as_)
    | 0x07 => some (.asub ad as_)
    | 0x08 => some (.amov ad as_)
    | 0x09 => some (.aneg ad as_)
    | 0x0A => some (.aabs ad as_)
    | 0x0B => some (.acmp ad as_)
    | 0x10 => some (.add dd x y)
    | 0x11 => some (.adds dd x y)
    | 0x12 => some (.sub dd x y)
    | 0x13 => some (.subs dd x y)
    | 0x14 => some (.and dd x y)
    | 0x15 => some (.or dd x y)
    | 0x16 => some (.xor dd x y)
    | 0x17 => some (.min dd x y)
    | 0x18 => some (.max dd x y)
    | 0x19 => some (.cmp x y)
    | 0x1A => some (.shl dd x y)
    | 0x1B => some (.shr dd x y)
    | 0x1C => some (.sra dd x y)
    | 0x1D => some (.neg dd x)
    | 0x1E => some (.abs dd x)
    | 0x20 => some (.addi dd x imm)
    | 0x21 => some (.addis dd x imm)
    | 0x22 => some (.andi dd x imm)
    | 0x23 => some (.cmpi x imm)
    | 0x24 => some (.shli dd x imm)
    | 0x25 => some (.shri dd x imm)
    | 0x26 => some (.srai dd x imm)
    | _ => none

/-- The move slot of an instruction word: none where its operation, a register number, a mode or a count is reserved, or a reserved field is
not zero (R333, R336, R337, R339). -/
def decodeMove (w : Nat) : Option MoveOp :=
  let op := slotF w 30 6
  let reg := slotReg w 24
  let p := slotFin 7 w 21
  let am : BitVec 2 := BitVec.ofNat 2 (w / 2 ^ 19)
  let mi := slotFin 7 w 16
  let off : BitVec 16 := BitVec.ofNat 16 w
  let cond : BitVec 4 := BitVec.ofNat 4 (w / 2 ^ 26)
  let src := slotF w 25 1 == 1
  let cnt : BitVec 12 := BitVec.ofNat 12 (w / 2 ^ 12)
  let tgt : BitVec 12 := BitVec.ofNat 12 w
  let sh : BitVec 7 := BitVec.ofNat 7 (w / 2 ^ 15)
  let rs := slotReg w 18
  let r := reg.toNat
  let acc := decide (16 ≤ r ∧ r < 20)
  let movReg := fun (k : Nat) => plainReg k || decide (0x30 ≤ k ∧ k ≤ 0x35)
  let onlyIf := fun (c : Bool) (m : MoveOp) => if c then some m else none
  let mem := fun (c : Bool) (m : MoveOp) => onlyIf (c && am != 3) m
  let bOK := slotF w 24 1 == 0
  match op with
  | 0x00 => some .nop
  | 0x01 => mem (plainReg r) (.ld reg p am mi off)
  | 0x02 => mem (plainReg r) (.st reg p am mi off)
  | 0x03 => mem acc (.ldq reg p am mi off)
  | 0x04 => mem acc (.stq reg p am mi off)
  | 0x05 => mem (plainReg r) (.lds reg p am mi off)
  | 0x06 => mem (plainReg r) (.sts reg p am mi off)
  | 0x07 => mem acc (.ldqs reg p am mi off)
  | 0x08 => mem acc (.stqs reg p am mi off)
  | 0x09 =>
    let s := rs.toNat
    onlyIf (slotF w 0 18 == 0 && movReg r && (movReg s || s == 0x36 || decide (16 ≤ s ∧ s < 20))) (.mov reg rs)
  | 0x0A => onlyIf (plainReg r || r == 0x30) (.ldi reg (BitVec.ofNat 24 w))
  | 0x0B => onlyIf (slotF w 0 15 == 0 && decide (-63 ≤ sh.toInt ∧ sh.toInt ≤ 30)) (.wdif (slotFin 3 w 28) (slotFin 7 w 25) (slotFin 7 w 22) sh)
  | 0x0C => onlyIf (slotF w 0 15 == 0 && decide (0 ≤ sh.toInt ∧ sh.toInt ≤ 30)) (.wadd (slotFin 3 w 28) (slotFin 7 w 25) sh)
  | 0x0D => onlyIf (plainReg r && am == 0) (.out reg p am mi off)
  | 0x0E => mem (decide (r ≤ 14) && r % 2 == 0) (.ld2 reg p am mi off)
  | 0x0F => mem (decide (r ≤ 14) && r % 2 == 0) (.st2 reg p am mi off)
  | 0x10 => onlyIf (bOK && decide (cond.toNat ≤ 8)) (.br cond tgt)
  | 0x11 => onlyIf (bOK && decide (cond.toNat ≤ 8)) (.brl cond tgt)
  | 0x12 => onlyIf (bOK && decide (cond.toNat ≤ 8) && tgt == 0) (.ret cond)
  | 0x13 => onlyIf bOK (.loop src cnt tgt)
  | 0x14 => onlyIf (bOK && (src || decide (cnt.toNat ≤ 1024))) (.rep src cnt)
  | 0x15 => some .end_
  | 0x16 => some .rota
  | _ => none

/-- The two slots of an instruction word (R334). -/
def decodeLane (w : BitVec 64) : Option (ArithOp × MoveOp) :=
  match decodeArith w.toNat, decodeMove w.toNat with
  | some a, some m => some (a, m)
  | _, _ => none

/-! ### What an instruction writes, by register number (R337) -/

/-- The register that the arithmetic slot writes. -/
def arithDst (op : ArithOp) : Option Nat :=
  match (({} : LBank).alu op).wr with
  | .none => none
  | .acc k _ => some (16 + k)
  | .data x _ => some x

/-- The pointer that a memory operand modifies. -/
def ptrDst (p : Fin 8) (am : BitVec 2) : List Nat := if am = 0 then [] else [24 + p.val]

/-- The registers that a local load writes at the end of the next instruction (R347). -/
def lateDst : MoveOp → List Nat
  | .ld reg _ _ _ _ | .ldq reg _ _ _ _ => [reg.toNat]
  | .ld2 reg _ _ _ _ => [reg.toNat, reg.toNat + 1]
  | .wdif ad _ _ _ => [16 + ad.val]
  | _ => []

/-- The registers that the move slot writes. -/
def moveDst (m : MoveOp) : List Nat :=
  lateDst m ++ match m with
    | .ld _ p am _ _ | .ldq _ p am _ _ | .ld2 _ p am _ _ | .st _ p am _ _ | .stq _ p am _ _ | .sts _ p am _ _ | .stqs _ p am _ _
    | .st2 _ p am _ _ => ptrDst p am
    | .lds reg p am _ _ | .ldqs reg p am _ _ => reg.toNat :: ptrDst p am
    | .mov rd _ => [rd.toNat]
    | .ldi rd _ => [rd.toNat]
    | .rota => [0x32]
    | .loop _ _ _ => [0x33]
    | .rep _ _ => [0x34]
    | .brl _ _ => [0x35]
    | _ => []

/-- A branch (R349). -/
def branches : MoveOp → Bool
  | .br _ _ | .brl _ _ | .ret _ => true
  | _ => false

/-- A LOOP (R350). -/
def loops : MoveOp → Bool
  | .loop _ _ _ => true
  | _ => false

/-- A REP (R350). -/
def repeats : MoveOp → Bool
  | .rep _ _ => true
  | _ => false

/-- An access to shared memory (R350). -/
def sharedAccess : MoveOp → Bool
  | .lds _ _ _ _ _ | .sts _ _ _ _ _ | .ldqs _ _ _ _ _ | .stqs _ _ _ _ _ => true
  | _ => false

/-- A branch, LOOP, REP, END or ROTA (R348). -/
def controlOp (m : MoveOp) : Bool := branches m || loops m || repeats m || m == .end_ || m == .rota

/-! ### What the loader refuses (R346-R353, R369) -/

/-- May an instruction's two slots stand together (R346)? -/
def slotsOK (i : ArithOp × MoveOp) : Bool :=
  !(arithDst i.1).any (moveDst i.2).contains
    && !(i.1 != .nop && (match i.2 with | .mov rd _ => rd == 0x31 | _ => false))

/-- The ends of the loop bodies of a code that begins at index 0x400. -/
def loopEnds (code : List (ArithOp × MoveOp)) : List Nat :=
  code.filterMap (fun i => match i.2 with
    | .loop _ _ tgt => some (tgt.toNat - 0x400)
    | _ => none)

/-- May the two instructions after a branch or END stand there (R348)? -/
def delayOK (ends : List Nat) (k : Nat) (rest : List (ArithOp × MoveOp)) : Bool :=
  (List.range 2).all (fun j => match rest[j]? with
    | none => true
    | some i => !controlOp i.2 && !ends.contains (k + 1 + j))

/-- Is the body of a LOOP good: two instructions or more, no LOOP or END, no branch last (R350)? -/
def bodyOK (k tgt : Nat) (rest : List (ArithOp × MoveOp)) : Bool :=
  let body := rest.take (tgt - k)
  decide (k + 2 ≤ tgt) && body.all (fun i => !loops i.2 && i.2 != .end_)
    && (match rest[tgt - k - 1]? with
      | some i => !branches i.2
      | none => true)

/-- Do the rules hold for the instruction `i` at place `k`, those after it being `rest`? -/
def placeOK (ends : List Nat) (k : Nat) (i : ArithOp × MoveOp) (rest : List (ArithOp × MoveOp)) : Bool :=
  slotsOK i
    && (match rest with
      | [] => true
      | j :: _ => (lateDst i.2).all (fun d => !(moveDst j.2).contains d && arithDst j.1 != some d)
          && !(repeats i.2 && (controlOp j.2 || sharedAccess j.2 || (match j.2 with | .out _ _ _ _ _ => true | _ => false))))
    && (if branches i.2 || i.2 == .end_ then delayOK ends k rest else true)
    && (match i.2 with
      | .loop _ _ tgt => bodyOK k (tgt.toNat - 0x400) rest
      | _ => true)

/-- Do the rules hold from place `k` on? -/
def placesOK (ends : List Nat) : Nat → List (ArithOp × MoveOp) → Bool
  | _, [] => true
  | k, i :: rest => placeOK ends k i rest && placesOK ends (k + 1) rest

/-- Is the code of an image good (R369)?  `low`: its TARGET includes L0-L13, which have no REP. -/
def codeGood (low : Bool) (words : List (BitVec 64)) : Bool :=
  match words.mapM decodeLane with
  | none => false
  | some code => placesOK (loopEnds code) 0 code && !(low && code.any (fun i => repeats i.2))

end Sys2Proof.Machine
end

