-- ==== Sys2Proof/Machine/Service.lean ====
section
/-! DEFINITION. Migrations and repairs of lanes (R501-R505), lane images (R506, R368, R369), the clearing of rip latches by tether (R507), and
the pilots' update, start and swap (R509-R511), with their mailbox objects (R518). -/
namespace Sys2Proof.Machine

/-! ### Which migrations are refused (R501) -/

/-- Does an image implement every loop that an axis runs? -/
def implementsAxis (s : State) (loops : List (Option Nat)) (n : Nat) : Bool := (s.axLoops n).all (fun k => (loops.getD k none).isSome)

/-- The figures of the image of a lane. -/
def State.laneLoops (s : State) (l : Nat) : List (Option Nat) := if (s.ln l).loops = [] then stockLoops else (s.ln l).loops

/-- The plan with axes moved to a lane. -/
def State.movedTo (s : State) (dst : Nat) (axes : List Nat) : State := axes.foldl (fun s n => s.bothSet (rAXC_CFG n) fAXC_CFG_LANE dst) s

/-- The reason, of those that stand throughout a migration, for which it is refused. -/
def State.migFit (s : State) (src dst : Nat) (axes : List Nat) : Option Nat :=
  let p := s.movedTo dst axes
  if src = dst ∨ s.laneRole dst = roRETIRED then some 3
  else if axes.any (fun n => !s.inPlan n || s.axLane n != src) then some 4
  else if (s.ln src).stsz ≠ (s.ln dst).stsz ∨ !(s.ln dst).target.getLsbD (if dst < 14 then 0 else 1)
      ∨ axes.any (fun n => !implementsAxis s (s.laneLoops dst) n) then some 5
  else if dst < 14 ∧ axes.any (fun n => s.axClass n == 0) then some 6
  else if p.srcOvf dst ∨ p.bankFull dst ∨ (p.laneAxes dst).any (fun n => decide (p.axSlack n < 0)) then some 7
  else none

/-- The reason for which a new migration is refused. -/
def State.migNo (s : State) (src dst : Nat) (axes : List Nat) : Option Nat :=
  if s.fget rGLB_COMMIT_STAT fGLB_COMMIT_STAT_PHASE = 1 ∨ s.mig.isSome then some 1
  else if !s.flag rANC_STAT fANC_STAT_ACTVAL then some 2
  else s.migFit src dst axes

/-- Note a refusal in LPE_MIG. -/
def State.migMark (s : State) (r : Nat) : State := (s.raise rLPE_MIG fLPE_MIG_MIGERR).fset rLPE_MIG fLPE_MIG_REASON r

/-! ### A migration's course (R502, R503) -/

/-- Begin a migration: the pilot checks it. -/
def State.migBegin (s : State) (src dst : Nat) (axes : List Nat) (at_ : FTime) (repair : Bool) (cmd : Option Nat) : State :=
  let m : Migration := { src := src, dst := dst, axes := axes, at_ := at_, tw := none, moved := 0, repair := repair, cmd := cmd }
  let r := rLPE_MIG
  (((((State.fset { s with mig := some m } r fLPE_MIG_PHASE 1).fsetb r fLPE_MIG_REPAIR repair).fset r fLPE_MIG_SRC src).fset
    r fLPE_MIG_DST dst).fset r fLPE_MIG_LEFT axes.length)

/-- A migration offered by the host (R380, R501). -/
def State.migOffer (s : State) (src dst : Nat) (axes : List Nat) (at_ : FTime) (cmd : Option Nat) : State :=
  match s.migNo src dst axes with
  | some r =>
    let s := s.migMark r
    match cmd with
    | some k => s.finish k stREFUSED 0
    | none => s
  | none => s.migBegin src dst axes at_ false cmd

/-- A running migration is refused: its check failed, or the standby was promoted in it (R503). A repair waits to begin anew. -/
def State.migAbort (s : State) (m : Migration) (r : Nat) : State :=
  let s := (s.migMark r).migEnd m stREFUSED
  if m.repair then { s with repairs := s.repairs ++ [m.src] } else s

/-- Every axis has switched: the source's bank loses them, and the migration ends. -/
def State.migDone (s : State) (m : Migration) : State := (if (s.ln m.src).trapped then s else s.flipBank m.src).migEnd m stOK

/-- MIGRATION_CHECK_END (R502): the destination's bank takes the moved axes, and the switch time is fixed. -/
def execMigrationCheckEnd (s : State) : Out :=
  match s.mig with
  | none => .next s
  | some m =>
    if m.tw.isSome ∨ s.flag (rLPE_L_STAT m.dst) fLPE_L_STAT_BANKBUSY then .next s
    else if !s.flag rANC_STAT fANC_STAT_ACTVAL then .next (s.migAbort m 2)
    else match s.migFit m.src m.dst m.axes with
    | some r => .next (s.migAbort m r)
    | none =>
      let used := (s.laneAxes m.dst).map (fun n => (s.ax n).lidx)
      let give := m.axes.foldl (fun (acc : List (Nat × Nat)) n => acc ++ [(n, lowestFree (used ++ acc.map (fun e => e.2)))]) []
      let m := { m with tw := some (if reached s.now m.at_ then s.now else m.at_), idx := give }
      let s := { s with mig := some m }
      let s := m.axes.foldl (fun (s : State) n =>
        s.updLn m.dst (fun x => { x with cseq := tset 0 x.cseq n (tget 0 (s.ln m.src).cseq n) })) s
      let s := (s.flipBank m.dst).fset rLPE_MIG fLPE_MIG_PHASE 2
      .next (if m.axes.isEmpty then s.migDone m else s)

/-- Words of state that switch at one boundary at most (R502). -/
def migWords : Nat := 384

/-- Where the state window of an axis lies in a lane. -/
def Lane.window (x : Lane) (k : Nat) : Nat := x.stbase + x.stsz * k

/-- Does the state window of an axis hold a word with a double-bit error (R504)? -/
def State.windowBad (s : State) (l k : Nat) : Bool :=
  let x := s.ln l
  x.upsets.any (fun u => u.2 && decide (x.window k < 8 * u.1 + 8) && decide (8 * u.1 < x.window k + x.stsz))

/-- What becomes of an axis that leaves a trapped lane (R505). -/
def State.migTreat (s : State) (n : Nat) (tb : FTime) : State :=
  let st := s.axState n
  let ty := s.axType n
  if ty = tyVX ∨ st = xOFF ∨ st = xARMED ∨ st = xFAULT then s
  else if ty = tyTQ ∧ lawState st = true then s.declareLoss n (s.omegaNow n) tb
  else if ty = tyCL ∧ lawState st = true then
    let s := s.updAx n (fun a => { a with l0 := {}, l1 := {}, l2 := {} })
    if st = xSTOPPING then
      (s.startPlan n tb .velocity { p := (s.actPos n).toInt * 2 ^ 32, v := (s.actSpd n).toInt * 2 ^ 32, a := 0 } [(1, 0)] none 0).startStop n tb
    else s.genRestart n tb
  else s.cause n (.stop 2 none)

/-- Copy the state window of an axis to the destination and to its transit region, and hand the axis over (R502, R503). -/
def State.migMove (s : State) (m : Migration) (n k : Nat) : State :=
  let src := s.ln m.src
  let a := (s.ln m.dst).window k
  let bytes := memRead src.mem (src.window (s.ax n).lidx) src.stsz
  let s := s.updLn m.dst (fun x =>
    { x with mem := memWrite x.mem a bytes, upsets := x.upsets.filter (fun u => !(decide (a < 8 * u.1 + 8) && decide (8 * u.1 < a + bytes.length))) })
  let s := (s.sramWrite (n * recStride + 0x600) bytes).updAx n (fun x => { x with lidx := k })
  let s := s.bothSet (rAXC_CFG n) fAXC_CFG_LANE m.dst
  let o := rAXC_CFG n
  let s := { s with commit := s.commit.map (fun c =>
    if selects c.groups c.axsel o then { c with captured := tset (regReset o) c.captured o (bset (c.cap o) fAXC_CFG_LANE.b m.dst) } else c) }
  let tb := s.axTickStart n
  if src.trapped then s.migTreat n tb else s

/-- MIGRATION_SWITCH (R502): at its first tick boundary at or after t_w, when no lower-numbered axis of the migration has the same boundary
to itself and the words of the boundary are not used up. -/
def execMigrationSwitch (n : Fin 256) (s : State) : Out :=
  match s.mig with
  | none => .next s
  | some m =>
    let tb := s.axTickStart n
    let due := match m.tw with
      | some t => reached tb t && m.axes.contains n.val
      | none => false
    let words := (s.ln m.src).stsz / 8 + if m.bAt = tb then m.bWords else 0
    if !due ∨ m.axes.any (fun j => decide (j < n.val) && s.axTickStart j == tb) ∨ migWords < words then .next s
    else
      let k := ((m.idx.find? (fun e => e.1 == n.val)).map (fun e => e.2)).getD 0
      let bad := s.windowBad m.src (s.ax n).lidx
      let m := { m with axes := m.axes.filter (fun j => j != n.val) }
      let m := if bad then m else { m with moved := m.moved + 1, bAt := tb, bWords := words }
      let s := if bad then s.faultCause n fcLANE false else s.migMove m n k
      let s := State.fset { s with mig := some m } rLPE_MIG fLPE_MIG_LEFT m.axes.length
      let s := ((((s.setWdg m.src).setWdg m.dst).setSlack m.src).setSlack m.dst).showRoles.lostRefresh
      .next (if m.axes.isEmpty then s.migDone m else s)

/-! ### Repair (R504) -/

/-- The lane on which a repair places an axis: the lowest spare that passes, else the lowest other that passes. -/
def State.repairLane (p : State) (src n : Nat) : Option Nat :=
  let ls := (List.range 16).filter (fun l => p.laneRole l == roSPARE) ++ (List.range 16).filter (fun l => p.laneRole l != roSPARE)
  ls.find? (fun l => (p.migFit src l [n]).isNone)

/-- Where the axes of a lane go, in ascending order, each after those before it are placed. -/
def State.repairPlan (s : State) (src : Nat) : List (Nat × Option Nat) :=
  ((s.laneAxes src).foldl (fun (acc : State × List (Nat × Option Nat)) n =>
    let d := if s.windowBad src (s.ax n).lidx then none else acc.1.repairLane src n
    ((match d with
      | some l => acc.1.movedTo l [n]
      | none => acc.1), acc.2 ++ [(n, d)])) (s, [])).2

/-- Start the repair of a lane's axes: those of the first destination; the others follow when it has ended, and those that fit no lane take
cause LANE. -/
def State.repairStart (s : State) (l : Nat) : State :=
  let plan := s.repairPlan l
  let dsts := (plan.filterMap (fun e => e.2)).eraseDups
  let s := { s with repairs := s.repairs.filter (fun j => j != l) ++ if dsts.length ≤ 1 then [] else [l] }
  let s := if dsts.length ≤ 1 then (plan.filter (fun e => e.2.isNone)).foldl (fun s e => s.faultCause e.1 fcLANE false) s else s
  match dsts with
  | [] => s
  | d :: _ => s.migBegin l d ((plan.filter (fun e => e.2 == some d)).map (fun e => e.1)) s.now true none

/-- REPAIR_MIGRATION_START (R504): a commit in CHECK that has staged nothing is cancelled; one that applies at once is awaited. -/
def execRepairMigrationStart (l : Fin 16) (s : State) : Out :=
  if !s.repairs.contains l.val ∨ s.mig.isSome ∨ !s.flag rANC_STAT fANC_STAT_ACTVAL then .next s
  else match s.commit with
  | some c =>
    if !c.armed then .next ((s.commitDrop c ccCANCELLED).repairStart l)
    else if c.sched ∧ !c.late then .next (s.repairStart l)
    else .next s
  | none => .next (s.repairStart l)

/-! ### Lane images (R368, R369, R506) -/

/-- A field of an image header. -/
def imgF (b : List Byte) (at_ k : Nat) : Nat := leNat ((b.drop at_).take k)

/-- The bytes that an image's header says it has. -/
def imgLen (b : List Byte) : Nat := 64 + 4 * imgF b 26 2 + 8 * imgF b 16 2 + imgF b 18 2

/-- The code of an image begins at program index 0x400 (R330). -/
def imgEntryOK (b : List Byte) (e : Nat) : Bool := decide (0x400 ≤ e) && decide (e < 0x400 + imgF b 16 2)

/-- Are the header and the check sum of an image good (R368, R369)? -/
def imgGood (b : List Byte) : Bool :=
  decide (64 ≤ b.length) && decide (imgLen b ≤ b.length) && imgF b 0 4 == 0x494C5459 && imgF b 4 2 == 1 && decide (imgF b 6 1 ≤ 1)
    && decide (imgF b 7 1 < 4) && decide (1 ≤ imgF b 16 2) && decide (imgF b 16 2 ≤ 3072) && decide (imgF b 18 2 ≤ 28672)
    && imgEntryOK b (imgF b 20 2) && (imgF b 22 2 == 0 || imgEntryOK b (imgF b 22 2))
    && imgF b 24 2 % 8 == 0 && decide (8 ≤ imgF b 24 2) && decide (imgF b 24 2 ≤ 1024) && decide (imgF b 26 2 ≤ 255)
    && decide (0x9000 ≤ imgF b 28 2) && imgF b 30 2 % 8 == 0 && decide (imgF b 30 2 ≤ 512)
    && (List.range 6).all (fun k => decide (imgF b (32 + 4 * k) 4 < 2 ^ 25)) && imgF b 56 4 == 0
    && imgF b 60 4 == (crc32 (b.take 60 ++ (b.drop 64).take (imgLen b - 64))).toNat

/-- The instruction words of an image. -/
def imgCode (b : List Byte) : List (BitVec 64) :=
  (List.range (imgF b 16 2)).map (fun k => BitVec.ofNat 64 (imgF b (64 + 4 * imgF b 26 2 + 8 * k) 8))

/-- The figures w = c + 16 m of the loops that an image declares (R167, R368). -/
def imgLoops (b : List Byte) : List (Option Nat) :=
  (List.range 6).map (fun k =>
    let v := imgF b (32 + 4 * k) 4
    if v.testBit 24 then some (v % 65536 + 16 * (v / 65536 % 256)) else none)

/-- Write an image into a lane: program, initial data, registers cleared (R327, R506).  The rest of data memory stays. -/
def Lane.loadImage (x : Lane) (b : List Byte) : Lane :=
  let nmap := imgF b 26 2
  let code := b.drop (64 + 4 * nmap)
  let data := (code.drop (8 * imgF b 16 2)).take (imgF b 18 2)
  { x with
    fg := {}, bg := {}, pend := [], pendSt := none, slots := none,
    prog := (List.range (imgF b 16 2)).foldl (fun p k => tset 0 p (0x400 + k) (BitVec.ofNat 64 (imgF code (8 * k) 8))) (x.prog.filter (fun e => decide (e.1 < 0x400))),
    mem := memWrite x.mem 0x9000 data,
    upsets := x.upsets.filter (fun u => !(decide (0x9000 ≤ 8 * u.1) && decide (8 * u.1 + 8 ≤ 0x9000 + data.length))),
    eframe := BitVec.ofNat 12 (imgF b 20 2), etick := BitVec.ofNat 12 (imgF b 22 2), cbsz := imgF b 24 2,
    cmap := (List.range nmap).map (fun k => BitVec.ofNat 32 (imgF b (64 + 4 * k) 4)),
    stbase := imgF b 28 2, stsz := imgF b 30 2, loops := imgLoops b, imgKind := BitVec.ofNat 8 (imgF b 6 1),
    target := BitVec.ofNat 2 (imgF b 7 1), trapped := false }

/-- Post LNLOAD (R517). -/
def State.lnLoadEvent (s : State) (l status : Nat) : State :=
  s.devEvent 0x32 l (status + (s.rget (rLPE_L_IMGVER l)).toNat * 2 ^ 32)

/-- A self-test pass of a lane ends well (R500). -/
def State.passed (s : State) (l : Nat) : State :=
  (s.fset (rLPE_L_STEST l) fLPE_L_STEST_PASS (s.fget (rLPE_L_STEST l) fLPE_L_STEST_PASS + 1)).updLn l (fun x => { x with lastPass := s.now })

/-- The image is in the lane: its self-test pass decides (R506). -/
def State.lnTested (s : State) (l : Nat) (b : List Byte) (ok : Bool) : State :=
  let s := ((s.updLn l (fun x => x.loadImage b)).rset (rLPE_L_IMGID l) (BitVec.ofNat 32 (imgF b 8 4))).rset (rLPE_L_IMGVER l)
    (BitVec.ofNat 32 (imgF b 12 4))
  if ok then
    let s := (s.passed l).fset (rLPE_L_STAT l) fLPE_L_STAT_RUN 1
    (s.setRole l (s.freeRole l)).lnLoadEvent l 0
  else ((s.lnLoadEvent l 2).raise (rLPE_L_STEST l) fLPE_L_STEST_FAIL).trapLane l tcSELFTEST

/-- LANE_LOAD_COMPLETE (R506): a refused image leaves the lane as it was. -/
def execLaneLoadComplete (l : Fin 16) (res : LoadResult) (s : State) : Out :=
  if !s.su.loadMask.getLsbD l then .next s
  else
    let s := { s with su := { s.su with loadMask := s.su.loadMask &&& ~~~(BitVec.ofNat 16 (2 ^ l.val)) } }
    let bad := (s.raise (rLPE_L_STAT l) fLPE_L_STAT_LOADERR).lnLoadEvent l 1
    match res.image with
    | none => .next bad
    | some all =>
      let b := all.take s.su.loadLen.toNat
      if imgGood b ∧ codeGood ((imgF b 7 1).testBit 0) (imgCode b) ∧ (s.laneAxes l).all (implementsAxis s (imgLoops b)) then .next (s.lnTested l b res.testOk)
      else .next bad

/-- The objects of this chapter are refused until the start-up is over (R532). -/
def State.ifReady (s : State) (perform : State → MbxRes) : MbxRes :=
  if s.fget rSU_STAT fSU_STAT_PHASE = 3 then perform s else mbxRes s mbxREFUSED

/-- LN_LOAD (R506, R518, R412). -/
def mboLnLoad (via : RegPath) (addr : BitVec 64) (len mask : Word) (s : State) : MbxRes := s.ifReady fun s =>
  let ls := (List.range 16).filter (fun l => mask.getLsbD l)
  if via = .p8 ∧ !s.portFlag 8 fPLAN_P_FLAGS_LANE then mbxRes (s.deny 8) mbxDENIED
  else if addr.toNat % 8 ≠ 0 then mbxRes s mbxRANGE
  else if s.su.loadMask ≠ 0 ∨ ls.any (fun l => !(s.laneAxes l).isEmpty || (s.fget rLPE_RETIRE fLPE_RETIRE_HARD).testBit l) then mbxRes s mbxREFUSED
  else mbxRes { s with su := { s.su with loadMask := mask.setWidth 16, loadLen := len } } mbxOK

def execLnLoad (set : Fin 4) (via : RegPath) (addr : BitVec 64) (len mask : Word) (s : State) : Out :=
  .next (s.mbx set via 0x080 1 0 (words64 addr ++ [len, mask]) (mboLnLoad via addr len mask))

/-! ### Rip latches by tether (R507) -/

/-- TT_RIPCLR: a broadcast G_CLR.RIP on the tether; T24 has no link to send it on. -/
def mboTtRipclr (i : BitVec 14) (s : State) : MbxRes := s.ifReady fun s =>
  let t := i.toNat
  if 24 < t then mbxRes s mbxRANGE
  else if t = 24 then mbxRes s mbxOK
  else if !s.ripClosed10 t then mbxRes s mbxREFUSED
  else mbxRes (s.txQueue t (cfgWrFrame 0 true 0 0x048 [1 <<< 17])) mbxOK

def execTtRipclr (set : Fin 4) (via : RegPath) (index : BitVec 14) (s : State) : Out :=
  .next (s.mbx set via 0x081 1 index [] (mboTtRipclr index))

/-! ### Pilots (R509-R511) -/

/-- A pilot by number. -/
def State.pilot (s : State) (p : Nat) : Pilot := if p = 0 then s.pilot0 else s.pilot1
def State.setPilot (s : State) (p : Nat) (x : Pilot) : State := if p = 0 then { s with pilot0 := x } else { s with pilot1 := x }

/-- The fields of PIL_STAT by pilot or by slot. -/
def pilSLOT (p : Nat) : Bits := if p = 0 then fPIL_STAT_P0SLOT else fPIL_STAT_P1SLOT
def pilRUN (p : Nat) : Bits := if p = 0 then fPIL_STAT_P0RUN else fPIL_STAT_P1RUN
def pilJSYNC (p : Nat) : Bits := if p = 0 then fPIL_STAT_JSYNC0 else fPIL_STAT_JSYNC1

/-- The active pilot, as the shell knows it (R474). -/
def State.activePilot (s : State) : Option Nat :=
  if s.flag rANC_STAT fANC_STAT_ACTVAL then some (s.fget rANC_STAT fANC_STAT_ACTIVE) else none

/-- A slot is found good, with its version, or invalid. -/
def State.slotShow (s : State) (b ok : Bool) (version : Word) : State :=
  let s := s.fsetb rPIL_STAT (if b then fPIL_STAT_VALB else fPIL_STAT_VALA) ok
  s.rset (if b then rPIL_VERB else rPIL_VERA) (if ok then version else 0)

def slotNo (b : Bool) : Nat := if b then 1 else 0

/-- PILOTUPD (R517). -/
def State.pilotEvent (s : State) (src what : Nat) (slot : Bool) : State := s.devEvent 0x33 src (what + slotNo slot * 256)

/-- PL_UPD (R509). -/
def mboPlUpd (len : Word) (s : State) : MbxRes := s.ifReady fun s =>
  let apart := s.pilot0.running && s.pilot1.running && s.pilot0.slot != s.pilot1.slot
  match s.activePilot with
  | none => mbxRes s mbxREFUSED
  | some p =>
    if apart ∨ s.su.updRun.isSome ∨ 4 * 2 ^ 20 < len.toNat then mbxRes s mbxREFUSED
    else mbxRes (State.fset { s with su := { s.su with updRun := some (!(s.pilot p).slot) } } rPIL_STAT fPIL_STAT_UPD 1) mbxOK

def execPlUpd (set : Fin 4) (via : RegPath) (addr : BitVec 64) (len : Word) (s : State) : Out :=
  .next (s.mbx set via 0x082 1 0 (words64 addr ++ [len]) (mboPlUpd len))

/-- PILOT_UPDATE_COMPLETE (R509). -/
def execPilotUpdateComplete (ok : Bool) (version : Word) (s : State) : Out :=
  match s.su.updRun with
  | none => .next s
  | some b =>
    let s := State.fset { s with su := { s.su with updRun := none } } rPIL_STAT fPIL_STAT_UPD (if ok then 2 else 3)
    .next ((s.slotShow b ok version).pilotEvent 0xFF (if ok then 0 else 1) b)

/-- PL_START (R510): the pilot is held in reset until its slot is verified. -/
def mboPlStart (i : BitVec 14) (data0 : Word) (s : State) : MbxRes := s.ifReady fun s =>
  let p := i.toNat
  if 1 < p then mbxRes s mbxRANGE
  else if s.activePilot = some p then mbxRes s mbxREFUSED
  else
    let x := s.pilot p
    let s := s.setPilot p { x with running := false, swap := false, bootPend := some (data0.getLsbD 0), bootNext := data0.getLsbD 1 }
    let s := (s.fset rPIL_STAT (pilRUN p) 0).fset rPIL_STAT (pilJSYNC p) 0
    mbxRes { s with ancView := { s.ancView with fenced := if s.ancView.fenced = some (p == 1) then none else s.ancView.fenced } } mbxOK

def execPlStart (set : Fin 4) (via : RegPath) (index : BitVec 14) (data0 : Word) (s : State) : Out :=
  .next (s.mbx set via 0x083 1 index [data0] (mboPlStart index data0))

/-- PILOT_BOOT_COMPLETE (R510): a slot that fails verification is not started. -/
def execPilotBootComplete (p : Fin 2) (ok : Bool) (s : State) : Out :=
  let x := s.pilot p
  match x.bootPend with
  | none => .next s
  | some b =>
    if ok then
      let s := s.setPilot p { x with running := true, slot := b, bootPend := none, bootNext := false }
      let s := (s.fset rPIL_STAT (pilRUN p) 1).fsetb rPIL_STAT (pilSLOT p) b
      let s := if x.bootNext then State.fsetb { s with su := { s.su with bootSlot := b } } rPIL_STAT fPIL_STAT_BOOT b else s
      .next (s.pilotEvent p 2 b)
    else
      .next (((s.setPilot p { x with bootPend := none, bootNext := false }).slotShow b false 0).pilotEvent p 3 b)

/-- A pilot reads the configuration journal (R28, R510): the records that hold a double-bit error are marked invalid (R26). -/
def State.journalRead (s : State) : State :=
  (s.sramUpsets.filter (fun u => decide (0x34C000 ≤ 8 * u.1) && decide (8 * u.1 < 0x44C000))).foldl (fun s u =>
    let r := s.sramCheck (8 * u.1)
    if r.2 then r.1 else { r.1 with journalBad := (r.1.journalBad ++ [u.1]).eraseDups }) s

/-- JOURNAL_SYNC (R510). -/
def execJournalSync (p : Fin 2) (s : State) : Out :=
  let x := s.pilot p
  if x.running ∧ !s.flag rPIL_STAT (pilJSYNC p) then .next ((s.journalRead.fset rPIL_STAT (pilJSYNC p) 1).pilotEvent p 4 x.slot) else .next s

/-- PL_SWAP (R511): the active pilot beats with SWAP = 1. -/
def mboPlSwap (s : State) : MbxRes := s.ifReady fun s =>
  match s.activePilot with
  | none => mbxRes s mbxREFUSED
  | some p =>
    if !s.flag rANC_STAT fANC_STAT_STBY ∨ (if p = 0 then s.anchor.beat1 else s.anchor.beat0).refuse
        ∨ s.fget rGLB_COMMIT_STAT fGLB_COMMIT_STAT_PHASE = 1 ∨ s.mig.isSome ∨ s.su.updRun.isSome then mbxRes s mbxREFUSED
    else mbxRes (s.setPilot p { s.pilot p with swap := true }) mbxOK

def execPlSwap (set : Fin 4) (via : RegPath) (s : State) : Out := .next (s.mbx set via 0x084 1 0 [] mboPlSwap)

end Sys2Proof.Machine
end

