-- ==== Sys2Proof/Machine/AncWord.lean ====
section
/-!
DEFINITION. The shell's side of the anchor's status word (R454, R468, R477, R481-R483): block ANC mirrors the word, and the stops, the
openings, the promotions and the answers that it carries take their effect in the shell.
-/
namespace Sys2Proof.Machine

open Sys2Proof

/-- Write several fields of one register. -/
def State.fsetAll (s : State) (o : Nat) (fs : List (Bits × Nat)) : State := fs.foldl (fun s f => s.fset o f.1 f.2) s

/-- A mask as a number, bit by bit. -/
def maskBy (p : Nat → Bool) : Nat := (loops25.filter p).foldl (fun m n => m + 2 ^ n) 0

def bnat (b : Bool) : Nat := if b then 1 else 0

/-! ### The mirror (R481) -/

/-- ANC_STAT without LINKLOST, which the shell sets. -/
def Anchor.statFields (a : Anchor) : List (Bits × Nat) :=
  [(fANC_STAT_STATE, a.st.toNat), (fANC_STAT_GUARDCL, bnat a.guardClosed), (fANC_STAT_STOP2, bnat a.stop2),
   (fANC_STAT_STOP1, bnat a.stop1), (fANC_STAT_STOP1RUN, bnat a.stop1run), (fANC_STAT_ACTIVE, a.activeNo),
   (fANC_STAT_ACTVAL, bnat a.actval), (fANC_STAT_STBY, bnat a.stby), (fANC_STAT_NOPILOT, bnat a.nopilot),
   (fANC_STAT_BUSTRIP, bnat a.bustrip), (fANC_STAT_FCODE, a.fcode.toNat), (fANC_STAT_ALIVE, a.alive.toNat)]

def Anchor.strapFields (a : Anchor) : List (Bits × Nat) :=
  [(fANC_STRAP_LATCHED, a.strapLatched.toNat), (fANC_STRAP_LIVE, a.straps.toNat), (fANC_STRAP_LIVEN, a.strapsN.toNat),
   (fANC_STRAP_STRAPERR, bnat a.strapErr)]

def Anchor.guardFields (a : Anchor) : List (Bits × Nat) :=
  [(fANC_GUARD_CH, a.ch.toNat), (fANC_GUARD_PAIR, a.pair.toNat), (fANC_GUARD_DISC, a.disc.toNat)]

/-- ANC_LOOPn (R481). -/
def Anchor.loopFields (a : Anchor) (n : Nat) : List (Bits × Nat) :=
  let l := a.loop n
  [(fANC_LOOP_STATE, l.phase.toNat), (fANC_LOOP_CAUSE, l.cause.toNat), (fANC_LOOP_HOLD, bnat (a.holdopen.getLsbD n)),
   (fANC_LOOP_TFH, bnat l.tfh), (fANC_LOOP_TFL, bnat l.tfl), (fANC_LOOP_OVL, bnat l.ovl), (fANC_LOOP_OPENS, l.opens.toNat)]

/-- Is the loop shown as closed: CLOSED, or in a test pulse (R460, R462)? -/
def Loop.shownClosed (l : Loop) : Bool := l.phase == 2 || l.phase == 3 || l.phase == 4

/-- A status word's fields in block ANC; the counts go into the counters of the shell. -/
def State.ancMirror (s : State) : State :=
  let a := s.anchor
  let s := s.fsetAll rANC_STAT a.statFields
  let s := s.fsetAll rANC_STRAP a.strapFields
  let s := s.fset rANC_RIPCL fANC_RIPCL_CLOSED (maskBy (fun n => (a.loop n).shownClosed))
  let s := s.fset rANC_RIPLAT fANC_RIPLAT_LATCHED (maskBy (fun n => (a.loop n).latched != 0))
  let s := s.fsetAll rANC_GUARD a.guardFields
  let s := loops25.foldl (fun s n => s.fsetAll (rANC_LOOP n) (a.loopFields n)) s
  let s := ([a.badbeat, a.missedCnt, a.promCnt, a.discCnt].zipIdx).foldl
    (fun (s : State) c => if c.1 = 0 then s else s.countN (rANC_CNT c.2) c.1) s
  { s with anchor := { a with badbeat := 0, missedCnt := 0, promCnt := 0, discCnt := 0 }
           ancView := { s.ancView with lat := loops25.foldl (fun t n => tset 0x800 t n (a.loop n).latched) s.ancView.lat } }

/-! ### What the word brings (R468, R477, R320, R482, R483) -/

/-- At a promotion the shell fences the former active pilot, refuses a commit in CHECK that has staged nothing in the gondolas, and a
migration in its check (R477, R503). -/
def State.promoted (s : State) (new : Nat) : State :=
  let old := 1 - new
  let s := s.setPilot old { (s.pilot old) with running := false, swap := false, bootPend := none }
  let s := (s.fset rPIL_STAT (pilRUN old) 0).fset rPIL_STAT (pilJSYNC old) 0
  let s := { s with ancView := { s.ancView with fenced := some (old == 1) } }
  let s := match s.commit with
    | some c => if c.armed ∨ c.stagedG then s else s.commitDrop c ccNOPILOT
    | none => s
  let s := match s.mig with
    | some m => if m.tw.isNone then s.migAbort m 2 else s
    | none => s
  s.flogTrigger 4 0

/-- The shell's side of one anchor event, beside its ANC_EVT bit and its entry. -/
def State.ancEvtEffect (s : State) (code source : Nat) (data : BitVec 24) : State :=
  match code with
  | 0x22 => if data.getLsbD 8 then s.flogTrigger 1 0 else s
  | 0x23 => { s with ancView := { s.ancView with openCause := tset 0 s.ancView.openCause source (data.toNat % 16)
                                                 openAt := tset 0 s.ancView.openAt source s.now } }
  | 0x24 => { s with ancView := { s.ancView with closeAt := tset 0 s.ancView.closeAt source s.now } }
  | 0x26 =>
    let s := { s with pilot0 := { s.pilot0 with swap := false }, pilot1 := { s.pilot1 with swap := false } }
    if data.toNat / 256 % 256 = 0 then s.promoted (data.toNat % 2) else s
  | _ => s

/-- One anchor event (R482): the bit of ANC_EVT, the entry, the effect. -/
def State.ancEvt (s : State) (e : Nat × Nat × BitVec 24) : State :=
  ((s.raise rANC_EVT ⟨e.1 - 0x20, 1⟩).devEvent e.1 e.2.1 e.2.2.toNat).ancEvtEffect e.1 e.2.1 e.2.2

/-- A device stop reaches every axis of the plan as a stop request (R468). -/
def State.ancStop (s : State) (kind : Nat) : State := (allAxes.filter s.inPlan).foldl (fun s n => s.cause n (.stop kind none)) s

/-- The answer to the requests of stage 3 that the anchor has taken (R320). -/
def State.busAnswer (s : State) (accepted : Bool) : State :=
  let bs := (List.range 32).filter (fun b => (s.bg b).reqWait && !s.ancView.sent.any (fun w => s.busLoops b &&& busPart w == s.busLoops b))
  bs.foldl (fun (s : State) b =>
    let s := s.updBg b (fun g => { g with reqWait := false, reqLoops := if accepted then g.reqLoops else 0 })
    if accepted then s else s.raise (rBUS_G_STAT b) fBUS_G_STAT_TRIPINH) { s with anchor := { s.anchor with reqAns := none } }

/-- STOPSRC of every axis follows the stops that the anchor holds (R190). -/
def State.showStops (s : State) : State := allAxes.foldl (fun s n => s.fsetb (rAXC_STATE n) fAXC_STATE_STOPSRC s.anchorStop) s

/-- The fault levels of the axes of the plan as they arise (R184, R186). -/
def State.notePlan (s : State) : State := (allAxes.filter s.inPlan).foldl State.noteLevels s

/-- The anchor lives: ALIVE has changed (R454). -/
def State.ancAlive (s : State) : State :=
  if s.anchor.alive != s.ancView.lastAlive then
    State.fset { s with ancView := { s.ancView with lastAlive := s.anchor.alive, aliveAt := s.now } } rANC_STAT fANC_STAT_LINKLOST 0
  else s

/-- The shell shows what a status word says, and since when each loop is closed; the events of the word are taken from the anchor. -/
def State.ancShow (s : State) : State :=
  let closed0 := s.rget rANC_RIPCL
  let held := s.anchorStop
  let s := s.ancMirror
  let s := if s.anchorStop = held then s else s.showStops
  let since := loops25.foldl (fun m n =>
    if (s.rget rANC_RIPCL).getLsbD n && !closed0.getLsbD n then tset 0 m n s.now else m) s.ancView.ripSince
  { s with ancView := { s.ancView with ripSince := since }, anchor := { s.anchor with evts := [] } }

/-- The shell receives a status word. -/
def State.ancWord (s : State) : State :=
  let a := s.anchor
  let closed0 := s.rget rANC_RIPCL
  let stop1 := a.stop1 && !s.flag rANC_STAT fANC_STAT_STOP1
  let stop2 := a.stop2 && !s.flag rANC_STAT fANC_STAT_STOP2
  let s := a.evts.foldl State.ancEvt s.ancAlive.ancShow
  let s := if stop1 then s.ancStop 2 else s
  let s := if stop2 then s.ancStop 1 else s
  let s := if s.rget rANC_RIPCL = closed0 then s else s.notePlan
  match a.reqAns with
  | some x => s.busAnswer x
  | none => s

/-- ANCHOR_STATUS_WORD (R454): no word comes from an anchor held in reset. -/
def execAnchorStatusWord (s : State) : Out := .next (if s.ancHeld then s else s.ancWord)

/-- ANCHOR_LINK_LOST (R454): ALIVE has not changed for 1 ms. -/
def execAnchorLinkLost (s : State) : Out :=
  .next (if !s.flag rANC_STAT fANC_STAT_LINKLOST ∧ reached s.now (s.ancView.aliveAt + BitVec.ofNat 64 (1000 * usUnits)) then
    (((s.fset rANC_STAT fANC_STAT_LINKLOST 1).raise rANC_EVT fANC_EVT_LINKLOST).devEvent 0x2B 0 0).notePlan
  else s)

end Sys2Proof.Machine
end

