-- ==== Sys2Proof/Machine/Host.lean ====
section
/-! DEFINITION. The host rings (R374-R377, R382, R384, R390), network frames (R391-R393) and the host-silence watchdog (R394, R395). -/
namespace Sys2Proof.Machine

/-! ### Submission rings -/

/-- Entries of a submission ring (R374). -/
def State.sqSize (s : State) (q : Nat) : Nat := 2 ^ max 4 (min 12 (s.fget (rHIF_SQ_CFG q) fHIF_SQ_CFG_LOG2SIZE))

def State.sqEn (s : State) (q : Nat) : Bool := s.flag (rHIF_SQ_CFG q) fHIF_SQ_CFG_EN
def State.sqCq (s : State) (q : Nat) : Nat := s.fget (rHIF_SQ_CFG q) fHIF_SQ_CFG_CQ
def State.sqKind (s : State) (q : Nat) : Nat := s.fget (rHIF_SQ_CFG q) fHIF_SQ_CFG_KIND
def State.sqPort (s : State) (q : Nat) : Nat := s.fget (rHIF_SQ_CFG q) fHIF_SQ_CFG_FPORT

/-- The slot after staged descriptor `i` (R375, R385). -/
def State.slotAfter (s : State) (q i : Nat) : BitVec 12 :=
  BitVec.ofNat 12 ((s.fget (rHIF_SQ_STAT q) fHIF_SQ_STAT_HEAD + s.sqSize q - (s.sq q).staged % s.sqSize q + i + 1) % s.sqSize q)

/-- Host activity on an enabled ring (R394): the watchdog starts again, and a silence ends. -/
def State.sqActive (s : State) (q : Nat) : State :=
  let s := s.updSq q (fun x => { x with lastDb := s.now })
  if s.flag (rHIF_SQ_STAT q) fHIF_SQ_STAT_SILENT then (s.fset (rHIF_SQ_STAT q) fHIF_SQ_STAT_SILENT 0).sqEvent q 0x14 0 else s

/-- SQ_DOORBELL (R375, R394). -/
def execSqDoorbell (q : Fin 32) (v : Word) (whole : Bool) (s : State) : Out :=
  let x := v.toNat % 4096
  if !whole then .next s.barDrop
  else if !s.sqEn q then .next (s.raise (rHIF_SQ_STAT q) fHIF_SQ_STAT_DBERR)
  else if s.sqSize q ≤ x then .next ((s.raise (rHIF_SQ_STAT q) fHIF_SQ_STAT_DBERR).sqActive q)
  else .next ((s.fset (rHIF_SQ_STAT q) fHIF_SQ_STAT_TAIL x).sqActive q)

/-- HOST_SILENCE_TRIP (R394, R395). -/
def execHostSilenceTrip (q : Fin 32) (s : State) : Out :=
  let time := s.fget (rHIF_SQ_WD q) fHIF_SQ_WD_TIME
  if time = 0 ∨ s.flag (rHIF_SQ_STAT q) fHIF_SQ_STAT_SILENT ∨ tdiff s.now (s.sq q).lastDb < (time * 100 * usUnits : Nat) then .next s
  else
    let s := (s.raise (rHIF_SQ_STAT q) fHIF_SQ_STAT_SILENT).sqEvent q 0x14 1
    let react := fun (s : State) (n : Nat) => match s.fget (rHIF_SQ_WD q) fHIF_SQ_WD_REACT with
      | 0 => s
      | 1 => s.cause n (.stop 1 none)
      | 2 => s.cause n (.stop 2 none)
      | 3 => s.faultCause n fcHOST true
      | _ => s.faultCause n fcHOST false
    .next ((allAxes.filter (fun n => s.inPlan n && (s.rget (rHIF_SQ_WDAXM q (n / 32))).getLsbD (n % 32))).foldl react s)

/-- Descriptors that staging holds for a ring (R382). -/
def sqStaging : Nat := 256

/-- DESCRIPTOR_FETCH (R382, R384): up to 8 descriptors into staging, or an error that stops the fetching. -/
def execDescriptorFetch (q : Fin 32) (count : Nat) (ok : Bool) (s : State) : Out :=
  let st := rHIF_SQ_STAT q
  let head := s.fget st fHIF_SQ_STAT_HEAD
  let avail := (s.fget st fHIF_SQ_STAT_TAIL + s.sqSize q - head) % s.sqSize q
  let n := min (min count 8) (min avail (sqStaging - (s.sq q).staged))
  if !s.sqEn q ∨ (s.sq q).stopped ∨ n = 0 then .next s
  else if ok then
    .next ((s.fset st fHIF_SQ_STAT_HEAD ((head + n) % s.sqSize q)).updSq q (fun x => { x with staged := x.staged + n }))
  else .next (((s.raise st fHIF_SQ_STAT_FETCHERR).updSq q (fun x => { x with stopped := true })).sqEvent q 0x17 0)

/-- The entry of a frame (R391): TXDONE, or what refused it. -/
def State.frameDone (s : State) (q : Nat) (tag : BitVec 16) (nocomp : Bool) (frameId : BitVec 16) (status : Nat) : State :=
  if nocomp ∧ status = stOK then s
  else s.produce (some (s.sqCq q))
    { ft := s.now, payload := BitVec.ofNat 128 frameId.toNat, tag := tag, planver := 0, status := BitVec.ofNat 8 status, kind := 5, sq := 0, sqhead := 0 }

/-- A staged descriptor that is not admitted completes with ABORTED (R384): its TAG is not in the state, so it is a free value. -/
def State.sqAbort (s : State) (q : Fin 32) (i : Nat) : State :=
  let tag := (s.free 0).setWidth 16
  let head := s.slotAfter q i
  let s := s.drew 1
  if s.sqKind q = 1 then s.frameDone q tag false 0 stABORTED
  else s.complete { src := .sq q, opc := 0, tag := tag, nocomp := false, planver := s.planver, axis := 0, op := .other, sqhead := head } stABORTED 0

/-- EN set to 1 (R374): head and tail 0; refused while another enabled frame ring names the port (R391). -/
def State.sqOn (s : State) (q : Nat) : State :=
  if s.sqKind q = 1 ∧ (List.range 32).any (fun r => r != q && s.sqEn r && s.sqKind r == 1 && s.sqPort r == s.sqPort q) then
    (s.fset (rHIF_SQ_CFG q) fHIF_SQ_CFG_EN 0).raise rHIF_STAT fHIF_STAT_CFGERR
  else
    ((s.fset (rHIF_SQ_STAT q) fHIF_SQ_STAT_HEAD 0).fset (rHIF_SQ_STAT q) fHIF_SQ_STAT_TAIL 0).updSq q (fun x => { x with staged := 0, stopped := false })

/-- EN set to 0 (R384). -/
def State.sqOff (s : State) (q : Fin 32) : State :=
  ((List.range (s.sq q).staged).foldl (fun s i => s.sqAbort q i) s).updSq q (fun x => { x with staged := 0 })

/-- A write to LOG2SIZE while the ring is enabled is ignored (R374). -/
def State.keepSize (s : State) (o : Nat) (old : Word) : State :=
  let b : Bits := ⟨0, 4⟩
  if s.fget o b = bget old b then s else (s.fset o b (bget old b)).raise rHIF_STAT fHIF_STAT_CFGERR

/-- The effect of a write of HIF_SQq_CFG. -/
def sqCfgWritten (q : Fin 32) (old : Word) (s : State) : State :=
  let is_ := s.sqEn q
  if bget old fHIF_SQ_CFG_EN = 1 then
    let s := s.keepSize (rHIF_SQ_CFG q) old
    if is_ then s else s.sqOff q
  else if is_ then s.sqOn q else s

/-- The effect of a write of a ring's BASE: ignored while the ring is enabled (R374). -/
def baseWritten (en : Bool) (o : Nat) (old : Word) (s : State) : State := if en then (s.rset o old).raise rHIF_STAT fHIF_STAT_CFGERR else s

def execSqEnable (via : RegPath) (q : Fin 32) (v : Word) (s : State) : Out :=
  .next (s.portWrite via (rHIF_SQ_CFG q) (bset v fHIF_SQ_CFG_EN 1) (sqCfgWritten q))
def execSqDisable (via : RegPath) (q : Fin 32) (v : Word) (s : State) : Out :=
  .next (s.portWrite via (rHIF_SQ_CFG q) (bset v fHIF_SQ_CFG_EN 0) (sqCfgWritten q))

/-! ### Completion rings -/

/-- The effect of a write of HIF_CQq_CFG (R374, R377): an enable starts the ring anew, a disable discards its backlog. -/
def cqCfgWritten (q : Nat) (old : Word) (s : State) : State :=
  let is_ := s.flag (rHIF_CQ_CFG q) fHIF_CQ_CFG_EN
  if bget old fHIF_CQ_CFG_EN = 1 then
    let s := s.keepSize (rHIF_CQ_CFG q) old
    if is_ then s.cqTest q
    else (s.updCq q (fun c => { c with ring := [], backlog := [] })).fset (rHIF_CQ_STAT q) fHIF_CQ_STAT_BKLOG 0
  else if is_ then
    let s := s.updCq q (fun c => { c with head := 0, ring := [], backlog := [] })
    ((s.fset (rHIF_CQ_STAT q) fHIF_CQ_STAT_TAIL 0).fset (rHIF_CQ_STAT q) fHIF_CQ_STAT_PHASE 1).fset (rHIF_CQ_STAT q) fHIF_CQ_STAT_BKLOG 0
  else s

def execCqEnable (via : RegPath) (q : Fin 32) (v : Word) (s : State) : Out :=
  .next (s.portWrite via (rHIF_CQ_CFG q) (bset v fHIF_CQ_CFG_EN 1) (cqCfgWritten q))
def execCqDisable (via : RegPath) (q : Fin 32) (v : Word) (s : State) : Out :=
  .next (s.portWrite via (rHIF_CQ_CFG q) (bset v fHIF_CQ_CFG_EN 0) (cqCfgWritten q))

/-- CQ_DOORBELL (R376, R390): a head within the span from the head before to the tail; the ring re-arms and is tested at once. -/
def execCqDoorbell (q : Fin 32) (v : Word) (whole : Bool) (s : State) : Out :=
  let size := s.cqSize q
  let x := v.toNat % 4096
  let head := (s.cq q).head.toNat
  let n := (x + size - head) % size
  if !whole then .next s.barDrop
  else if !s.flag (rHIF_CQ_CFG q) fHIF_CQ_CFG_EN ∨ size ≤ x ∨ (s.cq q).ring.length < n then .next (s.raise (rHIF_CQ_STAT q) fHIF_CQ_STAT_DBERR)
  else
    let s := s.updCq q (fun c => { c with head := BitVec.ofNat 12 x, ring := c.ring.drop n })
    .next ((s.raise (rHIF_CQ_STAT q) fHIF_CQ_STAT_ARMED).cqTest q)

/-- CQ_INTERRUPT_TIMER (R390): the oldest unconsumed entry has been in the ring for ITIME. -/
def execCqInterruptTimer (q : Fin 32) (s : State) : Out := .next (if s.cqAged q then s.cqTest q else s)

/-- Move backlog entries to the ring while it has room (R377). -/
def State.cqDrain (s : State) (q : Nat) : List Cqe → State
  | [] => (s.updCq q (fun c => { c with backlog := [] })).fset (rHIF_CQ_STAT q) fHIF_CQ_STAT_BKLOG 0
  | e :: rest =>
    if s.cqRoom q then (s.cqWrite q e).cqDrain q rest
    else (s.updCq q (fun c => { c with backlog := e :: rest })).fset (rHIF_CQ_STAT q) fHIF_CQ_STAT_BKLOG (min backlogMax (rest.length + 1))

/-- CQ_BACKLOG_DRAIN (R377). -/
def execCqBacklogDrain (q : Fin 32) (s : State) : Out :=
  if (s.cq q).backlog = [] then .next s else .next ((s.cqDrain q (s.cq q).backlog).cqTest q)

/-! ### Frames to the network (R391, R42) -/

/-- Can the next staged command descriptor of a ring be admitted, FENCE or not (R382)? -/
def State.sqCan (s : State) (q : Fin 32) : Bool :=
  s.sqEn q && s.sqKind q == 0 && decide (0 < (s.sq q).staged) && decide ((s.cq (s.sqCq q)).backlog.length < backlogMax) && !s.sqBusy q

/-- The place of a ring in the order of admission (R382): PRIO = 1 before 0, then round-robin from the ring after the last. -/
def State.sqPlace (s : State) (q : Nat) : Nat :=
  (if s.flag (rHIF_SQ_CFG q) fHIF_SQ_CFG_PRIO then 0 else 32) + (q + 31 - s.sqLast) % 32

/-- Is it a ring's turn: can no ring that goes before it be admitted? -/
def State.sqTurn (s : State) (q : Fin 32) : Bool :=
  (List.finRange 32).all (fun r => !(s.sqCan r && decide (s.sqPlace r < s.sqPlace q)))

/-- May the next staged descriptor of a ring be admitted (R382)? -/
def State.sqReady (s : State) (q : Fin 32) (kind : Nat) (fence : Bool) : Bool :=
  s.sqEn q && s.sqKind q == kind && decide (0 < (s.sq q).staged) && decide ((s.cq (s.sqCq q)).backlog.length < backlogMax) && (!fence || !s.sqBusy q)
    && (kind != 0 || s.sqTurn q)

/-- Lengths that a CAN frame may have (R391). -/
def canLens : List Nat := [0, 1, 2, 3, 4, 5, 6, 7, 8, 12, 16, 20, 24, 32, 48, 64]

/-- Is a frame descriptor well formed (R391)? -/
def frameFormat (f : Nat) (opc flags : BitVec 8) (len : BitVec 16) (canid : Word) : Bool :=
  opc == 0x10 && flags.toNat < 4
    && (if f < 2 then decide (14 ≤ len.toNat ∧ len.toNat ≤ 1518) && canid == 0 else canLens.contains len.toNat && (canid.getLsbD 30 || decide (len.toNat ≤ 8)))

/-- FRAME_TRANSMIT (R391, R413). -/
def execFrameTransmit (q : Fin 32) (opc flags : BitVec 8) (tag frameId len : BitVec 16) (_addr : BitVec 64) (canid : Word) (data : Dma Byte)
    (s : State) : Out :=
  let f := s.sqPort q
  let nocomp := flags.getLsbD 1
  if !s.sqReady q 1 false ∨ 6 ≤ f ∨ !s.txRoom f len.toNat then .next s
  else
    let s := s.updSq q (fun x => { x with staged := x.staged - 1 })
    if !frameFormat f opc flags len canid then .next (s.frameDone q tag nocomp frameId stFORMAT)
    else if !s.opcOK 0 0x10 then .next ((s.deny 0).frameDone q tag nocomp frameId stDENIED)
    else match data with
      | .readErr => .next (s.frameDone q tag nocomp frameId stDMAERR)
      | .memErr => .next (s.frameDone q tag nocomp frameId stMEMERR)
      | .ok bytes =>
        .next (s.setTxq f (s.txq_ f ++ [{ q := some q.val, tag := tag, nocomp := nocomp, tsreq := flags.getLsbD 0, frameId := frameId, canid := canid,
                                          data := bytes.take len.toNat }]))

/-- A network configuration register of an enabled interface is written: what is in force stays (R407). -/
def State.netKeep (s : State) (o : Nat) (old : Word) : State :=
  if (tget none s.netHeld o).isSome then s else { s with netHeld := tset none s.netHeld o (some old) }

/-- The effect of a write of an interface's configuration word `o`, which with `os` is its configuration: all of it is in force while the
interface is disabled. -/
def netCfgWritten (o : Nat) (os : List Nat) (old : Word) (s : State) : State :=
  if s.flag o fNET_ETH_CFG_EN ∧ bget old fNET_ETH_CFG_EN = 1 then s.netKeep o old
  else if s.flag o fNET_ETH_CFG_EN then s
  else { s with netHeld := (o :: os).foldl (fun t k => tset none t k none) s.netHeld }

/-- The effect of a write of another configuration register of an interface. -/
def netOtherWritten (cfg o : Nat) (old : Word) (s : State) : State := if s.flag cfg fNET_ETH_CFG_EN then s.netKeep o old else s

/-- Field-time units of a byte on the line of an Ethernet port (R40). -/
def State.ethByte (s : State) (e : Nat) : Nat := match s.netFld (rNET_ETH_CFG e) fNET_ETH_CFG_SPEED with
  | 0 => 12800
  | 1 => 1280
  | _ => 128

/-- The quantum of a stamp of an Ethernet port in field-time units: one RGMII half-cycle (R40). -/
def State.ethQuantum (s : State) (e : Nat) : Nat := match s.netFld (rNET_ETH_CFG e) fNET_ETH_CFG_SPEED with
  | 0 => 3200
  | 1 => 320
  | _ => 64

/-- A stamp of an Ethernet port for an event at `t` (R32, R40): the time of the last half-cycle of the RGMII clock, whose phase is open, with the
latency of the direction added; it draws one free value. -/
def State.ethStamp (s : State) (e : Nat) (t : FTime) (lat : Bits) : FTime :=
  t - BitVec.ofNat 64 ((s.free 0).toNat % s.ethQuantum e) + BitVec.ofInt 64 (asSigned 16 (s.fget (rFTM_ETH_LAT e) lat))

/-- Could a frame be sent (R391)? -/
def State.portSends (s : State) (f : Nat) (i : TxItem) : Bool :=
  if f < 2 then s.flag (rNET_ETH_CFG f) fNET_ETH_CFG_EN
  else
    let c := f - 2
    s.flag (rNET_CAN_CFG c) fNET_CAN_CFG_EN && s.fget (rNET_CAN_STAT c) fNET_CAN_STAT_ESTATE != 2 && !s.netFlag (rNET_CAN_CFG c) fNET_CAN_CFG_LISTEN
      && (!i.canid.getLsbD 30 || s.netFlag (rNET_CAN_CFG c) fNET_CAN_CFG_FDEN)

/-- FRAME_TX_DONE (R391, R42): the last bit of the first frame has left, or it could not be sent. -/
def execFrameTxDone (f : Fin 6) (s : State) : Out :=
  match s.txq_ f with
  | [] => .next s
  | i :: rest =>
    let sent := s.portSends f i
    let s := s.setTxq f rest
    let s := if sent then { s with txSent := tset [] s.txSent f i.data } else s
    let s := if sent ∧ f.val < 2 ∧ i.tsreq then
        (s.drew 1).txtsPush f i.frameId (s.ethStamp f (s.now - BitVec.ofNat 64 ((max 60 i.data.length + 4) * s.ethByte f)) fFTM_ETH_LAT_TXLAT)
      else s
    match i.q with
    | none => .next s
    | some q => .next (s.frameDone q i.tag i.nocomp i.frameId (if sent then stOK else stREFUSED))

/-! ### Frames from the network (R392, R393, R423) -/

/-- Buffers of a receive ring and the size of one (R392). -/
def State.rxCount (s : State) (f : Nat) : Nat := 2 ^ max 4 (min 12 (s.fget (rHIF_RX_CFG f) fHIF_RX_CFG_LOG2COUNT))
def State.rxSize (s : State) (f : Nat) : Nat := 128 * 2 ^ min 4 (s.fget (rHIF_RX_CFG f) fHIF_RX_CFG_BSIZE)

/-- RX_DOORBELL (R392). -/
def execRxDoorbell (f : Fin 6) (v : Word) (whole : Bool) (s : State) : Out :=
  let x := v.toNat % 4096
  if !whole then .next s.barDrop
  else if s.rxCount f ≤ x then .next s else .next (s.fset (rHIF_RX_STAT f) fHIF_RX_STAT_FREE x)

/-- Store a frame in the next buffer and post its entry (R392). -/
def State.rxStore (s : State) (f : Nat) (bytes : List Byte) (flags canid : Nat) (t : FTime) : State :=
  let head := s.fget (rHIF_RX_STAT f) fHIF_RX_STAT_HEAD
  if !s.flag (rHIF_RX_CFG f) fHIF_RX_CFG_EN then s
  else if s.rxSize f < bytes.length then s.count (rHIF_RX_CNT f 1)
  else if head = s.fget (rHIF_RX_STAT f) fHIF_RX_STAT_FREE then s.count (rHIF_RX_CNT f 0)
  else
    let base := (join64 (s.rget (rHIF_RX_BASE_LO f)) (s.rget (rHIF_RX_BASE_HI f))).toNat / 64 * 64
    let s := (s.hostWrite (base + head * s.rxSize f) bytes).fset (rHIF_RX_STAT f) fHIF_RX_STAT_HEAD ((head + 1) % s.rxCount f)
    s.produce (some (s.fget (rHIF_RX_CFG f) fHIF_RX_CFG_CQ))
      { ft := t, payload := BitVec.ofNat 128 (head + bytes.length <<< 16 + f <<< 32 + flags <<< 40 + canid <<< 64), tag := 0, planver := 0, status := 0,
        kind := 4, sq := 0, sqhead := 0 }

/-- ETH_FRAME_RECEIVE (R21, R40, R393): the filter; frames of master messages reach the host only with RMCOPY (their messages come as MASTER_MESSAGE). -/
def execEthFrameReceive (e : Fin 2) (dst : BitVec 48) (etype : BitVec 16) (data : List Byte) (fcsOk full : Bool) (s : State) : Out :=
  let cfg := rNET_ETH_CFG e
  if !s.flag cfg fNET_ETH_CFG_EN then .next s
  else if full then .next (s.count (rNET_ETH_CNT e 0))
  else if !fcsOk then .next (s.count (rNET_ETH_CNT e 1))
  else
    let mac := (s.netWord (rNET_ETH_MAC0 e)).toNat + s.netFld (rNET_ETH_MAC1 e) fNET_ETH_MAC1_MAC * 2 ^ 32
    let da := (s.rget rLPE_PUB_DA0).toNat + s.fget rLPE_PUB_DA1 fLPE_PUB_DA1_DA * 2 ^ 32
    let bc := dst == 0xFFFFFFFFFFFF
    let mc := dst.getLsbD 0 && !bc
    let master := etype == 0x88B5 && dst.toNat == da
    let takes := if master then s.netFlag cfg fNET_ETH_CFG_RMCOPY
      else dst.toNat == mac || bc || (mc && s.netFlag cfg fNET_ETH_CFG_MCAST) || s.netFlag cfg fNET_ETH_CFG_PROMISC
    if takes then
      .next ((s.drew 1).rxStore e data ((if mc then 1 else 0) + if bc then 2 else 0) 0 (s.ethStamp e s.now fFTM_ETH_LAT_RXLAT))
    else .next s

/-- A CAN clock in field-time units: 12.5 ns (R393). -/
def canClock : Nat := 200

/-- The stamp of a CAN frame whose start-of-frame bit is sampled now (R32, R393): that of the CAN clock, whose phase is open; it draws one free
value. -/
def State.canStamp (s : State) : FTime := s.now - BitVec.ofNat 64 ((s.free 0).toNat % canClock)

/-- CAN_FRAME_RECEIVE (R21, R32, R393, R423, R424): the lookup; its direct command comes as a DCMD row. -/
def execCanFrameReceive (c : Fin 4) (id : BitVec 29) (ide fdf brs esi : Bool) (data : List Byte) (full : Bool) (s : State) : Out :=
  if !s.flag (rNET_CAN_CFG c) fNET_CAN_CFG_EN ∨ (fdf ∧ !s.netFlag (rNET_CAN_CFG c) fNET_CAN_CFG_FDEN) then .next s
  else if full then .next (s.count (rNET_CAN_CNT c 0))
  else
    let flags := (if ide then 1 else 0) + (if fdf then 2 else 0) + (if brs then 4 else 0) + if esi then 8 else 0
    let t := s.canStamp
    let s := { (s.drew 1) with canT := tset none s.canT c (some t) }
    let host := fun (s : State) => s.rxStore (2 + c.val) data flags id.toNat t
    match s.canLookup c id ide with
    | none => .next (if s.wflag (rPLAN_CAN_CFG c) fPLAN_CAN_CFG_DEFHOST then host s else s.count (rPLAN_CAN_NOMATCH c))
    | some k =>
      let s := if s.wflag (rPLAN_CF_HI k) fPLAN_CF_HI_HOST then host s else s
      if s.wflag (rPLAN_CF_HI k) fPLAN_CF_HI_DCMD ∧ data.length < s.dcReads (s.wfld (rPLAN_CF_HI k) fPLAN_CF_HI_DCIDX) then
        .next (s.count (rPLAN_CAN_NOMATCH c))
      else .next s

end Sys2Proof.Machine
end

