-- ==== Sys2Proof/Machine/FlightLog.lean ====
section
/-! DEFINITION. The flight log beyond its writer (R513-R516, R520): the store, the freeze, the snapshots of the counters, FLOG_CMD, and the
mailbox objects FLOG_TRIG and FLOG_POP (R518). -/
namespace Sys2Proof.Machine

/-! ### The store (R513, R520) -/

/-- Records the store holds: FLOG_AREA.SIZE + 1 MiB at 32 bytes each. -/
def State.flogCap (s : State) : Nat := (bget s.flog.area fFLOG_AREA_SIZE + 1) * 32768

/-- Replace the store and show what it holds. -/
def State.setStore (s : State) (l : List (BitVec 256)) : State :=
  let s := State.fset { s with flog := { s.flog with store := l } } rFLOG_FILL fFLOG_FILL_FILL l.length
  s.fsetb rFLOG_STAT fFLOG_STAT_FULL (!s.flag rFLOG_CTL fFLOG_CTL_WRAP && decide (s.flogCap ≤ l.length))

/-- Write one staged record to the store: with WRAP the oldest record is overwritten, and lost if it is one of the counted types. -/
def State.storeRec (s : State) (r : BitVec 256) : State :=
  let l := s.flog.store
  if l.length < s.flogCap then s.setStore (l ++ [r])
  else
    let old := (l.headD 0).toNat % 256
    let s := if old = 5 ∨ old = 0 then s else s.flogLose old
    s.setStore (l.drop 1 ++ [r])

/-- Move the staged records to the store, oldest first, while it takes them. -/
def State.storeAll : Nat → State → State
  | 0, s => s
  | k + 1, s =>
    match s.flog.staging with
    | [] => s
    | r :: rest =>
      if s.flogCap ≤ s.flog.store.length ∧ !s.flag rFLOG_CTL fFLOG_CTL_WRAP then s.setStore s.flog.store
      else State.storeAll k (State.storeRec { s with flog := { s.flog with staging := rest } } r)

/-- FLOG_STORE_WRITE (R513): LPDDR4X takes records once it is ready (R531). -/
def execFlogStoreWrite (s : State) : Out :=
  .next (if s.flag rSU_STAT fSU_STAT_DDRREADY then s.storeAll s.flog.staging.length else s)

/-! ### Freeze (R515) -/

/-- FLOG_FREEZE: POST × 256 records after the trigger the log stops. -/
def execFlogFreeze (s : State) : Out :=
  if s.flog.postLeft = some 0 ∧ !s.flag rFLOG_STAT fFLOG_STAT_FROZEN then
    let s := State.raise { s with flog := { s.flog with postLeft := none } } rFLOG_STAT fFLOG_STAT_FROZEN
    .next (s.devEvent 0x34 0 s.flog.trig)
  else .next s

/-- What a write of FLOG_CMD does (R520). -/
def flogCmdWritten (v : Word) (s : State) : State :=
  let s := if bget v fFLOG_CMD_UNFREEZE = 1 then s.fset rFLOG_STAT fFLOG_STAT_FROZEN 0 else s
  if bget v fFLOG_CMD_FLUSH = 1 then State.setStore { s with flog := { s.flog with staging := [] } } [] else s

/-- UNFREEZE, FLUSH (R520). -/
def execUnfreeze (via : RegPath) (s : State) : Out :=
  let v := bset 0 fFLOG_CMD_UNFREEZE 1
  .next (s.portWrite via rFLOG_CMD v (fun _ => flogCmdWritten v))
def execFlush (via : RegPath) (s : State) : Out :=
  let v := bset 0 fFLOG_CMD_FLUSH 1
  .next (s.portWrite via rFLOG_CMD v (fun _ => flogCmdWritten v))

/-- What a write of FLOG_AREA or FLOG_CTL does: the area takes effect only while EN is 0 (R520); another area begins empty. -/
def flogAreaWritten (s : State) : State :=
  let a := s.rget rFLOG_AREA
  if s.flag rFLOG_CTL fFLOG_CTL_EN ∨ a = s.flog.area then s.setStore s.flog.store
  else State.setStore { s with flog := { s.flog with area := a } } []

/-! ### Snapshots (R515, R516) -/

/-- The counter registers that ERRSNAP covers. -/
def snapRegs : List Nat :=
  let r := fun (n : Nat) (f : Nat → Nat) => (List.range n).map f
  let rr := fun (n m : Nat) (f : Nat → Nat → Nat) => (List.range n).flatMap (fun i => (List.range m).map (f i))
  (r 32 rGLB_SRAM_CE ++ [rGLB_SRAM_UE] ++ rr 24 8 rTTH_ERR ++ r 256 rFBK_ILL ++ r 256 rFBK_FERR ++ r 256 rAXC_MISS ++ r 256 rAXC_DOVR
    ++ rr 256 4 rTQ_CNT ++ r 256 rPGN_MINP ++ r 256 rPGN_OVWR ++ r 32 rPGN_B_MINP ++ r 32 rPGN_B_OVWR ++ rr 16 4 rLPE_L_CNT
    ++ r 16 rLPE_RM_STAT ++ [rLPE_PUB_STAT] ++ r 4 rCMP_CNT ++ rr 32 4 rBUS_G_CNT ++ r 32 rHIF_CQ_LOST ++ rr 6 2 rHIF_RX_CNT
    ++ rr 2 2 rNET_ETH_CNT ++ rr 4 3 rNET_CAN_CNT ++ r 5 rNET_STR_CNT ++ r 4 rPLAN_CAN_NOMATCH ++ r 10 rPLAN_P_DENY ++ r 4 rANC_CNT
    ++ r 5 rFLOG_LOST).filter (fun o => (regRow o).isSome)

/-- Record a counter whose value changed since the last snapshot. -/
def State.snapOne (s : State) (t : FTime) (o : Nat) : State :=
  let v := s.rget o
  if v = tget (regReset o) s.flog.snap o then s
  else
    let s := s.flogAdd 4 o t (v.setWidth 128)
    { s with flog := { s.flog with snap := tset (regReset o) s.flog.snap o v } }

/-- ERRSNAP_PERIOD (R515). -/
def execErrsnapPeriod (s : State) : Out :=
  if s.flogOn ∧ s.fget rFLOG_CTL fFLOG_CTL_SNAP ≠ 0 ∧ (s.fget rFLOG_CTL fFLOG_CTL_TYPES).testBit 3 then
    .next (snapRegs.foldl (fun s' o => s'.snapOne s.now o) s)
  else .next s

/-! ### Mailbox objects (R518) -/

/-- FLOG_TRIG: the mailbox trigger is always enabled (R520). -/
def mboFlogTrig (code : Word) (s : State) : MbxRes := s.ifReady (fun s => mbxRes (s.flogTrigger 0 (code.toNat % 2 ^ 24)) mbxOK)

/-- FLOG_POP: the oldest record of the store, TYPE 0 when it is empty. -/
def mboFlogPop (s : State) : MbxRes := s.ifReady fun s =>
  match s.flog.store with
  | [] => ⟨s, mbxOK, List.replicate 8 0⟩
  | r :: rest => ⟨s.setStore rest, mbxOK, (List.range 8).map (fun k => (r >>> (32 * k)).setWidth 32)⟩

def execFlogTrig (set : Fin 4) (via : RegPath) (code : Word) (s : State) : Out :=
  .next (s.mbx set via 0x085 1 0 [code] (mboFlogTrig code))
def execFlogPop (set : Fin 4) (via : RegPath) (s : State) : Out := .next (s.mbx set via 0x086 2 0 [] mboFlogPop)

end Sys2Proof.Machine
end

