-- ==== Sys2Proof/Machine/Startup.lean ====
section
/-! DEFINITION. Resets (R396, R523-R526), boot (R527-R532), the calibration of the analogue core (R533, R534), the endpoint (R535), the
mailbox objects CAL_RUN and CAL_READ (R537), and the scrubber of shared SRAM (R27). -/
namespace Sys2Proof.Machine

/-! ### Resets (R525, R526) -/

/-- What a reset of the shell and the analogue core leaves: the pins, host memory, what was sent to the host, the boot flash, the gondolas but
for the home gondola, the commands that wait, and the model's counter of free values. -/
def State.shellReset (s : State) : State :=
  { State.reset with
    host := s.host, msgs := s.msgs, txSent := s.txSent, freeCtr := s.freeCtr, pending := s.pending, fltIn := s.fltIn,
    gons := s.gons.filter (fun e => !isHome e.1),
    su := { poreset := s.su.poreset, sysreset := s.su.sysreset, railFault := s.su.railFault, perst := s.su.perst, vfield := s.su.vfield,
            bootSlot := s.su.bootSlot },
    anchor := { s.anchor with holdopen := 0x1FFFFFF, lostlane := 0 } }

/-- A power-on reset: the anchor and the field die reset as well (R453, R494). -/
def State.powerReset (s : State) : State :=
  let r := s.shellReset
  { r with anchor := r.anchor.cleared0 }

/-- A reset of the shell that the anchor and the field die survive: the field die goes on reporting its outputs (R525, R526). -/
def State.sysReset (s : State) : State :=
  let r := s.shellReset
  let r := { r with fouts := s.fouts, anchor := r.anchor.settle }
  let r := (r.rset rGLB_RSTCAUSE (bset 0 fGLB_RSTCAUSE_SYS 1)).rset rFIO_FOUTST (s.rget rFIO_FOUTST)
  let r := r.fset rFIO_STAT fFIO_STAT_FIELDUP (s.fget rFIO_STAT fFIO_STAT_FIELDUP)
  r.fset rSU_STAT fSU_STAT_BOOTSEL (s.fget rSU_STAT fSU_STAT_BOOTSEL)

/-! ### Boot (R527, R530) -/

/-- The boot ROM reads a slot. -/
def State.bootFrom (s : State) (b : Bool) : State :=
  State.fset { s with su := { s.su with booting := some b } } rSU_STAT fSU_STAT_PHASE 1

/-- Leave reset when no source holds the device in it: T24, whose EN resets to 1, begins training (R69, R91), and the boot ROM selects the
first slot (R527, R530). -/
def State.leaveReset (s : State) : State :=
  if s.su.poreset ∨ s.su.sysreset ∨ s.su.railFault then s
  else
    let s := if s.flag (rTTH_CTL 24) fTTH_CTL_EN then s.fset (rTTH_STAT 24) fTTH_STAT_LINK 1 else s
    let s := s.fsetb rPIL_STAT fPIL_STAT_BOOT s.su.bootSlot
    match s.fget rSU_STAT fSU_STAT_BOOTSEL with
    | 0 => s.bootFrom s.su.bootSlot
    | 1 => s.bootFrom false
    | 2 => s.bootFrom true
    | _ => s

/-- PORESET_ASSERT (R525). -/
def execPoresetAssert (s : State) : Out := .next (State.powerReset { s with su := { s.su with poreset := true } })

/-- PORESET_RELEASE (R524, R527): BOOTSEL is sampled. -/
def execPoresetRelease (bootsel : BitVec 2) (s : State) : Out :=
  if !s.su.poreset then .next s
  else
    let s := State.fset { s with su := { s.su with poreset := false } } rSU_STAT fSU_STAT_BOOTSEL bootsel.toNat
    .next s.leaveReset

/-- SYSRESET_ASSERT (R525, R526). -/
def execSysresetAssert (s : State) : Out := .next (State.sysReset { s with su := { s.su with sysreset := true } })

/-- SYSRESET_RELEASE (R524). -/
def execSysresetRelease (s : State) : Out :=
  if !s.su.sysreset then .next s else .next (State.leaveReset { s with su := { s.su with sysreset := false } })

/-- RAIL_FAULT_RESET (R523): as PORESET_N, and recorded as POR; BOOTSEL is not sampled again (R527). -/
def execRailFaultReset (s : State) : Out :=
  let r := State.powerReset { s with su := { s.su with railFault := true } }
  .next (r.fset rSU_STAT fSU_STAT_BOOTSEL (s.fget rSU_STAT fSU_STAT_BOOTSEL))

/-- RAIL_RECOVERY (R523). -/
def execRailRecovery (s : State) : Out :=
  if !s.su.railFault then .next s else .next (State.leaveReset { s with su := { s.su with railFault := false } })

/-- BOOT_SLOT_VERIFIED (R530): `fail` as FAILA and FAILB encode it, 1 for a slot that verifies. -/
def execBootSlotVerified (slot : Fin 2) (fail : BitVec 3) (version : Word) (s : State) : Out :=
  let b := slot.val == 1
  let f := fun (b : Bool) => if b then fSU_STAT_FAILB else fSU_STAT_FAILA
  if s.su.booting ≠ some b ∨ fail = 0 ∨ 5 < fail.toNat then .next s
  else
    let s := s.fset rSU_STAT (f b) fail.toNat
    let s := (s.slotShow b (fail == 1) version)
    if fail = 1 then
      let x : Pilot := { running := true, slot := b }
      let s := { s with pilot0 := x, pilot1 := x, su := { s.su with booting := none } }
      let s := (s.fset rPIL_STAT fPIL_STAT_P0RUN 1).fset rPIL_STAT fPIL_STAT_P1RUN 1
      .next (((s.fsetb rPIL_STAT fPIL_STAT_P0SLOT b).fsetb rPIL_STAT fPIL_STAT_P1SLOT b).fset rSU_STAT fSU_STAT_PHASE 2)
    else if s.fget rSU_STAT fSU_STAT_BOOTSEL = 0 ∧ s.fget rSU_STAT (f !b) = 0 then
      .next ((s.raise rSU_STAT fSU_STAT_TRIEDALT).bootFrom (!b))
    else .next (State.fset { s with su := { s.su with booting := none } } rSU_STAT fSU_STAT_PHASE 4)

/-- The stock image in a lane (R366, R531). -/
def State.stockLoad (s : State) (l : Nat) : State :=
  (s.updLn l (fun x => { x with imgKind := 1, loops := stockLoops, fg := {}, bg := {}, trapped := false }))

/-- STARTUP_LANE_LOAD_COMPLETE (R531): a lane whose self-test pass failed is hard-retired. -/
def execStartupLaneLoadComplete (failed : BitVec 16) (s : State) : Out :=
  if s.fget rSU_STAT fSU_STAT_PHASE ≠ 2 ∨ s.activePilot = none then .next s
  else
    let s := (List.range 16).foldl (fun s l =>
      let s := s.stockLoad l
      if failed.getLsbD l then (s.raise (rLPE_L_STEST l) fLPE_L_STEST_FAIL).trapLane l tcSELFTEST
      else (s.passed l).fset (rLPE_L_STAT l) fLPE_L_STAT_RUN 1) s
    .next (s.showRoles.fset rSU_STAT fSU_STAT_PHASE 3)

/-- DDR_TRAINING_COMPLETE (R531). -/
def execDdrTrainingComplete (ok : Bool) (s : State) : Out :=
  if s.activePilot = none then .next s else .next (s.fsetb rSU_STAT fSU_STAT_DDRREADY ok)

/-- ALT_SLOT_VERIFY_COMPLETE (R531): the slot not booted. -/
def execAltSlotVerifyComplete (ok : Bool) (version : Word) (s : State) : Out :=
  match s.activePilot with
  | none => .next s
  | some p => .next (s.slotShow (!(s.pilot p).slot) ok version)

/-! ### Calibration (R533, R534) -/

/-- CALIBRATION_START: when the T24 link first comes up, without the pilots. -/
def execCalibrationStart (s : State) : Out :=
  if s.flag rSU_STAT fSU_STAT_CALDONE ∨ s.link 24 ≠ lkUP ∨ s.su.poreset ∨ s.su.sysreset ∨ s.su.railFault then .next s
  else .next { s with su := { s.su with calRun := true } }

/-- What a correction reads as where no calibration gave one: offset 0, gain 1. -/
def calNone (k : Nat) : Word := if k % 2 = 0 then 0 else 0x10000

/-- The words of one result: four for a current pair, two for an auxiliary input. -/
def calWords (r : CalResult) : List Word := [r.w0, r.w1, r.w2, r.w3]

/-- Take one result of the calibration. -/
def calTake (m : Tbl Word) (r : CalResult) : Tbl Word :=
  if 24 ≤ r.index.toNat then m
  else (List.range 4).foldl (fun m k => tset (calNone k) m (4 * r.index.toNat + k) ((calWords r).getD k 0)) m

/-- CALIBRATION_COMPLETE. -/
def execCalibrationComplete (fail : BitVec 16) (results : List CalResult) (s : State) : Out :=
  if !s.su.calRun then .next s
  else
    let s := { s with su := { s.su with calRun := false, cal := results.foldl calTake s.su.cal, calAt := s.now } }
    .next ((s.raise rSU_STAT fSU_STAT_CALDONE).fset rSU_STAT fSU_STAT_CALFAIL fail.toNat)

/-- CAL_RUN (R532, R534). -/
def mboCalRun (s : State) : MbxRes := s.ifReady fun s =>
  let home := allAxes.filter (fun n => s.inPlan n && s.axType n != tyVX && s.axTether n == 24)
  if home.all (fun n => atRestState (s.axState n)) then mbxRes { s with su := { s.su with calRun := true } } mbxOK else mbxRes s mbxREFUSED

def execCalRun (set : Fin 4) (via : RegPath) (s : State) : Out := .next (s.mbx set via 0x090 1 0 [] mboCalRun)

/-- The start of the latest tick of the home gondola's fastest class, at which the sensors are converted (R534). -/
def State.sensorAt (s : State) : Option FTime :=
  match s.tetherClass 24 with
  | some c =>
    let o := s.frameOrigin 24
    let p := classPeriod c
    some (o + BitVec.ofInt 64 (Int.fdiv (tdiff s.now o) p * p))
  | none => none

/-- CAL_READ (R537): what a sensor reads is a free value. -/
def mboCalRead (i : BitVec 14) (s : State) : MbxRes :=
  let k := i.toNat
  let w := fun (j : Nat) => tget (calNone j) s.su.cal (4 * k + j)
  if k < 16 then ⟨s, mbxOK, [w 0, w 1, w 2, w 3] ++ words64 s.su.calAt⟩
  else if k < 24 then ⟨s, mbxOK, [w 0, w 1, 0, 0] ++ words64 s.su.calAt⟩
  else if k < 30 then ⟨s.drew 2, mbxOK, [(s.free 0).setWidth 32, 0, 0, 0] ++ words64 (s.sensorAt.getD (s.free 1))⟩
  else mbxRes s mbxRANGE

def execCalRead (set : Fin 4) (via : RegPath) (index : BitVec 14) (s : State) : Out := .next (s.mbx set via 0x091 0 index [] (mboCalRead index))

/-! ### The endpoint (R396, R535) -/

/-- Does a register outlast a reset of the endpoint? -/
def outlastsEndpoint (o : Nat) : Bool :=
  o / 0x100000 != 2 || (List.range 32).any (fun q => o == rHIF_SQ_WD q || (List.range 8).any (fun k => o == rHIF_SQ_WDAXM q k))

/-- ENDPOINT_RESET (R396): commands already admitted run on, and their completions are discarded. -/
def execEndpointReset (s : State) : Out :=
  .next { s with
    regs := s.regs.filter (fun e => outlastsEndpoint e.1),
    sqLast := 31,
    sqs := (s.sqs.map (fun e => (e.1, ({ lastDb := e.2.lastDb } : Sq)))).filter (fun e => e.2 != {}),
    cqs := [],
    cmds := s.cmds.map (fun e => (e.1, e.2.map (fun c => match c.src with
      | .sq _ => { c with dead := true }
      | .peer _ _ => c))),
    txq := s.txq.map (fun e => (e.1, e.2.map (fun i => { i with q := none, nocomp := true }))) }

/-- PERST_RELEASE (R535): link training needs no part of the model's state. -/
def execPerstRelease (s : State) : Out := .next { s with su := { s.su with perst := false } }

/-! ### The scrubber (R26, R27) -/

/-- Lines of shared SRAM. -/
def sramLines : Nat := 163840

/-- SCRUBBER_LINE: every single-bit error of the line is corrected and counted; a double-bit error is counted and stays. -/
def execScrubberLine (s : State) : Out :=
  let line := s.scrub
  let hits := s.sramUpsets.filter (fun u => u.1 / 8 == line)
  let s := { s with scrub := (line + 1) % sramLines, sramUpsets := s.sramUpsets.filter (fun u => u.2 || u.1 / 8 != line) }
  .next (hits.foldl (fun s u =>
    if u.2 then (s.count rGLB_SRAM_UE).raise rGLB_STAT fGLB_STAT_SRAMUE else s.count (rGLB_SRAM_CE (line % 32))) s)

end Sys2Proof.Machine
end

