-- ==== Sys2Proof/Machine/Mailbox.lean ====
section
/-! DEFINITION. The mailbox objects by code and operation (R447, R483, R496, R518, R537), for a request that is written to MBX_REQ and for the
READ descriptor. -/
namespace Sys2Proof.Machine

/-- Operations of MBX_REQ (R450). -/
def moRead : Nat := 0
def moWrite : Nat := 1
def moPop : Nat := 2

/-- Read and Pop objects whose index names the thing read. -/
def mboTake (code op : Nat) (i : BitVec 14) : Option (State → MbxRes) :=
  if op = moRead then
    match code with
    | 0x001 => some mboFtNow
    | 0x010 => some (mboFbPos i)
    | 0x013 => some (mboFbCorr i)
    | 0x020 => some (mboAxDly i)
    | 0x021 => some (fun s => ⟨s, mbxOK, words64 s.time.torg⟩)
    | 0x030 => some (mboTqEst i)
    | 0x040 => some (mboPrfSp i)
    | 0x041 => some (mboPrfState i)
    | 0x042 => some (mboBrState i)
    | 0x043 => some (mboRmRead i)
    | 0x050 => some (mboCmpRead i)
    | 0x051 => some (mboCmpInfo i)
    | 0x060 => some (mboAncTrip i)
    | 0x070 => some (mboFioEdge i)
    | 0x091 => some (mboCalRead i)
    | 0x0F2 => some mboCmAtRead
    | _ => none
  else if op = moPop then
    match code with
    | 0x003 => some (mboFtTsi i)
    | 0x004 => some (mboFtTxts i)
    | 0x052 => some (mboLatPop i)
    | 0x086 => some mboFlogPop
    | _ => none
  else none

/-- Objects that take operands from DATA0-DATA7. -/
def mboGive (via : RegPath) (code op : Nat) (i : BitVec 14) (d : List Word) : Option (State → MbxRes) :=
  let w := fun (k : Nat) => d.getD k 0
  let q := fun (k : Nat) => join64 (w k) (w (k + 1))
  if op = moRead then
    match code with
    | 0x0F0 => some (mboPeek ((w 0).setWidth 24))
    | 0x0F1 => some (mboCfgWork ((w 0).setWidth 24))
    | _ => none
  else if op = moWrite then
    match code with
    | 0x002 => some (mboFtStep (q 0))
    | 0x005 => some (mboFtTc i (q 0) (q 2))
    | 0x011 => some (mboFbSetpos i (q 0))
    | 0x012 => some (mboFbUnref i)
    | 0x021 => some (mboTpOrgWrite (q 0))
    | 0x080 => some (mboLnLoad via (q 0) (w 2) (w 3))
    | 0x081 => some (mboTtRipclr i)
    | 0x082 => some (mboPlUpd (w 2))
    | 0x083 => some (mboPlStart i (w 0))
    | 0x084 => some mboPlSwap
    | 0x085 => some (mboFlogTrig (w 0))
    | 0x090 => some mboCalRun
    | 0x0F2 => some (mboCmAtWrite (q 0))
    | _ => none
  else none

/-- Perform the request that MBX_REQ names; no such object or operation answers UNKNOWN (R446). -/
def mboRun (set : Nat) (via : RegPath) (v : Word) (s : State) : MbxRes :=
  let code := bget v fMBX_REQ_OBJECT
  let op := bget v fMBX_REQ_OP
  let i := BitVec.ofNat 14 (bget v fMBX_REQ_INDEX)
  match mboTake code op i, mboGive via code op i (s.mbxOps set) with
  | some f, _ => f s
  | none, some f => f s
  | none, none => mbxRes s mbxUNKNOWN

/-- What a write of MBX_REQ does (R444). -/
def mbxReqWritten (set : Nat) (via : RegPath) (old v : Word) (s : State) : State :=
  let s := if s.flag (rMBX_STAT set) fMBX_STAT_BUSY then s.rset (rMBX_REQ set) old else s
  s.mbxAccept set via (mboRun set via v)

/-- The object that a READ descriptor names, where it is a Read or a Pop that carries no operand (R380, R447). -/
def mboForRead (code : Nat) (i : BitVec 14) : Option (State → MbxRes) :=
  match mboTake code moRead i with
  | some f => some f
  | none => mboTake code moPop i

/-- Does an object's index name an axis (R413)? -/
def mboAxial (code : Nat) : Bool := [0x010, 0x013, 0x020, 0x030, 0x040, 0x041, 0x042, 0x052].contains code

end Sys2Proof.Machine
end

