-- ==== Sys2Proof/Machine/Desc.lean ====
section
/-! DEFINITION. Command descriptors (R378-R384, R410-R414): admission, and each opcode's effect or the cause it leaves for its axis's next tick
boundary. -/
namespace Sys2Proof.Machine

/-! ### Admission (R378, R382, R412, R413) -/

/-- The port of the access plan that a descriptor came from (R408). -/
def hdrPort (h : DescHdr) : Nat := match h.src with
  | .sq _ => 0
  | .peer _ _ => 9

/-- May a descriptor be admitted now (R382)? -/
def State.descReady (s : State) (h : DescHdr) : Bool := match h.src with
  | .sq q => s.sqReady q 0 (h.flags.getLsbD 0)
  | .peer _ _ => true

/-- Take a descriptor out of its ring's staging: the state, and the ring's head after its fetch (R385). -/
def State.descTake (s : State) (h : DescHdr) : State × BitVec 12 := match h.src with
  | .sq q => ({ (s.updSq q (fun x => { x with staged := x.staged - 1 })) with sqLast := q }, s.slotAfter q 0)
  | .peer _ _ => (s, 0)

/-- The command of a descriptor. -/
def State.descCmd (s : State) (h : DescHdr) (opc : Nat) (op : MotionOp) (head : BitVec 12) : OpenCmd :=
  { src := h.src, opc := opc, tag := h.tag, nocomp := h.flags.getLsbD 1, planver := s.planver, axis := h.axis.toNat, op := op, sqhead := head }

/-- Is the head of a descriptor in form (R378)? -/
def hdrGood (h : DescHdr) (axial : Bool) : Bool := !h.rsv && h.flags.toNat < 32 && (axial || h.axis == 0)

/-- Admit a descriptor: FORMAT where its form is bad, DENIED where its port lacks a right, else its act. -/
def State.desc (s : State) (h : DescHdr) (opc : Nat) (axial good right : Bool) (op : MotionOp) (act : OpenCmd → State → State) : State :=
  if !s.descReady h then s
  else
    let r := s.descTake h
    let c := s.descCmd h opc op r.2
    if !hdrGood h axial ∨ !good then r.1.complete c stFORMAT 0
    else if !s.opcOK (hdrPort h) opc ∨ !right then (r.1.deny (hdrPort h)).complete c stDENIED 0
    else act c r.1

/-- Complete with OK at admission. -/
def doneOK (c : OpenCmd) (s : State) : State := s.complete c stOK 0

/-- Open a command and leave it to the axis's next tick boundary (R379); an axis outside the plan has none: STATE. -/
def motion (n : Nat) (c : OpenCmd) (s : State) : State :=
  if !s.inPlan n then s.complete c stSTATE 0
  else
    let r := s.openCmd c
    r.1.cause n (.motion r.2)

/-- NOP. -/
def State.doNop (s : State) (h : DescHdr) : State := s.desc h 0x00 false true true .other doneOK

/-! ### AXSET (R258, R380) -/

/-- Points queued or on their way to the queue. -/
def State.pointsQueued (s : State) (n : Nat) : Nat :=
  (s.ax n).gen.stream.length + ((s.ax n).causes.filter (fun c => match c with
    | .point _ _ => true
    | _ => false)).length

/-- Is a streamed value in the form of the axis's CMODE? -/
def State.valueOK (s : State) (n : Nat) (v : Val) : Bool := s.axCmode n != 2 || decide (-(2 ^ 23) ≤ v.toInt ∧ v.toInt < 2 ^ 23)

/-- A point of a port: what refuses it, or its cause; a velocity is brought within its range (R7). -/
def State.point (s : State) (n : Nat) (t : FTime) (v : Val) (judged : Bool) : State × Nat :=
  if !s.inPlan n then (s, stSTATE)
  else if judged ∧ !s.takesMotion n false then (s.axRefuse n, stSTATE)
  else if 16 ≤ s.pointsQueued n then (s, stFULL)
  else (s.cause n (.point t (if s.axCmode n = 1 then velIn v else v)), stOK)

/-- The requests of an AXSET: it completes when the last has been taken. -/
def axsetReqs (n req : Nat) (c : OpenCmd) (s : State) : State :=
  let l := reqsOf req
  if l.isEmpty then doneOK c s
  else
    let r := s.openCmd { c with left := l.length }
    l.foldl (fun s q => s.cause n (.req q (some r.2))) r.1

def State.doAxset (s : State) (h : DescHdr) (value : Val) (t : FTime) (valid : Bool) (req : BitVec 5) : State :=
  let n := h.axis.toNat
  s.desc h 0x01 true (!valid || s.valueOK n value) ((!valid || s.perm (hdrPort h) n pmMOTION) && s.reqsOK (hdrPort h) n req.toNat) .other (fun c s =>
    if !s.inPlan n then s.complete c stSTATE 0
    else if !valid then axsetReqs n req.toNat c s
    else
      let r := s.point n t value (req == 0)
      if r.2 = stOK then axsetReqs n req.toNat c r.1 else r.1.complete c r.2 0)

/-! ### Motion (R255-R275) -/

def State.doMove (s : State) (h : DescHdr) (target : Val) (vl al dl jl : Word) (mf : BitVec 3) : State :=
  let n := h.axis.toNat
  let ns := if mf.getLsbD 2 then n :: s.igroup n else [n]
  s.desc h 0x02 true true (s.permAll (hdrPort h) pmMOTION ns) (.move target vl al dl jl mf) (motion n)

/-- STOP: completed when every axis of its scope has taken or refused it (R379). -/
def State.doStop (s : State) (h : DescHdr) (kind scope : BitVec 8) : State :=
  let n := h.axis.toNat
  let ns := if scope = 1 then s.rowGroup n else [n]
  s.desc h 0x03 true ((kind == 1 || kind == 2) && (scope == 0 || (scope == 1 && n < 64))) (s.permAll (hdrPort h) pmSTOP ns) .other (fun c s =>
    let ns := ns.filter s.inPlan
    if ns.isEmpty then s.complete c (if scope = 0 then stSTATE else stOK) 0
    else
      let r := s.openCmd { c with left := ns.length }
      ns.foldl (fun s m => s.cause m (.stop kind.toNat (some r.2))) r.1)

def State.doResume (s : State) (h : DescHdr) : State :=
  let n := h.axis.toNat
  s.desc h 0x04 true true (s.perm (hdrPort h) n pmMOTION) .resume (motion n)

def State.doGear (s : State) (h : DescHdr) (mode mkind master : BitVec 8) (gf : BitVec 2) (num den : Word) (offset lr mpos : Val) : State :=
  let n := h.axis.toNat
  let right := s.perm (hdrPort h) n pmMOTION && (if mkind = 2 then s.rmOK (hdrPort h) master.toNat else s.perm (hdrPort h) master.toNat pmREAD)
  s.desc h 0x05 true (mode.toNat ≤ 3 && mkind.toNat ≤ 2 && (mkind != 2 || master.toNat < 16) && den != 0) right
    (.gear mode mkind master gf num den offset lr mpos) (motion n)

/-! ### Cams (R273, R275) -/

/-- Cam points of shared SRAM (R273). -/
def camPoints : Nat := 262144

/-- Would a cam's points overlap another cam's? -/
def State.camOverlap (s : State) (c base n : Nat) : Bool :=
  (List.range 64).any (fun k =>
    let b := s.fget (rLPE_CAM_BASE k) fLPE_CAM_BASE_BASE
    k != c && s.camN k != 0 && decide (base < b + s.camN k) && decide (b < base + n))

/-- What refuses a LOAD (R275). -/
def State.camRefused (s : State) (c base n : Nat) : Option Nat :=
  if s.fget (rLPE_CAM_CTL c) fLPE_CAM_CTL_USERS ≠ 0 then some stBUSY
  else if camPoints < base + n ∨ s.camOverlap c base n then some stRANGE
  else none

/-- Enter a cam in the directory. -/
def State.camEnter (s : State) (c : Nat) (cf : BitVec 4) (base n mstep : Word) : State :=
  let s := (s.fset (rLPE_CAM_BASE c) fLPE_CAM_BASE_BASE base.toNat).fset (rLPE_CAM_N c) fLPE_CAM_N_N n.toNat
  let s := s.rset (rLPE_CAM_STEP c) mstep
  (s.fsetb (rLPE_CAM_CTL c) fLPE_CAM_CTL_MODE (cf.getLsbD 0)).fsetb (rLPE_CAM_CTL c) fLPE_CAM_CTL_INTERP (cf.getLsbD 1)

def State.doCamLoad (s : State) (h : DescHdr) (cam : BitVec 8) (cf : BitVec 4) (base n mstep : Word) (addr : BitVec 64) (xfer : Word)
    (pts : Dma (BitVec 64)) : State :=
  let c := cam.toNat
  let strm := cf.getLsbD 3
  s.desc h 0x06 true (c < 64 && 2 ≤ n.toNat && mstep != 0 && (strm || addr.toNat % 8 == 0)) (s.portFlag (hdrPort h) fPLAN_P_FLAGS_CAMW)
    (.camLoad cam cf base n mstep xfer) (fun k s =>
    match s.camRefused c base.toNat n.toNat with
    | some e => s.complete k e 0
    | none =>
      if strm then (s.openCmd k).1
      else match pts with
        | .readErr => s.complete k stDMAERR 0
        | .memErr => s.complete k stMEMERR 0
        | .ok xs =>
          let s := s.sramWrite (camBase + 8 * base.toNat) ((xs.take n.toNat).flatMap (fun x => leBytes 8 x.toNat))
          doneOK k (s.camEnter c cf base n mstep))

def State.doCamSelect (s : State) (h : DescHdr) (cam : BitVec 8) (cf : BitVec 4) (cphase : Val) : State :=
  let n := h.axis.toNat
  s.desc h 0x06 true (cam.toNat < 64) (s.perm (hdrPort h) n pmMOTION) (.camSelect cam cf cphase) (motion n)

def State.doCamDeselect (s : State) (h : DescHdr) (cam : BitVec 8) : State :=
  let n := h.axis.toNat
  s.desc h 0x06 true (cam.toNat < 64) (s.perm (hdrPort h) n pmMOTION) (.camDeselect cam) (motion n)

def State.doCamFree (s : State) (h : DescHdr) (cam : BitVec 8) : State :=
  let c := cam.toNat
  s.desc h 0x06 true (c < 64) (s.portFlag (hdrPort h) fPLAN_P_FLAGS_CAMW) .other (fun k s =>
    if s.fget (rLPE_CAM_CTL c) fLPE_CAM_CTL_USERS ≠ 0 then s.complete k stBUSY 0
    else doneOK k (s.camEnter c 0 0 0 0))

/-! ### Compare and latch (R283, R286, R297, R301, R381) -/

/-- Are the entries of a CMPADD in form (R286)? -/
def entryOK (x : BitVec 256) : Bool :=
  let e : CmpEnt := { raw := x }
  e.trig != 3 && (e.act != acEVENT || decide (e.tgtT ≤ 24))

/-- Has a port the rights that an entry needs (R413)? -/
def State.entryRight (s : State) (p : Nat) (x : BitVec 256) : Bool :=
  let e : CmpEnt := { raw := x }
  s.perm p e.axis pmCMP && s.ringOK p e.cq && (e.act != acLATCH || s.perm p e.taxis pmCMP) && (e.act != acFOUT || s.foutOK p e.out)

/-- May an entry be held against the present plan (R286)? -/
def State.entryStands (s : State) (x : BitVec 256) : Bool :=
  let e : CmpEnt := { raw := x }
  s.inPlan e.axis && (e.act != acLATCH || s.inPlan e.taxis) && (e.trig == trTIME || s.axState e.axis != xOFF)

/-- CHREL (R381): a chained entry's CHIDX below COUNT names an entry of the same command. -/
def chainTo (idx : List Nat) (x : BitVec 256) : BitVec 256 :=
  let e : CmpEnt := { raw := x }
  if e.chain ∧ e.chidx < idx.length then
    (x &&& ~~~((0x3FFF : BitVec 256) <<< 234)) ||| (BitVec.ofNat 256 (idx.getD e.chidx 0) <<< 234)
  else x

/-- Add the entries of a command, whole or not at all (R283). -/
def State.addEntries (s : State) (p : Nat) (c : OpenCmd) (chrel : Bool) (raddr : Option Nat) (xs : List (BitVec 256)) : State :=
  if !xs.all s.entryStands then s.complete c stSTATE 0
  else
    let g := s.cmpRange p
    match (if g.1 < g.2 then s.cmpAlloc g.1 (g.2 - 1) xs.length else none) with
    | none => (s.raise rCMP_STAT fCMP_STAT_FULL).complete c stFULL 0
    | some idx =>
      let xs := if chrel then xs.map (chainTo idx) else xs
      let s := s.cmpAdd (idx.zip xs)
      let s := match raddr with
        | some a => s.hostWrite a (idx.flatMap (leBytes 2))
        | none => s
      s.complete c stOK (idx.headD 0)

def State.doCmpadd (s : State) (h : DescHdr) (count : BitVec 16) (raddr : BitVec 64) (entries : Dma (BitVec 256)) : State :=
  let inl := h.flags.getLsbD 3
  let n := count.toNat
  let xs := match entries with
    | .ok l => l.take n
    | _ => []
  s.desc h 0x07 false (1 ≤ n && n ≤ (if inl then 1 else 256) && xs.all entryOK) (xs.all (s.entryRight (hdrPort h))) .other (fun c s =>
    match entries with
    | .readErr => s.complete c stDMAERR 0
    | .memErr => s.complete c stMEMERR 0
    | .ok _ => s.addEntries (hdrPort h) c (h.flags.getLsbD 4) (if inl then none else some raddr.toNat) xs)

/-- Delete the entries of a list, counting DELETED and PARTIAL (R297, R387). -/
def State.delAll (s : State) (l : List Nat) : State × Nat × Nat :=
  l.foldl (fun (acc : State × Nat × Nat) i =>
    let r := acc.1.cmpDel i
    if r.2 = rcPARTIAL then (r.1, acc.2.1, acc.2.2 + 1) else (r.1, acc.2.1 + 1, acc.2.2)) (s, 0, 0)

def State.doCmpdel (s : State) (h : DescHdr) (by_ : BitVec 8) (index : BitVec 16) (target tag mask : BitVec 8) : State :=
  let p := (hdrPort h)
  let g := s.cmpRange p
  let inRange := fun (i : Nat) => decide (g.1 ≤ i) && decide (i < g.2)
  let i := index.toNat
  let t := target.toNat
  let right := match by_.toNat with
    | 0 => inRange i
    | 1 => s.perm p t pmCMP
    | 3 => s.permAll p pmCMP (s.rowGroup t)
    | _ => true
  s.desc h 0x08 false (by_.toNat ≤ 3 && (by_ != 0 || i < cmpSize) && (by_ != 3 || t < 64)) right .other (fun c s =>
    if by_ = 0 then
      let r := s.cmpDel i
      r.1.complete c stOK r.2
    else
      let hit := fun (e : CmpEnt) => match by_.toNat with
        | 1 => e.axis == t || (e.act == acLATCH && e.taxis == t)
        | 2 => e.tag &&& mask.toNat == tag.toNat &&& mask.toNat
        | _ => (s.rowGroup t).contains e.axis
      let r := s.delAll ((s.cmpWhere hit).filter inRange)
      r.1.complete c stOK (r.2.1 + r.2.2 * 2 ^ 32))

/-- LATARM (R301, R380): SETCFG writes the unit's configuration before the operation; at admission. -/
def State.doLatarm (s : State) (h : DescHdr) (op unit : Nat) (setcfg : Bool) (cfg : Word) : State :=
  let n := h.axis.toNat
  let p := (hdrPort h)
  s.desc h 0x09 true (unit < 2 && op ≤ 2) (s.perm p n pmCMP && (!setcfg || s.ringOK p (bget cfg fLAT_CFG_CQ))) .other (fun c s =>
    let o := rLAT_CFG n unit
    let s := if setcfg then (match regRow o with
      | some r => s.storeWord r o cfg
      | none => s) else s
    let s := match op with
      | 0 => s.latArm n unit true
      | 1 => s.latArm n unit false
      | _ => (s.updAx n (fun a => { a with lat := [] })).latShow n
    doneOK c s)

/-! ### READ, CFGSTAGE, COMMIT, MIGRATE, TXTS (R380) -/

/-- READ: the data reach host memory before the completion, which carries the mailbox status (R387). -/
def State.doRead (s : State) (h : DescHdr) (object index : BitVec 16) (addr : BitVec 64) : State :=
  let code := object.toNat
  let i := index.toNat
  let right := if mboAxial code then decide (255 < i) || s.perm (hdrPort h) i pmREAD else s.portFlag (hdrPort h) fPLAN_P_FLAGS_RDEV
  let ix : BitVec 14 := BitVec.ofNat 14 (min i 0x3FFF)
  s.desc h 0x0A false (addr.toNat % 32 == 0 && (mboForRead code ix).isSome) right .other (fun c s =>
    match mboForRead code ix with
    | none => s.complete c stFORMAT 0
    | some f =>
      let r := f s
      let bytes := (List.range 8).flatMap (fun k => leBytes 4 (r.data.getD k 0).toNat)
      (r.st.hostWrite addr.toNat bytes).complete c stOK r.status)

/-- The axis whose window holds a register of AXC, FBK or PGN (R411, R436). -/
def axisWindow (o : Nat) : Option Nat :=
  let r := o % 0x100000
  if o / 0x100000 = 5 ∧ r < 0x40000 then some (r / 0x400)
  else if (o / 0x100000 = 8 ∨ o / 0x100000 = 9) ∧ r < 0x10000 then some (r / 0x100)
  else none

/-- Has a port the right to stage a register (R409, R413)? -/
def State.stageRight (s : State) (p o : Nat) : Bool :=
  if o / 0x100000 = 1 ∧ p ≠ 0 then false
  else match axisWindow o with
    | some n => s.perm p n pmCFG
    | none => s.portFlag p fPLAN_P_FLAGS_CFGG

/-- Is an offset in the registers of the CAN acceptance tables (R422)? -/
def canReg (o : Nat) : Bool :=
  (decide (0x100020 ≤ o) && decide (o < 0x100040) && o % 8 == 0) || (decide (0x101000 ≤ o) && decide (o < 0x101000 + 8 * canEntries))

/-- Stage one value in a shadow (R437). -/
def State.stage (s : State) (o : Nat) (v : Word) : State :=
  match regRow o with
  | none => s
  | some r =>
    let m := BitVec.ofNat 32 r.sh &&& ~~~absentBits o
    let s := s.rset o ((s.rget o &&& ~~~m) ||| (v &&& m))
    if canReg o then canWritten s else s

/-- A pair of a CFGSTAGE: offset and value. -/
def pairOff (x : BitVec 64) : Nat := (lo32 x).toNat

/-- Is an offset that of a register with `sh` fields? -/
def stages (o : Nat) : Bool := match regRow o with
  | some r => r.sh != 0
  | none => false

def State.doCfgstage (s : State) (h : DescHdr) (count : BitVec 16) (pairs : Dma (BitVec 64)) : State :=
  let n := count.toNat
  let xs := match pairs with
    | .ok l => l.take n
    | _ => []
  s.desc h 0x0B false (1 ≤ n && n ≤ (if h.flags.getLsbD 3 then 5 else 1024) && xs.all (fun x => stages (pairOff x)))
    (xs.all (fun x => s.stageRight (hdrPort h) (pairOff x))) .other (fun c s =>
    match pairs with
    | .readErr => s.complete c stDMAERR 0
    | .memErr => s.complete c stMEMERR 0
    | .ok _ => doneOK c (xs.foldl (fun s x => s.stage (pairOff x) (hi32 x)) s))

def State.doCommit (s : State) (h : DescHdr) (groups : BitVec 8) (axsel : BitVec 256) (at_ : FTime) : State :=
  let p := (hdrPort h)
  let right := (!groups.getLsbD 0 || (axesOf axsel).all (fun n => s.perm p n pmCFG)) && (groups &&& 0xFE == 0 || s.portFlag p fPLAN_P_FLAGS_CFGG)
  s.desc h 0x0C false true right .other (fun c s =>
    let r := s.openCmd c
    r.1.commitOffer groups axsel (if at_ = 0 then none else some at_) (some r.2) (h.flags.getLsbD 2))

def State.doMigrate (s : State) (h : DescHdr) (src dst : BitVec 8) (all : Bool) (axes : BitVec 256) (at_ : FTime) : State :=
  let p := (hdrPort h)
  let ns := if all then s.laneAxes src.toNat else axesOf axes
  s.desc h 0x0D false (src.toNat < 16 && dst.toNat < 16) (s.portFlag p fPLAN_P_FLAGS_LANE && s.permAll p pmCFG ns) .other (fun c s =>
    let r := s.openCmd c
    r.1.migOffer src.toNat dst.toNat ns (if at_ = 0 then r.1.now else at_) (some r.2))

def State.doTxts (s : State) (h : DescHdr) (port : BitVec 8) : State :=
  s.desc h 0x0E false (port.toNat < 2) true .other (fun c s =>
    let r := mboFtTxts (BitVec.ofNat 14 port.toNat) s
    let w := fun (k : Nat) => (r.data.getD k 0).toNat
    r.st.complete c stOK (w 1 + w 2 * 2 ^ 32 + (w 0 % 65536) * 2 ^ 64 + (w 0 / 2 ^ 31) * 2 ^ 80))

/-! ### Rows -/

def execNop (h : DescHdr) (s : State) : Out := .next (s.doNop h)
def execAxset (h : DescHdr) (value : BitVec 64) (t : FTime) (valid : Bool) (req : BitVec 5) (s : State) : Out :=
  .next (s.doAxset h value t valid req)
def execMove (h : DescHdr) (target : BitVec 64) (vl al dl jl : Word) (mf : BitVec 3) (s : State) : Out :=
  .next (s.doMove h target vl al dl jl mf)
def execStop (h : DescHdr) (kind scope : BitVec 8) (s : State) : Out := .next (s.doStop h kind scope)
def execResume (h : DescHdr) (s : State) : Out := .next (s.doResume h)
def execGear (h : DescHdr) (mode mkind master : BitVec 8) (gf : BitVec 2) (num den : Word) (offset lr mpos : BitVec 64) (s : State) : Out :=
  .next (s.doGear h mode mkind master gf num den offset lr mpos)
def execCamLoad (h : DescHdr) (cam : BitVec 8) (cf : BitVec 4) (base n mstep : Word) (addr : BitVec 64) (xfer : Word) (pts : Dma (BitVec 64))
    (s : State) : Out := .next (s.doCamLoad h cam cf base n mstep addr xfer pts)
def execCamSelect (h : DescHdr) (cam : BitVec 8) (cf : BitVec 4) (cphase : BitVec 64) (s : State) : Out := .next (s.doCamSelect h cam cf cphase)
def execCamDeselect (h : DescHdr) (cam : BitVec 8) (s : State) : Out := .next (s.doCamDeselect h cam)
def execCamFree (h : DescHdr) (cam : BitVec 8) (s : State) : Out := .next (s.doCamFree h cam)
def execCmpadd (h : DescHdr) (_addr : BitVec 64) (count : BitVec 16) (raddr : BitVec 64) (entries : Dma (BitVec 256)) (s : State) : Out :=
  .next (s.doCmpadd h count raddr entries)
def execCmpdel (h : DescHdr) (by_ : BitVec 8) (index : BitVec 16) (target tag mask : BitVec 8) (s : State) : Out :=
  .next (s.doCmpdel h by_ index target tag mask)
def execLatarmArm (h : DescHdr) (unit : BitVec 8) (setcfg : Bool) (cfg : Word) (s : State) : Out := .next (s.doLatarm h 0 unit.toNat setcfg cfg)
def execLatarmDisarm (h : DescHdr) (unit : BitVec 8) (setcfg : Bool) (cfg : Word) (s : State) : Out := .next (s.doLatarm h 1 unit.toNat setcfg cfg)
def execLatarmFlush (h : DescHdr) (unit : BitVec 8) (setcfg : Bool) (cfg : Word) (s : State) : Out := .next (s.doLatarm h 2 unit.toNat setcfg cfg)
def execRead (h : DescHdr) (object index : BitVec 16) (addr : BitVec 64) (s : State) : Out := .next (s.doRead h object index addr)
def execCfgstage (h : DescHdr) (_addr : BitVec 64) (count : BitVec 16) (pairs : Dma (BitVec 64)) (s : State) : Out :=
  .next (s.doCfgstage h count pairs)
def execCommit (h : DescHdr) (groups : BitVec 8) (axsel : BitVec 256) (at_ : FTime) (s : State) : Out := .next (s.doCommit h groups axsel at_)
def execMigrate (h : DescHdr) (src dst : BitVec 8) (all : Bool) (axes : BitVec 256) (at_ : FTime) (s : State) : Out :=
  .next (s.doMigrate h src dst all axes at_)
def execTxts (h : DescHdr) (port : BitVec 8) (s : State) : Out := .next (s.doTxts h port)

/-- An opcode that is none of R379: frame descriptors are denied on P9 (R410), any other is no opcode (R378). -/
def State.doOther (s : State) (h : DescHdr) (opc : Nat) : State :=
  let c := s.descCmd h opc .other 0
  if opc = 0x10 then (s.deny (hdrPort h)).complete c stDENIED 0 else s.complete c stFORMAT 0

/-- PEER_COMMAND (R410): a descriptor from a gondola. -/
def execPeerCommand (t : Fin 25) (pos : Fin 64) (flags : BitVec 8) (tag : BitVec 16) (axis : BitVec 8) (rsv : Bool) (cmd : PeerCmd) (s : State) : Out :=
  let h : DescHdr := { src := .peer t pos, flags := flags, tag := tag, axis := axis, rsv := rsv }
  .next (match cmd with
    | .nop => s.doNop h
    | .axset value t valid req => s.doAxset h value t valid req
    | .move target vl al dl jl mf => s.doMove h target vl al dl jl mf
    | .stop kind scope => s.doStop h kind scope
    | .resume => s.doResume h
    | .gear mode mkind master gf num den offset lr mpos => s.doGear h mode mkind master gf num den offset lr mpos
    | .camLoad cam cf base n mstep addr xfer pts => s.doCamLoad h cam cf base n mstep addr xfer pts
    | .camSelect cam cf cphase => s.doCamSelect h cam cf cphase
    | .camDeselect cam => s.doCamDeselect h cam
    | .camFree cam => s.doCamFree h cam
    | .cmpadd _ count raddr entries => s.doCmpadd h count raddr entries
    | .cmpdel by_ index target tag mask => s.doCmpdel h by_ index target tag mask
    | .latarm op unit setcfg cfg => s.doLatarm h op.toNat unit.toNat setcfg cfg
    | .read object index addr => s.doRead h object index addr
    | .cfgstage _ count pairs => s.doCfgstage h count pairs
    | .commit groups axsel at_ => s.doCommit h groups axsel at_
    | .migrate src dst all axes at_ => s.doMigrate h src dst all axes at_
    | .txts port => s.doTxts h port
    | .other opc => s.doOther h opc.toNat)

end Sys2Proof.Machine
end

