-- ==== Sys2Proof/Machine/LaneOps.lean ====
section
/-!
DEFINITION. One definition per lane instruction (12_loop_engine, R338, R339): each is one issue on its lane, with the operation of the other
slot as the row gives it.
-/
namespace Sys2Proof.Machine

open Sys2Proof

/-- LANE_NOP (R334). -/
def execLaneNop (l : Fin 16) (s : State) : Out := .next (s.issue l.val .nop .nop)

/-- MPY (R338, R342). -/
def execMpy (l : Fin 16) (ad : Fin 4) (x y : Fin 16) (mv : MoveOp) (s : State) : Out := .next (s.issue l.val (.mpy ad x y) mv)

/-- MAC (R338). -/
def execMac (l : Fin 16) (ad : Fin 4) (x y : Fin 16) (mv : MoveOp) (s : State) : Out := .next (s.issue l.val (.mac ad x y) mv)

/-- MSU (R338). -/
def execMsu (l : Fin 16) (ad : Fin 4) (x y : Fin 16) (mv : MoveOp) (s : State) : Out := .next (s.issue l.val (.msu ad x y) mv)

/-- ACLR (R338). -/
def execAclr (l : Fin 16) (ad : Fin 4) (mv : MoveOp) (s : State) : Out := .next (s.issue l.val (.aclr ad) mv)

/-- ALD (R338). -/
def execAld (l : Fin 16) (ad : Fin 4) (x : Fin 16) (mv : MoveOp) (s : State) : Out := .next (s.issue l.val (.ald ad x) mv)

/-- AADD (R338). -/
def execAadd (l : Fin 16) (ad as_ : Fin 4) (mv : MoveOp) (s : State) : Out := .next (s.issue l.val (.aadd ad as_) mv)

/-- ASUB (R338). -/
def execAsub (l : Fin 16) (ad as_ : Fin 4) (mv : MoveOp) (s : State) : Out := .next (s.issue l.val (.asub ad as_) mv)

/-- AMOV (R338). -/
def execAmov (l : Fin 16) (ad as_ : Fin 4) (mv : MoveOp) (s : State) : Out := .next (s.issue l.val (.amov ad as_) mv)

/-- ANEG (R338). -/
def execAneg (l : Fin 16) (ad as_ : Fin 4) (mv : MoveOp) (s : State) : Out := .next (s.issue l.val (.aneg ad as_) mv)

/-- AABS (R338). -/
def execAabs (l : Fin 16) (ad as_ : Fin 4) (mv : MoveOp) (s : State) : Out := .next (s.issue l.val (.aabs ad as_) mv)

/-- ACMP (R338). -/
def execAcmp (l : Fin 16) (ad as_ : Fin 4) (mv : MoveOp) (s : State) : Out := .next (s.issue l.val (.acmp ad as_) mv)

/-- ADD (R338). -/
def execAdd (l : Fin 16) (dd x y : Fin 16) (mv : MoveOp) (s : State) : Out := .next (s.issue l.val (.add dd x y) mv)

/-- ADDS (R338). -/
def execAdds (l : Fin 16) (dd x y : Fin 16) (mv : MoveOp) (s : State) : Out := .next (s.issue l.val (.adds dd x y) mv)

/-- SUB (R338). -/
def execSub (l : Fin 16) (dd x y : Fin 16) (mv : MoveOp) (s : State) : Out := .next (s.issue l.val (.sub dd x y) mv)

/-- SUBS (R338). -/
def execSubs (l : Fin 16) (dd x y : Fin 16) (mv : MoveOp) (s : State) : Out := .next (s.issue l.val (.subs dd x y) mv)

/-- AND (R338). -/
def execAnd (l : Fin 16) (dd x y : Fin 16) (mv : MoveOp) (s : State) : Out := .next (s.issue l.val (.and dd x y) mv)

/-- OR (R338). -/
def execOr (l : Fin 16) (dd x y : Fin 16) (mv : MoveOp) (s : State) : Out := .next (s.issue l.val (.or dd x y) mv)

/-- XOR (R338). -/
def execXor (l : Fin 16) (dd x y : Fin 16) (mv : MoveOp) (s : State) : Out := .next (s.issue l.val (.xor dd x y) mv)

/-- MIN (R338). -/
def execMin (l : Fin 16) (dd x y : Fin 16) (mv : MoveOp) (s : State) : Out := .next (s.issue l.val (.min dd x y) mv)

/-- MAX (R338). -/
def execMax (l : Fin 16) (dd x y : Fin 16) (mv : MoveOp) (s : State) : Out := .next (s.issue l.val (.max dd x y) mv)

/-- CMP (R338). -/
def execCmp (l : Fin 16) (x y : Fin 16) (mv : MoveOp) (s : State) : Out := .next (s.issue l.val (.cmp x y) mv)

/-- SHL (R338). -/
def execShl (l : Fin 16) (dd x y : Fin 16) (mv : MoveOp) (s : State) : Out := .next (s.issue l.val (.shl dd x y) mv)

/-- SHR (R338). -/
def execShr (l : Fin 16) (dd x y : Fin 16) (mv : MoveOp) (s : State) : Out := .next (s.issue l.val (.shr dd x y) mv)

/-- SRA (R338). -/
def execSra (l : Fin 16) (dd x y : Fin 16) (mv : MoveOp) (s : State) : Out := .next (s.issue l.val (.sra dd x y) mv)

/-- NEG (R338). -/
def execNeg (l : Fin 16) (dd x : Fin 16) (mv : MoveOp) (s : State) : Out := .next (s.issue l.val (.neg dd x) mv)

/-- ABS (R338). -/
def execAbs (l : Fin 16) (dd x : Fin 16) (mv : MoveOp) (s : State) : Out := .next (s.issue l.val (.abs dd x) mv)

/-- ADDI (R338). -/
def execAddi (l : Fin 16) (dd x : Fin 16) (imm : BitVec 14) (mv : MoveOp) (s : State) : Out := .next (s.issue l.val (.addi dd x imm) mv)

/-- ADDIS (R338). -/
def execAddis (l : Fin 16) (dd x : Fin 16) (imm : BitVec 14) (mv : MoveOp) (s : State) : Out := .next (s.issue l.val (.addis dd x imm) mv)

/-- ANDI (R338). -/
def execAndi (l : Fin 16) (dd x : Fin 16) (imm : BitVec 14) (mv : MoveOp) (s : State) : Out := .next (s.issue l.val (.andi dd x imm) mv)

/-- CMPI (R338). -/
def execCmpi (l : Fin 16) (x : Fin 16) (imm : BitVec 14) (mv : MoveOp) (s : State) : Out := .next (s.issue l.val (.cmpi x imm) mv)

/-- SHLI (R338). -/
def execShli (l : Fin 16) (dd x : Fin 16) (imm : BitVec 14) (mv : MoveOp) (s : State) : Out := .next (s.issue l.val (.shli dd x imm) mv)

/-- SHRI (R338). -/
def execShri (l : Fin 16) (dd x : Fin 16) (imm : BitVec 14) (mv : MoveOp) (s : State) : Out := .next (s.issue l.val (.shri dd x imm) mv)

/-- SRAI (R338). -/
def execSrai (l : Fin 16) (dd x : Fin 16) (imm : BitVec 14) (mv : MoveOp) (s : State) : Out := .next (s.issue l.val (.srai dd x imm) mv)

/-- LD (R339). -/
def execLd (l : Fin 16) (reg : BitVec 6) (p : Fin 8) (am : BitVec 2) (mi : Fin 8) (off : BitVec 16) (ar : ArithOp) (s : State) : Out := .next (s.issue l.val ar (.ld reg p am mi off))

/-- ST (R339). -/
def execSt (l : Fin 16) (reg : BitVec 6) (p : Fin 8) (am : BitVec 2) (mi : Fin 8) (off : BitVec 16) (ar : ArithOp) (s : State) : Out := .next (s.issue l.val ar (.st reg p am mi off))

/-- LDQ (R339). -/
def execLdq (l : Fin 16) (reg : BitVec 6) (p : Fin 8) (am : BitVec 2) (mi : Fin 8) (off : BitVec 16) (ar : ArithOp) (s : State) : Out := .next (s.issue l.val ar (.ldq reg p am mi off))

/-- STQ (R339). -/
def execStq (l : Fin 16) (reg : BitVec 6) (p : Fin 8) (am : BitVec 2) (mi : Fin 8) (off : BitVec 16) (ar : ArithOp) (s : State) : Out := .next (s.issue l.val ar (.stq reg p am mi off))

/-- LDS (R339). -/
def execLds (l : Fin 16) (reg : BitVec 6) (p : Fin 8) (am : BitVec 2) (mi : Fin 8) (off : BitVec 16) (ar : ArithOp) (s : State) : Out := .next (s.issue l.val ar (.lds reg p am mi off))

/-- STS (R339). -/
def execSts (l : Fin 16) (reg : BitVec 6) (p : Fin 8) (am : BitVec 2) (mi : Fin 8) (off : BitVec 16) (ar : ArithOp) (s : State) : Out := .next (s.issue l.val ar (.sts reg p am mi off))

/-- LDQS (R339). -/
def execLdqs (l : Fin 16) (reg : BitVec 6) (p : Fin 8) (am : BitVec 2) (mi : Fin 8) (off : BitVec 16) (ar : ArithOp) (s : State) : Out := .next (s.issue l.val ar (.ldqs reg p am mi off))

/-- STQS (R339). -/
def execStqs (l : Fin 16) (reg : BitVec 6) (p : Fin 8) (am : BitVec 2) (mi : Fin 8) (off : BitVec 16) (ar : ArithOp) (s : State) : Out := .next (s.issue l.val ar (.stqs reg p am mi off))

/-- MOV (R343). -/
def execMov (l : Fin 16) (rd rs : BitVec 6) (ar : ArithOp) (s : State) : Out := .next (s.issue l.val ar (.mov rd rs))

/-- LDI (R339). -/
def execLdi (l : Fin 16) (rd : BitVec 6) (imm : BitVec 24) (ar : ArithOp) (s : State) : Out := .next (s.issue l.val ar (.ldi rd imm))

/-- WDIF (R344). -/
def execWdif (l : Fin 16) (ad : Fin 4) (pa pb : Fin 8) (sh : BitVec 7) (ar : ArithOp) (s : State) : Out := .next (s.issue l.val ar (.wdif ad pa pb sh))

/-- WADD (R344). -/
def execWadd (l : Fin 16) (ad : Fin 4) (pa : Fin 8) (sh : BitVec 7) (ar : ArithOp) (s : State) : Out := .next (s.issue l.val ar (.wadd ad pa sh))

/-- OUT (R362). -/
def execOut (l : Fin 16) (reg : BitVec 6) (p : Fin 8) (am : BitVec 2) (mi : Fin 8) (off : BitVec 16) (ar : ArithOp) (s : State) : Out := .next (s.issue l.val ar (.out reg p am mi off))

/-- LD2 (R339). -/
def execLd2 (l : Fin 16) (reg : BitVec 6) (p : Fin 8) (am : BitVec 2) (mi : Fin 8) (off : BitVec 16) (ar : ArithOp) (s : State) : Out := .next (s.issue l.val ar (.ld2 reg p am mi off))

/-- ST2 (R339). -/
def execSt2 (l : Fin 16) (reg : BitVec 6) (p : Fin 8) (am : BitVec 2) (mi : Fin 8) (off : BitVec 16) (ar : ArithOp) (s : State) : Out := .next (s.issue l.val ar (.st2 reg p am mi off))

/-- BR (R348). -/
def execBr (l : Fin 16) (cond : BitVec 4) (tgt : BitVec 12) (ar : ArithOp) (s : State) : Out := .next (s.issue l.val ar (.br cond tgt))

/-- BRL (R339). -/
def execBrl (l : Fin 16) (cond : BitVec 4) (tgt : BitVec 12) (ar : ArithOp) (s : State) : Out := .next (s.issue l.val ar (.brl cond tgt))

/-- RET (R339). -/
def execRet (l : Fin 16) (cond : BitVec 4) (ar : ArithOp) (s : State) : Out := .next (s.issue l.val ar (.ret cond))

/-- LOOP (R350). -/
def execLoop (l : Fin 16) (fromReg : Bool) (cnt : BitVec 12) (tgt : BitVec 12) (ar : ArithOp) (s : State) : Out := .next (s.issue l.val ar (.loop fromReg cnt tgt))

/-- REP (R353). -/
def execRep (l : Fin 16) (fromReg : Bool) (cnt : BitVec 12) (ar : ArithOp) (s : State) : Out := .next (s.issue l.val ar (.rep fromReg cnt))

/-- END (R355). -/
def execLaneEnd (l : Fin 16) (ar : ArithOp) (s : State) : Out := .next (s.issue l.val ar (.end_))

/-- ROTA (R351). -/
def execRota (l : Fin 16) (ar : ArithOp) (s : State) : Out := .next (s.issue l.val ar (.rota))

/-! ### Watchdog, self-test and the SPAN register (R357, R370, R499, R500) -/

/-- LANE_WATCHDOG: a work item has not reached END within WDG core cycles of the raising of its event (R357). -/
def execLaneWatchdog (l : Fin 16) (s : State) : Out :=
  .next (
    let w := s.fget (rLPE_L_WDG l.val) fLPE_L_WDG_WDG
    let late := fun (e : LEvent) => decide (w < s.cyclesSince e.raised)
    let x := s.ln l.val
    if w ≠ 0 ∧ ((match x.work with | some e => late e | none => false) || x.evq.any late) then s.trapLane l.val tcWDG else s)

/-- SELF_TEST_PASS: a pass of the background self-test ends; a failed one traps the lane (R499, R500). -/
def execSelfTestPass (l : Fin 16) (ok : Bool) (s : State) : Out :=
  .next (if !s.laneRuns l.val then s
  else if ok then
    (s.fset (rLPE_L_STEST l.val) fLPE_L_STEST_PASS (s.fget (rLPE_L_STEST l.val) fLPE_L_STEST_PASS + 1)).updLn l.val
      (fun x => { x with lastPass := s.now })
  else (s.raise (rLPE_L_STEST l.val) fLPE_L_STEST_FAIL).trapLane l.val tcSELFTEST)

/-- What a write of LPE_Ln_CMD does (R371): SPAN and PEAK return to zero. -/
def lpeCmdWritten (l : Nat) (v : Word) (s : State) : State :=
  if bget v fLPE_L_CMD_CLRSPAN = 1 then (s.fset (rLPE_L_SPAN l) fLPE_L_SPAN_SPAN 0).fset (rLPE_L_EVQ l) fLPE_L_EVQ_PEAK 0 else s

/-- CLRSPAN (R371). -/
def execClrspan (via : RegPath) (l : Fin 16) (s : State) : Out := .next (s.portWrite via (rLPE_L_CMD l.val) 1 (fun _ => lpeCmdWritten l.val 1))

end Sys2Proof.Machine
end

