-- ==== Sys2Proof/Machine/Stream.lean ====
section
/-! DEFINITION. The stream port's rows (R400-R405): INIT and credits, frames received, trajectory records, bulk transfers, and the flight log's
frames (R515). -/
namespace Sys2Proof.Machine

/-! ### The link (R400) -/

/-- STREAM_LINK_DOWN: no receive clock edge for 1 µs. -/
def execStreamLinkDown (s : State) : Out := .next s.strDown

/-- Both INIT frames have passed: the link is UP. -/
def State.strUp (s : State) : State := if s.stream.sentInit ∧ s.stream.rcvdInit then (s.strSet skUP).strPump else s

/-- The INIT payload (R401): 256 credits, version 1. -/
def initPayload : List Byte := leBytes 4 256 ++ [1, 0, 0, 0]

/-- STREAM_INIT_SEND: with EN = 1, until an INIT has been received and one has been sent. -/
def execStreamInitSend (s : State) : Out :=
  if !s.flag rNET_STR_CFG fNET_STR_CFG_EN ∨ (s.stream.sentInit ∧ s.stream.rcvdInit) then .next s
  else
    let s := if s.strLink = skDOWN then s.strSet skINIT else s
    let s := { s with stream := { s.stream with sentInit := true, seqTx := 0 } }
    .next (s.strFresh.strSend sfINIT initPayload).strUp

/-- What a write of NET_STR_CFG does (R400). -/
def netStrCfgWritten (s : State) : State := if s.flag rNET_STR_CFG fNET_STR_CFG_EN then s else s.strDown

/-- STREAM_CREDIT_SEND (R402). -/
def execStreamCreditSend (s : State) : Out :=
  .next (if s.strLink = skUP ∧ s.stream.retPend ≠ 0 then s.strFresh.strSend sfCREDIT [] else s)

/-! ### Receiving (R402, R403) -/

/-- Show the free credits of the receive queue. -/
def State.strShow (s : State) : State :=
  s.fset rNET_STR_CRED fNET_STR_CRED_RXFREE (256 - (s.stream.rxq.map (fun e => e.1)).sum)

/-- Frames leave the head of the queue: their credits go back. -/
def State.strRelease (s : State) : State :=
  let done := s.stream.rxq.takeWhile (fun e => e.2)
  State.strShow { s with stream := { s.stream with rxq := s.stream.rxq.drop done.length,
                                                   retPend := s.stream.retPend + (done.map (fun e => e.1)).sum } }

/-- A frame enters the receive queue; `done` where nothing of it has to wait. -/
def State.strQueue (s : State) (len : Nat) (done : Bool) : State :=
  State.strRelease { s with stream := { s.stream with rxq := s.stream.rxq ++ [(strNeed len, done)] } }

/-- A frame is discarded: counted, and the credits of the bytes received go back. -/
def State.strDiscard (s : State) (k bytes : Nat) : State := (s.count (rNET_STR_CNT k)).strQueue bytes true

/-- The peer returns credits. -/
def State.strCredit (s : State) (n : Nat) : State :=
  s.fset rNET_STR_CRED fNET_STR_CRED_TXCRED (min 0xFFFF (s.fget rNET_STR_CRED fNET_STR_CRED_TXCRED + n))

/-- An INIT frame (R400, R401): while UP it restarts the peer. -/
def State.strInit (s : State) (payload : List Byte) : State :=
  let n := leNat (payload.take 4)
  if payload.length ≠ 8 ∨ n = 0 ∨ 0xFFFF < n ∨ payload.getD 4 0 ≠ 1 then s.count (rNET_STR_CNT 1)
  else
    let s := { s with stream := { s.stream with rcvdInit := true, seqRx := 0 } }
    let s := s.fset rNET_STR_CRED fNET_STR_CRED_TXCRED n
    if s.strLink = skUP then s.strPump else s.strUp

/-- SEQ of a counted frame (R403). -/
def State.strSeq (s : State) (seq : BitVec 16) : State :=
  let s := if seq = s.stream.seqRx then s else s.count (rNET_STR_CNT 2)
  { s with stream := { s.stream with seqRx := seq + 1 } }

/-- STREAM_FRAME_RECEIVE: the records of a TRAJ frame arrive as TRAJ_RECORD, the payload of a BULK frame moves as STREAM_BULK_TRANSFER. -/
def execStreamFrameReceive (typ : BitVec 8) (len : Nat) (seq cret : BitVec 16) (payload : List Byte) (crc : Word) (frameOk : Bool) (s : State) : Out :=
  if !s.flag rNET_STR_CFG fNET_STR_CFG_EN then .next s
  else if crc ≠ strCrc typ len seq cret payload then .next (s.strDiscard 0 payload.length)
  else if !frameOk ∨ len % 8 ≠ 0 ∨ 2048 < len ∨ payload.length ≠ len ∨ typ = 0 ∨ sfBULK.toNat < typ.toNat ∨ (typ = sfCREDIT ∧ len ≠ 0)
      ∨ (typ = sfBULK ∧ len < 16) then
    .next (s.strDiscard 1 payload.length)
  else if typ = sfINIT then .next (s.strInit payload)
  else if s.strLink ≠ skUP then .next s
  else
    let s := s.strCredit cret.toNat
    .next (if typ = sfCREDIT then s.strPump else ((s.strSeq seq).strQueue len (typ == sfTRAJ)).strPump)

/-! ### Trajectory records (R404, R413) -/

/-- A record is refused: counted, and reported with REPORT = 1. -/
def State.trajRefuse (s : State) (n status : Nat) : State :=
  let s := s.count (rNET_STR_CNT 3)
  if s.netFlag rNET_STR_CFG fNET_STR_CFG_REPORT then s.streamEvent 0x18 (n + status * 256) else s

/-- TRAJ_RECORD: admitted as an AXSET point, under the access plan for P1. -/
def execTrajRecord (axis kind : BitVec 8) (rsv : Bool) (t : FTime) (value : BitVec 64) (s : State) : Out :=
  let n := axis.toNat
  .next (if s.strLink ≠ skUP then s
    else if rsv ∨ 2 < kind.toNat ∨ !s.valueOK n value then s.trajRefuse n stFORMAT
    else if !s.perm 1 n pmMOTION then (s.deny 1).trajRefuse n stDENIED
    else if kind.toNat ≠ s.axCmode n then s.trajRefuse n stSTATE
    else
      let r := s.point n t value true
      if r.2 = stOK then r.1 else r.1.trajRefuse n r.2)

/-! ### Bulk transfers (R405) -/

/-- Bytes that a destination's stream buffers hold (R405). -/
def strBuffer : Nat := 65536

/-- A tether BULK frame (R67). -/
def bulkFrame (g : Nat) (stream : BitVec 8) (last : Bool) (offset : Nat) (data : List Byte) : Frame :=
  { typ := 12, route := 0, addr := BitVec.ofNat 6 g, seq := 0, tag := 0,
    body := [stream, if last then 1 else 0, 0, 0] ++ leBytes 4 offset ++ data }

/-- Data bytes that wait for a gondola. -/
def State.bulkWaiting (s : State) (t g : Nat) : Nat :=
  (((s.port t).waiting.filter (fun f => f.typ == 12 && f.addr.toNat == g)).map (fun f => f.body.length - 8)).sum

/-- Queue the data in frames of at most 256 bytes. -/
def State.bulkQueue (s : State) (t g : Nat) (stream : BitVec 8) (last : Bool) (offset : Nat) (data : List Byte) : State :=
  let n := max 1 ((data.length + 255) / 256)
  (List.range n).foldl (fun s i =>
    s.txQueue t (bulkFrame g stream (last && i + 1 == n) (offset + 256 * i) ((data.drop (256 * i)).take 256))) s

/-- The admitted CAM LOAD that names a transfer. -/
def State.camPending (s : State) (xfer : Word) : Option (Nat × BitVec 8 × BitVec 4 × Word × Word × Word) :=
  (s.cmds.filterMap (fun e => match e.2 with
    | some c => (match c.op with
      | .camLoad cam cf base n mstep x => if x = xfer ∧ cf.getLsbD 3 then some (e.1, cam, cf, base, n, mstep) else none
      | _ => none)
    | none => none)).head?

/-- The first BULK frame of the receive queue has been dealt with. -/
def State.bulkMoved (s : State) : State :=
  let i := s.stream.rxq.findIdx (fun e => !e.2)
  State.strRelease { s with stream := { s.stream with rxq := s.stream.rxq.modify i (fun e => (e.1, true)) } }

/-- Data without a destination are discarded (R405). -/
def State.noDest (s : State) : State := s.bulkMoved.count (rNET_STR_CNT 4)

/-- Do the buffered data of a transfer hold a word with a double-bit error (R26)?  Where a frame lies in the stream buffers the spec does not
give: with an error in the region, a free value decides. -/
def State.streamBad (s : State) : Bool :=
  s.sramUpsets.any (fun u => u.2 && decide (0x7B0000 ≤ 8 * u.1) && decide (8 * u.1 < 0x8B0000)) && (s.free 0).getLsbD 0

/-- STREAM_BULK_TRANSFER: the payload of the first BULK frame that waits moves once its destination has room. -/
def execStreamBulkTransfer (xfer : Word) (dest : BitVec 8) (flags : BitVec 8) (tether pos stream : BitVec 8) (offset : Word) (data : List Byte)
    (s : State) : Out :=
  let t := tether.toNat
  let g := pos.toNat
  let last := flags.getLsbD 1
  .next (if s.stream.rxq.all (fun e => e.2) then s
    else if dest = 0 then
      let p := s.homePort t g
      if !s.portFlag 1 fPLAN_P_FLAGS_GIMG then (s.deny 1).bulkMoved
      else if 24 < t ∨ 63 < g ∨ !s.present t g then s.noDest
      else if strBuffer < s.bulkWaiting p g + data.length then s
      else (s.bulkQueue p g stream last offset.toNat data).bulkMoved
    else if dest = 1 then
      match s.camPending xfer with
      | none => s.noDest
      | some (k, cam, cf, base, n, mstep) =>
        if s.streamBad then ((s.drew 1).sramUe.finish k stMEMERR 0).bulkMoved
        else
        let s := s.drew 1
        let room := 8 * n.toNat - offset.toNat
        let s := s.sramWrite (camBase + 8 * base.toNat + offset.toNat) (data.take room)
        let s := if last then (s.camEnter cam.toNat cf base n mstep).finish k stOK 0 else s
        s.bulkMoved
    else s.noDest)

/-! ### The flight log (R402, R515) -/

/-- The most records that a LOG frame may carry for the credits held. -/
def State.logMost (s : State) : Nat := min 64 ((64 * s.fget rNET_STR_CRED fNET_STR_CRED_TXCRED - 12) / 32)

/-- FLOG_STREAM_DRAIN: the oldest records leave in one LOG frame, after the bulk data that wait (R402). -/
def execFlogStreamDrain (s : State) : Out :=
  let s := s.strPump
  let l := s.flog.store.take s.logMost
  .next (if !s.flag rFLOG_CTL fFLOG_CTL_STREAM ∨ s.strLink ≠ skUP ∨ l = [] then s
    else
      let s := s.setStore (s.flog.store.drop l.length)
      s.strFresh.strSend sfLOG (l.flatMap (fun r => leBytes 32 r.toNat)))

end Sys2Proof.Machine
end

