-- ==== Sys2Proof/Machine/RegWrite.lean ====
section
/-!
DEFINITION. REGISTER_WRITE and RC_READ (R12, R429-R435): a write at any offset of BAR0 stores by the field types, and has the effect
that the register's own row has, where it has one.
-/
namespace Sys2Proof.Machine

open Sys2Proof

/-- Registers with an effect of their own: `count` registers from `base` on, `stride` bytes apart. The effect is told the index, the
word written, and the word before. -/
structure Hook where
  base : Nat
  stride : Nat
  count : Nat
  eff : RegPath → Nat → Word → Word → State → State

/-- The index of an offset in a hook's registers. -/
def Hook.at (h : Hook) (o : Nat) : Option Nat :=
  if h.base ≤ o ∧ (o - h.base) % h.stride = 0 ∧ (o - h.base) / h.stride < h.count then some ((o - h.base) / h.stride) else none

/-- A hook over registers indexed by a function of their number. -/
def hook (r : Nat → Nat) (count : Nat) (eff : Nat → Word → Word → State → State) : Hook :=
  ⟨r 0, r 1 - r 0, count, fun _ => eff⟩

/-- A hook of a single register. -/
def hook1 (o : Nat) (eff : Word → Word → State → State) : Hook := ⟨o, 4, 1, fun _ _ => eff⟩

/-- A cleared mask lets a pending message go (R390). -/
def msixWritten (v : Nat) (s : State) : State :=
  if !s.flag (rMSIX_CTL v) fMSIX_CTL_MASK ∧ s.flag (rMSIX_PBA (v / 32)) ⟨v % 32, 1⟩ then
    (s.fset (rMSIX_PBA (v / 32)) ⟨v % 32, 1⟩ 0).sendMsg v
  else s

/-- A write of FIO_CMD that names no temperatures: each output under thermal shutdown is taken as hot or not by a free value. -/
def fioCmdFree (v : Word) (s : State) : State := fioCmdWritten v ((s.free 0).toNat % 2 ^ 16) (s.drew 1)

/-- The registers whose write does more than store. -/
def hooks : List Hook := [
  hook1 rGLB_COMMIT (fun v _ => glbCommitWritten v),
  hook rPLAN_CF_LO canEntries (fun _ _ _ => canWritten),
  hook rPLAN_CF_HI canEntries (fun _ _ _ => canWritten),
  hook rPLAN_CAN_KMASK 4 (fun _ _ _ => canWritten),
  ⟨rHIF_SQ_CFG 0, rHIF_SQ_CFG 1 - rHIF_SQ_CFG 0, 32, fun _ q _ old s => sqCfgWritten (Fin.ofNat 32 q) old s⟩,
  hook rHIF_SQ_BASE_LO 32 (fun q _ old s => baseWritten (s.flag (rHIF_SQ_CFG q) fHIF_SQ_CFG_EN) (rHIF_SQ_BASE_LO q) old s),
  hook rHIF_SQ_BASE_HI 32 (fun q _ old s => baseWritten (s.flag (rHIF_SQ_CFG q) fHIF_SQ_CFG_EN) (rHIF_SQ_BASE_HI q) old s),
  hook rHIF_CQ_CFG 32 (fun q _ old => cqCfgWritten q old),
  hook rHIF_CQ_BASE_LO 32 (fun q _ old s => baseWritten (s.flag (rHIF_CQ_CFG q) fHIF_CQ_CFG_EN) (rHIF_CQ_BASE_LO q) old s),
  hook rHIF_CQ_BASE_HI 32 (fun q _ old s => baseWritten (s.flag (rHIF_CQ_CFG q) fHIF_CQ_CFG_EN) (rHIF_CQ_BASE_HI q) old s),
  hook rHIF_CQ_IMOD 32 (fun q _ _ s => s.cqTest q),
  hook rMSIX_CTL 64 (fun v _ _ => msixWritten v),
  hook1 rFTM_CTL (fun _ _ => ftmCtlWritten),
  hook rFTM_TC_CTL 8 (fun n _ old => tcCtlWritten n old),
  hook rTTH_CTL 25 (fun t v old => tthCtlWritten t v old),
  hook rTTH_ENUM 25 (fun t v _ => tthEnumWritten t v),
  hook rAXC_CMD 256 (fun n v _ => axcCmdWritten n v),
  hook rLPE_L_CMD 16 (fun l v _ => lpeCmdWritten l v),
  hook1 rLPE_SPARE (fun _ _ s => s.showRoles),
  hook rCMP_RG 64 (fun g v _ => cmpRgWritten g v),
  hook rLAT_CTL 256 (fun n v _ => latCtlWritten n v),
  hook rPGN_TCTL 256 (fun n v _ => tctlWritten n v),
  hook1 rPGN_FLT_CMD (fun v _ => fltCmdWritten v),
  hook rBUS_G_CMD 32 (fun b v _ => busCmdWritten b v),
  hook1 rFIO_FOUT (fun v _ => foutWritten v),
  hook1 rFIO_CMD (fun v _ => fioCmdFree v),
  hook1 rANC_REQ0 req0Eff,
  hook1 rANC_REQ1 req1Eff,
  hook1 rNET_STR_CFG (fun _ old s => netStrCfgWritten (netCfgWritten rNET_STR_CFG [] old s)),
  hook rNET_ETH_CFG 2 (fun e _ old => netCfgWritten (rNET_ETH_CFG e) [rNET_ETH_MAC0 e, rNET_ETH_MAC1 e] old),
  hook rNET_ETH_MAC0 2 (fun e _ old => netOtherWritten (rNET_ETH_CFG e) (rNET_ETH_MAC0 e) old),
  hook rNET_ETH_MAC1 2 (fun e _ old => netOtherWritten (rNET_ETH_CFG e) (rNET_ETH_MAC1 e) old),
  hook rNET_CAN_CFG 4 (fun c _ old => netCfgWritten (rNET_CAN_CFG c) [] old),
  hook1 rFLOG_CTL (fun _ _ => flogAreaWritten),
  hook1 rFLOG_AREA (fun _ _ => flogAreaWritten),
  hook1 rFLOG_CMD (fun v _ => flogCmdWritten v),
  ⟨rMBX_REQ 0, rMBX_REQ 1 - rMBX_REQ 0, 4, fun via k v old => mbxReqWritten k via old v⟩]

/-- The effect that a write of `v` at a base offset has beside the store. -/
def writtenEff (via : RegPath) (o : Nat) (v old : Word) (s : State) : State :=
  match hooks.findSome? (fun h => (h.at o).map (fun i => h.eff via i v old)) with
  | some f => f s
  | none => s

/-- A write through an alias of a register with rw fields is a write of that register with the rw values that result (R431). -/
def State.aliasWrite (s : State) (via : RegPath) (o a : Nat) (v : Word) : State :=
  if isMsix o then (if s.p8Denied via o then s.deny 8 else s.raise rGLB_STAT fGLB_STAT_UNMAP)
  else match regRow o with
    | some r =>
      if s.p8Denied via o then s.deny 8
      else if r.rw = 0 then s
      else let w := aliasWord r a (s.rget o) v; s.portWrite via o w (writtenEff via o w)
    | none => s.portWrite via o v (fun _ s => s)

/-- A register write at any offset: a write of MBX_REQ from P8 without MBX is refused by the mailbox. -/
def State.regWrite (s : State) (via : RegPath) (off : Nat) (v : Word) : State :=
  let b := aliasOf off
  if b.2 = 0 then s.portWrite via b.1 v (writtenEff via b.1 v) else s.aliasWrite via b.1 b.2 v

/-- The size of BAR0; offsets from here on stand for the reserved offsets of BAR2 (R406). -/
def barSize : Nat := 0x1000000

/-- REGISTER_WRITE (R12, R373, R429, R431): `whole` is a request of one DW with every byte enable set, which P8 always makes. -/
def execRegisterWrite (via : RegPath) (off : Nat) (v : Word) (whole : Bool) (s : State) : Out :=
  .next (s.barWrite (via == .p8 || (whole && decide (off < barSize))) (fun s => s.regWrite via off v))

/-- RC_READ (R373, R434, R435): a read at the base offset returns the register and clears; a read of an alias returns its register and does
nothing (R431), one of no register zero (R429), one that is no whole request Unsupported Request. No path is refused a read (R448). -/
def execRcRead (via : RegPath) (off : Nat) (whole : Bool) (s : State) : Out :=
  .next (if whole || via == .p8 then
      let b := aliasOf off
      { (if b.2 = 0 then s.rcRead off else s) with answer := some (if (regRow b.1).isSome then s.view b.1 else 0) }
    else { s with answer := none })

end Sys2Proof.Machine
end

