-- ==== Sys2Proof/Machine/Dispatch.lean ====
section
/-! DEFINITION. The effect of each command on everything but the queue: one arm per constructor. -/
namespace Sys2Proof.Machine

def exec (i : Instr) (s : State) : Host.Outcome State Fault Refusal :=
  match i with
  | .corePllLock => Sys2Proof.Machine.execCorePllLock s
  | .poresetAssert => Sys2Proof.Machine.execPoresetAssert s
  | .poresetRelease bootsel => Sys2Proof.Machine.execPoresetRelease bootsel s
  | .sysresetAssert => Sys2Proof.Machine.execSysresetAssert s
  | .sysresetRelease => Sys2Proof.Machine.execSysresetRelease s
  | .railFaultReset => Sys2Proof.Machine.execRailFaultReset s
  | .railRecovery => Sys2Proof.Machine.execRailRecovery s
  | .bootSlotVerified slot fail version => Sys2Proof.Machine.execBootSlotVerified slot fail version s
  | .startupLaneLoadComplete failed => Sys2Proof.Machine.execStartupLaneLoadComplete failed s
  | .ddrTrainingComplete ok => Sys2Proof.Machine.execDdrTrainingComplete ok s
  | .altSlotVerifyComplete ok version => Sys2Proof.Machine.execAltSlotVerifyComplete ok version s
  | .calibrationStart => Sys2Proof.Machine.execCalibrationStart s
  | .calibrationComplete fail results => Sys2Proof.Machine.execCalibrationComplete fail results s
  | .endpointReset => Sys2Proof.Machine.execEndpointReset s
  | .debugHalt => Sys2Proof.Machine.execDebugHalt s
  | .debugRelease => Sys2Proof.Machine.execDebugRelease s
  | .scrubberLine => Sys2Proof.Machine.execScrubberLine s
  | .registerWrite via off v whole => Sys2Proof.Machine.execRegisterWrite via off v whole s
  | .rcRead via off whole => Sys2Proof.Machine.execRcRead via off whole s
  | .commitOffer via v => Sys2Proof.Machine.execCommitOffer via v s
  | .commitCancel via => Sys2Proof.Machine.execCommitCancel via s
  | .commitCheckComplete => Sys2Proof.Machine.execCommitCheckComplete s
  | .commitApply => Sys2Proof.Machine.execCommitApply s
  | .ftNow set via => Sys2Proof.Machine.execFtNow set via s
  | .ftStep set via offset => Sys2Proof.Machine.execFtStep set via offset s
  | .ftTsi set via index => Sys2Proof.Machine.execFtTsi set via index s
  | .ftTxts set via index => Sys2Proof.Machine.execFtTxts set via index s
  | .ftTc set via index target period => Sys2Proof.Machine.execFtTc set via index target period s
  | .tcArm via n v => Sys2Proof.Machine.execTcArm via n v s
  | .timeComparatorFire n => Sys2Proof.Machine.execTimeComparatorFire n s
  | .tcPulseEnd n => Sys2Proof.Machine.execTcPulseEnd n s
  | .ppsOutRise => Sys2Proof.Machine.execPpsOutRise s
  | .ppsOutFall => Sys2Proof.Machine.execPpsOutFall s
  | .tsiEdge k rising => Sys2Proof.Machine.execTsiEdge k rising s
  | .timeDistribution => Sys2Proof.Machine.execTimeDistribution s
  | .portEnable via t v => Sys2Proof.Machine.execPortEnable via t v s
  | .retrain via t v => Sys2Proof.Machine.execRetrain via t v s
  | .trn1Complete e => Sys2Proof.Machine.execTrn1Complete e s
  | .trn2Complete e role cap => Sys2Proof.Machine.execTrn2Complete e role cap s
  | .trainingTimeout e => Sys2Proof.Machine.execTrainingTimeout e s
  | .linkLoss e cv now => Sys2Proof.Machine.execLinkLoss e cv now s
  | .enumStart via t v => Sys2Proof.Machine.execEnumStart via t v s
  | .enumAttach via t v => Sys2Proof.Machine.execEnumAttach via t v s
  | .enumDone t next ovr epoch endMm q => Sys2Proof.Machine.execEnumDone t next ovr epoch endMm q s
  | .identReceive t pos block hops cableMm q => Sys2Proof.Machine.execIdentReceive t pos block hops cableMm q s
  | .tickUpReceive t addr seq fixed recs q => Sys2Proof.Machine.execTickUpReceive t addr seq fixed recs q s
  | .tickUpMissing t pos => Sys2Proof.Machine.execTickUpMissing t pos s
  | .gondolaLost t pos cause => Sys2Proof.Machine.execGondolaLost t pos cause s
  | .dlyReqReceive t t1 q => Sys2Proof.Machine.execDlyReqReceive t t1 q s
  | .cfgRspReceive t pos tag status data q => Sys2Proof.Machine.execCfgRspReceive t pos tag status data q s
  | .bulkReceive t pos stream last offset data q => Sys2Proof.Machine.execBulkReceive t pos stream last offset data q s
  | .creditReceive t pos count q => Sys2Proof.Machine.execCreditReceive t pos count q s
  | .ringBreak t seg => Sys2Proof.Machine.execRingBreak t seg s
  | .tickDnTransmit e now => Sys2Proof.Machine.execTickDnTransmit e now s
  | .nonTickFrameStart e now => Sys2Proof.Machine.execNonTickFrameStart e now s
  | .gondolaTickDnReceive node addr arrival crc cv seq fixed recs => Sys2Proof.Machine.execGondolaTickDnReceive node addr arrival crc cv seq fixed recs s
  | .vectorChange node ch second now => Sys2Proof.Machine.execVectorChange node ch second now s
  | .sampleInstant node ch second now ia ib ssi => Sys2Proof.Machine.execSampleInstant node ch second now ia ib ssi s
  | .gondolaTickUpSend node addr now vbus temp => Sys2Proof.Machine.execGondolaTickUpSend node addr now vbus temp s
  | .tickDnDeadline node now => Sys2Proof.Machine.execTickDnDeadline node now s
  | .streamSilence node now => Sys2Proof.Machine.execStreamSilence node now s
  | .gondolaCfgWr node broadcast tag addr data active now => Sys2Proof.Machine.execGondolaCfgWr node broadcast tag addr data active now s
  | .gondolaCfgRd node tag addr count => Sys2Proof.Machine.execGondolaCfgRd node tag addr count s
  | .stagedActivation node now => Sys2Proof.Machine.execStagedActivation node now s
  | .gClrForce node broadcast tag chans active now => Sys2Proof.Machine.execGClrForce node broadcast tag chans active now s
  | .gClrSil node broadcast tag => Sys2Proof.Machine.execGClrSil node broadcast tag s
  | .gClrRip node broadcast tag => Sys2Proof.Machine.execGClrRip node broadcast tag s
  | .gClrCnt node broadcast tag => Sys2Proof.Machine.execGClrCnt node broadcast tag s
  | .faultForcing node ch now => Sys2Proof.Machine.execFaultForcing node ch now s
  | .gondolaEventAccept node exec out act pw id now => Sys2Proof.Machine.execGondolaEventAccept node exec out act pw id now s
  | .eventExecute node now => Sys2Proof.Machine.execEventExecute node now s
  | .eventPulseReturn node out now => Sys2Proof.Machine.execEventPulseReturn node out now s
  | .gondolaTimeReceive node port origin corr pathdly incInt incFrac stepCnt hops sof => Sys2Proof.Machine.execGondolaTimeReceive node port origin corr pathdly incInt incFrac stepCnt hops sof s
  | .gondolaLockLoss node now => Sys2Proof.Machine.execGondolaLockLoss node now s
  | .gondolaDlyReq node => Sys2Proof.Machine.execGondolaDlyReq node s
  | .gondolaDlyRspReceive node t1 t2 t3 now => Sys2Proof.Machine.execGondolaDlyRspReceive node t1 t2 t3 now s
  | .gondolaEnumReceive node port next done ovr attach epoch now => Sys2Proof.Machine.execGondolaEnumReceive node port next done ovr attach epoch now s
  | .gondolaBulkReceive node stream last offset data => Sys2Proof.Machine.execGondolaBulkReceive node stream last offset data s
  | .gondolaBrkReceive node port seg => Sys2Proof.Machine.execGondolaBrkReceive node port seg s
  | .ripInputDrop node now => Sys2Proof.Machine.execRipInputDrop node now s
  | .powerStageDisable node now => Sys2Proof.Machine.execPowerStageDisable node now s
  | .ripEnergised10ms node now => Sys2Proof.Machine.execRipEnergised10ms node now s
  | .quadratureTransition node ch levels now => Sys2Proof.Machine.execQuadratureTransition node ch levels now s
  | .indexEdge node ch z now => Sys2Proof.Machine.execIndexEdge node ch z now s
  | .carrierReload node ch now => Sys2Proof.Machine.execCarrierReload node ch now s
  | .carrierEdge node ch leg off now => Sys2Proof.Machine.execCarrierEdge node ch leg off now s
  | .carrierStart node ch now => Sys2Proof.Machine.execCarrierStart node ch now s
  | .axisTickBoundary n => Sys2Proof.Machine.execAxisTickBoundary n s
  | .substituteFrameEvent lane t pos => Sys2Proof.Machine.execSubstituteFrameEvent lane t pos s
  | .workItemFrame lane => Sys2Proof.Machine.execWorkItemFrame lane s
  | .workItemTick lane => Sys2Proof.Machine.execWorkItemTick lane s
  | .arm via n => Sys2Proof.Machine.execArm via n s
  | .enable via n => Sys2Proof.Machine.execEnable via n s
  | .disable via n => Sys2Proof.Machine.execDisable via n s
  | .test via n => Sys2Proof.Machine.execTest via n s
  | .fclr via n => Sys2Proof.Machine.execFclr via n s
  | .observerLoss n => Sys2Proof.Machine.execObserverLoss n s
  | .skipmax n => Sys2Proof.Machine.execSkipmax n s
  | .shortTimeout n => Sys2Proof.Machine.execShortTimeout n s
  | .catchRetry n => Sys2Proof.Machine.execCatchRetry n s
  | .catchThirdFailure n => Sys2Proof.Machine.execCatchThirdFailure n s
  | .alignStepEnd n => Sys2Proof.Machine.execAlignStepEnd n s
  | .testEnd n => Sys2Proof.Machine.execTestEnd n s
  | .stAlignEnd n => Sys2Proof.Machine.execStAlignEnd n s
  | .holdCurrentReduce n => Sys2Proof.Machine.execHoldCurrentReduce n s
  | .speedStandstill n => Sys2Proof.Machine.execSpeedStandstill n s
  | .ssiErrorFault n => Sys2Proof.Machine.execSsiErrorFault n s
  | .moveArrival n => Sys2Proof.Machine.execMoveArrival n s
  | .gearEngage n => Sys2Proof.Machine.execGearEngage n s
  | .camCycleSwitch n => Sys2Proof.Machine.execCamCycleSwitch n s
  | .remoteMasterStale r => Sys2Proof.Machine.execRemoteMasterStale r s
  | .publishMaster q => Sys2Proof.Machine.execPublishMaster q s
  | .masterMessage port mid t p v => Sys2Proof.Machine.execMasterMessage port mid t p v s
  | .nop h => Sys2Proof.Machine.execNop h s
  | .axset h value t valid req => Sys2Proof.Machine.execAxset h value t valid req s
  | .move h target vl al dl jl mf => Sys2Proof.Machine.execMove h target vl al dl jl mf s
  | .stop h kind scope => Sys2Proof.Machine.execStop h kind scope s
  | .resume h => Sys2Proof.Machine.execResume h s
  | .gear h mode mkind master gf num den offset lr mpos => Sys2Proof.Machine.execGear h mode mkind master gf num den offset lr mpos s
  | .camLoad h cam cf base n mstep addr xfer pts => Sys2Proof.Machine.execCamLoad h cam cf base n mstep addr xfer pts s
  | .camSelect h cam cf cphase => Sys2Proof.Machine.execCamSelect h cam cf cphase s
  | .camDeselect h cam => Sys2Proof.Machine.execCamDeselect h cam s
  | .camFree h cam => Sys2Proof.Machine.execCamFree h cam s
  | .cmpadd h addr count raddr entries => Sys2Proof.Machine.execCmpadd h addr count raddr entries s
  | .cmpdel h by_ index target tag mask => Sys2Proof.Machine.execCmpdel h by_ index target tag mask s
  | .latarmArm h unit setcfg cfg => Sys2Proof.Machine.execLatarmArm h unit setcfg cfg s
  | .latarmDisarm h unit setcfg cfg => Sys2Proof.Machine.execLatarmDisarm h unit setcfg cfg s
  | .latarmFlush h unit setcfg cfg => Sys2Proof.Machine.execLatarmFlush h unit setcfg cfg s
  | .read h object index addr => Sys2Proof.Machine.execRead h object index addr s
  | .cfgstage h addr count pairs => Sys2Proof.Machine.execCfgstage h addr count pairs s
  | .commit h groups axsel at_ => Sys2Proof.Machine.execCommit h groups axsel at_ s
  | .migrate h src dst all axes at_ => Sys2Proof.Machine.execMigrate h src dst all axes at_ s
  | .txts h port => Sys2Proof.Machine.execTxts h port s
  | .frameTransmit q opc flags tag frameId len addr canid data => Sys2Proof.Machine.execFrameTransmit q opc flags tag frameId len addr canid data s
  | .frameTxDone f => Sys2Proof.Machine.execFrameTxDone f s
  | .compareFire ix => Sys2Proof.Machine.execCompareFire ix s
  | .compareAction ix => Sys2Proof.Machine.execCompareAction ix s
  | .winExpire ix => Sys2Proof.Machine.execWinExpire ix s
  | .foutPulseClear k => Sys2Proof.Machine.execFoutPulseClear k s
  | .cmpRgResume via g v => Sys2Proof.Machine.execCmpRgResume via g v s
  | .latchCapture n unit src rising => Sys2Proof.Machine.execLatchCapture n unit src rising s
  | .latchWaitResolve n missing => Sys2Proof.Machine.execLatchWaitResolve n missing s
  | .latchRepost n => Sys2Proof.Machine.execLatchRepost n s
  | .latCtlArm via n v => Sys2Proof.Machine.execLatCtlArm via n v s
  | .latCtlDisarm via n v => Sys2Proof.Machine.execLatCtlDisarm via n v s
  | .latCtlFlush via n v => Sys2Proof.Machine.execLatCtlFlush via n v s
  | .ballastFault b => Sys2Proof.Machine.execBallastFault b s
  | .busFclr via b => Sys2Proof.Machine.execBusFclr via b s
  | .busComparatorTrip inputs => Sys2Proof.Machine.execBusComparatorTrip inputs s
  | .laneNop l => Sys2Proof.Machine.execLaneNop l s
  | .mpy l ad x y mv => Sys2Proof.Machine.execMpy l ad x y mv s
  | .mac l ad x y mv => Sys2Proof.Machine.execMac l ad x y mv s
  | .msu l ad x y mv => Sys2Proof.Machine.execMsu l ad x y mv s
  | .aclr l ad mv => Sys2Proof.Machine.execAclr l ad mv s
  | .ald l ad x mv => Sys2Proof.Machine.execAld l ad x mv s
  | .aadd l ad as_ mv => Sys2Proof.Machine.execAadd l ad as_ mv s
  | .asub l ad as_ mv => Sys2Proof.Machine.execAsub l ad as_ mv s
  | .amov l ad as_ mv => Sys2Proof.Machine.execAmov l ad as_ mv s
  | .aneg l ad as_ mv => Sys2Proof.Machine.execAneg l ad as_ mv s
  | .aabs l ad as_ mv => Sys2Proof.Machine.execAabs l ad as_ mv s
  | .acmp l ad as_ mv => Sys2Proof.Machine.execAcmp l ad as_ mv s
  | .add l dd x y mv => Sys2Proof.Machine.execAdd l dd x y mv s
  | .adds l dd x y mv => Sys2Proof.Machine.execAdds l dd x y mv s
  | .sub l dd x y mv => Sys2Proof.Machine.execSub l dd x y mv s
  | .subs l dd x y mv => Sys2Proof.Machine.execSubs l dd x y mv s
  | .and l dd x y mv => Sys2Proof.Machine.execAnd l dd x y mv s
  | .or l dd x y mv => Sys2Proof.Machine.execOr l dd x y mv s
  | .xor l dd x y mv => Sys2Proof.Machine.execXor l dd x y mv s
  | .min l dd x y mv => Sys2Proof.Machine.execMin l dd x y mv s
  | .max l dd x y mv => Sys2Proof.Machine.execMax l dd x y mv s
  | .cmp l x y mv => Sys2Proof.Machine.execCmp l x y mv s
  | .shl l dd x y mv => Sys2Proof.Machine.execShl l dd x y mv s
  | .shr l dd x y mv => Sys2Proof.Machine.execShr l dd x y mv s
  | .sra l dd x y mv => Sys2Proof.Machine.execSra l dd x y mv s
  | .neg l dd x mv => Sys2Proof.Machine.execNeg l dd x mv s
  | .abs l dd x mv => Sys2Proof.Machine.execAbs l dd x mv s
  | .addi l dd x imm mv => Sys2Proof.Machine.execAddi l dd x imm mv s
  | .addis l dd x imm mv => Sys2Proof.Machine.execAddis l dd x imm mv s
  | .andi l dd x imm mv => Sys2Proof.Machine.execAndi l dd x imm mv s
  | .cmpi l x imm mv => Sys2Proof.Machine.execCmpi l x imm mv s
  | .shli l dd x imm mv => Sys2Proof.Machine.execShli l dd x imm mv s
  | .shri l dd x imm mv => Sys2Proof.Machine.execShri l dd x imm mv s
  | .srai l dd x imm mv => Sys2Proof.Machine.execSrai l dd x imm mv s
  | .ld l reg p am mi off ar => Sys2Proof.Machine.execLd l reg p am mi off ar s
  | .st l reg p am mi off ar => Sys2Proof.Machine.execSt l reg p am mi off ar s
  | .ldq l reg p am mi off ar => Sys2Proof.Machine.execLdq l reg p am mi off ar s
  | .stq l reg p am mi off ar => Sys2Proof.Machine.execStq l reg p am mi off ar s
  | .lds l reg p am mi off ar => Sys2Proof.Machine.execLds l reg p am mi off ar s
  | .sts l reg p am mi off ar => Sys2Proof.Machine.execSts l reg p am mi off ar s
  | .ldqs l reg p am mi off ar => Sys2Proof.Machine.execLdqs l reg p am mi off ar s
  | .stqs l reg p am mi off ar => Sys2Proof.Machine.execStqs l reg p am mi off ar s
  | .mov l rd rs ar => Sys2Proof.Machine.execMov l rd rs ar s
  | .ldi l rd imm ar => Sys2Proof.Machine.execLdi l rd imm ar s
  | .wdif l ad pa pb sh ar => Sys2Proof.Machine.execWdif l ad pa pb sh ar s
  | .wadd l ad pa sh ar => Sys2Proof.Machine.execWadd l ad pa sh ar s
  | .out l reg p am mi off ar => Sys2Proof.Machine.execOut l reg p am mi off ar s
  | .ld2 l reg p am mi off ar => Sys2Proof.Machine.execLd2 l reg p am mi off ar s
  | .st2 l reg p am mi off ar => Sys2Proof.Machine.execSt2 l reg p am mi off ar s
  | .br l cond tgt ar => Sys2Proof.Machine.execBr l cond tgt ar s
  | .brl l cond tgt ar => Sys2Proof.Machine.execBrl l cond tgt ar s
  | .ret l cond ar => Sys2Proof.Machine.execRet l cond ar s
  | .loop l fromReg cnt tgt ar => Sys2Proof.Machine.execLoop l fromReg cnt tgt ar s
  | .rep l fromReg cnt ar => Sys2Proof.Machine.execRep l fromReg cnt ar s
  | .laneEnd l ar => Sys2Proof.Machine.execLaneEnd l ar s
  | .rota l ar => Sys2Proof.Machine.execRota l ar s
  | .laneWatchdog l => Sys2Proof.Machine.execLaneWatchdog l s
  | .selfTestPass l ok => Sys2Proof.Machine.execSelfTestPass l ok s
  | .clrspan via l => Sys2Proof.Machine.execClrspan via l s
  | .testPairPush via n v => Sys2Proof.Machine.execTestPairPush via n v s
  | .faultInputLatch ix => Sys2Proof.Machine.execFaultInputLatch ix s
  | .fltClr via ix live => Sys2Proof.Machine.execFltClr via ix live s
  | .swset via => Sys2Proof.Machine.execSwset via s
  | .swclr via => Sys2Proof.Machine.execSwclr via s
  | .sqDoorbell q v whole => Sys2Proof.Machine.execSqDoorbell q v whole s
  | .cqDoorbell q v whole => Sys2Proof.Machine.execCqDoorbell q v whole s
  | .cqInterruptTimer q => Sys2Proof.Machine.execCqInterruptTimer q s
  | .rxDoorbell f v whole => Sys2Proof.Machine.execRxDoorbell f v whole s
  | .sqEnable via q v => Sys2Proof.Machine.execSqEnable via q v s
  | .sqDisable via q v => Sys2Proof.Machine.execSqDisable via q v s
  | .cqEnable via q v => Sys2Proof.Machine.execCqEnable via q v s
  | .cqDisable via q v => Sys2Proof.Machine.execCqDisable via q v s
  | .descriptorFetch q count ok => Sys2Proof.Machine.execDescriptorFetch q count ok s
  | .cqBacklogDrain q => Sys2Proof.Machine.execCqBacklogDrain q s
  | .hostSilenceTrip q => Sys2Proof.Machine.execHostSilenceTrip q s
  | .ethFrameReceive e dst etype data fcsOk full => Sys2Proof.Machine.execEthFrameReceive e dst etype data fcsOk full s
  | .canFrameReceive c id ide fdf brs esi data full => Sys2Proof.Machine.execCanFrameReceive c id ide fdf brs esi data full s
  | .dcmdStop c dcidx id ide data => Sys2Proof.Machine.execDcmdStop c dcidx id ide data s
  | .dcmdReq c dcidx id ide data => Sys2Proof.Machine.execDcmdReq c dcidx id ide data s
  | .dcmdSect c dcidx id ide data => Sys2Proof.Machine.execDcmdSect c dcidx id ide data s
  | .dcmdFout c dcidx id ide data => Sys2Proof.Machine.execDcmdFout c dcidx id ide data s
  | .peerCommand t pos flags tag axis rsv cmd => Sys2Proof.Machine.execPeerCommand t pos flags tag axis rsv cmd s
  | .canTableBuildComplete => Sys2Proof.Machine.execCanTableBuildComplete s
  | .streamLinkDown => Sys2Proof.Machine.execStreamLinkDown s
  | .streamInitSend => Sys2Proof.Machine.execStreamInitSend s
  | .streamFrameReceive typ len seq cret payload crc frameOk => Sys2Proof.Machine.execStreamFrameReceive typ len seq cret payload crc frameOk s
  | .trajRecord axis kind rsv t value => Sys2Proof.Machine.execTrajRecord axis kind rsv t value s
  | .streamBulkTransfer xfer dest flags tether pos stream offset data => Sys2Proof.Machine.execStreamBulkTransfer xfer dest flags tether pos stream offset data s
  | .streamCreditSend => Sys2Proof.Machine.execStreamCreditSend s
  | .anchorReset => Sys2Proof.Machine.execAnchorReset s
  | .anchorSelfTestEnd pass straps => Sys2Proof.Machine.execAnchorSelfTestEnd pass straps s
  | .anchorInternalFault code => Sys2Proof.Machine.execAnchorInternalFault code s
  | .strapFault live liven => Sys2Proof.Machine.execStrapFault live liven s
  | .guardChannelChange ch closed => Sys2Proof.Machine.execGuardChannelChange ch closed s
  | .guardDiscrepancy pair => Sys2Proof.Machine.execGuardDiscrepancy pair s
  | .stop1Expiry => Sys2Proof.Machine.execStop1Expiry s
  | .loopHighSideOn n => Sys2Proof.Machine.execLoopHighSideOn n s
  | .loopClosed n => Sys2Proof.Machine.execLoopClosed n s
  | .loopCloseTimeout n => Sys2Proof.Machine.execLoopCloseTimeout n s
  | .loopDischargeEnd n => Sys2Proof.Machine.execLoopDischargeEnd n s
  | .loopOverload n => Sys2Proof.Machine.execLoopOverload n s
  | .testPulseStart n lowSide => Sys2Proof.Machine.execTestPulseStart n lowSide s
  | .testPulseCheckOff n above5 => Sys2Proof.Machine.execTestPulseCheckOff n above5 s
  | .testPulseRestore n => Sys2Proof.Machine.execTestPulseRestore n s
  | .testPulseCheckOn n below15 => Sys2Proof.Machine.execTestPulseCheckOn n below15 s
  | .pilotBeat p word => Sys2Proof.Machine.execPilotBeat p word s
  | .missedBeat p => Sys2Proof.Machine.execMissedBeat p s
  | .promotion => Sys2Proof.Machine.execPromotion s
  | .promotionFail => Sys2Proof.Machine.execPromotionFail s
  | .lostlaneOpen n => Sys2Proof.Machine.execLostlaneOpen n s
  | .anchorStopreqReceive src => Sys2Proof.Machine.execAnchorStopreqReceive src s
  | .anchorHoldopenReceive mask => Sys2Proof.Machine.execAnchorHoldopenReceive mask s
  | .anchorAliveAdvance => Sys2Proof.Machine.execAnchorAliveAdvance s
  | .anchorStatusWord => Sys2Proof.Machine.execAnchorStatusWord s
  | .anchorLinkLost => Sys2Proof.Machine.execAnchorLinkLost s
  | .stop0Request via v => Sys2Proof.Machine.execStop0Request via v s
  | .stop1Request via v => Sys2Proof.Machine.execStop1Request via v s
  | .ancHoldopen via v => Sys2Proof.Machine.execAncHoldopen via v s
  | .finRawEdge n level => Sys2Proof.Machine.execFinRawEdge n level s
  | .finEdgeAccept n => Sys2Proof.Machine.execFinEdgeAccept n s
  | .finCouplerError n => Sys2Proof.Machine.execFinCouplerError n s
  | .foutWrite via v => Sys2Proof.Machine.execFoutWrite via v s
  | .foutRefresh k => Sys2Proof.Machine.execFoutRefresh k s
  | .foutSilence k => Sys2Proof.Machine.execFoutSilence k s
  | .silclr via mask => Sys2Proof.Machine.execSilclr via mask s
  | .tclr via mask hot => Sys2Proof.Machine.execTclr via mask hot s
  | .thermalShutdown k => Sys2Proof.Machine.execThermalShutdown k s
  | .thermalRetry k => Sys2Proof.Machine.execThermalRetry k s
  | .openLoad k => Sys2Proof.Machine.execOpenLoad k s
  | .fieldDieRestore => Sys2Proof.Machine.execFieldDieRestore s
  | .migrationCheckEnd => Sys2Proof.Machine.execMigrationCheckEnd s
  | .migrationSwitch n => Sys2Proof.Machine.execMigrationSwitch n s
  | .repairMigrationStart l => Sys2Proof.Machine.execRepairMigrationStart l s
  | .laneLoadComplete l res => Sys2Proof.Machine.execLaneLoadComplete l res s
  | .pilotUpdateComplete ok version => Sys2Proof.Machine.execPilotUpdateComplete ok version s
  | .journalSync p => Sys2Proof.Machine.execJournalSync p s
  | .errsnapPeriod => Sys2Proof.Machine.execErrsnapPeriod s
  | .flogStoreWrite => Sys2Proof.Machine.execFlogStoreWrite s
  | .flogFreeze => Sys2Proof.Machine.execFlogFreeze s
  | .flogStreamDrain => Sys2Proof.Machine.execFlogStreamDrain s
  | .unfreeze via => Sys2Proof.Machine.execUnfreeze via s
  | .flush via => Sys2Proof.Machine.execFlush via s
  | .fbPos set via index => Sys2Proof.Machine.execFbPos set via index s
  | .fbSetpos set via index pos => Sys2Proof.Machine.execFbSetpos set via index pos s
  | .fbUnref set via index => Sys2Proof.Machine.execFbUnref set via index s
  | .fbCorr set via index => Sys2Proof.Machine.execFbCorr set via index s
  | .axDly set via index => Sys2Proof.Machine.execAxDly set via index s
  | .tpOrgRead set via => Sys2Proof.Machine.execTpOrgRead set via s
  | .tpOrgWrite set via torg => Sys2Proof.Machine.execTpOrgWrite set via torg s
  | .tqEst set via index => Sys2Proof.Machine.execTqEst set via index s
  | .prfSp set via index => Sys2Proof.Machine.execPrfSp set via index s
  | .prfState set via index => Sys2Proof.Machine.execPrfState set via index s
  | .brState set via index => Sys2Proof.Machine.execBrState set via index s
  | .rmRead set via index => Sys2Proof.Machine.execRmRead set via index s
  | .cmpRead set via index => Sys2Proof.Machine.execCmpRead set via index s
  | .cmpInfo set via index => Sys2Proof.Machine.execCmpInfo set via index s
  | .latPop set via index => Sys2Proof.Machine.execLatPop set via index s
  | .peek set via off => Sys2Proof.Machine.execPeek set via off s
  | .cfgWork set via off => Sys2Proof.Machine.execCfgWork set via off s
  | .cmAtRead set via => Sys2Proof.Machine.execCmAtRead set via s
  | .cmAtWrite set via at_ => Sys2Proof.Machine.execCmAtWrite set via at_ s
  | .ancTrip set via index => Sys2Proof.Machine.execAncTrip set via index s
  | .fioEdge set via index => Sys2Proof.Machine.execFioEdge set via index s
  | .lnLoad set via addr len mask => Sys2Proof.Machine.execLnLoad set via addr len mask s
  | .ttRipclr set via index => Sys2Proof.Machine.execTtRipclr set via index s
  | .plUpd set via addr len => Sys2Proof.Machine.execPlUpd set via addr len s
  | .plStart set via index data0 => Sys2Proof.Machine.execPlStart set via index data0 s
  | .plSwap set via => Sys2Proof.Machine.execPlSwap set via s
  | .flogTrig set via code => Sys2Proof.Machine.execFlogTrig set via code s
  | .flogPop set via => Sys2Proof.Machine.execFlogPop set via s
  | .calRun set via => Sys2Proof.Machine.execCalRun set via s
  | .calRead set via index => Sys2Proof.Machine.execCalRead set via index s
  | .perstRelease => Sys2Proof.Machine.execPerstRelease s
  | .vfieldReturn => Sys2Proof.Machine.execVfieldReturn s
  | .finCouplerRestore n level => Sys2Proof.Machine.execFinCouplerRestore n level s
  | .foutCurrentLimit k => Sys2Proof.Machine.execFoutCurrentLimit k s
  | .busComparatorRelease => Sys2Proof.Machine.execBusComparatorRelease s
  | .ripInputEnergised node now => Sys2Proof.Machine.execRipInputEnergised node now s
  | .gondolaFrameForward node port f crc cv sof => Sys2Proof.Machine.execGondolaFrameForward node port f crc cv sof s
  | .gondolaCreditReceive node count => Sys2Proof.Machine.execGondolaCreditReceive node count s
  | .gondolaDlyReqReceive node port t1 sof => Sys2Proof.Machine.execGondolaDlyReqReceive node port t1 sof s
  | .pilotBootComplete p ok => Sys2Proof.Machine.execPilotBootComplete p ok s

end Sys2Proof.Machine
end

