-- ==== Sys2Proof/Safety.lean ====
section
/-!
DEFINITION. What counts as a safe run. A rip loop is energised only while nothing asks for it to be open (R460), whatever the shell, the
host and the gondolas command; and the register file and the memories keep their canonical form.
-/
namespace Sys2Proof.Machine

/-- A command completes: it answers a next state, of which `P` holds. -/
def Completes (c : Instr) (s : State) (P : State → Prop) : Prop := ∃ t, exec c s = .next t ∧ P t

/-- The parts of the anchor on which the state of a loop rests: the state of the anchor, the latched straps, the loops, the guard pairs
and the hold-open word (R452, R455, R458, R464, R461). -/
def Anchor.core (a : Anchor) : BitVec 3 × BitVec 8 × Tbl Loop × BitVec 2 × BitVec 25 :=
  (a.st, a.strapLatched, a.loops, a.pair, a.holdopen)

/-- May loop n hold a switch on: the anchor is in RUN, nothing latches, holds or faults the loop, and under STOP0 the guard is closed
(R460)? -/
def Anchor.maySwitch (a : Anchor) (n : Nat) : Prop :=
  a.st = 2 ∧ (a.loop n).latched = 0 ∧ (a.loop n).fault = false ∧ a.holdopen.getLsbD n = false
    ∧ (a.guardClosed = true ∨ a.stopcat ≠ 0)

/-- No loop is other than open, and no open loop holds a switch on, unless R460 lets it. -/
def Anchor.loopsSafe (a : Anchor) : Prop :=
  ∀ n < 25, ((a.loop n).live = true → a.maySwitch n) ∧ ((a.loop n).live = false → (a.loop n).hi = false ∧ (a.loop n).lo = false)

/-- A loop is energised: both of its switches are on (R458). -/
def Loop.energised (l : Loop) : Bool := l.hi && l.lo

/-- The rip loops of a state are safe. -/
def State.ripsSafe (s : State) : Prop := s.anchor.loopsSafe

/-- The commands by which the anchor moves (R452-R480): its resets, its own events, the words it takes from the shell, and the bus
comparator. -/
def anchorRow : Instr → Bool
  | .poresetAssert | .sysresetAssert | .railFaultReset | .anchorReset | .anchorSelfTestEnd _ _ | .anchorInternalFault _
  | .strapFault _ _ | .guardChannelChange _ _ | .guardDiscrepancy _ | .stop1Expiry | .loopHighSideOn _ | .loopClosed _
  | .loopCloseTimeout _ | .loopDischargeEnd _ | .loopOverload _ | .testPulseStart _ _ | .testPulseCheckOff _ _ | .testPulseRestore _
  | .testPulseCheckOn _ _ | .pilotBeat _ _ | .missedBeat _ | .promotion | .promotionFail | .lostlaneOpen _ | .anchorStopreqReceive _
  | .anchorHoldopenReceive _ | .busComparatorTrip _ => true
  | _ => false

/-! ### What posting an entry may touch -/

/-- The registers that posting a completion entry may write: the state and the losses of the rings, the pending messages, and the flight
log's (R376, R377, R390, R513-R515). -/
def postReg (o : Nat) : Bool :=
  (List.range 32).any (fun q => o == rHIF_CQ_STAT q || o == rHIF_CQ_LOST q) || (List.range 4).any (fun k => o == rMSIX_PBA k)
    || o == rFLOG_STAT || (List.range 5).any (fun k => o == rFLOG_LOST k)

/-- May a byte of host memory belong to a completion ring: 32 bytes an entry, 4,096 entries at most, from the ring's base on (R374)? -/
def State.cqByte (s : State) (a : Nat) : Prop := ∃ q < 32, s.cqSlot q 0 ≤ a ∧ a < s.cqSlot q 4096

/-- `t` is `u` but for the registers `L` and for what posting entries writes: in host memory, only completion rings. -/
def State.posted (t u : State) (L : List Nat) : Prop :=
  t = { u with regs := t.regs, cqs := t.cqs, msgs := t.msgs, flog := t.flog, host := t.host }
    ∧ (∀ o, postReg o = false → o ∉ L → t.rget o = u.rget o)
    ∧ ∀ a, ¬ u.cqByte a → ¬ t.cqByte a ∧ tget 0 t.host a = tget 0 u.host a

/-- `t` is `u` but for the registers `L`. -/
def State.wrote (t u : State) (L : List Nat) : Prop := t = { u with regs := t.regs } ∧ ∀ o, o ∉ L → t.rget o = u.rget o

/-- A frame is received without a fault: no code violation, its CRC and its format right, room for it, in its window (R89). -/
def goodRx (q : RxQual) (f : Frame) : Prop :=
  q.cv = 0 ∧ q.cvBetween = 0 ∧ q.crc = frameCrc f ∧ q.eofx = false ∧ q.fmtOk = true ∧ q.full = false ∧ q.lateWin = false

/-- A frame of a gondola's own as it waits at a port: its CRC and its times are written as it leaves (R97). -/
def ownFrame (p : GPort) (f : Frame) : OutFrame := { port := p, own := true, frame := f, crc := 0, sof := 0 }

/-! ### The next issue of a lane (R345-R356) -/

/-- The register bank that the next issue of a lane uses: the foreground one in a work item, else the background one (R327). -/
def State.curBank (s : State) (l : Nat) : LBank := (s.ln l).bank (s.ln l).work.isSome

/-- The lane with its current bank replaced. -/
def Lane.withBank (x : Lane) (b : LBank) : Lane := x.setBank x.work.isSome b

/-- The lane executes, no event waits to be entered, no load, WADD or delay slot is outstanding, and no LOOP or REP is active: the next
instruction is an ordinary one. -/
def State.steady (s : State) (l : Nat) : Prop :=
  s.laneRuns l = true ∧ (s.ln l).pend = [] ∧ (s.ln l).pendSt = none ∧ (s.ln l).slots = none
    ∧ ((s.ln l).work.isSome = true ∨ (s.ln l).evq = []) ∧ (s.curBank l).latch = false ∧ (s.curBank l).iter = 0

/-- Z and N from a value, V as given, SV sticky (R341). -/
def LBank.flagged (b t : LBank) (x : Int) (v : Bool) : Prop :=
  t.fZ = decide (x = 0) ∧ t.fN = decide (x < 0) ∧ t.fV = v ∧ t.fSV = (b.fSV || v)

/-- The bank after an operation that writes accumulator `ad` with a value limited to 56 bits: nothing else changes but the flags, and the
program index goes on. -/
def LBank.gaveA (b t : LBank) (ad : Nat) (x : Int) : Prop :=
  t = { b with a := t.a, flg := t.flg, pc := b.pc + 1 } ∧ t.aAt ad = BitVec.ofInt 56 (satInt 56 x) ∧ (∀ k, k ≠ ad → t.aAt k = b.aAt k)
    ∧ b.flagged t (satInt 56 x) (satInt 56 x != x)

/-- The bank after an operation that writes data register `dd`; `v`: the value was limited. -/
def LBank.gaveD (b t : LBank) (dd : Fin 16) (x : BitVec 24) (v : Bool) : Prop :=
  t = { b with d := t.d, flg := t.flg, pc := b.pc + 1 } ∧ t.dAt dd = x ∧ (∀ k : Fin 16, k ≠ dd → t.dAt k = b.dAt k) ∧ b.flagged t x.toInt v

/-- The bank after a comparison: only the flags change. -/
def LBank.compared (b t : LBank) (x : Int) : Prop := t = { b with flg := t.flg, pc := b.pc + 1 } ∧ b.flagged t x false

/-- Of the whole block only one lane changed, and it is `x`. -/
def State.onlyLane (t s : State) (l : Nat) (x : Lane) : Prop :=
  t = { s with lanes := t.lanes } ∧ t.ln l = x ∧ ∀ k, k ≠ l → t.ln k = s.ln k

/-- The instruction completes, and of the whole block only the bank of its lane changes. -/
def State.gives (s : State) (l : Nat) (i : Instr) (p : LBank → LBank → Prop) : Prop :=
  Completes i s (fun t => ∃ b, t.onlyLane s l ((s.ln l).withBank b) ∧ p (s.curBank l) b)

/-- Bytes from `a` on hold `bs`, and every other byte is as before. -/
def bytesAt (new old : Tbl Byte) (a : Nat) (bs : List Byte) : Prop :=
  ∀ k, tget 0 new k = if a ≤ k ∧ k < a + bs.length then bs.getD (k - a) 0 else tget 0 old k

/-- `y` is lane `x` with bytes stored in its local space (R328, R361): in the banked window they go to the bank of the work item, and the
event block takes none. -/
def Lane.holds (y x : Lane) (a : Nat) (bs : List Byte) : Prop :=
  y = { x with mem := y.mem, bank0 := y.bank0, bank1 := y.bank1 }
    ∧ bytesAt y.mem x.mem a (if a < 0x4000 ∨ 0x8040 ≤ a then bs else [])
    ∧ bytesAt y.bank0 x.bank0 a (if 0x4000 ≤ a ∧ a < 0x8000 ∧ x.wbank = false then bs else [])
    ∧ bytesAt y.bank1 x.bank1 a (if 0x4000 ≤ a ∧ a < 0x8000 ∧ x.wbank = true then bs else [])

/-- The bank with the pointer of a memory operand moved on, and the program index after it. -/
def LBank.moved (c b : LBank) (p : Nat) (np : BitVec 24) : LBank := { c.putP p np with pc := b.pc + 1 }

/-- The two words of a work item's output record. -/
def State.recordAt (s : State) (l a : Nat) : BitVec 128 :=
  BitVec.ofNat 128 (leNat (s.localBytes l a 8) + leNat (s.localBytes l (a + 8) 8) * 2 ^ 64)

/-! ### Completion rings (R376, R377) -/

/-- A completion ring writes the next entry at once: it is enabled, nothing waits, and it has room. -/
def State.ringReady (s : State) (q : Nat) : Prop :=
  s.flag (rHIF_CQ_CFG q) fHIF_CQ_CFG_EN = true ∧ (s.cq q).backlog = [] ∧ s.cqRoom q = true

/-- The ring holds one more entry, and its tail is past it. -/
def State.entered (t u : State) (q : Nat) (e : Cqe) : Prop :=
  (t.cq q).ring = (u.cq q).ring ++ [(e, u.flag (rHIF_CQ_STAT q) fHIF_CQ_STAT_PHASE, u.now)]
    ∧ t.fget (rHIF_CQ_STAT q) fHIF_CQ_STAT_TAIL = (u.fget (rHIF_CQ_STAT q) fHIF_CQ_STAT_TAIL + 1) % u.cqSize q

/-- Host memory of `t`: `bs` from `a` on beside what `s` has, but for the slot of the completion entry that ring `q`'s completion ring wrote
after them. -/
def State.hostTook (t s : State) (q : Fin 32) (a : Nat) (bs : List Byte) : Prop :=
  let slot := s.cqSlot (s.sqCq q) (s.fget (rHIF_CQ_STAT (s.sqCq q)) fHIF_CQ_STAT_TAIL)
  ∀ k, ¬ (slot ≤ k ∧ k < slot + 32) → tget 0 t.host k = if a ≤ k ∧ k < a + bs.length then bs.getD (k - a) 0 else tget 0 s.host k

/-- The completion of a frame descriptor (R386, R391). -/
def txEntry (ft : FTime) (tag frameId : BitVec 16) (status : Nat) : Cqe :=
  { ft := ft, payload := BitVec.ofNat 128 frameId.toNat, tag := tag, planver := 0, status := BitVec.ofNat 8 status, kind := 5, sq := 0, sqhead := 0 }

/-! ### Command descriptors (R378-R386) -/

/-- Ring `q` admits the descriptor: it is ready, in form, its port has the opcode, and its completion will be written. -/
def State.admits (s : State) (q : Fin 32) (h : DescHdr) (opc : Nat) (axial : Bool) : Prop :=
  h.src = .sq q ∧ s.descReady h = true ∧ hdrGood h axial = true ∧ s.opcOK 0 opc = true ∧ h.flags.getLsbD 1 = false
    ∧ s.ringReady (s.sqCq q)

/-- The completion of a command descriptor (R385, R386). -/
def State.cmdEntry (s : State) (q : Fin 32) (h : DescHdr) (status payload : Nat) : Cqe :=
  { ft := s.now, payload := BitVec.ofNat 128 payload, tag := h.tag, planver := s.planver, status := BitVec.ofNat 8 status, kind := 0,
    sq := BitVec.ofNat 5 q, sqhead := s.slotAfter q 0 }

/-- The descriptor has left the staging of its ring and completed. -/
def State.ended (t s : State) (q : Fin 32) (h : DescHdr) (status payload : Nat) : Prop :=
  t.entered s (s.sqCq q) (s.cmdEntry q h status payload) ∧ (t.sq q).staged = (s.sq q).staged - 1

/-- The descriptor has left the staging of its ring and is open, as one of `left` axes' parts: axis `n` has the cause `c` of it, and no
register has changed. -/
def State.opened (t s : State) (q : Fin 32) (h : DescHdr) (opc : Nat) (op : MotionOp) (left n : Nat) (c : Nat → Cause) : Prop :=
  t.cmd s.nextCmd = some { s.descCmd h opc op (s.slotAfter q 0) with left := left } ∧ (t.ax n).causes = (s.ax n).causes ++ [c s.nextCmd]
    ∧ (t.sq q).staged = (s.sq q).staged - 1 ∧ t.regs = s.regs ∧ t.cqs = s.cqs ∧ ∀ m, m ≠ n → t.ax m = s.ax m

/-! ### Direct commands (R424-R426) -/

/-- Does the lookup of a frame start direct-command entry `k`, and do the frame's data reach and admit it (R424)? -/
def State.runsDirect (s : State) (c k : Nat) (id : BitVec 29) (ide : Bool) (data : List Byte) : Prop :=
  (∃ e, s.canLookup c id ide = some e ∧ s.wflag (rPLAN_CF_HI e) fPLAN_CF_HI_DCMD = true ∧ s.wfld (rPLAN_CF_HI e) fPLAN_CF_HI_DCIDX = k)
    ∧ s.dcReads k ≤ data.length ∧ s.dcAdmits k data = true

/-- `u` with the event of a direct command that ran on `s` posted (R426): its FT is the frame's stamp (R393). -/
def State.dcEvent (u s : State) (c k : Nat) (id : BitVec 29) (status : Nat) : State :=
  u.produce (ringIf (u.wflag (rPLAN_P_CQ (2 + c)) fPLAN_P_CQ_EN) (u.wfld (rPLAN_P_CQ (2 + c)) fPLAN_P_CQ_CQ))
    (eventEntry 0x19 (2 + c) (k + status <<< 8 + s.planver.toNat <<< 16 + id.toNat <<< 32) ((tget none s.canT c).getD s.now))

/-! ### The answer of a mailbox request (R443-R446) -/

/-- May a path place a request in a mailbox set: it is not BUSY, and P8 holds the MBX right (R446)? -/
def State.mbxFree (s : State) (set : Nat) (via : RegPath) : Prop :=
  s.flag (rMBX_STAT set) fMBX_STAT_BUSY = false ∧ (via = .p8 → s.wflag (rPLAN_P_FLAGS 8) fPLAN_P_FLAGS_MBX = true)

/-- The state on which the object of a request is performed: the operands in DATA, the request word, VALID cleared and BUSY set (R444). -/
def State.asked (s : State) (set code op : Nat) (index : BitVec 14) (ops : List Word) : State :=
  ((s.mbxData set 0 ops).rset (rMBX_REQ set) (mbxReqWord code op index)).mbxBusy set

/-- A mailbox set is to answer so, within 256 core cycles (R444). -/
def State.answers (t : State) (set status : Nat) (data : List Word) : Prop :=
  ∃ n < 256, tget none t.mbxAns set = some ⟨n, status, data⟩

/-- A mailbox set shows an answer: VALID, the status, and the words of the answer in DATA0 on (R444, R446). -/
def State.answered (t : State) (set status : Nat) (data : List Word) : Prop :=
  t.flag (rMBX_STAT set) fMBX_STAT_BUSY = false ∧ t.flag (rMBX_STAT set) fMBX_STAT_VALID = true
    ∧ t.fget (rMBX_STAT set) fMBX_STAT_STATUS = status ∧ ∀ k, k < data.length → t.rget (rMBX_DATA set k) = data.getD k 0

/-- A state but for the answer that a mailbox set waits for, and the free value that says how long (R444). -/
def State.noAns (s : State) : State := { s with mbxAns := [], freeCtr := 0 }

end Sys2Proof.Machine
end

