-- ==== Sys2Proof/WellFormed.lean ====
section
/-! DEFINITION. Which commands are well formed: operands that no event of the hardware can have are refused. -/
namespace Sys2Proof

/-- An offset of BAR0: 16 MiB, accessed by 32-bit words (R428). -/
def barOK (off : Nat) : Bool := decide (off < 0x1000000) && off % 4 == 0

/-- A gondola: 24 tethers of 64 positions, and the two addresses of the home gondola (R55, R125). -/
def nodeOK (node : Nat) : Bool := decide (node < 1538)

/-- The end of a cable segment: a device port, or a port of a gondola on a tether (R69). -/
def endOK : LinkEnd → Bool
  | .dev _ => true
  | .gon node _ => decide (node < 1536)

/-- Records that a tick frame holds: a body of at most 264 bytes, 10 of them fixed (R57, R60). -/
def tickFits (n : Nat) : Bool := decide (10 + 16 * n ≤ 264)

/-- Data of a CAN frame: 8 bytes, or 64 in the FD format (R391). -/
def canFits (fdf : Bool) (n : Nat) : Bool := decide (n ≤ if fdf then 64 else 8)

/-- Is a command well formed? -/
def Instr.wf : Instr → Bool
  | .corePllLock => true
  | .poresetAssert => true
  | .poresetRelease _ => true
  | .sysresetAssert => true
  | .sysresetRelease => true
  | .railFaultReset => true
  | .railRecovery => true
  | .bootSlotVerified _ _ _ => true
  | .startupLaneLoadComplete _ => true
  | .ddrTrainingComplete _ => true
  | .altSlotVerifyComplete _ _ => true
  | .calibrationStart => true
  | .calibrationComplete _ _ => true
  | .endpointReset => true
  | .debugHalt => true
  | .debugRelease => true
  | .scrubberLine => true
  | .registerWrite _ off _ _ => barOK off
  | .rcRead _ off _ => barOK off
  | .commitOffer _ _ => true
  | .commitCancel _ => true
  | .commitCheckComplete => true
  | .commitApply => true
  | .ftNow _ _ => true
  | .ftStep _ _ _ => true
  | .ftTsi _ _ _ => true
  | .ftTxts _ _ _ => true
  | .ftTc _ _ _ _ _ => true
  | .tcArm _ _ _ => true
  | .timeComparatorFire _ => true
  | .tcPulseEnd _ => true
  | .ppsOutRise => true
  | .ppsOutFall => true
  | .tsiEdge _ _ => true
  | .timeDistribution => true
  | .portEnable _ _ _ => true
  | .retrain _ _ _ => true
  | .trn1Complete e => endOK e
  | .trn2Complete e _ _ => endOK e
  | .trainingTimeout e => endOK e
  | .linkLoss e _ _ => endOK e
  | .enumStart _ _ _ => true
  | .enumAttach _ _ _ => true
  | .enumDone _ _ _ _ _ _ => true
  | .identReceive _ _ block _ _ _ => decide (block.length = 64)
  | .tickUpReceive _ _ _ _ recs _ => tickFits recs.length
  | .tickUpMissing _ _ => true
  | .gondolaLost _ _ _ => true
  | .dlyReqReceive _ _ _ => true
  | .cfgRspReceive _ _ _ _ data _ => decide (data.length ≤ 64)
  | .bulkReceive _ _ _ _ _ data _ => decide (data.length ≤ 256)
  | .creditReceive _ _ _ _ => true
  | .ringBreak _ _ => true
  | .tickDnTransmit e _ => endOK e
  | .nonTickFrameStart e _ => endOK e
  | .gondolaTickDnReceive node _ _ _ _ _ _ recs => nodeOK node && tickFits recs.length
  | .vectorChange node _ _ _ => nodeOK node
  | .sampleInstant node _ _ _ _ _ _ => nodeOK node
  | .gondolaTickUpSend node _ _ _ _ => nodeOK node
  | .tickDnDeadline node _ => nodeOK node
  | .streamSilence node _ => nodeOK node
  | .gondolaCfgWr node _ _ _ data _ _ => nodeOK node && decide (data.length ≤ 65)
  | .gondolaCfgRd node _ _ _ => nodeOK node
  | .stagedActivation node _ => nodeOK node
  | .gClrForce node _ _ _ _ _ => nodeOK node
  | .gClrSil node _ _ => nodeOK node
  | .gClrRip node _ _ => nodeOK node
  | .gClrCnt node _ _ => nodeOK node
  | .faultForcing node _ _ => nodeOK node
  | .gondolaEventAccept node _ _ _ _ _ _ => nodeOK node
  | .eventExecute node _ => nodeOK node
  | .eventPulseReturn node _ _ => nodeOK node
  | .gondolaTimeReceive node _ _ _ _ _ _ _ _ _ => nodeOK node
  | .gondolaLockLoss node _ => nodeOK node
  | .gondolaDlyReq node => nodeOK node
  | .gondolaDlyRspReceive node _ _ _ _ => nodeOK node
  | .gondolaEnumReceive node _ _ _ _ _ _ _ => nodeOK node
  | .gondolaBulkReceive node _ _ _ data => nodeOK node && decide (data.length ≤ 256)
  | .gondolaBrkReceive node _ _ => nodeOK node
  | .ripInputDrop node _ => nodeOK node
  | .powerStageDisable node _ => nodeOK node
  | .ripEnergised10ms node _ => nodeOK node
  | .quadratureTransition node _ _ _ => nodeOK node
  | .indexEdge node _ _ _ => nodeOK node
  | .carrierReload node _ _ => nodeOK node
  | .carrierEdge node _ _ _ _ => nodeOK node
  | .carrierStart node _ _ => nodeOK node
  | .axisTickBoundary _ => true
  | .substituteFrameEvent _ _ _ => true
  | .workItemFrame _ => true
  | .workItemTick _ => true
  | .arm _ _ => true
  | .enable _ _ => true
  | .disable _ _ => true
  | .test _ _ => true
  | .fclr _ _ => true
  | .observerLoss _ => true
  | .skipmax _ => true
  | .shortTimeout _ => true
  | .catchRetry _ => true
  | .catchThirdFailure _ => true
  | .alignStepEnd _ => true
  | .testEnd _ => true
  | .stAlignEnd _ => true
  | .holdCurrentReduce _ => true
  | .speedStandstill _ => true
  | .ssiErrorFault _ => true
  | .moveArrival _ => true
  | .gearEngage _ => true
  | .camCycleSwitch _ => true
  | .remoteMasterStale _ => true
  | .publishMaster _ => true
  | .masterMessage _ _ _ _ _ => true
  | .nop _ => true
  | .axset _ _ _ _ _ => true
  | .move _ _ _ _ _ _ _ => true
  | .stop _ _ _ => true
  | .resume _ => true
  | .gear _ _ _ _ _ _ _ _ _ _ => true
  | .camLoad _ _ _ _ _ _ _ _ _ => true
  | .camSelect _ _ _ _ => true
  | .camDeselect _ _ => true
  | .camFree _ _ => true
  | .cmpadd _ _ _ _ _ => true
  | .cmpdel _ _ _ _ _ _ => true
  | .latarmArm _ _ _ _ => true
  | .latarmDisarm _ _ _ _ => true
  | .latarmFlush _ _ _ _ => true
  | .read _ _ _ _ => true
  | .cfgstage _ _ _ _ => true
  | .commit _ _ _ _ => true
  | .migrate _ _ _ _ _ _ => true
  | .txts _ _ => true
  | .frameTransmit _ _ _ _ _ _ _ _ _ => true
  | .frameTxDone _ => true
  | .compareFire _ => true
  | .compareAction _ => true
  | .winExpire _ => true
  | .foutPulseClear _ => true
  | .cmpRgResume _ _ _ => true
  | .latchCapture _ _ _ _ => true
  | .latchWaitResolve _ _ => true
  | .latchRepost _ => true
  | .latCtlArm _ _ _ => true
  | .latCtlDisarm _ _ _ => true
  | .latCtlFlush _ _ _ => true
  | .ballastFault _ => true
  | .busFclr _ _ => true
  | .busComparatorTrip _ => true
  | .laneNop _ => true
  | .mpy _ _ _ _ _ => true
  | .mac _ _ _ _ _ => true
  | .msu _ _ _ _ _ => true
  | .aclr _ _ _ => true
  | .ald _ _ _ _ => true
  | .aadd _ _ _ _ => true
  | .asub _ _ _ _ => true
  | .amov _ _ _ _ => true
  | .aneg _ _ _ _ => true
  | .aabs _ _ _ _ => true
  | .acmp _ _ _ _ => true
  | .add _ _ _ _ _ => true
  | .adds _ _ _ _ _ => true
  | .sub _ _ _ _ _ => true
  | .subs _ _ _ _ _ => true
  | .and _ _ _ _ _ => true
  | .or _ _ _ _ _ => true
  | .xor _ _ _ _ _ => true
  | .min _ _ _ _ _ => true
  | .max _ _ _ _ _ => true
  | .cmp _ _ _ _ => true
  | .shl _ _ _ _ _ => true
  | .shr _ _ _ _ _ => true
  | .sra _ _ _ _ _ => true
  | .neg _ _ _ _ => true
  | .abs _ _ _ _ => true
  | .addi _ _ _ _ _ => true
  | .addis _ _ _ _ _ => true
  | .andi _ _ _ _ _ => true
  | .cmpi _ _ _ _ => true
  | .shli _ _ _ _ _ => true
  | .shri _ _ _ _ _ => true
  | .srai _ _ _ _ _ => true
  | .ld _ _ _ _ _ _ _ => true
  | .st _ _ _ _ _ _ _ => true
  | .ldq _ _ _ _ _ _ _ => true
  | .stq _ _ _ _ _ _ _ => true
  | .lds _ _ _ _ _ _ _ => true
  | .sts _ _ _ _ _ _ _ => true
  | .ldqs _ _ _ _ _ _ _ => true
  | .stqs _ _ _ _ _ _ _ => true
  | .mov _ _ _ _ => true
  | .ldi _ _ _ _ => true
  | .wdif _ _ _ _ _ _ => true
  | .wadd _ _ _ _ _ => true
  | .out _ _ _ _ _ _ _ => true
  | .ld2 _ _ _ _ _ _ _ => true
  | .st2 _ _ _ _ _ _ _ => true
  | .br _ _ _ _ => true
  | .brl _ _ _ _ => true
  | .ret _ _ _ => true
  | .loop _ _ _ _ _ => true
  | .rep _ _ _ _ => true
  | .laneEnd _ _ => true
  | .rota _ _ => true
  | .laneWatchdog _ => true
  | .selfTestPass _ _ => true
  | .clrspan _ _ => true
  | .testPairPush _ _ _ => true
  | .faultInputLatch _ => true
  | .fltClr _ _ _ => true
  | .swset _ => true
  | .swclr _ => true
  | .sqDoorbell _ _ _ => true
  | .cqDoorbell _ _ _ => true
  | .cqInterruptTimer _ => true
  | .rxDoorbell _ _ _ => true
  | .sqEnable _ _ _ => true
  | .sqDisable _ _ _ => true
  | .cqEnable _ _ _ => true
  | .cqDisable _ _ _ => true
  | .descriptorFetch _ count _ => decide (1 ≤ count ∧ count ≤ 8)
  | .cqBacklogDrain _ => true
  | .hostSilenceTrip _ => true
  | .ethFrameReceive _ _ _ _ _ _ => true
  | .canFrameReceive _ _ _ fdf _ _ data _ => canFits fdf data.length
  | .dcmdStop _ _ _ _ data => canFits true data.length
  | .dcmdReq _ _ _ _ data => canFits true data.length
  | .dcmdSect _ _ _ _ data => canFits true data.length
  | .dcmdFout _ _ _ _ data => canFits true data.length
  | .peerCommand _ _ _ _ _ _ _ => true
  | .canTableBuildComplete => true
  | .streamLinkDown => true
  | .streamInitSend => true
  | .streamFrameReceive _ _ _ _ payload _ _ => decide (payload.length ≤ 2048)
  | .trajRecord _ _ _ _ _ => true
  | .streamBulkTransfer _ _ _ _ _ _ _ _ => true
  | .streamCreditSend => true
  | .anchorReset => true
  | .anchorSelfTestEnd _ _ => true
  | .anchorInternalFault _ => true
  | .strapFault _ _ => true
  | .guardChannelChange _ _ => true
  | .guardDiscrepancy _ => true
  | .stop1Expiry => true
  | .loopHighSideOn _ => true
  | .loopClosed _ => true
  | .loopCloseTimeout _ => true
  | .loopDischargeEnd _ => true
  | .loopOverload _ => true
  | .testPulseStart _ _ => true
  | .testPulseCheckOff _ _ => true
  | .testPulseRestore _ => true
  | .testPulseCheckOn _ _ => true
  | .pilotBeat _ _ => true
  | .missedBeat _ => true
  | .promotion => true
  | .promotionFail => true
  | .lostlaneOpen _ => true
  | .anchorStopreqReceive _ => true
  | .anchorHoldopenReceive _ => true
  | .anchorAliveAdvance => true
  | .anchorStatusWord => true
  | .anchorLinkLost => true
  | .stop0Request _ _ => true
  | .stop1Request _ _ => true
  | .ancHoldopen _ _ => true
  | .finRawEdge _ _ => true
  | .finEdgeAccept _ => true
  | .finCouplerError _ => true
  | .foutWrite _ _ => true
  | .foutRefresh _ => true
  | .foutSilence _ => true
  | .silclr _ _ => true
  | .tclr _ _ _ => true
  | .thermalShutdown _ => true
  | .thermalRetry _ => true
  | .openLoad _ => true
  | .fieldDieRestore => true
  | .migrationCheckEnd => true
  | .migrationSwitch _ => true
  | .repairMigrationStart _ => true
  | .laneLoadComplete _ _ => true
  | .pilotUpdateComplete _ _ => true
  | .journalSync _ => true
  | .errsnapPeriod => true
  | .flogStoreWrite => true
  | .flogFreeze => true
  | .flogStreamDrain => true
  | .unfreeze _ => true
  | .flush _ => true
  | .fbPos _ _ _ => true
  | .fbSetpos _ _ _ _ => true
  | .fbUnref _ _ _ => true
  | .fbCorr _ _ _ => true
  | .axDly _ _ _ => true
  | .tpOrgRead _ _ => true
  | .tpOrgWrite _ _ _ => true
  | .tqEst _ _ _ => true
  | .prfSp _ _ _ => true
  | .prfState _ _ _ => true
  | .brState _ _ _ => true
  | .rmRead _ _ _ => true
  | .cmpRead _ _ _ => true
  | .cmpInfo _ _ _ => true
  | .latPop _ _ _ => true
  | .peek _ _ _ => true
  | .cfgWork _ _ _ => true
  | .cmAtRead _ _ => true
  | .cmAtWrite _ _ _ => true
  | .ancTrip _ _ _ => true
  | .fioEdge _ _ _ => true
  | .lnLoad _ _ _ _ _ => true
  | .ttRipclr _ _ _ => true
  | .plUpd _ _ _ _ => true
  | .plStart _ _ _ _ => true
  | .plSwap _ _ => true
  | .flogTrig _ _ _ => true
  | .flogPop _ _ => true
  | .calRun _ _ => true
  | .calRead _ _ _ => true
  | .perstRelease => true
  | .vfieldReturn => true
  | .finCouplerRestore _ _ => true
  | .foutCurrentLimit _ => true
  | .busComparatorRelease => true
  | .ripInputEnergised node _ => nodeOK node
  | .gondolaFrameForward node _ _ _ _ _ => nodeOK node
  | .gondolaCreditReceive node _ => nodeOK node
  | .gondolaDlyReqReceive node _ _ _ => nodeOK node
  | .pilotBootComplete _ _ => true

end Sys2Proof
end

