-- ==== Sys2Proof/Certificates/Slice0/Obligations.lean ====
section
/-!
DEFINITION. The statements for the provers: what each command of the opcode table does when it completes, what it leaves alone, and the
properties of the whole block.
-/
open Sys2Proof Sys2Proof.Machine

/-! ### The block as a whole -/

/-- A step executes the command at the front of the queue, on the state with the rest of the queue. -/
def Obligations.StepRunsFront : Prop := ∀ (s : State) (c : Instr) (r : List Instr),
  step { s with pending := c :: r } = exec c { s with pending := r }

/-- R34, R36, R37, R444, R525: with no command waiting one core cycle passes. Where the core clock does not run, nothing changes. Else the
increment that FTM_INC holds comes into force and is added to the accumulator of field time, and the steps accepted in the cycle after it;
then parts of the tick plan may come into force, and mailbox answers that are due show. With none of these and no step, nothing changes but
field time. That a step on an empty queue is one core cycle is the model's choice (log entry 1). -/
def Obligations.IdleCycle : Prop := ∀ s : State, s.pending = [] → ∃ t, step s = .next t
  ∧ (s.coreClock = false → t = s)
  ∧ (s.coreClock = true →
    (∃ u : State, t = u.planTake.mbxTick
      ∧ u.increment = s.wfld rFTM_INC_INT fFTM_INC_INT_INT * 2 ^ 32 + s.wfld rFTM_INC_FRAC fFTM_INC_FRAC_FRAC
      ∧ u.accum = (s.accum + u.increment + s.time.stepPend.toNat * 2 ^ 32) % 2 ^ 96 ∧ u.time.stepPend = 0 ∧ u.time.prev = s.now
      ∧ (s.time.stepPend = 0 → u = { s with time := u.time })
      ∧ (s.hold = [] → s.mbxAns = [] → t = u))
    ∧ (s.hold = [] → ∀ (set : Fin 4) (a : MbxAns), (∀ k < 4, k ≠ set.val → tget none s.mbxAns k = none) →
        tget none s.mbxAns set = some a → a.status < 16 →
        (a.left = 0 → t.answered set a.status a.data)
        ∧ (a.left ≠ 0 → t.regs = s.regs ∧ tget none t.mbxAns set = some { a with left := a.left - 1 })))

/-- R34, R35: on release of reset field time is 0 and the increment 40 units with a fraction of 0; field time stays 0 until the core PLL
locks; the first core cycle after the lock broadcasts 0 and the next one 40. -/
def Obligations.FieldTimeFromReset : Prop :=
  State.reset.now = 0 ∧ State.reset.increment = 40 * 2 ^ 32
  ∧ State.reset.wfld rFTM_INC_INT fFTM_INC_INT_INT = 40 ∧ State.reset.wfld rFTM_INC_FRAC fFTM_INC_FRAC_FRAC = 0
  ∧ (∀ s : State, s.time.locked = false → s.cycle = s)
  ∧ (∀ s : State, s.pending = [] → s.su.poreset = false → s.su.sysreset = false → s.su.railFault = false → s.time.locked = false → s.time.halted = false →
      s.time.stepPend = 0 → s.hold = [] → s.wfld rFTM_INC_INT fFTM_INC_INT_INT = 40 → s.wfld rFTM_INC_FRAC fFTM_INC_FRAC_FRAC = 0 →
      ∃ t u, exec .corePllLock s = .next t ∧ t.now = 0 ∧ step t = .next u ∧ u.now = 40)

/-- What reset leaves: no axis, no loop energised, the anchor in its reset state, every register at its reset value, the memories
listing nothing, and no command waiting. The values of the registers for which the spec gives none are the model's (log entry 2). -/
def Obligations.ResetValues : Prop :=
  (∀ o, State.reset.rget o = regReset o ∧ State.reset.wget o = regReset o)
  ∧ State.reset.pending = [] ∧ State.reset.hold = [] ∧ State.reset.sram = [] ∧ State.reset.axes = []
  ∧ State.reset.anchor.st = 0 ∧ (∀ n, (State.reset.anchor.loop n).energised = false)
  ∧ State.reset.fget rSU_STAT fSU_STAT_PHASE = 0 ∧ State.reset.flag rGLB_STAT fGLB_STAT_UNMAP = false

/-- R460: a rip loop holds a switch on only while the anchor is in RUN and nothing latches, faults or holds the loop open, with the guard
closed under STOP0: a step from any state of which this holds gives a state of which it holds, whatever command runs. -/
def Obligations.RipLoopsSafe : Prop := ∀ s t : State, s.ripsSafe → step s = .next t → t.ripsSafe

/-- The rip loops are safe at reset. -/
def Obligations.RipLoopsSafeAtReset : Prop := State.reset.ripsSafe

/-- Every command completes, and none of them takes a command from the queue or puts one there. -/
def Obligations.QueueKept : Prop := ∀ (c : Instr) (s : State), ∃ t, exec c s = .next t ∧ t.pending = s.pending

/-- R452-R480: only the commands of the anchor, the bus comparator and the resets move the anchor's state, its straps, its loops, its guard
pairs or its hold-open word: whatever the shell, the host and the gondolas do, a loop answers to the anchor alone. -/
def Obligations.LoopsMovedOnlyByAnchor : Prop := ∀ (c : Instr) (s t : State), anchorRow c = false → exec c s = .next t →
  t.anchor.core = s.anchor.core

/-! ### Resets, boot and calibration -/

/-- R396, R523-R527, R535, R34, R248: the resets of the device, the endpoint's, the PLL's lock, and the debug halt. -/
def Obligations.ResetRows : Prop := ∀ s : State,
  Completes .poresetAssert s (fun t => t.su.poreset = true ∧ t.axes = [] ∧ t.regs = [] ∧ t.work = [] ∧ t.sram = [] ∧ t.lanes = []
    ∧ t.time = {} ∧ t.anchor.st = 0 ∧ (∀ n, t.anchor.loop n = {}) ∧ t.host = s.host)
  ∧ (∀ b : BitVec 2, s.su.poreset = true → Completes (.poresetRelease b) s (fun t =>
      t.su.poreset = false ∧ t.fget rSU_STAT fSU_STAT_BOOTSEL = b.toNat ∧ t.anchor = s.anchor ∧ t.axes = s.axes))
  ∧ (s.ripsSafe → Completes .sysresetAssert s (fun t => t.su.sysreset = true ∧ t.axes = [] ∧ t.work = [] ∧ t.lanes = [] ∧ t.time = {}
      ∧ t.fouts = s.fouts ∧ t.flag rGLB_RSTCAUSE fGLB_RSTCAUSE_SYS = true ∧ t.fget rSU_STAT fSU_STAT_BOOTSEL = s.fget rSU_STAT fSU_STAT_BOOTSEL
      ∧ ∀ n < 25, (t.anchor.loop n).energised = false))
  ∧ (s.su.sysreset = true → Completes .sysresetRelease s (fun t => t.su.sysreset = false ∧ t.anchor = s.anchor ∧ t.axes = s.axes
      ∧ ∀ o, o ≠ rPIL_STAT → o ≠ rSU_STAT → o ≠ rTTH_STAT 24 → t.rget o = s.rget o))
  ∧ Completes .railFaultReset s (fun t => t.su.railFault = true ∧ t.axes = [] ∧ t.work = [] ∧ t.lanes = [] ∧ t.time = {}
      ∧ t.anchor.st = 0 ∧ (∀ n, t.anchor.loop n = {}) ∧ t.fget rSU_STAT fSU_STAT_BOOTSEL = s.fget rSU_STAT fSU_STAT_BOOTSEL)
  ∧ (s.su.railFault = true → Completes .railRecovery s (fun t => t.su.railFault = false ∧ t.anchor = s.anchor ∧ t.axes = s.axes
      ∧ ∀ o, o ≠ rPIL_STAT → o ≠ rSU_STAT → o ≠ rTTH_STAT 24 → t.rget o = s.rget o))
  ∧ Completes .endpointReset s (fun t => t.cqs = [] ∧ (∀ q, t.sq q = { lastDb := (t.sq q).lastDb })
      ∧ t.axes = s.axes ∧ t.anchor = s.anchor ∧ t.work = s.work
      ∧ (∀ o, outlastsEndpoint o = true → t.rget o = s.rget o) ∧ (∀ o, outlastsEndpoint o = false → t.rget o = regReset o))
  ∧ Completes .perstRelease s (fun t => t = { s with su := { s.su with perst := false } })
  ∧ (s.time.locked = false → Completes .corePllLock s (fun t => t = { s with time := t.time } ∧ t.time.locked = true ∧ t.now = 0
      ∧ t.time.frac = 0))
  ∧ Completes .debugHalt s (fun t => t = { s with time := { s.time with halted := true } })
  ∧ Completes .debugRelease s (fun t => t = { s with time := { s.time with halted := false } })

/-- R529-R531: the boot ROM's verdict on a slot, and the steps of the pilots that make the device ready. -/
def Obligations.BootRows : Prop := ∀ s : State,
  (∀ (slot : Fin 2) (version : Word), s.su.booting = some (slot.val == 1) →
    Completes (.bootSlotVerified slot 1 version) s (fun t => t.pilot0.running = true ∧ t.pilot1.running = true
      ∧ t.pilot0.slot = (slot.val == 1) ∧ t.pilot1.slot = (slot.val == 1) ∧ t.su.booting = none
      ∧ t.fget rSU_STAT fSU_STAT_PHASE = 2 ∧ t.flag rPIL_STAT fPIL_STAT_P0RUN = true ∧ t.flag rPIL_STAT fPIL_STAT_P1RUN = true
      ∧ t.rget (if slot.val = 1 then rPIL_VERB else rPIL_VERA) = version)
    ∧ ∀ fail : BitVec 3, 2 ≤ fail.toNat → fail.toNat ≤ 5 →
      (s.fget rSU_STAT fSU_STAT_BOOTSEL ≠ 0 → Completes (.bootSlotVerified slot fail version) s (fun t => t.su.booting = none
        ∧ t.fget rSU_STAT fSU_STAT_PHASE = 4 ∧ t.pilot0 = s.pilot0 ∧ t.pilot1 = s.pilot1))
      ∧ (s.fget rSU_STAT fSU_STAT_BOOTSEL = 0 →
        s.fget rSU_STAT (if slot.val = 1 then fSU_STAT_FAILA else fSU_STAT_FAILB) = 0 →
        Completes (.bootSlotVerified slot fail version) s (fun t => t.su.booting = some (slot.val == 0)
          ∧ t.flag rSU_STAT fSU_STAT_TRIEDALT = true ∧ t.fget rSU_STAT fSU_STAT_PHASE = 1)))
  ∧ (s.fget rSU_STAT fSU_STAT_PHASE = 2 → s.activePilot ≠ none →
    Completes (.startupLaneLoadComplete 0) s (fun t => t.fget rSU_STAT fSU_STAT_PHASE = 3 ∧ t.axes = s.axes ∧ t.anchor = s.anchor
      ∧ ∀ l < 16, (t.ln l).imgKind = 1 ∧ (t.ln l).trapped = false))
  ∧ (s.activePilot ≠ none → ∀ ok : Bool, Completes (.ddrTrainingComplete ok) s (fun t =>
      t.flag rSU_STAT fSU_STAT_DDRREADY = ok ∧ t.wrote s [rSU_STAT]))
  ∧ (∀ p, s.activePilot = some p → ∀ (ok : Bool) (v : Word), Completes (.altSlotVerifyComplete ok v) s (fun t =>
      t.wrote s [rPIL_STAT, rPIL_VERA, rPIL_VERB]
      ∧ t.rget (if (s.pilot p).slot then rPIL_VERA else rPIL_VERB) = (if ok then v else 0)))

/-- R27, R533, R534, R537: a line of the scrubber, a calibration and its corrections. -/
def Obligations.CalibrationRows : Prop := ∀ s : State,
  (s.flag rSU_STAT fSU_STAT_CALDONE = false → s.link 24 = lkUP → s.su.poreset = false → s.su.sysreset = false → s.su.railFault = false →
    Completes .calibrationStart s (fun t => t = { s with su := { s.su with calRun := true } }))
  ∧ (s.su.calRun = true → ∀ (fail : BitVec 16) (r : CalResult), r.index.toNat < 24 →
    Completes (.calibrationComplete fail [r]) s (fun t => t.su.calRun = false ∧ t.su.calAt = s.now
      ∧ t.flag rSU_STAT fSU_STAT_CALDONE = true ∧ t.fget rSU_STAT fSU_STAT_CALFAIL = fail.toNat
      ∧ (∀ k < 4, tget (calNone k) t.su.cal (4 * r.index.toNat + k) = [r.w0, r.w1, r.w2, r.w3].getD k 0)
      ∧ t = { s with regs := t.regs, su := t.su } ∧ ∀ o ≠ rSU_STAT, t.rget o = s.rget o))
  ∧ (∀ (set : Fin 4) via, s.mbxFree set.val via → ∀ i : BitVec 14,
    (i.toNat < 16 → Completes (.calRead set via i) s (fun t => t.answers set.val mbxOK
      ([0, 1, 2, 3].map (fun j => tget (calNone j) s.su.cal (4 * i.toNat + j)) ++ words64 s.su.calAt)))
    ∧ (16 ≤ i.toNat → i.toNat < 24 → Completes (.calRead set via i) s (fun t => t.answers set.val mbxOK
      ([0, 1].map (fun j => tget (calNone j) s.su.cal (4 * i.toNat + j)) ++ [0, 0] ++ words64 s.su.calAt)))
    ∧ (24 ≤ i.toNat → i.toNat < 30 → Completes (.calRead set via i) s (fun t => ∃ w x y, t.answers set.val mbxOK [w, 0, 0, 0, x, y])))
  ∧ (∀ (set : Fin 4) via, s.mbxFree set.val via → s.fget rSU_STAT fSU_STAT_PHASE = 3 →
    (∀ n < 256, s.inPlan n = false) → Completes (.calRun set via) s (fun t => t.answers set.val mbxOK [] ∧ t.su.calRun = true ∧ t.axes = s.axes))
  ∧ Completes .scrubberLine s (fun t => t.scrub = (s.scrub + 1) % 163840 ∧ t.sram = s.sram
      ∧ (∀ u, u ∈ t.sramUpsets ↔ u ∈ s.sramUpsets ∧ (u.2 = true ∨ u.1 / 8 ≠ s.scrub)))

/-! ### Field time -/

/-- R39, R43, R45, R164: the mailbox objects of field time, but for FT_STEP. -/
def Obligations.TimeObjects : Prop := State.reset.time.torg = 0 ∧ ∀ (s : State) (set : Fin 4) (via : RegPath), s.mbxFree set.val via →
  Completes (.ftNow set via) s (fun t => t.answers set.val mbxOK
    (words64 s.now ++ [s.time.frac, s.time.incI.setWidth 32, s.time.incF]) ∧ t.time = s.time)
  ∧ (∀ k : BitVec 14, k.toNat < 4 → (tget [] s.time.tsi k.toNat = [] →
      Completes (.ftTsi set via k) s (fun t => t.answers set.val mbxOK [BitVec.ofNat 32 k.toNat, 0, 0] ∧ t.time = s.time))
    ∧ ∀ up x r, tget [] s.time.tsi k.toNat = (up, x) :: r → Completes (.ftTsi set via k) s (fun t =>
      t.answers set.val mbxOK (BitVec.ofNat 32 (k.toNat + (if up then 0x100 else 0) + 0x80000000) :: words64 x)
        ∧ tget [] t.time.tsi k.toNat = r ∧ t.fget rFTM_TSI_STAT (tsiCnt k.toNat) = r.length % 8))
  ∧ (∀ p : BitVec 14, p.toNat < 2 → (tget [] s.time.txts p.toNat = [] →
      Completes (.ftTxts set via p) s (fun t => t.answers set.val mbxOK [0, 0, 0] ∧ t.time = s.time))
    ∧ ∀ f x r, tget [] s.time.txts p.toNat = (f, x) :: r → Completes (.ftTxts set via p) s (fun t =>
      t.answers set.val mbxOK (BitVec.ofNat 32 (f.toNat + 0x80000000) :: words64 x) ∧ tget [] t.time.txts p.toNat = r))
  ∧ (∀ (n : BitVec 14) (target period : BitVec 64), n.toNat < 8 →
      (period = 0 ∨ (4000 ≤ period.toNat ∧ period.toNat ≤ 2 ^ 48) → Completes (.ftTc set via n target period) s (fun t =>
        t.answers set.val mbxOK [] ∧ t.time.comp n.toNat = { s.time.comp n.toNat with next := some (target, period) }
          ∧ ∀ k ≠ n.toNat, t.time.comp k = s.time.comp k))
      ∧ (period ≠ 0 → (period.toNat < 4000 ∨ 2 ^ 48 < period.toNat) → Completes (.ftTc set via n target period) s (fun t =>
        t.answers set.val mbxRANGE [] ∧ t.time = s.time)))
  ∧ Completes (.tpOrgRead set via) s (fun t => t.answers set.val mbxOK (words64 s.time.torg) ∧ t.time = s.time)
  ∧ (∀ x : FTime, ((∀ n < 256, s.inPlan n = false) → Completes (.tpOrgWrite set via x) s (fun t => t.answers set.val mbxOK []
      ∧ t.time = { s.time with torg := x }))
    ∧ ((∃ n < 256, s.inPlan n = true) → Completes (.tpOrgWrite set via x) s (fun t => t.answers set.val mbxREFUSED [] ∧ t.time = s.time)))
  ∧ (∀ x : FTime, Completes (.cmAtWrite set via x) s (fun t => t.answers set.val mbxOK [] ∧ t.time = { s.time with cmAt := x }))
  ∧ (s.commit = none → Completes (.cmAtRead set via) s (fun t => t.answers set.val mbxOK (words64 s.time.cmAt ++ [0, 0])
      ∧ t.time = s.time))

/-- R36, R37, R39, R43-R45, R48, R64: the step of field time, the comparators, PPS_OUT, the time-stamp inputs and the distribution of time.
A step that FT_STEP accepts, a target and a period that FT_TC writes are in force from the next core cycle on. That a pulse of the PPS
generator ends when PPS_EN or PPS_SRC turns it off is the model's choice (log entry 112). -/
def Obligations.TimeEventRows : Prop := ∀ s : State,
  (∀ (set : Fin 4) (via : RegPath) (off : BitVec 64), s.mbxFree set.val via →
    (s.planHolds = false → Completes (.ftStep set via off) s (fun t => t.answers set.val mbxOK []
      ∧ t.time = { s.time with stepPend := s.time.stepPend + off }
      ∧ t.fget rFTM_STAT fFTM_STAT_STEP_CNT = (s.fget rFTM_STAT fFTM_STAT_STEP_CNT + 1) % 2 ^ 16))
    ∧ (s.planHolds = true → Completes (.ftStep set via off) s (fun t => t.answers set.val mbxREFUSED [] ∧ t.time = s.time)))
  ∧ (s.pending = [] → s.coreClock = true → s.hold = [] → ∃ t, step s = .next t ∧ ∀ n < 8,
      (∀ target period, (s.time.comp n).next = some (target, period) →
        (t.time.comp n).target = target ∧ (t.time.comp n).period = period ∧ (t.time.comp n).next = none)
      ∧ ((s.time.comp n).next = none → (t.time.comp n).target = (s.time.comp n).target ∧ (t.time.comp n).period = (s.time.comp n).period)
      ∧ (s.time.stepPend ≠ 0 → s.flag (rFTM_TC_CTL n) fFTM_TC_CTL_EN = true →
          passed (t.now - s.time.stepPend) t.now (t.time.comp n).target = true → (t.time.comp n).stepped = true))
  ∧ (∀ (n : Fin 8) (v : Word) (via : RegPath), s.p8Denied via (rFTM_TC_CTL n) = false → Completes (.tcArm via n v) s (fun t =>
    [fFTM_TC_CTL_EN, fFTM_TC_CTL_ACT_EVT, fFTM_TC_CTL_ACT_LAT, fFTM_TC_CTL_ACT_PLS, fFTM_TC_CTL_CQ].all
        (fun b => t.fget (rFTM_TC_CTL n) b == bget v b) = true
      ∧ (t.time.comp n).target = (s.time.comp n).target ∧ (t.time.comp n).period = (s.time.comp n).period
      ∧ (s.flag (rFTM_TC_CTL n) fFTM_TC_CTL_EN = false → bget v fFTM_TC_CTL_EN = 1 →
          (t.time.comp n).lateArm = reached s.now (s.time.comp n).target ∧ (t.time.comp n).wait = reached s.now (s.time.comp n).target)
      ∧ t.wrote { s with time := t.time } [rFTM_TC_CTL n]))
  ∧ (∀ n : Fin 8, s.flag (rFTM_TC_CTL n) fFTM_TC_CTL_EN = true → reached s.now (s.time.comp n).target = true →
    ((s.time.comp n).wait = true → Completes (.timeComparatorFire n) s (fun t => t = s))
    ∧ ((s.time.comp n).wait = false →
      Completes (.timeComparatorFire n) s (fun t => t.flag (rFTM_TC_STAT n) fFTM_TC_STAT_FIRED = true ∧ t.now = s.now
        ∧ ((s.time.comp n).lateArm = true → t.flag (rFTM_TC_STAT n) fFTM_TC_STAT_LATE = true)
        ∧ ((s.time.comp n).stepped = true → t.flag (rFTM_TC_STAT n) fFTM_TC_STAT_STEPPED = true)
        ∧ ((s.time.comp n).period = 0 → t.flag (rFTM_TC_CTL n) fFTM_TC_CTL_EN = false ∧ (t.time.comp n).target = (s.time.comp n).target)
        ∧ ((s.time.comp n).period ≠ 0 → (t.time.comp n).target = (s.time.comp n).target
            + BitVec.ofNat 64 (((s.now - (s.time.comp n).target).toNat / (s.time.comp n).period.toNat + 1) * (s.time.comp n).period.toNat)
          ∧ t.flag (rFTM_TC_CTL n) fFTM_TC_CTL_EN = true)
        ∧ (s.flag (rFTM_TC_CTL n) fFTM_TC_CTL_ACT_PLS = true → (t.time.comp n).out = true
          ∧ (t.time.comp n).outEnd = s.now + BitVec.ofNat 64 16000000))))
  ∧ (∀ n : Fin 8, (s.time.comp n).out = true → reached s.now (s.time.comp n).outEnd = true →
    Completes (.tcPulseEnd n) s (fun t => t = { s with time := t.time } ∧ (t.time.comp n).out = false
      ∧ ∀ k ≠ n.val, t.time.comp k = s.time.comp k))
  ∧ (s.flag rFTM_CTL fFTM_CTL_PPS_EN = true → s.flag rFTM_CTL fFTM_CTL_PPS_SRC = false →
      s.ppsSince < tdiff s.now s.time.prev → Completes .ppsOutRise s (fun t => t = { s with time := t.time } ∧ t.ppsOut = true
        ∧ t.time.ppsEnd = s.now + BitVec.ofNat 64 (ppsWidth (s.fget rFTM_PPS_CTL fFTM_PPS_CTL_WIDTH) * 16000000)))
  ∧ (s.time.ppsGen = true → reached s.now s.time.ppsEnd = true →
      Completes .ppsOutFall s (fun t => t = { s with time := { s.time with ppsGen := false } }
        ∧ (s.flag rFTM_CTL fFTM_CTL_PPS_SRC = false → t.ppsOut = false)))
  ∧ (∀ (k : Fin 4) (rising : Bool),
      (s.fget rFTM_TSI_CTL (fFTM_TSI_CTL_EDGE k)).testBit (if rising then 0 else 1) = true → (tget [] s.time.tsi k).length < 4 →
      Completes (.tsiEdge k rising) s (fun t => tget [] t.time.tsi k = tget [] s.time.tsi k ++ [(rising, s.now - s.threeCycles)]
        ∧ t.fget rFTM_TSI_STAT (tsiCnt k) = (tget [] s.time.tsi k).length + 1 ∧ t.now = s.now))
  ∧ (s.flag rFTM_CTL fFTM_CTL_TDIST_EN = true →
      (s.tdistDue = true → Completes .timeDistribution s (fun t => t = { s with ports := t.ports, time := { s.time with tdLast := some s.now } }
        ∧ ∀ k < 24, (t.port k).waiting = (s.port k).waiting ++ if s.link k = lkUP then [timeFrame] else []))
      ∧ (s.tdistDue = false → Completes .timeDistribution s (fun t => t = s)))

/-! ### Tethers -/

/-- R69-R71, R86, R91: the training of a port, at the device and at a gondola, and the writes of TTH_Tn_CTL. A port that leaves UP goes
through DOWN to TRN1 at once; a port of a gondola in no tick plan that reaches UP may make it report. -/
def Obligations.TrainingRows : Prop := ∀ s : State,
  (∀ (via : RegPath) (t : Fin 25) (v : Word), s.p8Denied via (rTTH_CTL t) = false →
    (s.flag (rTTH_CTL t) fTTH_CTL_EN = false → bget v fTTH_CTL_EN = 1 → Completes (.portEnable via t v) s (fun u =>
      u.link t = lkTRN1 ∧ u.flag (rTTH_CTL t) fTTH_CTL_EN = true ∧ u.wrote s [rTTH_CTL t, rTTH_STAT t]))
    ∧ (s.flag (rTTH_CTL t) fTTH_CTL_EN = true → bget v fTTH_CTL_EN = 0 → Completes (.portEnable via t v) s (fun u =>
      u.link t = lkOFF ∧ u.flag (rTTH_CTL t) fTTH_CTL_EN = false
        ∧ u.posted s [rTTH_CTL t, rTTH_STAT t, rTTH_STAT (s.tetherKey t), rTTH_EVT t]))
    ∧ (s.flag (rTTH_CTL t) fTTH_CTL_EN = true → bget v fTTH_CTL_EN = 1 → t.val < 24 → s.link t ≠ lkOFF →
      Completes (.retrain via t v) s (fun u => u.link t = lkTRN1
        ∧ u.posted s [rTTH_CTL t, rTTH_STAT t, rTTH_STAT (s.tetherKey t), rTTH_EVT t]
        ∧ (s.link t = lkUP → u.flag (rTTH_EVT t) fTTH_EVT_DOWN = true)))
    ∧ (s.flag (rTTH_CTL t) fTTH_CTL_EN = true → bget v fTTH_CTL_EN = 1 → t.val = 24 →
      Completes (.retrain via t v) s (fun u => u.wrote s [rTTH_CTL t])))
  ∧ (∀ t : Fin 25, s.link t = lkTRN1 → Completes (.trn1Complete (.dev t)) s (fun u => u.link t = lkTRN2 ∧ u.wrote s [rTTH_STAT t]))
  ∧ (∀ t : Fin 25, s.link t = lkTRN2 → ∀ role cap : BitVec 8,
    (rolesOK 1 role.toNat false = true → Completes (.trn2Complete (.dev t) role cap) s (fun u => u.link t = lkUP
      ∧ (t.val < 24 → u.flag (rTTH_EVT t) fTTH_EVT_UP = true)))
    ∧ (rolesOK 1 role.toNat true = false → Completes (.trn2Complete (.dev t) role cap) s (fun u => u.link t = lkMISWIRE
      ∧ u.wrote { s with ports := u.ports } [rTTH_STAT t]))
    ∧ (role = 3 → (rolesOK 1 role.toNat true = true ∧ rolesOK 1 role.toNat false = false)
      ∧ (s.ringEven t = none ∨ t.val % 2 = 0 → Completes (.trn2Complete (.dev t) role cap) s (fun u => u.link t = lkMISWIRE))
      ∧ (s.ringEven t ≠ none → t.val % 2 = 1 → Completes (.trn2Complete (.dev t) role cap) s (fun u => u.link t = lkUP))))
  ∧ (∀ t : Fin 25, s.link t = lkTRN1 ∨ s.link t = lkTRN2 → Completes (.trainingTimeout (.dev t)) s (fun u => u.link t = lkTRN1
      ∧ u.wrote s [rTTH_STAT t, rTTH_ERR t cRETRAIN]))
  ∧ (∀ (t : Fin 25) (cv : Nat) (now : FTime), s.link t = lkUP → Completes (.linkLoss (.dev t) cv now) s (fun u => u.link t = lkTRN1
      ∧ (t.val < 24 → u.flag (rTTH_EVT t) fTTH_EVT_DOWN = true)
      ∧ u.posted s [rTTH_STAT t, rTTH_STAT (s.tetherKey t), rTTH_EVT t, rTTH_ERR t cLOCKLOSS, rTTH_ERR t cCVERR]))
  ∧ (∀ (n : Nat) (p : GPort),
    ((s.gon n).glink p = lkTRN1 → Completes (.trn1Complete (.gon n p)) s (fun u => u = { s with gons := u.gons }
      ∧ (u.gon n).glink p = lkTRN2 ∧ ∀ m ≠ n, u.gon m = s.gon m))
    ∧ ((s.gon n).glink p = lkTRN2 → ∀ role cap : BitVec 8, Completes (.trn2Complete (.gon n p) role cap) s (fun u =>
      u = { s with gons := u.gons } ∧ (u.gon n).glink p = (if rolesOK (gportRole p) role.toNat (s.onRing n) then lkUP else lkMISWIRE)
        ∧ (∀ pos, p ≠ .up → (s.gon n).pos = some pos → (s.gon n).greg aG_PLAN = 0 → rolesOK (gportRole p) role.toNat (s.onRing n) = true →
            ∃ f, (u.gon n).queue = (s.gon n).queue ++ [f] ∧ f.own = true ∧ f.port = (s.gon n).serving (s.onRing n) ∧ f.frame.typ = 0xA)
        ∧ ∀ m ≠ n, u.gon m = s.gon m))
    ∧ ((s.gon n).glink p = lkTRN1 ∨ (s.gon n).glink p = lkTRN2 → Completes (.trainingTimeout (.gon n p)) s (fun u =>
      u = { s with gons := u.gons } ∧ (u.gon n).glink p = lkTRN1 ∧ ∀ m ≠ n, u.gon m = s.gon m))
    ∧ ∀ cv now, isHome n = false → (s.gon n).glink p = lkUP → Completes (.linkLoss (.gon n p) cv now) s (fun u => u = { s with gons := u.gons }
      ∧ (u.gon n).glink p = lkTRN1 ∧ (s.onRing n = false → p = .up → (u.gon n).pos = none) ∧ ∀ m ≠ n, u.gon m = s.gon m))

/-- R72-R74, R82, R83, R86, R88, R93: an enumeration from its start to its end, the identity block of a gondola, and a break of a ring. -/
def Obligations.EnumerationRows : Prop := ∀ s : State,
  (∀ (via : RegPath) (t : Fin 25) (v : Word), s.p8Denied via (rTTH_ENUM t) = false → t.val < 24 →
    (s.tetherAxes (s.tetherKey t) = [] → s.link (s.tetherKey t) = lkUP → Completes (.enumStart via t v) s (fun u =>
      u.flag (rTTH_STAT (s.tetherKey t)) fTTH_STAT_ENUM_BUSY = true
      ∧ u.fget (rTTH_ENUM (s.tetherKey t)) fTTH_ENUM_EPOCH = (s.fget (rTTH_ENUM (s.tetherKey t)) fTTH_ENUM_EPOCH + 1) % 256
      ∧ (u.port (s.tetherKey t)).enumKind = .full ∧ ∀ g < 64, u.present t g = false))
    ∧ (s.tetherAxes (s.tetherKey t) ≠ [] → Completes (.enumStart via t v) s (fun u =>
      u.flag (rTTH_ENUM (s.tetherKey t)) fTTH_ENUM_REFUSED = true ∧ u.wrote s [rTTH_ENUM t, rTTH_ENUM (s.tetherKey t)]))
    ∧ (s.link (s.tetherKey t) = lkUP → Completes (.enumAttach via t v) s (fun u =>
      u.flag (rTTH_STAT (s.tetherKey t)) fTTH_STAT_ENUM_BUSY = true ∧ (u.port (s.tetherKey t)).enumKind = .attach
      ∧ ∀ g < 64, u.present t g = s.present t g)))
  ∧ (∀ (t : Fin 25) (next epoch : BitVec 8) (ovr : Bool) (mm : Nat) (q : RxQual), s.link t = lkUP → t.val < 24 →
    goodRx q ({ s.enumBackFrame t next epoch ovr with seq := q.seq }) →
    s.fget (rTTH_STAT (s.tetherKey t)) fTTH_STAT_ENUM_BUSY = 1 → s.fget (rTTH_ENUM (s.tetherKey t)) fTTH_ENUM_EPOCH = epoch.toNat →
    (s.ringEven t = none ∨ (s.ringEven t ≠ some t.val ∧ (s.port (s.tetherKey t)).enumOdd = false)) →
    Completes (.enumDone t next ovr epoch mm q) s (fun u =>
      u.flag (rTTH_STAT (s.tetherKey t)) fTTH_STAT_ENUM_BUSY = false ∧ u.flag (rTTH_EVT (s.tetherKey t)) fTTH_EVT_ENUM_DONE = true
      ∧ (ovr = true → u.flag (rTTH_STAT (s.tetherKey t)) fTTH_STAT_ENUM_OVER = true)
      ∧ (s.ringEven t ≠ none → u.flag (rTTH_STAT (s.tetherKey t)) fTTH_STAT_RING_WHOLE = true ∧ (u.port t).endMm = mm)))
  ∧ (∀ (t : Fin 25) (pos hops : Fin 64) (block : List Byte) (mm : Nat) (q : RxQual), s.link t = lkUP → t.val < 24 →
    goodRx q (mkFrame 7 0 pos q.seq 0 block) →
    Completes (.identReceive t pos block hops mm q) s (fun u => (u.gd (s.gk t pos)).ident = block
      ∧ (u.gd (s.gk t pos)).hops = hops.val ∧ (u.gd (s.gk t pos)).cableMm = mm ∧ u.present t pos = true
      ∧ (∀ n ∈ s.gonAxes (s.gk t pos), u.flag (rFBK_STAT n) fFBK_STAT_REFD = false)
      ∧ u.flag (rTTH_EVT (s.tetherKey t)) fTTH_EVT_IDENT_NEW = true))
  ∧ (∀ (t : Fin 25) (seg : BitVec 8) (e : Nat), s.ringEven t = some e → Completes (.ringBreak t seg) s (fun u =>
      u.fget (rTTH_STAT e) fTTH_STAT_BRKSEG = seg.toNat % 128 ∧ u.flag (rTTH_STAT e) fTTH_STAT_RING_BROKEN = true
      ∧ u.flag (rTTH_STAT e) fTTH_STAT_RING_WHOLE = false ∧ u.flag (rTTH_EVT e) fTTH_EVT_RING_BREAK = true
      ∧ ∀ g < 64, s.present e g = true → seg.toNat ≤ g → g < s.split e → u.homed (e + 1) g = true ∧ u.homed e g = false))

/-- R16, R18, R57, R58, R60, R65, R67, R68, R77, R87, R89: the frames that a port receives and sends, the missing TICK_UP and the lost
gondola. -/
def Obligations.TetherFrameRows : Prop := ∀ (s : State) (t : Fin 25) (now : FTime),
  (∀ (pos : Fin 64) (seq : BitVec 8) (fixed : BitVec 80) (recs : List (BitVec 128)) (q : RxQual), s.link t = lkUP →
    goodRx q (mkFrame 2 0 pos seq 0 (leBytes 10 fixed.toNat ++ recs.flatMap (fun r => leBytes 16 r.toNat))) →
    s.present t (if t.val = 24 then 0 else pos.val) = true → s.planChs (s.gk t pos) ≠ [] → (∀ r ∈ recs, recCH r ∈ s.planChs (s.gk t pos)) →
    ((s.gd (s.gk t pos)).credDn + upCRET fixed ≤ 15 → Completes (.tickUpReceive t pos seq fixed recs q) s (fun u =>
      (u.gd (s.gk t pos)).missRun = 0 ∧ (u.gd (s.gk t pos)).vbus = BitVec.ofNat 16 (upVBUS fixed)))
    ∧ (15 < (s.gd (s.gk t pos)).credDn + upCRET fixed → Completes (.tickUpReceive t pos seq fixed recs q) s (fun u =>
      u.gd (s.gk t pos) = { s.gd (s.gk t pos) with credDn := 15 }
        ∧ u.wrote { s with gdev := u.gdev } [rTTH_ERR t cCVERR, rTTH_ERR t cFMTERR])))
  ∧ (∀ pos : Fin 64, s.planChs (s.gk t pos) ≠ [] → s.present t (if t.val = 24 then 0 else pos.val) = true →
      (s.upCame t (s.gk t pos) = true → Completes (.tickUpMissing t pos) s (fun u => u = s))
      ∧ (s.upCame t (s.gk t pos) = false → (s.gd (s.gk t pos)).missTick ≠ some (BitVec.ofInt 64 (s.tickEnded t)) →
        Completes (.tickUpMissing t pos) s (fun u =>
          u.gd (s.gk t pos) = { s.gd (s.gk t pos) with missRun := (s.gd (s.gk t pos)).missRun + 1, missTick := some (BitVec.ofInt 64 (s.tickEnded t)) }
          ∧ u.wrote { s with gdev := u.gdev } [rTTH_ERR t cUPMISS])))
  ∧ (∀ (pos : Fin 64) (cause : LossCause), t.val < 24 → s.present t pos = true → s.lossStands t pos cause = true →
    Completes (.gondolaLost t pos cause) s (fun u => u.present t pos = false
      ∧ (s.ringEven t = none → ∀ g ∈ s.through t pos, u.present t g = false)
      ∧ u.flag (rTTH_EVT (s.tetherKey t)) fTTH_EVT_GLOST = true))
  ∧ (∀ (t1 : FTime) (q : RxQual), s.link t = lkUP → t.val < 24 → goodRx q (mkFrame 4 2 0 q.seq 0 (leBytes 8 t1.toNat)) →
      Completes (.dlyReqReceive t t1 q) s (fun u => (u.port t).waiting = (s.port t).waiting
        ++ [mkFrame 5 2 0 0 0 (leBytes 8 t1.toNat ++ leBytes 8 s.now.toNat ++ leBytes 8 0)]
        ∧ u.gdev = s.gdev ∧ ∀ k ≠ t.val, u.port k = s.port k))
  ∧ (∀ (pos : Fin 64) (tag : BitVec 8) (status : BitVec 16) (data : List Byte) (q : RxQual), s.link t = lkUP →
    goodRx q (mkFrame 0xA 0 pos q.seq tag (leBytes 2 status.toNat ++ [0, 0] ++ data)) → (∃ r ∈ (s.gd (s.gk t pos)).cfg, r.tag = tag) →
    Completes (.cfgRspReceive t pos tag status data q) s (fun u =>
      (u.gd (s.gk t pos)).cfg = (s.gd (s.gk t pos)).cfg.filter (fun r => r.tag != tag)))
  ∧ (∀ (pos : Fin 64) (str : BitVec 8) (last : Bool) (off : Word) (data : List Byte) (q : RxQual), s.link t = lkUP →
    goodRx q (mkFrame 12 0 pos q.seq 0 ([str, if last then 1 else 0, 0, 0] ++ leBytes 4 off.toNat ++ data)) →
    (s.gd (s.gk t pos)).grantUp ≠ 0 → Completes (.bulkReceive t pos str last off data q) s (fun u =>
      (u.gd (s.gk t pos)).grantUp = (s.gd (s.gk t pos)).grantUp - 1
      ∧ (str = 3 → (u.gd (s.gk t pos)).upData = (s.gd (s.gk t pos)).upData)
      ∧ (str ≠ 3 → s.strLink ≠ skUP → (u.gd (s.gk t pos)).upData = (s.gd (s.gk t pos)).upData ++ [(str, last, off, data)])))
  ∧ (∀ (pos : Fin 64) (n : BitVec 4) (q : RxQual), s.link t = lkUP → goodRx q (mkFrame 13 0 pos q.seq 0 [BitVec.ofNat 8 n.toNat, 0]) →
      Completes (.creditReceive t pos n q) s (fun u => (u.gd (s.gk t pos)).credDn = min 15 ((s.gd (s.gk t pos)).credDn + n.toNat)
        ∧ u.wrote { s with gdev := u.gdev } [rTTH_ERR t cCVERR, rTTH_ERR t cFMTERR]))
  ∧ ((t.val = 24 → s.time.halted = false) →
    (∀ k r, (s.port t).ready = k :: r → Completes (.tickDnTransmit (.dev t) now) s (fun u => u = { s with ports := u.ports, gdev := u.gdev }
      ∧ (u.port t).ready = r ∧ (∃ f, f = (s.gd k).tickDn (k % 64) (((s.gd k).upTick.getD 0).setWidth 8)
          ∧ (u.port t).sent = [f] ∧ (u.port t).wire = frameHeader f ++ f.body ++ leBytes 4 (frameCrc f).toNat)
      ∧ (u.gd k).ready = false ∧ (u.gd k).grantUp = (s.gd k).grantUp + (s.gd k).grant ∧ (u.gd k).recs = []
      ∧ (∀ j ≠ k, u.gd j = s.gd j) ∧ ∀ j ≠ t.val, u.port j = s.port j))
    ∧ ((s.port t).ready ≠ [] → Completes (.nonTickFrameStart (.dev t) now) s (fun u => u = s))
    ∧ (∀ i f, s.link t = lkUP → (s.port t).ready = [] → s.nextFrame t = some i → (s.port t).waiting[i]? = some f →
      s.quietOK t (frameBytes f) = true → Completes (.nonTickFrameStart (.dev t) now) s (fun u => ∃ g, (u.port t).sent = [g]
        ∧ (u.port t).wire = frameHeader g ++ g.body ++ leBytes 4 (frameCrc g).toNat ∧ g.typ = f.typ ∧ g.route = f.route ∧ g.addr = f.addr
        ∧ g.seq = tget 0 (s.port t).seqCnt f.typ.toNat ∧ tget 0 (u.port t).seqCnt f.typ.toNat = g.seq + 1
        ∧ (f.typ = 3 → g.body.take 8 = leBytes 8 s.now.toNat) ∧ (f.typ ≠ 3 → f.typ ≠ 5 → g.body = f.body))))
  ∧ (t.val = 24 → s.time.halted = true → Completes (.tickDnTransmit (.dev t) now) s (fun u => u = s))

/-- R58, R89: a frame that a port receives with a code violation, a format error, a CRC that is not that of its bytes or no room for it is
discarded and counted, under the first of these conditions that it shows (log entry 117), and does nothing else. -/
def Obligations.RxErrors : Prop := ∀ (s : State) (t : Fin 25) (pos : Fin 64) (n : BitVec 4) (q : RxQual), t.val < 24 → s.link t = lkUP →
  let f := mkFrame 13 0 pos q.seq 0 [BitVec.ofNat 8 n.toNat, 0]
  (q.cv ≠ 0 ∨ q.eofx = true ∨ q.fmtOk = false ∨ q.crc ≠ frameCrc f ∨ q.full = true) →
  Completes (.creditReceive t pos n q) s (fun u =>
    u.wrote s (rTTH_ERR t cCVERR :: if q.cv ≠ 0 then [] else
      [rTTH_ERR t (if q.eofx ∨ q.fmtOk = false then cFMTERR else if q.crc ≠ frameCrc f then cCRCERR else cRXDROP)])
    ∧ (q.cv + q.cvBetween < 0xFFFF → s.fget (rTTH_ERR t cCVERR) cntBits = 0 → u.fget (rTTH_ERR t cCVERR) cntBits = q.cv + q.cvBetween))

/-! ### Gondolas -/

/-- R57, R58, R97, R101-R110: a gondola accepts its TICK_DN, executes VECTOR changes and samples, sends TICK_UP, counts missed ticks and goes
silent; a tick frame that waits at a port leaves before any other. -/
def Obligations.GondolaTickRows : Prop := ∀ (s : State) (node : Nat),
  (∀ (addr : Fin 2) (arr : FTime) (seq : BitVec 8) (fixed : BitVec 80) (recs : List (BitVec 128)) (n : Nat),
    n = (if isHome node then (if addr = 1 then homeBal else homeNode) else node) → s.gTicking n = true → (isHome n = true ∨ addr = 0) →
    let a := s.gtime n arr
    let k := s.gTick n a
    let crc := frameCrc (mkFrame 1 0 (if isHome n then addr.val else (s.gpos n).getD 0) seq 0
      (leBytes 10 fixed.toNat ++ recs.flatMap (fun r => leBytes 16 r.toNat)))
    (∀ c ≠ crc, Completes (.gondolaTickDnReceive node addr arr c 0 seq fixed recs) s (fun t => t = s.gcount n gcCRC_OWN))
    ∧ (seq ≠ tickByte k → Completes (.gondolaTickDnReceive node addr arr crc 0 seq fixed recs) s (fun t => t = s.gcount n gcSEQERR))
    ∧ (seq = tickByte k →
      (reached (s.gTickStart n k + BitVec.ofNat 64 (s.gDLN n)) a = false →
        Completes (.gondolaTickDnReceive node addr arr crc 0 seq fixed recs) s (fun t => t = s.gcount n gcLATEDN))
      ∧ (reached (s.gTickStart n k + BitVec.ofNat 64 (s.gDLN n)) a = true →
        (recs.map recCH ≠ s.gDue n k →
          Completes (.gondolaTickDnReceive node addr arr crc 0 seq fixed recs) s (fun t => t = s.gcount n gcSEQERR))
        ∧ (recs.map recCH = s.gDue n k → Completes (.gondolaTickDnReceive node addr arr crc 0 seq fixed recs) s (fun t =>
          (if n = homeBal then (t.gon (baseNode n)).acc1 else (t.gon (baseNode n)).acc0) = some (s.gTickStart n k)
          ∧ (t.gon (baseNode n)).cGrant = min 15 ((s.gon (baseNode n)).cGrant + dnCGRANT fixed)
          ∧ (∃ d, s.gquant n * d ≤ idTAP (s.gident n) * 16 ∧ (t.gon (baseNode n)).applyTime = a + BitVec.ofNat 64 (s.gquant n * d))
          ∧ ((s.gon (baseNode n)).sil = false → ∀ r ∈ recs, ((t.gon n).chan (recCH r)).rec_ = some r))))))
  ∧ (∀ (ch : Fin 16) (second : Bool) (now : FTime) (r : BitVec 128), ((s.gon node).chan ch).rec_ = some r → recKIND r = kVECTOR →
    ((s.gon node).chan ch).nextChange = (if second then 2 else 1) →
    let cmd := ((s.gon node).chan ch).recTk + BitVec.ofNat 64 (if second then vecT2 r else vecT1 r)
    (reached cmd ((s.gon node).chan ch).lastExec = true → reached (s.gtime node now) (nearest (s.gquant node) cmd) = true →
      Completes (.vectorChange node ch second now) s (fun t => ((t.gon node).chan ch).lastExec = nearest (s.gquant node) cmd
        ∧ ((t.gon node).chan ch).nextChange = if second = false ∧ vecNCH r = 2 then 2 else 3))
    ∧ (reached cmd ((s.gon node).chan ch).lastExec = true → reached (s.gtime node now) (nearest (s.gquant node) cmd) = false →
      Completes (.vectorChange node ch second now) s (fun t => t = s))
    ∧ (reached cmd ((s.gon node).chan ch).lastExec = false → reached (s.gtime node now) ((s.gon node).chan ch).lastExec = true →
      Completes (.vectorChange node ch second now) s (fun t => ((t.gon node).chan ch).lastExec = ((s.gon node).chan ch).lastExec
        ∧ ((t.gon node).chan ch).nextChange = if second = false ∧ vecNCH r = 2 then 2 else 3)))
  ∧ (∀ (ch : Fin 16) (now tk : FTime) (ia ib : BitVec 24) (ssi : Option Word), ((s.gon node).chan ch).smpTk = some tk →
    s.gTicking node = true → s.gInPlan node ch = true →
    (1 ≤ ((s.gon node).chan ch).nsmp → (node = homeNode → s.su.calRun = false) → ((s.gon node).chan ch).s1 ≤ idSMAX (s.gident node) →
      reached (s.gtime node now) (nearest (s.gquant node) (tk + BitVec.ofNat 64 (4 * ((s.gon node).chan ch).s1))) = true →
      Completes (.sampleInstant node ch false now ia ib ssi) s (fun t => t = { s with gons := t.gons }
        ∧ ((t.gon node).chan ch).s1ok = true ∧ ((t.gon node).chan ch).ia = ia ∧ ((t.gon node).chan ch).ib = ib
        ∧ ((t.gon node).chan ch).cntS = (match ssi with
          | none => ((s.gon node).chan ch).cnt
          | some w => BitVec.ofNat 32 (w.toNat % 2 ^ s.gSsiBits node ch))))
    ∧ (((s.gon node).chan ch).nsmp = 2 → (node = homeNode → s.su.calRun = false) → ((s.gon node).chan ch).s2 ≤ idSMAX (s.gident node) →
      ((s.gon node).chan ch).s1 + 4 * idTSPC (s.gident node) ≤ ((s.gon node).chan ch).s2 →
      reached (s.gtime node now) (nearest (s.gquant node) (tk + BitVec.ofNat 64 (4 * ((s.gon node).chan ch).s2))) = true →
      Completes (.sampleInstant node ch true now ia ib ssi) s (fun t => t = { s with gons := t.gons }
        ∧ ((t.gon node).chan ch).s2ok = true ∧ ((t.gon node).chan ch).ia = ((s.gon node).chan ch).ia)))
  ∧ (∀ (addr : Fin 2) (now : FTime) (vbus : BitVec 16) (temp : BitVec 8) (n : Nat),
    n = (if isHome node then (if addr = 1 then homeBal else homeNode) else node) → s.gTicking n = true → (isHome n = true ∨ addr = 0) →
    s.gPLAN n ≠ 0 → let k := s.gTick n (s.gtime n now)
    Completes (.gondolaTickUpSend node addr now vbus temp) s (fun t => t = { s with gons := t.gons }
      ∧ ∃ p f, (t.gon (baseNode n)).queue = (s.gon (baseNode n)).queue ++ [ownFrame p f] ∧ f.typ = 2 ∧ f.seq = tickByte k
        ∧ f.body.length = 10 + 16 * (s.gDue n k).length ∧ (t.gon n).missedFlag = false
        ∧ ∀ c ∈ s.gDue n k, ((t.gon n).chan c).ill = false ∧ ((t.gon n).chan c).idx = none ∧ ((t.gon n).chan c).s1ok = false))
  ∧ (∀ (now : FTime), let b := baseNode node; let k := s.gTick b (s.gtime b now)
    s.gTicking b = true → s.gAllDue b k ≠ [] →
    reached (s.gtime b now) (s.gTickStart b k + BitVec.ofNat 64 (s.gDLN b)) = true →
    s.allAccepted b k (s.gTickStart b k) = false → (s.gon b).missTk ≠ some (s.gTickStart b k) →
    Completes (.tickDnDeadline node now) s (fun t => (t.gon b).missRun = (s.gon b).missRun + 1
      ∧ (∀ m ∈ nodesOf b, (t.gon m).missedFlag = true) ∧ (t.gon b).missTk = some (s.gTickStart b k)))
  ∧ (∀ now : FTime, s.gSILN node ≤ (s.gon (baseNode node)).missRun → (s.gon (baseNode node)).sil = false →
    Completes (.streamSilence node now) s (fun t => (t.gon (baseNode node)).sil = true ∧ (t.gon (baseNode node)).silentFlag = true
      ∧ ∀ m ∈ nodesOf (baseNode node), ∀ c < 16, ((t.gon m).chan c).rec_ = none))
  ∧ (∀ (o : OutFrame) (r : List OutFrame) (now : FTime), (s.gon node).queue = o :: r → frameIsTick o.frame = true →
    (isHome node = true ∨ (s.gon node).portUp o.port = true) → Completes (.tickDnTransmit (.gon node o.port) now) s (fun t =>
      t = { s with gons := t.gons } ∧ (t.gon node).queue = r
      ∧ (t.gon node).out = some { o with crc := if o.own then frameCrc o.frame else o.crc })
    ∧ Completes (.nonTickFrameStart (.gon node o.port) now) s (fun t => t = s))

/-- R99, R110, R112, R113, R121, R122, R246: the register space of a gondola, its staged values, its fault forcing, and what G_CLR clears. A
gondola takes an addressed frame only with a position. That G_CLR.SIL also resets the count of consecutive missed ticks is the model's choice
(log entry 120). -/
def Obligations.GondolaConfigRows : Prop := ∀ (s : State) (node : Nat) (tag : BitVec 8) (bc : Bool) (now : FTime), s.gTakes node bc = true →
  (∀ (addr v : Word) (active : BitVec 16), s.gclass node addr.toNat = 0 → addr.toNat ≠ aG_CLR → addr.toNat ≠ aG_ACT_HI →
    Completes (.gondolaCfgWr node bc tag addr [v] active now) s (fun t =>
      (t.gon (regNode node addr.toNat)).greg addr.toNat
        = (s.greg node addr.toNat &&& ~~~(BitVec.ofNat 32 (grw addr.toNat))) ||| (v &&& BitVec.ofNat 32 (grw addr.toNat))
      ∧ (gsh addr.toNat ≠ 0 → (t.gon (regNode node addr.toNat)).gstage addr.toNat = v &&& BitVec.ofNat 32 (gsh addr.toNat))
      ∧ (bc = true → (t.gon (baseNode node)).queue = (s.gon (baseNode node)).queue)
      ∧ (bc = false → ∃ p f, (t.gon (baseNode node)).queue = (s.gon (baseNode node)).queue ++ [ownFrame p f] ∧ f.typ = 0xA ∧ f.tag = tag
          ∧ f.body = [0, 0, 0, 0])))
  ∧ (∀ (addr : Word) (data : List Word) (active : BitVec 16), addr.toNat % 4 ≠ 0 ∨ data = [] ∨ 16 < data.length → bc = false →
    Completes (.gondolaCfgWr node false tag addr data active now) s (fun t => t = s.cfgRsp node tag 3 []))
  ∧ (∀ (addr : Word) (count : BitVec 16), addr.toNat % 4 = 0 → count.toNat % 4 = 0 → 4 ≤ count.toNat → count.toNat ≤ 64 → bc = false →
    (∀ i < count.toNat / 4, s.gclass node (addr.toNat + 4 * i) ≠ 1) → Completes (.gondolaCfgRd node tag addr count) s (fun t =>
      t = { s with gons := t.gons } ∧ ∃ p f, (t.gon (baseNode node)).queue = (s.gon (baseNode node)).queue ++ [ownFrame p f] ∧ f.typ = 0xA
        ∧ f.tag = tag
        ∧ f.body = [0, 0, 0, 0] ++ (List.range (count.toNat / 4)).flatMap (fun i => leBytes 4 (s.gread node (addr.toNat + 4 * i)).toNat)))
  ∧ ((s.gon (baseNode node)).staged = true → (s.gon (baseNode node)).actDue (s.gtime (baseNode node) now) = true →
    Completes (.stagedActivation node now) s (fun t => (t.gon (baseNode node)).staged = false
      ∧ ∀ a ∈ [aG_TPER, aG_TPH_LO, aG_TPH_HI, aG_DLN, aG_QW_W, aG_QW_E, aG_DPROP],
          (t.gon (baseNode node)).greg a = (s.gon (baseNode node)).gstage a))
  ∧ (∀ chans active : BitVec 16,
    (isHome node = false → Completes (.gClrForce node bc tag chans active now) s (fun t => t = { s with gons := t.gons } ∧ ∀ c < 16,
      ((t.gon node).chan c).forced = if chans.getLsbD c ∧ ¬ active.getLsbD c then false else ((s.gon node).chan c).forced))
    ∧ Completes (.gClrForce homeNode bc tag chans active now) s (fun t => t.swLatch = s.swLatch ∧ ∀ i < 4, s.fltLatch i = true →
        (s.fltIn.getLsbD i = false →
          (∃ c < 16, chans.getLsbD c = true ∧ ∃ k < s.gLegs homeNode c, s.fltCovers i (s.homeLeg c k) = true) → t.fltLatch i = false)
        ∧ (s.fltIn.getLsbD i = true → t.fltLatch i = true)))
  ∧ Completes (.gClrSil node bc tag) s (fun t => t = { s with gons := t.gons } ∧ (t.gon (baseNode node)).sil = false
      ∧ (t.gon (baseNode node)).missRun = 0)
  ∧ (s.hasRip node = true → Completes (.gClrRip node bc tag) s (fun t => t = { s with gons := t.gons }
      ∧ (t.gon node).ripLatch = if (s.gon node).rip10 then false else (s.gon node).ripLatch))
  ∧ Completes (.gClrCnt node bc tag) s (fun t => t = { s with gons := t.gons } ∧ ∀ m ∈ nodesOf node,
      ∀ k < 16, (t.gon m).greg (aG_CNT k) = 0 ∧ (t.gon m).greg (aCH_CNT k) = 0)
  ∧ (∀ ch : Fin 16, (isHome node = false → Completes (.faultForcing node ch now) s (fun t => ((t.gon node).chan ch).forced = true
        ∧ t = { s with gons := t.gons } ∧ (∀ m ≠ node, t.gon m = s.gon m)
        ∧ (s.ripOff node = false → ∀ k < s.gLegs node ch, (((t.gon node).chan ch).leg k).last
            = safeLevel (bget (s.greg node (aCH_CFG ch)) ⟨4 + 2 * k, 2⟩))))
      ∧ (isHome node = true → Completes (.faultForcing node ch now) s (fun t => t = s)))

/-- R99, R115, R116: EVENTs of a gondola that has a position: queued by their time, executed at it, late ones at once, and the return of a
pulse. -/
def Obligations.GondolaEventRows : Prop := ∀ (s : State) (node : Nat),
  (∀ (ex now : FTime) (out act : BitVec 8) (pw : BitVec 16) (id : Word), s.gTakes node false = true → out.toNat < idNEVO (s.gident node) →
    (tdiff (s.gtime node now) ex ≤ 0 → (s.gon node).events.length < (if isHome node then 64 else idEVQ (s.gident node)) →
      Completes (.gondolaEventAccept node ex out act pw id now) s (fun t => t = { s with gons := t.gons }
        ∧ (∀ e, e ∈ (t.gon node).events ↔ e ∈ (s.gon node).events ∨ e = { exec := ex, out := out.toNat, act := act.toNat, pw := pw.toNat, id := id })
        ∧ (t.gon node).events.length = (s.gon node).events.length + 1 ∧ (t.gon node).outs = (s.gon node).outs))
    ∧ (0 < tdiff (s.gtime node now) ex → Completes (.gondolaEventAccept node ex out act pw id now) s (fun t => (t.gon node).evLate = true
        ∧ (t.gon node).events = (s.gon node).events
        ∧ ∀ b : Fin 16, b.val = out.toNat → ((act = 0 → (t.gon node).outs.getLsbD b.val = false)
          ∧ (act = 1 → (t.gon node).outs.getLsbD b.val = true)
          ∧ (act = 2 → (t.gon node).outs.getLsbD b.val = !(s.gon node).outs.getLsbD b.val)))))
  ∧ (∀ (now : FTime) (e : GEvent) (r : List GEvent), (s.gon node).events = e :: r →
    reached (s.gtime node now) (nearest (s.gquant node) e.exec) = true →
    Completes (.eventExecute node now) s (fun t => t = { s with gons := t.gons } ∧ (t.gon node).events = r
      ∧ (e.out < 16 → (e.act = 0 → (t.gon node).outs.getLsbD e.out = false)
        ∧ (e.act = 1 ∨ e.act = 3 → (t.gon node).outs.getLsbD e.out = true)
        ∧ (e.act = 2 → (t.gon node).outs.getLsbD e.out = !(s.gon node).outs.getLsbD e.out)
        ∧ (e.act = 3 → ∃ x ∈ (t.gon node).pulses, x = (e.out, nearest (s.gquant node) e.exec + BitVec.ofNat 64 (e.pw * usUnits))))))
  ∧ (∀ (out : Fin 16) (now : FTime), (∃ x ∈ (s.gon node).pulses, x.1 = out.val ∧ reached (s.gtime node now) x.2 = true) →
    Completes (.eventPulseReturn node out now) s (fun t => t = { s with gons := t.gons }
      ∧ ∀ k < 16, (t.gon node).outs.getLsbD k = if k = out.val then false else (s.gon node).outs.getLsbD k))

/-- R57, R64, R65, R68, R72, R73, R77, R82, R83, R97-R99, R117-R119, R123: how a gondola keeps field time, takes its position, forwards,
stores, and starts the frames that are not tick frames. When a firmware image comes into force is the model's choice (log entry 121). -/
def Obligations.GondolaLinkRows : Prop := ∀ (s : State) (node : Nat),
  (∀ (port : GPort) (origin sof : FTime) (corr path : BitVec 64) (ii hops : BitVec 8) (fr : Word) (sc : BitVec 16),
    let loc := s.gtime node sof
    let target := origin + BitVec.ofInt 64 (fix16 (corr + (path + (s.gon node).segDelay)))
    ((s.gon node).timeSeen = true → sc = (s.gon node).stepCnt → (tdiff loc target).natAbs < 16000 →
      Completes (.gondolaTimeReceive node port origin corr path ii fr sc hops sof) s (fun t => t = { s with gons := t.gons }
        ∧ (t.gon node).lastOrigin = origin ∧ (t.gon node).incInt = ii ∧ (t.gon node).incFrac = fr
        ∧ (t.gon node).locRef = loc ∧ (t.gon node).rawRef = sof ∧ (t.gon node).offset = BitVec.ofInt 64 (tdiff loc target)
        ∧ ((t.gon node).slew = -(tdiff loc target) ∨ (t.gon node).slew.natAbs = (origin - (s.gon node).lastOrigin).toNat * 200 / 1000000)
        ∧ ∃ f, f.typ = 3 ∧ f.body = leBytes 8 origin.toNat ++ leBytes 8 corr.toNat ++ leBytes 8 (path + (s.gon node).segDelay).toNat ++ [ii]
              ++ leBytes 4 fr.toNat ++ leBytes 2 sc.toNat ++ [hops + 1]
            ∧ (t.gon node).queue = (s.gon node).queue ++ (s.castPorts node port).map (fun p => ⟨p, false, f, 0, loc⟩)))
    ∧ ((s.gon node).timeSeen = true ∧ sc ≠ (s.gon node).stepCnt ∨ 16000 ≤ (tdiff loc target).natAbs →
      Completes (.gondolaTimeReceive node port origin corr path ii fr sc hops sof) s (fun t => (t.gon node).locRef = target
        ∧ (t.gon node).rawRef = sof ∧ (t.gon node).slew = 0 ∧ (t.gon node).stepCnt = sc
        ∧ (s.gPLAN node ≠ 0 → (t.gon (baseNode node)).sil = true))))
  ∧ (∀ now : FTime, (s.gon node).timeIv ≠ 0 →
    ((4 * (s.gon node).timeIv : Nat) ≤ tdiff (s.gtime node now) (s.gon node).locRef →
      Completes (.gondolaLockLoss node now) s (fun t => t = { s with gons := t.gons } ∧ (t.gon node).lock = false ∧ (t.gon node).goodTimes = 0))
    ∧ (tdiff (s.gtime node now) (s.gon node).locRef < (4 * (s.gon node).timeIv : Nat) →
      Completes (.gondolaLockLoss node now) s (fun t => t = s)))
  ∧ Completes (.gondolaDlyReq node) s (fun t => t = { s with gons := t.gons } ∧ (t.gon node).queue
      = (s.gon node).queue ++ [ownFrame ((s.gon node).serving (s.onRing node)) (mkFrame 4 2 0 0 0 (leBytes 8 0))])
  ∧ (∀ t1 t2 t3 now : FTime, Completes (.gondolaDlyRspReceive node t1 t2 t3 now) s (fun t => t = { s with gons := t.gons }
      ∧ t.gon node = { s.gon node with segDelay := BitVec.ofInt 64 ((tdiff (s.gtime node now) t1 - tdiff t3 t2) * 32768) }
      ∧ ∀ m ≠ node, t.gon m = s.gon m))
  ∧ (∀ (p : GPort) (t1 sof : FTime), p ≠ .up → Completes (.gondolaDlyReqReceive node p t1 sof) s (fun t => t = { s with gons := t.gons }
      ∧ (t.gon node).queue = (s.gon node).queue
          ++ [ownFrame p (mkFrame 5 2 0 0 0 (leBytes 8 t1.toNat ++ leBytes 8 (s.gtime node sof).toNat ++ leBytes 8 0))]))
  ∧ (∀ (next ep : BitVec 8) (attach : Bool) (now : FTime), s.onRing node = false → next.toNat < 64 → (s.gon node).pos = none →
      (s.gon node).portUp .branch = false → (s.gon node).portUp .thru = false →
      Completes (.gondolaEnumReceive node .up next false false attach ep now) s (fun t => t = { s with gons := t.gons }
        ∧ (t.gon node).pos = some (Fin.ofNat 64 next.toNat) ∧ (t.gon node).epoch = ep
        ∧ ∃ f, (t.gon node).queue = (s.gon node).queue ++ [ownFrame .up f, ownFrame .up (enumFrame (next.toNat + 1) true false attach ep)]
          ∧ f.typ = 7 ∧ f.body = s.gident node))
  ∧ (∀ (p : GPort) (next ep : BitVec 8) (attach : Bool) (now : FTime), 64 ≤ next.toNat →
      Completes (.gondolaEnumReceive node p next false false attach ep now) s (fun t =>
        (t.gon node).pos = (if attach = false ∧ ep ≠ (s.gon node).epoch then none else (s.gon node).pos)
        ∧ (isHome node = false → t = { s with gons := t.gons })
        ∧ (t.gon node).queue = (s.gon node).queue ++ [ownFrame p (enumFrame next.toNat true true attach ep)]))
  ∧ (s.gTakes node false = true → ∀ (str : BitVec 8) (last : Bool) (off : Word) (data : List Byte),
      let got := (tget [] (s.gon node).stored str.toNat).take off.toNat ++ data
      Completes (.gondolaBulkReceive node str last off data) s (fun t => t = { s with gons := t.gons }
        ∧ (¬(last = true ∧ str = 0) → tget [] (t.gon node).stored str.toNat = got ∧ (t.gon node).image = (s.gon node).image
            ∧ (t.gon node).firmware = (s.gon node).firmware)
        ∧ (last = true → str = 0 → if s.gPLAN node = 0 then (t.gon node).firmware = got else (t.gon node).image = some got)
        ∧ (s.gPLAN node ≠ 0 → (t.gon node).cRet = min 15 ((s.gon node).cRet + 1) ∧ (t.gon node).queue = (s.gon node).queue)
        ∧ (s.gPLAN node = 0 → (t.gon node).cRet = (s.gon node).cRet
            ∧ ∃ p f, (t.gon node).queue = (s.gon node).queue ++ [ownFrame p f] ∧ f.typ = 13 ∧ f.body = [1, 0])))
  ∧ (∀ (p : GPort) (seg : BitVec 8), p ≠ .branch → s.onRing node = true → Completes (.gondolaBrkReceive node p seg) s (fun t =>
      t = { s with gons := t.gons } ∧ (t.gon node).brk = (s.gon node).brk ++ [(otherPort p, seg)]
        ∧ (t.gon node).serving true = (if (s.gon node).serving true = p then otherPort p else (s.gon node).serving true)))
  ∧ (s.gTakes node false = true → ∀ n : BitVec 4, Completes (.gondolaCreditReceive node n) s (fun t => t = { s with gons := t.gons }
      ∧ t.gon node = { s.gon node with cGrant := min 15 ((s.gon node).cGrant + n.toNat) } ∧ ∀ m ≠ node, t.gon m = s.gon m))
  ∧ (∀ (p : GPort) (f : Frame) (crc : Word) (cv : Nat) (sof : FTime),
      let out := (s.fwdPorts node p f.route.toNat f.addr.toNat).filter (fun q => (s.gon node).portUp q)
      Completes (.gondolaFrameForward node p f crc cv sof) s (fun t => t = { s with gons := t.gons }
        ∧ (t.gon node).queue = (s.gon node).queue ++ out.map (fun q => ⟨q, false, f, crc, s.gtime node sof⟩)
        ∧ (cv = 0 → (t.gon node).regs
            = ((if out ≠ [] ∧ crc ≠ frameCrc f then s.gcount node gcCRC_FWD else s).gon node).regs)))
  ∧ (∀ (o : OutFrame) (r : List OutFrame) (now : FTime), (s.gon node).queue = o :: r → (∀ x ∈ o :: r, frameIsTick x.frame = false) →
    (isHome node = true ∨ (s.gon node).portUp o.port = true) →
    (o.own = true → s.gQuiet node (o.frame.body.length + 14) (s.gtime node now) = true →
      Completes (.nonTickFrameStart (.gon node o.port) now) s (fun t => t = { s with gons := t.gons } ∧ (t.gon node).queue = r
        ∧ ∃ f, (t.gon node).out = some { o with frame := f, crc := frameCrc f } ∧ f.typ = o.frame.typ
          ∧ f.seq = tget 0 (s.gon node).seqCnt f.typ.toNat ∧ tget 0 (t.gon node).seqCnt f.typ.toNat = f.seq + 1))
    ∧ (o.own = false → o.frame.typ ≠ 3 → Completes (.nonTickFrameStart (.gon node o.port) now) s (fun t => t = { s with gons := t.gons }
        ∧ (t.gon node).queue = r ∧ (t.gon node).out = some o))
    ∧ Completes (.tickDnTransmit (.gon node o.port) now) s (fun t => t = s))

/-- R108, R120, R121, R129, R154: the rip input of a gondola, its power stage, and the feedback counters: quadrature by the sequence of its two
inputs, Hall by the sector of its three, the index input by its rising edge. -/
def Obligations.GondolaInputRows : Prop := ∀ (s : State) (node : Nat) (now : FTime),
  (s.hasRip node = true → let at_ := s.gtime node now
    ((s.gon node).ripIn = true → Completes (.ripInputDrop node now) s (fun t => t = { s with gons := t.gons }
      ∧ t.gon node = { s.gon node with ripIn := false, ripOffAt := at_, rip10 := false }))
    ∧ ((s.gon node).ripIn = false → Completes (.ripInputEnergised node now) s (fun t => t = { s with gons := t.gons }
      ∧ t.gon node = { s.gon node with ripIn := true, ripSince := at_ }))
    ∧ ((s.gon node).ripIn = false → (s.gon node).ripLatch = false → 6400000 < tdiff at_ (s.gon node).ripOffAt →
      Completes (.powerStageDisable node now) s (fun t => (t.gon node).ripLatch = true ∧ t = { s with gons := t.gons }
        ∧ ∀ c < 16, ∀ k < s.gLegs node c, (((t.gon node).chan c).leg k).last = 0))
    ∧ ((s.gon node).ripIn = true → 160000000 ≤ tdiff at_ (s.gon node).ripSince →
      Completes (.ripEnergised10ms node now) s (fun t => t = { s with gons := t.gons } ∧ t.gon node = { s.gon node with rip10 := true })))
  ∧ (∀ (ch : Fin 16) (lv : BitVec 3), let old := ((s.gon node).chan ch).levels
    ((s.fbKind node ch ≠ 3 ∧ quadPhase lv = (quadPhase old + 1) % 4
        ∨ s.fbKind node ch = 3 ∧ ∃ x, hallSector old = some x ∧ hallSector lv = some ((x + 1) % 6)) →
      Completes (.quadratureTransition node ch lv now) s (fun t => t = { s with gons := t.gons, regs := t.regs, emuAcc := t.emuAcc }
        ∧ ((t.gon node).chan ch).cnt = ((s.gon node).chan ch).cnt + 1 ∧ ((t.gon node).chan ch).lastTrans = s.gtime node now
        ∧ (node ≠ homeNode ∨ s.fbKind node ch = 3 → t = { s with gons := t.gons })))
    ∧ ((s.fbKind node ch ≠ 3 ∧ quadPhase old = (quadPhase lv + 1) % 4
        ∨ s.fbKind node ch = 3 ∧ ∃ x, hallSector lv = some x ∧ hallSector old = some ((x + 1) % 6)) →
      Completes (.quadratureTransition node ch lv now) s (fun t => t = { s with gons := t.gons, regs := t.regs, emuAcc := t.emuAcc }
        ∧ ((t.gon node).chan ch).cnt = ((s.gon node).chan ch).cnt - 1 ∧ ((t.gon node).chan ch).lastTrans = s.gtime node now))
    ∧ ((s.fbKind node ch ≠ 3 ∧ quadPhase old = (quadPhase lv + 2) % 4 ∨ s.fbKind node ch = 3 ∧ old ≠ lv ∧ hallSector lv = none) →
      Completes (.quadratureTransition node ch lv now) s (fun t => t = { s with gons := t.gons }
        ∧ ((t.gon node).chan ch).ill = true ∧ ((t.gon node).chan ch).cnt = ((s.gon node).chan ch).cnt
        ∧ bget ((t.gon node).greg (aCH_CNT ch)) ⟨0, 16⟩ = min 0xFFFF (bget ((s.gon node).greg (aCH_CNT ch)) ⟨0, 16⟩ + 1))))
  ∧ (∀ ch : Fin 16, Completes (.indexEdge node ch true now) s (fun t => t = { s with gons := t.gons }
        ∧ ((t.gon node).chan ch).levels = ((s.gon node).chan ch).levels ||| 4
        ∧ (((s.gon node).chan ch).idx = none → ((t.gon node).chan ch).idx = some (((s.gon node).chan ch).cnt.setWidth 16))
        ∧ (((s.gon node).chan ch).idx ≠ none → ((t.gon node).chan ch).idx = ((s.gon node).chan ch).idx
          ∧ bget ((t.gon node).greg (aCH_CNT ch)) ⟨16, 8⟩ = min 0xFF (bget ((s.gon node).greg (aCH_CNT ch)) ⟨16, 8⟩ + 1)))
      ∧ Completes (.indexEdge node ch false now) s (fun t => t = { s with gons := t.gons }
        ∧ t.gon node = (s.gon node).updChan ch (fun x => { x with levels := x.levels &&& 3 })))

/-- R229-R239: the start of a carrier, its edges, and its reloads at mid-period and at the period boundary. -/
def Obligations.CarrierRows : Prop := ∀ (s : State) (node : Nat) (ch : Fin 16) (now : FTime),
  (∀ p, ((s.gon node).chan ch).startPend = true → ((s.gon node).chan ch).shadow = some p → s.gTicking node = true →
    reached (s.dueStart node ch (s.gtime node now)) (((s.gon node).chan ch).shadowAt + 1) = true → Completes (.carrierStart node ch now) s (fun t =>
      ((t.gon node).chan ch).startPend = false ∧ ((t.gon node).chan ch).shadow = none
      ∧ ∃ k, ((t.gon node).chan ch).carrier = some k ∧ k.pair = p ∧ k.start = s.dueStart node ch (s.gtime node now) ∧ k.j = 0
        ∧ k.period16 = pairP16 (s.gquant node) p))
  ∧ (∀ (k : Carrier) (leg : Fin 4) (off : Bool) (x : FTime), ((s.gon node).chan ch).carrier = some k →
    (if off then (k.edge leg).2 else (k.edge leg).1) = some x → reached (s.gtime node now) x = true → s.legOver node ch leg = none →
    Completes (.carrierEdge node ch leg off now) s (fun t =>
      (((t.gon node).chan ch).leg leg).last = (if off = false then 2 else if s.legNoLow node ch leg then 0 else 1)
      ∧ ((t.gon node).chan ch).carrier = some (k.dropEdge leg off)))
  ∧ (∀ k : Carrier, ((s.gon node).chan ch).carrier = some k → ((s.gon node).chan ch).shadow = none →
    (pairMid k.pair = true → k.midDone = false → come (s.gtime node now) (k.base16 + k.period16 / 2) = true →
      Completes (.carrierReload node ch now) s (fun t => t = { s with gons := t.gons }
        ∧ ((t.gon node).chan ch).carrier = some { k with midDone := true }))
    ∧ (pairMid k.pair = false ∨ k.midDone = true → come (s.gtime node now) k.end16 = true → Completes (.carrierReload node ch now) s (fun t =>
        ∃ k', ((t.gon node).chan ch).carrier = some k' ∧ k'.pair = k.pair ∧ k'.j = k.j + 1 ∧ k'.midDone = false
          ∧ k'.start = BitVec.ofNat 64 (k.end16 / 16) ∧ k'.startFr = k.end16 % 16)))

/-! ### Axes -/

/-- R181, R184: a request of AXC_An_CMD waits for the axis's next tick boundary, and writes nothing else. -/
def Obligations.AxisRequestRows : Prop := ∀ (s : State) (via : RegPath) (n : Fin 256), s.p8Denied via (rAXC_CMD n) = false →
  (∀ c r, (c, r) ∈ [(Instr.arm via n, Req.arm), (.enable via n, .enable), (.disable via n, .disable), (.test via n, .test), (.fclr via n, .fclr)] →
    Completes c s (fun t => t = { s with regs := t.regs, axes := t.axes } ∧ (∀ o, o ≠ rAXC_CMD n → t.rget o = s.rget o)
      ∧ (t.ax n).causes = (s.ax n).causes ++ [.req r none] ∧ ∀ m ≠ n.val, t.ax m = s.ax m))

/-- R140, R144, R182-R186: at its tick boundary an axis takes its causes: ARM from OFF, DISABLE from ARMED, a rip loss in an energised
state, the end of its place in the plan, and a shift of its position; a boundary that it has passed does nothing more. -/
def Obligations.AxisBoundaryRows : Prop := ∀ (s : State) (n : Fin 256),
  ((s.ax n).bAt = some (s.axTickStart n) ∨ s.time.halted = true → Completes (.axisTickBoundary n) s (fun t => t = s))
  ∧ ((s.ax n).bAt ≠ some (s.axTickStart n) → s.time.halted = false →
    ((s.ax n).setPos = none → (s.ax n).idxShift = none →
      (s.axState n = xOFF → (s.ax n).causes = [.req .arm none] → s.inPlan n = true → s.axPresent n = true → s.axLock n = true →
        Completes (.axisTickBoundary n) s (fun t => t.axState n = xARMED ∧ t.fget (rAXC_STATE n) fAXC_STATE_PREV = xOFF
          ∧ (t.ax n).causes = [] ∧ (t.ax n).bAt = some (s.axTickStart n)))
      ∧ (s.axState n = xOFF → (s.ax n).causes = [.req .arm none] → s.inPlan n = false →
        Completes (.axisTickBoundary n) s (fun t => t.axState n = xOFF ∧ t.flag (rAXC_STAT n) fAXC_STAT_REFUSED = true
          ∧ (t.ax n).causes = []))
      ∧ (s.axState n = xARMED → (s.ax n).causes = [.req .disable none] → s.levels n = [] →
        Completes (.axisTickBoundary n) s (fun t => t.axState n = xOFF ∧ t.fget (rAXC_STATE n) fAXC_STATE_PREV = xARMED
          ∧ (t.ax n).causes = []))
      ∧ (s.axState n = xARMED → (s.ax n).causes = [.done 7] → s.levels n = [] → s.inPlan n = false →
        Completes (.axisTickBoundary n) s (fun t => t.axState n = xOFF ∧ t.fget (rAXC_STATE n) fAXC_STATE_PREV = xARMED
          ∧ (t.ax n).causes = []))
      ∧ (s.axType n ≠ tyVX → s.axState n = xREADY ∨ s.axState n = xRUN → (s.ax n).causes = [] → s.powered n = false →
        fcRIPLOSS ∉ (s.ax n).lev → s.fget (rAXC_STATE n) fAXC_STATE_FCAUSE = 0 → Completes (.axisTickBoundary n) s (fun t =>
          t.axState n = xFAULT ∧ t.fget (rAXC_STATE n) fAXC_STATE_FCAUSE = fcRIPLOSS ∧ t.flag (rAXC_STATE n) fAXC_STATE_NOPWR = true)))
    ∧ ((s.ax n).setPos ≠ none ∨ (s.ax n).idxShift ≠ none → (s.ax n).causes = [] → s.axState n = xOFF →
      Completes (.axisTickBoundary n) s (fun t => (t.ax n).setPos = none ∧ (t.ax n).idxShift = none
        ∧ t.flag (rFBK_STAT n) fFBK_STAT_SHIFT_PEND = false ∧ t.axState n = xOFF)))

/-- R147, R153, R209, R216-R222, R278: the events of the loops of an axis: losses, stages, catch, alignment and test. -/
def Obligations.AxisEventRows : Prop := ∀ (s : State) (n : Fin 256),
  (s.axType n = tyTQ →
    (lawState (s.axState n) = true → s.reacting n = false → max 1 (s.wfld (rTQ_CFG n) fTQ_CFG_LOSSN) ≤ (s.ax n).lossRun →
      Completes (.observerLoss n) s (fun t => t.flag (rTQ_STAT n) fTQ_STAT_LOSS = true ∧ (t.ax n).lossRun = 0 ∧ t.reacting n = true))
    ∧ (lawState (s.axState n) = true → max 1 (s.wfld (rTQ_CFG n) fTQ_CFG_SKIPMAX) ≤ s.fget (rTQ_LIVE n) fTQ_LIVE_SKIPRUN →
      .fault fcSKIPMAX false ∉ (s.ax n).causes → Completes (.skipmax n) s (fun t => t = { s with axes := t.axes }
        ∧ t.ax n = { s.ax n with causes := (s.ax n).causes ++ [.fault fcSKIPMAX false] }))
    ∧ (s.lstage n = lsSHORT → s.singleShunt n = true → s.angSrc n = 2 →
      reached s.now (afterMs (s.ax n).stageAt (max 1 (s.wfld (rTQ_CATCH2 n) fTQ_CATCH2_ASCT))) = true →
      Completes (.shortTimeout n) s (fun t => t = { s with axes := t.axes } ∧ t.ax n = { s.ax n with react := lsOFF }))
    ∧ (s.axState n = xCATCH → s.lstage n = lsOFF → s.fget (rTQ_LIVE n) fTQ_LIVE_CATT < 3 →
      reached s.now (afterMs (s.ax n).stageAt (max 1 (s.wfld (rTQ_CATCH2 n) fTQ_CATCH2_CWAIT))) = true →
      Completes (.catchRetry n) s (fun t => t.wrote { s with axes := t.axes } [rTQ_LIVE n] ∧ t.lstage n = lsZERO ∧ (t.ax n).stageAt = s.now))
    ∧ (s.axState n = xCATCH → s.fget (rTQ_LIVE n) fTQ_LIVE_CATT = 3 → .fault fcOBSLOSS false ∉ (s.ax n).causes →
      Completes (.catchThirdFailure n) s (fun t => t = { s with axes := t.axes }
        ∧ t.ax n = { s.ax n with causes := (s.ax n).causes ++ [.fault fcOBSLOSS false] }))
    ∧ (∀ x0, s.axState n = xALIGN → (s.ax n).mot.holdX = some x0 → .done 1 ∉ (s.ax n).causes →
      reached s.now (afterMs (s.ax n).stageAt (s.alignMs n)) = true →
      (s.holdStood n x0 = true →
        (s.angSrc n ≠ 0 → Completes (.alignStepEnd n) s (fun t => (t.ax n).causes = (s.ax n).causes ++ [.done 1]
          ∧ t.flag (rAXC_STATE n) fAXC_STATE_ANGVAL = true ∧ t.axState n = xALIGN ∧ (t.ax n).mot.wPll = 0
          ∧ (t.ax n).mot.thPll = (s.alignAngle n).toNat))
        ∧ (s.angSrc n = 0 → (s.ax n).alignStep = 0 → Completes (.alignStepEnd n) s (fun t => t = { s with axes := t.axes }
          ∧ t.ax n = { s.ax n with alignStep := 1, stageAt := s.now, mot := { (s.ax n).mot with holdX := none, stepX := (s.ax n).x } }))
        ∧ (s.angSrc n = 0 → (s.ax n).alignStep ≠ 0 → s.stepMoved n ((s.ax n).x - (s.ax n).mot.stepX).toInt = true →
          Completes (.alignStepEnd n) s (fun t => (t.ax n).causes = (s.ax n).causes ++ [.done 1]
            ∧ t.flag (rAXC_STATE n) fAXC_STATE_ANGVAL = true
            ∧ t.wfld (rTQ_ANGOFF n) fTQ_ANGOFF_ANGOFF = s.angoffFor n (s.alignAngle n / 65536))))
      ∧ (s.holdStood n x0 = false ∨ s.angSrc n = 0 ∧ (s.ax n).alignStep ≠ 0
            ∧ s.stepMoved n ((s.ax n).x - (s.ax n).mot.stepX).toInt = false →
          Completes (.alignStepEnd n) s (fun t => t = { s with axes := t.axes }
            ∧ t.ax n = { s.ax n with causes := (s.ax n).causes ++ [.fault fcALIGN false] })))
    ∧ (s.axState n = xTEST → reached s.now (afterMs (s.ax n).stageAt (max 1 (s.wfld (rTQ_TST n) fTQ_TST_TT))) = true →
      Completes (.testEnd n) s (fun t => t = { s with axes := t.axes } ∧ t.ax n = { s.ax n with causes := (s.ax n).causes ++ [.done 3] })))
  ∧ (s.axType n = tyST → s.axState n = xALIGN → .done 1 ∉ (s.ax n).causes → s.fbOwn n = true →
      reached s.now (afterMs (s.ax n).stageAt (s.wfld (rST_ALIGN n) fST_ALIGN_SARAMP + s.wfld (rST_ALIGN n) fST_ALIGN_SAHOLD)) = true →
      Completes (.stAlignEnd n) s (fun t => t = { s with axes := t.axes } ∧ t.ax n = { s.ax n with causes := (s.ax n).causes ++ [.done 1] }))
  ∧ (∀ h r, (s.ax n).hist = h :: r → (s.ax n).moved = false → ((s.wfld (rFBK_SPD n) fFBK_SPD_STILL * 16000000 : Nat) : Int) ≤ tdiff (s.ax n).ts h.1 →
      Completes (.speedStandstill n) s (fun t => t.wrote { s with axes := t.axes } [rFBK_STAT n] ∧ t.flag (rFBK_STAT n) fFBK_STAT_STILL = true
        ∧ t.ax n = { s.ax n with spd := 0, hist := [] }))
  ∧ (max 1 (s.wfld (rFBK_SSI n) fFBK_SSI_ERRN) ≤ (s.ax n).ssiRun → Completes (.ssiErrorFault n) s (fun t => t = { s with axes := t.axes }
      ∧ t.ax n = { s.ax n with causes := (s.ax n).causes ++ [.fault fcSSI false] }))

/-- R257, R268, R271, R275, R277: arrivals, the engagement of a gear, the switch of a cam, a stale remote master, the hold current. -/
def Obligations.ProfileEventRows : Prop := ∀ (s : State) (n : Fin 256),
  ((s.ax n).gen.src = .move → (s.ax n).gen.arrived = false → reached s.now (s.ax n).gen.tArr = true →
    Completes (.moveArrival n) s (fun t => (t.ax n).gen.src = .rest ∧ (t.ax n).gen.arrived = true ∧ t.now = s.now
      ∧ ∀ m ≠ n.val, t.ax m = s.ax m))
  ∧ ((s.ax n).gen.src = .velocity → (s.ax n).gen.arrived = false → reached s.now (s.ax n).gen.tArr = true →
    Completes (.moveArrival n) s (fun t => (t.ax n).gen.src = .velocity ∧ (t.ax n).gen.arrived = true ∧ ∀ m ≠ n.val, t.ax m = s.ax m))
  ∧ (∀ b, (s.ax n).gen.brArm = some b → let m := s.masterAt b (s.axTickStart n)
    (crossed b.mlast.toInt (masterStep b.mlast.toInt m.1 m.2.2) b.mpos.toInt b.dir m.2.2 = true →
      Completes (.gearEngage n) s (fun t => (t.ax n).gen.br.engaged = true ∧ (t.ax n).gen.brArm = none
        ∧ ((s.ax n).gen.br.engaged = false → (t.ax n).gen.src = .bridle ∧ t.flag (rPRF_STAT n) fPRF_STAT_ENGAGED = true)
        ∧ ((s.ax n).gen.br.engaged = true → (t.ax n).gen.src = (s.ax n).gen.src ∧ (t.ax n).gen.br.cam = (s.ax n).gen.br.cam)))
    ∧ (crossed b.mlast.toInt (masterStep b.mlast.toInt m.1 m.2.2) b.mpos.toInt b.dir m.2.2 = false →
      Completes (.gearEngage n) s (fun t => t = { s with axes := t.axes }
        ∧ (t.ax n).gen.brArm = some { b with mlast := BitVec.ofInt 64 m.1 })))
  ∧ (∀ c c', (s.ax n).gen.br.cam = some c → (s.ax n).gen.br.camNext = some c' →
    (s.brAdvance (s.ax n).gen.br (s.axTickStart n)).1.camU / max 1 (s.camLen c) ≠ (s.ax n).gen.br.camK →
    Completes (.camCycleSwitch n) s (fun t => (t.ax n).gen.br.cam = some c' ∧ (t.ax n).gen.br.camNext = none
      ∧ t.wrote { s with axes := t.axes } [rLPE_CAM_CTL c] ∧ ∀ m ≠ n.val, t.ax m = s.ax m))
  ∧ (∀ r : Fin 16, (s.rmSlot r).valid = true → s.flag (rLPE_RM_STAT r) fLPE_RM_STAT_STALE = false →
    (s.rmAge r : Int) < tdiff s.now (s.rmSlot r).t → Completes (.remoteMasterStale r) s (fun t =>
      t.flag (rLPE_RM_STAT r) fLPE_RM_STAT_STALE = true ∧ t.axes = s.axes
      ∧ ∀ m ∈ s.rmSlaves r, t.flag (rPRF_STAT m) fPRF_STAT_MSTALE = true))
  ∧ (s.axType n = tyST → s.flag (rPRF_STAT n) fPRF_STAT_HOLDI = false → (s.spAt n s.now).2 = (0, 0) → (s.ax n).gen.vset = 0 →
    (s.ax n).gen.aset = 0 → ((max 1 (s.wfld (rST_I n) fST_I_HDELAY) * 16000000 : Nat) : Int) ≤ tdiff s.now (s.ax n).gen.restAt →
    Completes (.holdCurrentReduce n) s (fun t => t.flag (rPRF_STAT n) fPRF_STAT_HOLDI = true ∧ (t.ax n).restAt = s.now
      ∧ t.wrote { s with axes := t.axes } [rPRF_STAT n, rFBK_STAT n]))

/-! ### Home gondola, bus energy, direct commands and masters -/

/-- R225, R245-R247, R315, R316: the fault inputs and the software force latch, a test pair, and the ballast faults. -/
def Obligations.HomeAndBusRows : Prop := ∀ (s : State) (via : RegPath),
  (∀ i : Fin 4, Completes (.faultInputLatch i) s (fun t => t.fltIn.getLsbD i.val = true ∧ t.swLatch = s.swLatch
      ∧ ∀ k < 4, t.fltLatch k = (s.fltLatch k || k == i.val)))
  ∧ (s.p8Denied via rPGN_FLT_CMD = false →
    (∀ (i : Fin 4) (live : BitVec 4),
      (live.getLsbD i.val = false → Completes (.fltClr via i live) s (fun t => t.fltIn = live
        ∧ ∀ k < 4, t.fltLatch k = (s.fltLatch k && k != i.val)))
      ∧ (live.getLsbD i.val = true → Completes (.fltClr via i live) s (fun t => t.flag rPGN_HSTAT fPGN_HSTAT_CLRREF = true
        ∧ ∀ k < 4, t.fltLatch k = s.fltLatch k)))
    ∧ Completes (.swset via) s (fun t => t.swLatch = true ∧ ∀ k < 4, t.fltLatch k = s.fltLatch k)
    ∧ Completes (.swclr via) s (fun t => t.swLatch = false ∧ (∀ k < 4, t.fltLatch k = s.fltLatch k) ∧ t.gons = s.gons))
  ∧ (∀ (n : Fin 256) (v : Word), s.p8Denied via (rPGN_TCTL n) = false →
    (s.axState n = xTEST → Completes (.testPairPush via n v) s (fun t => t.flag (rPGN_STAT n) fPGN_STAT_TPPEND = true
      ∧ (t.ax n).testNew = true ∧ (∃ p, (t.ax n).test = some p ∧ p.length = 6) ∧ t.wrote { s with axes := t.axes } [rPGN_TCTL n, rPGN_STAT n]))
    ∧ (s.axState n ≠ xTEST → Completes (.testPairPush via n v) s (fun t => t.flag (rPGN_STAT n) fPGN_STAT_TPREF = true
      ∧ t.wrote s [rPGN_TCTL n, rPGN_STAT n])))
  ∧ (∀ b : Fin 32, s.p8Denied via (rBUS_G_CMD b) = false → s.balFlt b = true → s.fget (rBUS_G_STAT b) fBUS_G_STAT_BFCAUSE ≠ 3 →
    (s.fget (rBUS_G_LIVE b) fBUS_G_LIVE_VBUS < s.vOn b → Completes (.busFclr via b) s (fun t => t.balFlt b = false
      ∧ t.fget (rBUS_G_STAT b) fBUS_G_STAT_BFCAUSE = 0 ∧ (t.bg b).nocur = 0 ∧ (t.bg b).rise = 0
      ∧ t.wrote { s with bus := t.bus } [rBUS_G_CMD b, rBUS_G_STAT b]))
    ∧ (s.vOn b ≤ s.fget (rBUS_G_LIVE b) fBUS_G_LIVE_VBUS → Completes (.busFclr via b) s (fun t => t.balFlt b = true
      ∧ t.flag (rBUS_G_STAT b) fBUS_G_STAT_CLRREF = true ∧ t.wrote { s with bus := t.bus } [rBUS_G_CMD b, rBUS_G_STAT b])))
  ∧ (∀ (b : Fin 32) (c : Nat), s.busOn b = true → s.balCauseNow b = some c → s.balFlt b = false → s.senseLost b = false →
    Completes (.ballastFault b) s (fun t => t.balFlt b = true ∧ t.fget (rBUS_G_STAT b) fBUS_G_STAT_BFCAUSE = c
      ∧ t.posted { s with axes := t.axes } [rBUS_G_STAT b, rBUS_G_CNT b 0]))

/-- R421, R422, R424-R426: the build of the acceptance table ends. A direct command runs when the lookup of its frame starts its entry
and the frame's data admit it, and posts its event. With the right a STOP and a REQ reach their axes, SECT suspends and resumes row
groups, and FOUT commands outputs; without it the command is denied and counted. Any other frame leaves the state as it is. -/
def Obligations.DirectCommandRows : Prop := ∀ s : State,
  Completes .canTableBuildComplete s (fun t => if s.flag rPLAN_CAN_STAT fPLAN_CAN_STAT_BUILD then
      t.flag rPLAN_CAN_STAT fPLAN_CAN_STAT_BUILD = false ∧ t.wrote s [rPLAN_CAN_STAT]
        ∧ t.flag rPLAN_CAN_STAT fPLAN_CAN_STAT_OVFULL
          = (decide (canOverflow < overflowUse s.rget) || s.flag rPLAN_CAN_STAT fPLAN_CAN_STAT_OVFULL)
    else t = s)
  ∧ ∀ (c : Fin 4) (k : Fin 64) (id : BitVec 29) (ide : Bool) (data : List Byte),
    let p := 2 + c.val
    let runs := fun a => s.runsDirect c k id ide data ∧ s.dcA k fPLAN_DC_A_ACTION = a
    let sections := ∀ i < 16, ∀ g ∈ s.dcGroups k i, s.permAll p pmCMP (s.rowGroup g) = true
    let outputs := ∀ i < 16, s.dcState k data i < 2 → s.foutOK p i = true
    let other := fun (i : Instr) (a : Nat) (right : Prop) =>
      (¬ runs a → Completes i s (fun t => t = s))
      ∧ (runs a → ¬ right → Completes i s (fun t => t = (s.count (rPLAN_P_DENY p)).dcEvent s c k id stDENIED))
    other (.dcmdStop c k id ide data) dcSTOP (s.permAll p pmSTOP (s.dcScope p k) = true)
    ∧ other (.dcmdReq c k id ide data) dcREQ (s.reqsOK p (s.dcB k fPLAN_DC_B_TGT) (s.dcA k fPLAN_DC_A_KIND) = true)
    ∧ other (.dcmdSect c k id ide data) dcSECT sections ∧ other (.dcmdFout c k id ide data) dcFOUT outputs
    ∧ (runs dcSTOP → s.permAll p pmSTOP (s.dcScope p k) = true →
      (s.dcA k fPLAN_DC_A_KIND = 1 ∨ s.dcA k fPLAN_DC_A_KIND = 2 → Completes (.dcmdStop c k id ide data) s (fun t => ∃ u : State,
        t = u.dcEvent s c k id stOK ∧ u = { s with axes := u.axes } ∧ ∀ n, if n ∈ s.dcScope p k then
          .stop (s.dcA k fPLAN_DC_A_KIND) none ∈ (u.ax n).causes ∧ u.ax n = { s.ax n with causes := (u.ax n).causes } else u.ax n = s.ax n))
      ∧ (s.dcA k fPLAN_DC_A_KIND ≠ 1 → s.dcA k fPLAN_DC_A_KIND ≠ 2 →
        Completes (.dcmdStop c k id ide data) s (fun t => t = s.dcEvent s c k id stFORMAT)))
    ∧ (runs dcREQ → s.reqsOK p (s.dcB k fPLAN_DC_B_TGT) (s.dcA k fPLAN_DC_A_KIND) = true →
      Completes (.dcmdReq c k id ide data) s (fun t => ∃ u : State, t = u.dcEvent s c k id stOK ∧ u = { s with axes := u.axes }
        ∧ ∀ n, u.ax n = if n = s.dcB k fPLAN_DC_B_TGT then
            { s.ax n with causes := (s.ax n).causes ++ (reqsOf (s.dcA k fPLAN_DC_A_KIND)).map (fun r => .req r none) } else s.ax n))
    ∧ (runs dcSECT → sections → Completes (.dcmdSect c k id ide data) s (fun t => ∃ u : State, t = u.dcEvent s c k id stOK
        ∧ ∀ i < 16, ∀ g ∈ s.dcGroups k i, (s.dcState k data i = 0 → u.flag (rCMP_RG g) fCMP_RG_SUSP = true)
          ∧ (s.dcState k data i = 1 → u.flag (rCMP_RG g) fCMP_RG_SUSP = false)
          ∧ (2 ≤ s.dcState k data i → u.flag (rCMP_RG g) fCMP_RG_SUSP = s.flag (rCMP_RG g) fCMP_RG_SUSP)))
    ∧ (runs dcFOUT → outputs → Completes (.dcmdFout c k id ide data) s (fun t => ∃ u : State, t = u.dcEvent s c k id stOK
        ∧ ∀ i < 16, u.foutCmd i = match s.dcState k data i with
          | 0 => false
          | 1 => true
          | _ => s.foutCmd i))

/-- R271, R272, R413: a remote master's message for an enabled slot is taken if it is the newer, counted if it is not, and denied where
the port lacks the right; and a published message is queued. -/
def Obligations.MasterRows : Prop := ∀ s : State,
  (∀ (port : Fin 2) (mid : Word) (x : FTime) (p v : BitVec 64) (r : Fin 16),
    (∀ k : Fin 16, s.flag (rLPE_RM_CFG k) fLPE_RM_CFG_EN = true ∧ s.rget (rLPE_RM_ID k) = mid ↔ k = r) →
    (s.rmOK (6 + port.val) r = true →
      ((s.rmSlot r).valid = false ∨ 0 < tdiff x (s.rmSlot r).t → Completes (.masterMessage port mid x p v) s (fun t =>
        t.rmSlot r = { valid := true, t := x, p := p, v := velIn v } ∧ t.flag (rLPE_RM_STAT r) fLPE_RM_STAT_STALE = false
        ∧ t.wrote { s with rm := t.rm } [rLPE_RM_STAT r] ∧ ∀ k ≠ r.val, t.rmSlot k = s.rmSlot k))
      ∧ ((s.rmSlot r).valid = true → tdiff x (s.rmSlot r).t ≤ 0 →
        Completes (.masterMessage port mid x p v) s (fun t => t = s.count (rLPE_RM_STAT r))))
    ∧ (s.rmOK (6 + port.val) r = false →
      Completes (.masterMessage port mid x p v) s (fun t => t = s.count (rPLAN_P_DENY (6 + port.val)))))
  ∧ (∀ q : Fin 16, s.flag (rLPE_PUB_CFG q) fLPE_PUB_CFG_EN = true →
    divides (s.fget (rLPE_PUB_CFG q) fLPE_PUB_CFG_DIV + 1) (s.axTick (s.fget (rLPE_PUB_CFG q) fLPE_PUB_CFG_AXIS)) = true →
    s.txq_ (s.fget (rLPE_PUB_CFG q) fLPE_PUB_CFG_PORT) = [] →
    Completes (.publishMaster q) s (fun t => t = { s with txq := t.txq }
      ∧ ∃ i, t.txq_ (s.fget (rLPE_PUB_CFG q) fLPE_PUB_CFG_PORT) = [i] ∧ i.q = none ∧ i.data.length = 48
        ∧ (i.data.drop 16).take 4 = leBytes 4 (s.rget (rLPE_PUB_ID q)).toNat))

/-! ### Field inputs and outputs -/

/-- R485-R488: a word of an input's coupler, the acceptance of a level after the debounce time, and the coupler's failure and return. -/
def Obligations.FieldInputRows : Prop := ∀ (s : State) (n : Fin 32),
  (∀ lv, s.finHeard = true → s.finCpl n = false → (s.fin_ n).run = none →
    ((s.fin_ n).raw ≠ lv → (s.fin_ n).filt ≠ lv → Completes (.finRawEdge n lv) s (fun t => t.wrote { s with fins := t.fins } [rFIO_INRAW]
      ∧ t.fin_ n = { s.fin_ n with raw := lv, word := s.now - 5760, run := some (s.now - 5760) } ∧ t.flag rFIO_INRAW ⟨n.val, 1⟩ = lv))
    ∧ ((s.fin_ n).raw = lv → Completes (.finRawEdge n lv) s (fun t => t.wrote { s with fins := t.fins } [rFIO_INRAW]
      ∧ t.fin_ n = { s.fin_ n with word := s.now - 5760 } ∧ t.flag rFIO_INRAW ⟨n.val, 1⟩ = lv)))
  ∧ (∀ x, s.coreClock = true → (s.fin_ n).run = some x → reached s.now (x + s.finDeb n) = true → Completes (.finEdgeAccept n) s (fun t =>
      (t.fin_ n).filt = (s.fin_ n).raw ∧ (t.fin_ n).run = none ∧ t.flag rFIO_IN ⟨n.val, 1⟩ = (s.fin_ n).raw
      ∧ t.fget (rFIO_FIN_STAT n) fFIO_FIN_STAT_ACC = (s.fget (rFIO_FIN_STAT n) fFIO_FIN_STAT_ACC + 1) % 65536
      ∧ (if (s.fin_ n).raw then (t.fin_ n).lastRise else (t.fin_ n).lastFall) = x))
  ∧ (∀ x, (s.fin_ n).run = some x → reached s.now (x + s.finDeb n) = false → Completes (.finEdgeAccept n) s (fun t => t = s))
  ∧ (s.coreClock = true → s.finCpl n = false → Completes (.finCouplerError n) s (fun t => t.finCpl n = true ∧ (t.fin_ n).filt = false
      ∧ (t.fin_ n).run = none
      ∧ ((s.fin_ n).filt = true → (t.fin_ n).lastFall = (s.fin_ n).word ∧ t.flag rFIO_IN ⟨n.val, 1⟩ = false)))
  ∧ (∀ lv, s.finHeard = true → s.finCpl n = true → ∀ i ∈ [Instr.finCouplerRestore n lv, .finRawEdge n lv],
      Completes i s (fun t => t.finCpl n = false ∧ (t.fin_ n).raw = lv ∧ (t.fin_ n).word = s.now - 5760
        ∧ t.flag rFIO_INRAW ⟨n.val, 1⟩ = lv))

/-- R489-R494: the commanded state of an output, its switch, silence, thermal shutdown, current limit and open load. -/
def Obligations.FieldOutputRows : Prop := ∀ (s : State),
  (∀ (via : RegPath) (v : Word), s.p8Denied via rFIO_FOUT = false → Completes (.foutWrite via v) s (fun t => ∀ k < 16,
    t.foutCmd k = (if v.getLsbD (16 + k) then v.getLsbD k else s.foutCmd k)
    ∧ (v.getLsbD (16 + k) = true → (t.fout k).pulse = none ∧ (t.fout k).on_ = t.foutWants k)))
  ∧ (∀ (via : RegPath) (m : BitVec 16), s.p8Denied via rFIO_CMD = false → s.fieldUp = true → Completes (.silclr via m) s (fun t =>
      ∀ k < 16, m.getLsbD k = true → (s.fout k).sil = true →
        (t.fout k).sil = (if (s.fout k).words then false else true)
        ∧ ((s.fout k).words = false → t.flag rFIO_STAT fFIO_STAT_CLRREF = true)))
  ∧ (∀ (via : RegPath) (m hot : BitVec 16), s.p8Denied via rFIO_CMD = false → Completes (.tclr via m hot) s (fun t =>
      ∀ k < 16, m.getLsbD k = true → (s.fout k).tsd = true → s.wflag (rFIO_FOUT_CFG k) fFIO_FOUT_CFG_TSDM = false →
        (t.fout k).tsd = hot.getLsbD k ∧ (hot.getLsbD k = true → t.flag rFIO_STAT fFIO_STAT_CLRREF = true)))
  ∧ (∀ k : Fin 16,
    (∀ x, s.coreClock = true → (s.fout k).pulse = some x → reached s.now x = true → Completes (.foutPulseClear k) s (fun t => t.foutCmd k = false
      ∧ (t.fout k).pulse = none ∧ t.wrote { s with fouts := t.fouts } [rFIO_FOUT, rFIO_FOUTST, rFIO_FOUT_STAT k]))
    ∧ (s.shellRuns = true → s.fieldUp = true → Completes (.foutRefresh k) s (fun t => (t.fout k).words = true
      ∧ (t.fout k).on_ = s.foutWants k ∧ t.flag rFIO_FOUTST ⟨k.val, 1⟩ = s.foutWants k
      ∧ t.wrote { s with fouts := t.fouts } [rFIO_FOUTST, rFIO_FOUT_STAT k]))
    ∧ (s.fieldUp = true → (s.fout k).sil = false → Completes (.foutSilence k) s (fun t => (t.fout k).sil = true
      ∧ (t.fout k).words = false ∧ t.flag rFIO_FOUTST ⟨16 + k.val, 1⟩ = true ∧ t.foutCmd k = s.foutCmd k
      ∧ ((s.fout k).tsd = false → (t.fout k).on_ = match s.wfld (rFIO_FOUT_CFG k) fFIO_FOUT_CFG_SAFE with
          | 1 => true
          | 2 => (s.fout k).on_
          | _ => false)))
    ∧ (s.fieldUp = true → (s.fout k).tsd = false → Completes (.thermalShutdown k) s (fun t => (t.fout k).tsd = true ∧ (t.fout k).on_ = false
      ∧ (t.fout k).shutAt = s.now ∧ t.flag (rFIO_FOUT_STAT k) fFIO_FOUT_STAT_TSD = true ∧ t.foutCmd k = s.foutCmd k))
    ∧ ((s.fout k).tsd = true → s.wflag (rFIO_FOUT_CFG k) fFIO_FOUT_CFG_TSDM = true →
      reached s.now ((s.fout k).shutAt + BitVec.ofNat 64 160000000) = true → Completes (.thermalRetry k) s (fun t =>
        (t.fout k).tsd = false ∧ (t.fout k).on_ = t.foutWants k ∧ t.wrote { s with fouts := t.fouts } [rFIO_FOUTST, rFIO_FOUT_STAT k]))
    ∧ (s.fieldUp = true → (s.fout k).on_ = false → s.wflag (rFIO_FOUT_CFG k) fFIO_FOUT_CFG_OLDEN = true →
      s.flag (rFIO_FOUT_STAT k) fFIO_FOUT_STAT_OPENL = false → Completes (.openLoad k) s (fun t =>
        t.flag (rFIO_FOUT_STAT k) fFIO_FOUT_STAT_OPENL = true ∧ t.posted s [rFIO_FOUT_STAT k]))
    ∧ ((s.fout k).on_ = true → Completes (.foutCurrentLimit k) s (fun t => t.flag (rFIO_FOUT_STAT k) fFIO_FOUT_STAT_ILIM = true
      ∧ t.flag (rFIO_FOUT_STAT k) fFIO_FOUT_STAT_ILIMSEEN = true ∧ t.wrote s [rFIO_FOUT_STAT k])))
  ∧ (s.fieldUp = false → Completes .fieldDieRestore s (fun t => t.fieldUp = true ∧ t.flag rFIO_STAT fFIO_STAT_FLDRST = true
      ∧ t.posted s [rFIO_STAT]))

/-! ### Compare and latch -/

/-- R285, R288, R290, R293, R296, R299: a compare entry falls due, acts at its fire time, expires, or is resumed with its row group. -/
def Obligations.CompareRows : Prop := ∀ (s : State) (i : Fin 16384),
  ((s.ce i).st = .armed → (s.ce i).susp = false → s.time.halted = false →
    ((s.ce i).trig = trTIME → reached s.now ((s.ce i).key - BitVec.ofNat 64 (s.cmpLead (s.ce i) + s.cycles16)) = true →
      Completes (.compareFire i) s (fun t => (t.ce i).st = .fired ∧ (t.ce i).tf = laterOf (s.ce i).key (s.nowLead (s.ce i))
        ∧ (t.ce i).raw = (s.ce i).raw ∧ t.axes = s.axes ∧ t.fouts = s.fouts))
    ∧ (∀ x p, (s.ce i).trig = trWIN → (s.ce i).predicts = false → s.evalPoint (s.ce i).axis (s.ce i).psrc = some (x, p) →
      reached s.now (s.ce i).topen = true → reached x (s.ce i).topen = false →
      s.winDist (s.ce i) (p.toInt + s.predPath (s.ce i).axis (s.ce i).psrc x p.toInt (tdiff (s.ce i).topen x).toNat) = 0 →
      Completes (.compareFire i) s (fun t => (t.ce i).st = .fired ∧ (t.ce i).tf = laterOf (s.nowLead (s.ce i)) (s.ce i).topen)))
  ∧ ((s.ce i).st = .armed → (s.ce i).trig = trWIN → (s.ce i).tdur ≠ 0 →
      reached s.now ((s.ce i).topen + BitVec.ofNat 64 ((s.ce i).tdur * 100 * usUnits)) = true → Completes (.winExpire i) s (fun t =>
        t.ce i = {} ∧ t.posted { s with cmp := t.cmp } [rCMP_CNT 2, rCMP_FREE] ∧ ∀ k ≠ i.val, t.ce k = s.ce k))
  ∧ ((s.ce i).st = .fired → reached s.now (s.ce i).tf = true → (s.ce i).evHeld = false → (s.ce i).rearm = false →
    Completes (.compareAction i) s (fun t => t.ce i = { byFire := true }
      ∧ ((s.ce i).act = acFOUT → (s.ce i).done = false →
          ((s.ce i).op = 0 → t.foutCmd (s.ce i).out = false) ∧ ((s.ce i).op = 1 ∨ (s.ce i).op = 3 → t.foutCmd (s.ce i).out = true)
          ∧ ((s.ce i).op = 2 → (s.fout (s.ce i).out).pulse = none → t.foutCmd (s.ce i).out = !s.foutCmd (s.ce i).out))
      ∧ ((s.ce i).act ≠ acFOUT → t.fouts = s.fouts)))
  ∧ (∀ (via : RegPath) (g : Fin 64) (v : Word), s.p8Denied via (rCMP_RG g) = false → bget v fCMP_RG_RESUME = 1 →
    Completes (.cmpRgResume via g v) s (fun t => t.flag (rCMP_RG g) fCMP_RG_SUSP = false ∧ ∀ k ∈ s.cmpGroup g, (t.ce k).susp = false))

/-- R301-R305: a latch unit captures its edge, captures that wait are resolved, records are posted, and the writes of LAT_An_CTL, which arm
and disarm from the next core cycle on. -/
def Obligations.LatchRows : Prop := ∀ (s : State) (n : Fin 256),
  (∀ (u : Fin 2) (src : BitVec 6) (rising : Bool), s.latHit n u src.toNat rising = true →
    Completes (.latchCapture n u src rising) s (fun t =>
      (if u.val = 0 then (t.ax n).capCnt0 = (s.ax n).capCnt0 + 1 else (t.ax n).capCnt1 = (s.ax n).capCnt1 + 1)
      ∧ t.flag (rLAT_STAT n) (latArmed u) = (s.flag (rLAT_CFG n u) fLAT_CFG_MODE && s.flag (rLAT_STAT n) (latArmed u))
      ∧ ∀ m ≠ n.val, t.ax m = s.ax m))
  ∧ ((s.ax n).recent ≠ [] → Completes (.latchWaitResolve n true) s (fun t => (t.ax n).latWait = []
      ∧ t.flag (rLAT_STAT n) fLAT_STAT_WAIT = false ∧ ∀ m ≠ n.val, t.ax m = s.ax m))
  ∧ ((∀ w ∈ (s.ax n).latWait, s.capturePos n w.t = none) → Completes (.latchWaitResolve n false) s (fun t =>
      (t.ax n).latWait = (s.ax n).latWait ∧ (t.ax n).lat = (s.ax n).lat))
  ∧ (∀ r, (s.ax n).lat = [r] → r.post = true → s.cqTakes (s.fget (rLAT_CFG n r.unit) fLAT_CFG_CQ) = true →
      Completes (.latchRepost n) s (fun t => (t.ax n).lat = [] ∧ t.fget (rLAT_STAT n) fLAT_STAT_CNT = 0
        ∧ t.posted { s with axes := t.axes } [rLAT_STAT n]))
  ∧ (∀ (via : RegPath) (v : Word), s.p8Denied via (rLAT_CTL n) = false →
    (∀ u < 2, v.getLsbD u = true → v.getLsbD (2 + u) = false → Completes (.latCtlArm via n v) s (fun t =>
      t.flag (rLAT_STAT n) (latArmed u) = true ∧ t.latWas n = s.latWas n ∧ t.wrote { s with axes := t.axes } [rLAT_CTL n, rLAT_STAT n]))
    ∧ (∀ u < 2, v.getLsbD (2 + u) = true → Completes (.latCtlDisarm via n v) s (fun t =>
      t.flag (rLAT_STAT n) (latArmed u) = false ∧ t.latWas n = s.latWas n ∧ t.wrote { s with axes := t.axes } [rLAT_CTL n, rLAT_STAT n]))
    ∧ (v.getLsbD 4 = true → Completes (.latCtlFlush via n v) s (fun t => (t.ax n).lat = [] ∧ (t.ax n).latWait = (s.ax n).latWait
      ∧ t.fget (rLAT_STAT n) fLAT_STAT_CNT = 0 ∧ t.wrote { s with axes := t.axes } [rLAT_CTL n, rLAT_STAT n])))


/-! ### Lane instructions -/

/-- R338, R341, R342: the operations on accumulators, alone in their instruction: the accumulator takes the value limited to 56 bits, Z and
N come from what is written or compared, V says whether a limit acted, SV is sticky, and nothing else in the block changes. -/
def Obligations.LaneAccumulatorRows : Prop := ∀ (s : State) (l : Fin 16) (ad as_ : Fin 4) (x y : Fin 16), s.steady l →
  s.gives l (.mpy l ad x y .nop) (fun b t => b.gaveA t ad ((b.dAt x).toInt * (b.dAt y).toInt))
  ∧ s.gives l (.mac l ad x y .nop) (fun b t => b.gaveA t ad ((b.aAt ad).toInt + (b.dAt x).toInt * (b.dAt y).toInt))
  ∧ s.gives l (.msu l ad x y .nop) (fun b t => b.gaveA t ad ((b.aAt ad).toInt - (b.dAt x).toInt * (b.dAt y).toInt))
  ∧ s.gives l (.aclr l ad .nop) (fun b t => b.gaveA t ad 0)
  ∧ s.gives l (.ald l ad x .nop) (fun b t => b.gaveA t ad ((b.dAt x).toInt * 2 ^ 23))
  ∧ s.gives l (.aadd l ad as_ .nop) (fun b t => b.gaveA t ad ((b.aAt ad).toInt + (b.aAt as_).toInt))
  ∧ s.gives l (.asub l ad as_ .nop) (fun b t => b.gaveA t ad ((b.aAt ad).toInt - (b.aAt as_).toInt))
  ∧ s.gives l (.amov l ad as_ .nop) (fun b t => b.gaveA t ad (b.aAt as_).toInt)
  ∧ s.gives l (.aneg l ad as_ .nop) (fun b t => b.gaveA t ad (-(b.aAt as_).toInt))
  ∧ s.gives l (.aabs l ad as_ .nop) (fun b t => b.gaveA t ad (b.aAt as_).toInt.natAbs)
  ∧ s.gives l (.acmp l ad as_ .nop) (fun b t => b.compared t ((b.aAt ad).toInt - (b.aAt as_).toInt))

/-- R338, R341: the operations on data registers, alone in their instruction: the wrapping, the limited and the bitwise ones, the
comparisons and the shifts, with a register or a signed immediate as the second operand. -/
def Obligations.LaneDataRows : Prop := ∀ (s : State) (l dd x y : Fin 16) (imm : BitVec 14), s.steady l →
  let wraps := fun (i : Instr) (f : Int → Int → Int) => s.gives l i (fun b t =>
    b.gaveD t dd (BitVec.ofInt 24 (f (b.dAt x).toInt (b.dAt y).toInt)) false)
  let limits := fun (i : Instr) (f : Int → Int → Int) => s.gives l i (fun b t =>
    b.gaveD t dd (BitVec.ofInt 24 (satInt 24 (f (b.dAt x).toInt (b.dAt y).toInt)))
      (satInt 24 (f (b.dAt x).toInt (b.dAt y).toInt) != f (b.dAt x).toInt (b.dAt y).toInt))
  let bits := fun (i : Instr) (f : BitVec 24 → BitVec 24 → BitVec 24) => s.gives l i (fun b t => b.gaveD t dd (f (b.dAt x) (b.dAt y)) false)
  wraps (.add l dd x y .nop) (fun u v => u + v) ∧ wraps (.sub l dd x y .nop) (fun u v => u - v)
  ∧ limits (.adds l dd x y .nop) (fun u v => u + v) ∧ limits (.subs l dd x y .nop) (fun u v => u - v)
  ∧ limits (.neg l dd x .nop) (fun u _ => -u) ∧ limits (.abs l dd x .nop) (fun u _ => u.natAbs)
  ∧ bits (.min l dd x y .nop) (fun u v => if u.toInt ≤ v.toInt then u else v)
  ∧ bits (.max l dd x y .nop) (fun u v => if v.toInt ≤ u.toInt then u else v)
  ∧ bits (.and l dd x y .nop) (· &&& ·) ∧ bits (.or l dd x y .nop) (· ||| ·) ∧ bits (.xor l dd x y .nop) (· ^^^ ·)
  ∧ bits (.shl l dd x y .nop) (fun u v => u <<< (v.toNat % 32)) ∧ bits (.shr l dd x y .nop) (fun u v => u >>> (v.toNat % 32))
  ∧ bits (.sra l dd x y .nop) (fun u v => u.sshiftRight (v.toNat % 32))
  ∧ s.gives l (.cmp l x y .nop) (fun b t => b.compared t ((b.dAt x).toInt - (b.dAt y).toInt))
  ∧ s.gives l (.addi l dd x imm .nop) (fun b t => b.gaveD t dd (b.dAt x + imm.signExtend 24) false)
  ∧ s.gives l (.addis l dd x imm .nop) (fun b t => b.gaveD t dd (BitVec.ofInt 24 (satInt 24 ((b.dAt x).toInt + imm.toInt)))
      (satInt 24 ((b.dAt x).toInt + imm.toInt) != (b.dAt x).toInt + imm.toInt))
  ∧ s.gives l (.andi l dd x imm .nop) (fun b t => b.gaveD t dd (b.dAt x &&& imm.signExtend 24) false)
  ∧ s.gives l (.cmpi l x imm .nop) (fun b t => b.compared t ((b.dAt x).toInt - imm.toInt))
  ∧ s.gives l (.shli l dd x imm .nop) (fun b t => b.gaveD t dd (b.dAt x <<< (imm.toNat % 32)) false)
  ∧ s.gives l (.shri l dd x imm .nop) (fun b t => b.gaveD t dd (b.dAt x >>> (imm.toNat % 32)) false)
  ∧ s.gives l (.srai l dd x imm .nop) (fun b t => b.gaveD t dd ((b.dAt x).sshiftRight (imm.toNat % 32)) false)
/-! ### The anchor (16) -/

/-- R453, R528, R455, R452: the anchor in reset, out of it, and the end of its self-test. -/
def Obligations.AnchorResetRows : Prop := ∀ s : State,
  Completes .anchorReset s (fun t => t.ancHeld = true ∧ t.anchor.st = 0 ∧ (∀ n, t.anchor.loop n = {}) ∧ t.regs = s.regs)
  ∧ Completes .vfieldReturn s (fun t => t = { s with su := { s.su with vfield := true } })
  ∧ (s.ancHeld = false → s.anchor.st = 0 → ∀ straps,
      Completes (.anchorSelfTestEnd true straps) s (fun t => t = { s with anchor := t.anchor }
        ∧ t.anchor.st = 1 ∧ t.anchor.strapLatched = straps ∧ t.anchor.loops = s.anchor.loops)
      ∧ Completes (.anchorSelfTestEnd false straps) s (fun t => t = { s with anchor := t.anchor }
        ∧ t.anchor.st = 3 ∧ t.anchor.fcode = 4 ∧ t.anchor.loops = s.anchor.loops))
  ∧ (s.ancHeld = false → s.anchor.st ≠ 3 → s.ripsSafe → ∀ code : BitVec 3, 1 ≤ code.toNat → code.toNat ≤ 4 →
      Completes (.anchorInternalFault code) s (fun t => t = { s with anchor := t.anchor }
        ∧ t.anchor.st = 3 ∧ t.anchor.fcode = code ∧ ∀ n < 25, (t.anchor.loop n).hi = false ∧ (t.anchor.loop n).lo = false))
  ∧ (s.ancHeld = false → s.anchor.up = true → s.anchor.strapErr = false → s.ripsSafe → ∀ live liven : BitVec 8,
      (live ≠ ~~~liven ∨ live ≠ s.anchor.strapLatched) →
      Completes (.strapFault live liven) s (fun t => t = { s with anchor := t.anchor }
        ∧ t.anchor.strapErr = true ∧ t.anchor.straps = live ∧ t.anchor.strapsN = liven
        ∧ ∀ n < 25, (t.anchor.loop n).latched.getLsbD cSTRAP = true ∧ (t.anchor.loop n).energised = false))

/-- R464, R465, R468, R470: a guard channel, a discrepancy, and the expiry of STOP1_T. -/
def Obligations.GuardRows : Prop := ∀ s : State, s.ancHeld = false →
  (∀ (ch : Fin 4) closed, s.anchor.ch.getLsbD ch.val ≠ closed →
    Completes (.guardChannelChange ch closed) s (fun t => t = { s with anchor := t.anchor }
      ∧ ∀ k < 4, t.anchor.ch.getLsbD k = if k = ch.val then closed else s.anchor.ch.getLsbD k))
  ∧ (∀ pair : Fin 2, pair.val ∈ s.anchor.pairs → s.anchor.disc.getLsbD pair.val = false →
      s.anchor.ch.getLsbD (2 * pair.val) ≠ s.anchor.ch.getLsbD (2 * pair.val + 1) →
    Completes (.guardDiscrepancy pair) s (fun t => t = { s with anchor := t.anchor }
      ∧ t.anchor.disc.getLsbD pair.val = true ∧ t.anchor.discCnt = s.anchor.discCnt + 1 ∧ t.anchor.loops = s.anchor.loops))
  ∧ (s.anchor.stop1run = true → s.ripsSafe →
    Completes .stop1Expiry s (fun t => t = { s with anchor := t.anchor } ∧ t.anchor.stop1run = false
      ∧ ∀ n < 25, (t.anchor.loop n).latched.getLsbD s.anchor.stop1first.toNat = true ∧ (t.anchor.loop n).energised = false))

/-- R458-R460: the steps by which a closing loop closes, and the events that open it. Each changes its loop so and posts its entry, and
nothing else in the block changes; where the loop is in no state for it, the event does nothing. -/
def Obligations.LoopRows : Prop := ∀ (s : State) (n : Fin 25), s.ancHeld = false →
  let l := s.anchor.loop n.val
  let row := fun (i : Instr) (due : Prop) (x : Loop) (evts : List (Nat × Nat × BitVec 24)) =>
    (due → Completes i s (fun t => t = { s with anchor := { s.anchor with loops := t.anchor.loops, evts := s.anchor.evts ++ evts } }
      ∧ ∀ j, t.anchor.loop j = if j = n.val then x else s.anchor.loop j))
    ∧ (¬ due → Completes i s (fun t => t = s))
  let overloaded : Loop :=
    { l with hi := false, lo := false, dis := true, testing := 0, phase := if l.fault then 5 else 0, latched := l.latched ||| 0x200,
             cause := if l.cause = 0 then 9 else l.cause, opens := if l.opens = 0xFF then 0xFF else l.opens + 1 }
  row (.loopHighSideOn n) (l.phase = 1) { l with hi := true } []
  ∧ row (.loopClosed n) (l.phase = 1 ∧ l.hi = true) { l with phase := 2, cause := 0, ovl := false } [(0x24, n.val, 0)]
  ∧ row (.loopCloseTimeout n) (l.phase = 1) overloaded [(0x23, n.val, 9)]
  ∧ row (.loopDischargeEnd n) (l.dis = true ∧ l.testing = 0) { l with dis := false } []
  ∧ row (.loopOverload n) (l.phase ≠ 0 ∧ l.phase ≠ 5) { overloaded with ovl := true } [(0x23, n.val, 9)]

/-- R462, R463: the steps of a test pulse, and the failures of steps 2 and 4. -/
def Obligations.TestPulseRows : Prop := ∀ (s : State) (n : Fin 25), s.ancHeld = false →
  (s.anchor.tpi = true → (s.anchor.loop n.val).phase = 2 →
    Completes (.testPulseStart n false) s (fun t => t = { s with anchor := t.anchor }
      ∧ t.anchor.loop n.val = { s.anchor.loop n.val with hi := false, dis := true, phase := 3, testing := 1 })
    ∧ Completes (.testPulseStart n true) s (fun t => t = { s with anchor := t.anchor }
      ∧ t.anchor.loop n.val = { s.anchor.loop n.val with lo := false, phase := 4, testing := 2 }))
  ∧ ((s.anchor.loop n.val).pulsed = true →
    Completes (.testPulseCheckOff n false) s (fun t => t = s)
    ∧ ((s.anchor.loop n.val).live = true → Completes (.testPulseCheckOff n true) s (fun t => t = { s with anchor := t.anchor }
      ∧ (t.anchor.loop n.val).fault = true ∧ (t.anchor.loop n.val).energised = false ∧ (t.anchor.loop n.val).phase = 5))
    ∧ Completes (.testPulseRestore n) s (fun t => t = { s with anchor := t.anchor }
      ∧ t.anchor.loop n.val = { s.anchor.loop n.val with hi := true, lo := true, dis := false }))
  ∧ ((s.anchor.loop n.val).testing ≠ 0 → (s.anchor.loop n.val).pulsed = false →
    Completes (.testPulseCheckOn n false) s (fun t => t = { s with anchor := t.anchor }
      ∧ t.anchor.loop n.val = { s.anchor.loop n.val with phase := 2, testing := 0 })
    ∧ ((s.anchor.loop n.val).live = true → Completes (.testPulseCheckOn n true) s (fun t => t = { s with anchor := t.anchor }
      ∧ (t.anchor.loop n.val).latched.getLsbD cOVERLOAD = true ∧ (t.anchor.loop n.val).energised = false)))

/-- R474-R479: beats, missed beats, promotions and their failure. -/
def Obligations.PilotRows : Prop := ∀ s : State, s.ancHeld = false →
  (∀ (p : Fin 2) (w : BitVec 16),
    (s.anchor.beatValid p.val w = false → Completes (.pilotBeat p w) s (fun t => t = { s with anchor := t.anchor }
      ∧ t.anchor.badbeat = s.anchor.badbeat + 1 ∧ t.anchor.active = s.anchor.active ∧ t.anchor.loops = s.anchor.loops))
    ∧ (s.anchor.beatValid p.val w = true → s.anchor.assigned = true → Completes (.pilotBeat p w) s (fun t =>
      t = { s with anchor := t.anchor } ∧ (t.anchor.beat p.val).missed = 0 ∧ (t.anchor.beat p.val).seq = w.setWidth 4
      ∧ (t.anchor.beat p.val).refuse = w.getLsbD 5 ∧ t.anchor.loops = s.anchor.loops))
    ∧ Completes (.missedBeat p) s (fun t => t = { s with anchor := t.anchor }
      ∧ (t.anchor.beat p.val).missed = min 3 ((s.anchor.beat p.val).missed + 1) ∧ (t.anchor.beat p.val).good = 0
      ∧ t.anchor.loops = s.anchor.loops))
  ∧ (s.anchor.assigned = true → (s.anchor.beat s.anchor.activeNo).missed = 3 →
    (s.anchor.stby = true → (s.anchor.beat (1 - s.anchor.activeNo)).refuse = false →
      Completes .promotion s (fun t => t = { s with anchor := t.anchor } ∧ t.anchor.active = !s.anchor.active
        ∧ t.anchor.stby = false ∧ t.anchor.promCnt = s.anchor.promCnt + 1 ∧ t.anchor.loops = s.anchor.loops))
    ∧ (s.anchor.stby = false ∨ (s.anchor.beat (1 - s.anchor.activeNo)).refuse = true →
      Completes .promotion s (fun t => t = { s with anchor := t.anchor } ∧ t.anchor.nopilot = true ∧ (t.anchor.stop1 = true ∨ t.anchor.stop1run = true)
        ∧ t.anchor.assigned = false)))
  ∧ (s.anchor.promoted = true → Completes .promotionFail s (fun t => t = { s with anchor := t.anchor }
      ∧ t.anchor.nopilot = true ∧ (t.anchor.stop1 = true ∨ t.anchor.stop1run = true) ∧ t.anchor.assigned = false))

/-- R454, R461, R469, R480, R324, R320: what the anchor does with the words of the shell, and with the bus comparator. -/
def Obligations.AnchorInputRows : Prop := ∀ s : State, s.ancHeld = false →
  (s.ripsSafe → ∀ n : Fin 25, s.anchor.lostlane.getLsbD n.val = true → (s.anchor.actval = false ∨ s.lostStood n.val = true) →
    Completes (.lostlaneOpen n) s (fun t => t = { s with anchor := t.anchor }
      ∧ (t.anchor.loop n.val).latched.getLsbD cLOSTLANE = true ∧ (t.anchor.loop n.val).energised = false
      ∧ ∀ j ≠ n.val, t.anchor.loop j = s.anchor.loop j))
  ∧ (∀ m : BitVec 25, s.ripsSafe → .req0 m ∈ s.ancView.sent →
    Completes (.anchorStopreqReceive (.req0 m)) s (fun t => t.ancView.sent = s.ancView.sent.erase (.req0 m)
      ∧ ∀ n < 25, if m.getLsbD n then (t.anchor.loop n).latched.getLsbD cSWREQ = true ∧ (t.anchor.loop n).energised = false
        else t.anchor.loop n = s.anchor.loop n))
  ∧ (.req1 ∈ s.ancView.sent → Completes (.anchorStopreqReceive .req1) s (fun t =>
      t.ancView.sent = s.ancView.sent.erase .req1 ∧ (t.anchor.stop1 = true ∨ t.anchor.stop1run = true)))
  ∧ (∀ m : BitVec 25, .bus m ∈ s.ancView.sent →
    (s.anchor.balrip = false → Completes (.anchorStopreqReceive (.bus m)) s (fun t =>
      t.anchor.loops = s.anchor.loops ∧ t.anchor.reqAns = some false))
    ∧ (s.anchor.balrip = true → s.ripsSafe → Completes (.anchorStopreqReceive (.bus m)) s (fun t => t.anchor.reqAns = some true
      ∧ ∀ n < 25, m.getLsbD n = true → (t.anchor.loop n).latched.getLsbD cBALLAST = true ∧ (t.anchor.loop n).energised = false)))
  ∧ (∀ m : BitVec 25, (m = (s.rget rANC_HOLDOPEN).setWidth 25 → s.ripsSafe → Completes (.anchorHoldopenReceive m) s (fun t =>
      t = { s with anchor := t.anchor } ∧ t.anchor.holdopen = m ∧ ∀ n < 25, m.getLsbD n = true → (t.anchor.loop n).energised = false))
    ∧ (m ≠ (s.rget rANC_HOLDOPEN).setWidth 25 → Completes (.anchorHoldopenReceive m) s (fun t => t = s)))
  ∧ Completes .anchorAliveAdvance s (fun t => t = { s with anchor := { s.anchor with alive := s.anchor.alive + 1 } })
  ∧ (s.ripsSafe → ∀ i : BitVec 2, i ≠ 0 → Completes (.busComparatorTrip i) s (fun t => t = { s with anchor := t.anchor }
      ∧ t.anchor.bustrip = true ∧ (t.anchor.loop 24).latched.getLsbD cBUSCMP = true ∧ (t.anchor.loop 24).energised = false
      ∧ ∀ j ≠ 24, t.anchor.loop j = s.anchor.loop j))
  ∧ Completes .busComparatorRelease s (fun t => t = { s with anchor := { s.anchor with bustrip := false } })

/-- R454, R461, R469, R481, R483: the writes of ANC_REQ0, ANC_REQ1 and ANC_HOLDOPEN send their words to the anchor, the latest word of each part
standing; a status word without news is mirrored in block ANC; a stale link is shown; a trip record is read. -/
def Obligations.AnchorShellRows : Prop := ∀ s : State,
  (∀ v : Word, (v.setWidth 25 ≠ (0 : BitVec 25) → Completes (.stop0Request .p0 v) s (fun t =>
      t = { s with ancView := { s.ancView with sent := s.ancView.sent.filter (fun w => !stopPart w (.req0 0)) ++ [.req0 (v.setWidth 25)] }, regs := t.regs }
      ∧ ∀ o, t.rget o = s.rget o))
    ∧ (v.getLsbD 0 = true → Completes (.stop1Request .p0 v) s (fun t =>
      t = { s with ancView := { s.ancView with sent := s.ancView.sent.filter (fun w => !stopPart w .req1) ++ [.req1] }, regs := t.regs }
      ∧ ∀ o, t.rget o = s.rget o))
    ∧ Completes (.ancHoldopen .p0 v) s (fun t => t = { s with regs := t.regs }
        ∧ t.fget rANC_HOLDOPEN fANC_HOLDOPEN_HOLD = v.toNat % 2 ^ 25 ∧ ∀ o ≠ rANC_HOLDOPEN, t.rget o = s.rget o))
  ∧ (s.ancHeld = false → s.anchor.evts = [] → s.anchor.reqAns = none → s.anchor.stop1 = s.flag rANC_STAT fANC_STAT_STOP1 →
    s.anchor.stop2 = s.flag rANC_STAT fANC_STAT_STOP2 →
    Completes .anchorStatusWord s (fun t => t.fget rANC_STAT fANC_STAT_STATE = s.anchor.st.toNat
      ∧ t.flag rANC_STAT fANC_STAT_GUARDCL = s.anchor.guardClosed ∧ t.fget rANC_STAT fANC_STAT_ALIVE = s.anchor.alive.toNat
      ∧ (s.anchor.alive ≠ s.ancView.lastAlive → t.flag rANC_STAT fANC_STAT_LINKLOST = false ∧ t.ancView.aliveAt = s.now)
      ∧ t.cqs = s.cqs ∧ (t.rget rANC_RIPCL = s.rget rANC_RIPCL → t.axes = s.axes)))
  ∧ (s.flag rANC_STAT fANC_STAT_LINKLOST = false → reached s.now (s.ancView.aliveAt + BitVec.ofNat 64 (1000 * usUnits)) = true →
    Completes .anchorLinkLost s (fun t => t.flag rANC_STAT fANC_STAT_LINKLOST = true ∧ t.flag rANC_EVT fANC_EVT_LINKLOST = true))
  ∧ (∀ set via (i : BitVec 14), i.toNat < 25 → s.mbxFree set.val via →
    Completes (.ancTrip set via i) s (fun t => t.answers set.val mbxOK (mboAncTrip i (s.asked set.val 0x060 0 i [])).data
      ∧ (mboAncTrip i (s.asked set.val 0x060 0 i [])).data.length = 7))

/-- R328, R333, R339, R342, R347: loads and stores of the local space. A load lands one instruction later, in the physical register that
the rotation of its issue names; a store is there at once; the pointer moves as the addressing mode says; every other byte and every other
part of the block stays. Whatever the arithmetic slot holds (`ar`) acts beside it. -/
def Obligations.LaneLocalRows : Prop := ∀ (s : State) (l : Fin 16) (reg : BitVec 6) (p mi : Fin 8) (am : BitVec 2) (off : BitVec 16)
  (ar : ArithOp) (a : Nat) (np : BitVec 24), s.steady l → (s.ln l).upsets = [] → am ≠ 3 → (s.curBank l).operand p am mi off = some (a, np) →
  let b := s.curBank l
  let c := b.arith ar
  let w24 := fun (a : Nat) => BitVec.ofNat 56 (leNat (s.localBytes l a 4) % 2 ^ 24)
  let fg := (s.ln l).work.isSome
  (plainReg reg.toNat = true → a % 4 = 0 → a < 0x10000 →
    Completes (.ld l reg p am mi off ar) s (fun t => t.onlyLane s l { (s.ln l).withBank (c.moved b p np) with
      pend := [⟨physReg b.rot reg.toNat, w24 a, fg⟩] })
    ∧ Completes (.st l reg p am mi off ar) s (fun t => ∃ y : Lane, t.onlyLane s l (y.withBank (c.moved b p np))
        ∧ y.holds (s.ln l) a (leBytes 4 (wordOf 4 (b.storeVal reg.toNat)))))
  ∧ (∀ k : Fin 4, reg.toNat = 16 + k.val → a % 8 = 0 → a < 0x10000 →
    let v : Int := (BitVec.ofNat 64 (leNat (s.localBytes l a 8))).toInt
    Completes (.ldq l reg p am mi off ar) s (fun t => t.onlyLane s l { (s.ln l).withBank ((c.limited (satInt 56 v != v)).moved b p np) with
      pend := [⟨16 + k.val, BitVec.ofInt 56 (satInt 56 v), fg⟩] })
    ∧ Completes (.stq l reg p am mi off ar) s (fun t => ∃ y : Lane, t.onlyLane s l (y.withBank (c.moved b p np))
        ∧ y.holds (s.ln l) a (leBytes 8 ((b.aAt k).toInt % 2 ^ 64).toNat)))
  ∧ (reg.toNat ≤ 14 → reg.toNat % 2 = 0 → a % 4 = 0 → a + 4 < 0x10000 →
    Completes (.ld2 l reg p am mi off ar) s (fun t => t.onlyLane s l { (s.ln l).withBank (c.moved b p np) with
      pend := [⟨physD b.rot reg.toNat, w24 a, fg⟩, ⟨physD b.rot (reg.toNat + 1), w24 (a + 4), fg⟩] })
    ∧ Completes (.st2 l reg p am mi off ar) s (fun t => ∃ y z : Lane, t.onlyLane s l (z.withBank (c.moved b p np))
        ∧ y.holds (s.ln l) a (leBytes 4 (wordOf 4 (b.dAt reg.toNat).toInt))
        ∧ z.holds y (a + 4) (leBytes 4 (wordOf 4 (b.dAt (reg.toNat + 1)).toInt))))

/-- R332, R339, R342, R347, R364, R365: loads and stores of shared SRAM. A load lands at once, and in the compare
table it gives an entry as stored; a store writes where
the lane may store, or sets cause bits of a status register of its axis; a store elsewhere traps the lane. -/
def Obligations.LaneSharedRows : Prop := ∀ (s : State) (l : Fin 16) (reg : BitVec 6) (p mi : Fin 8) (am : BitVec 2) (off : BitVec 16)
  (ar : ArithOp) (a : Nat) (np : BitVec 24), s.steady l → s.sramUpsets = [] → am ≠ 3 → (s.curBank l).operand p am mi off = some (a, np) →
  a < sramEnd →
  let b := s.curBank l
  let c := b.arith ar
  let w := leBytes 4 (wordOf 4 (b.storeVal reg.toNat))
  let held := fun (k : Nat) => if cmpBase ≤ a ∧ a < cmpEnd then (s.ce ((a - cmpBase) / 32)).raw.toNat / 2 ^ (8 * (a % 32)) % 2 ^ (8 * k)
    else leNat (memRead s.sram a k)
  (plainReg reg.toNat = true → a % 4 = 0 →
    (deviceKept a = false → Completes (.lds l reg p am mi off ar) s (fun t => t.onlyLane s l ((s.ln l).withBank
      { (c.putP p np).putPhys (physReg b.rot reg.toNat) (BitVec.ofNat 56 (held 4 % 2 ^ 24)) with pc := b.pc + 1 })))
    ∧ (s.sharedAt l a b.pc.toNat = .mem → Completes (.sts l reg p am mi off ar) s (fun t =>
        t.onlyLane { s with sram := t.sram } l ((s.ln l).withBank (c.moved b p np)) ∧ bytesAt t.sram s.sram a w))
    ∧ (∀ n o, s.sharedAt l a b.pc.toNat = .port n o → o < 0x510 → Completes (.sts l reg p am mi off ar) s (fun t =>
        t.onlyLane { s with regs := t.regs } l ((s.ln l).withBank (c.moved b p np))
        ∧ t.rget (portReg n (o / 4 % 4)) = (s.rget (portReg n (o / 4 % 4)) ||| (BitVec.ofNat 32 (leNat w) &&& rcMask (portReg n (o / 4 % 4))))
        ∧ ∀ r, r ≠ portReg n (o / 4 % 4) → t.rget r = s.rget r))
    ∧ (s.sharedAt l a b.pc.toNat = .forbidden → Completes (.sts l reg p am mi off ar) s (fun t => (t.ln l).trapped = true
        ∧ t.fget (rLPE_L_STAT l) fLPE_L_STAT_TRAPCODE = 4)))
  ∧ (∀ k : Fin 4, reg.toNat = 16 + k.val → a % 8 = 0 →
    let v : Int := (BitVec.ofNat 64 (held 8)).toInt
    (deviceKept a = false → Completes (.ldqs l reg p am mi off ar) s (fun t => t.onlyLane s l ((s.ln l).withBank
      { ((c.putP p np).limited (satInt 56 v != v)).putA k (BitVec.ofInt 56 (satInt 56 v)) with pc := b.pc + 1 })))
    ∧ (s.sharedAt l a b.pc.toNat = .mem → Completes (.stqs l reg p am mi off ar) s (fun t =>
        t.onlyLane { s with sram := t.sram } l ((s.ln l).withBank (c.moved b p np))
        ∧ bytesAt t.sram s.sram a (leBytes 8 ((b.aAt k).toInt % 2 ^ 64).toNat))))

/-- R339, R343, R344, R346, R362, R363: moves, immediate loads, the wide difference and sum, and the output record. Both slots read the bank
as they find it. -/
def Obligations.LaneMoveRows : Prop := ∀ (s : State) (l : Fin 16) (ar : ArithOp), s.steady l →
  let b := s.curBank l
  let c := b.arith ar
  (∀ (rd rs : BitVec 6) (x : Int) (d : LBank), rd ≠ 0x33 → b.movSrc rs.toNat = some x → c.movDst b.rot rd.toNat x = some d →
    Completes (.mov l rd rs ar) s (fun t => t.onlyLane s l ((s.ln l).withBank { d with pc := b.pc + 1 })))
  ∧ (∀ rd rs : Fin 16, Completes (.mov l (BitVec.ofNat 6 rd) (BitVec.ofNat 6 rs) ar) s (fun t => ∃ y,
      t.onlyLane s l ((s.ln l).withBank y) ∧ y = { c with d := y.d, pc := b.pc + 1 }
      ∧ ∀ k : Fin 16, y.dAt k = if k = rd then b.dAt rs else c.dAt k))
  ∧ (∀ (rd : Fin 16) (k : Fin 4),
      let x : Int := ((b.aAt k).toInt * 2 ^ (b.scl.toInt + 8).toNat + 2 ^ 30) / 2 ^ 31
      Completes (.mov l (BitVec.ofNat 6 rd) (BitVec.ofNat 6 (16 + k.val)) .nop) s (fun t => ∃ y,
        t.onlyLane s l ((s.ln l).withBank y) ∧ y = { b with d := y.d, flg := y.flg, pc := b.pc + 1 }
        ∧ (∀ j : Fin 16, y.dAt j = if j = rd then BitVec.ofInt 24 (satInt 24 x) else b.dAt j)
        ∧ y.fZ = b.fZ ∧ y.fN = b.fN ∧ y.fV = (satInt 24 x != x) ∧ y.fSV = (b.fSV || satInt 24 x != x)))
  ∧ (∀ (rd : BitVec 6) (imm : BitVec 24), plainReg rd.toNat = true → Completes (.ldi l rd imm ar) s (fun t =>
      t.onlyLane s l ((s.ln l).withBank { c.putPhys (physReg b.rot rd.toNat) (imm.signExtend 56) with pc := b.pc + 1 })))
  ∧ (∀ imm : BitVec 24, Completes (.ldi l 0x30 imm ar) s (fun t =>
      t.onlyLane s l ((s.ln l).withBank { c with scl := BitVec.ofInt 5 (max (-8) (min 8 imm.toInt)), pc := b.pc + 1 })))
  ∧ (∀ (ad : Fin 4) (pa pb : Fin 8) (sh : BitVec 7), (s.ln l).upsets = [] → -64 < sh.toInt → sh.toInt ≤ 30 →
      (b.pAt pa).toNat % 8 = 0 → (b.pAt pa).toNat < 0x10000 → (b.pAt pb).toNat % 8 = 0 → (b.pAt pb).toNat < 0x10000 →
      let w := fun (q : Fin 8) => BitVec.ofNat 64 (leNat (s.localBytes l (b.pAt q).toNat 8))
      let d : Int := (w pa - w pb).toInt
      let v := if sh.toInt < 0 then d / 2 ^ (-sh.toInt).toNat else d * 2 ^ sh.toInt.toNat
      Completes (.wdif l ad pa pb sh ar) s (fun t => t.onlyLane s l { (s.ln l).withBank { c.limited (satInt 56 v != v) with pc := b.pc + 1 } with
        pend := [⟨16 + ad.val, BitVec.ofInt 56 (satInt 56 v), (s.ln l).work.isSome⟩] }))
  ∧ (∀ (ad : Fin 4) (pa : Fin 8) (sh : BitVec 7), (s.ln l).upsets = [] → 0 ≤ sh.toInt → sh.toInt ≤ 30 →
      (b.pAt pa).toNat % 8 = 0 → (b.pAt pa).toNat < 0x10000 →
      Completes (.wadd l ad pa sh ar) s (fun t => t.onlyLane s l { (s.ln l).withBank { c with pc := b.pc + 1 } with
        pendSt := some ((b.pAt pa).toNat, BitVec.ofNat 64 (leNat (s.localBytes l (b.pAt pa).toNat 8))
          + BitVec.ofInt 64 ((b.aAt ad).toInt * 2 ^ sh.toNat)) }))
  ∧ (∀ (reg : BitVec 6) (p mi : Fin 8) (off : BitVec 16) (a : Nat) (np : BitVec 24), (s.ln l).upsets = [] → plainReg reg.toNat = true →
      b.operand p 0 mi off = some (a, np) → a % 8 = 0 → a + 8 < 0x10000 →
      let n := wordOf 1 (b.storeVal reg.toNat)
      let owned := s.inPlan n = true ∧ s.axLane n = l ∧ s.axType n ≠ tyVX
      (owned → (s.gd (s.axGon n)).collecting = true → (s.gd (s.axGon n)).due.contains (s.axCh n) = true →
        Completes (.out l reg p 0 mi off ar) s (fun t => (t.ln l).outs = n :: (s.ln l).outs
          ∧ tget none (t.gd (s.axGon n)).recs (s.axCh n) = some (withCh ((s.forcedRec n).getD (s.recordAt l a)) (s.axCh n))))
      ∧ (¬owned ∨ (s.gd (s.axGon n)).collecting = false → Completes (.out l reg p 0 mi off ar) s (fun t =>
          t.flag (rLPE_L_STAT l) fLPE_L_STAT_OUTDROP = true
          ∧ t.onlyLane { s with regs := t.regs } l ((s.ln l).withBank (c.moved b p np)))))

/-- R339, R340, R347-R351, R353, R355: control flow. A branch taken acts after two more instructions; LOOP and REP set their counters; END
ends the work item after its delay slots; a load or a WADD of the instruction before lands with this one. -/
def Obligations.LaneControlRows : Prop := ∀ (s : State) (l : Fin 16) (ar : ArithOp),
  let b := s.curBank l
  let c := b.arith ar
  let pc1 : BitVec 12 := b.pc + 1
  let jumps := fun (i : Instr) (tgt : BitVec 12) (k : Bool) (d : LBank) => Completes i s (fun t => t.onlyLane s l
    { (s.ln l).withBank { d with pc := pc1 } with slots := some (2, tgt, k) })
  let stays := fun (i : Instr) (d : LBank) => Completes i s (fun t => t.onlyLane s l ((s.ln l).withBank { d with pc := pc1 }))
  ((List.range 9).map (fun k => b.cond (BitVec.ofNat 4 k))
    = [true, b.fZ, !b.fZ, b.fN, !b.fN, !b.fZ && !b.fN, b.fZ || b.fN, b.fV, !b.fV])
  ∧ (s.steady l →
    (∀ (cd : BitVec 4) (tgt : BitVec 12), cd.toNat ≤ 8 →
      (b.cond cd = true → jumps (.br l cd tgt ar) tgt false c ∧ jumps (.brl l cd tgt ar) tgt false { c with lr := b.pc + 3 }
        ∧ jumps (.ret l cd ar) b.lr false c)
      ∧ (b.cond cd = false → stays (.br l cd tgt ar) c ∧ stays (.brl l cd tgt ar) c ∧ stays (.ret l cd ar) c))
    ∧ jumps (.laneEnd l ar) 0 true c
    ∧ stays (.rota l ar) { c with rot := b.rot + 1 }
    ∧ stays (.laneNop l) b
    ∧ (∀ (fr : Bool) (cnt tgt : BitVec 12), tgt ≠ b.pc →
        let k := if fr then min 4095 (b.dAt (cnt.toNat % 16)).toNat else cnt.toNat
        (k ≠ 0 → stays (.loop l fr cnt tgt ar) { c with iter := BitVec.ofNat 12 k, loopStart := pc1, loopEnd := tgt })
        ∧ (k = 0 → Completes (.loop l fr cnt tgt ar) s (fun t => t.onlyLane s l ((s.ln l).withBank { c with pc := tgt + 1 }))))
    ∧ (∀ (fr : Bool) (cnt : BitVec 12),
        let k := if fr then min 1024 (b.dAt (cnt.toNat % 16)).toNat else cnt.toNat
        (14 ≤ l.val → k ≤ 1024 → stays (.rep l fr cnt ar) { c with rpt := BitVec.ofNat 11 k, latch := true })
        ∧ (l.val < 14 → Completes (.rep l fr cnt ar) s (fun t => (t.ln l).trapped = true
            ∧ t.fget (rLPE_L_STAT l) fLPE_L_STAT_TRAPCODE = 3))))
  ∧ (s.laneRuns l = true → (s.ln l).work.isSome = true → b.latch = false → (s.ln l).pendSt = none →
    (b.iter ≠ 0 → (s.ln l).pend = [] → (s.ln l).slots = none → b.pc = b.loopEnd → Completes (.laneNop l) s (fun t => t.onlyLane s l
      ((s.ln l).withBank { b with rot := b.rot + 1, iter := b.iter - 1, pc := if b.iter = 1 then pc1 else b.loopStart })))
    ∧ (∀ x, b.iter = 0 → (s.ln l).pend = [x] → (s.ln l).slots = none → Completes (.laneNop l) s (fun t => t.onlyLane s l
        ({ (s.ln l).withBank { b with pc := pc1 } with pend := [] }.land x)))
    ∧ (∀ tgt, b.iter = 0 → (s.ln l).pend = [] → (s.ln l).slots = some (1, tgt, false) → isRoutine tgt = false →
        Completes (.laneNop l) s (fun t => t.onlyLane s l { (s.ln l).withBank { b with pc := tgt } with slots := none }))
    ∧ (∀ tgt, b.iter = 0 → (s.ln l).pend = [] → (s.ln l).slots = some (1, tgt, true) → Completes (.laneNop l) s (fun t =>
        (t.ln l).work = none ∧ (t.ln l).slots = none ∧ t.flag (rLPE_L_STAT l) fLPE_L_STAT_BUSY = false)))

/-- R176, R354, R355, R357, R361, R371, R500: an event is entered and its work item runs to END; a missing frame's event is raised with its
SUBSTITUTE flag and its axes counted as missed; the watchdog and the self-test retire a lane; SPAN and PEAK are cleared. -/
def Obligations.LaneEventRows : Prop := ∀ (s : State) (l : Fin 16),
  (∀ e rest, s.laneRuns l = true → (s.ln l).evq = e :: rest → (s.ln l).work = none → (s.ln l).atBoundary = true →
    ((s.ln l).imgKind = 1 → s.sramUpsets = [] → ((e.tick = false → Completes (.workItemFrame l) s (fun t => (t.ln l).work = none ∧ (t.ln l).evq = rest))
      ∧ (e.tick = true → Completes (.workItemTick l) s (fun t => (t.ln l).work = none ∧ (t.ln l).evq = rest))))
    ∧ (e.tick = false → (s.ln l).pendSt = none → Completes (.laneNop l) s (fun t => (t.ln l).work = some e ∧ (t.ln l).evq = rest
        ∧ (t.ln l).fg.pc = (s.ln l).eframe + 1 ∧ (t.ln l).bg = (s.ln l).bg ∧ t.flag (rLPE_L_STAT l) fLPE_L_STAT_BUSY = true
        ∧ t.fget (rLPE_L_EVQ l) fLPE_L_EVQ_NOW = rest.length % 1024 ∧ (t.ln l).wbank = s.flag (rLPE_L_STAT l) fLPE_L_STAT_PBANK)))
  ∧ (∀ (t : Fin 25) (pos : Fin 64),
      let k := s.gk t pos
      let j := tickAt (s.frameOrigin t) (s.framePeriod t) s.now
      let tk := tickStartOf (s.frameOrigin t) (s.framePeriod t) j
      let ns := (s.gonAxes k).filter (fun n => s.axLane n == l.val && s.dueAt n tk)
      ns ≠ [] → (ptUp (s.upLat t k) : Int) ≤ tdiff s.now tk → (s.gd k).upTick ≠ some (BitVec.ofInt 64 j) →
      (s.ln l).trapped = false → s.laneRole l ≠ roRETIRED → (s.ln l).evq.length < 512 →
      Completes (.substituteFrameEvent l t pos) s (fun t => (∃ e, (t.ln l).evq = (s.ln l).evq ++ [e] ∧ e.subst = true ∧ e.tick = false
          ∧ e.tk = tk ∧ e.raised = s.now) ∧ (∀ n ∈ ns, t.flag (rAXC_STAT n) fAXC_STAT_RECMISS = true)))
  ∧ ((s.ln l).trapped = false →
      (∀ e, s.fget (rLPE_L_WDG l) fLPE_L_WDG_WDG ≠ 0 → (s.ln l).work = some e →
        s.fget (rLPE_L_WDG l) fLPE_L_WDG_WDG < s.cyclesSince e.raised → Completes (.laneWatchdog l) s (fun t =>
          (t.ln l).trapped = true ∧ (t.ln l).evq = [] ∧ t.fget (rLPE_L_STAT l) fLPE_L_STAT_TRAPCODE = 7))
      ∧ (s.laneRuns l = true → Completes (.selfTestPass l false) s (fun t => (t.ln l).trapped = true
          ∧ t.flag (rLPE_L_STEST l) fLPE_L_STEST_FAIL = true ∧ t.fget (rLPE_L_STAT l) fLPE_L_STAT_TRAPCODE = 8)))
  ∧ (s.laneRuns l = true → Completes (.selfTestPass l true) s (fun t => t.onlyLane { s with regs := t.regs } l { s.ln l with lastPass := s.now }
      ∧ t.fget (rLPE_L_STEST l) fLPE_L_STEST_PASS = (s.fget (rLPE_L_STEST l) fLPE_L_STEST_PASS + 1) % 2 ^ 16
      ∧ ∀ o, o ≠ rLPE_L_STEST l → t.rget o = s.rget o))
  ∧ (∀ via : RegPath, s.p8Denied via (rLPE_L_CMD l) = false → Completes (.clrspan via l) s (fun t =>
      t.fget (rLPE_L_SPAN l) fLPE_L_SPAN_SPAN = 0 ∧ t.fget (rLPE_L_EVQ l) fLPE_L_EVQ_PEAK = 0
      ∧ t.wrote s [rLPE_L_CMD l, rLPE_L_SPAN l, rLPE_L_EVQ l]))

/-! ### Registers and commits -/

/-- R12, R373, R428-R434, R448: a register write that reaches the register port stores by the types of the fields, through an alias too; a
write at an offset without a register sets UNMAP; a write that P8 may not make is counted; a read answers the register and clears the rc
bits. A host write that is no whole DW, or goes past BAR0, is dropped with BARERR, and a read that is no whole DW is not answered. (Of a
register without an effect of its own; the effects are the rows' that bear their names.) -/
def Obligations.RegisterRows : Prop := ∀ (s : State) (via : RegPath) (off : Nat) (v : Word) (whole : Bool),
  let o := (aliasOf off).1
  let a := (aliasOf off).2
  let w := Instr.registerWrite via off v whole
  let rd := Instr.rcRead via off whole
  (via = .p0 → (whole = false ∨ 0x1000000 ≤ off) → Completes w s (fun t => t.flag rHIF_STAT fHIF_STAT_BARERR = true ∧ t.wrote s [rHIF_STAT]))
  ∧ (via = .p8 ∨ (whole = true ∧ off < 0x1000000) →
    (s.p8Denied via o = true → Completes w s (fun t => t.wrote s [rPLAN_P_DENY 8]
      ∧ t.fget (rPLAN_P_DENY 8) cntBits = min 0xFFFF (s.fget (rPLAN_P_DENY 8) cntBits + 1)
      ∧ (0xFFFF ≤ s.fget (rPLAN_P_DENY 8) cntBits + 1 → t.flag (rPLAN_P_DENY 8) ovfBits = true)))
    ∧ (s.p8Denied via o = false →
      (regRow o = none → Completes w s (fun t => t.flag rGLB_STAT fGLB_STAT_UNMAP = true ∧ t.wrote s [rGLB_STAT]))
      ∧ (∀ r, regRow o = some r → hooks.all (fun h => (h.at o).isNone) = true → isMsix o = false →
        (a = 0 → Completes w s (fun t => t.wrote s [o] ∧ ∀ k < 32, (t.rget o).getLsbD k =
          if r.rw.testBit k || r.sh.testBit k || (decide (k < 16) && r.wm.testBit k && v.getLsbD (k + 16)) then v.getLsbD k
          else (s.rget o).getLsbD k))
        ∧ (a ≠ 0 → r.wm = 0 → r.rw &&& r.sh = 0 → Completes w s (fun t => t.wrote s [o] ∧ ∀ k < 32, (t.rget o).getLsbD k =
          let b := (s.rget o).getLsbD k
          if r.rw.testBit k && v.getLsbD k then (match a with | 1 => true | 2 => false | _ => !b) else b)))))
  ∧ (via = .p8 ∨ whole = true → Completes rd s (fun t => match regRow o with
    | none => t = { s with answer := some 0 }
    | some r => t.wrote { s with answer := some (s.view o) } [o] ∧ ∀ k < 32, (t.rget o).getLsbD k =
        ((s.rget o).getLsbD k && !(decide (a = 0) && r.rc.testBit k))))
  ∧ (via = .p0 → whole = false → Completes rd s (fun t => t = { s with answer := none }))

/-- R437-R442: a commit is offered, refused, cancelled, checked, and applied. On its application the working copies of the selected groups
take the captured values (groups other than AXIS, TETHER, PULSE, BUS and FIO, whose further effects their own rules give; and while no part
of an earlier plan waits for its tick). -/
def Obligations.CommitRows : Prop := ∀ (s : State),
  (∀ (via : RegPath) (v : Word), s.p8Denied via rGLB_COMMIT = false →
    (bget v fGLB_COMMIT_GROUP ≠ 0 →
      ((s.commit.isSome = true ∨ s.mig.isSome = true ∨ s.swapping = true) → Completes (.commitOffer via v) s (fun t =>
        t.flag rGLB_COMMIT_STAT fGLB_COMMIT_STAT_REFUSED = true ∧ t.fget rGLB_COMMIT_STAT fGLB_COMMIT_STAT_CAUSE = 3 ∧ t.commit = s.commit))
      ∧ (s.commit = none → s.mig = none → s.swapping = false →
        (s.pilotReady = true → Completes (.commitOffer via v) s (fun t => ∃ c, t.commit = some c
          ∧ c.groups = BitVec.ofNat 8 (bget v fGLB_COMMIT_GROUP) ∧ c.axsel = s.axselMask ∧ c.sched = decide (bget v fGLB_COMMIT_SCHED = 1)
          ∧ (c.sched = true → c.at_ = s.time.cmAt) ∧ c.armed = false ∧ c.accepted = s.now
          ∧ (∀ o, selects c.groups c.axsel o = true → c.cap o = s.rget o)
          ∧ t.fget rGLB_COMMIT_STAT fGLB_COMMIT_STAT_PHASE = 1 ∧ t.work = s.work))
        ∧ (s.pilotReady = false → Completes (.commitOffer via v) s (fun t => t.commit = none ∧ t.work = s.work
          ∧ t.flag rGLB_COMMIT_STAT fGLB_COMMIT_STAT_REFUSED = true ∧ t.fget rGLB_COMMIT_STAT fGLB_COMMIT_STAT_CAUSE = 4))))
    ∧ (∀ c, s.commit = some c →
        ((c.stagedG = true ∨ s.commitDue c = true) → Completes (.commitCancel via) s (fun t => t.commit = s.commit
          ∧ t.flag rGLB_COMMIT_STAT fGLB_COMMIT_STAT_CANCELREF = true ∧ t.work = s.work))
        ∧ (c.stagedG = false → s.commitDue c = false → Completes (.commitCancel via) s (fun t => t.commit = none
          ∧ t.fget rGLB_COMMIT_STAT fGLB_COMMIT_STAT_PHASE = 0 ∧ t.flag rGLB_COMMIT_STAT fGLB_COMMIT_STAT_REFUSED = true
          ∧ t.fget rGLB_COMMIT_STAT fGLB_COMMIT_STAT_CAUSE = 5 ∧ t.work = s.work))))
  ∧ (∀ c, s.commit = some c →
    (c.armed = false → s.time.halted = false → (lanesChanged s.lifted (s.lifted.loaded c) c).any (fun l => s.flag (rLPE_L_STAT l) fLPE_L_STAT_BANKBUSY) = false →
      s.pilotReady = true →
      (commitVerdict s.lifted (s.lifted.loaded c) c = none → Completes .commitCheckComplete s (fun t => ∃ d, t.commit = some d ∧ d.armed = true
        ∧ d.groups = c.groups ∧ d.captured = c.captured ∧ d.late = (c.sched && reached s.now c.at_)
        ∧ t.fget rGLB_COMMIT_STAT fGLB_COMMIT_STAT_PHASE = (if c.sched = true ∧ reached s.now c.at_ = false then 2 else 1) ∧ t.work = s.work))
      ∧ (∀ e, commitVerdict s.lifted (s.lifted.loaded c) c = some e → Completes .commitCheckComplete s (fun t => t.commit = none
        ∧ t.flag rGLB_COMMIT_STAT fGLB_COMMIT_STAT_REFUSED = true ∧ t.work = s.work)))
    ∧ (s.commitDue c = true → s.time.halted = false → s.hold = [] → [Grp.axis, .tether, .pulse, .bus, .fio].all (fun g => !c.has g) = true →
        Completes .commitApply s (fun t => t.commit = none ∧ t.fget rGLB_COMMIT_STAT fGLB_COMMIT_STAT_PHASE = 0
          ∧ t.flag rGLB_COMMIT_STAT fGLB_COMMIT_STAT_DONE = true
          ∧ t.flag rGLB_COMMIT_STAT fGLB_COMMIT_STAT_LATEAPPLY = (c.late || s.flag rGLB_COMMIT_STAT fGLB_COMMIT_STAT_LATEAPPLY)
          ∧ (∀ o r, regRow o = some r → selects c.groups c.axsel o = true → limitWord o (c.cap o) = c.cap o →
              t.wget o &&& BitVec.ofNat 32 r.sh = c.cap o &&& BitVec.ofNat 32 r.sh)
          ∧ (∀ o, (∀ e ∈ c.captured, e.1 ≠ o) → selects c.groups c.axsel o = false → t.wget o = s.wget o))))

/-! ### Host rings and network frames -/

/-- R373-R375, R382, R384, R394, R395: submission rings: enabling and disabling, the doorbell, the fetch of descriptors, the watchdog. -/
def Obligations.SubmissionRingRows : Prop := ∀ (s : State) (q : Fin 32),
  let st := rHIF_SQ_STAT q
  (∀ (via : RegPath) (v : Word), s.p8Denied via (rHIF_SQ_CFG q) = false →
    (s.sqEn q = false →
      (bget v fHIF_SQ_CFG_KIND = 0 → Completes (.sqEnable via q v) s (fun t => t.sqEn q = true ∧ t.fget st fHIF_SQ_STAT_HEAD = 0
        ∧ t.fget st fHIF_SQ_STAT_TAIL = 0 ∧ (t.sq q).staged = 0 ∧ t.sqCq q = bget v fHIF_SQ_CFG_CQ
        ∧ t = { s with regs := t.regs, sqs := t.sqs } ∧ (∀ o, o ∉ [rHIF_SQ_CFG q, st] → t.rget o = s.rget o)))
      ∧ (bget v fHIF_SQ_CFG_KIND = 1 → (∃ r : Fin 32, r ≠ q ∧ s.sqEn r = true ∧ s.sqKind r = 1 ∧ s.sqPort r = bget v fHIF_SQ_CFG_FPORT) →
          Completes (.sqEnable via q v) s (fun t => t.sqEn q = false ∧ t.flag rHIF_STAT fHIF_STAT_CFGERR = true
            ∧ t.wrote s [rHIF_SQ_CFG q, rHIF_STAT])))
    ∧ (s.sqEn q = true → (s.sq q).staged = 0 → Completes (.sqDisable via q v) s (fun t => t.sqEn q = false ∧ (t.sq q).staged = 0
        ∧ t.fget (rHIF_SQ_CFG q) fHIF_SQ_CFG_LOG2SIZE = s.fget (rHIF_SQ_CFG q) fHIF_SQ_CFG_LOG2SIZE
        ∧ (bget v fHIF_SQ_CFG_LOG2SIZE ≠ s.fget (rHIF_SQ_CFG q) fHIF_SQ_CFG_LOG2SIZE → t.flag rHIF_STAT fHIF_STAT_CFGERR = true))))
  ∧ (∀ v : Word,
    Completes (.sqDoorbell q v false) s (fun t => t.flag rHIF_STAT fHIF_STAT_BARERR = true ∧ t.wrote s [rHIF_STAT])
    ∧ (s.sqEn q = false → Completes (.sqDoorbell q v true) s (fun t => t.flag st fHIF_SQ_STAT_DBERR = true ∧ t.wrote s [st]))
    ∧ (s.sqEn q = true → s.flag st fHIF_SQ_STAT_SILENT = false →
        (v.toNat % 4096 < s.sqSize q → Completes (.sqDoorbell q v true) s (fun t => t.fget st fHIF_SQ_STAT_TAIL = v.toNat % 4096
          ∧ (t.sq q).lastDb = s.now ∧ (t.sq q).staged = (s.sq q).staged ∧ t = { s with regs := t.regs, sqs := t.sqs }
          ∧ ∀ o ≠ st, t.rget o = s.rget o))
        ∧ (s.sqSize q ≤ v.toNat % 4096 → Completes (.sqDoorbell q v true) s (fun t => t.flag st fHIF_SQ_STAT_DBERR = true
          ∧ t.fget st fHIF_SQ_STAT_TAIL = s.fget st fHIF_SQ_STAT_TAIL ∧ (t.sq q).lastDb = s.now))))
  ∧ (∀ n : Nat, s.sqEn q = true → (s.sq q).stopped = false →
      let head := s.fget st fHIF_SQ_STAT_HEAD
      let got := min (min n 8) (min ((s.fget st fHIF_SQ_STAT_TAIL + s.sqSize q - head) % s.sqSize q) (256 - (s.sq q).staged))
      got ≠ 0 →
      Completes (.descriptorFetch q n true) s (fun t => t.fget st fHIF_SQ_STAT_HEAD = (head + got) % s.sqSize q
        ∧ (t.sq q).staged = (s.sq q).staged + got)
      ∧ Completes (.descriptorFetch q n false) s (fun t => t.flag st fHIF_SQ_STAT_FETCHERR = true ∧ (t.sq q).stopped = true
        ∧ (t.sq q).staged = (s.sq q).staged))
  ∧ (let time := s.fget (rHIF_SQ_WD q) fHIF_SQ_WD_TIME
     time ≠ 0 → s.flag st fHIF_SQ_STAT_SILENT = false → ((time * 100 * usUnits : Nat) : Int) ≤ tdiff s.now (s.sq q).lastDb →
     s.fget (rHIF_SQ_WD q) fHIF_SQ_WD_REACT = 0 → Completes (.hostSilenceTrip q) s (fun t => t.flag st fHIF_SQ_STAT_SILENT = true
       ∧ t.posted s [st]))

/-- R373, R374, R376, R377, R390, R392: completion rings and the receive doorbell: enabling and disabling, the consumer's doorbell, the interrupt,
the backlog. -/
def Obligations.CompletionRingRows : Prop := ∀ (s : State) (q : Fin 32),
  let st := rHIF_CQ_STAT q
  (∀ (via : RegPath) (v : Word), s.p8Denied via (rHIF_CQ_CFG q) = false →
    (s.flag (rHIF_CQ_CFG q) fHIF_CQ_CFG_EN = false → Completes (.cqEnable via q v) s (fun t =>
      t.flag (rHIF_CQ_CFG q) fHIF_CQ_CFG_EN = true ∧ (t.cq q).head = 0 ∧ (t.cq q).ring = [] ∧ (t.cq q).backlog = []
      ∧ t.fget st fHIF_CQ_STAT_TAIL = 0 ∧ t.flag st fHIF_CQ_STAT_PHASE = true ∧ t.fget st fHIF_CQ_STAT_BKLOG = 0))
    ∧ (s.flag (rHIF_CQ_CFG q) fHIF_CQ_CFG_EN = true → Completes (.cqDisable via q v) s (fun t =>
      t.flag (rHIF_CQ_CFG q) fHIF_CQ_CFG_EN = false ∧ (t.cq q).ring = [] ∧ (t.cq q).backlog = [] ∧ t.fget st fHIF_CQ_STAT_BKLOG = 0
      ∧ t.fget (rHIF_CQ_CFG q) fHIF_CQ_CFG_LOG2SIZE = s.fget (rHIF_CQ_CFG q) fHIF_CQ_CFG_LOG2SIZE)))
  ∧ (∀ v : Word,
      let x := v.toNat % 4096
      let n := (x + s.cqSize q - (s.cq q).head.toNat) % s.cqSize q
      Completes (.cqDoorbell q v false) s (fun t => t.flag rHIF_STAT fHIF_STAT_BARERR = true ∧ t.wrote s [rHIF_STAT])
      ∧ (s.flag (rHIF_CQ_CFG q) fHIF_CQ_CFG_EN = true → x < s.cqSize q → n ≤ (s.cq q).ring.length → Completes (.cqDoorbell q v true) s (fun t =>
        (t.cq q).head = BitVec.ofNat 12 x ∧ (t.cq q).ring = (s.cq q).ring.drop n ∧ t.posted { s with cqs := t.cqs, msgs := t.msgs } [st]
        ∧ (s.flag (rHIF_CQ_CFG q) fHIF_CQ_CFG_IEN = false → t.flag st fHIF_CQ_STAT_ARMED = true)))
      ∧ ((s.flag (rHIF_CQ_CFG q) fHIF_CQ_CFG_EN = false ∨ s.cqSize q ≤ x ∨ (s.cq q).ring.length < n) → Completes (.cqDoorbell q v true) s
          (fun t => t.flag st fHIF_CQ_STAT_DBERR = true ∧ t.wrote s [st])))
  ∧ (s.cqAged q = true → s.flag (rHIF_CQ_CFG q) fHIF_CQ_CFG_EN = true → s.flag (rHIF_CQ_CFG q) fHIF_CQ_CFG_IEN = true →
      s.flag st fHIF_CQ_STAT_ARMED = true →
      let vec := s.fget (rHIF_CQ_CFG q) fHIF_CQ_CFG_VEC
      (s.flag (rMSIX_CTL vec) fMSIX_CTL_MASK = false → Completes (.cqInterruptTimer q) s (fun t =>
        t.flag st fHIF_CQ_STAT_ARMED = false ∧ tget 0 t.msgs vec = tget 0 s.msgs vec + 1 ∧ (t.cq q).ring = (s.cq q).ring))
      ∧ (s.flag (rMSIX_CTL vec) fMSIX_CTL_MASK = true → Completes (.cqInterruptTimer q) s (fun t =>
        t.flag st fHIF_CQ_STAT_ARMED = false ∧ t.msgs = s.msgs ∧ t.flag (rMSIX_PBA (vec / 32)) ⟨vec % 32, 1⟩ = true)))
  ∧ (∀ e, (s.cq q).backlog = [e] → s.cqRoom q = true → Completes (.cqBacklogDrain q) s (fun t => t.entered s q e ∧ (t.cq q).backlog = []
      ∧ t.fget st fHIF_CQ_STAT_BKLOG = 0))
  ∧ (∀ (f : Fin 6) (v : Word),
      Completes (.rxDoorbell f v false) s (fun t => t.flag rHIF_STAT fHIF_STAT_BARERR = true ∧ t.wrote s [rHIF_STAT])
      ∧ (v.toNat % 4096 < s.rxCount f → Completes (.rxDoorbell f v true) s (fun t => t.fget (rHIF_RX_STAT f) fHIF_RX_STAT_FREE = v.toNat % 4096
        ∧ t.fget (rHIF_RX_STAT f) fHIF_RX_STAT_HEAD = s.fget (rHIF_RX_STAT f) fHIF_RX_STAT_HEAD ∧ t.wrote s [rHIF_RX_STAT f]))
      ∧ (s.rxCount f ≤ v.toNat % 4096 → Completes (.rxDoorbell f v true) s (fun t => t = s)))

/-- R21, R391-R393: frames of the host go to a network port in order and complete when their last bit has left; frames received pass the
port's filter or the CAN table into the next buffer of the port, and one that finds the core-side queue full is counted. -/
def Obligations.NetworkFrameRows : Prop := ∀ (s : State),
  (∀ (q : Fin 32) (opc flags : BitVec 8) (tag fid len : BitVec 16) (addr : BitVec 64) (canid : Word) (data : Dma Byte),
    let f := s.sqPort q
    s.sqReady q 1 false = true → f < 6 → s.txRoom f len.toNat = true →
      let fails := fun (status : Nat) => s.ringReady (s.sqCq q) → Completes (.frameTransmit q opc flags tag fid len addr canid data) s (fun t =>
        t.entered s (s.sqCq q) (txEntry s.now tag fid status) ∧ (t.sq q).staged = (s.sq q).staged - 1 ∧ t.txq = s.txq)
      (frameFormat f opc flags len canid = false → fails 3)
      ∧ (frameFormat f opc flags len canid = true → s.opcOK 0 0x10 = false → fails 4)
      ∧ (frameFormat f opc flags len canid = true → s.opcOK 0 0x10 = true → data = .readErr → fails 9)
      ∧ (frameFormat f opc flags len canid = true → s.opcOK 0 0x10 = true → data = .memErr → fails 0xB)
      ∧ (∀ bs, frameFormat f opc flags len canid = true → s.opcOK 0 0x10 = true → data = .ok bs →
          Completes (.frameTransmit q opc flags tag fid len addr canid data) s (fun t => (∃ i : TxItem, t.txq_ f = s.txq_ f ++ [i]
            ∧ i.q = some q.val ∧ i.tag = tag ∧ i.frameId = fid ∧ i.canid = canid ∧ i.data = bs.take len.toNat)
            ∧ (t.sq q).staged = (s.sq q).staged - 1 ∧ t.regs = s.regs ∧ t.cqs = s.cqs)))
  ∧ (∀ (f : Fin 6) (i : TxItem) (rest : List TxItem) (q : Nat), s.txq_ f = i :: rest → i.q = some q → i.nocomp = false → i.tsreq = false →
      s.ringReady (s.sqCq q) → Completes (.frameTxDone f) s (fun t => t.txq_ f = rest
        ∧ t.entered s (s.sqCq q) (txEntry s.now i.tag i.frameId (if s.portSends f i then 0 else 5))
        ∧ (s.portSends f i = true → tget [] t.txSent f = i.data)))
  ∧ (∀ (e : Fin 2) (dst : BitVec 48) (et : BitVec 16) (data : List Byte), s.flag (rNET_ETH_CFG e) fNET_ETH_CFG_EN = true →
    (∀ fcs, Completes (.ethFrameReceive e dst et data fcs true) s (fun t => t.wrote s [rNET_ETH_CNT e 0]
      ∧ t.fget (rNET_ETH_CNT e 0) cntBits = min 0xFFFF (s.fget (rNET_ETH_CNT e 0) cntBits + 1)))
    ∧ Completes (.ethFrameReceive e dst et data false false) s (fun t => t.wrote s [rNET_ETH_CNT e 1]
      ∧ t.fget (rNET_ETH_CNT e 1) cntBits = min 0xFFFF (s.fget (rNET_ETH_CNT e 1) cntBits + 1))
    ∧ (dst = 0xFFFFFFFFFFFF → et ≠ 0x88B5 → s.flag (rHIF_RX_CFG e) fHIF_RX_CFG_EN = true → data.length ≤ s.rxSize e →
        let head := s.fget (rHIF_RX_STAT e) fHIF_RX_STAT_HEAD
        head ≠ s.fget (rHIF_RX_STAT e) fHIF_RX_STAT_FREE → Completes (.ethFrameReceive e dst et data true false) s (fun t =>
          t.fget (rHIF_RX_STAT e) fHIF_RX_STAT_HEAD = (head + 1) % s.rxCount e
          ∧ ∃ u : State, u = { s with host := u.host, freeCtr := u.freeCtr } ∧ t.posted u [rHIF_RX_STAT e]
            ∧ bytesAt u.host s.host ((join64 (s.rget (rHIF_RX_BASE_LO e)) (s.rget (rHIF_RX_BASE_HI e))).toNat / 64 * 64 + head * s.rxSize e) data)))
  ∧ (∀ (c : Fin 4) (id : BitVec 29) (ide brs esi : Bool) (data : List Byte), s.flag (rNET_CAN_CFG c) fNET_CAN_CFG_EN = true →
    Completes (.canFrameReceive c id ide false brs esi data true) s (fun t => t.wrote s [rNET_CAN_CNT c 0]
      ∧ t.fget (rNET_CAN_CNT c 0) cntBits = min 0xFFFF (s.fget (rNET_CAN_CNT c 0) cntBits + 1))
    ∧ (s.canLookup c id ide = none → ∃ at_ : FTime, reached s.now at_ = true ∧ tdiff s.now at_ < 200 ∧
      let u : State := { s with canT := tset none s.canT c (some at_), freeCtr := s.freeCtr + 1 }
      (s.wflag (rPLAN_CAN_CFG c) fPLAN_CAN_CFG_DEFHOST = false → Completes (.canFrameReceive c id ide false brs esi data false) s (fun t =>
        t.wrote u [rPLAN_CAN_NOMATCH c]
        ∧ t.fget (rPLAN_CAN_NOMATCH c) cntBits = min 0xFFFF (s.fget (rPLAN_CAN_NOMATCH c) cntBits + 1)))
      ∧ (s.wflag (rPLAN_CAN_CFG c) fPLAN_CAN_CFG_DEFHOST = true → s.flag (rHIF_RX_CFG (2 + c.val)) fHIF_RX_CFG_EN = true →
        data.length ≤ s.rxSize (2 + c.val) →
        let head := s.fget (rHIF_RX_STAT (2 + c.val)) fHIF_RX_STAT_HEAD
        head ≠ s.fget (rHIF_RX_STAT (2 + c.val)) fHIF_RX_STAT_FREE → Completes (.canFrameReceive c id ide false brs esi data false) s (fun t =>
          t.fget (rHIF_RX_STAT (2 + c.val)) fHIF_RX_STAT_HEAD = (head + 1) % s.rxCount (2 + c.val)
          ∧ ∃ x : State, x = { u with host := x.host } ∧ t.posted x [rHIF_RX_STAT (2 + c.val)]
            ∧ bytesAt x.host s.host ((join64 (s.rget (rHIF_RX_BASE_LO (2 + c.val))) (s.rget (rHIF_RX_BASE_HI (2 + c.val)))).toNat / 64 * 64
                + head * s.rxSize (2 + c.val)) data))))

/-! ### Command descriptors -/

/-- R255-R275, R378-R380, R385, R410: commands of motion. Admitted, each leaves its cause for the tick boundary of its axis, and completes
there; NOP and a point complete at once; a descriptor that is not in form, or whose opcode its port lacks, completes with FORMAT or DENIED;
a gondola's command is performed alike. -/
def Obligations.MotionDescriptorRows : Prop := ∀ (s : State) (q : Fin 32) (h : DescHdr),
  let n := h.axis.toNat
  (s.admits q h 0x00 false → Completes (.nop h) s (fun t => t.ended s q h 0 0))
  ∧ (h.src = .sq q → s.descReady h = true → s.ringReady (s.sqCq q) → h.flags.getLsbD 1 = false →
      (hdrGood h false = false → Completes (.nop h) s (fun t => t.ended s q h 3 0))
      ∧ (hdrGood h true = true → s.opcOK 0 0x04 = false → Completes (.resume h) s (fun t => t.ended s q h 4 0 ∧ t.axes = s.axes)))
  ∧ (∀ (v : BitVec 64) (x : FTime) (req : BitVec 5), s.admits q h 0x01 true → s.reqsOK 0 n req.toNat = true →
      (s.inPlan n = false → Completes (.axset h v x false req) s (fun t => t.ended s q h 1 0 ∧ t.axes = s.axes))
      ∧ (s.inPlan n = true →
        (req = 0 → Completes (.axset h v x false req) s (fun t => t.ended s q h 0 0 ∧ t.axes = s.axes))
        ∧ (∀ r, reqsOf req.toNat = [r] → Completes (.axset h v x false req) s (fun t =>
            t.opened s q h 0x01 .other 1 n (fun k => .req r (some k))))
        ∧ (req = 0 → s.valueOK n v = true → s.perm 0 n pmMOTION = true → s.takesMotion n false = true →
          (s.pointsQueued n < 16 → Completes (.axset h v x true req) s (fun t => t.ended s q h 0 0
            ∧ (t.ax n).causes = (s.ax n).causes ++ [.point x (if s.axCmode n = 1 then velIn v else v)]))
          ∧ (16 ≤ s.pointsQueued n → Completes (.axset h v x true req) s (fun t => t.ended s q h 2 0 ∧ t.axes = s.axes)))))
  ∧ (s.inPlan n = true → s.perm 0 n pmMOTION = true →
    (∀ (target : BitVec 64) (vl al dl jl : Word) (mf : BitVec 3), s.admits q h 0x02 true → mf.getLsbD 2 = false → s.permAll 0 pmMOTION [n] = true →
      Completes (.move h target vl al dl jl mf) s (fun t => t.opened s q h 0x02 (.move target vl al dl jl mf) 0 n .motion))
    ∧ (s.admits q h 0x04 true → Completes (.resume h) s (fun t => t.opened s q h 0x04 .resume 0 n .motion))
    ∧ (∀ (mode master : BitVec 8) (gf : BitVec 2) (num den : Word) (offset lr mpos : BitVec 64), s.admits q h 0x05 true → mode.toNat ≤ 3 →
        den ≠ 0 → s.perm 0 master.toNat pmREAD = true →
        Completes (.gear h mode 1 master gf num den offset lr mpos) s (fun t =>
          t.opened s q h 0x05 (.gear mode 1 master gf num den offset lr mpos) 0 n .motion))
    ∧ (∀ (cam : BitVec 8) (cf : BitVec 4) (cphase : BitVec 64), s.admits q h 0x06 true → cam.toNat < 64 →
        Completes (.camSelect h cam cf cphase) s (fun t => t.opened s q h 0x06 (.camSelect cam cf cphase) 0 n .motion)
        ∧ Completes (.camDeselect h cam) s (fun t => t.opened s q h 0x06 (.camDeselect cam) 0 n .motion)))
  ∧ (s.admits q h 0x03 true → s.permAll 0 pmSTOP [n] = true →
      (∀ kind : BitVec 8, kind = 1 ∨ kind = 2 →
        (s.inPlan n = true → Completes (.stop h kind 0) s (fun t => t.opened s q h 0x03 .other 1 n (fun k => .stop kind.toNat (some k))))
        ∧ (s.inPlan n = false → Completes (.stop h kind 0) s (fun t => t.ended s q h 1 0 ∧ t.axes = s.axes)))
      ∧ Completes (.stop h 3 0) s (fun t => t.ended s q h 3 0 ∧ t.axes = s.axes))
  ∧ (∀ (t : Fin 25) (pos : Fin 64) (tag : BitVec 16) (axis : BitVec 8), s.inPlan axis.toNat = true → s.opcOK 9 0x04 = true →
      s.perm 9 axis.toNat pmMOTION = true → Completes (.peerCommand t pos 0 tag axis false .resume) s (fun u =>
        (u.ax axis.toNat).causes = (s.ax axis.toNat).causes ++ [.motion s.nextCmd]
        ∧ (u.cmd s.nextCmd).map (fun c => (c.src, c.tag, c.op)) = some (.peer t pos, tag, .resume)
        ∧ u.regs = s.regs ∧ u.cqs = s.cqs ∧ u.sqs = s.sqs))

/-- R273, R275, R283, R286, R297, R301, R380, R387, R437-R439, R501: commands on data: cams, compare entries, latch units, reads,
staged registers, commits, migrations and transmit timestamps. -/
def Obligations.DataDescriptorRows : Prop := ∀ (s : State) (q : Fin 32) (h : DescHdr),
  let n := h.axis.toNat
  (∀ (cam : BitVec 8) (cf : BitVec 4) (base m mstep : Word) (addr : BitVec 64) (xfer : Word) (pts : Dma (BitVec 64)), s.admits q h 0x06 true →
    cam.toNat < 64 → s.portFlag 0 fPLAN_P_FLAGS_CAMW = true →
    (2 ≤ m.toNat → mstep ≠ 0 → addr.toNat % 8 = 0 → cf.getLsbD 3 = false →
      (∀ e, s.camRefused cam.toNat base.toNat m.toNat = some e → Completes (.camLoad h cam cf base m mstep addr xfer pts) s (fun t =>
        t.ended s q h e 0 ∧ t.sram = s.sram))
      ∧ (∀ xs, s.camRefused cam.toNat base.toNat m.toNat = none → pts = .ok xs → xs.length = m.toNat →
        Completes (.camLoad h cam cf base m mstep addr xfer pts) s (fun t => t.ended s q h 0 0 ∧ t.camN cam.toNat = m.toNat
          ∧ t.camCyclic cam.toNat = cf.getLsbD 0
          ∧ bytesAt t.sram s.sram (0x104000 + 8 * base.toNat) (xs.flatMap (fun x => leBytes 8 x.toNat)))))
    ∧ (s.fget (rLPE_CAM_CTL cam.toNat) fLPE_CAM_CTL_USERS = 0 → Completes (.camFree h cam) s (fun t => t.ended s q h 0 0
        ∧ t.camN cam.toNat = 0 ∧ t.sram = s.sram))
    ∧ (s.fget (rLPE_CAM_CTL cam.toNat) fLPE_CAM_CTL_USERS ≠ 0 → Completes (.camFree h cam) s (fun t => t.ended s q h 6 0
        ∧ t.camN cam.toNat = s.camN cam.toNat)))
  ∧ (∀ (addr raddr : BitVec 64) (x : BitVec 256) (i : Nat), s.admits q h 0x07 false → entryOK x = true → s.entryRight 0 x = true →
      h.flags.getLsbD 4 = false → (s.cmpRange 0).1 < (s.cmpRange 0).2 → s.cmpAlloc (s.cmpRange 0).1 ((s.cmpRange 0).2 - 1) 1 = some [i] →
      (s.entryStands x = false → Completes (.cmpadd h addr 1 raddr (.ok [x])) s (fun t => t.ended s q h 1 0 ∧ t.cmp = s.cmp))
      ∧ (s.entryStands x = true → ({ raw := x } : CmpEnt).heldBit = true → Completes (.cmpadd h addr 1 raddr (.ok [x])) s (fun t =>
          t.ended s q h 0 i ∧ (t.ce i).raw = x ∧ (t.ce i).st = .held ∧ (∀ k, k ≠ i → t.ce k = s.ce k)
          ∧ (h.flags.getLsbD 3 = false → t.hostTook s q raddr.toNat (leBytes 2 i)))))
  ∧ (∀ (i : BitVec 16) (tg tag mask : BitVec 8), s.admits q h 0x08 false → i.toNat < 16384 → (s.cmpRange 0).1 ≤ i.toNat →
      i.toNat < (s.cmpRange 0).2 → (s.ce i.toNat).st = .armed → Completes (.cmpdel h 0 i tg tag mask) s (fun t => t.ended s q h 0 rcDELETED
        ∧ (t.ce i.toNat).st = .free ∧ t.fouts = s.fouts ∧ t.gons = s.gons))
  ∧ (∀ (u : Fin 2) (setcfg : Bool) (cfg : Word), s.admits q h 0x09 true → s.perm 0 n pmCMP = true →
      (setcfg = true → s.ringOK 0 (bget cfg fLAT_CFG_CQ) = true) →
      let unit := BitVec.ofNat 8 u.val
      let done := fun (t : State) => t.ended s q h 0 0 ∧ (∀ m, m ≠ n → t.ax m = s.ax m)
        ∧ ∀ r, regRow (rLAT_CFG n u) = some r →
          t.rget (rLAT_CFG n u) = if setcfg then regStore r (s.rget (rLAT_CFG n u)) cfg else s.rget (rLAT_CFG n u)
      Completes (.latarmArm h unit setcfg cfg) s (fun t => done t ∧ t.flag (rLAT_STAT n) (latArmed u) = true ∧ t.latWas n = s.latWas n)
      ∧ Completes (.latarmDisarm h unit setcfg cfg) s (fun t => done t ∧ t.flag (rLAT_STAT n) (latArmed u) = false ∧ t.latWas n = s.latWas n)
      ∧ Completes (.latarmFlush h unit setcfg cfg) s (fun t => done t ∧ (t.ax n).lat = [] ∧ t.fget (rLAT_STAT n) fLAT_STAT_CNT = 0))
  ∧ (∀ addr : BitVec 64, s.admits q h 0x0A false → addr.toNat % 32 = 0 → s.portFlag 0 fPLAN_P_FLAGS_RDEV = true →
      Completes (.read h 0x001 0 addr) s (fun t => t.ended s q h 0 0
        ∧ t.hostTook s q addr.toNat (leBytes 8 s.now.toNat ++ leBytes 4 s.time.frac.toNat
          ++ leBytes 4 s.time.incI.toNat ++ leBytes 4 s.time.incF.toNat ++ List.replicate 12 0)))
  ∧ (∀ (addr x : BitVec 64) (r : RegRow), s.admits q h 0x0B false → regRow (lo32 x).toNat = some r → r.sh ≠ 0 →
      s.stageRight 0 (lo32 x).toNat = true → canReg (lo32 x).toNat = false → Completes (.cfgstage h addr 1 (.ok [x])) s (fun t =>
        let m := BitVec.ofNat 32 r.sh &&& ~~~absentBits (lo32 x).toNat
        t.ended s q h 0 0 ∧ t.work = s.work ∧ t.rget (lo32 x).toNat = ((s.rget (lo32 x).toNat &&& ~~~m) ||| (hi32 x &&& m))))
  ∧ (∀ (groups : BitVec 8) (axsel : BitVec 256) (x : FTime), s.admits q h 0x0C false → groups &&& 1 = 0 → h.flags.getLsbD 2 = false →
      s.portFlag 0 fPLAN_P_FLAGS_CFGG = true →
      (s.commit.isSome = true → Completes (.commit h groups axsel x) s (fun t => t.ended s q h 5 0 ∧ t.commit = s.commit
        ∧ t.fget rGLB_COMMIT_STAT fGLB_COMMIT_STAT_CAUSE = 3))
      ∧ (s.commit = none → s.mig = none → s.swapping = false → s.pilotReady = true → Completes (.commit h groups axsel x) s (fun t =>
          ∃ c, t.commit = some c ∧ c.groups = groups ∧ c.axsel = axsel ∧ c.fromDesc = some s.nextCmd ∧ c.sched = decide (x ≠ 0)
            ∧ (x ≠ 0 → c.at_ = x) ∧ t.flag rGLB_COMMIT_STAT fGLB_COMMIT_STAT_SRCDESC = true ∧ (t.cmd s.nextCmd).isSome = true)))
  ∧ (∀ (src dst : Fin 16) (axes : BitVec 256) (x : FTime), s.admits q h 0x0D false → s.portFlag 0 fPLAN_P_FLAGS_LANE = true →
      s.permAll 0 pmCFG (s.laneAxes src) = true → s.migNo src dst (s.laneAxes src) = none →
      Completes (.migrate h (BitVec.ofNat 8 src) (BitVec.ofNat 8 dst) true axes x) s (fun t => ∃ m, t.mig = some m ∧ m.src = src.val
        ∧ m.dst = dst.val ∧ m.axes = s.laneAxes src ∧ m.cmd = some s.nextCmd ∧ m.at_ = (if x = 0 then s.now else x)
        ∧ t.fget rLPE_MIG fLPE_MIG_PHASE = 1))
  ∧ (∀ (p : Fin 2), s.admits q h 0x0E false →
      ((s.txtsPop p).2 = none → Completes (.txts h (BitVec.ofNat 8 p)) s (fun t => t.ended s q h 0 0))
      ∧ (∀ f x, (s.txtsPop p).2 = some (f, x) → Completes (.txts h (BitVec.ofNat 8 p)) s (fun t =>
          t.ended s q h 0 (x.toNat + f.toNat * 2 ^ 64 + 2 ^ 80))))

/-! ### Stream port -/

/-- R400-R405, R515: the stream link: down, INIT, credits, frames received, trajectory records, bulk data for a cam table, and the flight
log's frames. -/
def Obligations.StreamRows : Prop := ∀ (s : State),
  let counts := fun (t : State) (k : Nat) => t.fget (rNET_STR_CNT k) cntBits = min 0xFFFF (s.fget (rNET_STR_CNT k) cntBits + 1)
  let quiet := (s.gdev.filter (fun e => !e.2.upData.isEmpty)) = []
  Completes .streamLinkDown s (fun t => t.strLink = 0 ∧ t.fget rNET_STR_CRED fNET_STR_CRED_TXCRED = 0 ∧ t.stream.sentInit = false
    ∧ t.stream.rcvdInit = false ∧ (s.strLink ≠ 0 → t.flag rNET_STR_STAT fNET_STR_STAT_LINKEVT = true))
  ∧ (s.flag rNET_STR_CFG fNET_STR_CFG_EN = true →
    (s.stream.rcvdInit = false → Completes .streamInitSend s (fun t => t.stream.sentInit = true ∧ t.strLink = (if s.strLink = 0 then 1 else s.strLink)
      ∧ t.stream.sent = [⟨1, 0, BitVec.ofNat 16 s.stream.retPend, [0, 1, 0, 0, 1, 0, 0, 0]⟩]))
    ∧ (s.stream.rcvdInit = true → s.stream.sentInit = false → quiet → Completes .streamInitSend s (fun t => t.strLink = 2
      ∧ t.stream.sent = [⟨1, 0, BitVec.ofNat 16 s.stream.retPend, [0, 1, 0, 0, 1, 0, 0, 0]⟩]))
    ∧ (∀ (typ : BitVec 8) (len : Nat) (seq cret : BitVec 16) (pl : List Byte),
        (∀ crc ok, crc ≠ strCrc typ len seq cret pl → Completes (.streamFrameReceive typ len seq cret pl crc ok) s (fun t => counts t 0
          ∧ t.stream.sent = s.stream.sent ∧ t.stream.rcvdInit = s.stream.rcvdInit ∧ t.axes = s.axes))
        ∧ Completes (.streamFrameReceive typ len seq cret pl (strCrc typ len seq cret pl) false) s (fun t => counts t 1 ∧ t.axes = s.axes))
    ∧ (∀ (seq cret n : BitVec 16), n ≠ 0 → quiet → s.strLink ≠ 2 → s.stream.sentInit = true →
        let pl := leBytes 4 n.toNat ++ [1, 0, 0, 0]
        Completes (.streamFrameReceive 1 8 seq cret pl (strCrc 1 8 seq cret pl) true) s (fun t => t.strLink = 2
          ∧ t.stream.rcvdInit = true ∧ t.stream.seqRx = 0 ∧ t.fget rNET_STR_CRED fNET_STR_CRED_TXCRED = n.toNat))
    ∧ (s.strLink = 2 → quiet → ∀ (seq cret : BitVec 16) (pl : List Byte),
        Completes (.streamFrameReceive 2 0 seq cret [] (strCrc 2 0 seq cret []) true) s (fun t => t.fget rNET_STR_CRED fNET_STR_CRED_TXCRED
          = min 0xFFFF (s.fget rNET_STR_CRED fNET_STR_CRED_TXCRED + cret.toNat) ∧ t.wrote s [rNET_STR_CRED])
        ∧ (pl.length % 8 = 0 → pl.length ≤ 2048 → Completes (.streamFrameReceive 3 pl.length seq cret pl (strCrc 3 pl.length seq cret pl) true) s (fun t =>
            t.stream.seqRx = seq + 1 ∧ (seq ≠ s.stream.seqRx → counts t 2) ∧ t.axes = s.axes))))
  ∧ (s.strLink = 2 →
    (s.stream.retPend ≠ 0 → Completes .streamCreditSend s (fun t => t.stream.retPend = 0
      ∧ t.stream.sent = [⟨2, s.stream.seqTx, BitVec.ofNat 16 s.stream.retPend, []⟩]
      ∧ t.stream.wire = [2, 0, 0, 0] ++ leBytes 2 s.stream.seqTx.toNat ++ leBytes 2 (s.stream.retPend % 65536)
          ++ leBytes 4 (strCrc 2 0 s.stream.seqTx (BitVec.ofNat 16 s.stream.retPend) []).toNat ∧ t.regs = s.regs))
    ∧ (∀ (axis kind : BitVec 8) (x : FTime) (v : BitVec 64), kind.toNat ≤ 2 → s.valueOK axis.toNat v = true →
        (s.perm 1 axis.toNat pmMOTION = false → s.netFlag rNET_STR_CFG fNET_STR_CFG_REPORT = false →
          Completes (.trajRecord axis kind false x v) s (fun t => counts t 3 ∧ t.wrote s [rNET_STR_CNT 3, rPLAN_P_DENY 1]))
        ∧ (s.perm 1 axis.toNat pmMOTION = true → kind.toNat = s.axCmode axis.toNat → s.inPlan axis.toNat = true →
            s.takesMotion axis.toNat false = true → s.pointsQueued axis.toNat < 16 → Completes (.trajRecord axis kind false x v) s (fun t =>
              (t.ax axis.toNat).causes = (s.ax axis.toNat).causes ++ [.point x (if s.axCmode axis.toNat = 1 then velIn v else v)]
              ∧ t.regs = s.regs)))
    ∧ (s.flag rFLOG_CTL fFLOG_CTL_STREAM = true → quiet → s.flog.store.take s.logMost ≠ [] → Completes .flogStreamDrain s (fun t =>
        t.flog.store = s.flog.store.drop s.logMost
        ∧ ∃ f, t.stream.sent = [f] ∧ f.typ = 5 ∧ f.payload = (s.flog.store.take s.logMost).flatMap (fun r => leBytes 32 r.toNat))))
  ∧ (∀ (xfer off : Word) (flags te po st : BitVec 8) (data : List Byte), s.stream.rxq.all (fun e => e.2) = false →
      (s.camPending xfer = none → Completes (.streamBulkTransfer xfer 1 flags te po st off data) s (fun t => counts t 4 ∧ t.sram = s.sram))
      ∧ (∀ k cam cf base n mstep, s.camPending xfer = some (k, cam, cf, base, n, mstep) → s.sramUpsets = [] → flags.getLsbD 1 = false →
          off.toNat + data.length ≤ 8 * n.toNat → Completes (.streamBulkTransfer xfer 1 flags te po st off data) s (fun t =>
            bytesAt t.sram s.sram (0x104000 + 8 * base.toNat + off.toNat) data ∧ t.cmds = s.cmds)))

/-! ### Service and flight log -/

/-- R501-R511, R517, R518: migrations and repairs of lanes, lane images, the pilots' slots and their updates. That the service objects of the
mailbox are refused before READY is the model's reading (log entry 105). -/
def Obligations.ServiceRows : Prop := ∀ (s : State),
  (∀ m, s.mig = some m →
    (m.tw = none → s.flag (rLPE_L_STAT m.dst) fLPE_L_STAT_BANKBUSY = false →
      (s.flag rANC_STAT fANC_STAT_ACTVAL = true → s.migFit m.src m.dst m.axes = none → m.axes ≠ [] → Completes .migrationCheckEnd s (fun t =>
        ∃ m', t.mig = some m' ∧ m'.tw = some (if reached s.now m.at_ then s.now else m.at_) ∧ m'.axes = m.axes
          ∧ t.fget rLPE_MIG fLPE_MIG_PHASE = 2))
      ∧ (s.flag rANC_STAT fANC_STAT_ACTVAL = false → m.repair = false → Completes .migrationCheckEnd s (fun t => t.mig = none
          ∧ t.flag rLPE_MIG fLPE_MIG_MIGERR = true ∧ t.fget rLPE_MIG fLPE_MIG_REASON = 2 ∧ t.fget rLPE_MIG fLPE_MIG_PHASE = 0)))
    ∧ (∀ (n : Fin 256) (tw : FTime), m.tw = some tw → reached (s.axTickStart n) tw = true → n.val ∈ m.axes → m.dst < 16 →
        (∀ j ∈ m.axes, j < n.val → s.axTickStart j ≠ s.axTickStart n) →
        (s.ln m.src).stsz / 8 + (if m.bAt = s.axTickStart n then m.bWords else 0) ≤ 384 → s.windowBad m.src (s.ax n).lidx = false →
        (s.ln m.src).trapped = false → (∃ j ∈ m.axes, j ≠ n.val) →
        let k := ((m.idx.find? (fun e => e.1 == n.val)).map (fun e => e.2)).getD 0
        Completes (.migrationSwitch n) s (fun t => t.axLane n = m.dst ∧ (t.ax n).lidx = k
          ∧ (t.mig.map (fun x => (x.axes, x.moved))) = some (m.axes.filter (fun j => j != n.val), m.moved + 1)
          ∧ bytesAt (t.ln m.dst).mem (s.ln m.dst).mem ((s.ln m.dst).window k)
              (memRead (s.ln m.src).mem ((s.ln m.src).window (s.ax n).lidx) (s.ln m.src).stsz))))
  ∧ (∀ l d : Fin 16, l.val ∈ s.repairs → s.mig = none → s.commit = none → s.flag rANC_STAT fANC_STAT_ACTVAL = true →
      (s.repairPlan l).all (fun e => e.2 == some d.val) = true → s.repairPlan l ≠ [] → Completes (.repairMigrationStart l) s (fun t =>
        (t.mig.map (fun m => (m.src, m.dst, m.axes, m.repair))) = some (l.val, d.val, (s.repairPlan l).map (fun e => e.1), true)
        ∧ l.val ∉ t.repairs))
  ∧ (∀ (l : Fin 16) (res : LoadResult), s.su.loadMask.getLsbD l = true →
      (res.image = none → Completes (.laneLoadComplete l res) s (fun t => t.flag (rLPE_L_STAT l) fLPE_L_STAT_LOADERR = true
        ∧ t.su.loadMask.getLsbD l = false ∧ t.lanes = s.lanes))
      ∧ (∀ all, res.image = some all →
          let b := all.take s.su.loadLen.toNat
          let good := imgGood b = true ∧ codeGood ((imgF b 7 1).testBit 0) (imgCode b) = true ∧ (s.laneAxes l).all (implementsAxis s (imgLoops b)) = true
          (¬good → Completes (.laneLoadComplete l res) s (fun t => t.flag (rLPE_L_STAT l) fLPE_L_STAT_LOADERR = true ∧ t.lanes = s.lanes))
          ∧ (good → res.testOk = true → Completes (.laneLoadComplete l res) s (fun t =>
              t.flag (rLPE_L_STAT l) fLPE_L_STAT_RUN = true ∧ (t.ln l).trapped = false ∧ t.rget (rLPE_L_IMGID l) = BitVec.ofNat 32 (imgF b 8 4)
              ∧ t.rget (rLPE_L_IMGVER l) = BitVec.ofNat 32 (imgF b 12 4) ∧ (t.ln l).loops = imgLoops b ∧ t.su.loadMask.getLsbD l = false
              ∧ ∀ k, k ≠ l.val → t.ln k = s.ln k))
          ∧ (good → res.testOk = false → Completes (.laneLoadComplete l res) s (fun t => (t.ln l).trapped = true
              ∧ t.fget (rLPE_L_STAT l) fLPE_L_STAT_TRAPCODE = 8 ∧ t.flag (rLPE_L_STEST l) fLPE_L_STEST_FAIL = true))))
  ∧ (∀ (b ok : Bool) (ver : Word), s.su.updRun = some b → Completes (.pilotUpdateComplete ok ver) s (fun t => t.su.updRun = none
      ∧ t.fget rPIL_STAT fPIL_STAT_UPD = (if ok then 2 else 3) ∧ t.flag rPIL_STAT (if b then fPIL_STAT_VALB else fPIL_STAT_VALA) = ok
      ∧ t.rget (if b then rPIL_VERB else rPIL_VERA) = if ok then ver else 0))
  ∧ (∀ (p : Fin 2) (b : Bool), (s.pilot p).bootPend = some b →
      Completes (.pilotBootComplete p true) s (fun t => (t.pilot p).running = true ∧ (t.pilot p).slot = b ∧ (t.pilot p).bootPend = none
        ∧ t.flag rPIL_STAT (pilRUN p) = true ∧ t.flag rPIL_STAT (pilSLOT p) = b
        ∧ ((s.pilot p).bootNext = true → t.su.bootSlot = b ∧ t.flag rPIL_STAT fPIL_STAT_BOOT = b))
      ∧ Completes (.pilotBootComplete p false) s (fun t => (t.pilot p).running = (s.pilot p).running ∧ (t.pilot p).bootPend = none
        ∧ t.flag rPIL_STAT (if b then fPIL_STAT_VALB else fPIL_STAT_VALA) = false))
  ∧ (∀ p : Fin 2, (s.pilot p).running = true → s.flag rPIL_STAT (pilJSYNC p) = false → Completes (.journalSync p) s (fun t =>
      t.flag rPIL_STAT (pilJSYNC p) = true ∧ (s.sramUpsets = [] → t.posted s [rPIL_STAT])
      ∧ ∀ u, s.sramUpsets = [(u, true)] → 0x34C000 ≤ 8 * u → 8 * u < 0x44C000 → u ∈ t.journalBad))
  ∧ (∀ (set : Fin 4) (via : RegPath), s.mbxFree set.val via → s.fget rSU_STAT fSU_STAT_PHASE ≠ 3 →
      Completes (.plSwap set via) s (fun t => t.answers set.val mbxREFUSED [])
      ∧ Completes (.flogPop set via) s (fun t => t.answers set.val mbxREFUSED [] ∧ t.flog = s.flog))

/-- R506-R511, R518: the service objects of the mailbox, once the device is READY. -/
def Obligations.ServiceObjects : Prop := ∀ (s : State) (set : Fin 4) (via : RegPath), s.mbxFree set.val via →
  (s.fget rSU_STAT fSU_STAT_PHASE = 3 →
    (∀ (addr : BitVec 64) (len mask : Word), (via = .p8 → s.portFlag 8 fPLAN_P_FLAGS_LANE = true) →
      (addr.toNat % 8 ≠ 0 → Completes (.lnLoad set via addr len mask) s (fun t => t.answers set.val mbxRANGE [] ∧ t.su = s.su))
      ∧ (addr.toNat % 8 = 0 → s.su.loadMask = 0 → (∀ l : Fin 16, mask.getLsbD l = true → s.laneAxes l = []
          ∧ (s.fget rLPE_RETIRE fLPE_RETIRE_HARD).testBit l = false) → Completes (.lnLoad set via addr len mask) s (fun t =>
            t.answers set.val mbxOK [] ∧ t.su.loadMask = mask.setWidth 16 ∧ t.su.loadLen = len)))
    ∧ (∀ i : BitVec 14, (24 < i.toNat → Completes (.ttRipclr set via i) s (fun t => t.answers set.val mbxRANGE [] ∧ t.ports = s.ports))
      ∧ (i.toNat < 24 → s.ripClosed10 i.toNat = false → Completes (.ttRipclr set via i) s (fun t => t.answers set.val mbxREFUSED []
          ∧ t.ports = s.ports))
      ∧ (i.toNat = 24 → Completes (.ttRipclr set via i) s (fun t => t.answers set.val mbxOK [] ∧ t.ports = s.ports ∧ t.axes = s.axes))
      ∧ (i.toNat < 24 → s.ripClosed10 i.toNat = true → Completes (.ttRipclr set via i) s (fun t => t.answers set.val mbxOK []
          ∧ (t.port i.toNat).waiting = (s.port i.toNat).waiting ++ [cfgWrFrame 0 true 0 0x048 [0x20000]] ∧ t.axes = s.axes)))
    ∧ (∀ (addr : BitVec 64) (len : Word) (p : Nat), s.activePilot = some p → s.su.updRun = none → len.toNat ≤ 4 * 2 ^ 20 →
        (s.pilot0.running && s.pilot1.running && s.pilot0.slot != s.pilot1.slot) = false → Completes (.plUpd set via addr len) s (fun t =>
          t.answers set.val mbxOK [] ∧ t.su.updRun = some (!(s.pilot p).slot) ∧ t.fget rPIL_STAT fPIL_STAT_UPD = 1))
    ∧ (∀ (i : BitVec 14) (d : Word), i.toNat < 2 →
        (s.activePilot = some i.toNat → Completes (.plStart set via i d) s (fun t => t.answers set.val mbxREFUSED []
          ∧ t.pilot0 = s.pilot0 ∧ t.pilot1 = s.pilot1))
        ∧ (s.activePilot ≠ some i.toNat → Completes (.plStart set via i d) s (fun t => t.answers set.val mbxOK []
          ∧ (t.pilot i.toNat).running = false ∧ (t.pilot i.toNat).bootPend = some (d.getLsbD 0) ∧ (t.pilot i.toNat).bootNext = d.getLsbD 1
          ∧ t.flag rPIL_STAT (pilRUN i.toNat) = false)))
    ∧ (∀ p, s.activePilot = some p → s.flag rANC_STAT fANC_STAT_STBY = true →
        (if p = 0 then s.anchor.beat1 else s.anchor.beat0).refuse = false → s.fget rGLB_COMMIT_STAT fGLB_COMMIT_STAT_PHASE ≠ 1 →
        s.mig = none → s.su.updRun = none → Completes (.plSwap set via) s (fun t => t.answers set.val mbxOK [] ∧ (t.pilot p).swap = true))
    ∧ (∀ code : Word, s.flogOn = true → s.flag rFLOG_CTL fFLOG_CTL_FREEZE = true → s.flag rFLOG_STAT fFLOG_STAT_FROZEN = false →
        Completes (.flogTrig set via code) s (fun t => t.answers set.val mbxOK [] ∧ t.flag rFLOG_STAT fFLOG_STAT_TRIGD = true
          ∧ (s.flog.postLeft = none → t.flog.postLeft = some (s.fget rFLOG_CTL fFLOG_CTL_POST * 256))))
    ∧ (s.flog.store = [] → Completes (.flogPop set via) s (fun t => t.answers set.val mbxOK [0, 0, 0, 0, 0, 0, 0, 0] ∧ t.flog = s.flog))
    ∧ (∀ r rest, s.flog.store = r :: rest → Completes (.flogPop set via) s (fun t =>
        t.answers set.val mbxOK ((List.range 8).map (fun k => (r >>> (32 * k)).setWidth 32)) ∧ t.flog.store = rest)))

/-- R513-R516, R520: the flight log: records reach the store, the log freezes after its trigger, it is unfrozen and flushed, and counters are
snapped. -/
def Obligations.FlightLogRows : Prop := ∀ (s : State),
  (∀ r, s.flag rSU_STAT fSU_STAT_DDRREADY = true → s.flog.staging = [r] →
    (s.flog.store.length < s.flogCap → Completes .flogStoreWrite s (fun t => t.flog.store = s.flog.store ++ [r] ∧ t.flog.staging = []))
    ∧ (s.flogCap ≤ s.flog.store.length → s.flag rFLOG_CTL fFLOG_CTL_WRAP = false → Completes .flogStoreWrite s (fun t =>
        t.flog.store = s.flog.store ∧ t.flog.staging = [r] ∧ t.flag rFLOG_STAT fFLOG_STAT_FULL = true))
    ∧ (s.flogCap ≤ s.flog.store.length → s.flag rFLOG_CTL fFLOG_CTL_WRAP = true → Completes .flogStoreWrite s (fun t =>
        t.flog.store = s.flog.store.drop 1 ++ [r] ∧ t.flog.staging = [])))
  ∧ (s.flog.postLeft = some 0 → s.flag rFLOG_STAT fFLOG_STAT_FROZEN = false → Completes .flogFreeze s (fun t =>
      t.flag rFLOG_STAT fFLOG_STAT_FROZEN = true ∧ t.flog.postLeft = none ∧ t.flog.store = s.flog.store))
  ∧ (∀ via : RegPath, s.p8Denied via rFLOG_CMD = false →
      Completes (.unfreeze via) s (fun t => t.flag rFLOG_STAT fFLOG_STAT_FROZEN = false ∧ t.wrote s [rFLOG_CMD, rFLOG_STAT])
      ∧ Completes (.flush via) s (fun t => t.flog.store = [] ∧ t.flog.staging = [] ∧ t.fget rFLOG_FILL fFLOG_FILL_FILL = 0
          ∧ t.flag rFLOG_STAT fFLOG_STAT_FROZEN = s.flag rFLOG_STAT fFLOG_STAT_FROZEN))
  ∧ (s.flogOn = true → s.fget rFLOG_CTL fFLOG_CTL_SNAP ≠ 0 → (s.fget rFLOG_CTL fFLOG_CTL_TYPES).testBit 3 = true →
      Completes .errsnapPeriod s (fun t => ∀ o ∈ snapRegs, postReg o = false → tget (regReset o) t.flog.snap o = s.rget o))

/-! ### Mailbox objects -/

/-- R132, R138-R144, R162, R212, R255-R275, R287, R301, R443-R447: the objects that read positions, set-points, estimates, entries, records
and registers, and those that set a position or withdraw a reference. Each is to answer
with the words that it gives, in DATA0 on. -/
def Obligations.MailboxObjects : Prop := ∀ (s : State) (set : Fin 4) (via : RegPath), s.mbxFree set.val via →
  (∀ i : BitVec 14, 256 ≤ i.toNat → Completes (.fbPos set via i) s (fun t => t.answers set.val mbxRANGE [])
      ∧ Completes (.prfSp set via i) s (fun t => t.answers set.val mbxRANGE []))
  ∧ (∀ i : BitVec 14, i.toNat < 256 →
    let n := i.toNat
    let a := s.ax n
    let g := a.gen
    let u := s.asked set.val 0x040 0 i []
    let bit := fun (f : Bits) (k : Nat) => if s.flag (rFBK_STAT n) f then 2 ^ k else 0
    Completes (.fbPos set via i) s (fun t => t.answers set.val mbxOK (words64 (s.actPos n) ++ words64 (s.actSpd n) ++ [a.turns]
      ++ words64 a.spdMid ++ [BitVec.ofNat 32 (bit fFBK_STAT_REFD 0 + bit fFBK_STAT_STILL 1 + bit fFBK_STAT_PLIM_NOW 2
        + bit fFBK_STAT_SHIFT_PEND 3)]) ∧ t.axes = s.axes)
    ∧ (∀ p : BitVec 64,
        let ok := p.toNat % 65536 = 0 ∧ (s.fbModulo n = true → 0 ≤ p.toInt ∧ p.toInt < s.fbM n * 65536)
        (ok → Completes (.fbSetpos set via i p) s (fun t => t.answers set.val mbxOK [] ∧ (t.ax n).setPos = some p
          ∧ t.flag (rFBK_STAT n) fFBK_STAT_SHIFT_PEND = true))
        ∧ (¬ok → Completes (.fbSetpos set via i p) s (fun t => t.answers set.val mbxREFUSED [] ∧ t.axes = s.axes)))
    ∧ Completes (.fbUnref set via i) s (fun t => t.answers set.val mbxOK [] ∧ t.flag (rFBK_STAT n) fFBK_STAT_REFD = false)
    ∧ Completes (.fbCorr set via i) s (fun t => t.answers set.val mbxOK (words64 a.cix ++ words64 a.cuser ++ words64 a.x) ∧ t.axes = s.axes)
    ∧ Completes (.axDly set via i) s (fun t => t.answers set.val mbxOK [satWord a.closed.dmin, satWord a.closed.dmax,
        satWord (if a.closed.n = 0 then 0 else a.closed.dsum / a.closed.n), satWord a.closed.cmax, satWord a.closed.n, satWord a.d,
        satWord a.dhat, a.winNo.setWidth 32] ∧ t.axes = s.axes)
    ∧ Completes (.tqEst set via i) s (fun t => t.answers set.val mbxOK a.snap ∧ t.axes = s.axes)
    ∧ Completes (.prfSp set via i) s (fun t => t.answers set.val mbxOK (words64 (u.spAt n s.now).1 ++ words64 (u.spAt n s.now).2.1
        ++ words64 (u.spAt n s.now).2.2 ++ words64 s.now) ∧ t.axes = s.axes)
    ∧ (s.flag (rPRF_STAT n) fPRF_STAT_REMV = false → g.remPend = false → Completes (.prfState set via i) s (fun t => t.answers set.val mbxOK
        (words64 g.target ++ words64 g.remain ++ words64 g.tArr ++ [BitVec.ofNat 32 (srcCode g.src), BitVec.ofNat 32 g.stream.length])
        ∧ t.axes = s.axes))
    ∧ Completes (.brState set via i) s (fun t => t.answers set.val mbxOK (words64 (BitVec.ofInt 64 g.br.mdisp)
        ++ words64 (BitVec.ofInt 64 g.br.base) ++ words64 (BitVec.ofInt 64 g.br.offset) ++ words64 g.lag) ∧ t.axes = s.axes)
    ∧ (a.lat = [] → Completes (.latPop set via i) s (fun t => t.answers set.val mbxOK [0, 0, 0, 0, 0, 0] ∧ t.axes = s.axes))
    ∧ (∀ r rest, a.lat = r :: rest → Completes (.latPop set via i) s (fun t => (t.ax n).lat = rest ∧ t.answers set.val mbxOK (words64 r.t
        ++ words64 (BitVec.ofInt 64 (r.pos.toInt * 65536)) ++ [BitVec.ofNat 32 (r.tail.toNat / 2 ^ 48 + 2 ^ 31), BitVec.ofNat 32 rest.length]))))
  ∧ (∀ i : BitVec 14,
    (i.toNat < 16 →
      let m := s.rmSlot i.toNat
      Completes (.rmRead set via i) s (fun t => t.answers set.val mbxOK (words64 m.t ++ words64 m.p ++ words64 m.v
        ++ [BitVec.ofNat 32 (s.fget (rLPE_RM_STAT i.toNat) fLPE_RM_STAT_STALE)]) ∧ t.rm = s.rm))
    ∧ Completes (.cmpRead set via i) s (fun t => t.answers set.val mbxOK ((List.range 8).map (fun k =>
        BitVec.ofNat 32 ((s.ce i.toNat).raw.toNat >>> (32 * k)))) ∧ t.cmp = s.cmp)
    ∧ ((s.ce i.toNat).st = .fired → (s.ce i.toNat).susp = false → Completes (.cmpInfo set via i) s (fun t =>
        t.answers set.val mbxOK (3 :: words64 (s.ce i.toNat).tf) ∧ t.cmp = s.cmp))
    ∧ ((s.ce i.toNat).st = .armed → (s.ce i.toNat).susp = true → Completes (.cmpInfo set via i) s (fun t =>
        t.answers set.val mbxOK [5, 0, 0] ∧ t.cmp = s.cmp))
    ∧ (i.toNat < 32 →
      let f := s.fin_ i.toNat
      Completes (.fioEdge set via i) s (fun t => t.answers set.val mbxOK (words64 f.lastRise ++ words64 f.lastFall
        ++ [BitVec.ofNat 32 (s.fget (rFIO_FIN_STAT i.toNat) fFIO_FIN_STAT_ACC + (if f.filt then 65536 else 0) + (if f.run.isSome then 131072 else 0))]
        ++ words64 (f.run.getD 0)))))
  ∧ (∀ off : BitVec 24,
    (peekOK off.toNat = true → Completes (.peek set via off) s (fun t => t.answers set.val mbxOK
      ([off.setWidth 32, (s.asked set.val 0x0F0 0 0 [off.setWidth 32]).view off.toNat] ++ words64 s.now) ∧ t.work = s.work))
    ∧ (peekOK off.toNat = false → Completes (.peek set via off) s (fun t => t.answers set.val mbxRANGE []))
    ∧ (∀ r, regRow off.toNat = some r → r.sh ≠ 0 → Completes (.cfgWork set via off) s (fun t => t.answers set.val mbxOK
        [off.setWidth 32, s.wcopy off.toNat &&& BitVec.ofNat 32 r.sh, s.rget off.toNat &&& BitVec.ofNat 32 r.sh] ∧ t.work = s.work)))
end

