-- ==== Sys2Proof/Laws/Tables.lean ====
section
/-! SUPPORT. The laws of tables: a read after a write, and that every table operation keeps the canonical form. -/
namespace Sys2Proof.Machine

variable {α : Type}

/-- A dropped key reads as an unlisted one. -/
@[simp] theorem tget_tdrop_same (d : α) (t : Tbl α) (k : Nat) : tget d (tdrop t k) k = d := by
  induction t with
  | nil => rfl
  | cons e r ih =>
    obtain ⟨k', v⟩ := e
    by_cases h : k = k'
    · simpa [tdrop, h] using h ▸ ih
    · simp [tdrop, tget, h, ih]

/-- Dropping a key leaves every other key. -/
theorem tget_tdrop_ne (d : α) (t : Tbl α) {k j : Nat} (h : j ≠ k) : tget d (tdrop t k) j = tget d t j := by
  induction t with
  | nil => rfl
  | cons e r ih =>
    obtain ⟨k', v⟩ := e
    by_cases hk : k = k'
    · subst hk; simp [tdrop, tget, h, ih]
    · by_cases hj : j = k'
      · subst hj; simp [tdrop, tget, hk]
      · simp [tdrop, tget, hk, hj, ih]

variable [DecidableEq α]

/-- A read after a write of the same key. -/
@[simp] theorem tget_tset_same (d : α) (t : Tbl α) (k : Nat) (v : α) : tget d (tset d t k v) k = v := by
  induction t with
  | nil => by_cases h : v = d <;> simp [tset, tget, h]
  | cons e r ih =>
    obtain ⟨k', v'⟩ := e
    simp only [tset]
    split
    · split
      · rename_i h; rw [tget_tdrop_same, h]
      · simp [tget]
    · split
      · rename_i h; subst h
        split
        · rename_i h; rw [tget_tdrop_same, h]
        · simp [tget]
      · rename_i h; simp [tget, h, ih]

/-- A write leaves every other key, whatever an unlisted key reads as. -/
theorem tget_tset_ne (d d' : α) (t : Tbl α) {k j : Nat} (v : α) (h : j ≠ k) : tget d' (tset d t k v) j = tget d' t j := by
  induction t with
  | nil => by_cases hv : v = d <;> simp [tset, tget, hv, h]
  | cons e r ih =>
    obtain ⟨k', v'⟩ := e
    simp only [tset]
    split
    · split
      · exact tget_tdrop_ne d' _ h
      · simp [tget, h]
    · split
      · rename_i hk; subst hk
        split
        · rw [tget_tdrop_ne d' _ h]; simp [tget, h]
        · simp [tget, h]
      · by_cases hj : j = k'
        · simp [tget, hj]
        · simp [tget, hj, ih]

/-- Every read after a write. -/
theorem tget_tset (d : α) (t : Tbl α) (k j : Nat) (v : α) : tget d (tset d t k v) j = if j = k then v else tget d t j := by
  by_cases h : j = k
  · subst h; simp
  · simp [h, tget_tset_ne d d t v h]

/-- Every read after a change of every entry. -/
theorem tget_tmap (d : α) (f : α → α) (hf : f d = d) (t : Tbl α) (k : Nat) : tget d (tmap d f t) k = f (tget d t k) := by
  induction t with
  | nil => exact hf.symm
  | cons e r ih =>
    obtain ⟨k', v⟩ := e
    simp only [tmap]
    by_cases hk : k = k'
    · subst hk
      split
      · rename_i h; simp [tget, h]
      · simp [tget]
    · split
      · simp [tget, hk, tget_tdrop_ne d _ hk, ih]
      · simp [tget, hk, ih]

/-! ### The canonical form -/

/-- The canonical form as a recursion: every later key is larger, and no entry says what an unlisted key reads as. -/
theorem twf_cons (d : Nat → α) (k : Nat) (v : α) (r : Tbl α) :
    twf d ((k, v) :: r) = true ↔ v ≠ d k ∧ (∀ e ∈ r, k < e.1) ∧ twf d r = true := by
  induction r generalizing k v with
  | nil => simp [twf, tsorted]
  | cons e r ih =>
    obtain ⟨k', v'⟩ := e
    have h := ih k' v'
    simp only [twf, tsorted, Bool.and_eq_true, List.all_cons, decide_eq_true_eq, List.mem_cons, forall_eq_or_imp] at h ⊢
    constructor
    · rintro ⟨⟨hlt, hs⟩, hv, hv', ha⟩
      have hall := (h.1 ⟨hs, hv', ha⟩).2.1
      exact ⟨hv, ⟨hlt, fun e he => Nat.lt_trans hlt (hall e he)⟩, hs, hv', ha⟩
    · rintro ⟨hv, ⟨hlt, -⟩, hs, hv', ha⟩
      exact ⟨⟨hlt, hs⟩, hv, hv', ha⟩

omit [DecidableEq α] in
/-- Entries of a table without a key are entries of the table. -/
theorem mem_tdrop {t : Tbl α} {k : Nat} {e : Nat × α} (h : e ∈ tdrop t k) : e ∈ t := by
  induction t with
  | nil => exact h
  | cons e' r ih =>
    obtain ⟨k', v⟩ := e'
    by_cases hk : k = k'
    · exact List.mem_cons_of_mem _ (ih (by simpa [tdrop, hk] using h))
    · rcases List.mem_cons.1 (by simpa [tdrop, hk] using h) with h | h
      · exact h ▸ List.mem_cons_self
      · exact List.mem_cons_of_mem _ (ih h)

/-- Dropping a key keeps the canonical form. -/
theorem tdrop_wf (d : Nat → α) {t : Tbl α} (k : Nat) (h : twf d t = true) : twf d (tdrop t k) = true := by
  induction t with
  | nil => exact h
  | cons e r ih =>
    obtain ⟨k', v⟩ := e
    obtain ⟨h1, h2, h3⟩ := (twf_cons d k' v r).1 h
    by_cases hk : k = k'
    · simpa [tdrop, hk] using hk ▸ ih h3
    · rw [show tdrop ((k', v) :: r) k = (k', v) :: tdrop r k from by simp [tdrop, hk]]
      exact (twf_cons d k' v _).2 ⟨h1, fun e he => h2 e (mem_tdrop he), ih h3⟩

/-- Entries after a write: entries of the table, or the entry written. -/
theorem mem_tset {d : α} {t : Tbl α} {k : Nat} {v : α} {e : Nat × α} (h : e ∈ tset d t k v) : e ∈ t ∨ e.1 = k := by
  induction t with
  | nil => by_cases hv : v = d <;> simp_all [tset]
  | cons e' r ih =>
    obtain ⟨k', v'⟩ := e'
    simp only [tset] at h
    split at h
    · split at h
      · exact .inl (mem_tdrop h)
      · rcases List.mem_cons.1 h with h | h
        · exact .inr (h ▸ rfl)
        · exact .inl h
    · split at h
      · split at h
        · exact .inl (List.mem_cons_of_mem _ (mem_tdrop h))
        · rcases List.mem_cons.1 h with h | h
          · exact .inr (h ▸ rfl)
          · exact .inl (List.mem_cons_of_mem _ h)
      · rcases List.mem_cons.1 h with h | h
        · exact .inl (h ▸ List.mem_cons_self)
        · exact (ih h).imp (List.mem_cons_of_mem _) id

/-- A write keeps the canonical form. -/
theorem tset_wf (d : Nat → α) {t : Tbl α} (k : Nat) (v : α) (h : twf d t = true) : twf d (tset (d k) t k v) = true := by
  induction t with
  | nil => by_cases hv : v = d k <;> simp [tset, twf, tsorted, hv]
  | cons e r ih =>
    obtain ⟨k', v'⟩ := e
    obtain ⟨h1, h2, h3⟩ := (twf_cons d k' v' r).1 h
    simp only [tset]
    split
    · rename_i hlt
      split
      · exact tdrop_wf d k h
      · rename_i hv
        refine (twf_cons d k v _).2 ⟨hv, ?_, h⟩
        intro e he
        rcases List.mem_cons.1 he with he | he
        · exact he ▸ hlt
        · exact Nat.lt_trans hlt (h2 e he)
    · split
      · rename_i hk; subst hk
        split
        · exact tdrop_wf d k h3
        · rename_i hv; exact (twf_cons d k v r).2 ⟨hv, h2, h3⟩
      · rename_i hlt hk
        refine (twf_cons d k' v' _).2 ⟨h1, ?_, ih h3⟩
        intro e he
        rcases mem_tset he with he | he
        · exact h2 e he
        · omega

end Sys2Proof.Machine
end

