-- ==== Sys2Proof/Laws/State.lean ====
section
/-! SUPPORT. One lemma per field and update: an update leaves every other field as it was, and a unit reads back as written. -/
namespace Sys2Proof.Machine

variable (s : State)

/-! ### rset -/

@[simp] theorem State.rset_work (o : Nat) (v : Word) : (s.rset o v).work = s.work := (rfl)
@[simp] theorem State.rset_time (o : Nat) (v : Word) : (s.rset o v).time = s.time := (rfl)
@[simp] theorem State.rset_ports (o : Nat) (v : Word) : (s.rset o v).ports = s.ports := (rfl)
@[simp] theorem State.rset_gdev (o : Nat) (v : Word) : (s.rset o v).gdev = s.gdev := (rfl)
@[simp] theorem State.rset_gons (o : Nat) (v : Word) : (s.rset o v).gons = s.gons := (rfl)
@[simp] theorem State.rset_axes (o : Nat) (v : Word) : (s.rset o v).axes = s.axes := (rfl)
@[simp] theorem State.rset_emuAcc (o : Nat) (v : Word) : (s.rset o v).emuAcc = s.emuAcc := (rfl)
@[simp] theorem State.rset_cmp (o : Nat) (v : Word) : (s.rset o v).cmp = s.cmp := (rfl)
@[simp] theorem State.rset_bus (o : Nat) (v : Word) : (s.rset o v).bus = s.bus := (rfl)
@[simp] theorem State.rset_lanes (o : Nat) (v : Word) : (s.rset o v).lanes = s.lanes := (rfl)
@[simp] theorem State.rset_sram (o : Nat) (v : Word) : (s.rset o v).sram = s.sram := (rfl)
@[simp] theorem State.rset_sramUpsets (o : Nat) (v : Word) : (s.rset o v).sramUpsets = s.sramUpsets := (rfl)
@[simp] theorem State.rset_scrub (o : Nat) (v : Word) : (s.rset o v).scrub = s.scrub := (rfl)
@[simp] theorem State.rset_sqs (o : Nat) (v : Word) : (s.rset o v).sqs = s.sqs := (rfl)
@[simp] theorem State.rset_cqs (o : Nat) (v : Word) : (s.rset o v).cqs = s.cqs := (rfl)
@[simp] theorem State.rset_host (o : Nat) (v : Word) : (s.rset o v).host = s.host := (rfl)
@[simp] theorem State.rset_msgs (o : Nat) (v : Word) : (s.rset o v).msgs = s.msgs := (rfl)
@[simp] theorem State.rset_txq (o : Nat) (v : Word) : (s.rset o v).txq = s.txq := (rfl)
@[simp] theorem State.rset_txSent (o : Nat) (v : Word) : (s.rset o v).txSent = s.txSent := (rfl)
@[simp] theorem State.rset_cmds (o : Nat) (v : Word) : (s.rset o v).cmds = s.cmds := (rfl)
@[simp] theorem State.rset_nextCmd (o : Nat) (v : Word) : (s.rset o v).nextCmd = s.nextCmd := (rfl)
@[simp] theorem State.rset_rm (o : Nat) (v : Word) : (s.rset o v).rm = s.rm := (rfl)
@[simp] theorem State.rset_stream (o : Nat) (v : Word) : (s.rset o v).stream = s.stream := (rfl)
@[simp] theorem State.rset_commit (o : Nat) (v : Word) : (s.rset o v).commit = s.commit := (rfl)
@[simp] theorem State.rset_anchor (o : Nat) (v : Word) : (s.rset o v).anchor = s.anchor := (rfl)
@[simp] theorem State.rset_ancView (o : Nat) (v : Word) : (s.rset o v).ancView = s.ancView := (rfl)
@[simp] theorem State.rset_fltIn (o : Nat) (v : Word) : (s.rset o v).fltIn = s.fltIn := (rfl)
@[simp] theorem State.rset_fins (o : Nat) (v : Word) : (s.rset o v).fins = s.fins := (rfl)
@[simp] theorem State.rset_fouts (o : Nat) (v : Word) : (s.rset o v).fouts = s.fouts := (rfl)
@[simp] theorem State.rset_mig (o : Nat) (v : Word) : (s.rset o v).mig = s.mig := (rfl)
@[simp] theorem State.rset_repairs (o : Nat) (v : Word) : (s.rset o v).repairs = s.repairs := (rfl)
@[simp] theorem State.rset_flog (o : Nat) (v : Word) : (s.rset o v).flog = s.flog := (rfl)
@[simp] theorem State.rset_pilot0 (o : Nat) (v : Word) : (s.rset o v).pilot0 = s.pilot0 := (rfl)
@[simp] theorem State.rset_pilot1 (o : Nat) (v : Word) : (s.rset o v).pilot1 = s.pilot1 := (rfl)
@[simp] theorem State.rset_su (o : Nat) (v : Word) : (s.rset o v).su = s.su := (rfl)
@[simp] theorem State.rset_hold (o : Nat) (v : Word) : (s.rset o v).hold = s.hold := (rfl)
@[simp] theorem State.rset_journalBad (o : Nat) (v : Word) : (s.rset o v).journalBad = s.journalBad := (rfl)
@[simp] theorem State.rset_answer (o : Nat) (v : Word) : (s.rset o v).answer = s.answer := (rfl)
@[simp] theorem State.rset_sqLast (o : Nat) (v : Word) : (s.rset o v).sqLast = s.sqLast := (rfl)
@[simp] theorem State.rset_mbxAns (o : Nat) (v : Word) : (s.rset o v).mbxAns = s.mbxAns := (rfl)
@[simp] theorem State.rset_canT (o : Nat) (v : Word) : (s.rset o v).canT = s.canT := (rfl)
@[simp] theorem State.rset_netHeld (o : Nat) (v : Word) : (s.rset o v).netHeld = s.netHeld := (rfl)
@[simp] theorem State.rset_freeCtr (o : Nat) (v : Word) : (s.rset o v).freeCtr = s.freeCtr := (rfl)
@[simp] theorem State.rset_pending (o : Nat) (v : Word) : (s.rset o v).pending = s.pending := (rfl)

/-! ### wset -/

@[simp] theorem State.wset_regs (o : Nat) (v : Word) : (s.wset o v).regs = s.regs := (rfl)
@[simp] theorem State.wset_time (o : Nat) (v : Word) : (s.wset o v).time = s.time := (rfl)
@[simp] theorem State.wset_ports (o : Nat) (v : Word) : (s.wset o v).ports = s.ports := (rfl)
@[simp] theorem State.wset_gdev (o : Nat) (v : Word) : (s.wset o v).gdev = s.gdev := (rfl)
@[simp] theorem State.wset_gons (o : Nat) (v : Word) : (s.wset o v).gons = s.gons := (rfl)
@[simp] theorem State.wset_axes (o : Nat) (v : Word) : (s.wset o v).axes = s.axes := (rfl)
@[simp] theorem State.wset_emuAcc (o : Nat) (v : Word) : (s.wset o v).emuAcc = s.emuAcc := (rfl)
@[simp] theorem State.wset_cmp (o : Nat) (v : Word) : (s.wset o v).cmp = s.cmp := (rfl)
@[simp] theorem State.wset_bus (o : Nat) (v : Word) : (s.wset o v).bus = s.bus := (rfl)
@[simp] theorem State.wset_lanes (o : Nat) (v : Word) : (s.wset o v).lanes = s.lanes := (rfl)
@[simp] theorem State.wset_sram (o : Nat) (v : Word) : (s.wset o v).sram = s.sram := (rfl)
@[simp] theorem State.wset_sramUpsets (o : Nat) (v : Word) : (s.wset o v).sramUpsets = s.sramUpsets := (rfl)
@[simp] theorem State.wset_scrub (o : Nat) (v : Word) : (s.wset o v).scrub = s.scrub := (rfl)
@[simp] theorem State.wset_sqs (o : Nat) (v : Word) : (s.wset o v).sqs = s.sqs := (rfl)
@[simp] theorem State.wset_cqs (o : Nat) (v : Word) : (s.wset o v).cqs = s.cqs := (rfl)
@[simp] theorem State.wset_host (o : Nat) (v : Word) : (s.wset o v).host = s.host := (rfl)
@[simp] theorem State.wset_msgs (o : Nat) (v : Word) : (s.wset o v).msgs = s.msgs := (rfl)
@[simp] theorem State.wset_txq (o : Nat) (v : Word) : (s.wset o v).txq = s.txq := (rfl)
@[simp] theorem State.wset_txSent (o : Nat) (v : Word) : (s.wset o v).txSent = s.txSent := (rfl)
@[simp] theorem State.wset_cmds (o : Nat) (v : Word) : (s.wset o v).cmds = s.cmds := (rfl)
@[simp] theorem State.wset_nextCmd (o : Nat) (v : Word) : (s.wset o v).nextCmd = s.nextCmd := (rfl)
@[simp] theorem State.wset_rm (o : Nat) (v : Word) : (s.wset o v).rm = s.rm := (rfl)
@[simp] theorem State.wset_stream (o : Nat) (v : Word) : (s.wset o v).stream = s.stream := (rfl)
@[simp] theorem State.wset_commit (o : Nat) (v : Word) : (s.wset o v).commit = s.commit := (rfl)
@[simp] theorem State.wset_anchor (o : Nat) (v : Word) : (s.wset o v).anchor = s.anchor := (rfl)
@[simp] theorem State.wset_ancView (o : Nat) (v : Word) : (s.wset o v).ancView = s.ancView := (rfl)
@[simp] theorem State.wset_fltIn (o : Nat) (v : Word) : (s.wset o v).fltIn = s.fltIn := (rfl)
@[simp] theorem State.wset_fins (o : Nat) (v : Word) : (s.wset o v).fins = s.fins := (rfl)
@[simp] theorem State.wset_fouts (o : Nat) (v : Word) : (s.wset o v).fouts = s.fouts := (rfl)
@[simp] theorem State.wset_mig (o : Nat) (v : Word) : (s.wset o v).mig = s.mig := (rfl)
@[simp] theorem State.wset_repairs (o : Nat) (v : Word) : (s.wset o v).repairs = s.repairs := (rfl)
@[simp] theorem State.wset_flog (o : Nat) (v : Word) : (s.wset o v).flog = s.flog := (rfl)
@[simp] theorem State.wset_pilot0 (o : Nat) (v : Word) : (s.wset o v).pilot0 = s.pilot0 := (rfl)
@[simp] theorem State.wset_pilot1 (o : Nat) (v : Word) : (s.wset o v).pilot1 = s.pilot1 := (rfl)
@[simp] theorem State.wset_su (o : Nat) (v : Word) : (s.wset o v).su = s.su := (rfl)
@[simp] theorem State.wset_journalBad (o : Nat) (v : Word) : (s.wset o v).journalBad = s.journalBad := (rfl)
@[simp] theorem State.wset_answer (o : Nat) (v : Word) : (s.wset o v).answer = s.answer := (rfl)
@[simp] theorem State.wset_sqLast (o : Nat) (v : Word) : (s.wset o v).sqLast = s.sqLast := (rfl)
@[simp] theorem State.wset_mbxAns (o : Nat) (v : Word) : (s.wset o v).mbxAns = s.mbxAns := (rfl)
@[simp] theorem State.wset_canT (o : Nat) (v : Word) : (s.wset o v).canT = s.canT := (rfl)
@[simp] theorem State.wset_netHeld (o : Nat) (v : Word) : (s.wset o v).netHeld = s.netHeld := (rfl)
@[simp] theorem State.wset_freeCtr (o : Nat) (v : Word) : (s.wset o v).freeCtr = s.freeCtr := (rfl)
@[simp] theorem State.wset_pending (o : Nat) (v : Word) : (s.wset o v).pending = s.pending := (rfl)

/-! ### fset -/

@[simp] theorem State.fset_work (o : Nat) (b : Bits) (x : Nat) : (s.fset o b x).work = s.work := (rfl)
@[simp] theorem State.fset_time (o : Nat) (b : Bits) (x : Nat) : (s.fset o b x).time = s.time := (rfl)
@[simp] theorem State.fset_ports (o : Nat) (b : Bits) (x : Nat) : (s.fset o b x).ports = s.ports := (rfl)
@[simp] theorem State.fset_gdev (o : Nat) (b : Bits) (x : Nat) : (s.fset o b x).gdev = s.gdev := (rfl)
@[simp] theorem State.fset_gons (o : Nat) (b : Bits) (x : Nat) : (s.fset o b x).gons = s.gons := (rfl)
@[simp] theorem State.fset_axes (o : Nat) (b : Bits) (x : Nat) : (s.fset o b x).axes = s.axes := (rfl)
@[simp] theorem State.fset_emuAcc (o : Nat) (b : Bits) (x : Nat) : (s.fset o b x).emuAcc = s.emuAcc := (rfl)
@[simp] theorem State.fset_cmp (o : Nat) (b : Bits) (x : Nat) : (s.fset o b x).cmp = s.cmp := (rfl)
@[simp] theorem State.fset_bus (o : Nat) (b : Bits) (x : Nat) : (s.fset o b x).bus = s.bus := (rfl)
@[simp] theorem State.fset_lanes (o : Nat) (b : Bits) (x : Nat) : (s.fset o b x).lanes = s.lanes := (rfl)
@[simp] theorem State.fset_sram (o : Nat) (b : Bits) (x : Nat) : (s.fset o b x).sram = s.sram := (rfl)
@[simp] theorem State.fset_sramUpsets (o : Nat) (b : Bits) (x : Nat) : (s.fset o b x).sramUpsets = s.sramUpsets := (rfl)
@[simp] theorem State.fset_scrub (o : Nat) (b : Bits) (x : Nat) : (s.fset o b x).scrub = s.scrub := (rfl)
@[simp] theorem State.fset_sqs (o : Nat) (b : Bits) (x : Nat) : (s.fset o b x).sqs = s.sqs := (rfl)
@[simp] theorem State.fset_cqs (o : Nat) (b : Bits) (x : Nat) : (s.fset o b x).cqs = s.cqs := (rfl)
@[simp] theorem State.fset_host (o : Nat) (b : Bits) (x : Nat) : (s.fset o b x).host = s.host := (rfl)
@[simp] theorem State.fset_msgs (o : Nat) (b : Bits) (x : Nat) : (s.fset o b x).msgs = s.msgs := (rfl)
@[simp] theorem State.fset_txq (o : Nat) (b : Bits) (x : Nat) : (s.fset o b x).txq = s.txq := (rfl)
@[simp] theorem State.fset_txSent (o : Nat) (b : Bits) (x : Nat) : (s.fset o b x).txSent = s.txSent := (rfl)
@[simp] theorem State.fset_cmds (o : Nat) (b : Bits) (x : Nat) : (s.fset o b x).cmds = s.cmds := (rfl)
@[simp] theorem State.fset_nextCmd (o : Nat) (b : Bits) (x : Nat) : (s.fset o b x).nextCmd = s.nextCmd := (rfl)
@[simp] theorem State.fset_rm (o : Nat) (b : Bits) (x : Nat) : (s.fset o b x).rm = s.rm := (rfl)
@[simp] theorem State.fset_stream (o : Nat) (b : Bits) (x : Nat) : (s.fset o b x).stream = s.stream := (rfl)
@[simp] theorem State.fset_commit (o : Nat) (b : Bits) (x : Nat) : (s.fset o b x).commit = s.commit := (rfl)
@[simp] theorem State.fset_anchor (o : Nat) (b : Bits) (x : Nat) : (s.fset o b x).anchor = s.anchor := (rfl)
@[simp] theorem State.fset_ancView (o : Nat) (b : Bits) (x : Nat) : (s.fset o b x).ancView = s.ancView := (rfl)
@[simp] theorem State.fset_fltIn (o : Nat) (b : Bits) (x : Nat) : (s.fset o b x).fltIn = s.fltIn := (rfl)
@[simp] theorem State.fset_fins (o : Nat) (b : Bits) (x : Nat) : (s.fset o b x).fins = s.fins := (rfl)
@[simp] theorem State.fset_fouts (o : Nat) (b : Bits) (x : Nat) : (s.fset o b x).fouts = s.fouts := (rfl)
@[simp] theorem State.fset_mig (o : Nat) (b : Bits) (x : Nat) : (s.fset o b x).mig = s.mig := (rfl)
@[simp] theorem State.fset_repairs (o : Nat) (b : Bits) (x : Nat) : (s.fset o b x).repairs = s.repairs := (rfl)
@[simp] theorem State.fset_flog (o : Nat) (b : Bits) (x : Nat) : (s.fset o b x).flog = s.flog := (rfl)
@[simp] theorem State.fset_pilot0 (o : Nat) (b : Bits) (x : Nat) : (s.fset o b x).pilot0 = s.pilot0 := (rfl)
@[simp] theorem State.fset_pilot1 (o : Nat) (b : Bits) (x : Nat) : (s.fset o b x).pilot1 = s.pilot1 := (rfl)
@[simp] theorem State.fset_su (o : Nat) (b : Bits) (x : Nat) : (s.fset o b x).su = s.su := (rfl)
@[simp] theorem State.fset_hold (o : Nat) (b : Bits) (x : Nat) : (s.fset o b x).hold = s.hold := (rfl)
@[simp] theorem State.fset_journalBad (o : Nat) (b : Bits) (x : Nat) : (s.fset o b x).journalBad = s.journalBad := (rfl)
@[simp] theorem State.fset_answer (o : Nat) (b : Bits) (x : Nat) : (s.fset o b x).answer = s.answer := (rfl)
@[simp] theorem State.fset_sqLast (o : Nat) (b : Bits) (x : Nat) : (s.fset o b x).sqLast = s.sqLast := (rfl)
@[simp] theorem State.fset_mbxAns (o : Nat) (b : Bits) (x : Nat) : (s.fset o b x).mbxAns = s.mbxAns := (rfl)
@[simp] theorem State.fset_canT (o : Nat) (b : Bits) (x : Nat) : (s.fset o b x).canT = s.canT := (rfl)
@[simp] theorem State.fset_netHeld (o : Nat) (b : Bits) (x : Nat) : (s.fset o b x).netHeld = s.netHeld := (rfl)
@[simp] theorem State.fset_freeCtr (o : Nat) (b : Bits) (x : Nat) : (s.fset o b x).freeCtr = s.freeCtr := (rfl)
@[simp] theorem State.fset_pending (o : Nat) (b : Bits) (x : Nat) : (s.fset o b x).pending = s.pending := (rfl)

/-! ### setPort -/

@[simp] theorem State.setPort_regs (t : Nat) (p : PortDev) : (s.setPort t p).regs = s.regs := (rfl)
@[simp] theorem State.setPort_work (t : Nat) (p : PortDev) : (s.setPort t p).work = s.work := (rfl)
@[simp] theorem State.setPort_time (t : Nat) (p : PortDev) : (s.setPort t p).time = s.time := (rfl)
@[simp] theorem State.setPort_gdev (t : Nat) (p : PortDev) : (s.setPort t p).gdev = s.gdev := (rfl)
@[simp] theorem State.setPort_gons (t : Nat) (p : PortDev) : (s.setPort t p).gons = s.gons := (rfl)
@[simp] theorem State.setPort_axes (t : Nat) (p : PortDev) : (s.setPort t p).axes = s.axes := (rfl)
@[simp] theorem State.setPort_emuAcc (t : Nat) (p : PortDev) : (s.setPort t p).emuAcc = s.emuAcc := (rfl)
@[simp] theorem State.setPort_cmp (t : Nat) (p : PortDev) : (s.setPort t p).cmp = s.cmp := (rfl)
@[simp] theorem State.setPort_bus (t : Nat) (p : PortDev) : (s.setPort t p).bus = s.bus := (rfl)
@[simp] theorem State.setPort_lanes (t : Nat) (p : PortDev) : (s.setPort t p).lanes = s.lanes := (rfl)
@[simp] theorem State.setPort_sram (t : Nat) (p : PortDev) : (s.setPort t p).sram = s.sram := (rfl)
@[simp] theorem State.setPort_sramUpsets (t : Nat) (p : PortDev) : (s.setPort t p).sramUpsets = s.sramUpsets := (rfl)
@[simp] theorem State.setPort_scrub (t : Nat) (p : PortDev) : (s.setPort t p).scrub = s.scrub := (rfl)
@[simp] theorem State.setPort_sqs (t : Nat) (p : PortDev) : (s.setPort t p).sqs = s.sqs := (rfl)
@[simp] theorem State.setPort_cqs (t : Nat) (p : PortDev) : (s.setPort t p).cqs = s.cqs := (rfl)
@[simp] theorem State.setPort_host (t : Nat) (p : PortDev) : (s.setPort t p).host = s.host := (rfl)
@[simp] theorem State.setPort_msgs (t : Nat) (p : PortDev) : (s.setPort t p).msgs = s.msgs := (rfl)
@[simp] theorem State.setPort_txq (t : Nat) (p : PortDev) : (s.setPort t p).txq = s.txq := (rfl)
@[simp] theorem State.setPort_txSent (t : Nat) (p : PortDev) : (s.setPort t p).txSent = s.txSent := (rfl)
@[simp] theorem State.setPort_cmds (t : Nat) (p : PortDev) : (s.setPort t p).cmds = s.cmds := (rfl)
@[simp] theorem State.setPort_nextCmd (t : Nat) (p : PortDev) : (s.setPort t p).nextCmd = s.nextCmd := (rfl)
@[simp] theorem State.setPort_rm (t : Nat) (p : PortDev) : (s.setPort t p).rm = s.rm := (rfl)
@[simp] theorem State.setPort_stream (t : Nat) (p : PortDev) : (s.setPort t p).stream = s.stream := (rfl)
@[simp] theorem State.setPort_commit (t : Nat) (p : PortDev) : (s.setPort t p).commit = s.commit := (rfl)
@[simp] theorem State.setPort_anchor (t : Nat) (p : PortDev) : (s.setPort t p).anchor = s.anchor := (rfl)
@[simp] theorem State.setPort_ancView (t : Nat) (p : PortDev) : (s.setPort t p).ancView = s.ancView := (rfl)
@[simp] theorem State.setPort_fltIn (t : Nat) (p : PortDev) : (s.setPort t p).fltIn = s.fltIn := (rfl)
@[simp] theorem State.setPort_fins (t : Nat) (p : PortDev) : (s.setPort t p).fins = s.fins := (rfl)
@[simp] theorem State.setPort_fouts (t : Nat) (p : PortDev) : (s.setPort t p).fouts = s.fouts := (rfl)
@[simp] theorem State.setPort_mig (t : Nat) (p : PortDev) : (s.setPort t p).mig = s.mig := (rfl)
@[simp] theorem State.setPort_repairs (t : Nat) (p : PortDev) : (s.setPort t p).repairs = s.repairs := (rfl)
@[simp] theorem State.setPort_flog (t : Nat) (p : PortDev) : (s.setPort t p).flog = s.flog := (rfl)
@[simp] theorem State.setPort_pilot0 (t : Nat) (p : PortDev) : (s.setPort t p).pilot0 = s.pilot0 := (rfl)
@[simp] theorem State.setPort_pilot1 (t : Nat) (p : PortDev) : (s.setPort t p).pilot1 = s.pilot1 := (rfl)
@[simp] theorem State.setPort_su (t : Nat) (p : PortDev) : (s.setPort t p).su = s.su := (rfl)
@[simp] theorem State.setPort_hold (t : Nat) (p : PortDev) : (s.setPort t p).hold = s.hold := (rfl)
@[simp] theorem State.setPort_journalBad (t : Nat) (p : PortDev) : (s.setPort t p).journalBad = s.journalBad := (rfl)
@[simp] theorem State.setPort_answer (t : Nat) (p : PortDev) : (s.setPort t p).answer = s.answer := (rfl)
@[simp] theorem State.setPort_sqLast (t : Nat) (p : PortDev) : (s.setPort t p).sqLast = s.sqLast := (rfl)
@[simp] theorem State.setPort_mbxAns (t : Nat) (p : PortDev) : (s.setPort t p).mbxAns = s.mbxAns := (rfl)
@[simp] theorem State.setPort_canT (t : Nat) (p : PortDev) : (s.setPort t p).canT = s.canT := (rfl)
@[simp] theorem State.setPort_netHeld (t : Nat) (p : PortDev) : (s.setPort t p).netHeld = s.netHeld := (rfl)
@[simp] theorem State.setPort_freeCtr (t : Nat) (p : PortDev) : (s.setPort t p).freeCtr = s.freeCtr := (rfl)
@[simp] theorem State.setPort_pending (t : Nat) (p : PortDev) : (s.setPort t p).pending = s.pending := (rfl)

/-! ### setGd -/

@[simp] theorem State.setGd_regs (k : Nat) (d : GonDev) : (s.setGd k d).regs = s.regs := (rfl)
@[simp] theorem State.setGd_work (k : Nat) (d : GonDev) : (s.setGd k d).work = s.work := (rfl)
@[simp] theorem State.setGd_time (k : Nat) (d : GonDev) : (s.setGd k d).time = s.time := (rfl)
@[simp] theorem State.setGd_ports (k : Nat) (d : GonDev) : (s.setGd k d).ports = s.ports := (rfl)
@[simp] theorem State.setGd_gons (k : Nat) (d : GonDev) : (s.setGd k d).gons = s.gons := (rfl)
@[simp] theorem State.setGd_axes (k : Nat) (d : GonDev) : (s.setGd k d).axes = s.axes := (rfl)
@[simp] theorem State.setGd_emuAcc (k : Nat) (d : GonDev) : (s.setGd k d).emuAcc = s.emuAcc := (rfl)
@[simp] theorem State.setGd_cmp (k : Nat) (d : GonDev) : (s.setGd k d).cmp = s.cmp := (rfl)
@[simp] theorem State.setGd_bus (k : Nat) (d : GonDev) : (s.setGd k d).bus = s.bus := (rfl)
@[simp] theorem State.setGd_lanes (k : Nat) (d : GonDev) : (s.setGd k d).lanes = s.lanes := (rfl)
@[simp] theorem State.setGd_sram (k : Nat) (d : GonDev) : (s.setGd k d).sram = s.sram := (rfl)
@[simp] theorem State.setGd_sramUpsets (k : Nat) (d : GonDev) : (s.setGd k d).sramUpsets = s.sramUpsets := (rfl)
@[simp] theorem State.setGd_scrub (k : Nat) (d : GonDev) : (s.setGd k d).scrub = s.scrub := (rfl)
@[simp] theorem State.setGd_sqs (k : Nat) (d : GonDev) : (s.setGd k d).sqs = s.sqs := (rfl)
@[simp] theorem State.setGd_cqs (k : Nat) (d : GonDev) : (s.setGd k d).cqs = s.cqs := (rfl)
@[simp] theorem State.setGd_host (k : Nat) (d : GonDev) : (s.setGd k d).host = s.host := (rfl)
@[simp] theorem State.setGd_msgs (k : Nat) (d : GonDev) : (s.setGd k d).msgs = s.msgs := (rfl)
@[simp] theorem State.setGd_txq (k : Nat) (d : GonDev) : (s.setGd k d).txq = s.txq := (rfl)
@[simp] theorem State.setGd_txSent (k : Nat) (d : GonDev) : (s.setGd k d).txSent = s.txSent := (rfl)
@[simp] theorem State.setGd_cmds (k : Nat) (d : GonDev) : (s.setGd k d).cmds = s.cmds := (rfl)
@[simp] theorem State.setGd_nextCmd (k : Nat) (d : GonDev) : (s.setGd k d).nextCmd = s.nextCmd := (rfl)
@[simp] theorem State.setGd_rm (k : Nat) (d : GonDev) : (s.setGd k d).rm = s.rm := (rfl)
@[simp] theorem State.setGd_stream (k : Nat) (d : GonDev) : (s.setGd k d).stream = s.stream := (rfl)
@[simp] theorem State.setGd_commit (k : Nat) (d : GonDev) : (s.setGd k d).commit = s.commit := (rfl)
@[simp] theorem State.setGd_anchor (k : Nat) (d : GonDev) : (s.setGd k d).anchor = s.anchor := (rfl)
@[simp] theorem State.setGd_ancView (k : Nat) (d : GonDev) : (s.setGd k d).ancView = s.ancView := (rfl)
@[simp] theorem State.setGd_fltIn (k : Nat) (d : GonDev) : (s.setGd k d).fltIn = s.fltIn := (rfl)
@[simp] theorem State.setGd_fins (k : Nat) (d : GonDev) : (s.setGd k d).fins = s.fins := (rfl)
@[simp] theorem State.setGd_fouts (k : Nat) (d : GonDev) : (s.setGd k d).fouts = s.fouts := (rfl)
@[simp] theorem State.setGd_mig (k : Nat) (d : GonDev) : (s.setGd k d).mig = s.mig := (rfl)
@[simp] theorem State.setGd_repairs (k : Nat) (d : GonDev) : (s.setGd k d).repairs = s.repairs := (rfl)
@[simp] theorem State.setGd_flog (k : Nat) (d : GonDev) : (s.setGd k d).flog = s.flog := (rfl)
@[simp] theorem State.setGd_pilot0 (k : Nat) (d : GonDev) : (s.setGd k d).pilot0 = s.pilot0 := (rfl)
@[simp] theorem State.setGd_pilot1 (k : Nat) (d : GonDev) : (s.setGd k d).pilot1 = s.pilot1 := (rfl)
@[simp] theorem State.setGd_su (k : Nat) (d : GonDev) : (s.setGd k d).su = s.su := (rfl)
@[simp] theorem State.setGd_hold (k : Nat) (d : GonDev) : (s.setGd k d).hold = s.hold := (rfl)
@[simp] theorem State.setGd_journalBad (k : Nat) (d : GonDev) : (s.setGd k d).journalBad = s.journalBad := (rfl)
@[simp] theorem State.setGd_answer (k : Nat) (d : GonDev) : (s.setGd k d).answer = s.answer := (rfl)
@[simp] theorem State.setGd_sqLast (k : Nat) (d : GonDev) : (s.setGd k d).sqLast = s.sqLast := (rfl)
@[simp] theorem State.setGd_mbxAns (k : Nat) (d : GonDev) : (s.setGd k d).mbxAns = s.mbxAns := (rfl)
@[simp] theorem State.setGd_canT (k : Nat) (d : GonDev) : (s.setGd k d).canT = s.canT := (rfl)
@[simp] theorem State.setGd_netHeld (k : Nat) (d : GonDev) : (s.setGd k d).netHeld = s.netHeld := (rfl)
@[simp] theorem State.setGd_freeCtr (k : Nat) (d : GonDev) : (s.setGd k d).freeCtr = s.freeCtr := (rfl)
@[simp] theorem State.setGd_pending (k : Nat) (d : GonDev) : (s.setGd k d).pending = s.pending := (rfl)

/-! ### setGon -/

@[simp] theorem State.setGon_regs (n : Nat) (g : Gondola) : (s.setGon n g).regs = s.regs := (rfl)
@[simp] theorem State.setGon_work (n : Nat) (g : Gondola) : (s.setGon n g).work = s.work := (rfl)
@[simp] theorem State.setGon_time (n : Nat) (g : Gondola) : (s.setGon n g).time = s.time := (rfl)
@[simp] theorem State.setGon_ports (n : Nat) (g : Gondola) : (s.setGon n g).ports = s.ports := (rfl)
@[simp] theorem State.setGon_gdev (n : Nat) (g : Gondola) : (s.setGon n g).gdev = s.gdev := (rfl)
@[simp] theorem State.setGon_axes (n : Nat) (g : Gondola) : (s.setGon n g).axes = s.axes := (rfl)
@[simp] theorem State.setGon_emuAcc (n : Nat) (g : Gondola) : (s.setGon n g).emuAcc = s.emuAcc := (rfl)
@[simp] theorem State.setGon_cmp (n : Nat) (g : Gondola) : (s.setGon n g).cmp = s.cmp := (rfl)
@[simp] theorem State.setGon_bus (n : Nat) (g : Gondola) : (s.setGon n g).bus = s.bus := (rfl)
@[simp] theorem State.setGon_lanes (n : Nat) (g : Gondola) : (s.setGon n g).lanes = s.lanes := (rfl)
@[simp] theorem State.setGon_sram (n : Nat) (g : Gondola) : (s.setGon n g).sram = s.sram := (rfl)
@[simp] theorem State.setGon_sramUpsets (n : Nat) (g : Gondola) : (s.setGon n g).sramUpsets = s.sramUpsets := (rfl)
@[simp] theorem State.setGon_scrub (n : Nat) (g : Gondola) : (s.setGon n g).scrub = s.scrub := (rfl)
@[simp] theorem State.setGon_sqs (n : Nat) (g : Gondola) : (s.setGon n g).sqs = s.sqs := (rfl)
@[simp] theorem State.setGon_cqs (n : Nat) (g : Gondola) : (s.setGon n g).cqs = s.cqs := (rfl)
@[simp] theorem State.setGon_host (n : Nat) (g : Gondola) : (s.setGon n g).host = s.host := (rfl)
@[simp] theorem State.setGon_msgs (n : Nat) (g : Gondola) : (s.setGon n g).msgs = s.msgs := (rfl)
@[simp] theorem State.setGon_txq (n : Nat) (g : Gondola) : (s.setGon n g).txq = s.txq := (rfl)
@[simp] theorem State.setGon_txSent (n : Nat) (g : Gondola) : (s.setGon n g).txSent = s.txSent := (rfl)
@[simp] theorem State.setGon_cmds (n : Nat) (g : Gondola) : (s.setGon n g).cmds = s.cmds := (rfl)
@[simp] theorem State.setGon_nextCmd (n : Nat) (g : Gondola) : (s.setGon n g).nextCmd = s.nextCmd := (rfl)
@[simp] theorem State.setGon_rm (n : Nat) (g : Gondola) : (s.setGon n g).rm = s.rm := (rfl)
@[simp] theorem State.setGon_stream (n : Nat) (g : Gondola) : (s.setGon n g).stream = s.stream := (rfl)
@[simp] theorem State.setGon_commit (n : Nat) (g : Gondola) : (s.setGon n g).commit = s.commit := (rfl)
@[simp] theorem State.setGon_anchor (n : Nat) (g : Gondola) : (s.setGon n g).anchor = s.anchor := (rfl)
@[simp] theorem State.setGon_ancView (n : Nat) (g : Gondola) : (s.setGon n g).ancView = s.ancView := (rfl)
@[simp] theorem State.setGon_fltIn (n : Nat) (g : Gondola) : (s.setGon n g).fltIn = s.fltIn := (rfl)
@[simp] theorem State.setGon_fins (n : Nat) (g : Gondola) : (s.setGon n g).fins = s.fins := (rfl)
@[simp] theorem State.setGon_fouts (n : Nat) (g : Gondola) : (s.setGon n g).fouts = s.fouts := (rfl)
@[simp] theorem State.setGon_mig (n : Nat) (g : Gondola) : (s.setGon n g).mig = s.mig := (rfl)
@[simp] theorem State.setGon_repairs (n : Nat) (g : Gondola) : (s.setGon n g).repairs = s.repairs := (rfl)
@[simp] theorem State.setGon_flog (n : Nat) (g : Gondola) : (s.setGon n g).flog = s.flog := (rfl)
@[simp] theorem State.setGon_pilot0 (n : Nat) (g : Gondola) : (s.setGon n g).pilot0 = s.pilot0 := (rfl)
@[simp] theorem State.setGon_pilot1 (n : Nat) (g : Gondola) : (s.setGon n g).pilot1 = s.pilot1 := (rfl)
@[simp] theorem State.setGon_su (n : Nat) (g : Gondola) : (s.setGon n g).su = s.su := (rfl)
@[simp] theorem State.setGon_hold (n : Nat) (g : Gondola) : (s.setGon n g).hold = s.hold := (rfl)
@[simp] theorem State.setGon_journalBad (n : Nat) (g : Gondola) : (s.setGon n g).journalBad = s.journalBad := (rfl)
@[simp] theorem State.setGon_answer (n : Nat) (g : Gondola) : (s.setGon n g).answer = s.answer := (rfl)
@[simp] theorem State.setGon_sqLast (n : Nat) (g : Gondola) : (s.setGon n g).sqLast = s.sqLast := (rfl)
@[simp] theorem State.setGon_mbxAns (n : Nat) (g : Gondola) : (s.setGon n g).mbxAns = s.mbxAns := (rfl)
@[simp] theorem State.setGon_canT (n : Nat) (g : Gondola) : (s.setGon n g).canT = s.canT := (rfl)
@[simp] theorem State.setGon_netHeld (n : Nat) (g : Gondola) : (s.setGon n g).netHeld = s.netHeld := (rfl)
@[simp] theorem State.setGon_freeCtr (n : Nat) (g : Gondola) : (s.setGon n g).freeCtr = s.freeCtr := (rfl)
@[simp] theorem State.setGon_pending (n : Nat) (g : Gondola) : (s.setGon n g).pending = s.pending := (rfl)

/-! ### setAx -/

@[simp] theorem State.setAx_regs (n : Nat) (a : Axis) : (s.setAx n a).regs = s.regs := (rfl)
@[simp] theorem State.setAx_work (n : Nat) (a : Axis) : (s.setAx n a).work = s.work := (rfl)
@[simp] theorem State.setAx_time (n : Nat) (a : Axis) : (s.setAx n a).time = s.time := (rfl)
@[simp] theorem State.setAx_ports (n : Nat) (a : Axis) : (s.setAx n a).ports = s.ports := (rfl)
@[simp] theorem State.setAx_gdev (n : Nat) (a : Axis) : (s.setAx n a).gdev = s.gdev := (rfl)
@[simp] theorem State.setAx_gons (n : Nat) (a : Axis) : (s.setAx n a).gons = s.gons := (rfl)
@[simp] theorem State.setAx_emuAcc (n : Nat) (a : Axis) : (s.setAx n a).emuAcc = s.emuAcc := (rfl)
@[simp] theorem State.setAx_cmp (n : Nat) (a : Axis) : (s.setAx n a).cmp = s.cmp := (rfl)
@[simp] theorem State.setAx_bus (n : Nat) (a : Axis) : (s.setAx n a).bus = s.bus := (rfl)
@[simp] theorem State.setAx_lanes (n : Nat) (a : Axis) : (s.setAx n a).lanes = s.lanes := (rfl)
@[simp] theorem State.setAx_sram (n : Nat) (a : Axis) : (s.setAx n a).sram = s.sram := (rfl)
@[simp] theorem State.setAx_sramUpsets (n : Nat) (a : Axis) : (s.setAx n a).sramUpsets = s.sramUpsets := (rfl)
@[simp] theorem State.setAx_scrub (n : Nat) (a : Axis) : (s.setAx n a).scrub = s.scrub := (rfl)
@[simp] theorem State.setAx_sqs (n : Nat) (a : Axis) : (s.setAx n a).sqs = s.sqs := (rfl)
@[simp] theorem State.setAx_cqs (n : Nat) (a : Axis) : (s.setAx n a).cqs = s.cqs := (rfl)
@[simp] theorem State.setAx_host (n : Nat) (a : Axis) : (s.setAx n a).host = s.host := (rfl)
@[simp] theorem State.setAx_msgs (n : Nat) (a : Axis) : (s.setAx n a).msgs = s.msgs := (rfl)
@[simp] theorem State.setAx_txq (n : Nat) (a : Axis) : (s.setAx n a).txq = s.txq := (rfl)
@[simp] theorem State.setAx_txSent (n : Nat) (a : Axis) : (s.setAx n a).txSent = s.txSent := (rfl)
@[simp] theorem State.setAx_cmds (n : Nat) (a : Axis) : (s.setAx n a).cmds = s.cmds := (rfl)
@[simp] theorem State.setAx_nextCmd (n : Nat) (a : Axis) : (s.setAx n a).nextCmd = s.nextCmd := (rfl)
@[simp] theorem State.setAx_rm (n : Nat) (a : Axis) : (s.setAx n a).rm = s.rm := (rfl)
@[simp] theorem State.setAx_stream (n : Nat) (a : Axis) : (s.setAx n a).stream = s.stream := (rfl)
@[simp] theorem State.setAx_commit (n : Nat) (a : Axis) : (s.setAx n a).commit = s.commit := (rfl)
@[simp] theorem State.setAx_anchor (n : Nat) (a : Axis) : (s.setAx n a).anchor = s.anchor := (rfl)
@[simp] theorem State.setAx_ancView (n : Nat) (a : Axis) : (s.setAx n a).ancView = s.ancView := (rfl)
@[simp] theorem State.setAx_fltIn (n : Nat) (a : Axis) : (s.setAx n a).fltIn = s.fltIn := (rfl)
@[simp] theorem State.setAx_fins (n : Nat) (a : Axis) : (s.setAx n a).fins = s.fins := (rfl)
@[simp] theorem State.setAx_fouts (n : Nat) (a : Axis) : (s.setAx n a).fouts = s.fouts := (rfl)
@[simp] theorem State.setAx_mig (n : Nat) (a : Axis) : (s.setAx n a).mig = s.mig := (rfl)
@[simp] theorem State.setAx_repairs (n : Nat) (a : Axis) : (s.setAx n a).repairs = s.repairs := (rfl)
@[simp] theorem State.setAx_flog (n : Nat) (a : Axis) : (s.setAx n a).flog = s.flog := (rfl)
@[simp] theorem State.setAx_pilot0 (n : Nat) (a : Axis) : (s.setAx n a).pilot0 = s.pilot0 := (rfl)
@[simp] theorem State.setAx_pilot1 (n : Nat) (a : Axis) : (s.setAx n a).pilot1 = s.pilot1 := (rfl)
@[simp] theorem State.setAx_su (n : Nat) (a : Axis) : (s.setAx n a).su = s.su := (rfl)
@[simp] theorem State.setAx_hold (n : Nat) (a : Axis) : (s.setAx n a).hold = s.hold := (rfl)
@[simp] theorem State.setAx_journalBad (n : Nat) (a : Axis) : (s.setAx n a).journalBad = s.journalBad := (rfl)
@[simp] theorem State.setAx_answer (n : Nat) (a : Axis) : (s.setAx n a).answer = s.answer := (rfl)
@[simp] theorem State.setAx_sqLast (n : Nat) (a : Axis) : (s.setAx n a).sqLast = s.sqLast := (rfl)
@[simp] theorem State.setAx_mbxAns (n : Nat) (a : Axis) : (s.setAx n a).mbxAns = s.mbxAns := (rfl)
@[simp] theorem State.setAx_canT (n : Nat) (a : Axis) : (s.setAx n a).canT = s.canT := (rfl)
@[simp] theorem State.setAx_netHeld (n : Nat) (a : Axis) : (s.setAx n a).netHeld = s.netHeld := (rfl)
@[simp] theorem State.setAx_freeCtr (n : Nat) (a : Axis) : (s.setAx n a).freeCtr = s.freeCtr := (rfl)
@[simp] theorem State.setAx_pending (n : Nat) (a : Axis) : (s.setAx n a).pending = s.pending := (rfl)

/-! ### setCe -/

@[simp] theorem State.setCe_regs (i : Nat) (e : CmpEnt) : (s.setCe i e).regs = s.regs := (rfl)
@[simp] theorem State.setCe_work (i : Nat) (e : CmpEnt) : (s.setCe i e).work = s.work := (rfl)
@[simp] theorem State.setCe_time (i : Nat) (e : CmpEnt) : (s.setCe i e).time = s.time := (rfl)
@[simp] theorem State.setCe_ports (i : Nat) (e : CmpEnt) : (s.setCe i e).ports = s.ports := (rfl)
@[simp] theorem State.setCe_gdev (i : Nat) (e : CmpEnt) : (s.setCe i e).gdev = s.gdev := (rfl)
@[simp] theorem State.setCe_gons (i : Nat) (e : CmpEnt) : (s.setCe i e).gons = s.gons := (rfl)
@[simp] theorem State.setCe_axes (i : Nat) (e : CmpEnt) : (s.setCe i e).axes = s.axes := (rfl)
@[simp] theorem State.setCe_emuAcc (i : Nat) (e : CmpEnt) : (s.setCe i e).emuAcc = s.emuAcc := (rfl)
@[simp] theorem State.setCe_bus (i : Nat) (e : CmpEnt) : (s.setCe i e).bus = s.bus := (rfl)
@[simp] theorem State.setCe_lanes (i : Nat) (e : CmpEnt) : (s.setCe i e).lanes = s.lanes := (rfl)
@[simp] theorem State.setCe_sram (i : Nat) (e : CmpEnt) : (s.setCe i e).sram = s.sram := (rfl)
@[simp] theorem State.setCe_sramUpsets (i : Nat) (e : CmpEnt) : (s.setCe i e).sramUpsets = s.sramUpsets := (rfl)
@[simp] theorem State.setCe_scrub (i : Nat) (e : CmpEnt) : (s.setCe i e).scrub = s.scrub := (rfl)
@[simp] theorem State.setCe_sqs (i : Nat) (e : CmpEnt) : (s.setCe i e).sqs = s.sqs := (rfl)
@[simp] theorem State.setCe_cqs (i : Nat) (e : CmpEnt) : (s.setCe i e).cqs = s.cqs := (rfl)
@[simp] theorem State.setCe_host (i : Nat) (e : CmpEnt) : (s.setCe i e).host = s.host := (rfl)
@[simp] theorem State.setCe_msgs (i : Nat) (e : CmpEnt) : (s.setCe i e).msgs = s.msgs := (rfl)
@[simp] theorem State.setCe_txq (i : Nat) (e : CmpEnt) : (s.setCe i e).txq = s.txq := (rfl)
@[simp] theorem State.setCe_txSent (i : Nat) (e : CmpEnt) : (s.setCe i e).txSent = s.txSent := (rfl)
@[simp] theorem State.setCe_cmds (i : Nat) (e : CmpEnt) : (s.setCe i e).cmds = s.cmds := (rfl)
@[simp] theorem State.setCe_nextCmd (i : Nat) (e : CmpEnt) : (s.setCe i e).nextCmd = s.nextCmd := (rfl)
@[simp] theorem State.setCe_rm (i : Nat) (e : CmpEnt) : (s.setCe i e).rm = s.rm := (rfl)
@[simp] theorem State.setCe_stream (i : Nat) (e : CmpEnt) : (s.setCe i e).stream = s.stream := (rfl)
@[simp] theorem State.setCe_commit (i : Nat) (e : CmpEnt) : (s.setCe i e).commit = s.commit := (rfl)
@[simp] theorem State.setCe_anchor (i : Nat) (e : CmpEnt) : (s.setCe i e).anchor = s.anchor := (rfl)
@[simp] theorem State.setCe_ancView (i : Nat) (e : CmpEnt) : (s.setCe i e).ancView = s.ancView := (rfl)
@[simp] theorem State.setCe_fltIn (i : Nat) (e : CmpEnt) : (s.setCe i e).fltIn = s.fltIn := (rfl)
@[simp] theorem State.setCe_fins (i : Nat) (e : CmpEnt) : (s.setCe i e).fins = s.fins := (rfl)
@[simp] theorem State.setCe_fouts (i : Nat) (e : CmpEnt) : (s.setCe i e).fouts = s.fouts := (rfl)
@[simp] theorem State.setCe_mig (i : Nat) (e : CmpEnt) : (s.setCe i e).mig = s.mig := (rfl)
@[simp] theorem State.setCe_repairs (i : Nat) (e : CmpEnt) : (s.setCe i e).repairs = s.repairs := (rfl)
@[simp] theorem State.setCe_flog (i : Nat) (e : CmpEnt) : (s.setCe i e).flog = s.flog := (rfl)
@[simp] theorem State.setCe_pilot0 (i : Nat) (e : CmpEnt) : (s.setCe i e).pilot0 = s.pilot0 := (rfl)
@[simp] theorem State.setCe_pilot1 (i : Nat) (e : CmpEnt) : (s.setCe i e).pilot1 = s.pilot1 := (rfl)
@[simp] theorem State.setCe_su (i : Nat) (e : CmpEnt) : (s.setCe i e).su = s.su := (rfl)
@[simp] theorem State.setCe_hold (i : Nat) (e : CmpEnt) : (s.setCe i e).hold = s.hold := (rfl)
@[simp] theorem State.setCe_journalBad (i : Nat) (e : CmpEnt) : (s.setCe i e).journalBad = s.journalBad := (rfl)
@[simp] theorem State.setCe_answer (i : Nat) (e : CmpEnt) : (s.setCe i e).answer = s.answer := (rfl)
@[simp] theorem State.setCe_sqLast (i : Nat) (e : CmpEnt) : (s.setCe i e).sqLast = s.sqLast := (rfl)
@[simp] theorem State.setCe_mbxAns (i : Nat) (e : CmpEnt) : (s.setCe i e).mbxAns = s.mbxAns := (rfl)
@[simp] theorem State.setCe_canT (i : Nat) (e : CmpEnt) : (s.setCe i e).canT = s.canT := (rfl)
@[simp] theorem State.setCe_netHeld (i : Nat) (e : CmpEnt) : (s.setCe i e).netHeld = s.netHeld := (rfl)
@[simp] theorem State.setCe_freeCtr (i : Nat) (e : CmpEnt) : (s.setCe i e).freeCtr = s.freeCtr := (rfl)
@[simp] theorem State.setCe_pending (i : Nat) (e : CmpEnt) : (s.setCe i e).pending = s.pending := (rfl)

/-! ### setBg -/

@[simp] theorem State.setBg_regs (b : Nat) (g : BusGrp) : (s.setBg b g).regs = s.regs := (rfl)
@[simp] theorem State.setBg_work (b : Nat) (g : BusGrp) : (s.setBg b g).work = s.work := (rfl)
@[simp] theorem State.setBg_time (b : Nat) (g : BusGrp) : (s.setBg b g).time = s.time := (rfl)
@[simp] theorem State.setBg_ports (b : Nat) (g : BusGrp) : (s.setBg b g).ports = s.ports := (rfl)
@[simp] theorem State.setBg_gdev (b : Nat) (g : BusGrp) : (s.setBg b g).gdev = s.gdev := (rfl)
@[simp] theorem State.setBg_gons (b : Nat) (g : BusGrp) : (s.setBg b g).gons = s.gons := (rfl)
@[simp] theorem State.setBg_axes (b : Nat) (g : BusGrp) : (s.setBg b g).axes = s.axes := (rfl)
@[simp] theorem State.setBg_emuAcc (b : Nat) (g : BusGrp) : (s.setBg b g).emuAcc = s.emuAcc := (rfl)
@[simp] theorem State.setBg_cmp (b : Nat) (g : BusGrp) : (s.setBg b g).cmp = s.cmp := (rfl)
@[simp] theorem State.setBg_lanes (b : Nat) (g : BusGrp) : (s.setBg b g).lanes = s.lanes := (rfl)
@[simp] theorem State.setBg_sram (b : Nat) (g : BusGrp) : (s.setBg b g).sram = s.sram := (rfl)
@[simp] theorem State.setBg_sramUpsets (b : Nat) (g : BusGrp) : (s.setBg b g).sramUpsets = s.sramUpsets := (rfl)
@[simp] theorem State.setBg_scrub (b : Nat) (g : BusGrp) : (s.setBg b g).scrub = s.scrub := (rfl)
@[simp] theorem State.setBg_sqs (b : Nat) (g : BusGrp) : (s.setBg b g).sqs = s.sqs := (rfl)
@[simp] theorem State.setBg_cqs (b : Nat) (g : BusGrp) : (s.setBg b g).cqs = s.cqs := (rfl)
@[simp] theorem State.setBg_host (b : Nat) (g : BusGrp) : (s.setBg b g).host = s.host := (rfl)
@[simp] theorem State.setBg_msgs (b : Nat) (g : BusGrp) : (s.setBg b g).msgs = s.msgs := (rfl)
@[simp] theorem State.setBg_txq (b : Nat) (g : BusGrp) : (s.setBg b g).txq = s.txq := (rfl)
@[simp] theorem State.setBg_txSent (b : Nat) (g : BusGrp) : (s.setBg b g).txSent = s.txSent := (rfl)
@[simp] theorem State.setBg_cmds (b : Nat) (g : BusGrp) : (s.setBg b g).cmds = s.cmds := (rfl)
@[simp] theorem State.setBg_nextCmd (b : Nat) (g : BusGrp) : (s.setBg b g).nextCmd = s.nextCmd := (rfl)
@[simp] theorem State.setBg_rm (b : Nat) (g : BusGrp) : (s.setBg b g).rm = s.rm := (rfl)
@[simp] theorem State.setBg_stream (b : Nat) (g : BusGrp) : (s.setBg b g).stream = s.stream := (rfl)
@[simp] theorem State.setBg_commit (b : Nat) (g : BusGrp) : (s.setBg b g).commit = s.commit := (rfl)
@[simp] theorem State.setBg_anchor (b : Nat) (g : BusGrp) : (s.setBg b g).anchor = s.anchor := (rfl)
@[simp] theorem State.setBg_ancView (b : Nat) (g : BusGrp) : (s.setBg b g).ancView = s.ancView := (rfl)
@[simp] theorem State.setBg_fltIn (b : Nat) (g : BusGrp) : (s.setBg b g).fltIn = s.fltIn := (rfl)
@[simp] theorem State.setBg_fins (b : Nat) (g : BusGrp) : (s.setBg b g).fins = s.fins := (rfl)
@[simp] theorem State.setBg_fouts (b : Nat) (g : BusGrp) : (s.setBg b g).fouts = s.fouts := (rfl)
@[simp] theorem State.setBg_mig (b : Nat) (g : BusGrp) : (s.setBg b g).mig = s.mig := (rfl)
@[simp] theorem State.setBg_repairs (b : Nat) (g : BusGrp) : (s.setBg b g).repairs = s.repairs := (rfl)
@[simp] theorem State.setBg_flog (b : Nat) (g : BusGrp) : (s.setBg b g).flog = s.flog := (rfl)
@[simp] theorem State.setBg_pilot0 (b : Nat) (g : BusGrp) : (s.setBg b g).pilot0 = s.pilot0 := (rfl)
@[simp] theorem State.setBg_pilot1 (b : Nat) (g : BusGrp) : (s.setBg b g).pilot1 = s.pilot1 := (rfl)
@[simp] theorem State.setBg_su (b : Nat) (g : BusGrp) : (s.setBg b g).su = s.su := (rfl)
@[simp] theorem State.setBg_hold (b : Nat) (g : BusGrp) : (s.setBg b g).hold = s.hold := (rfl)
@[simp] theorem State.setBg_journalBad (b : Nat) (g : BusGrp) : (s.setBg b g).journalBad = s.journalBad := (rfl)
@[simp] theorem State.setBg_answer (b : Nat) (g : BusGrp) : (s.setBg b g).answer = s.answer := (rfl)
@[simp] theorem State.setBg_sqLast (b : Nat) (g : BusGrp) : (s.setBg b g).sqLast = s.sqLast := (rfl)
@[simp] theorem State.setBg_mbxAns (b : Nat) (g : BusGrp) : (s.setBg b g).mbxAns = s.mbxAns := (rfl)
@[simp] theorem State.setBg_canT (b : Nat) (g : BusGrp) : (s.setBg b g).canT = s.canT := (rfl)
@[simp] theorem State.setBg_netHeld (b : Nat) (g : BusGrp) : (s.setBg b g).netHeld = s.netHeld := (rfl)
@[simp] theorem State.setBg_freeCtr (b : Nat) (g : BusGrp) : (s.setBg b g).freeCtr = s.freeCtr := (rfl)
@[simp] theorem State.setBg_pending (b : Nat) (g : BusGrp) : (s.setBg b g).pending = s.pending := (rfl)

/-! ### setLn -/

@[simp] theorem State.setLn_regs (l : Nat) (x : Lane) : (s.setLn l x).regs = s.regs := (rfl)
@[simp] theorem State.setLn_work (l : Nat) (x : Lane) : (s.setLn l x).work = s.work := (rfl)
@[simp] theorem State.setLn_time (l : Nat) (x : Lane) : (s.setLn l x).time = s.time := (rfl)
@[simp] theorem State.setLn_ports (l : Nat) (x : Lane) : (s.setLn l x).ports = s.ports := (rfl)
@[simp] theorem State.setLn_gdev (l : Nat) (x : Lane) : (s.setLn l x).gdev = s.gdev := (rfl)
@[simp] theorem State.setLn_gons (l : Nat) (x : Lane) : (s.setLn l x).gons = s.gons := (rfl)
@[simp] theorem State.setLn_axes (l : Nat) (x : Lane) : (s.setLn l x).axes = s.axes := (rfl)
@[simp] theorem State.setLn_emuAcc (l : Nat) (x : Lane) : (s.setLn l x).emuAcc = s.emuAcc := (rfl)
@[simp] theorem State.setLn_cmp (l : Nat) (x : Lane) : (s.setLn l x).cmp = s.cmp := (rfl)
@[simp] theorem State.setLn_bus (l : Nat) (x : Lane) : (s.setLn l x).bus = s.bus := (rfl)
@[simp] theorem State.setLn_sram (l : Nat) (x : Lane) : (s.setLn l x).sram = s.sram := (rfl)
@[simp] theorem State.setLn_sramUpsets (l : Nat) (x : Lane) : (s.setLn l x).sramUpsets = s.sramUpsets := (rfl)
@[simp] theorem State.setLn_scrub (l : Nat) (x : Lane) : (s.setLn l x).scrub = s.scrub := (rfl)
@[simp] theorem State.setLn_sqs (l : Nat) (x : Lane) : (s.setLn l x).sqs = s.sqs := (rfl)
@[simp] theorem State.setLn_cqs (l : Nat) (x : Lane) : (s.setLn l x).cqs = s.cqs := (rfl)
@[simp] theorem State.setLn_host (l : Nat) (x : Lane) : (s.setLn l x).host = s.host := (rfl)
@[simp] theorem State.setLn_msgs (l : Nat) (x : Lane) : (s.setLn l x).msgs = s.msgs := (rfl)
@[simp] theorem State.setLn_txq (l : Nat) (x : Lane) : (s.setLn l x).txq = s.txq := (rfl)
@[simp] theorem State.setLn_txSent (l : Nat) (x : Lane) : (s.setLn l x).txSent = s.txSent := (rfl)
@[simp] theorem State.setLn_cmds (l : Nat) (x : Lane) : (s.setLn l x).cmds = s.cmds := (rfl)
@[simp] theorem State.setLn_nextCmd (l : Nat) (x : Lane) : (s.setLn l x).nextCmd = s.nextCmd := (rfl)
@[simp] theorem State.setLn_rm (l : Nat) (x : Lane) : (s.setLn l x).rm = s.rm := (rfl)
@[simp] theorem State.setLn_stream (l : Nat) (x : Lane) : (s.setLn l x).stream = s.stream := (rfl)
@[simp] theorem State.setLn_commit (l : Nat) (x : Lane) : (s.setLn l x).commit = s.commit := (rfl)
@[simp] theorem State.setLn_anchor (l : Nat) (x : Lane) : (s.setLn l x).anchor = s.anchor := (rfl)
@[simp] theorem State.setLn_ancView (l : Nat) (x : Lane) : (s.setLn l x).ancView = s.ancView := (rfl)
@[simp] theorem State.setLn_fltIn (l : Nat) (x : Lane) : (s.setLn l x).fltIn = s.fltIn := (rfl)
@[simp] theorem State.setLn_fins (l : Nat) (x : Lane) : (s.setLn l x).fins = s.fins := (rfl)
@[simp] theorem State.setLn_fouts (l : Nat) (x : Lane) : (s.setLn l x).fouts = s.fouts := (rfl)
@[simp] theorem State.setLn_mig (l : Nat) (x : Lane) : (s.setLn l x).mig = s.mig := (rfl)
@[simp] theorem State.setLn_repairs (l : Nat) (x : Lane) : (s.setLn l x).repairs = s.repairs := (rfl)
@[simp] theorem State.setLn_flog (l : Nat) (x : Lane) : (s.setLn l x).flog = s.flog := (rfl)
@[simp] theorem State.setLn_pilot0 (l : Nat) (x : Lane) : (s.setLn l x).pilot0 = s.pilot0 := (rfl)
@[simp] theorem State.setLn_pilot1 (l : Nat) (x : Lane) : (s.setLn l x).pilot1 = s.pilot1 := (rfl)
@[simp] theorem State.setLn_su (l : Nat) (x : Lane) : (s.setLn l x).su = s.su := (rfl)
@[simp] theorem State.setLn_hold (l : Nat) (x : Lane) : (s.setLn l x).hold = s.hold := (rfl)
@[simp] theorem State.setLn_journalBad (l : Nat) (x : Lane) : (s.setLn l x).journalBad = s.journalBad := (rfl)
@[simp] theorem State.setLn_answer (l : Nat) (x : Lane) : (s.setLn l x).answer = s.answer := (rfl)
@[simp] theorem State.setLn_sqLast (l : Nat) (x : Lane) : (s.setLn l x).sqLast = s.sqLast := (rfl)
@[simp] theorem State.setLn_mbxAns (l : Nat) (x : Lane) : (s.setLn l x).mbxAns = s.mbxAns := (rfl)
@[simp] theorem State.setLn_canT (l : Nat) (x : Lane) : (s.setLn l x).canT = s.canT := (rfl)
@[simp] theorem State.setLn_netHeld (l : Nat) (x : Lane) : (s.setLn l x).netHeld = s.netHeld := (rfl)
@[simp] theorem State.setLn_freeCtr (l : Nat) (x : Lane) : (s.setLn l x).freeCtr = s.freeCtr := (rfl)
@[simp] theorem State.setLn_pending (l : Nat) (x : Lane) : (s.setLn l x).pending = s.pending := (rfl)

/-! ### setSq -/

@[simp] theorem State.setSq_regs (q : Nat) (x : Sq) : (s.setSq q x).regs = s.regs := (rfl)
@[simp] theorem State.setSq_work (q : Nat) (x : Sq) : (s.setSq q x).work = s.work := (rfl)
@[simp] theorem State.setSq_time (q : Nat) (x : Sq) : (s.setSq q x).time = s.time := (rfl)
@[simp] theorem State.setSq_ports (q : Nat) (x : Sq) : (s.setSq q x).ports = s.ports := (rfl)
@[simp] theorem State.setSq_gdev (q : Nat) (x : Sq) : (s.setSq q x).gdev = s.gdev := (rfl)
@[simp] theorem State.setSq_gons (q : Nat) (x : Sq) : (s.setSq q x).gons = s.gons := (rfl)
@[simp] theorem State.setSq_axes (q : Nat) (x : Sq) : (s.setSq q x).axes = s.axes := (rfl)
@[simp] theorem State.setSq_emuAcc (q : Nat) (x : Sq) : (s.setSq q x).emuAcc = s.emuAcc := (rfl)
@[simp] theorem State.setSq_cmp (q : Nat) (x : Sq) : (s.setSq q x).cmp = s.cmp := (rfl)
@[simp] theorem State.setSq_bus (q : Nat) (x : Sq) : (s.setSq q x).bus = s.bus := (rfl)
@[simp] theorem State.setSq_lanes (q : Nat) (x : Sq) : (s.setSq q x).lanes = s.lanes := (rfl)
@[simp] theorem State.setSq_sram (q : Nat) (x : Sq) : (s.setSq q x).sram = s.sram := (rfl)
@[simp] theorem State.setSq_sramUpsets (q : Nat) (x : Sq) : (s.setSq q x).sramUpsets = s.sramUpsets := (rfl)
@[simp] theorem State.setSq_scrub (q : Nat) (x : Sq) : (s.setSq q x).scrub = s.scrub := (rfl)
@[simp] theorem State.setSq_cqs (q : Nat) (x : Sq) : (s.setSq q x).cqs = s.cqs := (rfl)
@[simp] theorem State.setSq_host (q : Nat) (x : Sq) : (s.setSq q x).host = s.host := (rfl)
@[simp] theorem State.setSq_msgs (q : Nat) (x : Sq) : (s.setSq q x).msgs = s.msgs := (rfl)
@[simp] theorem State.setSq_txq (q : Nat) (x : Sq) : (s.setSq q x).txq = s.txq := (rfl)
@[simp] theorem State.setSq_txSent (q : Nat) (x : Sq) : (s.setSq q x).txSent = s.txSent := (rfl)
@[simp] theorem State.setSq_cmds (q : Nat) (x : Sq) : (s.setSq q x).cmds = s.cmds := (rfl)
@[simp] theorem State.setSq_nextCmd (q : Nat) (x : Sq) : (s.setSq q x).nextCmd = s.nextCmd := (rfl)
@[simp] theorem State.setSq_rm (q : Nat) (x : Sq) : (s.setSq q x).rm = s.rm := (rfl)
@[simp] theorem State.setSq_stream (q : Nat) (x : Sq) : (s.setSq q x).stream = s.stream := (rfl)
@[simp] theorem State.setSq_commit (q : Nat) (x : Sq) : (s.setSq q x).commit = s.commit := (rfl)
@[simp] theorem State.setSq_anchor (q : Nat) (x : Sq) : (s.setSq q x).anchor = s.anchor := (rfl)
@[simp] theorem State.setSq_ancView (q : Nat) (x : Sq) : (s.setSq q x).ancView = s.ancView := (rfl)
@[simp] theorem State.setSq_fltIn (q : Nat) (x : Sq) : (s.setSq q x).fltIn = s.fltIn := (rfl)
@[simp] theorem State.setSq_fins (q : Nat) (x : Sq) : (s.setSq q x).fins = s.fins := (rfl)
@[simp] theorem State.setSq_fouts (q : Nat) (x : Sq) : (s.setSq q x).fouts = s.fouts := (rfl)
@[simp] theorem State.setSq_mig (q : Nat) (x : Sq) : (s.setSq q x).mig = s.mig := (rfl)
@[simp] theorem State.setSq_repairs (q : Nat) (x : Sq) : (s.setSq q x).repairs = s.repairs := (rfl)
@[simp] theorem State.setSq_flog (q : Nat) (x : Sq) : (s.setSq q x).flog = s.flog := (rfl)
@[simp] theorem State.setSq_pilot0 (q : Nat) (x : Sq) : (s.setSq q x).pilot0 = s.pilot0 := (rfl)
@[simp] theorem State.setSq_pilot1 (q : Nat) (x : Sq) : (s.setSq q x).pilot1 = s.pilot1 := (rfl)
@[simp] theorem State.setSq_su (q : Nat) (x : Sq) : (s.setSq q x).su = s.su := (rfl)
@[simp] theorem State.setSq_hold (q : Nat) (x : Sq) : (s.setSq q x).hold = s.hold := (rfl)
@[simp] theorem State.setSq_journalBad (q : Nat) (x : Sq) : (s.setSq q x).journalBad = s.journalBad := (rfl)
@[simp] theorem State.setSq_answer (q : Nat) (x : Sq) : (s.setSq q x).answer = s.answer := (rfl)
@[simp] theorem State.setSq_sqLast (q : Nat) (x : Sq) : (s.setSq q x).sqLast = s.sqLast := (rfl)
@[simp] theorem State.setSq_mbxAns (q : Nat) (x : Sq) : (s.setSq q x).mbxAns = s.mbxAns := (rfl)
@[simp] theorem State.setSq_canT (q : Nat) (x : Sq) : (s.setSq q x).canT = s.canT := (rfl)
@[simp] theorem State.setSq_netHeld (q : Nat) (x : Sq) : (s.setSq q x).netHeld = s.netHeld := (rfl)
@[simp] theorem State.setSq_freeCtr (q : Nat) (x : Sq) : (s.setSq q x).freeCtr = s.freeCtr := (rfl)
@[simp] theorem State.setSq_pending (q : Nat) (x : Sq) : (s.setSq q x).pending = s.pending := (rfl)

/-! ### setCq -/

@[simp] theorem State.setCq_regs (q : Nat) (x : Cq) : (s.setCq q x).regs = s.regs := (rfl)
@[simp] theorem State.setCq_work (q : Nat) (x : Cq) : (s.setCq q x).work = s.work := (rfl)
@[simp] theorem State.setCq_time (q : Nat) (x : Cq) : (s.setCq q x).time = s.time := (rfl)
@[simp] theorem State.setCq_ports (q : Nat) (x : Cq) : (s.setCq q x).ports = s.ports := (rfl)
@[simp] theorem State.setCq_gdev (q : Nat) (x : Cq) : (s.setCq q x).gdev = s.gdev := (rfl)
@[simp] theorem State.setCq_gons (q : Nat) (x : Cq) : (s.setCq q x).gons = s.gons := (rfl)
@[simp] theorem State.setCq_axes (q : Nat) (x : Cq) : (s.setCq q x).axes = s.axes := (rfl)
@[simp] theorem State.setCq_emuAcc (q : Nat) (x : Cq) : (s.setCq q x).emuAcc = s.emuAcc := (rfl)
@[simp] theorem State.setCq_cmp (q : Nat) (x : Cq) : (s.setCq q x).cmp = s.cmp := (rfl)
@[simp] theorem State.setCq_bus (q : Nat) (x : Cq) : (s.setCq q x).bus = s.bus := (rfl)
@[simp] theorem State.setCq_lanes (q : Nat) (x : Cq) : (s.setCq q x).lanes = s.lanes := (rfl)
@[simp] theorem State.setCq_sram (q : Nat) (x : Cq) : (s.setCq q x).sram = s.sram := (rfl)
@[simp] theorem State.setCq_sramUpsets (q : Nat) (x : Cq) : (s.setCq q x).sramUpsets = s.sramUpsets := (rfl)
@[simp] theorem State.setCq_scrub (q : Nat) (x : Cq) : (s.setCq q x).scrub = s.scrub := (rfl)
@[simp] theorem State.setCq_sqs (q : Nat) (x : Cq) : (s.setCq q x).sqs = s.sqs := (rfl)
@[simp] theorem State.setCq_host (q : Nat) (x : Cq) : (s.setCq q x).host = s.host := (rfl)
@[simp] theorem State.setCq_msgs (q : Nat) (x : Cq) : (s.setCq q x).msgs = s.msgs := (rfl)
@[simp] theorem State.setCq_txq (q : Nat) (x : Cq) : (s.setCq q x).txq = s.txq := (rfl)
@[simp] theorem State.setCq_txSent (q : Nat) (x : Cq) : (s.setCq q x).txSent = s.txSent := (rfl)
@[simp] theorem State.setCq_cmds (q : Nat) (x : Cq) : (s.setCq q x).cmds = s.cmds := (rfl)
@[simp] theorem State.setCq_nextCmd (q : Nat) (x : Cq) : (s.setCq q x).nextCmd = s.nextCmd := (rfl)
@[simp] theorem State.setCq_rm (q : Nat) (x : Cq) : (s.setCq q x).rm = s.rm := (rfl)
@[simp] theorem State.setCq_stream (q : Nat) (x : Cq) : (s.setCq q x).stream = s.stream := (rfl)
@[simp] theorem State.setCq_commit (q : Nat) (x : Cq) : (s.setCq q x).commit = s.commit := (rfl)
@[simp] theorem State.setCq_anchor (q : Nat) (x : Cq) : (s.setCq q x).anchor = s.anchor := (rfl)
@[simp] theorem State.setCq_ancView (q : Nat) (x : Cq) : (s.setCq q x).ancView = s.ancView := (rfl)
@[simp] theorem State.setCq_fltIn (q : Nat) (x : Cq) : (s.setCq q x).fltIn = s.fltIn := (rfl)
@[simp] theorem State.setCq_fins (q : Nat) (x : Cq) : (s.setCq q x).fins = s.fins := (rfl)
@[simp] theorem State.setCq_fouts (q : Nat) (x : Cq) : (s.setCq q x).fouts = s.fouts := (rfl)
@[simp] theorem State.setCq_mig (q : Nat) (x : Cq) : (s.setCq q x).mig = s.mig := (rfl)
@[simp] theorem State.setCq_repairs (q : Nat) (x : Cq) : (s.setCq q x).repairs = s.repairs := (rfl)
@[simp] theorem State.setCq_flog (q : Nat) (x : Cq) : (s.setCq q x).flog = s.flog := (rfl)
@[simp] theorem State.setCq_pilot0 (q : Nat) (x : Cq) : (s.setCq q x).pilot0 = s.pilot0 := (rfl)
@[simp] theorem State.setCq_pilot1 (q : Nat) (x : Cq) : (s.setCq q x).pilot1 = s.pilot1 := (rfl)
@[simp] theorem State.setCq_su (q : Nat) (x : Cq) : (s.setCq q x).su = s.su := (rfl)
@[simp] theorem State.setCq_hold (q : Nat) (x : Cq) : (s.setCq q x).hold = s.hold := (rfl)
@[simp] theorem State.setCq_journalBad (q : Nat) (x : Cq) : (s.setCq q x).journalBad = s.journalBad := (rfl)
@[simp] theorem State.setCq_answer (q : Nat) (x : Cq) : (s.setCq q x).answer = s.answer := (rfl)
@[simp] theorem State.setCq_sqLast (q : Nat) (x : Cq) : (s.setCq q x).sqLast = s.sqLast := (rfl)
@[simp] theorem State.setCq_mbxAns (q : Nat) (x : Cq) : (s.setCq q x).mbxAns = s.mbxAns := (rfl)
@[simp] theorem State.setCq_canT (q : Nat) (x : Cq) : (s.setCq q x).canT = s.canT := (rfl)
@[simp] theorem State.setCq_netHeld (q : Nat) (x : Cq) : (s.setCq q x).netHeld = s.netHeld := (rfl)
@[simp] theorem State.setCq_freeCtr (q : Nat) (x : Cq) : (s.setCq q x).freeCtr = s.freeCtr := (rfl)
@[simp] theorem State.setCq_pending (q : Nat) (x : Cq) : (s.setCq q x).pending = s.pending := (rfl)

/-! ### setCmd -/

@[simp] theorem State.setCmd_regs (k : Nat) (x : Option OpenCmd) : (s.setCmd k x).regs = s.regs := (rfl)
@[simp] theorem State.setCmd_work (k : Nat) (x : Option OpenCmd) : (s.setCmd k x).work = s.work := (rfl)
@[simp] theorem State.setCmd_time (k : Nat) (x : Option OpenCmd) : (s.setCmd k x).time = s.time := (rfl)
@[simp] theorem State.setCmd_ports (k : Nat) (x : Option OpenCmd) : (s.setCmd k x).ports = s.ports := (rfl)
@[simp] theorem State.setCmd_gdev (k : Nat) (x : Option OpenCmd) : (s.setCmd k x).gdev = s.gdev := (rfl)
@[simp] theorem State.setCmd_gons (k : Nat) (x : Option OpenCmd) : (s.setCmd k x).gons = s.gons := (rfl)
@[simp] theorem State.setCmd_axes (k : Nat) (x : Option OpenCmd) : (s.setCmd k x).axes = s.axes := (rfl)
@[simp] theorem State.setCmd_emuAcc (k : Nat) (x : Option OpenCmd) : (s.setCmd k x).emuAcc = s.emuAcc := (rfl)
@[simp] theorem State.setCmd_cmp (k : Nat) (x : Option OpenCmd) : (s.setCmd k x).cmp = s.cmp := (rfl)
@[simp] theorem State.setCmd_bus (k : Nat) (x : Option OpenCmd) : (s.setCmd k x).bus = s.bus := (rfl)
@[simp] theorem State.setCmd_lanes (k : Nat) (x : Option OpenCmd) : (s.setCmd k x).lanes = s.lanes := (rfl)
@[simp] theorem State.setCmd_sram (k : Nat) (x : Option OpenCmd) : (s.setCmd k x).sram = s.sram := (rfl)
@[simp] theorem State.setCmd_sramUpsets (k : Nat) (x : Option OpenCmd) : (s.setCmd k x).sramUpsets = s.sramUpsets := (rfl)
@[simp] theorem State.setCmd_scrub (k : Nat) (x : Option OpenCmd) : (s.setCmd k x).scrub = s.scrub := (rfl)
@[simp] theorem State.setCmd_sqs (k : Nat) (x : Option OpenCmd) : (s.setCmd k x).sqs = s.sqs := (rfl)
@[simp] theorem State.setCmd_cqs (k : Nat) (x : Option OpenCmd) : (s.setCmd k x).cqs = s.cqs := (rfl)
@[simp] theorem State.setCmd_host (k : Nat) (x : Option OpenCmd) : (s.setCmd k x).host = s.host := (rfl)
@[simp] theorem State.setCmd_msgs (k : Nat) (x : Option OpenCmd) : (s.setCmd k x).msgs = s.msgs := (rfl)
@[simp] theorem State.setCmd_txq (k : Nat) (x : Option OpenCmd) : (s.setCmd k x).txq = s.txq := (rfl)
@[simp] theorem State.setCmd_txSent (k : Nat) (x : Option OpenCmd) : (s.setCmd k x).txSent = s.txSent := (rfl)
@[simp] theorem State.setCmd_nextCmd (k : Nat) (x : Option OpenCmd) : (s.setCmd k x).nextCmd = s.nextCmd := (rfl)
@[simp] theorem State.setCmd_rm (k : Nat) (x : Option OpenCmd) : (s.setCmd k x).rm = s.rm := (rfl)
@[simp] theorem State.setCmd_stream (k : Nat) (x : Option OpenCmd) : (s.setCmd k x).stream = s.stream := (rfl)
@[simp] theorem State.setCmd_commit (k : Nat) (x : Option OpenCmd) : (s.setCmd k x).commit = s.commit := (rfl)
@[simp] theorem State.setCmd_anchor (k : Nat) (x : Option OpenCmd) : (s.setCmd k x).anchor = s.anchor := (rfl)
@[simp] theorem State.setCmd_ancView (k : Nat) (x : Option OpenCmd) : (s.setCmd k x).ancView = s.ancView := (rfl)
@[simp] theorem State.setCmd_fltIn (k : Nat) (x : Option OpenCmd) : (s.setCmd k x).fltIn = s.fltIn := (rfl)
@[simp] theorem State.setCmd_fins (k : Nat) (x : Option OpenCmd) : (s.setCmd k x).fins = s.fins := (rfl)
@[simp] theorem State.setCmd_fouts (k : Nat) (x : Option OpenCmd) : (s.setCmd k x).fouts = s.fouts := (rfl)
@[simp] theorem State.setCmd_mig (k : Nat) (x : Option OpenCmd) : (s.setCmd k x).mig = s.mig := (rfl)
@[simp] theorem State.setCmd_repairs (k : Nat) (x : Option OpenCmd) : (s.setCmd k x).repairs = s.repairs := (rfl)
@[simp] theorem State.setCmd_flog (k : Nat) (x : Option OpenCmd) : (s.setCmd k x).flog = s.flog := (rfl)
@[simp] theorem State.setCmd_pilot0 (k : Nat) (x : Option OpenCmd) : (s.setCmd k x).pilot0 = s.pilot0 := (rfl)
@[simp] theorem State.setCmd_pilot1 (k : Nat) (x : Option OpenCmd) : (s.setCmd k x).pilot1 = s.pilot1 := (rfl)
@[simp] theorem State.setCmd_su (k : Nat) (x : Option OpenCmd) : (s.setCmd k x).su = s.su := (rfl)
@[simp] theorem State.setCmd_hold (k : Nat) (x : Option OpenCmd) : (s.setCmd k x).hold = s.hold := (rfl)
@[simp] theorem State.setCmd_journalBad (k : Nat) (x : Option OpenCmd) : (s.setCmd k x).journalBad = s.journalBad := (rfl)
@[simp] theorem State.setCmd_answer (k : Nat) (x : Option OpenCmd) : (s.setCmd k x).answer = s.answer := (rfl)
@[simp] theorem State.setCmd_sqLast (k : Nat) (x : Option OpenCmd) : (s.setCmd k x).sqLast = s.sqLast := (rfl)
@[simp] theorem State.setCmd_mbxAns (k : Nat) (x : Option OpenCmd) : (s.setCmd k x).mbxAns = s.mbxAns := (rfl)
@[simp] theorem State.setCmd_canT (k : Nat) (x : Option OpenCmd) : (s.setCmd k x).canT = s.canT := (rfl)
@[simp] theorem State.setCmd_netHeld (k : Nat) (x : Option OpenCmd) : (s.setCmd k x).netHeld = s.netHeld := (rfl)
@[simp] theorem State.setCmd_freeCtr (k : Nat) (x : Option OpenCmd) : (s.setCmd k x).freeCtr = s.freeCtr := (rfl)
@[simp] theorem State.setCmd_pending (k : Nat) (x : Option OpenCmd) : (s.setCmd k x).pending = s.pending := (rfl)

/-! ### setRm -/

@[simp] theorem State.setRm_regs (r : Nat) (x : RmSlot) : (s.setRm r x).regs = s.regs := (rfl)
@[simp] theorem State.setRm_work (r : Nat) (x : RmSlot) : (s.setRm r x).work = s.work := (rfl)
@[simp] theorem State.setRm_time (r : Nat) (x : RmSlot) : (s.setRm r x).time = s.time := (rfl)
@[simp] theorem State.setRm_ports (r : Nat) (x : RmSlot) : (s.setRm r x).ports = s.ports := (rfl)
@[simp] theorem State.setRm_gdev (r : Nat) (x : RmSlot) : (s.setRm r x).gdev = s.gdev := (rfl)
@[simp] theorem State.setRm_gons (r : Nat) (x : RmSlot) : (s.setRm r x).gons = s.gons := (rfl)
@[simp] theorem State.setRm_axes (r : Nat) (x : RmSlot) : (s.setRm r x).axes = s.axes := (rfl)
@[simp] theorem State.setRm_emuAcc (r : Nat) (x : RmSlot) : (s.setRm r x).emuAcc = s.emuAcc := (rfl)
@[simp] theorem State.setRm_cmp (r : Nat) (x : RmSlot) : (s.setRm r x).cmp = s.cmp := (rfl)
@[simp] theorem State.setRm_bus (r : Nat) (x : RmSlot) : (s.setRm r x).bus = s.bus := (rfl)
@[simp] theorem State.setRm_lanes (r : Nat) (x : RmSlot) : (s.setRm r x).lanes = s.lanes := (rfl)
@[simp] theorem State.setRm_sram (r : Nat) (x : RmSlot) : (s.setRm r x).sram = s.sram := (rfl)
@[simp] theorem State.setRm_sramUpsets (r : Nat) (x : RmSlot) : (s.setRm r x).sramUpsets = s.sramUpsets := (rfl)
@[simp] theorem State.setRm_scrub (r : Nat) (x : RmSlot) : (s.setRm r x).scrub = s.scrub := (rfl)
@[simp] theorem State.setRm_sqs (r : Nat) (x : RmSlot) : (s.setRm r x).sqs = s.sqs := (rfl)
@[simp] theorem State.setRm_cqs (r : Nat) (x : RmSlot) : (s.setRm r x).cqs = s.cqs := (rfl)
@[simp] theorem State.setRm_host (r : Nat) (x : RmSlot) : (s.setRm r x).host = s.host := (rfl)
@[simp] theorem State.setRm_msgs (r : Nat) (x : RmSlot) : (s.setRm r x).msgs = s.msgs := (rfl)
@[simp] theorem State.setRm_txq (r : Nat) (x : RmSlot) : (s.setRm r x).txq = s.txq := (rfl)
@[simp] theorem State.setRm_txSent (r : Nat) (x : RmSlot) : (s.setRm r x).txSent = s.txSent := (rfl)
@[simp] theorem State.setRm_cmds (r : Nat) (x : RmSlot) : (s.setRm r x).cmds = s.cmds := (rfl)
@[simp] theorem State.setRm_nextCmd (r : Nat) (x : RmSlot) : (s.setRm r x).nextCmd = s.nextCmd := (rfl)
@[simp] theorem State.setRm_stream (r : Nat) (x : RmSlot) : (s.setRm r x).stream = s.stream := (rfl)
@[simp] theorem State.setRm_commit (r : Nat) (x : RmSlot) : (s.setRm r x).commit = s.commit := (rfl)
@[simp] theorem State.setRm_anchor (r : Nat) (x : RmSlot) : (s.setRm r x).anchor = s.anchor := (rfl)
@[simp] theorem State.setRm_ancView (r : Nat) (x : RmSlot) : (s.setRm r x).ancView = s.ancView := (rfl)
@[simp] theorem State.setRm_fltIn (r : Nat) (x : RmSlot) : (s.setRm r x).fltIn = s.fltIn := (rfl)
@[simp] theorem State.setRm_fins (r : Nat) (x : RmSlot) : (s.setRm r x).fins = s.fins := (rfl)
@[simp] theorem State.setRm_fouts (r : Nat) (x : RmSlot) : (s.setRm r x).fouts = s.fouts := (rfl)
@[simp] theorem State.setRm_mig (r : Nat) (x : RmSlot) : (s.setRm r x).mig = s.mig := (rfl)
@[simp] theorem State.setRm_repairs (r : Nat) (x : RmSlot) : (s.setRm r x).repairs = s.repairs := (rfl)
@[simp] theorem State.setRm_flog (r : Nat) (x : RmSlot) : (s.setRm r x).flog = s.flog := (rfl)
@[simp] theorem State.setRm_pilot0 (r : Nat) (x : RmSlot) : (s.setRm r x).pilot0 = s.pilot0 := (rfl)
@[simp] theorem State.setRm_pilot1 (r : Nat) (x : RmSlot) : (s.setRm r x).pilot1 = s.pilot1 := (rfl)
@[simp] theorem State.setRm_su (r : Nat) (x : RmSlot) : (s.setRm r x).su = s.su := (rfl)
@[simp] theorem State.setRm_hold (r : Nat) (x : RmSlot) : (s.setRm r x).hold = s.hold := (rfl)
@[simp] theorem State.setRm_journalBad (r : Nat) (x : RmSlot) : (s.setRm r x).journalBad = s.journalBad := (rfl)
@[simp] theorem State.setRm_answer (r : Nat) (x : RmSlot) : (s.setRm r x).answer = s.answer := (rfl)
@[simp] theorem State.setRm_sqLast (r : Nat) (x : RmSlot) : (s.setRm r x).sqLast = s.sqLast := (rfl)
@[simp] theorem State.setRm_mbxAns (r : Nat) (x : RmSlot) : (s.setRm r x).mbxAns = s.mbxAns := (rfl)
@[simp] theorem State.setRm_canT (r : Nat) (x : RmSlot) : (s.setRm r x).canT = s.canT := (rfl)
@[simp] theorem State.setRm_netHeld (r : Nat) (x : RmSlot) : (s.setRm r x).netHeld = s.netHeld := (rfl)
@[simp] theorem State.setRm_freeCtr (r : Nat) (x : RmSlot) : (s.setRm r x).freeCtr = s.freeCtr := (rfl)
@[simp] theorem State.setRm_pending (r : Nat) (x : RmSlot) : (s.setRm r x).pending = s.pending := (rfl)

/-! ### setFin -/

@[simp] theorem State.setFin_regs (n : Nat) (x : FinSt) : (s.setFin n x).regs = s.regs := (rfl)
@[simp] theorem State.setFin_work (n : Nat) (x : FinSt) : (s.setFin n x).work = s.work := (rfl)
@[simp] theorem State.setFin_time (n : Nat) (x : FinSt) : (s.setFin n x).time = s.time := (rfl)
@[simp] theorem State.setFin_ports (n : Nat) (x : FinSt) : (s.setFin n x).ports = s.ports := (rfl)
@[simp] theorem State.setFin_gdev (n : Nat) (x : FinSt) : (s.setFin n x).gdev = s.gdev := (rfl)
@[simp] theorem State.setFin_gons (n : Nat) (x : FinSt) : (s.setFin n x).gons = s.gons := (rfl)
@[simp] theorem State.setFin_axes (n : Nat) (x : FinSt) : (s.setFin n x).axes = s.axes := (rfl)
@[simp] theorem State.setFin_emuAcc (n : Nat) (x : FinSt) : (s.setFin n x).emuAcc = s.emuAcc := (rfl)
@[simp] theorem State.setFin_cmp (n : Nat) (x : FinSt) : (s.setFin n x).cmp = s.cmp := (rfl)
@[simp] theorem State.setFin_bus (n : Nat) (x : FinSt) : (s.setFin n x).bus = s.bus := (rfl)
@[simp] theorem State.setFin_lanes (n : Nat) (x : FinSt) : (s.setFin n x).lanes = s.lanes := (rfl)
@[simp] theorem State.setFin_sram (n : Nat) (x : FinSt) : (s.setFin n x).sram = s.sram := (rfl)
@[simp] theorem State.setFin_sramUpsets (n : Nat) (x : FinSt) : (s.setFin n x).sramUpsets = s.sramUpsets := (rfl)
@[simp] theorem State.setFin_scrub (n : Nat) (x : FinSt) : (s.setFin n x).scrub = s.scrub := (rfl)
@[simp] theorem State.setFin_sqs (n : Nat) (x : FinSt) : (s.setFin n x).sqs = s.sqs := (rfl)
@[simp] theorem State.setFin_cqs (n : Nat) (x : FinSt) : (s.setFin n x).cqs = s.cqs := (rfl)
@[simp] theorem State.setFin_host (n : Nat) (x : FinSt) : (s.setFin n x).host = s.host := (rfl)
@[simp] theorem State.setFin_msgs (n : Nat) (x : FinSt) : (s.setFin n x).msgs = s.msgs := (rfl)
@[simp] theorem State.setFin_txq (n : Nat) (x : FinSt) : (s.setFin n x).txq = s.txq := (rfl)
@[simp] theorem State.setFin_txSent (n : Nat) (x : FinSt) : (s.setFin n x).txSent = s.txSent := (rfl)
@[simp] theorem State.setFin_cmds (n : Nat) (x : FinSt) : (s.setFin n x).cmds = s.cmds := (rfl)
@[simp] theorem State.setFin_nextCmd (n : Nat) (x : FinSt) : (s.setFin n x).nextCmd = s.nextCmd := (rfl)
@[simp] theorem State.setFin_rm (n : Nat) (x : FinSt) : (s.setFin n x).rm = s.rm := (rfl)
@[simp] theorem State.setFin_stream (n : Nat) (x : FinSt) : (s.setFin n x).stream = s.stream := (rfl)
@[simp] theorem State.setFin_commit (n : Nat) (x : FinSt) : (s.setFin n x).commit = s.commit := (rfl)
@[simp] theorem State.setFin_anchor (n : Nat) (x : FinSt) : (s.setFin n x).anchor = s.anchor := (rfl)
@[simp] theorem State.setFin_ancView (n : Nat) (x : FinSt) : (s.setFin n x).ancView = s.ancView := (rfl)
@[simp] theorem State.setFin_fltIn (n : Nat) (x : FinSt) : (s.setFin n x).fltIn = s.fltIn := (rfl)
@[simp] theorem State.setFin_fouts (n : Nat) (x : FinSt) : (s.setFin n x).fouts = s.fouts := (rfl)
@[simp] theorem State.setFin_mig (n : Nat) (x : FinSt) : (s.setFin n x).mig = s.mig := (rfl)
@[simp] theorem State.setFin_repairs (n : Nat) (x : FinSt) : (s.setFin n x).repairs = s.repairs := (rfl)
@[simp] theorem State.setFin_flog (n : Nat) (x : FinSt) : (s.setFin n x).flog = s.flog := (rfl)
@[simp] theorem State.setFin_pilot0 (n : Nat) (x : FinSt) : (s.setFin n x).pilot0 = s.pilot0 := (rfl)
@[simp] theorem State.setFin_pilot1 (n : Nat) (x : FinSt) : (s.setFin n x).pilot1 = s.pilot1 := (rfl)
@[simp] theorem State.setFin_su (n : Nat) (x : FinSt) : (s.setFin n x).su = s.su := (rfl)
@[simp] theorem State.setFin_hold (n : Nat) (x : FinSt) : (s.setFin n x).hold = s.hold := (rfl)
@[simp] theorem State.setFin_journalBad (n : Nat) (x : FinSt) : (s.setFin n x).journalBad = s.journalBad := (rfl)
@[simp] theorem State.setFin_answer (n : Nat) (x : FinSt) : (s.setFin n x).answer = s.answer := (rfl)
@[simp] theorem State.setFin_sqLast (n : Nat) (x : FinSt) : (s.setFin n x).sqLast = s.sqLast := (rfl)
@[simp] theorem State.setFin_mbxAns (n : Nat) (x : FinSt) : (s.setFin n x).mbxAns = s.mbxAns := (rfl)
@[simp] theorem State.setFin_canT (n : Nat) (x : FinSt) : (s.setFin n x).canT = s.canT := (rfl)
@[simp] theorem State.setFin_netHeld (n : Nat) (x : FinSt) : (s.setFin n x).netHeld = s.netHeld := (rfl)
@[simp] theorem State.setFin_freeCtr (n : Nat) (x : FinSt) : (s.setFin n x).freeCtr = s.freeCtr := (rfl)
@[simp] theorem State.setFin_pending (n : Nat) (x : FinSt) : (s.setFin n x).pending = s.pending := (rfl)

/-! ### setFout -/

@[simp] theorem State.setFout_regs (k : Nat) (x : FoutSt) : (s.setFout k x).regs = s.regs := (rfl)
@[simp] theorem State.setFout_work (k : Nat) (x : FoutSt) : (s.setFout k x).work = s.work := (rfl)
@[simp] theorem State.setFout_time (k : Nat) (x : FoutSt) : (s.setFout k x).time = s.time := (rfl)
@[simp] theorem State.setFout_ports (k : Nat) (x : FoutSt) : (s.setFout k x).ports = s.ports := (rfl)
@[simp] theorem State.setFout_gdev (k : Nat) (x : FoutSt) : (s.setFout k x).gdev = s.gdev := (rfl)
@[simp] theorem State.setFout_gons (k : Nat) (x : FoutSt) : (s.setFout k x).gons = s.gons := (rfl)
@[simp] theorem State.setFout_axes (k : Nat) (x : FoutSt) : (s.setFout k x).axes = s.axes := (rfl)
@[simp] theorem State.setFout_emuAcc (k : Nat) (x : FoutSt) : (s.setFout k x).emuAcc = s.emuAcc := (rfl)
@[simp] theorem State.setFout_cmp (k : Nat) (x : FoutSt) : (s.setFout k x).cmp = s.cmp := (rfl)
@[simp] theorem State.setFout_bus (k : Nat) (x : FoutSt) : (s.setFout k x).bus = s.bus := (rfl)
@[simp] theorem State.setFout_lanes (k : Nat) (x : FoutSt) : (s.setFout k x).lanes = s.lanes := (rfl)
@[simp] theorem State.setFout_sram (k : Nat) (x : FoutSt) : (s.setFout k x).sram = s.sram := (rfl)
@[simp] theorem State.setFout_sramUpsets (k : Nat) (x : FoutSt) : (s.setFout k x).sramUpsets = s.sramUpsets := (rfl)
@[simp] theorem State.setFout_scrub (k : Nat) (x : FoutSt) : (s.setFout k x).scrub = s.scrub := (rfl)
@[simp] theorem State.setFout_sqs (k : Nat) (x : FoutSt) : (s.setFout k x).sqs = s.sqs := (rfl)
@[simp] theorem State.setFout_cqs (k : Nat) (x : FoutSt) : (s.setFout k x).cqs = s.cqs := (rfl)
@[simp] theorem State.setFout_host (k : Nat) (x : FoutSt) : (s.setFout k x).host = s.host := (rfl)
@[simp] theorem State.setFout_msgs (k : Nat) (x : FoutSt) : (s.setFout k x).msgs = s.msgs := (rfl)
@[simp] theorem State.setFout_txq (k : Nat) (x : FoutSt) : (s.setFout k x).txq = s.txq := (rfl)
@[simp] theorem State.setFout_txSent (k : Nat) (x : FoutSt) : (s.setFout k x).txSent = s.txSent := (rfl)
@[simp] theorem State.setFout_cmds (k : Nat) (x : FoutSt) : (s.setFout k x).cmds = s.cmds := (rfl)
@[simp] theorem State.setFout_nextCmd (k : Nat) (x : FoutSt) : (s.setFout k x).nextCmd = s.nextCmd := (rfl)
@[simp] theorem State.setFout_rm (k : Nat) (x : FoutSt) : (s.setFout k x).rm = s.rm := (rfl)
@[simp] theorem State.setFout_stream (k : Nat) (x : FoutSt) : (s.setFout k x).stream = s.stream := (rfl)
@[simp] theorem State.setFout_commit (k : Nat) (x : FoutSt) : (s.setFout k x).commit = s.commit := (rfl)
@[simp] theorem State.setFout_anchor (k : Nat) (x : FoutSt) : (s.setFout k x).anchor = s.anchor := (rfl)
@[simp] theorem State.setFout_ancView (k : Nat) (x : FoutSt) : (s.setFout k x).ancView = s.ancView := (rfl)
@[simp] theorem State.setFout_fltIn (k : Nat) (x : FoutSt) : (s.setFout k x).fltIn = s.fltIn := (rfl)
@[simp] theorem State.setFout_fins (k : Nat) (x : FoutSt) : (s.setFout k x).fins = s.fins := (rfl)
@[simp] theorem State.setFout_mig (k : Nat) (x : FoutSt) : (s.setFout k x).mig = s.mig := (rfl)
@[simp] theorem State.setFout_repairs (k : Nat) (x : FoutSt) : (s.setFout k x).repairs = s.repairs := (rfl)
@[simp] theorem State.setFout_flog (k : Nat) (x : FoutSt) : (s.setFout k x).flog = s.flog := (rfl)
@[simp] theorem State.setFout_pilot0 (k : Nat) (x : FoutSt) : (s.setFout k x).pilot0 = s.pilot0 := (rfl)
@[simp] theorem State.setFout_pilot1 (k : Nat) (x : FoutSt) : (s.setFout k x).pilot1 = s.pilot1 := (rfl)
@[simp] theorem State.setFout_su (k : Nat) (x : FoutSt) : (s.setFout k x).su = s.su := (rfl)
@[simp] theorem State.setFout_hold (k : Nat) (x : FoutSt) : (s.setFout k x).hold = s.hold := (rfl)
@[simp] theorem State.setFout_journalBad (k : Nat) (x : FoutSt) : (s.setFout k x).journalBad = s.journalBad := (rfl)
@[simp] theorem State.setFout_answer (k : Nat) (x : FoutSt) : (s.setFout k x).answer = s.answer := (rfl)
@[simp] theorem State.setFout_sqLast (k : Nat) (x : FoutSt) : (s.setFout k x).sqLast = s.sqLast := (rfl)
@[simp] theorem State.setFout_mbxAns (k : Nat) (x : FoutSt) : (s.setFout k x).mbxAns = s.mbxAns := (rfl)
@[simp] theorem State.setFout_canT (k : Nat) (x : FoutSt) : (s.setFout k x).canT = s.canT := (rfl)
@[simp] theorem State.setFout_netHeld (k : Nat) (x : FoutSt) : (s.setFout k x).netHeld = s.netHeld := (rfl)
@[simp] theorem State.setFout_freeCtr (k : Nat) (x : FoutSt) : (s.setFout k x).freeCtr = s.freeCtr := (rfl)
@[simp] theorem State.setFout_pending (k : Nat) (x : FoutSt) : (s.setFout k x).pending = s.pending := (rfl)

/-! ### updAnchor -/

@[simp] theorem State.updAnchor_regs (f : Anchor → Anchor) : (s.updAnchor f).regs = s.regs := (rfl)
@[simp] theorem State.updAnchor_work (f : Anchor → Anchor) : (s.updAnchor f).work = s.work := (rfl)
@[simp] theorem State.updAnchor_time (f : Anchor → Anchor) : (s.updAnchor f).time = s.time := (rfl)
@[simp] theorem State.updAnchor_ports (f : Anchor → Anchor) : (s.updAnchor f).ports = s.ports := (rfl)
@[simp] theorem State.updAnchor_gdev (f : Anchor → Anchor) : (s.updAnchor f).gdev = s.gdev := (rfl)
@[simp] theorem State.updAnchor_gons (f : Anchor → Anchor) : (s.updAnchor f).gons = s.gons := (rfl)
@[simp] theorem State.updAnchor_axes (f : Anchor → Anchor) : (s.updAnchor f).axes = s.axes := (rfl)
@[simp] theorem State.updAnchor_emuAcc (f : Anchor → Anchor) : (s.updAnchor f).emuAcc = s.emuAcc := (rfl)
@[simp] theorem State.updAnchor_cmp (f : Anchor → Anchor) : (s.updAnchor f).cmp = s.cmp := (rfl)
@[simp] theorem State.updAnchor_bus (f : Anchor → Anchor) : (s.updAnchor f).bus = s.bus := (rfl)
@[simp] theorem State.updAnchor_lanes (f : Anchor → Anchor) : (s.updAnchor f).lanes = s.lanes := (rfl)
@[simp] theorem State.updAnchor_sram (f : Anchor → Anchor) : (s.updAnchor f).sram = s.sram := (rfl)
@[simp] theorem State.updAnchor_sramUpsets (f : Anchor → Anchor) : (s.updAnchor f).sramUpsets = s.sramUpsets := (rfl)
@[simp] theorem State.updAnchor_scrub (f : Anchor → Anchor) : (s.updAnchor f).scrub = s.scrub := (rfl)
@[simp] theorem State.updAnchor_sqs (f : Anchor → Anchor) : (s.updAnchor f).sqs = s.sqs := (rfl)
@[simp] theorem State.updAnchor_cqs (f : Anchor → Anchor) : (s.updAnchor f).cqs = s.cqs := (rfl)
@[simp] theorem State.updAnchor_host (f : Anchor → Anchor) : (s.updAnchor f).host = s.host := (rfl)
@[simp] theorem State.updAnchor_msgs (f : Anchor → Anchor) : (s.updAnchor f).msgs = s.msgs := (rfl)
@[simp] theorem State.updAnchor_txq (f : Anchor → Anchor) : (s.updAnchor f).txq = s.txq := (rfl)
@[simp] theorem State.updAnchor_txSent (f : Anchor → Anchor) : (s.updAnchor f).txSent = s.txSent := (rfl)
@[simp] theorem State.updAnchor_cmds (f : Anchor → Anchor) : (s.updAnchor f).cmds = s.cmds := (rfl)
@[simp] theorem State.updAnchor_nextCmd (f : Anchor → Anchor) : (s.updAnchor f).nextCmd = s.nextCmd := (rfl)
@[simp] theorem State.updAnchor_rm (f : Anchor → Anchor) : (s.updAnchor f).rm = s.rm := (rfl)
@[simp] theorem State.updAnchor_stream (f : Anchor → Anchor) : (s.updAnchor f).stream = s.stream := (rfl)
@[simp] theorem State.updAnchor_commit (f : Anchor → Anchor) : (s.updAnchor f).commit = s.commit := (rfl)
@[simp] theorem State.updAnchor_ancView (f : Anchor → Anchor) : (s.updAnchor f).ancView = s.ancView := (rfl)
@[simp] theorem State.updAnchor_fltIn (f : Anchor → Anchor) : (s.updAnchor f).fltIn = s.fltIn := (rfl)
@[simp] theorem State.updAnchor_fins (f : Anchor → Anchor) : (s.updAnchor f).fins = s.fins := (rfl)
@[simp] theorem State.updAnchor_fouts (f : Anchor → Anchor) : (s.updAnchor f).fouts = s.fouts := (rfl)
@[simp] theorem State.updAnchor_mig (f : Anchor → Anchor) : (s.updAnchor f).mig = s.mig := (rfl)
@[simp] theorem State.updAnchor_repairs (f : Anchor → Anchor) : (s.updAnchor f).repairs = s.repairs := (rfl)
@[simp] theorem State.updAnchor_flog (f : Anchor → Anchor) : (s.updAnchor f).flog = s.flog := (rfl)
@[simp] theorem State.updAnchor_pilot0 (f : Anchor → Anchor) : (s.updAnchor f).pilot0 = s.pilot0 := (rfl)
@[simp] theorem State.updAnchor_pilot1 (f : Anchor → Anchor) : (s.updAnchor f).pilot1 = s.pilot1 := (rfl)
@[simp] theorem State.updAnchor_su (f : Anchor → Anchor) : (s.updAnchor f).su = s.su := (rfl)
@[simp] theorem State.updAnchor_hold (f : Anchor → Anchor) : (s.updAnchor f).hold = s.hold := (rfl)
@[simp] theorem State.updAnchor_journalBad (f : Anchor → Anchor) : (s.updAnchor f).journalBad = s.journalBad := (rfl)
@[simp] theorem State.updAnchor_answer (f : Anchor → Anchor) : (s.updAnchor f).answer = s.answer := (rfl)
@[simp] theorem State.updAnchor_sqLast (f : Anchor → Anchor) : (s.updAnchor f).sqLast = s.sqLast := (rfl)
@[simp] theorem State.updAnchor_mbxAns (f : Anchor → Anchor) : (s.updAnchor f).mbxAns = s.mbxAns := (rfl)
@[simp] theorem State.updAnchor_canT (f : Anchor → Anchor) : (s.updAnchor f).canT = s.canT := (rfl)
@[simp] theorem State.updAnchor_netHeld (f : Anchor → Anchor) : (s.updAnchor f).netHeld = s.netHeld := (rfl)
@[simp] theorem State.updAnchor_freeCtr (f : Anchor → Anchor) : (s.updAnchor f).freeCtr = s.freeCtr := (rfl)
@[simp] theorem State.updAnchor_pending (f : Anchor → Anchor) : (s.updAnchor f).pending = s.pending := (rfl)

/-! ### updTime -/

@[simp] theorem State.updTime_regs (f : TimeUnit → TimeUnit) : (s.updTime f).regs = s.regs := (rfl)
@[simp] theorem State.updTime_work (f : TimeUnit → TimeUnit) : (s.updTime f).work = s.work := (rfl)
@[simp] theorem State.updTime_ports (f : TimeUnit → TimeUnit) : (s.updTime f).ports = s.ports := (rfl)
@[simp] theorem State.updTime_gdev (f : TimeUnit → TimeUnit) : (s.updTime f).gdev = s.gdev := (rfl)
@[simp] theorem State.updTime_gons (f : TimeUnit → TimeUnit) : (s.updTime f).gons = s.gons := (rfl)
@[simp] theorem State.updTime_axes (f : TimeUnit → TimeUnit) : (s.updTime f).axes = s.axes := (rfl)
@[simp] theorem State.updTime_emuAcc (f : TimeUnit → TimeUnit) : (s.updTime f).emuAcc = s.emuAcc := (rfl)
@[simp] theorem State.updTime_cmp (f : TimeUnit → TimeUnit) : (s.updTime f).cmp = s.cmp := (rfl)
@[simp] theorem State.updTime_bus (f : TimeUnit → TimeUnit) : (s.updTime f).bus = s.bus := (rfl)
@[simp] theorem State.updTime_lanes (f : TimeUnit → TimeUnit) : (s.updTime f).lanes = s.lanes := (rfl)
@[simp] theorem State.updTime_sram (f : TimeUnit → TimeUnit) : (s.updTime f).sram = s.sram := (rfl)
@[simp] theorem State.updTime_sramUpsets (f : TimeUnit → TimeUnit) : (s.updTime f).sramUpsets = s.sramUpsets := (rfl)
@[simp] theorem State.updTime_scrub (f : TimeUnit → TimeUnit) : (s.updTime f).scrub = s.scrub := (rfl)
@[simp] theorem State.updTime_sqs (f : TimeUnit → TimeUnit) : (s.updTime f).sqs = s.sqs := (rfl)
@[simp] theorem State.updTime_cqs (f : TimeUnit → TimeUnit) : (s.updTime f).cqs = s.cqs := (rfl)
@[simp] theorem State.updTime_host (f : TimeUnit → TimeUnit) : (s.updTime f).host = s.host := (rfl)
@[simp] theorem State.updTime_msgs (f : TimeUnit → TimeUnit) : (s.updTime f).msgs = s.msgs := (rfl)
@[simp] theorem State.updTime_txq (f : TimeUnit → TimeUnit) : (s.updTime f).txq = s.txq := (rfl)
@[simp] theorem State.updTime_txSent (f : TimeUnit → TimeUnit) : (s.updTime f).txSent = s.txSent := (rfl)
@[simp] theorem State.updTime_cmds (f : TimeUnit → TimeUnit) : (s.updTime f).cmds = s.cmds := (rfl)
@[simp] theorem State.updTime_nextCmd (f : TimeUnit → TimeUnit) : (s.updTime f).nextCmd = s.nextCmd := (rfl)
@[simp] theorem State.updTime_rm (f : TimeUnit → TimeUnit) : (s.updTime f).rm = s.rm := (rfl)
@[simp] theorem State.updTime_stream (f : TimeUnit → TimeUnit) : (s.updTime f).stream = s.stream := (rfl)
@[simp] theorem State.updTime_commit (f : TimeUnit → TimeUnit) : (s.updTime f).commit = s.commit := (rfl)
@[simp] theorem State.updTime_anchor (f : TimeUnit → TimeUnit) : (s.updTime f).anchor = s.anchor := (rfl)
@[simp] theorem State.updTime_ancView (f : TimeUnit → TimeUnit) : (s.updTime f).ancView = s.ancView := (rfl)
@[simp] theorem State.updTime_fltIn (f : TimeUnit → TimeUnit) : (s.updTime f).fltIn = s.fltIn := (rfl)
@[simp] theorem State.updTime_fins (f : TimeUnit → TimeUnit) : (s.updTime f).fins = s.fins := (rfl)
@[simp] theorem State.updTime_fouts (f : TimeUnit → TimeUnit) : (s.updTime f).fouts = s.fouts := (rfl)
@[simp] theorem State.updTime_mig (f : TimeUnit → TimeUnit) : (s.updTime f).mig = s.mig := (rfl)
@[simp] theorem State.updTime_repairs (f : TimeUnit → TimeUnit) : (s.updTime f).repairs = s.repairs := (rfl)
@[simp] theorem State.updTime_flog (f : TimeUnit → TimeUnit) : (s.updTime f).flog = s.flog := (rfl)
@[simp] theorem State.updTime_pilot0 (f : TimeUnit → TimeUnit) : (s.updTime f).pilot0 = s.pilot0 := (rfl)
@[simp] theorem State.updTime_pilot1 (f : TimeUnit → TimeUnit) : (s.updTime f).pilot1 = s.pilot1 := (rfl)
@[simp] theorem State.updTime_su (f : TimeUnit → TimeUnit) : (s.updTime f).su = s.su := (rfl)
@[simp] theorem State.updTime_hold (f : TimeUnit → TimeUnit) : (s.updTime f).hold = s.hold := (rfl)
@[simp] theorem State.updTime_journalBad (f : TimeUnit → TimeUnit) : (s.updTime f).journalBad = s.journalBad := (rfl)
@[simp] theorem State.updTime_answer (f : TimeUnit → TimeUnit) : (s.updTime f).answer = s.answer := (rfl)
@[simp] theorem State.updTime_sqLast (f : TimeUnit → TimeUnit) : (s.updTime f).sqLast = s.sqLast := (rfl)
@[simp] theorem State.updTime_mbxAns (f : TimeUnit → TimeUnit) : (s.updTime f).mbxAns = s.mbxAns := (rfl)
@[simp] theorem State.updTime_canT (f : TimeUnit → TimeUnit) : (s.updTime f).canT = s.canT := (rfl)
@[simp] theorem State.updTime_netHeld (f : TimeUnit → TimeUnit) : (s.updTime f).netHeld = s.netHeld := (rfl)
@[simp] theorem State.updTime_freeCtr (f : TimeUnit → TimeUnit) : (s.updTime f).freeCtr = s.freeCtr := (rfl)
@[simp] theorem State.updTime_pending (f : TimeUnit → TimeUnit) : (s.updTime f).pending = s.pending := (rfl)

/-! ### drew -/

@[simp] theorem State.drew_regs (n : Nat) : (s.drew n).regs = s.regs := (rfl)
@[simp] theorem State.drew_work (n : Nat) : (s.drew n).work = s.work := (rfl)
@[simp] theorem State.drew_time (n : Nat) : (s.drew n).time = s.time := (rfl)
@[simp] theorem State.drew_ports (n : Nat) : (s.drew n).ports = s.ports := (rfl)
@[simp] theorem State.drew_gdev (n : Nat) : (s.drew n).gdev = s.gdev := (rfl)
@[simp] theorem State.drew_gons (n : Nat) : (s.drew n).gons = s.gons := (rfl)
@[simp] theorem State.drew_axes (n : Nat) : (s.drew n).axes = s.axes := (rfl)
@[simp] theorem State.drew_emuAcc (n : Nat) : (s.drew n).emuAcc = s.emuAcc := (rfl)
@[simp] theorem State.drew_cmp (n : Nat) : (s.drew n).cmp = s.cmp := (rfl)
@[simp] theorem State.drew_bus (n : Nat) : (s.drew n).bus = s.bus := (rfl)
@[simp] theorem State.drew_lanes (n : Nat) : (s.drew n).lanes = s.lanes := (rfl)
@[simp] theorem State.drew_sram (n : Nat) : (s.drew n).sram = s.sram := (rfl)
@[simp] theorem State.drew_sramUpsets (n : Nat) : (s.drew n).sramUpsets = s.sramUpsets := (rfl)
@[simp] theorem State.drew_scrub (n : Nat) : (s.drew n).scrub = s.scrub := (rfl)
@[simp] theorem State.drew_sqs (n : Nat) : (s.drew n).sqs = s.sqs := (rfl)
@[simp] theorem State.drew_cqs (n : Nat) : (s.drew n).cqs = s.cqs := (rfl)
@[simp] theorem State.drew_host (n : Nat) : (s.drew n).host = s.host := (rfl)
@[simp] theorem State.drew_msgs (n : Nat) : (s.drew n).msgs = s.msgs := (rfl)
@[simp] theorem State.drew_txq (n : Nat) : (s.drew n).txq = s.txq := (rfl)
@[simp] theorem State.drew_txSent (n : Nat) : (s.drew n).txSent = s.txSent := (rfl)
@[simp] theorem State.drew_cmds (n : Nat) : (s.drew n).cmds = s.cmds := (rfl)
@[simp] theorem State.drew_nextCmd (n : Nat) : (s.drew n).nextCmd = s.nextCmd := (rfl)
@[simp] theorem State.drew_rm (n : Nat) : (s.drew n).rm = s.rm := (rfl)
@[simp] theorem State.drew_stream (n : Nat) : (s.drew n).stream = s.stream := (rfl)
@[simp] theorem State.drew_commit (n : Nat) : (s.drew n).commit = s.commit := (rfl)
@[simp] theorem State.drew_anchor (n : Nat) : (s.drew n).anchor = s.anchor := (rfl)
@[simp] theorem State.drew_ancView (n : Nat) : (s.drew n).ancView = s.ancView := (rfl)
@[simp] theorem State.drew_fltIn (n : Nat) : (s.drew n).fltIn = s.fltIn := (rfl)
@[simp] theorem State.drew_fins (n : Nat) : (s.drew n).fins = s.fins := (rfl)
@[simp] theorem State.drew_fouts (n : Nat) : (s.drew n).fouts = s.fouts := (rfl)
@[simp] theorem State.drew_mig (n : Nat) : (s.drew n).mig = s.mig := (rfl)
@[simp] theorem State.drew_repairs (n : Nat) : (s.drew n).repairs = s.repairs := (rfl)
@[simp] theorem State.drew_flog (n : Nat) : (s.drew n).flog = s.flog := (rfl)
@[simp] theorem State.drew_pilot0 (n : Nat) : (s.drew n).pilot0 = s.pilot0 := (rfl)
@[simp] theorem State.drew_pilot1 (n : Nat) : (s.drew n).pilot1 = s.pilot1 := (rfl)
@[simp] theorem State.drew_su (n : Nat) : (s.drew n).su = s.su := (rfl)
@[simp] theorem State.drew_hold (n : Nat) : (s.drew n).hold = s.hold := (rfl)
@[simp] theorem State.drew_journalBad (n : Nat) : (s.drew n).journalBad = s.journalBad := (rfl)
@[simp] theorem State.drew_answer (n : Nat) : (s.drew n).answer = s.answer := (rfl)
@[simp] theorem State.drew_sqLast (n : Nat) : (s.drew n).sqLast = s.sqLast := (rfl)
@[simp] theorem State.drew_mbxAns (n : Nat) : (s.drew n).mbxAns = s.mbxAns := (rfl)
@[simp] theorem State.drew_canT (n : Nat) : (s.drew n).canT = s.canT := (rfl)
@[simp] theorem State.drew_netHeld (n : Nat) : (s.drew n).netHeld = s.netHeld := (rfl)
@[simp] theorem State.drew_pending (n : Nat) : (s.drew n).pending = s.pending := (rfl)

/-! ### Reading back -/

@[simp] theorem State.port_setPort (t : Nat) (x : PortDev) : (s.setPort t x).port t = x := by simp [State.port, State.setPort]
theorem State.port_setPort_ne {t j : Nat} (x : PortDev) (h : j ≠ t) : (s.setPort t x).port j = s.port j := by
  simp [State.port, State.setPort, tget_tset_ne _ _ _ _ h]
@[simp] theorem State.port_updPort (t : Nat) (f : PortDev → PortDev) : (s.updPort t f).port t = f (s.port t) := by simp [State.updPort]
@[simp] theorem State.gd_setGd (k : Nat) (x : GonDev) : (s.setGd k x).gd k = x := by simp [State.gd, State.setGd]
theorem State.gd_setGd_ne {k j : Nat} (x : GonDev) (h : j ≠ k) : (s.setGd k x).gd j = s.gd j := by
  simp [State.gd, State.setGd, tget_tset_ne _ _ _ _ h]
@[simp] theorem State.gd_updGd (k : Nat) (f : GonDev → GonDev) : (s.updGd k f).gd k = f (s.gd k) := by simp [State.updGd]
@[simp] theorem State.gon_setGon (n : Nat) (x : Gondola) : (s.setGon n x).gon n = x := by simp [State.gon, State.setGon]
theorem State.gon_setGon_ne {n j : Nat} (x : Gondola) (h : j ≠ n) : (s.setGon n x).gon j = s.gon j := by
  simp [State.gon, State.setGon, tget_tset_ne _ _ _ _ h]
@[simp] theorem State.gon_updGon (n : Nat) (f : Gondola → Gondola) : (s.updGon n f).gon n = f (s.gon n) := by simp [State.updGon]
@[simp] theorem State.ax_setAx (n : Nat) (x : Axis) : (s.setAx n x).ax n = x := by simp [State.ax, State.setAx]
theorem State.ax_setAx_ne {n j : Nat} (x : Axis) (h : j ≠ n) : (s.setAx n x).ax j = s.ax j := by
  simp [State.ax, State.setAx, tget_tset_ne _ _ _ _ h]
@[simp] theorem State.ax_updAx (n : Nat) (f : Axis → Axis) : (s.updAx n f).ax n = f (s.ax n) := by simp [State.updAx]
@[simp] theorem State.ce_setCe (i : Nat) (x : CmpEnt) : (s.setCe i x).ce i = x := by simp [State.ce, State.setCe]
theorem State.ce_setCe_ne {i j : Nat} (x : CmpEnt) (h : j ≠ i) : (s.setCe i x).ce j = s.ce j := by
  simp [State.ce, State.setCe, tget_tset_ne _ _ _ _ h]
@[simp] theorem State.ce_updCe (i : Nat) (f : CmpEnt → CmpEnt) : (s.updCe i f).ce i = f (s.ce i) := by simp [State.updCe]
@[simp] theorem State.bg_setBg (b : Nat) (x : BusGrp) : (s.setBg b x).bg b = x := by simp [State.bg, State.setBg]
theorem State.bg_setBg_ne {b j : Nat} (x : BusGrp) (h : j ≠ b) : (s.setBg b x).bg j = s.bg j := by
  simp [State.bg, State.setBg, tget_tset_ne _ _ _ _ h]
@[simp] theorem State.bg_updBg (b : Nat) (f : BusGrp → BusGrp) : (s.updBg b f).bg b = f (s.bg b) := by simp [State.updBg]
@[simp] theorem State.ln_setLn (l : Nat) (x : Lane) : (s.setLn l x).ln l = x := by simp [State.ln, State.setLn]
theorem State.ln_setLn_ne {l j : Nat} (x : Lane) (h : j ≠ l) : (s.setLn l x).ln j = s.ln j := by
  simp [State.ln, State.setLn, tget_tset_ne _ _ _ _ h]
@[simp] theorem State.ln_updLn (l : Nat) (f : Lane → Lane) : (s.updLn l f).ln l = f (s.ln l) := by simp [State.updLn]
@[simp] theorem State.sq_setSq (q : Nat) (x : Sq) : (s.setSq q x).sq q = x := by simp [State.sq, State.setSq]
theorem State.sq_setSq_ne {q j : Nat} (x : Sq) (h : j ≠ q) : (s.setSq q x).sq j = s.sq j := by
  simp [State.sq, State.setSq, tget_tset_ne _ _ _ _ h]
@[simp] theorem State.sq_updSq (q : Nat) (f : Sq → Sq) : (s.updSq q f).sq q = f (s.sq q) := by simp [State.updSq]
@[simp] theorem State.cq_setCq (q : Nat) (x : Cq) : (s.setCq q x).cq q = x := by simp [State.cq, State.setCq]
theorem State.cq_setCq_ne {q j : Nat} (x : Cq) (h : j ≠ q) : (s.setCq q x).cq j = s.cq j := by
  simp [State.cq, State.setCq, tget_tset_ne _ _ _ _ h]
@[simp] theorem State.cq_updCq (q : Nat) (f : Cq → Cq) : (s.updCq q f).cq q = f (s.cq q) := by simp [State.updCq]
@[simp] theorem State.cmd_setCmd (k : Nat) (x : Option OpenCmd) : (s.setCmd k x).cmd k = x := by simp [State.cmd, State.setCmd]
theorem State.cmd_setCmd_ne {k j : Nat} (x : Option OpenCmd) (h : j ≠ k) : (s.setCmd k x).cmd j = s.cmd j := by
  simp [State.cmd, State.setCmd, tget_tset_ne _ _ _ _ h]
@[simp] theorem State.rmSlot_setRm (r : Nat) (x : RmSlot) : (s.setRm r x).rmSlot r = x := by simp [State.rmSlot, State.setRm]
theorem State.rmSlot_setRm_ne {r j : Nat} (x : RmSlot) (h : j ≠ r) : (s.setRm r x).rmSlot j = s.rmSlot j := by
  simp [State.rmSlot, State.setRm, tget_tset_ne _ _ _ _ h]
@[simp] theorem State.fin_setFin (n : Nat) (x : FinSt) : (s.setFin n x).fin_ n = x := by simp [State.fin_, State.setFin]
theorem State.fin_setFin_ne {n j : Nat} (x : FinSt) (h : j ≠ n) : (s.setFin n x).fin_ j = s.fin_ j := by
  simp [State.fin_, State.setFin, tget_tset_ne _ _ _ _ h]
@[simp] theorem State.fout_setFout (k : Nat) (x : FoutSt) : (s.setFout k x).fout k = x := by simp [State.fout, State.setFout]
theorem State.fout_setFout_ne {k j : Nat} (x : FoutSt) (h : j ≠ k) : (s.setFout k x).fout j = s.fout j := by
  simp [State.fout, State.setFout, tget_tset_ne _ _ _ _ h]
@[simp] theorem State.fout_updFout (k : Nat) (f : FoutSt → FoutSt) : (s.updFout k f).fout k = f (s.fout k) := by simp [State.updFout]

end Sys2Proof.Machine
end

