-- ==== Sys2Proof/Laws/Regs.lean ====
section
/-! SUPPORT. The laws of registers and fields: what a read gives after a write of a register, of a field, and of another one. -/
namespace Sys2Proof.Machine

variable (s : State)

@[simp] theorem State.rget_rset (o : Nat) (v : Word) : (s.rset o v).rget o = v := by simp [State.rget, State.rset]
theorem State.rget_rset_ne {o p : Nat} (v : Word) (h : p ≠ o) : (s.rset o v).rget p = s.rget p := by
  simp [State.rget, State.rset, tget_tset_ne _ _ _ _ h]

/-- A held part of the plan keeps its registers when one of its words is replaced. -/
theorem PlanHold.find_map (h : PlanHold) (o p : Nat) (f : Word → Word) :
    (h.map o f).regs.find? (fun e => e.1 == p) =
      (h.regs.find? (fun e => e.1 == p)).map (fun e => if e.1 = o then (o, f e.2) else e) := by
  unfold PlanHold.map
  rw [List.find?_map]
  congr 2
  funext e
  by_cases he : e.1 = o <;> simp [he]

/-- What waits for a tick start follows a write of its working copy, and no other register's. -/
theorem State.held_wset (o p : Nat) (v : Word) :
    (s.wset o v).held p = if p = o then (s.held p).map (fun _ => v) else s.held p := by
  unfold State.held State.wset
  dsimp only
  induction s.hold with
  | nil => simp
  | cons h t ih =>
    rw [List.map_cons, List.findSome?_cons, List.findSome?_cons, ih, PlanHold.find_map]
    cases hf : h.regs.find? (fun e => e.1 == p) with
    | none => simp
    | some e =>
      have hp : e.1 = p := by simpa using List.find?_some hf
      by_cases ho : p = o <;> simp [hp, ho]

@[simp] theorem State.wget_wset (o : Nat) (v : Word) : (s.wset o v).wget o = v := by
  unfold State.wget
  rw [State.held_wset, if_pos rfl]
  cases s.held o <;> simp [State.wcopy, State.wset]

theorem State.wget_wset_ne {o p : Nat} (v : Word) (h : p ≠ o) : (s.wset o v).wget p = s.wget p := by
  unfold State.wget
  rw [State.held_wset, if_neg h]
  simp [State.wcopy, State.wset, tget_tset_ne _ _ _ _ h]

@[simp] theorem State.wcopy_wset (o : Nat) (v : Word) : (s.wset o v).wcopy o = v := by simp [State.wcopy, State.wset]
@[simp] theorem State.wget_rset (o p : Nat) (v : Word) : (s.rset o v).wget p = s.wget p := (rfl)
@[simp] theorem State.rget_wset (o p : Nat) (v : Word) : (s.wset o v).rget p = s.rget p := (rfl)

/-- A bit of a word after a write of a field. -/
theorem getLsbD_bset (v : Word) (b : Bits) (x i : Nat) : (bset v b x).getLsbD i =
    if i < 32 ∧ b.lo ≤ i ∧ i < b.lo + b.w then x.testBit (i - b.lo) else v.getLsbD i := by
  by_cases hi : i < 32
  · have hm : b.mask.testBit i = decide (b.lo ≤ i ∧ i < b.lo + b.w) := by
      simp only [Bits.mask, Nat.testBit_shiftLeft, Nat.testBit_two_pow_sub_one]
      by_cases h1 : b.lo ≤ i <;> simp [h1]
      omega
    have hx : ((x % 2 ^ b.w) <<< b.lo).testBit i = (decide (b.lo ≤ i ∧ i < b.lo + b.w) && x.testBit (i - b.lo)) := by
      simp only [Nat.testBit_shiftLeft, Nat.testBit_mod_two_pow]
      by_cases h1 : b.lo ≤ i <;> simp [h1]
      by_cases h2 : i < b.lo + b.w
      · have : i - b.lo < b.w := by omega
        simp [h2, this]
      · have : ¬ i - b.lo < b.w := by omega
        simp [h2, this]
    simp only [bset, BitVec.getLsbD_or, BitVec.getLsbD_and, BitVec.getLsbD_not, BitVec.getLsbD_ofNat, hi, decide_true,
      Bool.true_and, hm, hx]
    by_cases h : b.lo ≤ i ∧ i < b.lo + b.w <;> simp [h]
  · have h1 : (bset v b x).getLsbD i = false := BitVec.getLsbD_of_ge _ _ (by omega)
    have h2 : v.getLsbD i = false := BitVec.getLsbD_of_ge _ _ (by omega)
    simp [hi, h1, h2]

/-- A bit of a field. -/
theorem testBit_bget (v : Word) (b : Bits) (i : Nat) : (bget v b).testBit i = (decide (i < b.w) && v.getLsbD (b.lo + i)) := by
  simp [bget, Nat.testBit_mod_two_pow, Nat.testBit_shiftRight, BitVec.getLsbD]

/-- A field reads as it was written. -/
theorem bget_bset (v : Word) (b : Bits) (x : Nat) (h : b.lo + b.w ≤ 32) : bget (bset v b x) b = x % 2 ^ b.w := by
  apply Nat.eq_of_testBit_eq
  intro i
  simp only [testBit_bget, getLsbD_bset, Nat.testBit_mod_two_pow]
  by_cases hi : i < b.w
  · have h1 : b.lo + i < 32 := by omega
    simp [hi, h1]
  · simp [hi]

/-- A field reads as before after a write of a field that it does not overlap. -/
theorem bget_bset_ne (v : Word) (b c : Bits) (x : Nat) (h : c.lo + c.w ≤ b.lo ∨ b.lo + b.w ≤ c.lo) :
    bget (bset v b x) c = bget v c := by
  apply Nat.eq_of_testBit_eq
  intro i
  simp only [testBit_bget, getLsbD_bset]
  by_cases hi : i < c.w
  · rw [if_neg (by omega)]
  · simp [hi]

theorem State.fget_fset (o : Nat) (b : Bits) (x : Nat) (h : b.lo + b.w ≤ 32) : (s.fset o b x).fget o b = x % 2 ^ b.w := by
  simp [State.fget, State.fset, bget_bset _ _ _ h]
theorem State.fget_fset_field (o : Nat) (b c : Bits) (x : Nat) (h : c.lo + c.w ≤ b.lo ∨ b.lo + b.w ≤ c.lo) :
    (s.fset o b x).fget o c = s.fget o c := by simp [State.fget, State.fset, bget_bset_ne _ _ _ _ h]
theorem State.fget_fset_reg {o p : Nat} (b c : Bits) (x : Nat) (h : p ≠ o) : (s.fset o b x).fget p c = s.fget p c := by
  simp [State.fget, State.fset, State.rget_rset_ne _ _ h]
@[simp] theorem State.rget_fset (o : Nat) (b : Bits) (x : Nat) : (s.fset o b x).rget o = bset (s.rget o) b x := by simp [State.fset]
theorem State.rget_fset_ne {o p : Nat} (b : Bits) (x : Nat) (h : p ≠ o) : (s.fset o b x).rget p = s.rget p := by
  simp [State.fset, State.rget_rset_ne _ _ h]
theorem State.flag_raise (o : Nat) (b : Bits) (h : b.lo + b.w ≤ 32) (hw : 0 < b.w) : (s.raise o b).flag o b = true := by
  have : (1 : Nat) < 2 ^ b.w := Nat.one_lt_two_pow (by omega)
  simp [State.flag, State.raise, State.fget_fset _ _ _ _ h, Nat.mod_eq_of_lt this]

/-- The registers keep the canonical form under every write. -/
theorem State.rset_canon (o : Nat) (v : Word) (h : twf regReset s.regs = true) : twf regReset (s.rset o v).regs = true :=
  tset_wf regReset o v h

end Sys2Proof.Machine
end

