-- ==== Sys2Proof/Laws/Frame.lean ====
section
/-! SUPPORT. How the two projections of the frame laws go through the forms in which meanings are written. -/
namespace Sys2Proof.Machine

variable {α β : Type}

/-- A change of state that leaves the anchor's core and the queue. -/
def Frames (f : State → State) : Prop := ∀ s, (f s).anchor.core = s.anchor.core ∧ (f s).pending = s.pending

@[simp] theorem core_ite (c : Prop) [Decidable c] (a b : State) :
    (if c then a else b).anchor.core = if c then a.anchor.core else b.anchor.core := by split <;> rfl
@[simp] theorem pending_ite (c : Prop) [Decidable c] (a b : State) :
    (if c then a else b).pending = if c then a.pending else b.pending := by split <;> rfl
@[simp] theorem st_ite (c : Prop) [Decidable c] (a b : MbxRes) : (if c then a else b).st = if c then a.st else b.st := by
  split <;> rfl
@[simp] theorem fst_ite (c : Prop) [Decidable c] (a b : State × β) : (if c then a else b).1 = if c then a.1 else b.1 := by
  split <;> rfl

@[simp] theorem snd_ite (c : Prop) [Decidable c] (a b : β × State) : (if c then a else b).2 = if c then a.2 else b.2 := by
  split <;> rfl
@[simp] theorem taken_ite (c : Prop) [Decidable c] (a b : Taken) : (if c then a else b).st = if c then a.st else b.st := by
  split <;> rfl

theorem State.rset_fr (s : State) (o : Nat) (v : Word) :
    (s.rset o v).anchor.core = s.anchor.core ∧ (s.rset o v).pending = s.pending := by simp

theorem foldl_fr (f : State → α → State) (l : List α) (s : State)
    (h : ∀ s x, (f s x).anchor.core = s.anchor.core ∧ (f s x).pending = s.pending) :
    (l.foldl f s).anchor.core = s.anchor.core ∧ (l.foldl f s).pending = s.pending := by
  induction l generalizing s with
  | nil => exact ⟨rfl, rfl⟩
  | cons x l ih => exact ⟨(ih _).1.trans (h s x).1, (ih _).2.trans (h s x).2⟩

@[simp] theorem foldl_core (f : State → α → State) (l : List α) (s : State)
    (h : ∀ s x, (f s x).anchor.core = s.anchor.core) : (l.foldl f s).anchor.core = s.anchor.core := by
  induction l generalizing s with
  | nil => rfl
  | cons x l ih => exact (ih _).trans (h s x)

@[simp] theorem foldl_pending (f : State → α → State) (l : List α) (s : State)
    (h : ∀ s x, (f s x).pending = s.pending) : (l.foldl f s).pending = s.pending := by
  induction l generalizing s with
  | nil => rfl
  | cons x l ih => exact (ih _).trans (h s x)

@[simp] theorem foldl_core_fst (f : State × β → α → State × β) (l : List α) (p : State × β)
    (h : ∀ p x, (f p x).1.anchor.core = p.1.anchor.core) : (l.foldl f p).1.anchor.core = p.1.anchor.core := by
  induction l generalizing p with
  | nil => rfl
  | cons x l ih => exact (ih _).trans (h p x)

@[simp] theorem foldl_pending_fst (f : State × β → α → State × β) (l : List α) (p : State × β)
    (h : ∀ p x, (f p x).1.pending = p.1.pending) : (l.foldl f p).1.pending = p.1.pending := by
  induction l generalizing p with
  | nil => rfl
  | cons x l ih => exact (ih _).trans (h p x)

@[simp] theorem core_lostlane (a : Anchor) (x : BitVec 25) : ({ a with lostlane := x } : Anchor).core = a.core := (rfl)
@[simp] theorem core_evts (a : Anchor) (x : List (Nat × Nat × BitVec 24)) : ({ a with evts := x } : Anchor).core = a.core := (rfl)
@[simp] theorem core_reqAns (a : Anchor) (x : Option Bool) : ({ a with reqAns := x } : Anchor).core = a.core := (rfl)
@[simp] theorem core_counts (a : Anchor) (w x y z : Nat) :
    ({ a with badbeat := w, missedCnt := x, promCnt := y, discCnt := z } : Anchor).core = a.core := (rfl)

@[simp] theorem core_bustrip (a : Anchor) (x : Bool) : ({ a with bustrip := x } : Anchor).core = a.core := (rfl)
@[simp] theorem core_alive (a : Anchor) (x : BitVec 16) : ({ a with alive := x } : Anchor).core = a.core := (rfl)
@[simp] theorem ancEvent_pending (s : State) (c : Bool) (f : Anchor → Anchor) : (s.ancEvent c f).pending = s.pending := by
  unfold State.ancEvent; split <;> rfl

end Sys2Proof.Machine
end

