-- ==== Sys2Proof/Laws/FrameLinks.lean ====
section
/-! SUPPORT. Frames of registers, rings, field time, tethers and gondolas: what no definition of them touches, the core of the anchor and the queue. -/
namespace Sys2Proof.Machine

open Sys2Proof

set_option linter.unusedTactic false
set_option linter.unreachableTactic false
set_option linter.unusedSimpArgs false
set_option linter.unnecessarySeqFocus false
set_option linter.unusedVariables false

/-! ### Ops -/

@[simp] theorem State.fsetb_fr (s : State) (o : Nat) (b : Bits) (x : Bool) :
    (State.fsetb s o b x).anchor.core = s.anchor.core ∧ (State.fsetb s o b x).pending = s.pending := by
  constructor <;> simp [State.fsetb]

@[simp] theorem State.raise_fr (s : State) (o : Nat) (b : Bits) :
    (State.raise s o b).anchor.core = s.anchor.core ∧ (State.raise s o b).pending = s.pending := by
  constructor <;> simp [State.raise]

@[simp] theorem State.wfset_fr (s : State) (o : Nat) (b : Sh) (x : Nat) :
    (State.wfset s o b x).anchor.core = s.anchor.core ∧ (State.wfset s o b x).pending = s.pending := by
  constructor <;> simp [State.wfset]

@[simp] theorem State.bothSet_fr (s : State) (o : Nat) (b : Sh) (x : Nat) :
    (State.bothSet s o b x).anchor.core = s.anchor.core ∧ (State.bothSet s o b x).pending = s.pending := by
  constructor <;> simp [State.bothSet]

@[simp] theorem State.countN_fr (s : State) (o : Nat) (n : Nat) :
    (State.countN s o n).anchor.core = s.anchor.core ∧ (State.countN s o n).pending = s.pending := by
  constructor <;> simp [State.countN]

@[simp] theorem State.count_fr (s : State) (o : Nat) :
    (State.count s o).anchor.core = s.anchor.core ∧ (State.count s o).pending = s.pending := by
  constructor <;> simp [State.count]

@[simp] theorem State.updPort_fr (s : State) (t : Nat) (f : PortDev → PortDev) :
    (State.updPort s t f).anchor.core = s.anchor.core ∧ (State.updPort s t f).pending = s.pending := by
  constructor <;> simp [State.updPort]

@[simp] theorem State.updGd_fr (s : State) (k : Nat) (f : GonDev → GonDev) :
    (State.updGd s k f).anchor.core = s.anchor.core ∧ (State.updGd s k f).pending = s.pending := by
  constructor <;> simp [State.updGd]

@[simp] theorem State.updGon_fr (s : State) (n : Nat) (f : Gondola → Gondola) :
    (State.updGon s n f).anchor.core = s.anchor.core ∧ (State.updGon s n f).pending = s.pending := by
  constructor <;> simp [State.updGon]

@[simp] theorem State.updAx_fr (s : State) (n : Nat) (f : Axis → Axis) :
    (State.updAx s n f).anchor.core = s.anchor.core ∧ (State.updAx s n f).pending = s.pending := by
  constructor <;> simp [State.updAx]

@[simp] theorem State.updGen_fr (s : State) (n : Nat) (f : Gen → Gen) :
    (State.updGen s n f).anchor.core = s.anchor.core ∧ (State.updGen s n f).pending = s.pending := by
  constructor <;> simp [State.updGen]

@[simp] theorem State.updCe_fr (s : State) (i : Nat) (f : CmpEnt → CmpEnt) :
    (State.updCe s i f).anchor.core = s.anchor.core ∧ (State.updCe s i f).pending = s.pending := by
  constructor <;> simp [State.updCe]

@[simp] theorem State.updBg_fr (s : State) (b : Nat) (f : BusGrp → BusGrp) :
    (State.updBg s b f).anchor.core = s.anchor.core ∧ (State.updBg s b f).pending = s.pending := by
  constructor <;> simp [State.updBg]

@[simp] theorem State.updLn_fr (s : State) (l : Nat) (f : Lane → Lane) :
    (State.updLn s l f).anchor.core = s.anchor.core ∧ (State.updLn s l f).pending = s.pending := by
  constructor <;> simp [State.updLn]

@[simp] theorem State.updSq_fr (s : State) (q : Nat) (f : Sq → Sq) :
    (State.updSq s q f).anchor.core = s.anchor.core ∧ (State.updSq s q f).pending = s.pending := by
  constructor <;> simp [State.updSq]

@[simp] theorem State.updCq_fr (s : State) (q : Nat) (f : Cq → Cq) :
    (State.updCq s q f).anchor.core = s.anchor.core ∧ (State.updCq s q f).pending = s.pending := by
  constructor <;> simp [State.updCq]

@[simp] theorem State.updFout_fr (s : State) (k : Nat) (f : FoutSt → FoutSt) :
    (State.updFout s k f).anchor.core = s.anchor.core ∧ (State.updFout s k f).pending = s.pending := by
  constructor <;> simp [State.updFout]

@[simp] theorem State.hostWrite_fr (s : State) (a : Nat) (bs : List Byte) :
    (State.hostWrite s a bs).anchor.core = s.anchor.core ∧ (State.hostWrite s a bs).pending = s.pending := by
  constructor <;> simp [State.hostWrite]

@[simp] theorem State.sramWrite_fr (s : State) (a : Nat) (bs : List Byte) :
    (State.sramWrite s a bs).anchor.core = s.anchor.core ∧ (State.sramWrite s a bs).pending = s.pending := by
  constructor <;> simp [State.sramWrite]

/-! ### Rings -/

@[simp] theorem State.flogStage_fr (s : State) (r : BitVec 256) :
    (State.flogStage s r).anchor.core = s.anchor.core ∧ (State.flogStage s r).pending = s.pending := by
  constructor <;> simp [State.flogStage]

@[simp] theorem State.flogLose_fr (s : State) (typ : Nat) :
    (State.flogLose s typ).anchor.core = s.anchor.core ∧ (State.flogLose s typ).pending = s.pending := by
  constructor <;> simp [State.flogLose]

@[simp] theorem State.flogAdd_fr (s : State) (typ : Nat) (source : Nat) (ft : FTime) (data : BitVec 128) :
    (State.flogAdd s typ source ft data).anchor.core = s.anchor.core ∧ (State.flogAdd s typ source ft data).pending = s.pending := by
  constructor <;> simp [State.flogAdd]

@[simp] theorem State.flogTrigger_fr (s : State) (cause : Nat) (code : Nat) :
    (State.flogTrigger s cause code).anchor.core = s.anchor.core ∧ (State.flogTrigger s cause code).pending = s.pending := by
  constructor <;> simp [State.flogTrigger]

@[simp] theorem State.sendMsg_fr (s : State) (v : Nat) :
    (State.sendMsg s v).anchor.core = s.anchor.core ∧ (State.sendMsg s v).pending = s.pending := by
  constructor <;> simp [State.sendMsg]

@[simp] theorem State.cqTest_fr (s : State) (q : Nat) :
    (State.cqTest s q).anchor.core = s.anchor.core ∧ (State.cqTest s q).pending = s.pending := by
  constructor <;> simp [State.cqTest]

@[simp] theorem State.cqWrite_fr (s : State) (q : Nat) (e : Cqe) :
    (State.cqWrite s q e).anchor.core = s.anchor.core ∧ (State.cqWrite s q e).pending = s.pending := by
  constructor <;> simp [State.cqWrite]

@[simp] theorem State.cqOffer_fr (s : State) (q : Nat) (e : Cqe) :
    (State.cqOffer s q e).anchor.core = s.anchor.core ∧ (State.cqOffer s q e).pending = s.pending := by
  constructor <;> simp [State.cqOffer]

@[simp] theorem State.produce_fr (s : State) (ring : Option Nat) (e : Cqe) :
    (State.produce s ring e).anchor.core = s.anchor.core ∧ (State.produce s ring e).pending = s.pending := by
  constructor <;> (unfold State.produce; (try dsimp only); (repeat' split) <;> simp_all)

@[simp] theorem State.axEvent_fr (s : State) (n : Nat) (code : Nat) (data : Nat) (ft : FTime) :
    (State.axEvent s n code data ft).anchor.core = s.anchor.core ∧ (State.axEvent s n code data ft).pending = s.pending := by
  constructor <;> simp [State.axEvent]

@[simp] theorem State.tetherEvent_fr (s : State) (t : Nat) (bits : Nat) :
    (State.tetherEvent s t bits).anchor.core = s.anchor.core ∧ (State.tetherEvent s t bits).pending = s.pending := by
  constructor <;> simp [State.tetherEvent]

@[simp] theorem State.devEvent_fr (s : State) (code : Nat) (source : Nat) (data : Nat) :
    (State.devEvent s code source data).anchor.core = s.anchor.core ∧ (State.devEvent s code source data).pending = s.pending := by
  constructor <;> simp [State.devEvent]

@[simp] theorem State.streamEvent_fr (s : State) (code : Nat) (data : Nat) :
    (State.streamEvent s code data).anchor.core = s.anchor.core ∧ (State.streamEvent s code data).pending = s.pending := by
  constructor <;> simp [State.streamEvent]

@[simp] theorem State.fioEvent_fr (s : State) (code : Nat) (source : Nat) (data : Nat) (ft : FTime) :
    (State.fioEvent s code source data ft).anchor.core = s.anchor.core ∧ (State.fioEvent s code source data ft).pending = s.pending := by
  constructor <;> simp [State.fioEvent]

@[simp] theorem State.sqEvent_fr (s : State) (q : Nat) (code : Nat) (data : Nat) :
    (State.sqEvent s q code data).anchor.core = s.anchor.core ∧ (State.sqEvent s q code data).pending = s.pending := by
  constructor <;> simp [State.sqEvent]

@[simp] theorem State.tthEvt_fr (s : State) (t : Nat) (bits : Nat) :
    (State.tthEvt s t bits).anchor.core = s.anchor.core ∧ (State.tthEvt s t bits).pending = s.pending := by
  constructor <;> simp [State.tthEvt]

@[simp] theorem State.complete_fr (s : State) (c : OpenCmd) (status : Nat) (payload : Nat) :
    (State.complete s c status payload).anchor.core = s.anchor.core ∧ (State.complete s c status payload).pending = s.pending := by
  constructor <;> (unfold State.complete; (try dsimp only); (repeat' split) <;> simp_all)

@[simp] theorem State.finish_fr (s : State) (k : Nat) (status : Nat) (payload : Nat) :
    (State.finish s k status payload).anchor.core = s.anchor.core ∧ (State.finish s k status payload).pending = s.pending := by
  constructor <;> (unfold State.finish; (try dsimp only); (repeat' split) <;> simp_all)

@[simp] theorem State.openCmd_fr (s : State) (c : OpenCmd) :
    (State.openCmd s c).1.anchor.core = s.anchor.core ∧ (State.openCmd s c).1.pending = s.pending := by
  constructor <;> simp [State.openCmd]

theorem State.openCmd_eqfr (s : State) (c : OpenCmd) {sa sb} (hq : (State.openCmd s c) = (sa, sb)) :
    sa.anchor.core = s.anchor.core ∧ sa.pending = s.pending := by
  have hp := State.openCmd_fr s c; rw [hq] at hp; exact hp

/-! ### RegPort -/

@[simp] theorem State.deny_fr (s : State) (p : Nat) :
    (State.deny s p).anchor.core = s.anchor.core ∧ (State.deny s p).pending = s.pending := by
  constructor <;> simp [State.deny]

@[simp] theorem State.storeWord_fr (s : State) (r : RegRow) (o : Nat) (v : Word) :
    (State.storeWord s r o v).anchor.core = s.anchor.core ∧ (State.storeWord s r o v).pending = s.pending := by
  constructor <;> simp [State.storeWord]

@[simp] theorem State.portWrite_fr (s : State) (via : RegPath) (o : Nat) (v : Word) (eff : Word → State → State) (h0 : ∀ x0 x1, (eff x0 x1).anchor.core = x1.anchor.core ∧ (eff x0 x1).pending = x1.pending) :
    (State.portWrite s via o v eff).anchor.core = s.anchor.core ∧ (State.portWrite s via o v eff).pending = s.pending := by
  constructor <;> (unfold State.portWrite; (try dsimp only); (repeat' split) <;> simp_all [h0])

@[simp] theorem State.barDrop_fr (s : State) :
    (State.barDrop s).anchor.core = s.anchor.core ∧ (State.barDrop s).pending = s.pending := by
  constructor <;> simp [State.barDrop]

@[simp] theorem State.barWrite_fr (s : State) (whole : Bool) (f : State → State) (h0 : ∀ x0, (f x0).anchor.core = x0.anchor.core ∧ (f x0).pending = x0.pending) :
    (State.barWrite s whole f).anchor.core = s.anchor.core ∧ (State.barWrite s whole f).pending = s.pending := by
  constructor <;> (unfold State.barWrite; (try dsimp only); (repeat' split) <;> simp_all [h0])

@[simp] theorem State.rcRead_fr (s : State) (o : Nat) :
    (State.rcRead s o).anchor.core = s.anchor.core ∧ (State.rcRead s o).pending = s.pending := by
  constructor <;> (unfold State.rcRead; (try dsimp only); (repeat' split) <;> simp_all)

@[simp] theorem mbxRes_fr (st : State) (status : Nat) :
    (mbxRes st status).st.anchor.core = st.anchor.core ∧ (mbxRes st status).st.pending = st.pending := by
  constructor <;> simp [mbxRes]

@[simp] theorem State.mbxData_fr (s : State) (set k : Nat) (ws : List Word) :
    (State.mbxData s set k ws).anchor.core = s.anchor.core ∧ (State.mbxData s set k ws).pending = s.pending := by
  induction ws generalizing s k with
  | nil => exact ⟨rfl, rfl⟩
  | cons w ws ih => exact ⟨(ih _ _).1, (ih _ _).2⟩

@[simp] theorem State.mbxRun_fr (s : State) (via : RegPath) (perform : State → MbxRes) (h0 : ∀ x0, (perform x0).st.anchor.core = x0.anchor.core ∧ (perform x0).st.pending = x0.pending) :
    (State.mbxRun s via perform).st.anchor.core = s.anchor.core ∧ (State.mbxRun s via perform).st.pending = s.pending := by
  constructor <;> (unfold State.mbxRun; (try dsimp only); (repeat' split) <;> simp_all [h0])

@[simp] theorem State.mbxBusy_fr (s : State) (set : Nat) :
    (State.mbxBusy s set).anchor.core = s.anchor.core ∧ (State.mbxBusy s set).pending = s.pending := by
  constructor <;> simp [State.mbxBusy]

@[simp] theorem State.mbxAccept_fr (s : State) (set : Nat) (via : RegPath) (perform : State → MbxRes) (h0 : ∀ x0, (perform x0).st.anchor.core = x0.anchor.core ∧ (perform x0).st.pending = x0.pending) :
    (State.mbxAccept s set via perform).anchor.core = s.anchor.core ∧ (State.mbxAccept s set via perform).pending = s.pending := by
  constructor <;> simp [State.mbxAccept, h0]

@[simp] theorem State.mbxDone_fr (s : State) (set : Nat) (a : MbxAns) :
    (State.mbxDone s set a).anchor.core = s.anchor.core ∧ (State.mbxDone s set a).pending = s.pending := by
  constructor <;> simp [State.mbxDone]

@[simp] theorem State.mbxTick1_fr (s : State) (set : Nat) :
    (State.mbxTick1 s set).anchor.core = s.anchor.core ∧ (State.mbxTick1 s set).pending = s.pending := by
  constructor <;> (unfold State.mbxTick1; (try dsimp only); (repeat' split) <;> simp_all)

@[simp] theorem State.mbxTick_fr (s : State) :
    (State.mbxTick s).anchor.core = s.anchor.core ∧ (State.mbxTick s).pending = s.pending := by
  constructor <;> simp [State.mbxTick]

@[simp] theorem State.mbx_fr (s : State) (set : Nat) (via : RegPath) (code : Nat) (op : Nat) (index : BitVec 14) (ops : List Word) (perform : State → MbxRes) (h0 : ∀ x0, (perform x0).st.anchor.core = x0.anchor.core ∧ (perform x0).st.pending = x0.pending) :
    (State.mbx s set via code op index ops perform).anchor.core = s.anchor.core ∧ (State.mbx s set via code op index ops perform).pending = s.pending := by
  constructor <;> simp [State.mbx, h0]

/-! ### StreamTx -/

@[simp] theorem State.strSet_fr (s : State) (l : Nat) :
    (State.strSet s l).anchor.core = s.anchor.core ∧ (State.strSet s l).pending = s.pending := by
  constructor <;> simp [State.strSet]

@[simp] theorem State.strDown_fr (s : State) :
    (State.strDown s).anchor.core = s.anchor.core ∧ (State.strDown s).pending = s.pending := by
  constructor <;> simp [State.strDown]

@[simp] theorem State.strSend_fr (s : State) (typ : BitVec 8) (payload : List Byte) :
    (State.strSend s typ payload).anchor.core = s.anchor.core ∧ (State.strSend s typ payload).pending = s.pending := by
  constructor <;> simp [State.strSend]

@[simp] theorem State.strFresh_fr (s : State) :
    (State.strFresh s).anchor.core = s.anchor.core ∧ (State.strFresh s).pending = s.pending := by
  constructor <;> simp [State.strFresh]

@[simp] theorem State.strPumpOne_fr (s : State) (k : Nat) (l : List (BitVec 8 × Bool × Word × List Byte)) :
    (State.strPumpOne s k l).anchor.core = s.anchor.core ∧ (State.strPumpOne s k l).pending = s.pending := by
  induction l generalizing s with
  | nil => exact ⟨rfl, rfl⟩
  | cons d l ih => simp only [State.strPumpOne]; split <;> simp [ih]

@[simp] theorem State.strPump_fr (s : State) :
    (State.strPump s).anchor.core = s.anchor.core ∧ (State.strPump s).pending = s.pending := by
  constructor <;> simp [State.strPump]

/-! ### FieldTime -/

theorem execCorePllLock_fr (s : State) : ∃ s', (execCorePllLock s) = .next s' ∧ s'.anchor.core = s.anchor.core ∧ s'.pending = s.pending := by
  unfold execCorePllLock
  (try dsimp only)
  (repeat' split) <;> exact ⟨_, rfl, by simp, by simp⟩

@[simp] theorem mboFtNow_fr (s : State) :
    (mboFtNow s).st.anchor.core = s.anchor.core ∧ (mboFtNow s).st.pending = s.pending := by
  constructor <;> simp [mboFtNow]

@[simp] theorem mboFtStep_fr (offset : BitVec 64) (s : State) :
    (mboFtStep offset s).st.anchor.core = s.anchor.core ∧ (mboFtStep offset s).st.pending = s.pending := by
  constructor <;> simp [mboFtStep]

@[simp] theorem mboFtTsi_fr (index : BitVec 14) (s : State) :
    (mboFtTsi index s).st.anchor.core = s.anchor.core ∧ (mboFtTsi index s).st.pending = s.pending := by
  constructor <;> (unfold mboFtTsi; (try dsimp only); (repeat' split) <;> simp_all)

@[simp] theorem State.txtsPop_fr (s : State) (p : Nat) :
    (State.txtsPop s p).1.anchor.core = s.anchor.core ∧ (State.txtsPop s p).1.pending = s.pending := by
  constructor <;> (unfold State.txtsPop; (try dsimp only); (repeat' split) <;> simp_all)

theorem State.txtsPop_eqfr (s : State) (p : Nat) {sa sb} (hq : (State.txtsPop s p) = (sa, sb)) :
    sa.anchor.core = s.anchor.core ∧ sa.pending = s.pending := by
  have hp := State.txtsPop_fr s p; rw [hq] at hp; exact hp

@[simp] theorem State.txtsPush_fr (s : State) (p : Nat) (frame : BitVec 16) (t : FTime) :
    (State.txtsPush s p frame t).anchor.core = s.anchor.core ∧ (State.txtsPush s p frame t).pending = s.pending := by
  constructor <;> simp [State.txtsPush]

@[simp] theorem mboFtTxts_fr (index : BitVec 14) (s : State) :
    (mboFtTxts index s).st.anchor.core = s.anchor.core ∧ (mboFtTxts index s).st.pending = s.pending := by
  unfold mboFtTxts
  split
  · simp
  · split <;> exact State.txtsPop_eqfr _ _ (by assumption)

@[simp] theorem mboFtTc_fr (index : BitVec 14) (target : BitVec 64) (period : BitVec 64) (s : State) :
    (mboFtTc index target period s).st.anchor.core = s.anchor.core ∧ (mboFtTc index target period s).st.pending = s.pending := by
  constructor <;> simp [mboFtTc]

theorem execFtNow_fr (set : Fin 4) (via : RegPath) (s : State) : ∃ s', (execFtNow set via s) = .next s' ∧ s'.anchor.core = s.anchor.core ∧ s'.pending = s.pending := by
  unfold execFtNow
  (try dsimp only)
  (repeat' split) <;> exact ⟨_, rfl, by simp, by simp⟩

theorem execFtStep_fr (set : Fin 4) (via : RegPath) (offset : BitVec 64) (s : State) : ∃ s', (execFtStep set via offset s) = .next s' ∧ s'.anchor.core = s.anchor.core ∧ s'.pending = s.pending := by
  unfold execFtStep
  (try dsimp only)
  (repeat' split) <;> exact ⟨_, rfl, by simp, by simp⟩

theorem execFtTsi_fr (set : Fin 4) (via : RegPath) (index : BitVec 14) (s : State) : ∃ s', (execFtTsi set via index s) = .next s' ∧ s'.anchor.core = s.anchor.core ∧ s'.pending = s.pending := by
  unfold execFtTsi
  (try dsimp only)
  (repeat' split) <;> exact ⟨_, rfl, by simp, by simp⟩

theorem execFtTxts_fr (set : Fin 4) (via : RegPath) (index : BitVec 14) (s : State) : ∃ s', (execFtTxts set via index s) = .next s' ∧ s'.anchor.core = s.anchor.core ∧ s'.pending = s.pending := by
  unfold execFtTxts
  (try dsimp only)
  (repeat' split) <;> exact ⟨_, rfl, by simp, by simp⟩

theorem execFtTc_fr (set : Fin 4) (via : RegPath) (index : BitVec 14) (target : BitVec 64) (period : BitVec 64) (s : State) : ∃ s', (execFtTc set via index target period s) = .next s' ∧ s'.anchor.core = s.anchor.core ∧ s'.pending = s.pending := by
  unfold execFtTc
  (try dsimp only)
  (repeat' split) <;> exact ⟨_, rfl, by simp, by simp⟩

@[simp] theorem tcCtlWritten_fr (n : Nat) (old : Word) (s : State) :
    (tcCtlWritten n old s).anchor.core = s.anchor.core ∧ (tcCtlWritten n old s).pending = s.pending := by
  constructor <;> simp [tcCtlWritten]

theorem execTcArm_fr (via : RegPath) (n : Fin 8) (v : Word) (s : State) : ∃ s', (execTcArm via n v s) = .next s' ∧ s'.anchor.core = s.anchor.core ∧ s'.pending = s.pending := by
  unfold execTcArm
  (try dsimp only)
  (repeat' split) <;> exact ⟨_, rfl, by simp, by simp⟩

@[simp] theorem State.tcAdvance_fr (s : State) (n : Nat) :
    (State.tcAdvance s n).anchor.core = s.anchor.core ∧ (State.tcAdvance s n).pending = s.pending := by
  constructor <;> simp [State.tcAdvance]

@[simp] theorem State.tcPulse_fr (s : State) (n : Nat) :
    (State.tcPulse s n).anchor.core = s.anchor.core ∧ (State.tcPulse s n).pending = s.pending := by
  constructor <;> simp [State.tcPulse]

@[simp] theorem State.tcPost_fr (s : State) (n : Nat) (target : FTime) :
    (State.tcPost s n target).anchor.core = s.anchor.core ∧ (State.tcPost s n target).pending = s.pending := by
  constructor <;> simp [State.tcPost]

theorem execTcPulseEnd_fr (n : Fin 8) (s : State) : ∃ s', (execTcPulseEnd n s) = .next s' ∧ s'.anchor.core = s.anchor.core ∧ s'.pending = s.pending := by
  unfold execTcPulseEnd
  (try dsimp only)
  (repeat' split) <;> exact ⟨_, rfl, by simp, by simp⟩

@[simp] theorem ftmCtlWritten_fr (s : State) :
    (ftmCtlWritten s).anchor.core = s.anchor.core ∧ (ftmCtlWritten s).pending = s.pending := by
  constructor <;> (unfold ftmCtlWritten; (try dsimp only); (repeat' split) <;> simp_all)

theorem execPpsOutRise_fr (s : State) : ∃ s', (execPpsOutRise s) = .next s' ∧ s'.anchor.core = s.anchor.core ∧ s'.pending = s.pending := by
  unfold execPpsOutRise
  (try dsimp only)
  (repeat' split) <;> exact ⟨_, rfl, by simp, by simp⟩

theorem execPpsOutFall_fr (s : State) : ∃ s', (execPpsOutFall s) = .next s' ∧ s'.anchor.core = s.anchor.core ∧ s'.pending = s.pending := by
  unfold execPpsOutFall
  (try dsimp only)
  (repeat' split) <;> exact ⟨_, rfl, by simp, by simp⟩

/-! ### Operands -/

@[simp] theorem State.cause_fr (s : State) (n : Nat) (c : Cause) :
    (State.cause s n c).anchor.core = s.anchor.core ∧ (State.cause s n c).pending = s.pending := by
  constructor <;> simp [State.cause]

/-! ### Tether -/

@[simp] theorem State.setLink_fr (s : State) (t : Nat) (v : Nat) :
    (State.setLink s t v).anchor.core = s.anchor.core ∧ (State.setLink s t v).pending = s.pending := by
  constructor <;> simp [State.setLink]

@[simp] theorem State.tthStat_fr (s : State) (t : Nat) (b : Bits) (v : Nat) :
    (State.tthStat s t b v).anchor.core = s.anchor.core ∧ (State.tthStat s t b v).pending = s.pending := by
  constructor <;> simp [State.tthStat]

@[simp] theorem State.tthRaise_fr (s : State) (t : Nat) (bit : Nat) :
    (State.tthRaise s t bit).anchor.core = s.anchor.core ∧ (State.tthRaise s t bit).pending = s.pending := by
  constructor <;> simp [State.tthRaise]

@[simp] theorem State.tthCountN_fr (s : State) (t : Nat) (k : Nat) (n : Nat) :
    (State.tthCountN s t k n).anchor.core = s.anchor.core ∧ (State.tthCountN s t k n).pending = s.pending := by
  constructor <;> simp [State.tthCountN]

@[simp] theorem State.setPairMask_fr (s : State) (lo : Nat) (hi : Nat) (v : Nat) :
    (State.setPairMask s lo hi v).anchor.core = s.anchor.core ∧ (State.setPairMask s lo hi v).pending = s.pending := by
  constructor <;> simp [State.setPairMask]

@[simp] theorem State.setPresent_fr (s : State) (t : Nat) (g : Nat) (b : Bool) :
    (State.setPresent s t g b).anchor.core = s.anchor.core ∧ (State.setPresent s t g b).pending = s.pending := by
  constructor <;> simp [State.setPresent]

@[simp] theorem State.setHomed_fr (s : State) (t : Nat) (g : Nat) (b : Bool) :
    (State.setHomed s t g b).anchor.core = s.anchor.core ∧ (State.setHomed s t g b).pending = s.pending := by
  constructor <;> simp [State.setHomed]

@[simp] theorem State.rehome_fr (s : State) (e : Nat) (g : Nat) (odd : Bool) :
    (State.rehome s e g odd).anchor.core = s.anchor.core ∧ (State.rehome s e g odd).pending = s.pending := by
  constructor <;> simp [State.rehome]

theorem execTrn1Complete_fr (e : LinkEnd) (s : State) : ∃ s', (execTrn1Complete e s) = .next s' ∧ s'.anchor.core = s.anchor.core ∧ s'.pending = s.pending := by
  unfold execTrn1Complete
  (try dsimp only)
  (repeat' split) <;> exact ⟨_, rfl, by simp, by simp⟩

@[simp] theorem State.txQueue_fr (s : State) (t : Nat) (f : Frame) :
    (State.txQueue s t f).anchor.core = s.anchor.core ∧ (State.txQueue s t f).pending = s.pending := by
  constructor <;> simp [State.txQueue]

@[simp] theorem State.forget_fr (s : State) (t : Nat) (g : Nat) :
    (State.forget s t g).anchor.core = s.anchor.core ∧ (State.forget s t g).pending = s.pending := by
  constructor <;> simp [State.forget]

@[simp] theorem State.startEnum_fr (s : State) (t : Nat) (attach : Bool) :
    (State.startEnum s t attach).anchor.core = s.anchor.core ∧ (State.startEnum s t attach).pending = s.pending := by
  constructor <;> simp [State.startEnum]

@[simp] theorem State.autoEnum_fr (s : State) (t : Nat) :
    (State.autoEnum s t).anchor.core = s.anchor.core ∧ (State.autoEnum s t).pending = s.pending := by
  constructor <;> simp [State.autoEnum]

@[simp] theorem State.ringClosed_fr (s : State) (e : Nat) (seg : Nat) :
    (State.ringClosed s e seg).anchor.core = s.anchor.core ∧ (State.ringClosed s e seg).pending = s.pending := by
  constructor <;> (unfold State.ringClosed; (try dsimp only); (repeat' split) <;> simp_all)

@[simp] theorem State.portUp_fr (s : State) (t : Nat) :
    (State.portUp s t).anchor.core = s.anchor.core ∧ (State.portUp s t).pending = s.pending := by
  constructor <;> (unfold State.portUp; (try dsimp only); (repeat' split) <;> simp_all)

@[simp] theorem State.ringBranch_fr (s : State) (e : Nat) (g : Nat) (up : Bool) :
    (State.ringBranch s e g up).anchor.core = s.anchor.core ∧ (State.ringBranch s e g up).pending = s.pending := by
  constructor <;> (unfold State.ringBranch; (try dsimp only); (repeat' split) <;> simp_all)

theorem execTrn2Complete_fr (e : LinkEnd) (role : BitVec 8) (cap : BitVec 8) (s : State) : ∃ s', (execTrn2Complete e role cap s) = .next s' ∧ s'.anchor.core = s.anchor.core ∧ s'.pending = s.pending := by
  unfold execTrn2Complete
  (try dsimp only)
  (repeat' split) <;> exact ⟨_, rfl, by simp, by simp⟩

theorem execTrainingTimeout_fr (e : LinkEnd) (s : State) : ∃ s', (execTrainingTimeout e s) = .next s' ∧ s'.anchor.core = s.anchor.core ∧ s'.pending = s.pending := by
  unfold execTrainingTimeout
  (try dsimp only)
  (repeat' split) <;> exact ⟨_, rfl, by simp, by simp⟩

@[simp] theorem State.portDown_fr (s : State) (t : Nat) (to_ : Nat) :
    (State.portDown s t to_).anchor.core = s.anchor.core ∧ (State.portDown s t to_).pending = s.pending := by
  constructor <;> (unfold State.portDown; (try dsimp only); (repeat' split) <;> simp_all)

@[simp] theorem tthCtlWritten_fr (t : Nat) (v : Word) (old : Word) (s : State) :
    (tthCtlWritten t v old s).anchor.core = s.anchor.core ∧ (tthCtlWritten t v old s).pending = s.pending := by
  constructor <;> simp [tthCtlWritten]

theorem execPortEnable_fr (via : RegPath) (t : Fin 25) (v : Word) (s : State) : ∃ s', (execPortEnable via t v s) = .next s' ∧ s'.anchor.core = s.anchor.core ∧ s'.pending = s.pending := by
  unfold execPortEnable
  (try dsimp only)
  (repeat' split) <;> exact ⟨_, rfl, by simp, by simp⟩

theorem execRetrain_fr (via : RegPath) (t : Fin 25) (v : Word) (s : State) : ∃ s', (execRetrain via t v s) = .next s' ∧ s'.anchor.core = s.anchor.core ∧ s'.pending = s.pending := by
  unfold execRetrain
  (try dsimp only)
  (repeat' split) <;> exact ⟨_, rfl, by simp, by simp⟩

@[simp] theorem tthEnumWritten_fr (t : Nat) (v : Word) (s : State) :
    (tthEnumWritten t v s).anchor.core = s.anchor.core ∧ (tthEnumWritten t v s).pending = s.pending := by
  constructor <;> simp [tthEnumWritten]

theorem execEnumStart_fr (via : RegPath) (t : Fin 25) (v : Word) (s : State) : ∃ s', (execEnumStart via t v s) = .next s' ∧ s'.anchor.core = s.anchor.core ∧ s'.pending = s.pending := by
  unfold execEnumStart
  (try dsimp only)
  (repeat' split) <;> exact ⟨_, rfl, by simp, by simp⟩

theorem execEnumAttach_fr (via : RegPath) (t : Fin 25) (v : Word) (s : State) : ∃ s', (execEnumAttach via t v s) = .next s' ∧ s'.anchor.core = s.anchor.core ∧ s'.pending = s.pending := by
  unfold execEnumAttach
  (try dsimp only)
  (repeat' split) <;> exact ⟨_, rfl, by simp, by simp⟩

@[simp] theorem State.checkAxes_fr (s : State) (t : Nat) :
    (State.checkAxes s t).anchor.core = s.anchor.core ∧ (State.checkAxes s t).pending = s.pending := by
  constructor <;> simp [State.checkAxes]

@[simp] theorem State.homeRing_fr (s : State) (e : Nat) :
    (State.homeRing s e).anchor.core = s.anchor.core ∧ (State.homeRing s e).pending = s.pending := by
  constructor <;> (unfold State.homeRing; (try dsimp only); (repeat' split) <;> simp_all)

@[simp] theorem State.enumEnd_fr (s : State) (e : Nat) (ovr : Bool) :
    (State.enumEnd s e ovr).anchor.core = s.anchor.core ∧ (State.enumEnd s e ovr).pending = s.pending := by
  constructor <;> simp [State.enumEnd]

@[simp] theorem State.rxCheck_fr (s : State) (t : Nat) (q : RxQual) (f : Frame) (nonTick : Bool) :
    (State.rxCheck s t q f nonTick).1.anchor.core = s.anchor.core ∧ (State.rxCheck s t q f nonTick).1.pending = s.pending := by
  constructor <;> (unfold State.rxCheck; (try dsimp only); (repeat' split) <;> simp_all)

theorem State.rxCheck_eqfr (s : State) (t : Nat) (q : RxQual) (f : Frame) (nonTick : Bool) {sa sb} (hq : (State.rxCheck s t q f nonTick) = (sa, sb)) :
    sa.anchor.core = s.anchor.core ∧ sa.pending = s.pending := by
  have hp := State.rxCheck_fr s t q f nonTick; rw [hq] at hp; exact hp

@[simp] theorem State.rx_fr (s : State) (t : Nat) (q : RxQual) (fr : Frame) (f : State → State) (h0 : ∀ x0, (f x0).anchor.core = x0.anchor.core ∧ (f x0).pending = x0.pending) :
    (State.rx s t q fr f).anchor.core = s.anchor.core ∧ (State.rx s t q fr f).pending = s.pending := by
  unfold State.rx
  split
  · split
    · rename_i hq
      have hq2 := State.rxCheck_eqfr _ _ _ _ _ hq
      exact ⟨(h0 _).1.trans hq2.1, (h0 _).2.trans hq2.2⟩
    · rename_i hq
      exact State.rxCheck_eqfr _ _ _ _ _ hq
  · exact ⟨rfl, rfl⟩

theorem execEnumDone_fr (t : Fin 25) (next : BitVec 8) (ovr : Bool) (epoch : BitVec 8) (endMm : Nat) (q : RxQual) (s : State) : ∃ s', (execEnumDone t next ovr epoch endMm q s) = .next s' ∧ s'.anchor.core = s.anchor.core ∧ s'.pending = s.pending := by
  refine ⟨_, rfl, State.rx_fr _ _ _ _ _ ?_⟩
  intro x
  dsimp only
  (repeat' split) <;> simp

@[simp] theorem State.cfgReq_fr (s : State) (t : Nat) (g : Nat) (write : Bool) (addr : Nat) (count : Nat) (data : List Word) :
    (State.cfgReq s t g write addr count data).anchor.core = s.anchor.core ∧ (State.cfgReq s t g write addr count data).pending = s.pending := by
  constructor <;> simp [State.cfgReq]

@[simp] theorem State.readDescs_fr (s : State) (t : Nat) (g : Nat) :
    (State.readDescs s t g).anchor.core = s.anchor.core ∧ (State.readDescs s t g).pending = s.pending := by
  constructor <;> simp [State.readDescs]

theorem execDlyReqReceive_fr (t : Fin 25) (t1 : FTime) (q : RxQual) (s : State) : ∃ s', (execDlyReqReceive t t1 q s) = .next s' ∧ s'.anchor.core = s.anchor.core ∧ s'.pending = s.pending := by
  unfold execDlyReqReceive
  (try dsimp only)
  (repeat' split) <;> exact ⟨_, rfl, by simp, by simp⟩

@[simp] theorem State.portsReported_fr (s : State) (t : Nat) (g : Nat) (thru : Bool) (branch : Bool) :
    (State.portsReported s t g thru branch).anchor.core = s.anchor.core ∧ (State.portsReported s t g thru branch).pending = s.pending := by
  constructor <;> (unfold State.portsReported; (try dsimp only); (repeat' split) <;> simp_all)

@[simp] theorem State.cfgAnswer_fr (s : State) (t : Nat) (g : Nat) (r : CfgReq) (status : Nat) (data : List Byte) :
    (State.cfgAnswer s t g r status data).anchor.core = s.anchor.core ∧ (State.cfgAnswer s t g r status data).pending = s.pending := by
  constructor <;> simp [State.cfgAnswer]

theorem execCfgRspReceive_fr (t : Fin 25) (pos : Fin 64) (tag : BitVec 8) (status : BitVec 16) (data : List Byte) (q : RxQual) (s : State) :
    ∃ s', execCfgRspReceive t pos tag status data q s = .next s' ∧ s'.anchor.core = s.anchor.core ∧ s'.pending = s.pending := by
  refine ⟨_, rfl, State.rx_fr _ _ _ _ _ ?_⟩
  intro x
  dsimp only
  (repeat' split) <;> simp

@[simp] theorem State.returnCredits_fr (s : State) (t : Nat) (g : Nat) (n : Nat) :
    (State.returnCredits s t g n).1.anchor.core = s.anchor.core ∧ (State.returnCredits s t g n).1.pending = s.pending := by
  constructor <;> (unfold State.returnCredits; (try dsimp only); (repeat' split) <;> simp_all)

theorem State.returnCredits_eqfr (s : State) (t : Nat) (g : Nat) (n : Nat) {sa sb} (hq : (State.returnCredits s t g n) = (sa, sb)) :
    sa.anchor.core = s.anchor.core ∧ sa.pending = s.pending := by
  have hp := State.returnCredits_fr s t g n; rw [hq] at hp; exact hp

theorem execCreditReceive_fr (t : Fin 25) (pos : Fin 64) (count : BitVec 4) (q : RxQual) (s : State) : ∃ s', (execCreditReceive t pos count q s) = .next s' ∧ s'.anchor.core = s.anchor.core ∧ s'.pending = s.pending := by
  refine ⟨_, rfl, State.rx_fr _ _ _ _ _ ?_⟩
  intro x
  simp

theorem execRingBreak_fr (t : Fin 25) (seg : BitVec 8) (s : State) : ∃ s', (execRingBreak t seg s) = .next s' ∧ s'.anchor.core = s.anchor.core ∧ s'.pending = s.pending := by
  unfold execRingBreak
  (try dsimp only)
  (repeat' split) <;> exact ⟨_, rfl, by simp, by simp⟩

theorem execTimeDistribution_fr (s : State) : ∃ s', (execTimeDistribution s) = .next s' ∧ s'.anchor.core = s.anchor.core ∧ s'.pending = s.pending := by
  unfold execTimeDistribution
  (try dsimp only)
  (repeat' split) <;> exact ⟨_, rfl, by simp, by simp⟩

@[simp] theorem State.tickDnStart_fr (s : State) (t : Nat) :
    (State.tickDnStart s t).anchor.core = s.anchor.core ∧ (State.tickDnStart s t).pending = s.pending := by
  constructor <;> (unfold State.tickDnStart; (try dsimp only); (repeat' split) <;> simp_all)

/-! ### Legs -/

@[simp] theorem State.gcount_fr (s : State) (n : Nat) (k : Nat) :
    (State.gcount s n k).anchor.core = s.anchor.core ∧ (State.gcount s n k).pending = s.pending := by
  constructor <;> simp [State.gcount]

@[simp] theorem State.legPut_fr (s : State) (n : Nat) (c : Nat) (k : Nat) (t : FTime) (v : BitVec 2) :
    (State.legPut s n c k t v).anchor.core = s.anchor.core ∧ (State.legPut s n c k t v).pending = s.pending := by
  constructor <;> simp [State.legPut]

@[simp] theorem State.legCmd_fr (s : State) (n : Nat) (c : Nat) (k : Nat) (t : FTime) (v : BitVec 2) :
    (State.legCmd s n c k t v).anchor.core = s.anchor.core ∧ (State.legCmd s n c k t v).pending = s.pending := by
  constructor <;> simp [State.legCmd]

@[simp] theorem State.legsCancel_fr (s : State) (n : Nat) (c : Nat) (t : FTime) :
    (State.legsCancel s n c t).anchor.core = s.anchor.core ∧ (State.legsCancel s n c t).pending = s.pending := by
  constructor <;> simp [State.legsCancel]

@[simp] theorem State.legsCmd_fr (s : State) (n : Nat) (c : Nat) (t : FTime) (f : Nat → BitVec 2) :
    (State.legsCmd s n c t f).anchor.core = s.anchor.core ∧ (State.legsCmd s n c t f).pending = s.pending := by
  constructor <;> simp [State.legsCmd]

@[simp] theorem State.overCh_fr (s : State) (n : Nat) (c : Nat) (t : FTime) :
    (State.overCh s n c t).anchor.core = s.anchor.core ∧ (State.overCh s n c t).pending = s.pending := by
  unfold State.overCh
  extract_lets ks s1
  have h1 : s1.anchor.core = s.anchor.core ∧ s1.pending = s.pending := by simp [s1]
  rw [← h1.1, ← h1.2]
  exact foldl_fr _ _ _ (fun u x => by
    split
    · split <;> simp
    · exact ⟨rfl, rfl⟩)

@[simp] theorem State.showLeg_fr (s : State) (t : FTime) (n : Nat) (c : Nat) (k : Nat) (o : Nat) (b : Bits) (w1 : Bool) :
    (State.showLeg s t n c k o b w1).anchor.core = s.anchor.core ∧ (State.showLeg s t n c k o b w1).pending = s.pending := by
  constructor <;> (unfold State.showLeg; (try dsimp only); (repeat' split) <;> simp_all)

@[simp] theorem State.showCh_fr (t : FTime) (s : State) (c : Nat) :
    (State.showCh t s c).anchor.core = s.anchor.core ∧ (State.showCh t s c).pending = s.pending := by
  constructor <;> (unfold State.showCh; (try dsimp only); (repeat' split) <;> simp_all)

@[simp] theorem State.showSpare_fr (s : State) (l : Nat) :
    (State.showSpare s l).anchor.core = s.anchor.core ∧ (State.showSpare s l).pending = s.pending := by
  constructor <;> (unfold State.showSpare; (try dsimp only); (repeat' split) <;> simp_all)

@[simp] theorem State.homeView_fr (s : State) (t : FTime) :
    (State.homeView s t).anchor.core = s.anchor.core ∧ (State.homeView s t).pending = s.pending := by
  unfold State.homeView
  have h1 := fun s => foldl_fr (fun s j => State.rset s (rPGN_LEGST j) 0) (List.range 3) s (fun s x => State.rset_fr s _ _)
  have h2 := fun s => foldl_fr (State.showCh t) (List.range 16) s (State.showCh_fr t)
  have h3 := fun s => foldl_fr State.showSpare (List.range 48) s State.showSpare_fr
  have h4 := fun s => foldl_fr (fun s c => State.showLeg s t homeBal c 0 rPGN_HSTAT ⟨24 + c, 1⟩ true) (List.range 2) s
    (fun s x => State.showLeg_fr ..)
  exact ⟨by rw [(h4 _).1, (h3 _).1, (h2 _).1, (h1 _).1], by rw [(h4 _).2, (h3 _).2, (h2 _).2, (h1 _).2]⟩

@[simp] theorem State.gview_fr (s : State) (n : Nat) (t : FTime) :
    (State.gview s n t).anchor.core = s.anchor.core ∧ (State.gview s n t).pending = s.pending := by
  constructor <;> simp [State.gview]

@[simp] theorem State.overAll_fr (s : State) (n : Nat) (t : FTime) :
    (State.overAll s n t).anchor.core = s.anchor.core ∧ (State.overAll s n t).pending = s.pending := by
  constructor <;> simp [State.overAll]

/-! ### Carrier -/

@[simp] theorem State.onWin_fr (s : State) (n : Nat) (c : Nat) (f : PulseWin → State → State) (h0 : ∀ x0 x1, (f x0 x1).anchor.core = x1.anchor.core ∧ (f x0 x1).pending = x1.pending) :
    (State.onWin s n c f).anchor.core = s.anchor.core ∧ (State.onWin s n c f).pending = s.pending := by
  constructor <;> (unfold State.onWin; (try dsimp only); (repeat' split) <;> simp_all [h0])

@[simp] theorem State.placeSamples_fr (s : State) (n : Nat) (c : Nat) (p : BitVec 128) (base : Nat) (len : Int) (onE0 : Int) :
    (State.placeSamples s n c p base len onE0).anchor.core = s.anchor.core ∧ (State.placeSamples s n c p base len onE0).pending = s.pending := by
  constructor <;> simp [State.placeSamples]

@[simp] theorem State.beginPeriod_fr (s : State) (n : Nat) (c : Nat) (p : BitVec 128) (base : Nat) (j : Nat) (carry : List Int) :
    (State.beginPeriod s n c p base j carry).anchor.core = s.anchor.core ∧ (State.beginPeriod s n c p base j carry).pending = s.pending := by
  constructor <;> simp [State.beginPeriod]

@[simp] theorem State.endPeriod_fr (s : State) (n : Nat) (c : Nat) (k : Carrier) :
    (State.endPeriod s n c k).1.anchor.core = s.anchor.core ∧ (State.endPeriod s n c k).1.pending = s.pending := by
  constructor <;> simp [State.endPeriod]

theorem State.endPeriod_eqfr (s : State) (n : Nat) (c : Nat) (k : Carrier) {sa sb} (hq : (State.endPeriod s n c k) = (sa, sb)) :
    sa.anchor.core = s.anchor.core ∧ sa.pending = s.pending := by
  have hp := State.endPeriod_fr s n c k; rw [hq] at hp; exact hp

@[simp] theorem State.shadowWrite_fr (s : State) (n : Nat) (c : Nat) (p : BitVec 128) (t : FTime) (tick : BitVec 8) :
    (State.shadowWrite s n c p t tick).anchor.core = s.anchor.core ∧ (State.shadowWrite s n c p t tick).pending = s.pending := by
  constructor <;> simp [State.shadowWrite]

@[simp] theorem State.shadowTake_fr (s : State) (n : Nat) (c : Nat) :
    (State.shadowTake s n c).anchor.core = s.anchor.core ∧ (State.shadowTake s n c).pending = s.pending := by
  constructor <;> simp [State.shadowTake]

@[simp] theorem State.reshape_fr (s : State) (n : Nat) (c : Nat) (k : Carrier) (p : BitVec 128) (r : FTime) :
    (State.reshape s n c k p r).anchor.core = s.anchor.core ∧ (State.reshape s n c k p r).pending = s.pending := by
  constructor <;> simp [State.reshape]

theorem execCarrierReload_fr (n : Nat) (c : Fin 16) (now : FTime) (s : State) : ∃ s', (execCarrierReload n c now s) = .next s' ∧ s'.anchor.core = s.anchor.core ∧ s'.pending = s.pending := by
  unfold execCarrierReload
  (try dsimp only)
  (repeat' split) <;> exact ⟨_, rfl, by simp, by simp⟩

theorem execCarrierEdge_fr (n : Nat) (c : Fin 16) (leg : Fin 4) (off : Bool) (now : FTime) (s : State) : ∃ s', (execCarrierEdge n c leg off now s) = .next s' ∧ s'.anchor.core = s.anchor.core ∧ s'.pending = s.pending := by
  unfold execCarrierEdge
  (try dsimp only)
  (repeat' split) <;> exact ⟨_, rfl, by simp, by simp⟩

theorem execCarrierStart_fr (n : Nat) (c : Fin 16) (now : FTime) (s : State) : ∃ s', (execCarrierStart n c now s) = .next s' ∧ s'.anchor.core = s.anchor.core ∧ s'.pending = s.pending := by
  unfold execCarrierStart
  (try dsimp only)
  (repeat' split) <;> exact ⟨_, rfl, by simp, by simp⟩

/-! ### Gondola -/

@[simp] theorem State.gfwd_fr (s : State) (n : Nat) (p : GPort) (f : Frame) :
    (State.gfwd s n p f).anchor.core = s.anchor.core ∧ (State.gfwd s n p f).pending = s.pending := by
  constructor <;> simp [State.gfwd]

@[simp] theorem State.gsend_fr (s : State) (n : Nat) (f : Frame) :
    (State.gsend s n f).anchor.core = s.anchor.core ∧ (State.gsend s n f).pending = s.pending := by
  constructor <;> simp [State.gsend]

theorem execLinkLoss_fr (e : LinkEnd) (cv : Nat) (now : FTime) (s : State) : ∃ s', (execLinkLoss e cv now s) = .next s' ∧ s'.anchor.core = s.anchor.core ∧ s'.pending = s.pending := by
  unfold execLinkLoss
  (try dsimp only)
  (repeat' split) <;> exact ⟨_, rfl, by simp, by simp⟩

@[simp] theorem State.applyRec_fr (s : State) (n : Nat) (c : Nat) (r : BitVec 128) (at_ : FTime) (tk : FTime) (tick : BitVec 8) :
    (State.applyRec s n c r at_ tk tick).anchor.core = s.anchor.core ∧ (State.applyRec s n c r at_ tk tick).pending = s.pending := by
  constructor <;> simp [State.applyRec]

theorem execGondolaTickDnReceive_fr (node : Nat) (addr : Fin 2) (arrival : FTime) (crc : Word) (cv : Nat) (seq : BitVec 8) (fixed : BitVec 80) (recs : List (BitVec 128)) (s : State) : ∃ s', (execGondolaTickDnReceive node addr arrival crc cv seq fixed recs s) = .next s' ∧ s'.anchor.core = s.anchor.core ∧ s'.pending = s.pending := by
  unfold execGondolaTickDnReceive
  extract_lets n b at0 f s0 k tk at_ s1 s2
  have h0 : s0.anchor.core = s.anchor.core ∧ s0.pending = s.pending := by simp [s0]
  have h1 : s1.anchor.core = s.anchor.core ∧ s1.pending = s.pending := by simp [s1, h0]
  have h2 : s2.anchor.core = s.anchor.core ∧ s2.pending = s.pending := by simp [s2, h1]
  (repeat' split) <;> exact ⟨_, rfl, by simp [h0, h2], by simp [h0, h2]⟩

theorem execVectorChange_fr (node : Nat) (c : Fin 16) (second : Bool) (now : FTime) (s : State) : ∃ s', (execVectorChange node c second now s) = .next s' ∧ s'.anchor.core = s.anchor.core ∧ s'.pending = s.pending := by
  unfold execVectorChange
  (try dsimp only)
  (repeat' split) <;> exact ⟨_, rfl, by simp, by simp⟩

@[simp] theorem State.takeCount_fr (s : State) (n : Nat) (c : Nat) (t : FTime) (ssi : Option Word) :
    (State.takeCount s n c t ssi).anchor.core = s.anchor.core ∧ (State.takeCount s n c t ssi).pending = s.pending := by
  constructor <;> simp [State.takeCount]

theorem execSampleInstant_fr (node : Nat) (c : Fin 16) (second : Bool) (now : FTime) (ia : BitVec 24) (ib : BitVec 24) (ssi : Option Word) (s : State) : ∃ s', (execSampleInstant node c second now ia ib ssi s) = .next s' ∧ s'.anchor.core = s.anchor.core ∧ s'.pending = s.pending := by
  unfold execSampleInstant
  (try dsimp only)
  (repeat' split) <;> exact ⟨_, rfl, by simp, by simp⟩

theorem execGondolaTickUpSend_fr (node : Nat) (addr : Fin 2) (now : FTime) (vbus : BitVec 16) (temp : BitVec 8) (s : State) : ∃ s', (execGondolaTickUpSend node addr now vbus temp s) = .next s' ∧ s'.anchor.core = s.anchor.core ∧ s'.pending = s.pending := by
  unfold execGondolaTickUpSend
  (try dsimp only)
  (repeat' split) <;> exact ⟨_, rfl, by simp, by simp⟩

@[simp] theorem State.missAction_fr (s : State) (n : Nat) (c : Nat) (t : FTime) :
    (State.missAction s n c t).anchor.core = s.anchor.core ∧ (State.missAction s n c t).pending = s.pending := by
  constructor <;> (unfold State.missAction; (try dsimp only); (repeat' split) <;> simp_all)

theorem execTickDnDeadline_fr (node : Nat) (now : FTime) (s : State) : ∃ s', (execTickDnDeadline node now s) = .next s' ∧ s'.anchor.core = s.anchor.core ∧ s'.pending = s.pending := by
  unfold execTickDnDeadline
  (try dsimp only)
  (repeat' split) <;> exact ⟨_, rfl, by simp, by simp⟩

@[simp] theorem State.silence_fr (s : State) (n : Nat) (now : FTime) :
    (State.silence s n now).anchor.core = s.anchor.core ∧ (State.silence s n now).pending = s.pending := by
  constructor <;> simp [State.silence]

theorem execStreamSilence_fr (node : Nat) (now : FTime) (s : State) : ∃ s', (execStreamSilence node now s) = .next s' ∧ s'.anchor.core = s.anchor.core ∧ s'.pending = s.pending := by
  unfold execStreamSilence
  (try dsimp only)
  (repeat' split) <;> exact ⟨_, rfl, by simp, by simp⟩

@[simp] theorem State.cfgRsp_fr (s : State) (n : Nat) (tag : BitVec 8) (status : Nat) (data : List Byte) :
    (State.cfgRsp s n tag status data).anchor.core = s.anchor.core ∧ (State.cfgRsp s n tag status data).pending = s.pending := by
  constructor <;> simp [State.cfgRsp]

@[simp] theorem State.clrLatch_fr (s : State) (i : Nat) :
    (State.clrLatch s i).anchor.core = s.anchor.core ∧ (State.clrLatch s i).pending = s.pending := by
  constructor <;> simp [State.clrLatch]

@[simp] theorem State.releaseCh_fr (s : State) (n : Nat) (c : Nat) (active : Nat) :
    (State.releaseCh s n c active).anchor.core = s.anchor.core ∧ (State.releaseCh s n c active).pending = s.pending := by
  constructor <;> simp [State.releaseCh]

@[simp] theorem State.clrForce_fr (s : State) (n : Nat) (chans : Nat) (active : Nat) :
    (State.clrForce s n chans active).1.anchor.core = s.anchor.core ∧ (State.clrForce s n chans active).1.pending = s.pending := by
  constructor <;> simp [State.clrForce]

theorem State.clrForce_eqfr (s : State) (n : Nat) (chans : Nat) (active : Nat) {sa sb} (hq : (State.clrForce s n chans active) = (sa, sb)) :
    sa.anchor.core = s.anchor.core ∧ sa.pending = s.pending := by
  have hp := State.clrForce_fr s n chans active; rw [hq] at hp; exact hp

@[simp] theorem State.clrSil_fr (s : State) (n : Nat) :
    (State.clrSil s n).anchor.core = s.anchor.core ∧ (State.clrSil s n).pending = s.pending := by
  constructor <;> simp [State.clrSil]

@[simp] theorem State.clrRip_fr (s : State) (n : Nat) :
    (State.clrRip s n).1.anchor.core = s.anchor.core ∧ (State.clrRip s n).1.pending = s.pending := by
  constructor <;> simp [State.clrRip]

theorem State.clrRip_eqfr (s : State) (n : Nat) {sa sb} (hq : (State.clrRip s n) = (sa, sb)) :
    sa.anchor.core = s.anchor.core ∧ sa.pending = s.pending := by
  have hp := State.clrRip_fr s n; rw [hq] at hp; exact hp

@[simp] theorem State.clrCnt_fr (s : State) (n : Nat) :
    (State.clrCnt s n).anchor.core = s.anchor.core ∧ (State.clrCnt s n).pending = s.pending := by
  constructor <;> simp [State.clrCnt]

@[simp] theorem State.gclr_fr (s : State) (n : Nat) (v : Word) (active : Nat) :
    (State.gclr s n v active).1.anchor.core = s.anchor.core ∧ (State.gclr s n v active).1.pending = s.pending := by
  constructor <;> (unfold State.gclr; (try dsimp only); (repeat' split) <;> simp_all)

theorem State.gclr_eqfr (s : State) (n : Nat) (v : Word) (active : Nat) {sa sb} (hq : (State.gclr s n v active) = (sa, sb)) :
    sa.anchor.core = s.anchor.core ∧ sa.pending = s.pending := by
  have hp := State.gclr_fr s n v active; rw [hq] at hp; exact hp

@[simp] theorem State.gwrite_fr (s : State) (n : Nat) (a : Nat) (v : Word) (active : Nat) (now : FTime) :
    (State.gwrite s n a v active now).1.anchor.core = s.anchor.core ∧ (State.gwrite s n a v active now).1.pending = s.pending := by
  constructor <;> (unfold State.gwrite; (try dsimp only); (repeat' split) <;> simp_all)

theorem State.gwrite_eqfr (s : State) (n : Nat) (a : Nat) (v : Word) (active : Nat) (now : FTime) {sa sb} (hq : (State.gwrite s n a v active now) = (sa, sb)) :
    sa.anchor.core = s.anchor.core ∧ sa.pending = s.pending := by
  have hp := State.gwrite_fr s n a v active now; rw [hq] at hp; exact hp

theorem execGondolaCfgWr_fr (node : Nat) (broadcast : Bool) (tag : BitVec 8) (addr : Word) (data : List Word) (active : BitVec 16) (now : FTime) (s : State) : ∃ s', (execGondolaCfgWr node broadcast tag addr data active now s) = .next s' ∧ s'.anchor.core = s.anchor.core ∧ s'.pending = s.pending := by
  unfold execGondolaCfgWr
  (try dsimp only)
  (repeat' split) <;> exact ⟨_, rfl, by simp, by simp⟩

theorem execGondolaCfgRd_fr (node : Nat) (tag : BitVec 8) (addr : Word) (count : BitVec 16) (s : State) : ∃ s', (execGondolaCfgRd node tag addr count s) = .next s' ∧ s'.anchor.core = s.anchor.core ∧ s'.pending = s.pending := by
  unfold execGondolaCfgRd
  (try dsimp only)
  (repeat' split) <;> exact ⟨_, rfl, by simp, by simp⟩

theorem execStagedActivation_fr (node : Nat) (now : FTime) (s : State) : ∃ s', (execStagedActivation node now s) = .next s' ∧ s'.anchor.core = s.anchor.core ∧ s'.pending = s.pending := by
  unfold execStagedActivation
  (try dsimp only)
  (repeat' split) <;> exact ⟨_, rfl, by simp, by simp⟩

@[simp] theorem State.clrAnswer_fr (s : State) (n : Nat) (broadcast : Bool) (tag : BitVec 8) (status : Nat) :
    (State.clrAnswer s n broadcast tag status).anchor.core = s.anchor.core ∧ (State.clrAnswer s n broadcast tag status).pending = s.pending := by
  constructor <;> simp [State.clrAnswer]

theorem execGClrForce_fr (node : Nat) (broadcast : Bool) (tag : BitVec 8) (chans : BitVec 16) (active : BitVec 16) (now : FTime) (s : State) : ∃ s', (execGClrForce node broadcast tag chans active now s) = .next s' ∧ s'.anchor.core = s.anchor.core ∧ s'.pending = s.pending := by
  unfold execGClrForce
  (try dsimp only)
  (repeat' split) <;> exact ⟨_, rfl, by simp, by simp⟩

theorem execGClrSil_fr (node : Nat) (broadcast : Bool) (tag : BitVec 8) (s : State) : ∃ s', (execGClrSil node broadcast tag s) = .next s' ∧ s'.anchor.core = s.anchor.core ∧ s'.pending = s.pending := by
  unfold execGClrSil
  (try dsimp only)
  (repeat' split) <;> exact ⟨_, rfl, by simp, by simp⟩

theorem execGClrRip_fr (node : Nat) (broadcast : Bool) (tag : BitVec 8) (s : State) : ∃ s', (execGClrRip node broadcast tag s) = .next s' ∧ s'.anchor.core = s.anchor.core ∧ s'.pending = s.pending := by
  unfold execGClrRip
  (try dsimp only)
  (repeat' split) <;> exact ⟨_, rfl, by simp, by simp⟩

theorem execGClrCnt_fr (node : Nat) (broadcast : Bool) (tag : BitVec 8) (s : State) : ∃ s', (execGClrCnt node broadcast tag s) = .next s' ∧ s'.anchor.core = s.anchor.core ∧ s'.pending = s.pending := by
  unfold execGClrCnt
  (try dsimp only)
  (repeat' split) <;> exact ⟨_, rfl, by simp, by simp⟩

theorem execFaultForcing_fr (node : Nat) (c : Fin 16) (now : FTime) (s : State) : ∃ s', (execFaultForcing node c now s) = .next s' ∧ s'.anchor.core = s.anchor.core ∧ s'.pending = s.pending := by
  unfold execFaultForcing
  (try dsimp only)
  (repeat' split) <;> exact ⟨_, rfl, by simp, by simp⟩

theorem execGondolaEventAccept_fr (node : Nat) (exec : FTime) (out : BitVec 8) (act : BitVec 8) (pw : BitVec 16) (id : Word) (now : FTime) (s : State) : ∃ s', (execGondolaEventAccept node exec out act pw id now s) = .next s' ∧ s'.anchor.core = s.anchor.core ∧ s'.pending = s.pending := by
  unfold execGondolaEventAccept
  (try dsimp only)
  (repeat' split) <;> exact ⟨_, rfl, by simp, by simp⟩

theorem execEventExecute_fr (node : Nat) (now : FTime) (s : State) : ∃ s', (execEventExecute node now s) = .next s' ∧ s'.anchor.core = s.anchor.core ∧ s'.pending = s.pending := by
  unfold execEventExecute
  (try dsimp only)
  (repeat' split) <;> exact ⟨_, rfl, by simp, by simp⟩

theorem execEventPulseReturn_fr (node : Nat) (out : Fin 16) (now : FTime) (s : State) : ∃ s', (execEventPulseReturn node out now s) = .next s' ∧ s'.anchor.core = s.anchor.core ∧ s'.pending = s.pending := by
  unfold execEventPulseReturn
  (try dsimp only)
  (repeat' split) <;> exact ⟨_, rfl, by simp, by simp⟩

theorem execGondolaTimeReceive_fr (node : Nat) (port : GPort) (origin : FTime) (corr : BitVec 64) (pathdly : BitVec 64) (incInt : BitVec 8) (incFrac : Word) (stepCnt : BitVec 16) (hops : BitVec 8) (sof : FTime) (s : State) : ∃ s', (execGondolaTimeReceive node port origin corr pathdly incInt incFrac stepCnt hops sof s) = .next s' ∧ s'.anchor.core = s.anchor.core ∧ s'.pending = s.pending := by
  unfold execGondolaTimeReceive
  extract_lets g loc path target off stepNow interval lim slew inc old good lost g' s1 s2 s3 f
  have h1 : s1.anchor.core = s.anchor.core ∧ s1.pending = s.pending := ⟨rfl, rfl⟩
  have h2 : s2.anchor.core = s.anchor.core ∧ s2.pending = s.pending := by simp [s2, h1]
  have h3 : s3.anchor.core = s.anchor.core ∧ s3.pending = s.pending := by simp [s3, h2]
  have h4 := foldl_fr (fun s p => s.updGon node (fun g => g.queueAt p false f 0 loc)) (s3.castPorts node port) s3 (fun s x => by simp)
  exact ⟨_, rfl, h4.1.trans h3.1, h4.2.trans h3.2⟩

theorem execGondolaLockLoss_fr (node : Nat) (now : FTime) (s : State) : ∃ s', (execGondolaLockLoss node now s) = .next s' ∧ s'.anchor.core = s.anchor.core ∧ s'.pending = s.pending := by
  unfold execGondolaLockLoss
  (try dsimp only)
  (repeat' split) <;> exact ⟨_, rfl, by simp, by simp⟩

theorem execGondolaDlyReq_fr (node : Nat) (s : State) : ∃ s', (execGondolaDlyReq node s) = .next s' ∧ s'.anchor.core = s.anchor.core ∧ s'.pending = s.pending := by
  unfold execGondolaDlyReq
  (try dsimp only)
  (repeat' split) <;> exact ⟨_, rfl, by simp, by simp⟩

theorem execGondolaDlyRspReceive_fr (node : Nat) (t1 : FTime) (t2 : FTime) (t3 : FTime) (now : FTime) (s : State) : ∃ s', (execGondolaDlyRspReceive node t1 t2 t3 now s) = .next s' ∧ s'.anchor.core = s.anchor.core ∧ s'.pending = s.pending := by
  unfold execGondolaDlyRspReceive
  (try dsimp only)
  (repeat' split) <;> exact ⟨_, rfl, by simp, by simp⟩

theorem execGondolaDlyReqReceive_fr (node : Nat) (port : GPort) (t1 : FTime) (sof : FTime) (s : State) : ∃ s', (execGondolaDlyReqReceive node port t1 sof s) = .next s' ∧ s'.anchor.core = s.anchor.core ∧ s'.pending = s.pending := by
  unfold execGondolaDlyReqReceive
  (try dsimp only)
  (repeat' split) <;> exact ⟨_, rfl, by simp, by simp⟩

@[simp] theorem State.enumBack_fr (s : State) (node : Nat) (port : GPort) (next : BitVec 8) (ovr : Bool) (attach : Bool) (epoch : BitVec 8) :
    (State.enumBack s node port next ovr attach epoch).anchor.core = s.anchor.core ∧ (State.enumBack s node port next ovr attach epoch).pending = s.pending := by
  constructor <;> (unfold State.enumBack; (try dsimp only); (repeat' split) <;> simp_all)

@[simp] theorem State.takePos_fr (s : State) (node : Nat) (port : GPort) (next : BitVec 8) (epoch : BitVec 8) :
    (State.takePos s node port next epoch).anchor.core = s.anchor.core ∧ (State.takePos s node port next epoch).pending = s.pending := by
  constructor <;> simp [State.takePos]

theorem execGondolaEnumReceive_fr (node : Nat) (port : GPort) (next : BitVec 8) (done : Bool) (ovr : Bool) (attach : Bool) (epoch : BitVec 8) (now : FTime) (s : State) : ∃ s', (execGondolaEnumReceive node port next done ovr attach epoch now s) = .next s' ∧ s'.anchor.core = s.anchor.core ∧ s'.pending = s.pending := by
  unfold execGondolaEnumReceive
  (try dsimp only)
  (repeat' split) <;> exact ⟨_, rfl, by simp, by simp⟩

theorem execGondolaFrameForward_fr (node : Nat) (port : GPort) (f : Frame) (crc : Word) (cv : Nat) (sof : FTime) (s : State) : ∃ s', (execGondolaFrameForward node port f crc cv sof s) = .next s' ∧ s'.anchor.core = s.anchor.core ∧ s'.pending = s.pending := by
  unfold execGondolaFrameForward
  (try dsimp only)
  (repeat' split) <;> exact ⟨_, rfl, by simp, by simp⟩

@[simp] theorem State.gStart_fr (s : State) (n : Nat) (p : GPort) (tick : Bool) (now : FTime) :
    (State.gStart s n p tick now).anchor.core = s.anchor.core ∧ (State.gStart s n p tick now).pending = s.pending := by
  constructor <;> (unfold State.gStart; (try dsimp only); (repeat' split) <;> simp_all)

theorem execTickDnTransmit_fr (e : LinkEnd) (now : FTime) (s : State) : ∃ s', (execTickDnTransmit e now s) = .next s' ∧ s'.anchor.core = s.anchor.core ∧ s'.pending = s.pending := by
  unfold execTickDnTransmit
  (try dsimp only)
  (repeat' split) <;> exact ⟨_, rfl, by simp, by simp⟩

theorem execGondolaBrkReceive_fr (node : Nat) (port : GPort) (seg : BitVec 8) (s : State) : ∃ s', (execGondolaBrkReceive node port seg s) = .next s' ∧ s'.anchor.core = s.anchor.core ∧ s'.pending = s.pending := by
  unfold execGondolaBrkReceive
  (try dsimp only)
  (repeat' split) <;> exact ⟨_, rfl, by simp, by simp⟩

theorem execGondolaBulkReceive_fr (node : Nat) (stream : BitVec 8) (last : Bool) (offset : Word) (data : List Byte) (s : State) : ∃ s', (execGondolaBulkReceive node stream last offset data s) = .next s' ∧ s'.anchor.core = s.anchor.core ∧ s'.pending = s.pending := by
  unfold execGondolaBulkReceive
  (try dsimp only)
  (repeat' split) <;> exact ⟨_, rfl, by simp, by simp⟩

theorem execGondolaCreditReceive_fr (node : Nat) (count : BitVec 4) (s : State) : ∃ s', (execGondolaCreditReceive node count s) = .next s' ∧ s'.anchor.core = s.anchor.core ∧ s'.pending = s.pending := by
  unfold execGondolaCreditReceive
  (try dsimp only)
  (repeat' split) <;> exact ⟨_, rfl, by simp, by simp⟩

theorem execRipInputDrop_fr (node : Nat) (now : FTime) (s : State) : ∃ s', (execRipInputDrop node now s) = .next s' ∧ s'.anchor.core = s.anchor.core ∧ s'.pending = s.pending := by
  unfold execRipInputDrop
  (try dsimp only)
  (repeat' split) <;> exact ⟨_, rfl, by simp, by simp⟩

theorem execRipInputEnergised_fr (node : Nat) (now : FTime) (s : State) : ∃ s', (execRipInputEnergised node now s) = .next s' ∧ s'.anchor.core = s.anchor.core ∧ s'.pending = s.pending := by
  unfold execRipInputEnergised
  (try dsimp only)
  (repeat' split) <;> exact ⟨_, rfl, by simp, by simp⟩

theorem execPowerStageDisable_fr (node : Nat) (now : FTime) (s : State) : ∃ s', (execPowerStageDisable node now s) = .next s' ∧ s'.anchor.core = s.anchor.core ∧ s'.pending = s.pending := by
  unfold execPowerStageDisable
  (try dsimp only)
  (repeat' split) <;> exact ⟨_, rfl, by simp, by simp⟩

theorem execRipEnergised10ms_fr (node : Nat) (now : FTime) (s : State) : ∃ s', (execRipEnergised10ms node now s) = .next s' ∧ s'.anchor.core = s.anchor.core ∧ s'.pending = s.pending := by
  unfold execRipEnergised10ms
  (try dsimp only)
  (repeat' split) <;> exact ⟨_, rfl, by simp, by simp⟩

@[simp] theorem State.emuStep_fr (s : State) (e : Nat) (d : Int) :
    (State.emuStep s e d).anchor.core = s.anchor.core ∧ (State.emuStep s e d).pending = s.pending := by
  constructor <;> simp [State.emuStep]

@[simp] theorem State.emu_fr (s : State) (c : Nat) (d : Int) :
    (State.emu s c d).anchor.core = s.anchor.core ∧ (State.emu s c d).pending = s.pending := by
  constructor <;> simp [State.emu]

theorem execQuadratureTransition_fr (node : Nat) (c : Fin 16) (levels : BitVec 3) (now : FTime) (s : State) : ∃ s', (execQuadratureTransition node c levels now s) = .next s' ∧ s'.anchor.core = s.anchor.core ∧ s'.pending = s.pending := by
  unfold execQuadratureTransition
  (try dsimp only)
  (repeat' split) <;> exact ⟨_, rfl, by simp, by simp⟩

theorem execIndexEdge_fr (node : Nat) (c : Fin 16) (z : Bool) (_now : FTime) (s : State) : ∃ s', (execIndexEdge node c z _now s) = .next s' ∧ s'.anchor.core = s.anchor.core ∧ s'.pending = s.pending := by
  unfold execIndexEdge
  (try dsimp only)
  (repeat' split) <;> exact ⟨_, rfl, by simp, by simp⟩

end Sys2Proof.Machine
end

