-- ==== Sys2Proof/Laws/FrameAxes.lean ====
section
/-! SUPPORT. Frames of pulse generation, feedback, profiles, latches, field inputs and outputs, compare and axes: what no definition of them touches, the core of the anchor and the queue. -/
namespace Sys2Proof.Machine

open Sys2Proof

set_option linter.unusedTactic false
set_option linter.unreachableTactic false
set_option linter.unusedSimpArgs false
set_option linter.unnecessarySeqFocus false
set_option linter.unusedVariables false

/-! ### Pulse -/

@[simp] theorem State.fltLive_fr (s : State) (live : BitVec 4) :
    (State.fltLive s live).anchor.core = s.anchor.core ∧ (State.fltLive s live).pending = s.pending := by
  constructor <;> simp [State.fltLive]

@[simp] theorem State.homeForceFrom_fr (old : State) (s : State) :
    (State.homeForceFrom old s).anchor.core = s.anchor.core ∧ (State.homeForceFrom old s).pending = s.pending := by
  constructor <;> (unfold State.homeForceFrom; (try dsimp only); (repeat' split) <;> simp_all)

@[simp] theorem State.homeForce_fr (s : State) (f : State → State) (h0 : ∀ x0, (f x0).anchor.core = x0.anchor.core ∧ (f x0).pending = x0.pending) :
    (State.homeForce s f).anchor.core = s.anchor.core ∧ (State.homeForce s f).pending = s.pending := by
  constructor <;> simp [State.homeForce, h0]

theorem execFaultInputLatch_fr (i : Fin 4) (s : State) : ∃ s', (execFaultInputLatch i s) = .next s' ∧ s'.anchor.core = s.anchor.core ∧ s'.pending = s.pending := by
  unfold execFaultInputLatch
  (try dsimp only)
  (repeat' split) <;> exact ⟨_, rfl, by simp, by simp⟩

@[simp] theorem fltCmdWritten_fr (v : Word) (s : State) :
    (fltCmdWritten v s).anchor.core = s.anchor.core ∧ (fltCmdWritten v s).pending = s.pending := by
  constructor <;> simp [fltCmdWritten]

theorem execFltClr_fr (via : RegPath) (i : Fin 4) (live : BitVec 4) (s : State) : ∃ s', (execFltClr via i live s) = .next s' ∧ s'.anchor.core = s.anchor.core ∧ s'.pending = s.pending := by
  unfold execFltClr
  (try dsimp only)
  (repeat' split) <;> exact ⟨_, rfl, by simp, by simp⟩

theorem execSwset_fr (via : RegPath) (s : State) : ∃ s', (execSwset via s) = .next s' ∧ s'.anchor.core = s.anchor.core ∧ s'.pending = s.pending := by
  unfold execSwset
  (try dsimp only)
  (repeat' split) <;> exact ⟨_, rfl, by simp, by simp⟩

theorem execSwclr_fr (via : RegPath) (s : State) : ∃ s', (execSwclr via s) = .next s' ∧ s'.anchor.core = s.anchor.core ∧ s'.pending = s.pending := by
  unfold execSwclr
  (try dsimp only)
  (repeat' split) <;> exact ⟨_, rfl, by simp, by simp⟩

@[simp] theorem tctlWritten_fr (n : Nat) (v : Word) (s : State) :
    (tctlWritten n v s).anchor.core = s.anchor.core ∧ (tctlWritten n v s).pending = s.pending := by
  constructor <;> simp [tctlWritten]

theorem execTestPairPush_fr (via : RegPath) (n : Fin 256) (v : Word) (s : State) : ∃ s', (execTestPairPush via n v s) = .next s' ∧ s'.anchor.core = s.anchor.core ∧ s'.pending = s.pending := by
  unfold execTestPairPush
  (try dsimp only)
  (repeat' split) <;> exact ⟨_, rfl, by simp, by simp⟩

theorem execDebugHalt_fr (s : State) : ∃ s', (execDebugHalt s) = .next s' ∧ s'.anchor.core = s.anchor.core ∧ s'.pending = s.pending := by
  unfold execDebugHalt
  (try dsimp only)
  (repeat' split) <;> exact ⟨_, rfl, by simp, by simp⟩

theorem execDebugRelease_fr (s : State) : ∃ s', (execDebugRelease s) = .next s' ∧ s'.anchor.core = s.anchor.core ∧ s'.pending = s.pending := by
  unfold execDebugRelease
  (try dsimp only)
  (repeat' split) <;> exact ⟨_, rfl, by simp, by simp⟩

/-! ### Feedback -/

@[simp] theorem State.faultCause_fr (s : State) (n : Nat) (code : Nat) (stop : Bool) :
    (State.faultCause s n code stop).anchor.core = s.anchor.core ∧ (State.faultCause s n code stop).pending = s.pending := by
  constructor <;> simp [State.faultCause]

@[simp] theorem State.unref_fr (s : State) (n : Nat) :
    (State.unref s n).anchor.core = s.anchor.core ∧ (State.unref s n).pending = s.pending := by
  constructor <;> simp [State.unref]

@[simp] theorem State.hallAngle_fr (s : State) (n : Nat) (ok : Bool) :
    (State.hallAngle s n ok).anchor.core = s.anchor.core ∧ (State.hallAngle s n ok).pending = s.pending := by
  constructor <;> simp [State.hallAngle]

@[simp] theorem State.addTurns_fr (s : State) (n : Nat) (d : Int) :
    (State.addTurns s n d).anchor.core = s.anchor.core ∧ (State.addTurns s n d).pending = s.pending := by
  constructor <;> simp [State.addTurns]

@[simp] theorem State.sumMoved_fr (s : State) (n : Nat) (old : Int) (ft : FTime) :
    (State.sumMoved s n old ft).anchor.core = s.anchor.core ∧ (State.sumMoved s n old ft).pending = s.pending := by
  constructor <;> simp [State.sumMoved]

@[simp] theorem State.decideShift_fr (s : State) (n : Nat) (d : Int) :
    (State.decideShift s n d).anchor.core = s.anchor.core ∧ (State.decideShift s n d).pending = s.pending := by
  constructor <;> simp [State.decideShift]

@[simp] theorem State.indexEdge_fr (s : State) (n : Nat) (r : BitVec 128) (ft : FTime) :
    (State.indexEdge s n r ft).anchor.core = s.anchor.core ∧ (State.indexEdge s n r ft).pending = s.pending := by
  constructor <;> simp [State.indexEdge]

@[simp] theorem State.speedPair_fr (s : State) (n : Nat) (te : FTime) (tk : FTime) :
    (State.speedPair s n te tk).anchor.core = s.anchor.core ∧ (State.speedPair s n te tk).pending = s.pending := by
  constructor <;> simp [State.speedPair]

@[simp] theorem State.speedBound_fr (s : State) (n : Nat) (ts : FTime) :
    (State.speedBound s n ts).anchor.core = s.anchor.core ∧ (State.speedBound s n ts).pending = s.pending := by
  constructor <;> (unfold State.speedBound; (try dsimp only); (repeat' split) <;> simp_all)

@[simp] theorem State.speedStep_fr (s : State) (n : Nat) (r : BitVec 128) (ts : FTime) (tk : FTime) (moved : Bool) :
    (State.speedStep s n r ts tk moved).anchor.core = s.anchor.core ∧ (State.speedStep s n r ts tk moved).pending = s.pending := by
  constructor <;> simp [State.speedStep]

@[simp] theorem State.ssiRead_fr (s : State) (n : Nat) (r : BitVec 128) :
    (State.ssiRead s n r).anchor.core = s.anchor.core ∧ (State.ssiRead s n r).pending = s.pending := by
  constructor <;> simp [State.ssiRead]

@[simp] theorem State.hallCheck_fr (s : State) (n : Nat) (r : BitVec 128) :
    (State.hallCheck s n r).anchor.core = s.anchor.core ∧ (State.hallCheck s n r).pending = s.pending := by
  constructor <;> (unfold State.hallCheck; (try dsimp only); (repeat' split) <;> simp_all)

@[simp] theorem State.illRecord_fr (s : State) (n : Nat) (r : BitVec 128) (ft : FTime) :
    (State.illRecord s n r ft).anchor.core = s.anchor.core ∧ (State.illRecord s n r ft).pending = s.pending := by
  constructor <;> (unfold State.illRecord; (try dsimp only); (repeat' split) <;> simp_all)

@[simp] theorem State.countRecord_fr (s : State) (n : Nat) (r : BitVec 128) (ts : FTime) (tk : FTime) :
    (State.countRecord s n r ts tk).anchor.core = s.anchor.core ∧ (State.countRecord s n r ts tk).pending = s.pending := by
  constructor <;> simp [State.countRecord]

@[simp] theorem State.feedback_fr (s : State) (n : Nat) (r : BitVec 128) (ts : FTime) (tk : FTime) :
    (State.feedback s n r ts tk).anchor.core = s.anchor.core ∧ (State.feedback s n r ts tk).pending = s.pending := by
  constructor <;> simp [State.feedback]

theorem execSpeedStandstill_fr (n : Fin 256) (s : State) : ∃ s', (execSpeedStandstill n s) = .next s' ∧ s'.anchor.core = s.anchor.core ∧ s'.pending = s.pending := by
  unfold execSpeedStandstill
  (try dsimp only)
  (repeat' split) <;> exact ⟨_, rfl, by simp, by simp⟩

theorem execSsiErrorFault_fr (n : Fin 256) (s : State) : ∃ s', (execSsiErrorFault n s) = .next s' ∧ s'.anchor.core = s.anchor.core ∧ s'.pending = s.pending := by
  unfold execSsiErrorFault
  (try dsimp only)
  (repeat' split) <;> exact ⟨_, rfl, by simp, by simp⟩

@[simp] theorem axisIdx_fr (i : BitVec 14) (f : Nat → MbxRes) (s : State)
    (h : ∀ n, (f n).st.anchor.core = s.anchor.core ∧ (f n).st.pending = s.pending) :
    (axisIdx i f s).st.anchor.core = s.anchor.core ∧ (axisIdx i f s).st.pending = s.pending := by
  simp [axisIdx, h]

@[simp] theorem mboFbPos_fr (i : BitVec 14) (s : State) :
    (mboFbPos i s).st.anchor.core = s.anchor.core ∧ (mboFbPos i s).st.pending = s.pending := by
  constructor <;> simp [mboFbPos]

@[simp] theorem mboFbSetpos_fr (i : BitVec 14) (p : BitVec 64) (s : State) :
    (mboFbSetpos i p s).st.anchor.core = s.anchor.core ∧ (mboFbSetpos i p s).st.pending = s.pending := by
  constructor <;> simp [mboFbSetpos]

@[simp] theorem mboFbUnref_fr (i : BitVec 14) (s : State) :
    (mboFbUnref i s).st.anchor.core = s.anchor.core ∧ (mboFbUnref i s).st.pending = s.pending := by
  constructor <;> simp [mboFbUnref]

@[simp] theorem mboFbCorr_fr (i : BitVec 14) (s : State) :
    (mboFbCorr i s).st.anchor.core = s.anchor.core ∧ (mboFbCorr i s).st.pending = s.pending := by
  constructor <;> simp [mboFbCorr]

theorem execFbPos_fr (set : Fin 4) (via : RegPath) (index : BitVec 14) (s : State) : ∃ s', (execFbPos set via index s) = .next s' ∧ s'.anchor.core = s.anchor.core ∧ s'.pending = s.pending := by
  unfold execFbPos
  (try dsimp only)
  (repeat' split) <;> exact ⟨_, rfl, by simp, by simp⟩

theorem execFbSetpos_fr (set : Fin 4) (via : RegPath) (index : BitVec 14) (pos : BitVec 64) (s : State) : ∃ s', (execFbSetpos set via index pos s) = .next s' ∧ s'.anchor.core = s.anchor.core ∧ s'.pending = s.pending := by
  unfold execFbSetpos
  (try dsimp only)
  (repeat' split) <;> exact ⟨_, rfl, by simp, by simp⟩

theorem execFbUnref_fr (set : Fin 4) (via : RegPath) (index : BitVec 14) (s : State) : ∃ s', (execFbUnref set via index s) = .next s' ∧ s'.anchor.core = s.anchor.core ∧ s'.pending = s.pending := by
  unfold execFbUnref
  (try dsimp only)
  (repeat' split) <;> exact ⟨_, rfl, by simp, by simp⟩

theorem execFbCorr_fr (set : Fin 4) (via : RegPath) (index : BitVec 14) (s : State) : ∃ s', (execFbCorr set via index s) = .next s' ∧ s'.anchor.core = s.anchor.core ∧ s'.pending = s.pending := by
  unfold execFbCorr
  (try dsimp only)
  (repeat' split) <;> exact ⟨_, rfl, by simp, by simp⟩

/-! ### Profile -/

@[simp] theorem State.spWraps_fr (s : State) (n : Nat) (t : FTime) :
    (State.spWraps s n t).anchor.core = s.anchor.core ∧ (State.spWraps s n t).pending = s.pending := by
  constructor <;> (unfold State.spWraps; (try dsimp only); (repeat' split) <;> simp_all)

@[simp] theorem State.setRate_fr (s : State) (n : Nat) (b : Bool) :
    (State.setRate s n b).anchor.core = s.anchor.core ∧ (State.setRate s n b).pending = s.pending := by
  constructor <;> simp [State.setRate]

@[simp] theorem State.spUpdate_fr (s : State) (n : Nat) (t : FTime) :
    (State.spUpdate s n t).anchor.core = s.anchor.core ∧ (State.spUpdate s n t).pending = s.pending := by
  constructor <;> simp [State.spUpdate]

@[simp] theorem State.startPlan_fr (s : State) (n : Nat) (t : FTime) (src : Src) (k : Kin) (pieces : List (Nat × Int)) (endP : Option Val) (endV : Val) :
    (State.startPlan s n t src k pieces endP endV).anchor.core = s.anchor.core ∧ (State.startPlan s n t src k pieces endP endV).pending = s.pending := by
  constructor <;> simp [State.startPlan]

@[simp] theorem State.startRest_fr (s : State) (n : Nat) (t : FTime) :
    (State.startRest s n t).anchor.core = s.anchor.core ∧ (State.startRest s n t).pending = s.pending := by
  constructor <;> simp [State.startRest]

@[simp] theorem State.camUse_fr (s : State) (c : Nat) (d : Int) :
    (State.camUse s c d).anchor.core = s.anchor.core ∧ (State.camUse s c d).pending = s.pending := by
  constructor <;> simp [State.camUse]

@[simp] theorem State.camsFree_fr (s : State) (b : Bridle) :
    (State.camsFree s b).anchor.core = s.anchor.core ∧ (State.camsFree s b).pending = s.pending := by
  constructor <;> (unfold State.camsFree; (try dsimp only); (repeat' split) <;> simp_all)

@[simp] theorem State.leaveSource_fr (s : State) (n : Nat) :
    (State.leaveSource s n).anchor.core = s.anchor.core ∧ (State.leaveSource s n).pending = s.pending := by
  constructor <;> simp [State.leaveSource]

@[simp] theorem State.dropResume_fr (s : State) (n : Nat) :
    (State.dropResume s n).anchor.core = s.anchor.core ∧ (State.dropResume s n).pending = s.pending := by
  constructor <;> simp [State.dropResume]

@[simp] theorem State.planMove_fr (s : State) (n : Nat) (t : FTime) (target : Val) (rel : Bool) (isVel : Bool) (vl : Word) (al : Word) (dl : Word) (jl : Word) :
    (State.planMove s n t target rel isVel vl al dl jl).anchor.core = s.anchor.core ∧ (State.planMove s n t target rel isVel vl al dl jl).pending = s.pending := by
  constructor <;> simp [State.planMove]

@[simp] theorem State.startLine_fr (s : State) (t : FTime) (ds : List (Nat × Int)) (ends : Nat → Val) (v : Int) (a : Int) :
    (State.startLine s t ds ends v a).anchor.core = s.anchor.core ∧ (State.startLine s t ds ends v a).pending = s.pending := by
  constructor <;> simp [State.startLine]

@[simp] theorem State.groupGo_fr (s : State) (n : Nat) (t : FTime) :
    (State.groupGo s n t).anchor.core = s.anchor.core ∧ (State.groupGo s n t).pending = s.pending := by
  constructor <;> simp [State.groupGo]

@[simp] theorem State.groupStop_fr (s : State) (n : Nat) (t : FTime) :
    (State.groupStop s n t).anchor.core = s.anchor.core ∧ (State.groupStop s n t).pending = s.pending := by
  constructor <;> simp [State.groupStop]

@[simp] theorem State.groupRebase_fr (s : State) (n : Nat) (t : FTime) :
    (State.groupRebase s n t).anchor.core = s.anchor.core ∧ (State.groupRebase s n t).pending = s.pending := by
  constructor <;> simp [State.groupRebase]

@[simp] theorem State.startStop_fr (s : State) (n : Nat) (t : FTime) :
    (State.startStop s n t).anchor.core = s.anchor.core ∧ (State.startStop s n t).pending = s.pending := by
  constructor <;> (unfold State.startStop; (try dsimp only); (repeat' split) <;> simp_all)

@[simp] theorem State.endStop_fr (s : State) (n : Nat) (t : FTime) :
    (State.endStop s n t).anchor.core = s.anchor.core ∧ (State.endStop s n t).pending = s.pending := by
  constructor <;> simp [State.endStop]

@[simp] theorem State.resumeNow_fr (s : State) (n : Nat) (t : FTime) :
    (State.resumeNow s n t).anchor.core = s.anchor.core ∧ (State.resumeNow s n t).pending = s.pending := by
  constructor <;> simp [State.resumeNow]

@[simp] theorem State.resume_fr (s : State) (n : Nat) (t : FTime) (still : Nat → Bool) :
    (State.resume s n t still).1.anchor.core = s.anchor.core ∧ (State.resume s n t still).1.pending = s.pending := by
  constructor <;> simp [State.resume]

theorem State.resume_eqfr (s : State) (n : Nat) (t : FTime) (still : Nat → Bool) {sa sb} (hq : (State.resume s n t still) = (sa, sb)) :
    sa.anchor.core = s.anchor.core ∧ sa.pending = s.pending := by
  have hp := State.resume_fr s n t still; rw [hq] at hp; exact hp

@[simp] theorem State.limiter_fr (s : State) (n : Nat) (t : FTime) (pd : Int) (vd : Int) (velOnly : Bool) :
    (State.limiter s n t pd vd velOnly).anchor.core = s.anchor.core ∧ (State.limiter s n t pd vd velOnly).pending = s.pending := by
  constructor <;> simp [State.limiter]

@[simp] theorem State.moveRate_fr (s : State) (n : Nat) (t : FTime) :
    (State.moveRate s n t).anchor.core = s.anchor.core ∧ (State.moveRate s n t).pending = s.pending := by
  constructor <;> simp [State.moveRate]

@[simp] theorem State.replan_fr (s : State) (n : Nat) (t : FTime) :
    (State.replan s n t).anchor.core = s.anchor.core ∧ (State.replan s n t).pending = s.pending := by
  constructor <;> (unfold State.replan; (try dsimp only); (repeat' split) <;> simp_all)

@[simp] theorem State.profileRun_fr (s : State) (n : Nat) (t : FTime) :
    (State.profileRun s n t).anchor.core = s.anchor.core ∧ (State.profileRun s n t).pending = s.pending := by
  constructor <;> (unfold State.profileRun; (try dsimp only); (repeat' split) <;> simp_all)

@[simp] theorem State.gearChange_fr (s : State) (n : Nat) (t : FTime) (b : Bridle) :
    (State.gearChange s n t b).anchor.core = s.anchor.core ∧ (State.gearChange s n t b).pending = s.pending := by
  constructor <;> (unfold State.gearChange; (try dsimp only); (repeat' split) <;> simp_all)

@[simp] theorem State.gearNow_fr (s : State) (n : Nat) (t : FTime) (b : Bridle) :
    (State.gearNow s n t b).anchor.core = s.anchor.core ∧ (State.gearNow s n t b).pending = s.pending := by
  constructor <;> simp [State.gearNow]

@[simp] theorem State.gear_fr (s : State) (n : Nat) (t : FTime) (mode : BitVec 8) (mkind : BitVec 8) (master : BitVec 8) (gf : BitVec 2) (num : Word) (den : Word) (offset : BitVec 64) (lr : BitVec 64) (mpos : BitVec 64) :
    (State.gear s n t mode mkind master gf num den offset lr mpos).1.anchor.core = s.anchor.core ∧ (State.gear s n t mode mkind master gf num den offset lr mpos).1.pending = s.pending := by
  constructor <;> simp [State.gear]

theorem State.gear_eqfr (s : State) (n : Nat) (t : FTime) (mode : BitVec 8) (mkind : BitVec 8) (master : BitVec 8) (gf : BitVec 2) (num : Word) (den : Word) (offset : BitVec 64) (lr : BitVec 64) (mpos : BitVec 64) {sa sb} (hq : (State.gear s n t mode mkind master gf num den offset lr mpos) = (sa, sb)) :
    sa.anchor.core = s.anchor.core ∧ sa.pending = s.pending := by
  have hp := State.gear_fr s n t mode mkind master gf num den offset lr mpos; rw [hq] at hp; exact hp

@[simp] theorem State.camSelect_fr (s : State) (n : Nat) (_t : FTime) (cam : Nat) (cf : BitVec 4) (cphase : BitVec 64) :
    (State.camSelect s n _t cam cf cphase).1.anchor.core = s.anchor.core ∧ (State.camSelect s n _t cam cf cphase).1.pending = s.pending := by
  constructor <;> (unfold State.camSelect; (try dsimp only); (repeat' split) <;> simp_all)

theorem State.camSelect_eqfr (s : State) (n : Nat) (_t : FTime) (cam : Nat) (cf : BitVec 4) (cphase : BitVec 64) {sa sb} (hq : (State.camSelect s n _t cam cf cphase) = (sa, sb)) :
    sa.anchor.core = s.anchor.core ∧ sa.pending = s.pending := by
  have hp := State.camSelect_fr s n _t cam cf cphase; rw [hq] at hp; exact hp

@[simp] theorem State.camDeselect_fr (s : State) (n : Nat) :
    (State.camDeselect s n).1.anchor.core = s.anchor.core ∧ (State.camDeselect s n).1.pending = s.pending := by
  constructor <;> simp [State.camDeselect]

theorem State.camDeselect_eqfr (s : State) (n : Nat) {sa sb} (hq : (State.camDeselect s n) = (sa, sb)) :
    sa.anchor.core = s.anchor.core ∧ sa.pending = s.pending := by
  have hp := State.camDeselect_fr s n; rw [hq] at hp; exact hp

@[simp] theorem State.moveNow_fr (s : State) (n : Nat) (t : FTime) (target : BitVec 64) (vl : Word) (al : Word) (dl : Word) (jl : Word) (mf : BitVec 3) :
    (State.moveNow s n t target vl al dl jl mf).1.anchor.core = s.anchor.core ∧ (State.moveNow s n t target vl al dl jl mf).1.pending = s.pending := by
  constructor <;> simp [State.moveNow]

theorem State.moveNow_eqfr (s : State) (n : Nat) (t : FTime) (target : BitVec 64) (vl : Word) (al : Word) (dl : Word) (jl : Word) (mf : BitVec 3) {sa sb} (hq : (State.moveNow s n t target vl al dl jl mf) = (sa, sb)) :
    sa.anchor.core = s.anchor.core ∧ sa.pending = s.pending := by
  have hp := State.moveNow_fr s n t target vl al dl jl mf; rw [hq] at hp; exact hp

@[simp] theorem State.streamNow_fr (s : State) (n : Nat) (t : FTime) (pt : FTime) (v : Val) :
    (State.streamNow s n t pt v).anchor.core = s.anchor.core ∧ (State.streamNow s n t pt v).pending = s.pending := by
  constructor <;> simp [State.streamNow]

@[simp] theorem State.motionNow_fr (s : State) (n : Nat) (t : FTime) (op : MotionOp) (still : Nat → Bool) :
    (State.motionNow s n t op still).1.anchor.core = s.anchor.core ∧ (State.motionNow s n t op still).1.pending = s.pending := by
  cases op
  · exact State.moveNow_fr ..
  · exact State.resume_fr ..
  · exact State.gear_fr ..
  · exact State.camSelect_fr ..
  · exact State.camDeselect_fr ..
  · exact ⟨rfl, rfl⟩
  · exact ⟨rfl, rfl⟩

theorem execMoveArrival_fr (n : Fin 256) (s : State) : ∃ s', (execMoveArrival n s) = .next s' ∧ s'.anchor.core = s.anchor.core ∧ s'.pending = s.pending := by
  unfold execMoveArrival
  (try dsimp only)
  (repeat' split) <;> exact ⟨_, rfl, by simp, by simp⟩

theorem execGearEngage_fr (n : Fin 256) (s : State) : ∃ s', (execGearEngage n s) = .next s' ∧ s'.anchor.core = s.anchor.core ∧ s'.pending = s.pending := by
  unfold execGearEngage
  (try dsimp only)
  (repeat' split) <;> exact ⟨_, rfl, by simp, by simp⟩

theorem execCamCycleSwitch_fr (n : Fin 256) (s : State) : ∃ s', (execCamCycleSwitch n s) = .next s' ∧ s'.anchor.core = s.anchor.core ∧ s'.pending = s.pending := by
  unfold execCamCycleSwitch
  (try dsimp only)
  (repeat' split) <;> exact ⟨_, rfl, by simp, by simp⟩

theorem execRemoteMasterStale_fr (r : Fin 16) (s : State) : ∃ s', (execRemoteMasterStale r s) = .next s' ∧ s'.anchor.core = s.anchor.core ∧ s'.pending = s.pending := by
  unfold execRemoteMasterStale
  (try dsimp only)
  (repeat' split) <;> exact ⟨_, rfl, by simp, by simp⟩

@[simp] theorem State.stWake_fr (s : State) (n : Nat) (t : FTime) :
    (State.stWake s n t).anchor.core = s.anchor.core ∧ (State.stWake s n t).pending = s.pending := by
  constructor <;> (unfold State.stWake; (try dsimp only); (repeat' split) <;> simp_all)

theorem execHoldCurrentReduce_fr (n : Fin 256) (s : State) : ∃ s', (execHoldCurrentReduce n s) = .next s' ∧ s'.anchor.core = s.anchor.core ∧ s'.pending = s.pending := by
  unfold execHoldCurrentReduce
  (try dsimp only)
  (repeat' split) <;> exact ⟨_, rfl, by simp, by simp⟩

@[simp] theorem mboPrfSp_fr (i : BitVec 14) (s : State) :
    (mboPrfSp i s).st.anchor.core = s.anchor.core ∧ (mboPrfSp i s).st.pending = s.pending := by
  constructor <;> simp [mboPrfSp]

@[simp] theorem mboPrfState_fr (i : BitVec 14) (s : State) :
    (mboPrfState i s).st.anchor.core = s.anchor.core ∧ (mboPrfState i s).st.pending = s.pending := by
  constructor <;> simp [mboPrfState]

@[simp] theorem mboBrState_fr (i : BitVec 14) (s : State) :
    (mboBrState i s).st.anchor.core = s.anchor.core ∧ (mboBrState i s).st.pending = s.pending := by
  constructor <;> simp [mboBrState]

@[simp] theorem mboRmRead_fr (i : BitVec 14) (s : State) :
    (mboRmRead i s).st.anchor.core = s.anchor.core ∧ (mboRmRead i s).st.pending = s.pending := by
  constructor <;> simp [mboRmRead]

theorem execPrfSp_fr (set : Fin 4) (via : RegPath) (index : BitVec 14) (s : State) : ∃ s', (execPrfSp set via index s) = .next s' ∧ s'.anchor.core = s.anchor.core ∧ s'.pending = s.pending := by
  unfold execPrfSp
  (try dsimp only)
  (repeat' split) <;> exact ⟨_, rfl, by simp, by simp⟩

theorem execPrfState_fr (set : Fin 4) (via : RegPath) (index : BitVec 14) (s : State) : ∃ s', (execPrfState set via index s) = .next s' ∧ s'.anchor.core = s.anchor.core ∧ s'.pending = s.pending := by
  unfold execPrfState
  (try dsimp only)
  (repeat' split) <;> exact ⟨_, rfl, by simp, by simp⟩

theorem execBrState_fr (set : Fin 4) (via : RegPath) (index : BitVec 14) (s : State) : ∃ s', (execBrState set via index s) = .next s' ∧ s'.anchor.core = s.anchor.core ∧ s'.pending = s.pending := by
  unfold execBrState
  (try dsimp only)
  (repeat' split) <;> exact ⟨_, rfl, by simp, by simp⟩

theorem execRmRead_fr (set : Fin 4) (via : RegPath) (index : BitVec 14) (s : State) : ∃ s', (execRmRead set via index s) = .next s' ∧ s'.anchor.core = s.anchor.core ∧ s'.pending = s.pending := by
  unfold execRmRead
  (try dsimp only)
  (repeat' split) <;> exact ⟨_, rfl, by simp, by simp⟩

/-! ### Path -/

@[simp] theorem State.pathShow_fr (s : State) (t : Nat) :
    (State.pathShow s t).anchor.core = s.anchor.core ∧ (State.pathShow s t).pending = s.pending := by
  constructor <;> (unfold State.pathShow; (try dsimp only); (repeat' split) <;> simp_all)

/-! ### Latch -/

@[simp] theorem State.latArm_fr (s : State) (n : Nat) (u : Nat) (b : Bool) :
    (State.latArm s n u b).anchor.core = s.anchor.core ∧ (State.latArm s n u b).pending = s.pending := by
  constructor <;> simp [State.latArm]

@[simp] theorem State.latOff_fr (s : State) (n : Nat) :
    (State.latOff s n).anchor.core = s.anchor.core ∧ (State.latOff s n).pending = s.pending := by
  constructor <;> simp [State.latOff]

@[simp] theorem State.latShow_fr (s : State) (n : Nat) :
    (State.latShow s n).anchor.core = s.anchor.core ∧ (State.latShow s n).pending = s.pending := by
  constructor <;> simp [State.latShow]

@[simp] theorem State.latDrain_fr (s : State) (n k : Nat) :
    (State.latDrain s n k).anchor.core = s.anchor.core ∧ (State.latDrain s n k).pending = s.pending := by
  induction k generalizing s with
  | zero => exact ⟨rfl, rfl⟩
  | succ k ih =>
    simp only [State.latDrain]
    split
    · exact ⟨rfl, rfl⟩
    · split
      · simp [ih]
      · exact ⟨rfl, rfl⟩

@[simp] theorem State.latPush_fr (s : State) (n : Nat) (r : LatRec) :
    (State.latPush s n r).anchor.core = s.anchor.core ∧ (State.latPush s n r).pending = s.pending := by
  constructor <;> simp [State.latPush]

@[simp] theorem State.latWrite_fr (s : State) (n : Nat) (w : LatWait) (t : FTime) (pos : BitVec 48) (flags : Nat) :
    (State.latWrite s n w t pos flags).anchor.core = s.anchor.core ∧ (State.latWrite s n w t pos flags).pending = s.pending := by
  constructor <;> simp [State.latWrite]

@[simp] theorem State.capture_fr (s : State) (n : Nat) (u : Nat) (src : Nat) (rising : Bool) (t : FTime) :
    (State.capture s n u src rising t).anchor.core = s.anchor.core ∧ (State.capture s n u src rising t).pending = s.pending := by
  constructor <;> (unfold State.capture; (try dsimp only); (repeat' split) <;> simp_all)

@[simp] theorem State.latEdge_fr (s : State) (n : Nat) (src : Nat) (rising : Bool) (t : FTime) :
    (State.latEdge s n src rising t).anchor.core = s.anchor.core ∧ (State.latEdge s n src rising t).pending = s.pending := by
  constructor <;> simp [State.latEdge]

@[simp] theorem State.latOffer_fr (s : State) (src : Nat) (rising : Bool) (t : FTime) :
    (State.latOffer s src rising t).anchor.core = s.anchor.core ∧ (State.latOffer s src rising t).pending = s.pending := by
  constructor <;> simp [State.latOffer]

theorem execLatchCapture_fr (n : Fin 256) (unit : Fin 2) (src : BitVec 6) (rising : Bool) (s : State) : ∃ s', (execLatchCapture n unit src rising s) = .next s' ∧ s'.anchor.core = s.anchor.core ∧ s'.pending = s.pending := by
  unfold execLatchCapture
  (try dsimp only)
  (repeat' split) <;> exact ⟨_, rfl, by simp, by simp⟩

@[simp] theorem State.latResolve_fr (s : State) (n : Nat) (missing : Bool) :
    (State.latResolve s n missing).anchor.core = s.anchor.core ∧ (State.latResolve s n missing).pending = s.pending := by
  unfold State.latResolve
  extract_lets ws one
  have h := foldl_fr one ws (s.updAx n (fun a => { a with latWait := [] })) (fun s x => by simp only [one]; split <;> simp)
  rw [(State.latShow_fr _ _).1, (State.latShow_fr _ _).2]
  exact h

theorem execLatchWaitResolve_fr (n : Fin 256) (missing : Bool) (s : State) : ∃ s', (execLatchWaitResolve n missing s) = .next s' ∧ s'.anchor.core = s.anchor.core ∧ s'.pending = s.pending := by
  unfold execLatchWaitResolve
  (try dsimp only)
  (repeat' split) <;> exact ⟨_, rfl, by simp, by simp⟩

theorem execLatchRepost_fr (n : Fin 256) (s : State) : ∃ s', (execLatchRepost n s) = .next s' ∧ s'.anchor.core = s.anchor.core ∧ s'.pending = s.pending := by
  unfold execLatchRepost
  (try dsimp only)
  (repeat' split) <;> exact ⟨_, rfl, by simp, by simp⟩

@[simp] theorem latCtlWritten_fr (n : Nat) (v : Word) (s : State) :
    (latCtlWritten n v s).anchor.core = s.anchor.core ∧ (latCtlWritten n v s).pending = s.pending := by
  constructor <;> simp [latCtlWritten]

theorem execLatCtlArm_fr (via : RegPath) (n : Fin 256) (v : Word) (s : State) : ∃ s', (execLatCtlArm via n v s) = .next s' ∧ s'.anchor.core = s.anchor.core ∧ s'.pending = s.pending := by
  unfold execLatCtlArm
  (try dsimp only)
  (repeat' split) <;> exact ⟨_, rfl, by simp, by simp⟩

theorem execLatCtlDisarm_fr (via : RegPath) (n : Fin 256) (v : Word) (s : State) : ∃ s', (execLatCtlDisarm via n v s) = .next s' ∧ s'.anchor.core = s.anchor.core ∧ s'.pending = s.pending := by
  unfold execLatCtlDisarm
  (try dsimp only)
  (repeat' split) <;> exact ⟨_, rfl, by simp, by simp⟩

theorem execLatCtlFlush_fr (via : RegPath) (n : Fin 256) (v : Word) (s : State) : ∃ s', (execLatCtlFlush via n v s) = .next s' ∧ s'.anchor.core = s.anchor.core ∧ s'.pending = s.pending := by
  unfold execLatCtlFlush
  (try dsimp only)
  (repeat' split) <;> exact ⟨_, rfl, by simp, by simp⟩

theorem execTimeComparatorFire_fr (n : Fin 8) (s : State) : ∃ s', (execTimeComparatorFire n s) = .next s' ∧ s'.anchor.core = s.anchor.core ∧ s'.pending = s.pending := by
  unfold execTimeComparatorFire
  (try dsimp only)
  (repeat' split) <;> exact ⟨_, rfl, by simp, by simp⟩

theorem execTsiEdge_fr (k : Fin 4) (rising : Bool) (s : State) : ∃ s', (execTsiEdge k rising s) = .next s' ∧ s'.anchor.core = s.anchor.core ∧ s'.pending = s.pending := by
  unfold execTsiEdge
  (try dsimp only)
  (repeat' split) <;> exact ⟨_, rfl, by simp, by simp⟩

@[simp] theorem mboLatPop_fr (i : BitVec 14) (s : State) :
    (mboLatPop i s).st.anchor.core = s.anchor.core ∧ (mboLatPop i s).st.pending = s.pending := by
  refine axisIdx_fr _ _ _ (fun n => ?_)
  split
  · exact ⟨rfl, rfl⟩
  · dsimp only
    exact ⟨by simp, by simp⟩

theorem execLatPop_fr (set : Fin 4) (via : RegPath) (index : BitVec 14) (s : State) : ∃ s', (execLatPop set via index s) = .next s' ∧ s'.anchor.core = s.anchor.core ∧ s'.pending = s.pending := by
  unfold execLatPop
  (try dsimp only)
  (repeat' split) <;> exact ⟨_, rfl, by simp, by simp⟩

/-! ### FieldIo -/

@[simp] theorem State.bitSet_fr (s : State) (o : Nat) (i : Nat) (b : Bool) :
    (State.bitSet s o i b).anchor.core = s.anchor.core ∧ (State.bitSet s o i b).pending = s.pending := by
  constructor <;> simp [State.bitSet]

@[simp] theorem State.finAccepted_fr (s : State) (n : Nat) (level : Bool) (stamp : FTime) (cpl : Bool) :
    (State.finAccepted s n level stamp cpl).anchor.core = s.anchor.core ∧ (State.finAccepted s n level stamp cpl).pending = s.pending := by
  constructor <;> simp [State.finAccepted]

@[simp] theorem State.finDue_fr (s : State) (n : Nat) :
    (State.finDue s n).anchor.core = s.anchor.core ∧ (State.finDue s n).pending = s.pending := by
  constructor <;> (unfold State.finDue; (try dsimp only); (repeat' split) <;> simp_all)

@[simp] theorem State.finRaw_fr (s : State) (n : Nat) (level : Bool) :
    (State.finRaw s n level).anchor.core = s.anchor.core ∧ (State.finRaw s n level).pending = s.pending := by
  constructor <;> simp [State.finRaw]

@[simp] theorem State.finRestore_fr (s : State) (n : Nat) (level : Bool) :
    (State.finRestore s n level).anchor.core = s.anchor.core ∧ (State.finRestore s n level).pending = s.pending := by
  constructor <;> simp [State.finRestore]

theorem execFinRawEdge_fr (n : Fin 32) (level : Bool) (s : State) : ∃ s', (execFinRawEdge n level s) = .next s' ∧ s'.anchor.core = s.anchor.core ∧ s'.pending = s.pending := by
  unfold execFinRawEdge
  (try dsimp only)
  (repeat' split) <;> exact ⟨_, rfl, by simp, by simp⟩

theorem execFinEdgeAccept_fr (n : Fin 32) (s : State) : ∃ s', (execFinEdgeAccept n s) = .next s' ∧ s'.anchor.core = s.anchor.core ∧ s'.pending = s.pending := by
  unfold execFinEdgeAccept
  (try dsimp only)
  (repeat' split) <;> exact ⟨_, rfl, by simp, by simp⟩

theorem execFinCouplerError_fr (n : Fin 32) (s : State) : ∃ s', (execFinCouplerError n s) = .next s' ∧ s'.anchor.core = s.anchor.core ∧ s'.pending = s.pending := by
  unfold execFinCouplerError
  (try dsimp only)
  (repeat' split) <;> exact ⟨_, rfl, by simp, by simp⟩

theorem execFinCouplerRestore_fr (n : Fin 32) (level : Bool) (s : State) : ∃ s', (execFinCouplerRestore n level s) = .next s' ∧ s'.anchor.core = s.anchor.core ∧ s'.pending = s.pending := by
  unfold execFinCouplerRestore
  (try dsimp only)
  (repeat' split) <;> exact ⟨_, rfl, by simp, by simp⟩

@[simp] theorem State.foutTake_fr (s : State) (k : Nat) :
    (State.foutTake s k).anchor.core = s.anchor.core ∧ (State.foutTake s k).pending = s.pending := by
  constructor <;> simp [State.foutTake]

@[simp] theorem State.foutClear_fr (s : State) (k : Nat) :
    (State.foutClear s k).anchor.core = s.anchor.core ∧ (State.foutClear s k).pending = s.pending := by
  constructor <;> (unfold State.foutClear; (try dsimp only); (repeat' split) <;> simp_all)

@[simp] theorem State.foutAct_fr (s : State) (k : Nat) (op : Nat) (pw : Nat) :
    (State.foutAct s k op pw).anchor.core = s.anchor.core ∧ (State.foutAct s k op pw).pending = s.pending := by
  constructor <;> simp [State.foutAct]

@[simp] theorem foutWritten_fr (v : Word) (s : State) :
    (foutWritten v s).anchor.core = s.anchor.core ∧ (foutWritten v s).pending = s.pending := by
  constructor <;> simp [foutWritten]

theorem execFoutWrite_fr (via : RegPath) (v : Word) (s : State) : ∃ s', (execFoutWrite via v s) = .next s' ∧ s'.anchor.core = s.anchor.core ∧ s'.pending = s.pending := by
  unfold execFoutWrite
  (try dsimp only)
  (repeat' split) <;> exact ⟨_, rfl, by simp, by simp⟩

theorem execFoutPulseClear_fr (k : Fin 16) (s : State) : ∃ s', (execFoutPulseClear k s) = .next s' ∧ s'.anchor.core = s.anchor.core ∧ s'.pending = s.pending := by
  unfold execFoutPulseClear
  (try dsimp only)
  (repeat' split) <;> exact ⟨_, rfl, by simp, by simp⟩

theorem execFoutRefresh_fr (k : Fin 16) (s : State) : ∃ s', (execFoutRefresh k s) = .next s' ∧ s'.anchor.core = s.anchor.core ∧ s'.pending = s.pending := by
  unfold execFoutRefresh
  (try dsimp only)
  (repeat' split) <;> exact ⟨_, rfl, by simp, by simp⟩

theorem execFoutSilence_fr (k : Fin 16) (s : State) : ∃ s', (execFoutSilence k s) = .next s' ∧ s'.anchor.core = s.anchor.core ∧ s'.pending = s.pending := by
  unfold execFoutSilence
  (try dsimp only)
  (repeat' split) <;> exact ⟨_, rfl, by simp, by simp⟩

@[simp] theorem State.tclr_fr (s : State) (k : Nat) (hot : Bool) :
    (State.tclr s k hot).anchor.core = s.anchor.core ∧ (State.tclr s k hot).pending = s.pending := by
  constructor <;> simp [State.tclr]

@[simp] theorem State.silclr_fr (s : State) (k : Nat) :
    (State.silclr s k).anchor.core = s.anchor.core ∧ (State.silclr s k).pending = s.pending := by
  constructor <;> simp [State.silclr]

@[simp] theorem fioCmdWritten_fr (v : Word) (hot : Nat) (s : State) :
    (fioCmdWritten v hot s).anchor.core = s.anchor.core ∧ (fioCmdWritten v hot s).pending = s.pending := by
  constructor <;> simp [fioCmdWritten]

theorem execSilclr_fr (via : RegPath) (mask : BitVec 16) (s : State) : ∃ s', (execSilclr via mask s) = .next s' ∧ s'.anchor.core = s.anchor.core ∧ s'.pending = s.pending := by
  unfold execSilclr
  (try dsimp only)
  (repeat' split) <;> exact ⟨_, rfl, by simp, by simp⟩

theorem execTclr_fr (via : RegPath) (mask : BitVec 16) (hot : BitVec 16) (s : State) : ∃ s', (execTclr via mask hot s) = .next s' ∧ s'.anchor.core = s.anchor.core ∧ s'.pending = s.pending := by
  unfold execTclr
  (try dsimp only)
  (repeat' split) <;> exact ⟨_, rfl, by simp, by simp⟩

theorem execThermalShutdown_fr (k : Fin 16) (s : State) : ∃ s', (execThermalShutdown k s) = .next s' ∧ s'.anchor.core = s.anchor.core ∧ s'.pending = s.pending := by
  unfold execThermalShutdown
  (try dsimp only)
  (repeat' split) <;> exact ⟨_, rfl, by simp, by simp⟩

theorem execThermalRetry_fr (k : Fin 16) (s : State) : ∃ s', (execThermalRetry k s) = .next s' ∧ s'.anchor.core = s.anchor.core ∧ s'.pending = s.pending := by
  unfold execThermalRetry
  (try dsimp only)
  (repeat' split) <;> exact ⟨_, rfl, by simp, by simp⟩

theorem execOpenLoad_fr (k : Fin 16) (s : State) : ∃ s', (execOpenLoad k s) = .next s' ∧ s'.anchor.core = s.anchor.core ∧ s'.pending = s.pending := by
  unfold execOpenLoad
  (try dsimp only)
  (repeat' split) <;> exact ⟨_, rfl, by simp, by simp⟩

theorem execFoutCurrentLimit_fr (k : Fin 16) (s : State) : ∃ s', (execFoutCurrentLimit k s) = .next s' ∧ s'.anchor.core = s.anchor.core ∧ s'.pending = s.pending := by
  unfold execFoutCurrentLimit
  (try dsimp only)
  (repeat' split) <;> exact ⟨_, rfl, by simp, by simp⟩

@[simp] theorem State.fieldDieReset_fr (s : State) :
    (State.fieldDieReset s).anchor.core = s.anchor.core ∧ (State.fieldDieReset s).pending = s.pending := by
  constructor <;> simp [State.fieldDieReset]

theorem execFieldDieRestore_fr (s : State) : ∃ s', (execFieldDieRestore s) = .next s' ∧ s'.anchor.core = s.anchor.core ∧ s'.pending = s.pending := by
  unfold execFieldDieRestore
  (try dsimp only)
  (repeat' split) <;> exact ⟨_, rfl, by simp, by simp⟩

@[simp] theorem mboFioEdge_fr (i : BitVec 14) (s : State) :
    (mboFioEdge i s).st.anchor.core = s.anchor.core ∧ (mboFioEdge i s).st.pending = s.pending := by
  constructor <;> simp [mboFioEdge]

theorem execFioEdge_fr (set : Fin 4) (via : RegPath) (index : BitVec 14) (s : State) : ∃ s', (execFioEdge set via index s) = .next s' ∧ s'.anchor.core = s.anchor.core ∧ s'.pending = s.pending := by
  unfold execFioEdge
  (try dsimp only)
  (repeat' split) <;> exact ⟨_, rfl, by simp, by simp⟩

/-! ### Compare -/

@[simp] theorem State.cmpReport_fr (s : State) (i : Nat) (code : Nat) (t : FTime) (latT : Word) (latCnt : Word) (pred : Bool) :
    (State.cmpReport s i code t latT latCnt pred).anchor.core = s.anchor.core ∧ (State.cmpReport s i code t latT latCnt pred).pending = s.pending := by
  constructor <;> simp [State.cmpReport]

@[simp] theorem State.cmpFree_fr (s : State) (i : Nat) (fired : Bool) :
    (State.cmpFree s i fired).anchor.core = s.anchor.core ∧ (State.cmpFree s i fired).pending = s.pending := by
  constructor <;> simp [State.cmpFree]

@[simp] theorem State.cmpSend_fr (s : State) (i : Nat) :
    (State.cmpSend s i).anchor.core = s.anchor.core ∧ (State.cmpSend s i).pending = s.pending := by
  constructor <;> simp [State.cmpSend]

@[simp] theorem State.cmpFire_fr (s : State) (i : Nat) (tf : FTime) (latT : Int) (latCnt : Int) (pred : Bool) (late : Bool) :
    (State.cmpFire s i tf latT latCnt pred late).anchor.core = s.anchor.core ∧ (State.cmpFire s i tf latT latCnt pred late).pending = s.pending := by
  constructor <;> simp [State.cmpFire]

@[simp] theorem State.cmpDiscard_fr (s : State) (i : Nat) :
    (State.cmpDiscard s i).anchor.core = s.anchor.core ∧ (State.cmpDiscard s i).pending = s.pending := by
  constructor <;> simp [State.cmpDiscard]

@[simp] theorem State.cmpPredict_fr (s : State) (i : Nat) (t : FTime) (p : Int) :
    (State.cmpPredict s i t p).anchor.core = s.anchor.core ∧ (State.cmpPredict s i t p).pending = s.pending := by
  constructor <;> (unfold State.cmpPredict; (try dsimp only); (repeat' split) <;> simp_all)

@[simp] theorem State.cmpInsert_fr (s : State) (i : Nat) :
    (State.cmpInsert s i).anchor.core = s.anchor.core ∧ (State.cmpInsert s i).pending = s.pending := by
  constructor <;> (unfold State.cmpInsert; (try dsimp only); (repeat' split) <;> simp_all)

@[simp] theorem State.cmpAdd_fr (s : State) (l : List (Nat × BitVec 256)) :
    (State.cmpAdd s l).anchor.core = s.anchor.core ∧ (State.cmpAdd s l).pending = s.pending := by
  simp [State.cmpAdd]

@[simp] theorem State.cmpEvalOne_fr (s : State) (i : Nat) (prev : Option (FTime × Val)) (t : FTime) (p : Int) :
    (State.cmpEvalOne s i prev t p).anchor.core = s.anchor.core ∧ (State.cmpEvalOne s i prev t p).pending = s.pending := by
  constructor <;> simp [State.cmpEvalOne]

@[simp] theorem State.cmpEval_fr (s : State) (n : Nat) (psrc : Nat) (t : FTime) (p : Val) :
    (State.cmpEval s n psrc t p).anchor.core = s.anchor.core ∧ (State.cmpEval s n psrc t p).pending = s.pending := by
  constructor <;> simp [State.cmpEval]

@[simp] theorem State.cmpShift_fr (s : State) (n : Nat) (psrc : Nat) (d : Int) (post : Val) :
    (State.cmpShift s n psrc d post).anchor.core = s.anchor.core ∧ (State.cmpShift s n psrc d post).pending = s.pending := by
  constructor <;> (unfold State.cmpShift; (try dsimp only); (repeat' split) <;> simp_all)

@[simp] theorem State.cmpDel_fr (s : State) (i : Nat) :
    (State.cmpDel s i).1.anchor.core = s.anchor.core ∧ (State.cmpDel s i).1.pending = s.pending := by
  constructor <;> (unfold State.cmpDel; (try dsimp only); (repeat' split) <;> simp_all)

theorem State.cmpDel_eqfr (s : State) (i : Nat) {sa sb} (hq : (State.cmpDel s i) = (sa, sb)) :
    sa.anchor.core = s.anchor.core ∧ sa.pending = s.pending := by
  have hp := State.cmpDel_fr s i; rw [hq] at hp; exact hp

@[simp] theorem State.cmpAxisOff_fr (s : State) (n : Nat) :
    (State.cmpAxisOff s n).anchor.core = s.anchor.core ∧ (State.cmpAxisOff s n).pending = s.pending := by
  constructor <;> simp [State.cmpAxisOff]

@[simp] theorem State.cmpSuspend_fr (s : State) (g : Nat) :
    (State.cmpSuspend s g).anchor.core = s.anchor.core ∧ (State.cmpSuspend s g).pending = s.pending := by
  constructor <;> simp [State.cmpSuspend]

@[simp] theorem State.cmpResume_fr (s : State) (g : Nat) :
    (State.cmpResume s g).anchor.core = s.anchor.core ∧ (State.cmpResume s g).pending = s.pending := by
  constructor <;> simp [State.cmpResume]

@[simp] theorem State.cmpFact_fr (s : State) (g : Nat) :
    (State.cmpFact s g).anchor.core = s.anchor.core ∧ (State.cmpFact s g).pending = s.pending := by
  constructor <;> (unfold State.cmpFact; (try dsimp only); (repeat' split) <;> simp_all)

theorem execCompareFire_fr (i : Fin 16384) (s : State) : ∃ s', (execCompareFire i s) = .next s' ∧ s'.anchor.core = s.anchor.core ∧ s'.pending = s.pending := by
  unfold execCompareFire
  (try dsimp only)
  (repeat' split) <;> exact ⟨_, rfl, by simp, by simp⟩

@[simp] theorem State.cmpDone_fr (s : State) (i : Nat) :
    (State.cmpDone s i).anchor.core = s.anchor.core ∧ (State.cmpDone s i).pending = s.pending := by
  constructor <;> simp [State.cmpDone]

theorem execCompareAction_fr (i : Fin 16384) (s : State) :
    ∃ s', execCompareAction i s = .next s' ∧ s'.anchor.core = s.anchor.core ∧ s'.pending = s.pending := by
  unfold execCompareAction
  extract_lets e s1 s2 s3 s4 s5
  have h1 : s1.anchor.core = s.anchor.core ∧ s1.pending = s.pending := by simp [s1]
  have h2 : s2.anchor.core = s.anchor.core ∧ s2.pending = s.pending := by simp [s2, h1]
  have h3 : s3.anchor.core = s.anchor.core ∧ s3.pending = s.pending := by simp [s3, h2]
  have h4 : s4.anchor.core = s.anchor.core ∧ s4.pending = s.pending := by simp [s4, h3]
  have h5 : s5.anchor.core = s.anchor.core ∧ s5.pending = s.pending := by simp [s5, h1, h4]
  split
  · exact ⟨_, rfl, rfl, rfl⟩
  · exact ⟨_, rfl, by simp [h5], by simp [h5]⟩

theorem execWinExpire_fr (i : Fin 16384) (s : State) : ∃ s', (execWinExpire i s) = .next s' ∧ s'.anchor.core = s.anchor.core ∧ s'.pending = s.pending := by
  unfold execWinExpire
  (try dsimp only)
  (repeat' split) <;> exact ⟨_, rfl, by simp, by simp⟩

@[simp] theorem cmpRgWritten_fr (g : Nat) (v : Word) (s : State) :
    (cmpRgWritten g v s).anchor.core = s.anchor.core ∧ (cmpRgWritten g v s).pending = s.pending := by
  constructor <;> simp [cmpRgWritten]

theorem execCmpRgResume_fr (via : RegPath) (g : Fin 64) (v : Word) (s : State) : ∃ s', (execCmpRgResume via g v s) = .next s' ∧ s'.anchor.core = s.anchor.core ∧ s'.pending = s.pending := by
  unfold execCmpRgResume
  (try dsimp only)
  (repeat' split) <;> exact ⟨_, rfl, by simp, by simp⟩

@[simp] theorem State.cmpRelease_fr (s : State) :
    (State.cmpRelease s).anchor.core = s.anchor.core ∧ (State.cmpRelease s).pending = s.pending := by
  constructor <;> simp [State.cmpRelease]

@[simp] theorem mboCmpRead_fr (i : BitVec 14) (s : State) :
    (mboCmpRead i s).st.anchor.core = s.anchor.core ∧ (mboCmpRead i s).st.pending = s.pending := by
  constructor <;> simp [mboCmpRead]

@[simp] theorem mboCmpInfo_fr (i : BitVec 14) (s : State) :
    (mboCmpInfo i s).st.anchor.core = s.anchor.core ∧ (mboCmpInfo i s).st.pending = s.pending := by
  constructor <;> simp [mboCmpInfo]

theorem execCmpRead_fr (set : Fin 4) (via : RegPath) (index : BitVec 14) (s : State) : ∃ s', (execCmpRead set via index s) = .next s' ∧ s'.anchor.core = s.anchor.core ∧ s'.pending = s.pending := by
  unfold execCmpRead
  (try dsimp only)
  (repeat' split) <;> exact ⟨_, rfl, by simp, by simp⟩

theorem execCmpInfo_fr (set : Fin 4) (via : RegPath) (index : BitVec 14) (s : State) : ∃ s', (execCmpInfo set via index s) = .next s' ∧ s'.anchor.core = s.anchor.core ∧ s'.pending = s.pending := by
  unfold execCmpInfo
  (try dsimp only)
  (repeat' split) <;> exact ⟨_, rfl, by simp, by simp⟩

/-! ### LaneEvt -/

@[simp] theorem State.setRole_fr (s : State) (l : Nat) (r : Nat) :
    (State.setRole s l r).anchor.core = s.anchor.core ∧ (State.setRole s l r).pending = s.pending := by
  constructor <;> simp [State.setRole]

@[simp] theorem State.showRoles_fr (s : State) :
    (State.showRoles s).anchor.core = s.anchor.core ∧ (State.showRoles s).pending = s.pending := by
  constructor <;> simp [State.showRoles]

@[simp] theorem State.lostRefresh_fr (s : State) :
    (State.lostRefresh s).anchor.core = s.anchor.core ∧ (State.lostRefresh s).pending = s.pending := by
  unfold State.lostRefresh
  extract_lets
  split
  · exact ⟨rfl, rfl⟩
  · exact ⟨rfl, rfl⟩

@[simp] theorem State.flogCommit_fr (s : State) (src : Nat) (dst : Nat) (moved : Nat) :
    (State.flogCommit s src dst moved).anchor.core = s.anchor.core ∧ (State.flogCommit s src dst moved).pending = s.pending := by
  constructor <;> simp [State.flogCommit]

@[simp] theorem State.migEnd_fr (s : State) (m : Migration) (status : Nat) :
    (State.migEnd s m status).anchor.core = s.anchor.core ∧ (State.migEnd s m status).pending = s.pending := by
  constructor <;> (unfold State.migEnd; (try dsimp only); (repeat' split) <;> simp_all)

@[simp] theorem State.frameCheck_fr (s : State) (k : Nat) :
    (State.frameCheck s k).anchor.core = s.anchor.core ∧ (State.frameCheck s k).pending = s.pending := by
  constructor <;> simp [State.frameCheck]

@[simp] theorem State.commitRec_fr (s : State) (k : Nat) (c : Nat) (r : BitVec 128) :
    (State.commitRec s k c r).anchor.core = s.anchor.core ∧ (State.commitRec s k c r).pending = s.pending := by
  constructor <;> simp [State.commitRec]

@[simp] theorem State.laneOff_fr (s : State) (l : Nat) :
    (State.laneOff s l).anchor.core = s.anchor.core ∧ (State.laneOff s l).pending = s.pending := by
  constructor <;> simp [State.laneOff]

@[simp] theorem State.evqShow_fr (s : State) (l : Nat) :
    (State.evqShow s l).anchor.core = s.anchor.core ∧ (State.evqShow s l).pending = s.pending := by
  constructor <;> simp [State.evqShow]

@[simp] theorem State.trapLane_fr (s : State) (l : Nat) (code : Nat) :
    (State.trapLane s l code).anchor.core = s.anchor.core ∧ (State.trapLane s l code).pending = s.pending := by
  constructor <;> (unfold State.trapLane; (try dsimp only); (repeat' split) <;> simp_all)

@[simp] theorem State.trace_fr (s : State) (n : Nat) (tk : FTime) :
    (State.trace s n tk).anchor.core = s.anchor.core ∧ (State.trace s n tk).pending = s.pending := by
  constructor <;> simp [State.trace]

@[simp] theorem State.traceEvent_fr (s : State) (l : Nat) (e : LEvent) :
    (State.traceEvent s l e).anchor.core = s.anchor.core ∧ (State.traceEvent s l e).pending = s.pending := by
  constructor <;> simp [State.traceEvent]

@[simp] theorem State.raiseEvent_fr (s : State) (l : Nat) (e : LEvent) :
    (State.raiseEvent s l e).anchor.core = s.anchor.core ∧ (State.raiseEvent s l e).pending = s.pending := by
  constructor <;> simp [State.raiseEvent]

@[simp] theorem State.cfgWrite_fr (s : State) (k : Nat) (addr : Nat) (v : Word) :
    (State.cfgWrite s k addr v).anchor.core = s.anchor.core ∧ (State.cfgWrite s k addr v).pending = s.pending := by
  constructor <;> simp [State.cfgWrite]

/-! ### Axis -/

@[simp] theorem State.setStage_fr (s : State) (n : Nat) (st : Nat) (t : FTime) :
    (State.setStage s n st t).anchor.core = s.anchor.core ∧ (State.setStage s n st t).pending = s.pending := by
  constructor <;> simp [State.setStage]

@[simp] theorem State.startReaction_fr (s : State) (n : Nat) (w : Int) (t : FTime) :
    (State.startReaction s n w t).anchor.core = s.anchor.core ∧ (State.startReaction s n w t).pending = s.pending := by
  constructor <;> (unfold State.startReaction; (try dsimp only); (repeat' split) <;> simp_all)

@[simp] theorem State.genShift_fr (s : State) (n : Nat) (d : Int) (t : FTime) :
    (State.genShift s n d t).anchor.core = s.anchor.core ∧ (State.genShift s n d t).pending = s.pending := by
  constructor <;> simp [State.genShift]

@[simp] theorem State.masterShift_fr (s : State) (n : Nat) (d : Int) :
    (State.masterShift s n d).anchor.core = s.anchor.core ∧ (State.masterShift s n d).pending = s.pending := by
  constructor <;> simp [State.masterShift]

@[simp] theorem State.angleShift_fr (s : State) (n : Nat) (d : Int) :
    (State.angleShift s n d).anchor.core = s.anchor.core ∧ (State.angleShift s n d).pending = s.pending := by
  constructor <;> simp [State.angleShift]

@[simp] theorem State.applyShifts_fr (s : State) (n : Nat) (tb : FTime) :
    (State.applyShifts s n tb).anchor.core = s.anchor.core ∧ (State.applyShifts s n tb).pending = s.pending := by
  constructor <;> simp [State.applyShifts]

@[simp] theorem State.stateEvent_fr (s : State) (n : Nat) (old : Nat) (new : Nat) (code : Nat) (t : FTime) :
    (State.stateEvent s n old new code t).anchor.core = s.anchor.core ∧ (State.stateEvent s n old new code t).pending = s.pending := by
  constructor <;> simp [State.stateEvent]

@[simp] theorem State.recordCause_fr (s : State) (n : Nat) (code : Nat) :
    (State.recordCause s n code).anchor.core = s.anchor.core ∧ (State.recordCause s n code).pending = s.pending := by
  constructor <;> simp [State.recordCause]

@[simp] theorem State.clearLoops_fr (s : State) (n : Nat) :
    (State.clearLoops s n).anchor.core = s.anchor.core ∧ (State.clearLoops s n).pending = s.pending := by
  constructor <;> simp [State.clearLoops]

@[simp] theorem State.restAtPos_fr (s : State) (n : Nat) (p : Val) (t : FTime) :
    (State.restAtPos s n p t).anchor.core = s.anchor.core ∧ (State.restAtPos s n p t).pending = s.pending := by
  constructor <;> simp [State.restAtPos]

@[simp] theorem State.freshDelay_fr (s : State) (n : Nat) :
    (State.freshDelay s n).anchor.core = s.anchor.core ∧ (State.freshDelay s n).pending = s.pending := by
  constructor <;> simp [State.freshDelay]

@[simp] theorem State.freshComparators_fr (s : State) (n : Nat) :
    (State.freshComparators s n).anchor.core = s.anchor.core ∧ (State.freshComparators s n).pending = s.pending := by
  constructor <;> simp [State.freshComparators]

@[simp] theorem State.groupFault_fr (s : State) (n : Nat) :
    (State.groupFault s n).anchor.core = s.anchor.core ∧ (State.groupFault s n).pending = s.pending := by
  constructor <;> simp [State.groupFault]

@[simp] theorem State.igStop_fr (s : State) (n : Nat) (kind : Nat) :
    (State.igStop s n kind).anchor.core = s.anchor.core ∧ (State.igStop s n kind).pending = s.pending := by
  constructor <;> simp [State.igStop]

@[simp] theorem State.genRestart_fr (s : State) (n : Nat) (t : FTime) :
    (State.genRestart s n t).anchor.core = s.anchor.core ∧ (State.genRestart s n t).pending = s.pending := by
  constructor <;> simp [State.genRestart]

@[simp] theorem State.enter_fr (s : State) (n : Nat) (new : Nat) (skind : Nat) (t : FTime) :
    (State.enter s n new skind t).anchor.core = s.anchor.core ∧ (State.enter s n new skind t).pending = s.pending := by
  constructor <;> simp [State.enter]

@[simp] theorem State.stopAck_fr (s : State) (cmd : Option Nat) (took : Bool) :
    (State.stopAck s cmd took).anchor.core = s.anchor.core ∧ (State.stopAck s cmd took).pending = s.pending := by
  constructor <;> (unfold State.stopAck; (try dsimp only); (repeat' split) <;> simp_all)

@[simp] theorem State.reqAck_fr (s : State) (cmd : Option Nat) (took : Bool) :
    (State.reqAck s cmd took).anchor.core = s.anchor.core ∧ (State.reqAck s cmd took).pending = s.pending := by
  constructor <;> (unfold State.reqAck; (try dsimp only); (repeat' split) <;> simp_all)

@[simp] theorem State.axRefuse_fr (s : State) (n : Nat) :
    (State.axRefuse s n).anchor.core = s.anchor.core ∧ (State.axRefuse s n).pending = s.pending := by
  constructor <;> simp [State.axRefuse]

@[simp] theorem keepFor_fr (s : State) (moved : Bool) :
    (keepFor s moved).st.anchor.core = s.anchor.core ∧ (keepFor s moved).st.pending = s.pending := by
  constructor <;> simp [keepFor]

@[simp] theorem tookNo_fr (s : State) (moved : Bool) :
    (tookNo s moved).st.anchor.core = s.anchor.core ∧ (tookNo s moved).st.pending = s.pending := by
  constructor <;> simp [tookNo]

@[simp] theorem State.goTo_fr (s : State) (n : Nat) (new : Nat) (skind : Nat) (t : FTime) (moved : Bool) (pre : State → State) (post : State → State) (h0 : ∀ x0, (pre x0).anchor.core = x0.anchor.core ∧ (pre x0).pending = x0.pending) (h1 : ∀ x0, (post x0).anchor.core = x0.anchor.core ∧ (post x0).pending = x0.pending) :
    (State.goTo s n new skind t moved pre post).st.anchor.core = s.anchor.core ∧ (State.goTo s n new skind t moved pre post).st.pending = s.pending := by
  constructor <;> simp [State.goTo, h0, h1]

@[simp] theorem State.raiseKind_fr (s : State) (n : Nat) (k : Nat) :
    (State.raiseKind s n k).anchor.core = s.anchor.core ∧ (State.raiseKind s n k).pending = s.pending := by
  constructor <;> simp [State.raiseKind]

@[simp] theorem State.takeFault_fr (s : State) (n : Nat) (code : Nat) (stop : Bool) (t : FTime) (moved : Bool) :
    (State.takeFault s n code stop t moved).st.anchor.core = s.anchor.core ∧ (State.takeFault s n code stop t moved).st.pending = s.pending := by
  constructor <;> simp [State.takeFault]

@[simp] theorem State.takeStop_fr (s : State) (n : Nat) (kind : Nat) (cmd : Option Nat) (t : FTime) (moved : Bool) :
    (State.takeStop s n kind cmd t moved).st.anchor.core = s.anchor.core ∧ (State.takeStop s n kind cmd t moved).st.pending = s.pending := by
  constructor <;> simp [State.takeStop]

@[simp] theorem State.fclrActs_fr (s : State) (n : Nat) :
    (State.fclrActs s n).1.anchor.core = s.anchor.core ∧ (State.fclrActs s n).1.pending = s.pending := by
  constructor <;> simp [State.fclrActs]

theorem State.fclrActs_eqfr (s : State) (n : Nat) {sa sb} (hq : (State.fclrActs s n) = (sa, sb)) :
    sa.anchor.core = s.anchor.core ∧ sa.pending = s.pending := by
  have hp := State.fclrActs_fr s n; rw [hq] at hp; exact hp

@[simp] theorem State.enableTo_fr (s : State) (n : Nat) :
    (State.enableTo s n).1.anchor.core = s.anchor.core ∧ (State.enableTo s n).1.pending = s.pending := by
  constructor <;> simp [State.enableTo]

theorem State.enableTo_eqfr (s : State) (n : Nat) {sa sb} (hq : (State.enableTo s n) = (sa, sb)) :
    sa.anchor.core = s.anchor.core ∧ sa.pending = s.pending := by
  have hp := State.enableTo_fr s n; rw [hq] at hp; exact hp

@[simp] theorem State.takeReq_fr (s : State) (n : Nat) (r : Req) (cmd : Option Nat) (t : FTime) (moved : Bool) :
    (State.takeReq s n r cmd t moved).st.anchor.core = s.anchor.core ∧ (State.takeReq s n r cmd t moved).st.pending = s.pending := by
  unfold State.takeReq
  extract_lets x yes no
  have hy : ∀ s, (yes s).anchor.core = s.anchor.core ∧ (yes s).pending = s.pending := fun s => by simp [yes]
  have hn : ∀ s, (no s).st.anchor.core = s.anchor.core ∧ (no s).st.pending = s.pending := fun s => by simp [no]
  cases r
  · dsimp only; (repeat' split) <;> simp [hy, hn]
  · dsimp only
    split
    · simp [hn]
    · split
      · simp [hn]
      · split
        · simp
        · split
          · rename_i hq; have h := State.enableTo_eqfr _ _ hq; simp [hy, h]
          · rename_i hq; have h := State.enableTo_eqfr _ _ hq; simp [hn, h]
  · dsimp only; (repeat' split) <;> simp [hy, hn]
  · dsimp only; (repeat' split) <;> simp [hy, hn]
  · dsimp only
    split
    · simp [hn]
    · split
      · simp
      · split
        · rename_i hq; have h := State.fclrActs_eqfr _ _ hq; simp [h]
        · rename_i hq; have h := State.fclrActs_eqfr _ _ hq; simp [hn, h]
        · rename_i hq; have h := State.fclrActs_eqfr _ _ hq; simp [hy, h]

@[simp] theorem State.groupRun_fr (s : State) (n : Nat) (op : MotionOp) :
    (State.groupRun s n op).anchor.core = s.anchor.core ∧ (State.groupRun s n op).pending = s.pending := by
  constructor <;> (unfold State.groupRun; (try dsimp only); (repeat' split) <;> simp_all)

@[simp] theorem State.takeMotion_fr (s : State) (n : Nat) (k : Nat) (t : FTime) (moved : Bool) :
    (State.takeMotion s n k t moved).st.anchor.core = s.anchor.core ∧ (State.takeMotion s n k t moved).st.pending = s.pending := by
  constructor <;> (unfold State.takeMotion; (try dsimp only); (repeat' split) <;> simp_all)

@[simp] theorem State.takePoint_fr (s : State) (n : Nat) (pt : FTime) (v : Val) (t : FTime) (moved : Bool) :
    (State.takePoint s n pt v t moved).st.anchor.core = s.anchor.core ∧ (State.takePoint s n pt v t moved).st.pending = s.pending := by
  constructor <;> simp [State.takePoint]

@[simp] theorem State.takeDone_fr (s : State) (n : Nat) (what : Nat) (t : FTime) (moved : Bool) :
    (State.takeDone s n what t moved).st.anchor.core = s.anchor.core ∧ (State.takeDone s n what t moved).st.pending = s.pending := by
  constructor <;> (unfold State.takeDone; (try dsimp only); (repeat' split) <;> simp_all)

@[simp] theorem State.take_fr (s : State) (n : Nat) (c : Cause) (t : FTime) (moved : Bool) :
    (State.take s n c t moved).st.anchor.core = s.anchor.core ∧ (State.take s n c t moved).st.pending = s.pending := by
  constructor <;> (unfold State.take; (try dsimp only); (repeat' split) <;> simp_all)

@[simp] theorem State.takeAll_fr (s : State) (n : Nat) (t : FTime) (cs : List Cause) (moved : Bool) (w : List Cause) :
    (State.takeAll s n t cs moved w).1.anchor.core = s.anchor.core ∧ (State.takeAll s n t cs moved w).1.pending = s.pending := by
  induction cs generalizing s moved w with
  | nil => exact ⟨rfl, rfl⟩
  | cons c cs ih => simp [State.takeAll, ih]

@[simp] theorem State.noteLevels_fr (s : State) (n : Nat) :
    (State.noteLevels s n).anchor.core = s.anchor.core ∧ (State.noteLevels s n).pending = s.pending := by
  constructor <;> simp [State.noteLevels]

@[simp] theorem State.tickEvent_fr (s : State) (n : Nat) (tb : FTime) :
    (State.tickEvent s n tb).anchor.core = s.anchor.core ∧ (State.tickEvent s n tb).pending = s.pending := by
  constructor <;> simp [State.tickEvent]

@[simp] theorem State.stageDue_fr (s : State) (n : Nat) (tb : FTime) :
    (State.stageDue s n tb).anchor.core = s.anchor.core ∧ (State.stageDue s n tb).pending = s.pending := by
  constructor <;> simp [State.stageDue]

theorem execAxisTickBoundary_fr (n : Fin 256) (s : State) : ∃ s', (execAxisTickBoundary n s) = .next s' ∧ s'.anchor.core = s.anchor.core ∧ s'.pending = s.pending := by
  unfold execAxisTickBoundary
  (try dsimp only)
  (repeat' split) <;> exact ⟨_, rfl, by simp, by simp⟩

@[simp] theorem axcCmdWritten_fr (n : Nat) (v : Word) (s : State) :
    (axcCmdWritten n v s).anchor.core = s.anchor.core ∧ (axcCmdWritten n v s).pending = s.pending := by
  constructor <;> simp [axcCmdWritten]

@[simp] theorem State.axcReq_fr (s : State) (via : RegPath) (n : Nat) (b : Bits) :
    (State.axcReq s via n b).anchor.core = s.anchor.core ∧ (State.axcReq s via n b).pending = s.pending := by
  constructor <;> simp [State.axcReq]

theorem execArm_fr (via : RegPath) (n : Fin 256) (s : State) : ∃ s', (execArm via n s) = .next s' ∧ s'.anchor.core = s.anchor.core ∧ s'.pending = s.pending := by
  unfold execArm
  (try dsimp only)
  (repeat' split) <;> exact ⟨_, rfl, by simp, by simp⟩

theorem execEnable_fr (via : RegPath) (n : Fin 256) (s : State) : ∃ s', (execEnable via n s) = .next s' ∧ s'.anchor.core = s.anchor.core ∧ s'.pending = s.pending := by
  unfold execEnable
  (try dsimp only)
  (repeat' split) <;> exact ⟨_, rfl, by simp, by simp⟩

theorem execDisable_fr (via : RegPath) (n : Fin 256) (s : State) : ∃ s', (execDisable via n s) = .next s' ∧ s'.anchor.core = s.anchor.core ∧ s'.pending = s.pending := by
  unfold execDisable
  (try dsimp only)
  (repeat' split) <;> exact ⟨_, rfl, by simp, by simp⟩

theorem execTest_fr (via : RegPath) (n : Fin 256) (s : State) : ∃ s', (execTest via n s) = .next s' ∧ s'.anchor.core = s.anchor.core ∧ s'.pending = s.pending := by
  unfold execTest
  (try dsimp only)
  (repeat' split) <;> exact ⟨_, rfl, by simp, by simp⟩

theorem execFclr_fr (via : RegPath) (n : Fin 256) (s : State) : ∃ s', (execFclr via n s) = .next s' ∧ s'.anchor.core = s.anchor.core ∧ s'.pending = s.pending := by
  unfold execFclr
  (try dsimp only)
  (repeat' split) <;> exact ⟨_, rfl, by simp, by simp⟩

end Sys2Proof.Machine
end

