-- ==== Sys2Proof/Laws/FrameLanes.lean ====
section
/-! SUPPORT. Frames of the bus groups, torque control, lanes, ticks and the access plan: what no definition of them touches, the core of the anchor and the queue. -/
namespace Sys2Proof.Machine

open Sys2Proof

set_option linter.unusedTactic false
set_option linter.unreachableTactic false
set_option linter.unusedSimpArgs false
set_option linter.unnecessarySeqFocus false
set_option linter.unusedVariables false

/-! ### Anchor -/

theorem execAnchorReset_fr (s : State) : ∃ s', (execAnchorReset s) = .next s' ∧ s'.pending = s.pending := by
  unfold execAnchorReset
  (try dsimp only)
  (repeat' split) <;> exact ⟨_, rfl, by simp⟩

theorem execVfieldReturn_fr (s : State) : ∃ s', (execVfieldReturn s) = .next s' ∧ s'.anchor.core = s.anchor.core ∧ s'.pending = s.pending := by
  unfold execVfieldReturn
  (try dsimp only)
  (repeat' split) <;> exact ⟨_, rfl, by simp, by simp⟩

theorem execAnchorSelfTestEnd_fr (pass : Bool) (straps : BitVec 8) (s : State) : ∃ s', (execAnchorSelfTestEnd pass straps s) = .next s' ∧ s'.pending = s.pending := by
  unfold execAnchorSelfTestEnd
  (try dsimp only)
  (repeat' split) <;> exact ⟨_, rfl, by simp⟩

theorem execAnchorInternalFault_fr (code : BitVec 3) (s : State) : ∃ s', (execAnchorInternalFault code s) = .next s' ∧ s'.pending = s.pending := by
  unfold execAnchorInternalFault
  (try dsimp only)
  (repeat' split) <;> exact ⟨_, rfl, by simp⟩

theorem execStrapFault_fr (live : BitVec 8) (liven : BitVec 8) (s : State) : ∃ s', (execStrapFault live liven s) = .next s' ∧ s'.pending = s.pending := by
  unfold execStrapFault
  (try dsimp only)
  (repeat' split) <;> exact ⟨_, rfl, by simp⟩

theorem execGuardChannelChange_fr (ch : Fin 4) (closed : Bool) (s : State) : ∃ s', (execGuardChannelChange ch closed s) = .next s' ∧ s'.pending = s.pending := by
  unfold execGuardChannelChange
  (try dsimp only)
  (repeat' split) <;> exact ⟨_, rfl, by simp⟩

theorem execGuardDiscrepancy_fr (pair : Fin 2) (s : State) : ∃ s', (execGuardDiscrepancy pair s) = .next s' ∧ s'.pending = s.pending := by
  unfold execGuardDiscrepancy
  (try dsimp only)
  (repeat' split) <;> exact ⟨_, rfl, by simp⟩

theorem execStop1Expiry_fr (s : State) : ∃ s', (execStop1Expiry s) = .next s' ∧ s'.pending = s.pending := by
  unfold execStop1Expiry
  (try dsimp only)
  (repeat' split) <;> exact ⟨_, rfl, by simp⟩

theorem execLoopHighSideOn_fr (n : Fin 25) (s : State) : ∃ s', (execLoopHighSideOn n s) = .next s' ∧ s'.pending = s.pending := by
  unfold execLoopHighSideOn
  (try dsimp only)
  (repeat' split) <;> exact ⟨_, rfl, by simp⟩

theorem execLoopClosed_fr (n : Fin 25) (s : State) : ∃ s', (execLoopClosed n s) = .next s' ∧ s'.pending = s.pending := by
  unfold execLoopClosed
  (try dsimp only)
  (repeat' split) <;> exact ⟨_, rfl, by simp⟩

theorem execLoopCloseTimeout_fr (n : Fin 25) (s : State) : ∃ s', (execLoopCloseTimeout n s) = .next s' ∧ s'.pending = s.pending := by
  unfold execLoopCloseTimeout
  (try dsimp only)
  (repeat' split) <;> exact ⟨_, rfl, by simp⟩

theorem execLoopDischargeEnd_fr (n : Fin 25) (s : State) : ∃ s', (execLoopDischargeEnd n s) = .next s' ∧ s'.pending = s.pending := by
  unfold execLoopDischargeEnd
  (try dsimp only)
  (repeat' split) <;> exact ⟨_, rfl, by simp⟩

theorem execLoopOverload_fr (n : Fin 25) (s : State) : ∃ s', (execLoopOverload n s) = .next s' ∧ s'.pending = s.pending := by
  unfold execLoopOverload
  (try dsimp only)
  (repeat' split) <;> exact ⟨_, rfl, by simp⟩

theorem execTestPulseStart_fr (n : Fin 25) (lowSide : Bool) (s : State) : ∃ s', (execTestPulseStart n lowSide s) = .next s' ∧ s'.pending = s.pending := by
  unfold execTestPulseStart
  (try dsimp only)
  (repeat' split) <;> exact ⟨_, rfl, by simp⟩

theorem execTestPulseCheckOff_fr (n : Fin 25) (above5 : Bool) (s : State) : ∃ s', (execTestPulseCheckOff n above5 s) = .next s' ∧ s'.pending = s.pending := by
  unfold execTestPulseCheckOff
  (try dsimp only)
  (repeat' split) <;> exact ⟨_, rfl, by simp⟩

theorem execTestPulseRestore_fr (n : Fin 25) (s : State) : ∃ s', (execTestPulseRestore n s) = .next s' ∧ s'.pending = s.pending := by
  unfold execTestPulseRestore
  (try dsimp only)
  (repeat' split) <;> exact ⟨_, rfl, by simp⟩

theorem execTestPulseCheckOn_fr (n : Fin 25) (below15 : Bool) (s : State) : ∃ s', (execTestPulseCheckOn n below15 s) = .next s' ∧ s'.pending = s.pending := by
  unfold execTestPulseCheckOn
  (try dsimp only)
  (repeat' split) <;> exact ⟨_, rfl, by simp⟩

theorem execPilotBeat_fr (p : Fin 2) (word : BitVec 16) (s : State) : ∃ s', (execPilotBeat p word s) = .next s' ∧ s'.pending = s.pending := by
  unfold execPilotBeat
  (try dsimp only)
  (repeat' split) <;> exact ⟨_, rfl, by simp⟩

theorem execMissedBeat_fr (p : Fin 2) (s : State) : ∃ s', (execMissedBeat p s) = .next s' ∧ s'.pending = s.pending := by
  unfold execMissedBeat
  (try dsimp only)
  (repeat' split) <;> exact ⟨_, rfl, by simp⟩

theorem execPromotion_fr (s : State) : ∃ s', (execPromotion s) = .next s' ∧ s'.pending = s.pending := by
  unfold execPromotion
  (try dsimp only)
  (repeat' split) <;> exact ⟨_, rfl, by simp⟩

theorem execPromotionFail_fr (s : State) : ∃ s', (execPromotionFail s) = .next s' ∧ s'.pending = s.pending := by
  unfold execPromotionFail
  (try dsimp only)
  (repeat' split) <;> exact ⟨_, rfl, by simp⟩

theorem execLostlaneOpen_fr (n : Fin 25) (s : State) : ∃ s', (execLostlaneOpen n s) = .next s' ∧ s'.pending = s.pending := by
  unfold execLostlaneOpen
  (try dsimp only)
  (repeat' split) <;> exact ⟨_, rfl, by simp⟩

theorem execAnchorStopreqReceive_fr (src : StopReqSrc) (s : State) : ∃ s', (execAnchorStopreqReceive src s) = .next s' ∧ s'.pending = s.pending := by
  unfold execAnchorStopreqReceive
  (try dsimp only)
  (repeat' split) <;> exact ⟨_, rfl, by simp⟩

theorem execAnchorHoldopenReceive_fr (mask : BitVec 25) (s : State) : ∃ s', (execAnchorHoldopenReceive mask s) = .next s' ∧ s'.pending = s.pending := by
  unfold execAnchorHoldopenReceive
  (try dsimp only)
  (repeat' split) <;> exact ⟨_, rfl, by simp⟩

theorem execAnchorAliveAdvance_fr (s : State) :
    ∃ s', execAnchorAliveAdvance s = .next s' ∧ s'.anchor.core = s.anchor.core ∧ s'.pending = s.pending := by
  refine ⟨_, rfl, ?_, by simp⟩
  unfold State.ancEvent
  split <;> rfl

theorem execBusComparatorTrip_fr (inputs : BitVec 2) (s : State) : ∃ s', (execBusComparatorTrip inputs s) = .next s' ∧ s'.pending = s.pending := by
  unfold execBusComparatorTrip
  (try dsimp only)
  (repeat' split) <;> exact ⟨_, rfl, by simp⟩

theorem execBusComparatorRelease_fr (s : State) :
    ∃ s', execBusComparatorRelease s = .next s' ∧ s'.anchor.core = s.anchor.core ∧ s'.pending = s.pending := by
  refine ⟨_, rfl, ?_, by simp⟩
  unfold State.ancEvent
  split <;> rfl

@[simp] theorem State.sendStopreq_fr (s : State) (src : StopReqSrc) :
    (State.sendStopreq s src).anchor.core = s.anchor.core ∧ (State.sendStopreq s src).pending = s.pending := by
  constructor <;> simp [State.sendStopreq]

@[simp] theorem req0Eff_fr (v : Word) (_old : Word) (s : State) :
    (req0Eff v _old s).anchor.core = s.anchor.core ∧ (req0Eff v _old s).pending = s.pending := by
  constructor <;> simp [req0Eff]

@[simp] theorem req1Eff_fr (v : Word) (_old : Word) (s : State) :
    (req1Eff v _old s).anchor.core = s.anchor.core ∧ (req1Eff v _old s).pending = s.pending := by
  constructor <;> simp [req1Eff]

theorem execStop0Request_fr (via : RegPath) (v : Word) (s : State) : ∃ s', (execStop0Request via v s) = .next s' ∧ s'.anchor.core = s.anchor.core ∧ s'.pending = s.pending := by
  unfold execStop0Request
  (try dsimp only)
  (repeat' split) <;> exact ⟨_, rfl, by simp, by simp⟩

theorem execStop1Request_fr (via : RegPath) (v : Word) (s : State) : ∃ s', (execStop1Request via v s) = .next s' ∧ s'.anchor.core = s.anchor.core ∧ s'.pending = s.pending := by
  unfold execStop1Request
  (try dsimp only)
  (repeat' split) <;> exact ⟨_, rfl, by simp, by simp⟩

theorem execAncHoldopen_fr (via : RegPath) (v : Word) (s : State) : ∃ s', (execAncHoldopen via v s) = .next s' ∧ s'.anchor.core = s.anchor.core ∧ s'.pending = s.pending := by
  unfold execAncHoldopen
  (try dsimp only)
  (repeat' split) <;> exact ⟨_, rfl, by simp, by simp⟩

@[simp] theorem mboAncTrip_fr (index : BitVec 14) (s : State) :
    (mboAncTrip index s).st.anchor.core = s.anchor.core ∧ (mboAncTrip index s).st.pending = s.pending := by
  constructor <;> simp [mboAncTrip]

theorem execAncTrip_fr (set : Fin 4) (via : RegPath) (index : BitVec 14) (s : State) : ∃ s', (execAncTrip set via index s) = .next s' ∧ s'.anchor.core = s.anchor.core ∧ s'.pending = s.pending := by
  unfold execAncTrip
  (try dsimp only)
  (repeat' split) <;> exact ⟨_, rfl, by simp, by simp⟩

/-! ### Bus -/

@[simp] theorem State.busRestart_fr (s : State) (b : Nat) :
    (State.busRestart s b).anchor.core = s.anchor.core ∧ (State.busRestart s b).pending = s.pending := by
  constructor <;> simp [State.busRestart]

@[simp] theorem State.busCause_fr (s : State) (n : Nat) (st : Nat) (stop : Bool) :
    (State.busCause s n st stop).anchor.core = s.anchor.core ∧ (State.busCause s n st stop).pending = s.pending := by
  constructor <;> simp [State.busCause]

@[simp] theorem State.balCommit_fr (s : State) (b : Nat) :
    (State.balCommit s b).anchor.core = s.anchor.core ∧ (State.balCommit s b).pending = s.pending := by
  constructor <;> (unfold State.balCommit; (try dsimp only); (repeat' split) <;> simp_all)

@[simp] theorem State.balDeclare_fr (s : State) (b : Nat) :
    (State.balDeclare s b).anchor.core = s.anchor.core ∧ (State.balDeclare s b).pending = s.pending := by
  constructor <;> (unfold State.balDeclare; (try dsimp only); (repeat' split) <;> simp_all)

@[simp] theorem State.balClear_fr (s : State) (b : Nat) :
    (State.balClear s b).anchor.core = s.anchor.core ∧ (State.balClear s b).pending = s.pending := by
  constructor <;> simp [State.balClear]

@[simp] theorem State.balClrRef_fr (s : State) (b : Nat) :
    (State.balClrRef s b).anchor.core = s.anchor.core ∧ (State.balClrRef s b).pending = s.pending := by
  constructor <;> simp [State.balClrRef]

@[simp] theorem State.balClrAnswer_fr (s : State) (b : Nat) :
    (State.balClrAnswer s b).anchor.core = s.anchor.core ∧ (State.balClrAnswer s b).pending = s.pending := by
  constructor <;> (unfold State.balClrAnswer; (try dsimp only); (repeat' split) <;> simp_all)

@[simp] theorem busCmdWritten_fr (b : Nat) (v : Word) (s : State) :
    (busCmdWritten b v s).anchor.core = s.anchor.core ∧ (busCmdWritten b v s).pending = s.pending := by
  constructor <;> (unfold busCmdWritten; (try dsimp only); (repeat' split) <;> simp_all)

theorem execBusFclr_fr (via : RegPath) (b : Fin 32) (s : State) : ∃ s', (execBusFclr via b s) = .next s' ∧ s'.anchor.core = s.anchor.core ∧ s'.pending = s.pending := by
  unfold execBusFclr
  (try dsimp only)
  (repeat' split) <;> exact ⟨_, rfl, by simp, by simp⟩

theorem execBallastFault_fr (b : Fin 32) (s : State) : ∃ s', (execBallastFault b s) = .next s' ∧ s'.anchor.core = s.anchor.core ∧ s'.pending = s.pending := by
  unfold execBallastFault
  (try dsimp only)
  (repeat' split) <;> exact ⟨_, rfl, by simp, by simp⟩

@[simp] theorem State.balCheck_fr (s : State) (b : Nat) (vb : Nat) (d0 : Nat) :
    (State.balCheck s b vb d0).anchor.core = s.anchor.core ∧ (State.balCheck s b vb d0).pending = s.pending := by
  constructor <;> simp [State.balCheck]

@[simp] theorem State.stageAscAxis_fr (s : State) (n : Nat) :
    (State.stageAscAxis s n).anchor.core = s.anchor.core ∧ (State.stageAscAxis s n).pending = s.pending := by
  constructor <;> simp [State.stageAscAxis]

@[simp] theorem State.stageTrip_fr (s : State) (b : Nat) :
    (State.stageTrip s b).anchor.core = s.anchor.core ∧ (State.stageTrip s b).pending = s.pending := by
  constructor <;> simp [State.stageTrip]

@[simp] theorem State.toStage_fr (s : State) (b : Nat) (st : Nat) (new : Nat) (vb : Nat) :
    (State.toStage s b st new vb).anchor.core = s.anchor.core ∧ (State.toStage s b st new vb).pending = s.pending := by
  constructor <;> simp [State.toStage]

@[simp] theorem State.busEval_fr (s : State) (b : Nat) (vb : Nat) :
    (State.busEval s b vb).anchor.core = s.anchor.core ∧ (State.busEval s b vb).pending = s.pending := by
  constructor <;> simp [State.busEval]

@[simp] theorem State.busTick_fr (s : State) (k vb : Nat) (recs : List (BitVec 128)) :
    (State.busTick s k vb recs).anchor.core = s.anchor.core ∧ (State.busTick s k vb recs).pending = s.pending := by
  unfold State.busTick
  extract_lets s1
  have h1 : s1.anchor.core = s.anchor.core ∧ s1.pending = s.pending :=
    foldl_fr _ _ _ (fun s x => by (try dsimp only); (repeat' split) <;> simp)
  simp [h1]

@[simp] theorem State.busSenseLost_fr (s : State) (k : Nat) :
    (State.busSenseLost s k).anchor.core = s.anchor.core ∧ (State.busSenseLost s k).pending = s.pending := by
  constructor <;> simp [State.busSenseLost]

/-! ### Lane -/

@[simp] theorem State.inboxWrite_fr (s : State) (n : Nat) (missed : Bool) :
    (State.inboxWrite s n missed).anchor.core = s.anchor.core ∧ (State.inboxWrite s n missed).pending = s.pending := by
  constructor <;> simp [State.inboxWrite]

@[simp] theorem State.enterWork_fr (s : State) (l : Nat) :
    (State.enterWork s l).anchor.core = s.anchor.core ∧ (State.enterWork s l).pending = s.pending := by
  constructor <;> (unfold State.enterWork; (try dsimp only); (repeat' split) <;> simp_all)

@[simp] theorem State.outDrop_fr (s : State) (l : Nat) :
    (State.outDrop s l).anchor.core = s.anchor.core ∧ (State.outDrop s l).pending = s.pending := by
  constructor <;> simp [State.outDrop]

@[simp] theorem State.outCommit_fr (s : State) (l : Nat) (n : Nat) (r : BitVec 128) :
    (State.outCommit s l n r).anchor.core = s.anchor.core ∧ (State.outCommit s l n r).pending = s.pending := by
  constructor <;> simp [State.outCommit]

@[simp] theorem State.endWork_fr (s : State) (l : Nat) :
    (State.endWork s l).anchor.core = s.anchor.core ∧ (State.endWork s l).pending = s.pending := by
  constructor <;> (unfold State.endWork; (try dsimp only); (repeat' split) <;> simp_all)

@[simp] theorem State.localRead_fr (s : State) (l : Nat) (a : Nat) (k : Nat) :
    (State.localRead s l a k).1.anchor.core = s.anchor.core ∧ (State.localRead s l a k).1.pending = s.pending := by
  constructor <;> (unfold State.localRead; (try dsimp only); (repeat' split) <;> simp_all)

theorem State.localRead_eqfr (s : State) (l : Nat) (a : Nat) (k : Nat) {sa sb} (hq : (State.localRead s l a k) = (sa, sb)) :
    sa.anchor.core = s.anchor.core ∧ sa.pending = s.pending := by
  have hp := State.localRead_fr s l a k; rw [hq] at hp; exact hp

@[simp] theorem State.localWrite_fr (s : State) (l : Nat) (a : Nat) (bs : List Byte) :
    (State.localWrite s l a bs).anchor.core = s.anchor.core ∧ (State.localWrite s l a bs).pending = s.pending := by
  constructor <;> simp [State.localWrite]

@[simp] theorem State.sharedWord_fr (s : State) (a : Nat) (k : Nat) :
    (State.sharedWord s a k).1.anchor.core = s.anchor.core ∧ (State.sharedWord s a k).1.pending = s.pending := by
  constructor <;> (unfold State.sharedWord; (try dsimp only); (repeat' split) <;> simp_all)

theorem State.sharedWord_eqfr (s : State) (a : Nat) (k : Nat) {sa sb} (hq : (State.sharedWord s a k) = (sa, sb)) :
    sa.anchor.core = s.anchor.core ∧ sa.pending = s.pending := by
  have hp := State.sharedWord_fr s a k; rw [hq] at hp; exact hp

@[simp] theorem State.sramUe_fr (s : State) :
    (State.sramUe s).anchor.core = s.anchor.core ∧ (State.sramUe s).pending = s.pending := by
  constructor <;> simp [State.sramUe]

@[simp] theorem State.sramCheck_fr (s : State) (a : Nat) :
    (State.sramCheck s a).1.anchor.core = s.anchor.core ∧ (State.sramCheck s a).1.pending = s.pending := by
  constructor <;> (unfold State.sramCheck; (try dsimp only); (repeat' split) <;> simp_all)

theorem State.sramCheck_eqfr (s : State) (a : Nat) {sa sb} (hq : (State.sramCheck s a) = (sa, sb)) :
    sa.anchor.core = s.anchor.core ∧ sa.pending = s.pending := by
  have hp := State.sramCheck_fr s a; rw [hq] at hp; exact hp

@[simp] theorem State.sharedRead_fr (s : State) (a : Nat) (k : Nat) :
    (State.sharedRead s a k).1.anchor.core = s.anchor.core ∧ (State.sharedRead s a k).1.pending = s.pending := by
  constructor <;> (unfold State.sharedRead; (try dsimp only); (repeat' split) <;> simp_all)

theorem State.sharedRead_eqfr (s : State) (a : Nat) (k : Nat) {sa sb} (hq : (State.sharedRead s a k) = (sa, sb)) :
    sa.anchor.core = s.anchor.core ∧ sa.pending = s.pending := by
  have hp := State.sharedRead_fr s a k; rw [hq] at hp; exact hp

@[simp] theorem State.statusPort_fr (s : State) (n : Nat) (off : Nat) (v : Word) :
    (State.statusPort s n off v).anchor.core = s.anchor.core ∧ (State.statusPort s n off v).pending = s.pending := by
  constructor <;> simp [State.statusPort]

theorem State.sharedWrite_fr (s : State) (l a pc k v : Nat) {s' : State} (h : s.sharedWrite l a pc k v = some s') :
    s'.anchor.core = s.anchor.core ∧ s'.pending = s.pending := by
  unfold State.sharedWrite at h
  dsimp only at h
  split at h
  · cases h; simp
  · cases h; simp
  · cases h

@[simp] theorem State.loadAt_fr (s : State) (l : Nat) (shared : Bool) (a : Nat) (k : Nat) :
    (State.loadAt s l shared a k).1.anchor.core = s.anchor.core ∧ (State.loadAt s l shared a k).1.pending = s.pending := by
  constructor <;> simp [State.loadAt]

theorem State.loadAt_eqfr (s : State) (l : Nat) (shared : Bool) (a : Nat) (k : Nat) {sa sb} (hq : (State.loadAt s l shared a k) = (sa, sb)) :
    sa.anchor.core = s.anchor.core ∧ sa.pending = s.pending := by
  have hp := State.loadAt_fr s l shared a k; rw [hq] at hp; exact hp

/-- A move slot leaves what the frame laws name. -/
def MKeeps (s : State) (e : Except Nat MRes) : Prop := ∀ r, e = .ok r → r.s.anchor.core = s.anchor.core ∧ r.s.pending = s.pending

theorem MKeeps.error (s : State) (c : Nat) : MKeeps s (.error c) := fun _ h => by cases h
theorem MKeeps.ok (s : State) (r : MRes) (h : r.s.anchor.core = s.anchor.core ∧ r.s.pending = s.pending) : MKeeps s (.ok r) :=
  fun _ e => by cases e; exact h
theorem MKeeps.bind {α : Type} (s : State) (e : Except Nat α) (f : α → Except Nat MRes) (h : ∀ x, MKeeps s (f x)) :
    MKeeps s (e >>= f) := by
  cases e with
  | error c => exact MKeeps.error s c
  | ok x => exact h x

theorem MKeeps.ite (s : State) (c : Prop) [Decidable c] (a b : Except Nat MRes) (ha : MKeeps s a) (hb : MKeeps s b) :
    MKeeps s (if c then a else b) := by
  split
  · exact ha
  · exact hb

theorem mLoad_fr (s : State) (l : Nat) (b0 b1 : LBank) (shared quad : Bool) (reg : BitVec 6) (p : Nat) (am : BitVec 2) (mi : Nat)
    (off : BitVec 16) : MKeeps s (mLoad s l b0 b1 shared quad reg p am mi off) := by
  unfold mLoad
  extract_lets
  refine MKeeps.ite _ _ _ _ (MKeeps.error _ _) ?_
  · refine MKeeps.bind _ _ _ (fun f => ?_)
    dsimp only
    split
    · exact MKeeps.error _ _
    · apply MKeeps.ok; split <;> exact State.loadAt_fr ..

theorem mStore_fr (s : State) (l : Nat) (b0 b1 : LBank) (shared quad : Bool) (reg : BitVec 6) (p : Nat) (am : BitVec 2) (mi : Nat)
    (off : BitVec 16) : MKeeps s (mStore s l b0 b1 shared quad reg p am mi off) := by
  unfold mStore
  extract_lets
  refine MKeeps.ite _ _ _ _ (MKeeps.error _ _) ?_
  · refine MKeeps.bind _ _ _ (fun f => ?_)
    dsimp only
    split
    · exact MKeeps.error _ _
    · rename_i h
      apply MKeeps.ok
      unfold State.storeAt at h
      split at h
      · exact State.sharedWrite_fr _ _ _ _ _ _ h
      · cases h; simp

theorem mPair_fr (s : State) (l : Nat) (b0 b1 : LBank) (store : Bool) (reg : BitVec 6) (p : Nat) (am : BitVec 2) (mi : Nat)
    (off : BitVec 16) : MKeeps s (mPair s l b0 b1 store reg p am mi off) := by
  unfold mPair
  extract_lets
  split
  · exact MKeeps.error _ _
  · refine MKeeps.bind _ _ _ (fun f => ?_)
    dsimp only
    (repeat' split) <;> first | exact MKeeps.error _ _ | (apply MKeeps.ok; simp)

theorem mOut_fr (s : State) (l : Nat) (b0 b1 : LBank) (reg : BitVec 6) (p : Nat) (am : BitVec 2) (mi : Nat) (off : BitVec 16) :
    MKeeps s (mOut s l b0 b1 reg p am mi off) := by
  unfold mOut
  split
  · exact MKeeps.error _ _
  · refine MKeeps.bind _ _ _ (fun f => ?_)
    dsimp only
    (repeat' split) <;> first | exact MKeeps.error _ _ | (apply MKeeps.ok; simp)

theorem mMov_fr (s : State) (b0 b1 : LBank) (alim : Bool) (rd rs : BitVec 6) : MKeeps s (mMov s b0 b1 alim rd rs) := by
  unfold mMov
  dsimp only
  (repeat' split) <;> first | exact MKeeps.error _ _ | (apply MKeeps.ok; simp)

theorem mLdi_fr (s : State) (b0 b1 : LBank) (rd : BitVec 6) (imm : BitVec 24) : MKeeps s (mLdi s b0 b1 rd imm) := by
  unfold mLdi
  (repeat' split) <;> first | exact MKeeps.error _ _ | (apply MKeeps.ok; simp)

theorem mWdif_fr (s : State) (l : Nat) (b0 b1 : LBank) (ad pa pb : Nat) (sh : BitVec 7) : MKeeps s (mWdif s l b0 b1 ad pa pb sh) := by
  unfold mWdif
  dsimp only
  (repeat' split) <;> first | exact MKeeps.error _ _ | (apply MKeeps.ok; simp)

theorem mWadd_fr (s : State) (l : Nat) (b0 b1 : LBank) (ad pa : Nat) (sh : BitVec 7) : MKeeps s (mWadd s l b0 b1 ad pa sh) := by
  unfold mWadd
  dsimp only
  (repeat' split) <;> first | exact MKeeps.error _ _ | (apply MKeeps.ok; simp)

theorem mBranch_fr (s : State) (l : Nat) (b0 b1 : LBank) (c : BitVec 4) (tgt : BitVec 12) (call : Bool) :
    MKeeps s (mBranch s l b0 b1 c tgt call) := by
  unfold mBranch
  (repeat' split) <;> first | exact MKeeps.error _ _ | (apply MKeeps.ok; simp [State.branch])

theorem mLoop_fr (s : State) (b0 b1 : LBank) (fromReg : Bool) (cnt tgt : BitVec 12) : MKeeps s (mLoop s b0 b1 fromReg cnt tgt) := by
  unfold mLoop
  (repeat' split) <;> first | exact MKeeps.error _ _ | (apply MKeeps.ok; simp)

theorem mRep_fr (s : State) (l : Nat) (b0 b1 : LBank) (fromReg : Bool) (cnt : BitVec 12) : MKeeps s (mRep s l b0 b1 fromReg cnt) := by
  unfold mRep
  dsimp only
  (repeat' split) <;> first | exact MKeeps.error _ _ | (apply MKeeps.ok; simp)

theorem State.moveSlot_fr (s : State) (l : Nat) (b0 b1 : LBank) (alim : Bool) (mv : MoveOp) :
    MKeeps s (s.moveSlot l b0 b1 alim mv) := by
  have hl := fun sh q r p am mi off => mLoad_fr s l b0 b1 sh q r p am mi off
  have hs := fun sh q r p am mi off => mStore_fr s l b0 b1 sh q r p am mi off
  have hp := fun st r p am mi off => mPair_fr s l b0 b1 st r p am mi off
  cases mv <;> simp only [State.moveSlot] <;> first
    | exact hl _ _ _ _ _ _ _ | exact hs _ _ _ _ _ _ _ | exact hp _ _ _ _ _ _ | exact mOut_fr _ _ _ _ _ _ _ _ _
    | exact mMov_fr _ _ _ _ _ _ | exact mLdi_fr _ _ _ _ _ | exact mWdif_fr _ _ _ _ _ _ _ _ | exact mWadd_fr _ _ _ _ _ _ _
    | exact mBranch_fr _ _ _ _ _ _ _ | exact mLoop_fr _ _ _ _ _ _ | exact mRep_fr _ _ _ _ _ _ | exact MKeeps.ok _ _ ⟨rfl, rfl⟩

@[simp] theorem State.routine_fr (s : State) (l : Nat) (fgd : Bool) (entry : BitVec 12) :
    (State.routine s l fgd entry).anchor.core = s.anchor.core ∧ (State.routine s l fgd entry).pending = s.pending := by
  constructor <;> (unfold State.routine; (try dsimp only); (repeat' split) <;> simp_all)

@[simp] theorem State.advance_fr (s : State) (l : Nat) (fgd : Bool) (pc : BitVec 12) :
    (State.advance s l fgd pc).anchor.core = s.anchor.core ∧ (State.advance s l fgd pc).pending = s.pending := by
  constructor <;> (unfold State.advance; (try dsimp only); (repeat' split) <;> simp_all)

@[simp] theorem State.issueCore_fr (s : State) (l : Nat) (fgd : Bool) (ar : ArithOp) (mv : MoveOp) :
    (State.issueCore s l fgd ar mv).anchor.core = s.anchor.core ∧ (State.issueCore s l fgd ar mv).pending = s.pending := by
  unfold State.issueCore
  extract_lets x b0
  split
  · simp
  · rename_i r h
    have hr := State.moveSlot_fr _ _ _ _ _ _ r h
    dsimp only
    split <;> simp [hr]

@[simp] theorem State.issueTimes_fr (s : State) (l : Nat) (fgd : Bool) (ar : ArithOp) (mv : MoveOp) (k : Nat) :
    (State.issueTimes s l fgd ar mv k).anchor.core = s.anchor.core ∧ (State.issueTimes s l fgd ar mv k).pending = s.pending := by
  induction k generalizing s with
  | zero => exact ⟨rfl, rfl⟩
  | succ k ih => simp [State.issueTimes, ih]

@[simp] theorem State.issue_fr (s : State) (l : Nat) (ar : ArithOp) (mv : MoveOp) :
    (State.issue s l ar mv).anchor.core = s.anchor.core ∧ (State.issue s l ar mv).pending = s.pending := by
  constructor <;> simp [State.issue]

/-! ### Torque -/

@[simp] theorem State.declareLoss_fr (s : State) (n : Nat) (w : Int) (tb : FTime) :
    (State.declareLoss s n w tb).anchor.core = s.anchor.core ∧ (State.declareLoss s n w tb).pending = s.pending := by
  constructor <;> (unfold State.declareLoss; (try dsimp only); (repeat' split) <;> simp_all)

theorem execObserverLoss_fr (n : Fin 256) (s : State) : ∃ s', (execObserverLoss n s) = .next s' ∧ s'.anchor.core = s.anchor.core ∧ s'.pending = s.pending := by
  unfold execObserverLoss
  (try dsimp only)
  (repeat' split) <;> exact ⟨_, rfl, by simp, by simp⟩

theorem execSkipmax_fr (n : Fin 256) (s : State) : ∃ s', (execSkipmax n s) = .next s' ∧ s'.anchor.core = s.anchor.core ∧ s'.pending = s.pending := by
  unfold execSkipmax
  (try dsimp only)
  (repeat' split) <;> exact ⟨_, rfl, by simp, by simp⟩

theorem execShortTimeout_fr (n : Fin 256) (s : State) : ∃ s', (execShortTimeout n s) = .next s' ∧ s'.anchor.core = s.anchor.core ∧ s'.pending = s.pending := by
  unfold execShortTimeout
  (try dsimp only)
  (repeat' split) <;> exact ⟨_, rfl, by simp, by simp⟩

@[simp] theorem State.catchFail_fr (s : State) (n : Nat) :
    (State.catchFail s n).anchor.core = s.anchor.core ∧ (State.catchFail s n).pending = s.pending := by
  constructor <;> simp [State.catchFail]

theorem execCatchRetry_fr (n : Fin 256) (s : State) : ∃ s', (execCatchRetry n s) = .next s' ∧ s'.anchor.core = s.anchor.core ∧ s'.pending = s.pending := by
  unfold execCatchRetry
  (try dsimp only)
  (repeat' split) <;> exact ⟨_, rfl, by simp, by simp⟩

theorem execCatchThirdFailure_fr (n : Fin 256) (s : State) : ∃ s', (execCatchThirdFailure n s) = .next s' ∧ s'.anchor.core = s.anchor.core ∧ s'.pending = s.pending := by
  unfold execCatchThirdFailure
  (try dsimp only)
  (repeat' split) <;> exact ⟨_, rfl, by simp, by simp⟩

@[simp] theorem State.setAngoff_fr (s : State) (n : Nat) (v : Nat) :
    (State.setAngoff s n v).anchor.core = s.anchor.core ∧ (State.setAngoff s n v).pending = s.pending := by
  constructor <;> simp [State.setAngoff]

@[simp] theorem State.alignFail_fr (s : State) (n : Nat) :
    (State.alignFail s n).anchor.core = s.anchor.core ∧ (State.alignFail s n).pending = s.pending := by
  constructor <;> simp [State.alignFail]

@[simp] theorem State.alignEnd_fr (s : State) (n : Nat) (th : Int) :
    (State.alignEnd s n th).anchor.core = s.anchor.core ∧ (State.alignEnd s n th).pending = s.pending := by
  constructor <;> (unfold State.alignEnd; (try dsimp only); (repeat' split) <;> simp_all)

theorem execAlignStepEnd_fr (n : Fin 256) (s : State) : ∃ s', (execAlignStepEnd n s) = .next s' ∧ s'.anchor.core = s.anchor.core ∧ s'.pending = s.pending := by
  unfold execAlignStepEnd
  (try dsimp only)
  (repeat' split) <;> exact ⟨_, rfl, by simp, by simp⟩

theorem execTestEnd_fr (n : Fin 256) (s : State) : ∃ s', (execTestEnd n s) = .next s' ∧ s'.anchor.core = s.anchor.core ∧ s'.pending = s.pending := by
  unfold execTestEnd
  (try dsimp only)
  (repeat' split) <;> exact ⟨_, rfl, by simp, by simp⟩

theorem execStAlignEnd_fr (n : Fin 256) (s : State) : ∃ s', (execStAlignEnd n s) = .next s' ∧ s'.anchor.core = s.anchor.core ∧ s'.pending = s.pending := by
  unfold execStAlignEnd
  (try dsimp only)
  (repeat' split) <;> exact ⟨_, rfl, by simp, by simp⟩

@[simp] theorem mboAxDly_fr (i : BitVec 14) (s : State) :
    (mboAxDly i s).st.anchor.core = s.anchor.core ∧ (mboAxDly i s).st.pending = s.pending := by
  constructor <;> simp [mboAxDly]

theorem execAxDly_fr (set : Fin 4) (via : RegPath) (index : BitVec 14) (s : State) : ∃ s', (execAxDly set via index s) = .next s' ∧ s'.anchor.core = s.anchor.core ∧ s'.pending = s.pending := by
  unfold execAxDly
  (try dsimp only)
  (repeat' split) <;> exact ⟨_, rfl, by simp, by simp⟩

theorem execTpOrgRead_fr (set : Fin 4) (via : RegPath) (s : State) : ∃ s', (execTpOrgRead set via s) = .next s' ∧ s'.anchor.core = s.anchor.core ∧ s'.pending = s.pending := by
  unfold execTpOrgRead
  (try dsimp only)
  (repeat' split) <;> exact ⟨_, rfl, by simp, by simp⟩

@[simp] theorem mboTpOrgWrite_fr (torg : FTime) (s : State) :
    (mboTpOrgWrite torg s).st.anchor.core = s.anchor.core ∧ (mboTpOrgWrite torg s).st.pending = s.pending := by
  constructor <;> simp [mboTpOrgWrite]

theorem execTpOrgWrite_fr (set : Fin 4) (via : RegPath) (torg : FTime) (s : State) : ∃ s', (execTpOrgWrite set via torg s) = .next s' ∧ s'.anchor.core = s.anchor.core ∧ s'.pending = s.pending := by
  unfold execTpOrgWrite
  (try dsimp only)
  (repeat' split) <;> exact ⟨_, rfl, by simp, by simp⟩

@[simp] theorem mboTqEst_fr (i : BitVec 14) (s : State) :
    (mboTqEst i s).st.anchor.core = s.anchor.core ∧ (mboTqEst i s).st.pending = s.pending := by
  constructor <;> simp [mboTqEst]

theorem execTqEst_fr (set : Fin 4) (via : RegPath) (index : BitVec 14) (s : State) : ∃ s', (execTqEst set via index s) = .next s' ∧ s'.anchor.core = s.anchor.core ∧ s'.pending = s.pending := by
  unfold execTqEst
  (try dsimp only)
  (repeat' split) <;> exact ⟨_, rfl, by simp, by simp⟩

/-! ### Motor -/

@[simp] theorem State.observe_fr (s : State) (i : LawIn) :
    (State.observe s i).1.anchor.core = s.anchor.core ∧ (State.observe s i).1.pending = s.pending := by
  constructor <;> (unfold State.observe; (try dsimp only); (repeat' split) <;> simp_all)

theorem State.observe_eqfr (s : State) (i : LawIn) {sa sb} (hq : (State.observe s i) = (sa, sb)) :
    sa.anchor.core = s.anchor.core ∧ sa.pending = s.pending := by
  have hp := State.observe_fr s i; rw [hq] at hp; exact hp

@[simp] theorem State.setPlan_fr (s : State) (i : LawIn) (l : List (FTime × List Nat)) :
    (State.setPlan s i l).anchor.core = s.anchor.core ∧ (State.setPlan s i l).pending = s.pending := by
  constructor <;> (unfold State.setPlan; (try dsimp only); (repeat' split) <;> simp_all)

/-! ### LaneOps -/

theorem execLaneNop_fr (l : Fin 16) (s : State) : ∃ s', (execLaneNop l s) = .next s' ∧ s'.anchor.core = s.anchor.core ∧ s'.pending = s.pending := by
  unfold execLaneNop
  (try dsimp only)
  (repeat' split) <;> exact ⟨_, rfl, by simp, by simp⟩

theorem execMpy_fr (l : Fin 16) (ad : Fin 4) (x : Fin 16) (y : Fin 16) (mv : MoveOp) (s : State) : ∃ s', (execMpy l ad x y mv s) = .next s' ∧ s'.anchor.core = s.anchor.core ∧ s'.pending = s.pending := by
  unfold execMpy
  (try dsimp only)
  (repeat' split) <;> exact ⟨_, rfl, by simp, by simp⟩

theorem execMac_fr (l : Fin 16) (ad : Fin 4) (x : Fin 16) (y : Fin 16) (mv : MoveOp) (s : State) : ∃ s', (execMac l ad x y mv s) = .next s' ∧ s'.anchor.core = s.anchor.core ∧ s'.pending = s.pending := by
  unfold execMac
  (try dsimp only)
  (repeat' split) <;> exact ⟨_, rfl, by simp, by simp⟩

theorem execMsu_fr (l : Fin 16) (ad : Fin 4) (x : Fin 16) (y : Fin 16) (mv : MoveOp) (s : State) : ∃ s', (execMsu l ad x y mv s) = .next s' ∧ s'.anchor.core = s.anchor.core ∧ s'.pending = s.pending := by
  unfold execMsu
  (try dsimp only)
  (repeat' split) <;> exact ⟨_, rfl, by simp, by simp⟩

theorem execAclr_fr (l : Fin 16) (ad : Fin 4) (mv : MoveOp) (s : State) : ∃ s', (execAclr l ad mv s) = .next s' ∧ s'.anchor.core = s.anchor.core ∧ s'.pending = s.pending := by
  unfold execAclr
  (try dsimp only)
  (repeat' split) <;> exact ⟨_, rfl, by simp, by simp⟩

theorem execAld_fr (l : Fin 16) (ad : Fin 4) (x : Fin 16) (mv : MoveOp) (s : State) : ∃ s', (execAld l ad x mv s) = .next s' ∧ s'.anchor.core = s.anchor.core ∧ s'.pending = s.pending := by
  unfold execAld
  (try dsimp only)
  (repeat' split) <;> exact ⟨_, rfl, by simp, by simp⟩

theorem execAadd_fr (l : Fin 16) (ad : Fin 4) (as_ : Fin 4) (mv : MoveOp) (s : State) : ∃ s', (execAadd l ad as_ mv s) = .next s' ∧ s'.anchor.core = s.anchor.core ∧ s'.pending = s.pending := by
  unfold execAadd
  (try dsimp only)
  (repeat' split) <;> exact ⟨_, rfl, by simp, by simp⟩

theorem execAsub_fr (l : Fin 16) (ad : Fin 4) (as_ : Fin 4) (mv : MoveOp) (s : State) : ∃ s', (execAsub l ad as_ mv s) = .next s' ∧ s'.anchor.core = s.anchor.core ∧ s'.pending = s.pending := by
  unfold execAsub
  (try dsimp only)
  (repeat' split) <;> exact ⟨_, rfl, by simp, by simp⟩

theorem execAmov_fr (l : Fin 16) (ad : Fin 4) (as_ : Fin 4) (mv : MoveOp) (s : State) : ∃ s', (execAmov l ad as_ mv s) = .next s' ∧ s'.anchor.core = s.anchor.core ∧ s'.pending = s.pending := by
  unfold execAmov
  (try dsimp only)
  (repeat' split) <;> exact ⟨_, rfl, by simp, by simp⟩

theorem execAneg_fr (l : Fin 16) (ad : Fin 4) (as_ : Fin 4) (mv : MoveOp) (s : State) : ∃ s', (execAneg l ad as_ mv s) = .next s' ∧ s'.anchor.core = s.anchor.core ∧ s'.pending = s.pending := by
  unfold execAneg
  (try dsimp only)
  (repeat' split) <;> exact ⟨_, rfl, by simp, by simp⟩

theorem execAabs_fr (l : Fin 16) (ad : Fin 4) (as_ : Fin 4) (mv : MoveOp) (s : State) : ∃ s', (execAabs l ad as_ mv s) = .next s' ∧ s'.anchor.core = s.anchor.core ∧ s'.pending = s.pending := by
  unfold execAabs
  (try dsimp only)
  (repeat' split) <;> exact ⟨_, rfl, by simp, by simp⟩

theorem execAcmp_fr (l : Fin 16) (ad : Fin 4) (as_ : Fin 4) (mv : MoveOp) (s : State) : ∃ s', (execAcmp l ad as_ mv s) = .next s' ∧ s'.anchor.core = s.anchor.core ∧ s'.pending = s.pending := by
  unfold execAcmp
  (try dsimp only)
  (repeat' split) <;> exact ⟨_, rfl, by simp, by simp⟩

theorem execAdd_fr (l : Fin 16) (dd : Fin 16) (x : Fin 16) (y : Fin 16) (mv : MoveOp) (s : State) : ∃ s', (execAdd l dd x y mv s) = .next s' ∧ s'.anchor.core = s.anchor.core ∧ s'.pending = s.pending := by
  unfold execAdd
  (try dsimp only)
  (repeat' split) <;> exact ⟨_, rfl, by simp, by simp⟩

theorem execAdds_fr (l : Fin 16) (dd : Fin 16) (x : Fin 16) (y : Fin 16) (mv : MoveOp) (s : State) : ∃ s', (execAdds l dd x y mv s) = .next s' ∧ s'.anchor.core = s.anchor.core ∧ s'.pending = s.pending := by
  unfold execAdds
  (try dsimp only)
  (repeat' split) <;> exact ⟨_, rfl, by simp, by simp⟩

theorem execSub_fr (l : Fin 16) (dd : Fin 16) (x : Fin 16) (y : Fin 16) (mv : MoveOp) (s : State) : ∃ s', (execSub l dd x y mv s) = .next s' ∧ s'.anchor.core = s.anchor.core ∧ s'.pending = s.pending := by
  unfold execSub
  (try dsimp only)
  (repeat' split) <;> exact ⟨_, rfl, by simp, by simp⟩

theorem execSubs_fr (l : Fin 16) (dd : Fin 16) (x : Fin 16) (y : Fin 16) (mv : MoveOp) (s : State) : ∃ s', (execSubs l dd x y mv s) = .next s' ∧ s'.anchor.core = s.anchor.core ∧ s'.pending = s.pending := by
  unfold execSubs
  (try dsimp only)
  (repeat' split) <;> exact ⟨_, rfl, by simp, by simp⟩

theorem execAnd_fr (l : Fin 16) (dd : Fin 16) (x : Fin 16) (y : Fin 16) (mv : MoveOp) (s : State) : ∃ s', (execAnd l dd x y mv s) = .next s' ∧ s'.anchor.core = s.anchor.core ∧ s'.pending = s.pending := by
  unfold execAnd
  (try dsimp only)
  (repeat' split) <;> exact ⟨_, rfl, by simp, by simp⟩

theorem execOr_fr (l : Fin 16) (dd : Fin 16) (x : Fin 16) (y : Fin 16) (mv : MoveOp) (s : State) : ∃ s', (execOr l dd x y mv s) = .next s' ∧ s'.anchor.core = s.anchor.core ∧ s'.pending = s.pending := by
  unfold execOr
  (try dsimp only)
  (repeat' split) <;> exact ⟨_, rfl, by simp, by simp⟩

theorem execXor_fr (l : Fin 16) (dd : Fin 16) (x : Fin 16) (y : Fin 16) (mv : MoveOp) (s : State) : ∃ s', (execXor l dd x y mv s) = .next s' ∧ s'.anchor.core = s.anchor.core ∧ s'.pending = s.pending := by
  unfold execXor
  (try dsimp only)
  (repeat' split) <;> exact ⟨_, rfl, by simp, by simp⟩

theorem execMin_fr (l : Fin 16) (dd : Fin 16) (x : Fin 16) (y : Fin 16) (mv : MoveOp) (s : State) : ∃ s', (execMin l dd x y mv s) = .next s' ∧ s'.anchor.core = s.anchor.core ∧ s'.pending = s.pending := by
  unfold execMin
  (try dsimp only)
  (repeat' split) <;> exact ⟨_, rfl, by simp, by simp⟩

theorem execMax_fr (l : Fin 16) (dd : Fin 16) (x : Fin 16) (y : Fin 16) (mv : MoveOp) (s : State) : ∃ s', (execMax l dd x y mv s) = .next s' ∧ s'.anchor.core = s.anchor.core ∧ s'.pending = s.pending := by
  unfold execMax
  (try dsimp only)
  (repeat' split) <;> exact ⟨_, rfl, by simp, by simp⟩

theorem execCmp_fr (l : Fin 16) (x : Fin 16) (y : Fin 16) (mv : MoveOp) (s : State) : ∃ s', (execCmp l x y mv s) = .next s' ∧ s'.anchor.core = s.anchor.core ∧ s'.pending = s.pending := by
  unfold execCmp
  (try dsimp only)
  (repeat' split) <;> exact ⟨_, rfl, by simp, by simp⟩

theorem execShl_fr (l : Fin 16) (dd : Fin 16) (x : Fin 16) (y : Fin 16) (mv : MoveOp) (s : State) : ∃ s', (execShl l dd x y mv s) = .next s' ∧ s'.anchor.core = s.anchor.core ∧ s'.pending = s.pending := by
  unfold execShl
  (try dsimp only)
  (repeat' split) <;> exact ⟨_, rfl, by simp, by simp⟩

theorem execShr_fr (l : Fin 16) (dd : Fin 16) (x : Fin 16) (y : Fin 16) (mv : MoveOp) (s : State) : ∃ s', (execShr l dd x y mv s) = .next s' ∧ s'.anchor.core = s.anchor.core ∧ s'.pending = s.pending := by
  unfold execShr
  (try dsimp only)
  (repeat' split) <;> exact ⟨_, rfl, by simp, by simp⟩

theorem execSra_fr (l : Fin 16) (dd : Fin 16) (x : Fin 16) (y : Fin 16) (mv : MoveOp) (s : State) : ∃ s', (execSra l dd x y mv s) = .next s' ∧ s'.anchor.core = s.anchor.core ∧ s'.pending = s.pending := by
  unfold execSra
  (try dsimp only)
  (repeat' split) <;> exact ⟨_, rfl, by simp, by simp⟩

theorem execNeg_fr (l : Fin 16) (dd : Fin 16) (x : Fin 16) (mv : MoveOp) (s : State) : ∃ s', (execNeg l dd x mv s) = .next s' ∧ s'.anchor.core = s.anchor.core ∧ s'.pending = s.pending := by
  unfold execNeg
  (try dsimp only)
  (repeat' split) <;> exact ⟨_, rfl, by simp, by simp⟩

theorem execAbs_fr (l : Fin 16) (dd : Fin 16) (x : Fin 16) (mv : MoveOp) (s : State) : ∃ s', (execAbs l dd x mv s) = .next s' ∧ s'.anchor.core = s.anchor.core ∧ s'.pending = s.pending := by
  unfold execAbs
  (try dsimp only)
  (repeat' split) <;> exact ⟨_, rfl, by simp, by simp⟩

theorem execAddi_fr (l : Fin 16) (dd : Fin 16) (x : Fin 16) (imm : BitVec 14) (mv : MoveOp) (s : State) : ∃ s', (execAddi l dd x imm mv s) = .next s' ∧ s'.anchor.core = s.anchor.core ∧ s'.pending = s.pending := by
  unfold execAddi
  (try dsimp only)
  (repeat' split) <;> exact ⟨_, rfl, by simp, by simp⟩

theorem execAddis_fr (l : Fin 16) (dd : Fin 16) (x : Fin 16) (imm : BitVec 14) (mv : MoveOp) (s : State) : ∃ s', (execAddis l dd x imm mv s) = .next s' ∧ s'.anchor.core = s.anchor.core ∧ s'.pending = s.pending := by
  unfold execAddis
  (try dsimp only)
  (repeat' split) <;> exact ⟨_, rfl, by simp, by simp⟩

theorem execAndi_fr (l : Fin 16) (dd : Fin 16) (x : Fin 16) (imm : BitVec 14) (mv : MoveOp) (s : State) : ∃ s', (execAndi l dd x imm mv s) = .next s' ∧ s'.anchor.core = s.anchor.core ∧ s'.pending = s.pending := by
  unfold execAndi
  (try dsimp only)
  (repeat' split) <;> exact ⟨_, rfl, by simp, by simp⟩

theorem execCmpi_fr (l : Fin 16) (x : Fin 16) (imm : BitVec 14) (mv : MoveOp) (s : State) : ∃ s', (execCmpi l x imm mv s) = .next s' ∧ s'.anchor.core = s.anchor.core ∧ s'.pending = s.pending := by
  unfold execCmpi
  (try dsimp only)
  (repeat' split) <;> exact ⟨_, rfl, by simp, by simp⟩

theorem execShli_fr (l : Fin 16) (dd : Fin 16) (x : Fin 16) (imm : BitVec 14) (mv : MoveOp) (s : State) : ∃ s', (execShli l dd x imm mv s) = .next s' ∧ s'.anchor.core = s.anchor.core ∧ s'.pending = s.pending := by
  unfold execShli
  (try dsimp only)
  (repeat' split) <;> exact ⟨_, rfl, by simp, by simp⟩

theorem execShri_fr (l : Fin 16) (dd : Fin 16) (x : Fin 16) (imm : BitVec 14) (mv : MoveOp) (s : State) : ∃ s', (execShri l dd x imm mv s) = .next s' ∧ s'.anchor.core = s.anchor.core ∧ s'.pending = s.pending := by
  unfold execShri
  (try dsimp only)
  (repeat' split) <;> exact ⟨_, rfl, by simp, by simp⟩

theorem execSrai_fr (l : Fin 16) (dd : Fin 16) (x : Fin 16) (imm : BitVec 14) (mv : MoveOp) (s : State) : ∃ s', (execSrai l dd x imm mv s) = .next s' ∧ s'.anchor.core = s.anchor.core ∧ s'.pending = s.pending := by
  unfold execSrai
  (try dsimp only)
  (repeat' split) <;> exact ⟨_, rfl, by simp, by simp⟩

theorem execLd_fr (l : Fin 16) (reg : BitVec 6) (p : Fin 8) (am : BitVec 2) (mi : Fin 8) (off : BitVec 16) (ar : ArithOp) (s : State) : ∃ s', (execLd l reg p am mi off ar s) = .next s' ∧ s'.anchor.core = s.anchor.core ∧ s'.pending = s.pending := by
  unfold execLd
  (try dsimp only)
  (repeat' split) <;> exact ⟨_, rfl, by simp, by simp⟩

theorem execSt_fr (l : Fin 16) (reg : BitVec 6) (p : Fin 8) (am : BitVec 2) (mi : Fin 8) (off : BitVec 16) (ar : ArithOp) (s : State) : ∃ s', (execSt l reg p am mi off ar s) = .next s' ∧ s'.anchor.core = s.anchor.core ∧ s'.pending = s.pending := by
  unfold execSt
  (try dsimp only)
  (repeat' split) <;> exact ⟨_, rfl, by simp, by simp⟩

theorem execLdq_fr (l : Fin 16) (reg : BitVec 6) (p : Fin 8) (am : BitVec 2) (mi : Fin 8) (off : BitVec 16) (ar : ArithOp) (s : State) : ∃ s', (execLdq l reg p am mi off ar s) = .next s' ∧ s'.anchor.core = s.anchor.core ∧ s'.pending = s.pending := by
  unfold execLdq
  (try dsimp only)
  (repeat' split) <;> exact ⟨_, rfl, by simp, by simp⟩

theorem execStq_fr (l : Fin 16) (reg : BitVec 6) (p : Fin 8) (am : BitVec 2) (mi : Fin 8) (off : BitVec 16) (ar : ArithOp) (s : State) : ∃ s', (execStq l reg p am mi off ar s) = .next s' ∧ s'.anchor.core = s.anchor.core ∧ s'.pending = s.pending := by
  unfold execStq
  (try dsimp only)
  (repeat' split) <;> exact ⟨_, rfl, by simp, by simp⟩

theorem execLds_fr (l : Fin 16) (reg : BitVec 6) (p : Fin 8) (am : BitVec 2) (mi : Fin 8) (off : BitVec 16) (ar : ArithOp) (s : State) : ∃ s', (execLds l reg p am mi off ar s) = .next s' ∧ s'.anchor.core = s.anchor.core ∧ s'.pending = s.pending := by
  unfold execLds
  (try dsimp only)
  (repeat' split) <;> exact ⟨_, rfl, by simp, by simp⟩

theorem execSts_fr (l : Fin 16) (reg : BitVec 6) (p : Fin 8) (am : BitVec 2) (mi : Fin 8) (off : BitVec 16) (ar : ArithOp) (s : State) : ∃ s', (execSts l reg p am mi off ar s) = .next s' ∧ s'.anchor.core = s.anchor.core ∧ s'.pending = s.pending := by
  unfold execSts
  (try dsimp only)
  (repeat' split) <;> exact ⟨_, rfl, by simp, by simp⟩

theorem execLdqs_fr (l : Fin 16) (reg : BitVec 6) (p : Fin 8) (am : BitVec 2) (mi : Fin 8) (off : BitVec 16) (ar : ArithOp) (s : State) : ∃ s', (execLdqs l reg p am mi off ar s) = .next s' ∧ s'.anchor.core = s.anchor.core ∧ s'.pending = s.pending := by
  unfold execLdqs
  (try dsimp only)
  (repeat' split) <;> exact ⟨_, rfl, by simp, by simp⟩

theorem execStqs_fr (l : Fin 16) (reg : BitVec 6) (p : Fin 8) (am : BitVec 2) (mi : Fin 8) (off : BitVec 16) (ar : ArithOp) (s : State) : ∃ s', (execStqs l reg p am mi off ar s) = .next s' ∧ s'.anchor.core = s.anchor.core ∧ s'.pending = s.pending := by
  unfold execStqs
  (try dsimp only)
  (repeat' split) <;> exact ⟨_, rfl, by simp, by simp⟩

theorem execMov_fr (l : Fin 16) (rd : BitVec 6) (rs : BitVec 6) (ar : ArithOp) (s : State) : ∃ s', (execMov l rd rs ar s) = .next s' ∧ s'.anchor.core = s.anchor.core ∧ s'.pending = s.pending := by
  unfold execMov
  (try dsimp only)
  (repeat' split) <;> exact ⟨_, rfl, by simp, by simp⟩

theorem execLdi_fr (l : Fin 16) (rd : BitVec 6) (imm : BitVec 24) (ar : ArithOp) (s : State) : ∃ s', (execLdi l rd imm ar s) = .next s' ∧ s'.anchor.core = s.anchor.core ∧ s'.pending = s.pending := by
  unfold execLdi
  (try dsimp only)
  (repeat' split) <;> exact ⟨_, rfl, by simp, by simp⟩

theorem execWdif_fr (l : Fin 16) (ad : Fin 4) (pa : Fin 8) (pb : Fin 8) (sh : BitVec 7) (ar : ArithOp) (s : State) : ∃ s', (execWdif l ad pa pb sh ar s) = .next s' ∧ s'.anchor.core = s.anchor.core ∧ s'.pending = s.pending := by
  unfold execWdif
  (try dsimp only)
  (repeat' split) <;> exact ⟨_, rfl, by simp, by simp⟩

theorem execWadd_fr (l : Fin 16) (ad : Fin 4) (pa : Fin 8) (sh : BitVec 7) (ar : ArithOp) (s : State) : ∃ s', (execWadd l ad pa sh ar s) = .next s' ∧ s'.anchor.core = s.anchor.core ∧ s'.pending = s.pending := by
  unfold execWadd
  (try dsimp only)
  (repeat' split) <;> exact ⟨_, rfl, by simp, by simp⟩

theorem execOut_fr (l : Fin 16) (reg : BitVec 6) (p : Fin 8) (am : BitVec 2) (mi : Fin 8) (off : BitVec 16) (ar : ArithOp) (s : State) : ∃ s', (execOut l reg p am mi off ar s) = .next s' ∧ s'.anchor.core = s.anchor.core ∧ s'.pending = s.pending := by
  unfold execOut
  (try dsimp only)
  (repeat' split) <;> exact ⟨_, rfl, by simp, by simp⟩

theorem execLd2_fr (l : Fin 16) (reg : BitVec 6) (p : Fin 8) (am : BitVec 2) (mi : Fin 8) (off : BitVec 16) (ar : ArithOp) (s : State) : ∃ s', (execLd2 l reg p am mi off ar s) = .next s' ∧ s'.anchor.core = s.anchor.core ∧ s'.pending = s.pending := by
  unfold execLd2
  (try dsimp only)
  (repeat' split) <;> exact ⟨_, rfl, by simp, by simp⟩

theorem execSt2_fr (l : Fin 16) (reg : BitVec 6) (p : Fin 8) (am : BitVec 2) (mi : Fin 8) (off : BitVec 16) (ar : ArithOp) (s : State) : ∃ s', (execSt2 l reg p am mi off ar s) = .next s' ∧ s'.anchor.core = s.anchor.core ∧ s'.pending = s.pending := by
  unfold execSt2
  (try dsimp only)
  (repeat' split) <;> exact ⟨_, rfl, by simp, by simp⟩

theorem execBr_fr (l : Fin 16) (cond : BitVec 4) (tgt : BitVec 12) (ar : ArithOp) (s : State) : ∃ s', (execBr l cond tgt ar s) = .next s' ∧ s'.anchor.core = s.anchor.core ∧ s'.pending = s.pending := by
  unfold execBr
  (try dsimp only)
  (repeat' split) <;> exact ⟨_, rfl, by simp, by simp⟩

theorem execBrl_fr (l : Fin 16) (cond : BitVec 4) (tgt : BitVec 12) (ar : ArithOp) (s : State) : ∃ s', (execBrl l cond tgt ar s) = .next s' ∧ s'.anchor.core = s.anchor.core ∧ s'.pending = s.pending := by
  unfold execBrl
  (try dsimp only)
  (repeat' split) <;> exact ⟨_, rfl, by simp, by simp⟩

theorem execRet_fr (l : Fin 16) (cond : BitVec 4) (ar : ArithOp) (s : State) : ∃ s', (execRet l cond ar s) = .next s' ∧ s'.anchor.core = s.anchor.core ∧ s'.pending = s.pending := by
  unfold execRet
  (try dsimp only)
  (repeat' split) <;> exact ⟨_, rfl, by simp, by simp⟩

theorem execLoop_fr (l : Fin 16) (fromReg : Bool) (cnt : BitVec 12) (tgt : BitVec 12) (ar : ArithOp) (s : State) : ∃ s', (execLoop l fromReg cnt tgt ar s) = .next s' ∧ s'.anchor.core = s.anchor.core ∧ s'.pending = s.pending := by
  unfold execLoop
  (try dsimp only)
  (repeat' split) <;> exact ⟨_, rfl, by simp, by simp⟩

theorem execRep_fr (l : Fin 16) (fromReg : Bool) (cnt : BitVec 12) (ar : ArithOp) (s : State) : ∃ s', (execRep l fromReg cnt ar s) = .next s' ∧ s'.anchor.core = s.anchor.core ∧ s'.pending = s.pending := by
  unfold execRep
  (try dsimp only)
  (repeat' split) <;> exact ⟨_, rfl, by simp, by simp⟩

theorem execLaneEnd_fr (l : Fin 16) (ar : ArithOp) (s : State) : ∃ s', (execLaneEnd l ar s) = .next s' ∧ s'.anchor.core = s.anchor.core ∧ s'.pending = s.pending := by
  unfold execLaneEnd
  (try dsimp only)
  (repeat' split) <;> exact ⟨_, rfl, by simp, by simp⟩

theorem execRota_fr (l : Fin 16) (ar : ArithOp) (s : State) : ∃ s', (execRota l ar s) = .next s' ∧ s'.anchor.core = s.anchor.core ∧ s'.pending = s.pending := by
  unfold execRota
  (try dsimp only)
  (repeat' split) <;> exact ⟨_, rfl, by simp, by simp⟩

theorem execLaneWatchdog_fr (l : Fin 16) (s : State) : ∃ s', (execLaneWatchdog l s) = .next s' ∧ s'.anchor.core = s.anchor.core ∧ s'.pending = s.pending := by
  unfold execLaneWatchdog
  (try dsimp only)
  (repeat' split) <;> exact ⟨_, rfl, by simp, by simp⟩

theorem execSelfTestPass_fr (l : Fin 16) (ok : Bool) (s : State) : ∃ s', (execSelfTestPass l ok s) = .next s' ∧ s'.anchor.core = s.anchor.core ∧ s'.pending = s.pending := by
  unfold execSelfTestPass
  (try dsimp only)
  (repeat' split) <;> exact ⟨_, rfl, by simp, by simp⟩

@[simp] theorem lpeCmdWritten_fr (l : Nat) (v : Word) (s : State) :
    (lpeCmdWritten l v s).anchor.core = s.anchor.core ∧ (lpeCmdWritten l v s).pending = s.pending := by
  constructor <;> simp [lpeCmdWritten]

theorem execClrspan_fr (via : RegPath) (l : Fin 16) (s : State) : ∃ s', (execClrspan via l s) = .next s' ∧ s'.anchor.core = s.anchor.core ∧ s'.pending = s.pending := by
  unfold execClrspan
  (try dsimp only)
  (repeat' split) <;> exact ⟨_, rfl, by simp, by simp⟩

/-! ### WorkItem -/

@[simp] theorem State.followCheck_fr (s : State) (i : LawIn) :
    (State.followCheck s i).anchor.core = s.anchor.core ∧ (State.followCheck s i).pending = s.pending := by
  constructor <;> simp [State.followCheck]

@[simp] theorem State.loop0_fr (s : State) (i : LawIn) :
    (State.loop0 s i).anchor.core = s.anchor.core ∧ (State.loop0 s i).pending = s.pending := by
  constructor <;> simp [State.loop0]

@[simp] theorem State.loop1_fr (s : State) (i : LawIn) :
    (State.loop1 s i).anchor.core = s.anchor.core ∧ (State.loop1 s i).pending = s.pending := by
  constructor <;> simp [State.loop1]

@[simp] theorem State.outerLoops_fr (s : State) (i : LawIn) :
    (State.outerLoops s i).anchor.core = s.anchor.core ∧ (State.outerLoops s i).pending = s.pending := by
  constructor <;> simp [State.outerLoops]

@[simp] theorem State.pwmOf_fr (s : State) (n : Nat) (carrier : Nat) (upd : Bool) (carry : Bool) (period : Nat) (d : List Nat) :
    (State.pwmOf s n carrier upd carry period d).1.anchor.core = s.anchor.core ∧ (State.pwmOf s n carrier upd carry period d).1.pending = s.pending := by
  constructor <;> simp [State.pwmOf]

theorem State.pwmOf_eqfr (s : State) (n : Nat) (carrier : Nat) (upd : Bool) (carry : Bool) (period : Nat) (d : List Nat) {sa sb} (hq : (State.pwmOf s n carrier upd carry period d) = (sa, sb)) :
    sa.anchor.core = s.anchor.core ∧ sa.pending = s.pending := by
  have hp := State.pwmOf_fr s n carrier upd carry period d; rw [hq] at hp; exact hp

@[simp] theorem State.lawPwm_fr (s : State) (n : Nat) (d : List Nat) :
    (State.lawPwm s n d).1.anchor.core = s.anchor.core ∧ (State.lawPwm s n d).1.pending = s.pending := by
  constructor <;> simp [State.lawPwm]

theorem State.lawPwm_eqfr (s : State) (n : Nat) (d : List Nat) {sa sb} (hq : (State.lawPwm s n d) = (sa, sb)) :
    sa.anchor.core = s.anchor.core ∧ sa.pending = s.pending := by
  have hp := State.lawPwm_fr s n d; rw [hq] at hp; exact hp

@[simp] theorem State.loop2_fr (s : State) (i : LawIn) :
    (State.loop2 s i).anchor.core = s.anchor.core ∧ (State.loop2 s i).pending = s.pending := by
  constructor <;> simp [State.loop2]

@[simp] theorem State.testRec_fr (s : State) (n : Nat) :
    (State.testRec s n).1.anchor.core = s.anchor.core ∧ (State.testRec s n).1.pending = s.pending := by
  constructor <;> (unfold State.testRec; (try dsimp only); (repeat' split) <;> simp_all)

theorem State.testRec_eqfr (s : State) (n : Nat) {sa sb} (hq : (State.testRec s n) = (sa, sb)) :
    sa.anchor.core = s.anchor.core ∧ sa.pending = s.pending := by
  have hp := State.testRec_fr s n; rw [hq] at hp; exact hp

@[simp] theorem State.stepperRec_fr (s : State) (i : LawIn) :
    (State.stepperRec s i).1.anchor.core = s.anchor.core ∧ (State.stepperRec s i).1.pending = s.pending := by
  constructor <;> simp [State.stepperRec]

theorem State.stepperRec_eqfr (s : State) (i : LawIn) {sa sb} (hq : (State.stepperRec s i) = (sa, sb)) :
    sa.anchor.core = s.anchor.core ∧ sa.pending = s.pending := by
  have hp := State.stepperRec_fr s i; rw [hq] at hp; exact hp

@[simp] theorem State.lawSkip_fr (s : State) (i : LawIn) :
    (State.lawSkip s i).anchor.core = s.anchor.core ∧ (State.lawSkip s i).pending = s.pending := by
  constructor <;> simp [State.lawSkip]

@[simp] theorem State.lossEval_fr (s : State) (i : LawIn) (ovr : Bool) :
    (State.lossEval s i ovr).anchor.core = s.anchor.core ∧ (State.lossEval s i ovr).pending = s.pending := by
  constructor <;> (unfold State.lossEval; (try dsimp only); (repeat' split) <;> simp_all)

@[simp] theorem State.setVlim_fr (s : State) (n : Nat) (now : Bool) (tk : FTime) :
    (State.setVlim s n now tk).anchor.core = s.anchor.core ∧ (State.setVlim s n now tk).pending = s.pending := by
  constructor <;> (unfold State.setVlim; (try dsimp only); (repeat' split) <;> simp_all)

@[simp] theorem State.tqSnap_fr (s : State) (n : Nat) :
    (State.tqSnap s n).anchor.core = s.anchor.core ∧ (State.tqSnap s n).pending = s.pending := by
  constructor <;> simp [State.tqSnap]

@[simp] theorem State.showLive_fr (s : State) (n : Nat) (sec : Nat) (ct : Int) (cf : Bool) :
    (State.showLive s n sec ct cf).anchor.core = s.anchor.core ∧ (State.showLive s n sec ct cf).pending = s.pending := by
  constructor <;> simp [State.showLive]

@[simp] theorem State.torqueLaw_fr (s : State) (i : LawIn) :
    (State.torqueLaw s i).1.anchor.core = s.anchor.core ∧ (State.torqueLaw s i).1.pending = s.pending := by
  constructor <;> simp [State.torqueLaw]

theorem State.torqueLaw_eqfr (s : State) (i : LawIn) {sa sb} (hq : (State.torqueLaw s i) = (sa, sb)) :
    sa.anchor.core = s.anchor.core ∧ sa.pending = s.pending := by
  have hp := State.torqueLaw_fr s i; rw [hq] at hp; exact hp

@[simp] theorem State.spwmOf_fr (s : State) (i : LawIn) (on : List Nat) :
    (State.spwmOf s i on).1.anchor.core = s.anchor.core ∧ (State.spwmOf s i on).1.pending = s.pending := by
  constructor <;> simp [State.spwmOf]

theorem State.spwmOf_eqfr (s : State) (i : LawIn) (on : List Nat) {sa sb} (hq : (State.spwmOf s i on) = (sa, sb)) :
    sa.anchor.core = s.anchor.core ∧ sa.pending = s.pending := by
  have hp := State.spwmOf_fr s i on; rw [hq] at hp; exact hp

@[simp] theorem State.noteCurrent_fr (s : State) (i : LawIn) :
    (State.noteCurrent s i).anchor.core = s.anchor.core ∧ (State.noteCurrent s i).pending = s.pending := by
  constructor <;> (unfold State.noteCurrent; (try dsimp only); (repeat' split) <;> simp_all)

@[simp] theorem State.catchDone_fr (s : State) (n : Nat) :
    (State.catchDone s n).anchor.core = s.anchor.core ∧ (State.catchDone s n).pending = s.pending := by
  constructor <;> simp [State.catchDone]

@[simp] theorem State.emfEstimate_fr (s : State) (i : LawIn) (v : Vec) :
    (State.emfEstimate s i v).anchor.core = s.anchor.core ∧ (State.emfEstimate s i v).pending = s.pending := by
  constructor <;> (unfold State.emfEstimate; (try dsimp only); (repeat' split) <;> simp_all)

@[simp] theorem State.zeroEnd_fr (s : State) (i : LawIn) :
    (State.zeroEnd s i).anchor.core = s.anchor.core ∧ (State.zeroEnd s i).pending = s.pending := by
  unfold State.zeroEnd
  extract_lets n m s1 a psi th a2
  have h1 : s1.anchor.core = s.anchor.core ∧ s1.pending = s.pending := State.updAx_fr ..
  split
  · exact ⟨by simp [h1], by simp [h1]⟩
  · exact ⟨by simp [h1], by simp [h1]⟩

@[simp] theorem State.alignTick_fr (s : State) (i : LawIn) :
    (State.alignTick s i).1.anchor.core = s.anchor.core ∧ (State.alignTick s i).1.pending = s.pending := by
  constructor <;> (unfold State.alignTick; (try dsimp only); (repeat' split) <;> simp_all)

theorem State.alignTick_eqfr (s : State) (i : LawIn) {sa sb} (hq : (State.alignTick s i) = (sa, sb)) :
    sa.anchor.core = s.anchor.core ∧ sa.pending = s.pending := by
  have hp := State.alignTick_fr s i; rw [hq] at hp; exact hp

@[simp] theorem State.catchTick_fr (s : State) (i : LawIn) :
    (State.catchTick s i).1.anchor.core = s.anchor.core ∧ (State.catchTick s i).1.pending = s.pending := by
  constructor <;> (unfold State.catchTick; (try dsimp only); (repeat' split) <;> simp_all)

theorem State.catchTick_eqfr (s : State) (i : LawIn) {sa sb} (hq : (State.catchTick s i) = (sa, sb)) :
    sa.anchor.core = s.anchor.core ∧ sa.pending = s.pending := by
  have hp := State.catchTick_fr s i; rw [hq] at hp; exact hp

@[simp] theorem State.spwmLaw_fr (s : State) (i : LawIn) :
    (State.spwmLaw s i).1.anchor.core = s.anchor.core ∧ (State.spwmLaw s i).1.pending = s.pending := by
  constructor <;> (unfold State.spwmLaw; (try dsimp only); (repeat' split) <;> simp_all)

theorem State.spwmLaw_eqfr (s : State) (i : LawIn) {sa sb} (hq : (State.spwmLaw s i) = (sa, sb)) :
    sa.anchor.core = s.anchor.core ∧ sa.pending = s.pending := by
  have hp := State.spwmLaw_fr s i; rw [hq] at hp; exact hp

@[simp] theorem State.seenTwice_fr (s : State) (n : Nat) (hit : Bool) (act : State → State) (h0 : ∀ x0, (act x0).anchor.core = x0.anchor.core ∧ (act x0).pending = x0.pending) :
    (State.seenTwice s n hit act).anchor.core = s.anchor.core ∧ (State.seenTwice s n hit act).pending = s.pending := by
  constructor <;> (unfold State.seenTwice; (try dsimp only); (repeat' split) <;> simp_all [h0])

@[simp] theorem State.reactTick_fr (s : State) (i : LawIn) :
    (State.reactTick s i).anchor.core = s.anchor.core ∧ (State.reactTick s i).pending = s.pending := by
  unfold State.reactTick
  extract_lets n s1 rel
  have h1 : s1.anchor.core = s.anchor.core ∧ s1.pending = s.pending := State.noteCurrent_fr ..
  have h2 : ∀ hit act, (∀ x : State, (act x).anchor.core = x.anchor.core ∧ (act x).pending = x.pending) →
      (s1.seenTwice n hit act).anchor.core = s.anchor.core ∧ (s1.seenTwice n hit act).pending = s.pending :=
    fun hit act h => ⟨(State.seenTwice_fr s1 n hit act h).1.trans h1.1, (State.seenTwice_fr s1 n hit act h).2.trans h1.2⟩
  (repeat' split) <;> first
    | exact h1
    | exact h2 _ _ (fun x => State.updAx_fr ..)
    | exact h2 _ _ (fun x => by split <;> simp)
    | exact ⟨(State.updAx_fr ..).1.trans h1.1, (State.updAx_fr ..).2.trans h1.2⟩

@[simp] theorem State.lawIdle_fr (s : State) (i : LawIn) :
    (State.lawIdle s i).anchor.core = s.anchor.core ∧ (State.lawIdle s i).pending = s.pending := by
  constructor <;> simp [State.lawIdle]

@[simp] theorem State.lawProfile_fr (s : State) (i : LawIn) :
    (State.lawProfile s i).anchor.core = s.anchor.core ∧ (State.lawProfile s i).pending = s.pending := by
  constructor <;> simp [State.lawProfile]

@[simp] theorem State.camFetch_fr (s : State) (n : Nat) (tk : FTime) :
    (State.camFetch s n tk).1.anchor.core = s.anchor.core ∧ (State.camFetch s n tk).1.pending = s.pending := by
  constructor <;> (unfold State.camFetch; (try dsimp only); (repeat' split) <;> simp_all)

theorem State.camFetch_eqfr (s : State) (n : Nat) (tk : FTime) {sa sb} (hq : (State.camFetch s n tk) = (sa, sb)) :
    sa.anchor.core = s.anchor.core ∧ sa.pending = s.pending := by
  have hp := State.camFetch_fr s n tk; rw [hq] at hp; exact hp

@[simp] theorem State.axisRun_fr (s : State) (l : Nat) (e : LEvent) (n : Nat) :
    (State.axisRun s l e n).anchor.core = s.anchor.core ∧ (State.axisRun s l e n).pending = s.pending := by
  constructor <;> (unfold State.axisRun; (try dsimp only); (repeat' split) <;> simp_all)

@[simp] theorem State.axisLaw_fr (s : State) (l : Nat) (e : LEvent) (n : Nat) :
    (State.axisLaw s l e n).anchor.core = s.anchor.core ∧ (State.axisLaw s l e n).pending = s.pending := by
  constructor <;> (unfold State.axisLaw; (try dsimp only); (repeat' split) <;> simp_all)

@[simp] theorem State.stockItem_fr (s : State) (l : Nat) (tick : Bool) :
    (State.stockItem s l tick).anchor.core = s.anchor.core ∧ (State.stockItem s l tick).pending = s.pending := by
  constructor <;> (unfold State.stockItem; (try dsimp only); (repeat' split) <;> simp_all)

theorem execWorkItemFrame_fr (lane : Fin 16) (s : State) : ∃ s', (execWorkItemFrame lane s) = .next s' ∧ s'.anchor.core = s.anchor.core ∧ s'.pending = s.pending := by
  unfold execWorkItemFrame
  (try dsimp only)
  (repeat' split) <;> exact ⟨_, rfl, by simp, by simp⟩

theorem execWorkItemTick_fr (lane : Fin 16) (s : State) : ∃ s', (execWorkItemTick lane s) = .next s' ∧ s'.anchor.core = s.anchor.core ∧ s'.pending = s.pending := by
  unfold execWorkItemTick
  (try dsimp only)
  (repeat' split) <;> exact ⟨_, rfl, by simp, by simp⟩

/-! ### TickUp -/

@[simp] theorem State.openTick_fr (s : State) (k : Nat) (tk : FTime) (j : Int) :
    (State.openTick s k tk j).anchor.core = s.anchor.core ∧ (State.openTick s k tk j).pending = s.pending := by
  constructor <;> simp [State.openTick]

@[simp] theorem State.takeDelay_fr (s : State) (n : Nat) (d : Nat) (c : Nat) :
    (State.takeDelay s n d c).anchor.core = s.anchor.core ∧ (State.takeDelay s n d c).pending = s.pending := by
  constructor <;> simp [State.takeDelay]

@[simp] theorem State.planApplied_fr (s : State) (n : Nat) (applyT : FTime) :
    (State.planApplied s n applyT).anchor.core = s.anchor.core ∧ (State.planApplied s n applyT).pending = s.pending := by
  constructor <;> (unfold State.planApplied; (try dsimp only); (repeat' split) <;> simp_all)

@[simp] theorem State.measure_fr (s : State) (k : Nat) (n : Nat) (tk : FTime) (period : Nat) (missed : Bool) (applyT : FTime) :
    (State.measure s k n tk period missed applyT).anchor.core = s.anchor.core ∧ (State.measure s k n tk period missed applyT).pending = s.pending := by
  constructor <;> (unfold State.measure; (try dsimp only); (repeat' split) <;> simp_all)

@[simp] theorem State.missRecord_fr (s : State) (n : Nat) :
    (State.missRecord s n).anchor.core = s.anchor.core ∧ (State.missRecord s n).pending = s.pending := by
  constructor <;> simp [State.missRecord]

@[simp] theorem State.deliver_fr (s : State) (k : Nat) (n : Nat) (tk : FTime) (r : BitVec 128) :
    (State.deliver s k n tk r).anchor.core = s.anchor.core ∧ (State.deliver s k n tk r).pending = s.pending := by
  constructor <;> simp [State.deliver]

@[simp] theorem State.frameEvents_fr (s : State) (ns : List Nat) (tk : FTime) (j : Int) (subst : Bool) (lanes : List Nat) :
    (State.frameEvents s ns tk j subst lanes).anchor.core = s.anchor.core
      ∧ (State.frameEvents s ns tk j subst lanes).pending = s.pending :=
  foldl_fr _ _ _ (fun s x => by (try dsimp only); split <;> simp)

@[simp] theorem State.upReport_fr (s : State) (t : Nat) (addr : Nat) (f : BitVec 80) :
    (State.upReport s t addr f).anchor.core = s.anchor.core ∧ (State.upReport s t addr f).pending = s.pending := by
  constructor <;> simp [State.upReport]

theorem execTickUpReceive_fr (t : Fin 25) (addr : Fin 64) (seq : BitVec 8) (fixed : BitVec 80) (recs : List (BitVec 128)) (q : RxQual) (s : State) : ∃ s', (execTickUpReceive t addr seq fixed recs q s) = .next s' ∧ s'.anchor.core = s.anchor.core ∧ s'.pending = s.pending := by
  refine ⟨_, rfl, State.rx_fr _ _ _ _ _ ?_⟩
  intro x
  extract_lets k plan c x0 j tk substed x1 at_ x2 x3 ns x4 x5
  have h0 : x0.anchor.core = x.anchor.core ∧ x0.pending = x.pending := State.returnCredits_fr ..
  have h1 : x1.anchor.core = x.anchor.core ∧ x1.pending = x.pending := by simp [x1, h0]
  have h2 : x2.anchor.core = x.anchor.core ∧ x2.pending = x.pending := by simp [x2, h1]
  have h3 : x3.anchor.core = x.anchor.core ∧ x3.pending = x.pending := by simp [x3, h2]
  have h4 : x4.anchor.core = x.anchor.core ∧ x4.pending = x.pending := by
    have h := foldl_fr (fun s r => match ns.find? (fun n => s.axCh n == recCH r) with
        | some n => s.deliver k n tk r
        | none => s) recs x3 (fun s r => by split <;> simp)
    exact ⟨h.1.trans h3.1, h.2.trans h3.2⟩
  have h5 : x5.anchor.core = x.anchor.core ∧ x5.pending = x.pending := by simp [x5, h4]
  (repeat' split) <;> first | exact ⟨rfl, rfl⟩ | exact h0 | (constructor <;> simp [h5])

theorem execSubstituteFrameEvent_fr (lane : Fin 16) (t : Fin 25) (pos : Fin 64) (s : State) : ∃ s', (execSubstituteFrameEvent lane t pos s) = .next s' ∧ s'.anchor.core = s.anchor.core ∧ s'.pending = s.pending := by
  unfold execSubstituteFrameEvent
  (try dsimp only)
  (repeat' split) <;> exact ⟨_, rfl, by simp, by simp⟩

theorem execIdentReceive_fr (t : Fin 25) (pos : Fin 64) (block : List Byte) (hops : Fin 64) (cableMm : Nat) (q : RxQual) (s : State) :
    ∃ s', execIdentReceive t pos block hops cableMm q s = .next s' ∧ s'.anchor.core = s.anchor.core ∧ s'.pending = s.pending := by
  refine ⟨_, rfl, State.rx_fr _ _ _ _ _ ?_⟩
  intro x
  dsimp only
  (repeat' split) <;> simp

theorem execTickUpMissing_fr (t : Fin 25) (pos : Fin 64) (s : State) : ∃ s', (execTickUpMissing t pos s) = .next s' ∧ s'.anchor.core = s.anchor.core ∧ s'.pending = s.pending := by
  unfold execTickUpMissing
  (try dsimp only)
  (repeat' split) <;> exact ⟨_, rfl, by simp, by simp⟩

@[simp] theorem State.loseGondola_fr (s : State) (t : Nat) (g : Nat) :
    (State.loseGondola s t g).anchor.core = s.anchor.core ∧ (State.loseGondola s t g).pending = s.pending := by
  constructor <;> simp [State.loseGondola]

theorem execGondolaLost_fr (t : Fin 25) (pos : Fin 64) (cause : LossCause) (s : State) : ∃ s', (execGondolaLost t pos cause s) = .next s' ∧ s'.anchor.core = s.anchor.core ∧ s'.pending = s.pending := by
  unfold execGondolaLost
  (try dsimp only)
  (repeat' split) <;> exact ⟨_, rfl, by simp, by simp⟩

theorem execBulkReceive_fr (t : Fin 25) (pos : Fin 64) (stream : BitVec 8) (last : Bool) (offset : Word) (data : List Byte) (q : RxQual) (s : State) : ∃ s', (execBulkReceive t pos stream last offset data q s) = .next s' ∧ s'.anchor.core = s.anchor.core ∧ s'.pending = s.pending := by
  refine ⟨_, rfl, State.rx_fr _ _ _ _ _ ?_⟩
  intro x
  dsimp only
  (repeat' split) <;> constructor <;> simp_all

@[simp] theorem State.startFrame_fr (s : State) (t : Nat) (f : Frame) :
    (State.startFrame s t f).anchor.core = s.anchor.core ∧ (State.startFrame s t f).pending = s.pending := by
  constructor <;> simp [State.startFrame]

@[simp] theorem State.spend_fr (s : State) (t : Nat) (f : Frame) :
    (State.spend s t f).anchor.core = s.anchor.core ∧ (State.spend s t f).pending = s.pending := by
  constructor <;> simp [State.spend]

@[simp] theorem State.nonTickStart_fr (s : State) (t : Nat) :
    (State.nonTickStart s t).anchor.core = s.anchor.core ∧ (State.nonTickStart s t).pending = s.pending := by
  constructor <;> (unfold State.nonTickStart; (try dsimp only); (repeat' split) <;> simp_all)

theorem execNonTickFrameStart_fr (e : LinkEnd) (now : FTime) (s : State) : ∃ s', (execNonTickFrameStart e now s) = .next s' ∧ s'.anchor.core = s.anchor.core ∧ s'.pending = s.pending := by
  unfold execNonTickFrameStart
  (try dsimp only)
  (repeat' split) <;> exact ⟨_, rfl, by simp, by simp⟩

/-! ### Plan -/

@[simp] theorem canWritten_fr (s : State) :
    (canWritten s).anchor.core = s.anchor.core ∧ (canWritten s).pending = s.pending := by
  constructor <;> simp [canWritten]

theorem execCanTableBuildComplete_fr (s : State) : ∃ s', (execCanTableBuildComplete s) = .next s' ∧ s'.anchor.core = s.anchor.core ∧ s'.pending = s.pending := by
  unfold execCanTableBuildComplete
  (try dsimp only)
  (repeat' split) <;> exact ⟨_, rfl, by simp, by simp⟩

@[simp] theorem State.direct_fr (s : State) (action : Nat) (c : Nat) (k : Nat) (id : BitVec 29) (ide : Bool) (data : List Byte) (right : Bool) (act : State → State × Nat) (h0 : ∀ x0, (act x0).1.anchor.core = x0.anchor.core ∧ (act x0).1.pending = x0.pending) :
    (State.direct s action c k id ide data right act).anchor.core = s.anchor.core ∧ (State.direct s action c k id ide data right act).pending = s.pending := by
  constructor <;> (unfold State.direct; (try dsimp only); (repeat' split) <;> simp_all [h0])

theorem execDcmdStop_fr (c : Fin 4) (dcidx : Fin 64) (id : BitVec 29) (ide : Bool) (data : List Byte) (s : State) : ∃ s', (execDcmdStop c dcidx id ide data s) = .next s' ∧ s'.anchor.core = s.anchor.core ∧ s'.pending = s.pending := by
  unfold execDcmdStop
  (try dsimp only)
  (repeat' split) <;> exact ⟨_, rfl, by simp, by simp⟩

theorem execDcmdReq_fr (c : Fin 4) (dcidx : Fin 64) (id : BitVec 29) (ide : Bool) (data : List Byte) (s : State) : ∃ s', (execDcmdReq c dcidx id ide data s) = .next s' ∧ s'.anchor.core = s.anchor.core ∧ s'.pending = s.pending := by
  unfold execDcmdReq
  (try dsimp only)
  (repeat' split) <;> exact ⟨_, rfl, by simp, by simp⟩

theorem execDcmdSect_fr (c : Fin 4) (dcidx : Fin 64) (id : BitVec 29) (ide : Bool) (data : List Byte) (s : State) : ∃ s', (execDcmdSect c dcidx id ide data s) = .next s' ∧ s'.anchor.core = s.anchor.core ∧ s'.pending = s.pending := by
  refine ⟨_, rfl, State.direct_fr _ _ _ _ _ _ _ _ _ ?_⟩
  intro x
  exact foldl_fr _ _ _ (fun s i => by split <;> simp)

theorem execDcmdFout_fr (c : Fin 4) (dcidx : Fin 64) (id : BitVec 29) (ide : Bool) (data : List Byte) (s : State) : ∃ s', (execDcmdFout c dcidx id ide data s) = .next s' ∧ s'.anchor.core = s.anchor.core ∧ s'.pending = s.pending := by
  unfold execDcmdFout
  (try dsimp only)
  (repeat' split) <;> exact ⟨_, rfl, by simp, by simp⟩

@[simp] theorem State.rmTake_fr (s : State) (p : Nat) (r : Nat) (t : FTime) (pos : Val) (v : Val) :
    (State.rmTake s p r t pos v).anchor.core = s.anchor.core ∧ (State.rmTake s p r t pos v).pending = s.pending := by
  constructor <;> simp [State.rmTake]

theorem execMasterMessage_fr (port : Fin 2) (mid : Word) (t : FTime) (p : BitVec 64) (v : BitVec 64) (s : State) : ∃ s', (execMasterMessage port mid t p v s) = .next s' ∧ s'.anchor.core = s.anchor.core ∧ s'.pending = s.pending := by
  unfold execMasterMessage
  (try dsimp only)
  (repeat' split) <;> exact ⟨_, rfl, by simp, by simp⟩

@[simp] theorem State.setTxq_fr (s : State) (f : Nat) (l : List TxItem) :
    (State.setTxq s f l).anchor.core = s.anchor.core ∧ (State.setTxq s f l).pending = s.pending := by
  constructor <;> simp [State.setTxq]

theorem execPublishMaster_fr (q : Fin 16) (s : State) : ∃ s', (execPublishMaster q s) = .next s' ∧ s'.anchor.core = s.anchor.core ∧ s'.pending = s.pending := by
  unfold execPublishMaster
  (try dsimp only)
  (repeat' split) <;> exact ⟨_, rfl, by simp, by simp⟩

end Sys2Proof.Machine
end

