-- ==== Sys2Proof/Laws/FrameHost.lean ====
section
/-! SUPPORT. Frames of the host port, commits, the service objects, start-up, the mailbox, descriptors and the stream port: what no definition of them touches, the core of the anchor and the queue. -/
namespace Sys2Proof.Machine

open Sys2Proof

set_option linter.unusedTactic false
set_option linter.unreachableTactic false
set_option linter.unusedSimpArgs false
set_option linter.unnecessarySeqFocus false
set_option linter.unusedVariables false

/-! ### Commit -/

@[simp] theorem State.sat_fr (s : State) (o : Nat) :
    (State.sat s o).anchor.core = s.anchor.core ∧ (State.sat s o).pending = s.pending := by
  constructor <;> (unfold State.sat; (try dsimp only); (repeat' split) <;> simp_all)

@[simp] theorem State.loadOne_fr (c : CommitRec) (s : State) (o : Nat) :
    (State.loadOne c s o).anchor.core = s.anchor.core ∧ (State.loadOne c s o).pending = s.pending := by
  constructor <;> (unfold State.loadOne; (try dsimp only); (repeat' split) <;> simp_all)

@[simp] theorem State.limitTo_fr (s : State) (o : Nat) (f : Sh) (bad : Bool) (v : Nat) :
    (State.limitTo s o f bad v).anchor.core = s.anchor.core ∧ (State.limitTo s o f bad v).pending = s.pending := by
  constructor <;> simp [State.limitTo]

@[simp] theorem State.limitAxis_fr (s : State) (n : Nat) :
    (State.limitAxis s n).anchor.core = s.anchor.core ∧ (State.limitAxis s n).pending = s.pending := by
  constructor <;> simp [State.limitAxis]

@[simp] theorem State.limitEmu_fr (s : State) (e : Nat) :
    (State.limitEmu s e).anchor.core = s.anchor.core ∧ (State.limitEmu s e).pending = s.pending := by
  constructor <;> simp [State.limitEmu]

@[simp] theorem State.lifted_fr (s : State) :
    (State.lifted s).anchor.core = s.anchor.core ∧ (State.lifted s).pending = s.pending := by
  constructor <;> simp [State.lifted]

@[simp] theorem State.loaded_fr (s : State) (c : CommitRec) :
    (State.loaded s c).anchor.core = s.anchor.core ∧ (State.loaded s c).pending = s.pending := by
  constructor <;> simp [State.loaded]

@[simp] theorem State.stageGon_fr (s : State) (k : Nat) (regs : List (Nat × Word)) (at_ : FTime) :
    (State.stageGon s k regs at_).anchor.core = s.anchor.core ∧ (State.stageGon s k regs at_).pending = s.pending := by
  constructor <;> simp [State.stageGon]

@[simp] theorem State.stageGons_fr (s : State) (l : List (Nat × List (Nat × Word))) (at_ : FTime) :
    (State.stageGons s l at_).anchor.core = s.anchor.core ∧ (State.stageGons s l at_).pending = s.pending := by
  exact foldl_fr _ _ _ (fun s e => State.stageGon_fr ..)

@[simp] theorem State.commitDone_fr (s : State) (k : Option Nat) (status : Nat) (payload : Nat) :
    (State.commitDone s k status payload).anchor.core = s.anchor.core ∧ (State.commitDone s k status payload).pending = s.pending := by
  constructor <;> (unfold State.commitDone; (try dsimp only); (repeat' split) <;> simp_all)

@[simp] theorem State.commitRefuse_fr (s : State) (k : Option Nat) (e : CommitNo) :
    (State.commitRefuse s k e).anchor.core = s.anchor.core ∧ (State.commitRefuse s k e).pending = s.pending := by
  constructor <;> simp [State.commitRefuse]

@[simp] theorem State.commitIdle_fr (s : State) :
    (State.commitIdle s).anchor.core = s.anchor.core ∧ (State.commitIdle s).pending = s.pending := by
  constructor <;> simp [State.commitIdle]

@[simp] theorem State.commitOffer_fr (s : State) (groups : BitVec 8) (axsel : BitVec 256) (at_ : Option FTime) (cmd : Option Nat) (early : Bool) :
    (State.commitOffer s groups axsel at_ cmd early).anchor.core = s.anchor.core ∧ (State.commitOffer s groups axsel at_ cmd early).pending = s.pending := by
  constructor <;> simp [State.commitOffer]

@[simp] theorem State.commitDrop_fr (s : State) (c : CommitRec) (cause : Nat) :
    (State.commitDrop s c cause).anchor.core = s.anchor.core ∧ (State.commitDrop s c cause).pending = s.pending := by
  constructor <;> simp [State.commitDrop]

@[simp] theorem State.commitCancel_fr (s : State) :
    (State.commitCancel s).anchor.core = s.anchor.core ∧ (State.commitCancel s).pending = s.pending := by
  constructor <;> (unfold State.commitCancel; (try dsimp only); (repeat' split) <;> simp_all)

@[simp] theorem glbCommitWritten_fr (v : Word) (s : State) :
    (glbCommitWritten v s).anchor.core = s.anchor.core ∧ (glbCommitWritten v s).pending = s.pending := by
  constructor <;> simp [glbCommitWritten]

theorem execCommitOffer_fr (via : RegPath) (v : Word) (s : State) : ∃ s', (execCommitOffer via v s) = .next s' ∧ s'.anchor.core = s.anchor.core ∧ s'.pending = s.pending := by
  unfold execCommitOffer
  (try dsimp only)
  (repeat' split) <;> exact ⟨_, rfl, by simp, by simp⟩

theorem execCommitCancel_fr (via : RegPath) (s : State) : ∃ s', (execCommitCancel via s) = .next s' ∧ s'.anchor.core = s.anchor.core ∧ s'.pending = s.pending := by
  unfold execCommitCancel
  (try dsimp only)
  (repeat' split) <;> exact ⟨_, rfl, by simp, by simp⟩

@[simp] theorem State.giveIndex_fr (s : State) (l : Nat) (old : List Nat) :
    (State.giveIndex s l old).anchor.core = s.anchor.core ∧ (State.giveIndex s l old).pending = s.pending := by
  constructor <;> simp [State.giveIndex]

@[simp] theorem State.bankView_fr (s : State) (l : Nat) :
    (State.bankView s l).anchor.core = s.anchor.core ∧ (State.bankView s l).pending = s.pending := by
  constructor <;> (unfold State.bankView; (try dsimp only); (repeat' split) <;> simp_all)

@[simp] theorem State.flipBank_fr (s : State) (l : Nat) :
    (State.flipBank s l).anchor.core = s.anchor.core ∧ (State.flipBank s l).pending = s.pending := by
  constructor <;> simp [State.flipBank]

@[simp] theorem State.setWdg_fr (s : State) (l : Nat) :
    (State.setWdg s l).anchor.core = s.anchor.core ∧ (State.setWdg s l).pending = s.pending := by
  constructor <;> simp [State.setWdg]

@[simp] theorem State.setSlack_fr (s : State) (l : Nat) :
    (State.setSlack s l).anchor.core = s.anchor.core ∧ (State.setSlack s l).pending = s.pending := by
  constructor <;> simp [State.setSlack]

theorem execCommitCheckComplete_fr (s : State) : ∃ s', (execCommitCheckComplete s) = .next s' ∧ s'.anchor.core = s.anchor.core ∧ s'.pending = s.pending := by
  unfold execCommitCheckComplete
  split
  · exact ⟨_, rfl, rfl, rfl⟩
  · extract_lets b p l staged s1 c1
    have h1 : s1.anchor.core = s.anchor.core ∧ s1.pending = s.pending := by simp [s1]
    split
    · exact ⟨_, rfl, rfl, rfl⟩
    · split
      · exact ⟨_, rfl, by simp, by simp⟩
      · split
        · exact ⟨_, rfl, by simp, by simp⟩
        · exact ⟨_, rfl, by simp [h1], by simp [h1]⟩

@[simp] theorem State.applyAxis_fr (old s : State) (n : Nat) :
    (State.applyAxis old s n).anchor.core = s.anchor.core ∧ (State.applyAxis old s n).pending = s.pending := by
  unfold State.applyAxis
  extract_lets cfg re s1 fb place s2 md s3 s4 s5
  have h1 : s1.anchor.core = s.anchor.core ∧ s1.pending = s.pending := by simp [s1]
  have h2 : s2.anchor.core = s.anchor.core ∧ s2.pending = s.pending := by simp [s2, h1]
  have h3 : s3.anchor.core = s.anchor.core ∧ s3.pending = s.pending := by simp [s3, h2]
  have h4 : s4.anchor.core = s.anchor.core ∧ s4.pending = s.pending := by simp [s4, h2, h3]
  have h5 : s5.anchor.core = s.anchor.core ∧ s5.pending = s.pending := by simp [s5, h4]
  simp [h5]

@[simp] theorem State.applyPulse_fr (old s : State) :
    (State.applyPulse old s).anchor.core = s.anchor.core ∧ (State.applyPulse old s).pending = s.pending := by
  simp [State.applyPulse]

@[simp] theorem State.applyTether_fr (s : State) :
    (State.applyTether s).anchor.core = s.anchor.core ∧ (State.applyTether s).pending = s.pending := by
  constructor <;> simp [State.applyTether]

@[simp] theorem State.planChanged_fr (old : State) (ch : List Nat) (lanes : List Nat) (s : State) :
    (State.planChanged old ch lanes s).anchor.core = s.anchor.core ∧ (State.planChanged old ch lanes s).pending = s.pending := by
  constructor <;> simp [State.planChanged]

@[simp] theorem State.busMoved_fr (old : State) (s : State) :
    (State.busMoved old s).anchor.core = s.anchor.core ∧ (State.busMoved old s).pending = s.pending := by
  constructor <;> (unfold State.busMoved; (try dsimp only); (repeat' split) <;> simp_all)

@[simp] theorem State.planLift_fr (s : State) (h : PlanHold) :
    (State.planLift s h).anchor.core = s.anchor.core ∧ (State.planLift s h).pending = s.pending := by
  constructor <;> simp [State.planLift]

@[simp] theorem State.planTake_fr (s : State) :
    (State.planTake s).anchor.core = s.anchor.core ∧ (State.planTake s).pending = s.pending := by
  constructor <;> simp [State.planTake]

@[simp] theorem State.commitApply_fr (s : State) (c : CommitRec) :
    (State.commitApply s c).anchor.core = s.anchor.core ∧ (State.commitApply s c).pending = s.pending := by
  unfold State.commitApply
  extract_lets old b p at_ s1 ch lanes s2 s3 s4 s5 s6 s7 s8 s9 s10 st s11 s12 s13
  have h1 : s1.anchor.core = s.anchor.core ∧ s1.pending = s.pending := by simp [s1, p, b]
  have h2 : s2.anchor.core = s.anchor.core ∧ s2.pending = s.pending := by simp [s2, h1]
  have h3 : s3.anchor.core = s.anchor.core ∧ s3.pending = s.pending := by simp [s3, h2]
  have h4 : s4.anchor.core = s.anchor.core ∧ s4.pending = s.pending := by simp [s4, h3]
  have h5 : s5.anchor.core = s.anchor.core ∧ s5.pending = s.pending := by simp [s5, h4]
  have h6 : s6.anchor.core = s.anchor.core ∧ s6.pending = s.pending := by simp [s6, h5]
  have h7 : s7.anchor.core = s.anchor.core ∧ s7.pending = s.pending := by simp [s7, h6]
  have h8 : s8.anchor.core = s.anchor.core ∧ s8.pending = s.pending := by simp [s8, h7]
  have h9 : s9.anchor.core = s.anchor.core ∧ s9.pending = s.pending := by simp [s9, h8]
  have h10 : s10.anchor.core = s.anchor.core ∧ s10.pending = s.pending := by simp [s10, h9]
  have h11 : s11.anchor.core = s.anchor.core ∧ s11.pending = s.pending := by simp [s11, h10]
  have h12 : s12.anchor.core = s.anchor.core ∧ s12.pending = s.pending := by simp [s12, h11]
  have h13 : s13.anchor.core = s.anchor.core ∧ s13.pending = s.pending := by simp [s13, h12]
  constructor <;> simp [h13]

theorem execCommitApply_fr (s : State) : ∃ s', (execCommitApply s) = .next s' ∧ s'.anchor.core = s.anchor.core ∧ s'.pending = s.pending := by
  unfold execCommitApply
  (try dsimp only)
  (repeat' split) <;> exact ⟨_, rfl, by simp, by simp⟩

@[simp] theorem mboPeek_fr (off : BitVec 24) (s : State) :
    (mboPeek off s).st.anchor.core = s.anchor.core ∧ (mboPeek off s).st.pending = s.pending := by
  constructor <;> simp [mboPeek]

@[simp] theorem mboCfgWork_fr (off : BitVec 24) (s : State) :
    (mboCfgWork off s).st.anchor.core = s.anchor.core ∧ (mboCfgWork off s).st.pending = s.pending := by
  constructor <;> (unfold mboCfgWork; (try dsimp only); (repeat' split) <;> simp_all)

@[simp] theorem mboCmAtRead_fr (s : State) :
    (mboCmAtRead s).st.anchor.core = s.anchor.core ∧ (mboCmAtRead s).st.pending = s.pending := by
  constructor <;> simp [mboCmAtRead]

@[simp] theorem mboCmAtWrite_fr (at_ : FTime) (s : State) :
    (mboCmAtWrite at_ s).st.anchor.core = s.anchor.core ∧ (mboCmAtWrite at_ s).st.pending = s.pending := by
  constructor <;> simp [mboCmAtWrite]

theorem execPeek_fr (set : Fin 4) (via : RegPath) (off : BitVec 24) (s : State) : ∃ s', (execPeek set via off s) = .next s' ∧ s'.anchor.core = s.anchor.core ∧ s'.pending = s.pending := by
  unfold execPeek
  (try dsimp only)
  (repeat' split) <;> exact ⟨_, rfl, by simp, by simp⟩

theorem execCfgWork_fr (set : Fin 4) (via : RegPath) (off : BitVec 24) (s : State) : ∃ s', (execCfgWork set via off s) = .next s' ∧ s'.anchor.core = s.anchor.core ∧ s'.pending = s.pending := by
  unfold execCfgWork
  (try dsimp only)
  (repeat' split) <;> exact ⟨_, rfl, by simp, by simp⟩

theorem execCmAtRead_fr (set : Fin 4) (via : RegPath) (s : State) : ∃ s', (execCmAtRead set via s) = .next s' ∧ s'.anchor.core = s.anchor.core ∧ s'.pending = s.pending := by
  unfold execCmAtRead
  (try dsimp only)
  (repeat' split) <;> exact ⟨_, rfl, by simp, by simp⟩

theorem execCmAtWrite_fr (set : Fin 4) (via : RegPath) (at_ : FTime) (s : State) : ∃ s', (execCmAtWrite set via at_ s) = .next s' ∧ s'.anchor.core = s.anchor.core ∧ s'.pending = s.pending := by
  unfold execCmAtWrite
  (try dsimp only)
  (repeat' split) <;> exact ⟨_, rfl, by simp, by simp⟩

/-! ### Service -/

@[simp] theorem State.movedTo_fr (s : State) (dst : Nat) (axes : List Nat) :
    (State.movedTo s dst axes).anchor.core = s.anchor.core ∧ (State.movedTo s dst axes).pending = s.pending := by
  constructor <;> simp [State.movedTo]

@[simp] theorem State.migMark_fr (s : State) (r : Nat) :
    (State.migMark s r).anchor.core = s.anchor.core ∧ (State.migMark s r).pending = s.pending := by
  constructor <;> simp [State.migMark]

@[simp] theorem State.migBegin_fr (s : State) (src : Nat) (dst : Nat) (axes : List Nat) (at_ : FTime) (repair : Bool) (cmd : Option Nat) :
    (State.migBegin s src dst axes at_ repair cmd).anchor.core = s.anchor.core ∧ (State.migBegin s src dst axes at_ repair cmd).pending = s.pending := by
  constructor <;> simp [State.migBegin]

@[simp] theorem State.migOffer_fr (s : State) (src : Nat) (dst : Nat) (axes : List Nat) (at_ : FTime) (cmd : Option Nat) :
    (State.migOffer s src dst axes at_ cmd).anchor.core = s.anchor.core ∧ (State.migOffer s src dst axes at_ cmd).pending = s.pending := by
  constructor <;> (unfold State.migOffer; (try dsimp only); (repeat' split) <;> simp_all)

@[simp] theorem State.migAbort_fr (s : State) (m : Migration) (r : Nat) :
    (State.migAbort s m r).anchor.core = s.anchor.core ∧ (State.migAbort s m r).pending = s.pending := by
  constructor <;> simp [State.migAbort]

@[simp] theorem State.migDone_fr (s : State) (m : Migration) :
    (State.migDone s m).anchor.core = s.anchor.core ∧ (State.migDone s m).pending = s.pending := by
  constructor <;> simp [State.migDone]

theorem execMigrationCheckEnd_fr (s : State) : ∃ s', (execMigrationCheckEnd s) = .next s' ∧ s'.anchor.core = s.anchor.core ∧ s'.pending = s.pending := by
  unfold execMigrationCheckEnd
  (try dsimp only)
  (repeat' split) <;> exact ⟨_, rfl, by simp, by simp⟩

@[simp] theorem State.migTreat_fr (s : State) (n : Nat) (tb : FTime) :
    (State.migTreat s n tb).anchor.core = s.anchor.core ∧ (State.migTreat s n tb).pending = s.pending := by
  constructor <;> simp [State.migTreat]

@[simp] theorem State.migMove_fr (s : State) (m : Migration) (n : Nat) (k : Nat) :
    (State.migMove s m n k).anchor.core = s.anchor.core ∧ (State.migMove s m n k).pending = s.pending := by
  constructor <;> simp [State.migMove]

theorem execMigrationSwitch_fr (n : Fin 256) (s : State) : ∃ s', (execMigrationSwitch n s) = .next s' ∧ s'.anchor.core = s.anchor.core ∧ s'.pending = s.pending := by
  unfold execMigrationSwitch
  (try dsimp only)
  (repeat' split) <;> exact ⟨_, rfl, by simp, by simp⟩

@[simp] theorem State.repairStart_fr (s : State) (l : Nat) :
    (State.repairStart s l).anchor.core = s.anchor.core ∧ (State.repairStart s l).pending = s.pending := by
  constructor <;> (unfold State.repairStart; (try dsimp only); (repeat' split) <;> simp_all)

theorem execRepairMigrationStart_fr (l : Fin 16) (s : State) : ∃ s', (execRepairMigrationStart l s) = .next s' ∧ s'.anchor.core = s.anchor.core ∧ s'.pending = s.pending := by
  unfold execRepairMigrationStart
  (try dsimp only)
  (repeat' split) <;> exact ⟨_, rfl, by simp, by simp⟩

@[simp] theorem State.lnLoadEvent_fr (s : State) (l : Nat) (status : Nat) :
    (State.lnLoadEvent s l status).anchor.core = s.anchor.core ∧ (State.lnLoadEvent s l status).pending = s.pending := by
  constructor <;> simp [State.lnLoadEvent]

@[simp] theorem State.passed_fr (s : State) (l : Nat) :
    (State.passed s l).anchor.core = s.anchor.core ∧ (State.passed s l).pending = s.pending := by
  constructor <;> simp [State.passed]

@[simp] theorem State.lnTested_fr (s : State) (l : Nat) (b : List Byte) (ok : Bool) :
    (State.lnTested s l b ok).anchor.core = s.anchor.core ∧ (State.lnTested s l b ok).pending = s.pending := by
  constructor <;> simp [State.lnTested]

theorem execLaneLoadComplete_fr (l : Fin 16) (res : LoadResult) (s : State) : ∃ s', (execLaneLoadComplete l res s) = .next s' ∧ s'.anchor.core = s.anchor.core ∧ s'.pending = s.pending := by
  unfold execLaneLoadComplete
  (try dsimp only)
  (repeat' split) <;> exact ⟨_, rfl, by simp, by simp⟩

@[simp] theorem State.ifReady_fr (s : State) (perform : State → MbxRes) (h0 : ∀ x0, (perform x0).st.anchor.core = x0.anchor.core ∧ (perform x0).st.pending = x0.pending) :
    (State.ifReady s perform).st.anchor.core = s.anchor.core ∧ (State.ifReady s perform).st.pending = s.pending := by
  constructor <;> simp [State.ifReady, h0]

@[simp] theorem mboLnLoad_fr (via : RegPath) (addr : BitVec 64) (len : Word) (mask : Word) (s : State) :
    (mboLnLoad via addr len mask s).st.anchor.core = s.anchor.core ∧ (mboLnLoad via addr len mask s).st.pending = s.pending := by
  constructor <;> (unfold mboLnLoad; (try dsimp only); (repeat' split) <;> simp_all)

theorem execLnLoad_fr (set : Fin 4) (via : RegPath) (addr : BitVec 64) (len : Word) (mask : Word) (s : State) : ∃ s', (execLnLoad set via addr len mask s) = .next s' ∧ s'.anchor.core = s.anchor.core ∧ s'.pending = s.pending := by
  unfold execLnLoad
  (try dsimp only)
  (repeat' split) <;> exact ⟨_, rfl, by simp, by simp⟩

@[simp] theorem mboTtRipclr_fr (i : BitVec 14) (s : State) :
    (mboTtRipclr i s).st.anchor.core = s.anchor.core ∧ (mboTtRipclr i s).st.pending = s.pending := by
  constructor <;> simp [mboTtRipclr]

theorem execTtRipclr_fr (set : Fin 4) (via : RegPath) (index : BitVec 14) (s : State) : ∃ s', (execTtRipclr set via index s) = .next s' ∧ s'.anchor.core = s.anchor.core ∧ s'.pending = s.pending := by
  unfold execTtRipclr
  (try dsimp only)
  (repeat' split) <;> exact ⟨_, rfl, by simp, by simp⟩

@[simp] theorem State.setPilot_fr (s : State) (p : Nat) (x : Pilot) :
    (State.setPilot s p x).anchor.core = s.anchor.core ∧ (State.setPilot s p x).pending = s.pending := by
  constructor <;> simp [State.setPilot]

@[simp] theorem State.slotShow_fr (s : State) (b : Bool) (ok : Bool) (version : Word) :
    (State.slotShow s b ok version).anchor.core = s.anchor.core ∧ (State.slotShow s b ok version).pending = s.pending := by
  constructor <;> simp [State.slotShow]

@[simp] theorem State.pilotEvent_fr (s : State) (src : Nat) (what : Nat) (slot : Bool) :
    (State.pilotEvent s src what slot).anchor.core = s.anchor.core ∧ (State.pilotEvent s src what slot).pending = s.pending := by
  constructor <;> simp [State.pilotEvent]

@[simp] theorem mboPlUpd_fr (len : Word) (s : State) :
    (mboPlUpd len s).st.anchor.core = s.anchor.core ∧ (mboPlUpd len s).st.pending = s.pending := by
  apply State.ifReady_fr
  intro x
  dsimp only
  split <;> simp

theorem execPlUpd_fr (set : Fin 4) (via : RegPath) (addr : BitVec 64) (len : Word) (s : State) : ∃ s', (execPlUpd set via addr len s) = .next s' ∧ s'.anchor.core = s.anchor.core ∧ s'.pending = s.pending := by
  unfold execPlUpd
  (try dsimp only)
  (repeat' split) <;> exact ⟨_, rfl, by simp, by simp⟩

theorem execPilotUpdateComplete_fr (ok : Bool) (version : Word) (s : State) : ∃ s', (execPilotUpdateComplete ok version s) = .next s' ∧ s'.anchor.core = s.anchor.core ∧ s'.pending = s.pending := by
  unfold execPilotUpdateComplete
  (try dsimp only)
  (repeat' split) <;> exact ⟨_, rfl, by simp, by simp⟩

@[simp] theorem mboPlStart_fr (i : BitVec 14) (data0 : Word) (s : State) :
    (mboPlStart i data0 s).st.anchor.core = s.anchor.core ∧ (mboPlStart i data0 s).st.pending = s.pending := by
  constructor <;> simp [mboPlStart]

theorem execPlStart_fr (set : Fin 4) (via : RegPath) (index : BitVec 14) (data0 : Word) (s : State) : ∃ s', (execPlStart set via index data0 s) = .next s' ∧ s'.anchor.core = s.anchor.core ∧ s'.pending = s.pending := by
  unfold execPlStart
  (try dsimp only)
  (repeat' split) <;> exact ⟨_, rfl, by simp, by simp⟩

theorem execPilotBootComplete_fr (p : Fin 2) (ok : Bool) (s : State) : ∃ s', (execPilotBootComplete p ok s) = .next s' ∧ s'.anchor.core = s.anchor.core ∧ s'.pending = s.pending := by
  unfold execPilotBootComplete
  (try dsimp only)
  (repeat' split) <;> exact ⟨_, rfl, by simp, by simp⟩

@[simp] theorem State.journalRead_fr (s : State) :
    (State.journalRead s).anchor.core = s.anchor.core ∧ (State.journalRead s).pending = s.pending := by
  constructor <;> (unfold State.journalRead; (try dsimp only); (repeat' split) <;> simp_all)

theorem execJournalSync_fr (p : Fin 2) (s : State) : ∃ s', (execJournalSync p s) = .next s' ∧ s'.anchor.core = s.anchor.core ∧ s'.pending = s.pending := by
  unfold execJournalSync
  (try dsimp only)
  (repeat' split) <;> exact ⟨_, rfl, by simp, by simp⟩

@[simp] theorem mboPlSwap_fr (s : State) :
    (mboPlSwap s).st.anchor.core = s.anchor.core ∧ (mboPlSwap s).st.pending = s.pending := by
  apply State.ifReady_fr
  intro x
  split <;> simp

theorem execPlSwap_fr (set : Fin 4) (via : RegPath) (s : State) : ∃ s', (execPlSwap set via s) = .next s' ∧ s'.anchor.core = s.anchor.core ∧ s'.pending = s.pending := by
  unfold execPlSwap
  (try dsimp only)
  (repeat' split) <;> exact ⟨_, rfl, by simp, by simp⟩

/-! ### AncWord -/

@[simp] theorem State.fsetAll_fr (s : State) (o : Nat) (fs : List (Bits × Nat)) :
    (State.fsetAll s o fs).anchor.core = s.anchor.core ∧ (State.fsetAll s o fs).pending = s.pending := by
  constructor <;> simp [State.fsetAll]

@[simp] theorem State.ancMirror_fr (s : State) :
    (State.ancMirror s).anchor.core = s.anchor.core ∧ (State.ancMirror s).pending = s.pending := by
  constructor <;> simp [State.ancMirror]

@[simp] theorem State.promoted_fr (s : State) (new : Nat) :
    (State.promoted s new).anchor.core = s.anchor.core ∧ (State.promoted s new).pending = s.pending := by
  constructor <;> (unfold State.promoted; (try dsimp only); (repeat' split) <;> simp_all)

@[simp] theorem State.ancEvtEffect_fr (s : State) (code : Nat) (source : Nat) (data : BitVec 24) :
    (State.ancEvtEffect s code source data).anchor.core = s.anchor.core ∧ (State.ancEvtEffect s code source data).pending = s.pending := by
  constructor <;> (unfold State.ancEvtEffect; (try dsimp only); (repeat' split) <;> simp_all)

@[simp] theorem State.ancEvt_fr (s : State) (e : Nat × Nat × BitVec 24) :
    (State.ancEvt s e).anchor.core = s.anchor.core ∧ (State.ancEvt s e).pending = s.pending := by
  constructor <;> simp [State.ancEvt]

@[simp] theorem State.ancStop_fr (s : State) (kind : Nat) :
    (State.ancStop s kind).anchor.core = s.anchor.core ∧ (State.ancStop s kind).pending = s.pending := by
  constructor <;> simp [State.ancStop]

@[simp] theorem State.busAnswer_fr (s : State) (accepted : Bool) :
    (State.busAnswer s accepted).anchor.core = s.anchor.core ∧ (State.busAnswer s accepted).pending = s.pending := by
  constructor <;> simp [State.busAnswer]

@[simp] theorem State.showStops_fr (s : State) :
    (State.showStops s).anchor.core = s.anchor.core ∧ (State.showStops s).pending = s.pending := by
  constructor <;> simp [State.showStops]

@[simp] theorem State.notePlan_fr (s : State) :
    (State.notePlan s).anchor.core = s.anchor.core ∧ (State.notePlan s).pending = s.pending := by
  constructor <;> simp [State.notePlan]

@[simp] theorem State.ancAlive_fr (s : State) :
    (State.ancAlive s).anchor.core = s.anchor.core ∧ (State.ancAlive s).pending = s.pending := by
  constructor <;> (unfold State.ancAlive; (try dsimp only); (repeat' split) <;> simp_all)

@[simp] theorem State.ancShow_fr (s : State) :
    (State.ancShow s).anchor.core = s.anchor.core ∧ (State.ancShow s).pending = s.pending := by
  unfold State.ancShow
  extract_lets closed0 held s1 s2 since
  have h1 : s1.anchor.core = s.anchor.core ∧ s1.pending = s.pending := State.ancMirror_fr ..
  have h2 : s2.anchor.core = s.anchor.core ∧ s2.pending = s.pending := by simp [s2, h1]
  exact ⟨h2.1, h2.2⟩

@[simp] theorem State.ancWord_fr (s : State) :
    (State.ancWord s).anchor.core = s.anchor.core ∧ (State.ancWord s).pending = s.pending := by
  unfold State.ancWord
  extract_lets a closed0 stop1 stop2 s1 s2 s3 s4
  have h1 : s1.anchor.core = s.anchor.core ∧ s1.pending = s.pending := by simp [s1]
  have h2 : s2.anchor.core = s.anchor.core ∧ s2.pending = s.pending := by simp [s2, h1]
  have h3 : s3.anchor.core = s.anchor.core ∧ s3.pending = s.pending := by simp [s3, h2]
  have h4 : s4.anchor.core = s.anchor.core ∧ s4.pending = s.pending := by simp [s4, h3]
  split
  · constructor <;> simp [h4]
  · exact h4

theorem execAnchorStatusWord_fr (s : State) : ∃ s', (execAnchorStatusWord s) = .next s' ∧ s'.anchor.core = s.anchor.core ∧ s'.pending = s.pending := by
  unfold execAnchorStatusWord
  (try dsimp only)
  (repeat' split) <;> exact ⟨_, rfl, by simp, by simp⟩

theorem execAnchorLinkLost_fr (s : State) : ∃ s', (execAnchorLinkLost s) = .next s' ∧ s'.anchor.core = s.anchor.core ∧ s'.pending = s.pending := by
  unfold execAnchorLinkLost
  (try dsimp only)
  (repeat' split) <;> exact ⟨_, rfl, by simp, by simp⟩

/-! ### Cycle -/

@[simp] theorem State.markStepped_fr (s : State) (a : FTime) (b : FTime) :
    (State.markStepped s a b).anchor.core = s.anchor.core ∧ (State.markStepped s a b).pending = s.pending := by
  exact ⟨rfl, rfl⟩

@[simp] theorem State.cycle_fr (s : State) :
    (State.cycle s).anchor.core = s.anchor.core ∧ (State.cycle s).pending = s.pending := by
  constructor <;> simp [State.cycle]

/-! ### FlightLog -/

@[simp] theorem State.setStore_fr (s : State) (l : List (BitVec 256)) :
    (State.setStore s l).anchor.core = s.anchor.core ∧ (State.setStore s l).pending = s.pending := by
  constructor <;> simp [State.setStore]

@[simp] theorem State.storeRec_fr (s : State) (r : BitVec 256) :
    (State.storeRec s r).anchor.core = s.anchor.core ∧ (State.storeRec s r).pending = s.pending := by
  constructor <;> simp [State.storeRec]

@[simp] theorem State.storeAll_fr (k : Nat) (s : State) :
    (State.storeAll k s).anchor.core = s.anchor.core ∧ (State.storeAll k s).pending = s.pending := by
  induction k generalizing s with
  | zero => exact ⟨rfl, rfl⟩
  | succ k ih =>
    simp only [State.storeAll]
    split
    · exact ⟨rfl, rfl⟩
    · split
      · simp
      · simp [ih]

theorem execFlogStoreWrite_fr (s : State) : ∃ s', (execFlogStoreWrite s) = .next s' ∧ s'.anchor.core = s.anchor.core ∧ s'.pending = s.pending := by
  unfold execFlogStoreWrite
  (try dsimp only)
  (repeat' split) <;> exact ⟨_, rfl, by simp, by simp⟩

theorem execFlogFreeze_fr (s : State) : ∃ s', (execFlogFreeze s) = .next s' ∧ s'.anchor.core = s.anchor.core ∧ s'.pending = s.pending := by
  unfold execFlogFreeze
  (try dsimp only)
  (repeat' split) <;> exact ⟨_, rfl, by simp, by simp⟩

@[simp] theorem flogCmdWritten_fr (v : Word) (s : State) :
    (flogCmdWritten v s).anchor.core = s.anchor.core ∧ (flogCmdWritten v s).pending = s.pending := by
  constructor <;> simp [flogCmdWritten]

theorem execUnfreeze_fr (via : RegPath) (s : State) : ∃ s', (execUnfreeze via s) = .next s' ∧ s'.anchor.core = s.anchor.core ∧ s'.pending = s.pending := by
  unfold execUnfreeze
  (try dsimp only)
  (repeat' split) <;> exact ⟨_, rfl, by simp, by simp⟩

theorem execFlush_fr (via : RegPath) (s : State) : ∃ s', (execFlush via s) = .next s' ∧ s'.anchor.core = s.anchor.core ∧ s'.pending = s.pending := by
  unfold execFlush
  (try dsimp only)
  (repeat' split) <;> exact ⟨_, rfl, by simp, by simp⟩

@[simp] theorem flogAreaWritten_fr (s : State) :
    (flogAreaWritten s).anchor.core = s.anchor.core ∧ (flogAreaWritten s).pending = s.pending := by
  constructor <;> simp [flogAreaWritten]

@[simp] theorem State.snapOne_fr (s : State) (t : FTime) (o : Nat) :
    (State.snapOne s t o).anchor.core = s.anchor.core ∧ (State.snapOne s t o).pending = s.pending := by
  constructor <;> simp [State.snapOne]

theorem execErrsnapPeriod_fr (s : State) : ∃ s', (execErrsnapPeriod s) = .next s' ∧ s'.anchor.core = s.anchor.core ∧ s'.pending = s.pending := by
  unfold execErrsnapPeriod
  (try dsimp only)
  (repeat' split) <;> exact ⟨_, rfl, by simp, by simp⟩

@[simp] theorem mboFlogTrig_fr (code : Word) (s : State) :
    (mboFlogTrig code s).st.anchor.core = s.anchor.core ∧ (mboFlogTrig code s).st.pending = s.pending := by
  constructor <;> simp [mboFlogTrig]

@[simp] theorem mboFlogPop_fr (s : State) :
    (mboFlogPop s).st.anchor.core = s.anchor.core ∧ (mboFlogPop s).st.pending = s.pending := by
  apply State.ifReady_fr
  intro x
  split <;> simp

theorem execFlogTrig_fr (set : Fin 4) (via : RegPath) (code : Word) (s : State) : ∃ s', (execFlogTrig set via code s) = .next s' ∧ s'.anchor.core = s.anchor.core ∧ s'.pending = s.pending := by
  unfold execFlogTrig
  (try dsimp only)
  (repeat' split) <;> exact ⟨_, rfl, by simp, by simp⟩

theorem execFlogPop_fr (set : Fin 4) (via : RegPath) (s : State) : ∃ s', (execFlogPop set via s) = .next s' ∧ s'.anchor.core = s.anchor.core ∧ s'.pending = s.pending := by
  unfold execFlogPop
  (try dsimp only)
  (repeat' split) <;> exact ⟨_, rfl, by simp, by simp⟩

/-! ### Startup -/

@[simp] theorem State.shellReset_pending (s : State) : s.shellReset.pending = s.pending := rfl

@[simp] theorem State.powerReset_pending (s : State) : s.powerReset.pending = s.pending := rfl

@[simp] theorem State.sysReset_pending (s : State) : s.sysReset.pending = s.pending := rfl

@[simp] theorem State.bootFrom_fr (s : State) (b : Bool) :
    (State.bootFrom s b).anchor.core = s.anchor.core ∧ (State.bootFrom s b).pending = s.pending := by
  constructor <;> simp [State.bootFrom]

@[simp] theorem State.leaveReset_fr (s : State) :
    (State.leaveReset s).anchor.core = s.anchor.core ∧ (State.leaveReset s).pending = s.pending := by
  constructor <;> (unfold State.leaveReset; (try dsimp only); (repeat' split) <;> simp_all)

theorem execPoresetAssert_fr (s : State) : ∃ s', (execPoresetAssert s) = .next s' ∧ s'.pending = s.pending := by
  unfold execPoresetAssert
  (try dsimp only)
  (repeat' split) <;> exact ⟨_, rfl, by simp⟩

theorem execPoresetRelease_fr (bootsel : BitVec 2) (s : State) : ∃ s', (execPoresetRelease bootsel s) = .next s' ∧ s'.anchor.core = s.anchor.core ∧ s'.pending = s.pending := by
  unfold execPoresetRelease
  (try dsimp only)
  (repeat' split) <;> exact ⟨_, rfl, by simp, by simp⟩

theorem execSysresetAssert_fr (s : State) : ∃ s', (execSysresetAssert s) = .next s' ∧ s'.pending = s.pending := by
  unfold execSysresetAssert
  (try dsimp only)
  (repeat' split) <;> exact ⟨_, rfl, by simp⟩

theorem execSysresetRelease_fr (s : State) : ∃ s', (execSysresetRelease s) = .next s' ∧ s'.anchor.core = s.anchor.core ∧ s'.pending = s.pending := by
  unfold execSysresetRelease
  (try dsimp only)
  (repeat' split) <;> exact ⟨_, rfl, by simp, by simp⟩

theorem execRailFaultReset_fr (s : State) : ∃ s', (execRailFaultReset s) = .next s' ∧ s'.pending = s.pending := by
  unfold execRailFaultReset
  (try dsimp only)
  (repeat' split) <;> exact ⟨_, rfl, by simp⟩

theorem execRailRecovery_fr (s : State) : ∃ s', (execRailRecovery s) = .next s' ∧ s'.anchor.core = s.anchor.core ∧ s'.pending = s.pending := by
  unfold execRailRecovery
  (try dsimp only)
  (repeat' split) <;> exact ⟨_, rfl, by simp, by simp⟩

theorem execBootSlotVerified_fr (slot : Fin 2) (fail : BitVec 3) (version : Word) (s : State) : ∃ s', (execBootSlotVerified slot fail version s) = .next s' ∧ s'.anchor.core = s.anchor.core ∧ s'.pending = s.pending := by
  unfold execBootSlotVerified
  (try dsimp only)
  (repeat' split) <;> exact ⟨_, rfl, by simp, by simp⟩

@[simp] theorem State.stockLoad_fr (s : State) (l : Nat) :
    (State.stockLoad s l).anchor.core = s.anchor.core ∧ (State.stockLoad s l).pending = s.pending := by
  constructor <;> simp [State.stockLoad]

theorem execStartupLaneLoadComplete_fr (failed : BitVec 16) (s : State) : ∃ s', (execStartupLaneLoadComplete failed s) = .next s' ∧ s'.anchor.core = s.anchor.core ∧ s'.pending = s.pending := by
  unfold execStartupLaneLoadComplete
  (try dsimp only)
  (repeat' split) <;> exact ⟨_, rfl, by simp, by simp⟩

theorem execDdrTrainingComplete_fr (ok : Bool) (s : State) : ∃ s', (execDdrTrainingComplete ok s) = .next s' ∧ s'.anchor.core = s.anchor.core ∧ s'.pending = s.pending := by
  unfold execDdrTrainingComplete
  (try dsimp only)
  (repeat' split) <;> exact ⟨_, rfl, by simp, by simp⟩

theorem execAltSlotVerifyComplete_fr (ok : Bool) (version : Word) (s : State) : ∃ s', (execAltSlotVerifyComplete ok version s) = .next s' ∧ s'.anchor.core = s.anchor.core ∧ s'.pending = s.pending := by
  unfold execAltSlotVerifyComplete
  (try dsimp only)
  (repeat' split) <;> exact ⟨_, rfl, by simp, by simp⟩

theorem execCalibrationStart_fr (s : State) : ∃ s', (execCalibrationStart s) = .next s' ∧ s'.anchor.core = s.anchor.core ∧ s'.pending = s.pending := by
  unfold execCalibrationStart
  (try dsimp only)
  (repeat' split) <;> exact ⟨_, rfl, by simp, by simp⟩

theorem execCalibrationComplete_fr (fail : BitVec 16) (results : List CalResult) (s : State) : ∃ s', (execCalibrationComplete fail results s) = .next s' ∧ s'.anchor.core = s.anchor.core ∧ s'.pending = s.pending := by
  unfold execCalibrationComplete
  (try dsimp only)
  (repeat' split) <;> exact ⟨_, rfl, by simp, by simp⟩

@[simp] theorem mboCalRun_fr (s : State) :
    (mboCalRun s).st.anchor.core = s.anchor.core ∧ (mboCalRun s).st.pending = s.pending := by
  constructor <;> simp [mboCalRun]

theorem execCalRun_fr (set : Fin 4) (via : RegPath) (s : State) : ∃ s', (execCalRun set via s) = .next s' ∧ s'.anchor.core = s.anchor.core ∧ s'.pending = s.pending := by
  unfold execCalRun
  (try dsimp only)
  (repeat' split) <;> exact ⟨_, rfl, by simp, by simp⟩

@[simp] theorem mboCalRead_fr (i : BitVec 14) (s : State) :
    (mboCalRead i s).st.anchor.core = s.anchor.core ∧ (mboCalRead i s).st.pending = s.pending := by
  constructor <;> simp [mboCalRead]

theorem execCalRead_fr (set : Fin 4) (via : RegPath) (index : BitVec 14) (s : State) : ∃ s', (execCalRead set via index s) = .next s' ∧ s'.anchor.core = s.anchor.core ∧ s'.pending = s.pending := by
  unfold execCalRead
  (try dsimp only)
  (repeat' split) <;> exact ⟨_, rfl, by simp, by simp⟩

theorem execEndpointReset_fr (s : State) : ∃ s', (execEndpointReset s) = .next s' ∧ s'.anchor.core = s.anchor.core ∧ s'.pending = s.pending := by
  unfold execEndpointReset
  (try dsimp only)
  (repeat' split) <;> exact ⟨_, rfl, by simp, by simp⟩

theorem execPerstRelease_fr (s : State) : ∃ s', (execPerstRelease s) = .next s' ∧ s'.anchor.core = s.anchor.core ∧ s'.pending = s.pending := by
  unfold execPerstRelease
  (try dsimp only)
  (repeat' split) <;> exact ⟨_, rfl, by simp, by simp⟩

theorem execScrubberLine_fr (s : State) : ∃ s', (execScrubberLine s) = .next s' ∧ s'.anchor.core = s.anchor.core ∧ s'.pending = s.pending := by
  unfold execScrubberLine
  (try dsimp only)
  (repeat' split) <;> exact ⟨_, rfl, by simp, by simp⟩

/-! ### Mailbox -/

theorem mboTake_fr {code op : Nat} {i : BitVec 14} {f : State → MbxRes} (h : mboTake code op i = some f) (s : State) :
    (f s).st.anchor.core = s.anchor.core ∧ (f s).st.pending = s.pending := by
  unfold mboTake at h
  (repeat' split at h) <;> cases h <;> simp

theorem mboGive_fr {via : RegPath} {code op : Nat} {i : BitVec 14} {d : List Word} {f : State → MbxRes}
    (h : mboGive via code op i d = some f) (s : State) : (f s).st.anchor.core = s.anchor.core ∧ (f s).st.pending = s.pending := by
  unfold mboGive at h
  dsimp only at h
  (repeat' split at h) <;> cases h <;> simp

@[simp] theorem mboRun_fr (set : Nat) (via : RegPath) (v : Word) (s : State) :
    (mboRun set via v s).st.anchor.core = s.anchor.core ∧ (mboRun set via v s).st.pending = s.pending := by
  unfold mboRun
  dsimp only
  split
  · rename_i h; exact mboTake_fr h s
  · rename_i h; exact mboGive_fr h s
  · simp

@[simp] theorem mbxReqWritten_fr (set : Nat) (via : RegPath) (old : Word) (v : Word) (s : State) :
    (mbxReqWritten set via old v s).anchor.core = s.anchor.core ∧ (mbxReqWritten set via old v s).pending = s.pending := by
  constructor <;> simp [mbxReqWritten]

/-! ### Host -/

@[simp] theorem State.sqActive_fr (s : State) (q : Nat) :
    (State.sqActive s q).anchor.core = s.anchor.core ∧ (State.sqActive s q).pending = s.pending := by
  constructor <;> simp [State.sqActive]

theorem execSqDoorbell_fr (q : Fin 32) (v : Word) (whole : Bool) (s : State) : ∃ s', (execSqDoorbell q v whole s) = .next s' ∧ s'.anchor.core = s.anchor.core ∧ s'.pending = s.pending := by
  unfold execSqDoorbell
  (try dsimp only)
  (repeat' split) <;> exact ⟨_, rfl, by simp, by simp⟩

theorem execHostSilenceTrip_fr (q : Fin 32) (s : State) :
    ∃ s', execHostSilenceTrip q s = .next s' ∧ s'.anchor.core = s.anchor.core ∧ s'.pending = s.pending := by
  unfold execHostSilenceTrip
  extract_lets time s1 react
  have h1 : s1.anchor.core = s.anchor.core ∧ s1.pending = s.pending := by simp [s1]
  split
  · exact ⟨_, rfl, rfl, rfl⟩
  · have h := foldl_fr react (allAxes.filter (fun n => s1.inPlan n && (s1.rget (rHIF_SQ_WDAXM q (n / 32))).getLsbD (n % 32))) s1
      (fun s n => by simp only [react]; split <;> simp)
    exact ⟨_, rfl, h.1.trans h1.1, h.2.trans h1.2⟩

theorem execDescriptorFetch_fr (q : Fin 32) (count : Nat) (ok : Bool) (s : State) : ∃ s', (execDescriptorFetch q count ok s) = .next s' ∧ s'.anchor.core = s.anchor.core ∧ s'.pending = s.pending := by
  unfold execDescriptorFetch
  (try dsimp only)
  (repeat' split) <;> exact ⟨_, rfl, by simp, by simp⟩

@[simp] theorem State.frameDone_fr (s : State) (q : Nat) (tag : BitVec 16) (nocomp : Bool) (frameId : BitVec 16) (status : Nat) :
    (State.frameDone s q tag nocomp frameId status).anchor.core = s.anchor.core ∧ (State.frameDone s q tag nocomp frameId status).pending = s.pending := by
  constructor <;> simp [State.frameDone]

@[simp] theorem State.sqAbort_fr (s : State) (q : Fin 32) (i : Nat) :
    (State.sqAbort s q i).anchor.core = s.anchor.core ∧ (State.sqAbort s q i).pending = s.pending := by
  constructor <;> simp [State.sqAbort]

@[simp] theorem State.sqOn_fr (s : State) (q : Nat) :
    (State.sqOn s q).anchor.core = s.anchor.core ∧ (State.sqOn s q).pending = s.pending := by
  constructor <;> simp [State.sqOn]

@[simp] theorem State.sqOff_fr (s : State) (q : Fin 32) :
    (State.sqOff s q).anchor.core = s.anchor.core ∧ (State.sqOff s q).pending = s.pending := by
  constructor <;> simp [State.sqOff]

@[simp] theorem State.keepSize_fr (s : State) (o : Nat) (old : Word) :
    (State.keepSize s o old).anchor.core = s.anchor.core ∧ (State.keepSize s o old).pending = s.pending := by
  constructor <;> simp [State.keepSize]

@[simp] theorem sqCfgWritten_fr (q : Fin 32) (old : Word) (s : State) :
    (sqCfgWritten q old s).anchor.core = s.anchor.core ∧ (sqCfgWritten q old s).pending = s.pending := by
  constructor <;> simp [sqCfgWritten]

@[simp] theorem baseWritten_fr (en : Bool) (o : Nat) (old : Word) (s : State) :
    (baseWritten en o old s).anchor.core = s.anchor.core ∧ (baseWritten en o old s).pending = s.pending := by
  constructor <;> simp [baseWritten]

theorem execSqEnable_fr (via : RegPath) (q : Fin 32) (v : Word) (s : State) : ∃ s', (execSqEnable via q v s) = .next s' ∧ s'.anchor.core = s.anchor.core ∧ s'.pending = s.pending := by
  unfold execSqEnable
  (try dsimp only)
  (repeat' split) <;> exact ⟨_, rfl, by simp, by simp⟩

theorem execSqDisable_fr (via : RegPath) (q : Fin 32) (v : Word) (s : State) : ∃ s', (execSqDisable via q v s) = .next s' ∧ s'.anchor.core = s.anchor.core ∧ s'.pending = s.pending := by
  unfold execSqDisable
  (try dsimp only)
  (repeat' split) <;> exact ⟨_, rfl, by simp, by simp⟩

@[simp] theorem cqCfgWritten_fr (q : Nat) (old : Word) (s : State) :
    (cqCfgWritten q old s).anchor.core = s.anchor.core ∧ (cqCfgWritten q old s).pending = s.pending := by
  constructor <;> simp [cqCfgWritten]

theorem execCqEnable_fr (via : RegPath) (q : Fin 32) (v : Word) (s : State) : ∃ s', (execCqEnable via q v s) = .next s' ∧ s'.anchor.core = s.anchor.core ∧ s'.pending = s.pending := by
  unfold execCqEnable
  (try dsimp only)
  (repeat' split) <;> exact ⟨_, rfl, by simp, by simp⟩

theorem execCqDisable_fr (via : RegPath) (q : Fin 32) (v : Word) (s : State) : ∃ s', (execCqDisable via q v s) = .next s' ∧ s'.anchor.core = s.anchor.core ∧ s'.pending = s.pending := by
  unfold execCqDisable
  (try dsimp only)
  (repeat' split) <;> exact ⟨_, rfl, by simp, by simp⟩

theorem execCqDoorbell_fr (q : Fin 32) (v : Word) (whole : Bool) (s : State) : ∃ s', (execCqDoorbell q v whole s) = .next s' ∧ s'.anchor.core = s.anchor.core ∧ s'.pending = s.pending := by
  unfold execCqDoorbell
  (try dsimp only)
  (repeat' split) <;> exact ⟨_, rfl, by simp, by simp⟩

theorem execCqInterruptTimer_fr (q : Fin 32) (s : State) : ∃ s', (execCqInterruptTimer q s) = .next s' ∧ s'.anchor.core = s.anchor.core ∧ s'.pending = s.pending := by
  unfold execCqInterruptTimer
  (try dsimp only)
  (repeat' split) <;> exact ⟨_, rfl, by simp, by simp⟩

@[simp] theorem State.cqDrain_fr (s : State) (q : Nat) (l : List Cqe) :
    (State.cqDrain s q l).anchor.core = s.anchor.core ∧ (State.cqDrain s q l).pending = s.pending := by
  induction l generalizing s with
  | nil => simp [State.cqDrain]
  | cons e l ih => simp only [State.cqDrain]; split <;> simp [ih]

theorem execCqBacklogDrain_fr (q : Fin 32) (s : State) : ∃ s', (execCqBacklogDrain q s) = .next s' ∧ s'.anchor.core = s.anchor.core ∧ s'.pending = s.pending := by
  unfold execCqBacklogDrain
  (try dsimp only)
  (repeat' split) <;> exact ⟨_, rfl, by simp, by simp⟩

theorem execFrameTransmit_fr (q : Fin 32) (opc : BitVec 8) (flags : BitVec 8) (tag : BitVec 16) (frameId : BitVec 16) (len : BitVec 16) (_addr : BitVec 64) (canid : Word) (data : Dma Byte) (s : State) : ∃ s', (execFrameTransmit q opc flags tag frameId len _addr canid data s) = .next s' ∧ s'.anchor.core = s.anchor.core ∧ s'.pending = s.pending := by
  unfold execFrameTransmit
  (try dsimp only)
  (repeat' split) <;> exact ⟨_, rfl, by simp, by simp⟩

@[simp] theorem State.netKeep_fr (s : State) (o : Nat) (old : Word) :
    (State.netKeep s o old).anchor.core = s.anchor.core ∧ (State.netKeep s o old).pending = s.pending := by
  constructor <;> (unfold State.netKeep; (try dsimp only); (repeat' split) <;> simp_all)

@[simp] theorem netCfgWritten_fr (o : Nat) (os : List Nat) (old : Word) (s : State) :
    (netCfgWritten o os old s).anchor.core = s.anchor.core ∧ (netCfgWritten o os old s).pending = s.pending := by
  constructor <;> (unfold netCfgWritten; (try dsimp only); (repeat' split) <;> simp_all)

@[simp] theorem netOtherWritten_fr (cfg : Nat) (o : Nat) (old : Word) (s : State) :
    (netOtherWritten cfg o old s).anchor.core = s.anchor.core ∧ (netOtherWritten cfg o old s).pending = s.pending := by
  constructor <;> (unfold netOtherWritten; (try dsimp only); (repeat' split) <;> simp_all)

theorem execFrameTxDone_fr (f : Fin 6) (s : State) : ∃ s', (execFrameTxDone f s) = .next s' ∧ s'.anchor.core = s.anchor.core ∧ s'.pending = s.pending := by
  unfold execFrameTxDone
  (try dsimp only)
  (repeat' split) <;> exact ⟨_, rfl, by simp, by simp⟩

theorem execRxDoorbell_fr (f : Fin 6) (v : Word) (whole : Bool) (s : State) : ∃ s', (execRxDoorbell f v whole s) = .next s' ∧ s'.anchor.core = s.anchor.core ∧ s'.pending = s.pending := by
  unfold execRxDoorbell
  (try dsimp only)
  (repeat' split) <;> exact ⟨_, rfl, by simp, by simp⟩

@[simp] theorem State.rxStore_fr (s : State) (f : Nat) (bytes : List Byte) (flags : Nat) (canid : Nat) (t : FTime) :
    (State.rxStore s f bytes flags canid t).anchor.core = s.anchor.core ∧ (State.rxStore s f bytes flags canid t).pending = s.pending := by
  constructor <;> simp [State.rxStore]

theorem execEthFrameReceive_fr (e : Fin 2) (dst : BitVec 48) (etype : BitVec 16) (data : List Byte) (fcsOk : Bool) (full : Bool) (s : State) : ∃ s', (execEthFrameReceive e dst etype data fcsOk full s) = .next s' ∧ s'.anchor.core = s.anchor.core ∧ s'.pending = s.pending := by
  unfold execEthFrameReceive
  (try dsimp only)
  (repeat' split) <;> exact ⟨_, rfl, by simp, by simp⟩

theorem execCanFrameReceive_fr (c : Fin 4) (id : BitVec 29) (ide : Bool) (fdf : Bool) (brs : Bool) (esi : Bool) (data : List Byte) (full : Bool) (s : State) : ∃ s', (execCanFrameReceive c id ide fdf brs esi data full s) = .next s' ∧ s'.anchor.core = s.anchor.core ∧ s'.pending = s.pending := by
  unfold execCanFrameReceive
  (try dsimp only)
  (repeat' split) <;> exact ⟨_, rfl, by simp, by simp⟩

/-! ### Desc -/

@[simp] theorem State.descTake_fr (s : State) (h : DescHdr) :
    (State.descTake s h).1.anchor.core = s.anchor.core ∧ (State.descTake s h).1.pending = s.pending := by
  constructor <;> (unfold State.descTake; (try dsimp only); (repeat' split) <;> simp_all)

theorem State.descTake_eqfr (s : State) (h : DescHdr) {sa sb} (hq : (State.descTake s h) = (sa, sb)) :
    sa.anchor.core = s.anchor.core ∧ sa.pending = s.pending := by
  have hp := State.descTake_fr s h; rw [hq] at hp; exact hp

@[simp] theorem State.desc_fr (s : State) (h : DescHdr) (opc : Nat) (axial : Bool) (good : Bool) (right : Bool) (op : MotionOp) (act : OpenCmd → State → State) (h0 : ∀ x0 x1, (act x0 x1).anchor.core = x1.anchor.core ∧ (act x0 x1).pending = x1.pending) :
    (State.desc s h opc axial good right op act).anchor.core = s.anchor.core ∧ (State.desc s h opc axial good right op act).pending = s.pending := by
  constructor <;> simp [State.desc, h0]

@[simp] theorem doneOK_fr (c : OpenCmd) (s : State) :
    (doneOK c s).anchor.core = s.anchor.core ∧ (doneOK c s).pending = s.pending := by
  constructor <;> simp [doneOK]

@[simp] theorem motion_fr (n : Nat) (c : OpenCmd) (s : State) :
    (motion n c s).anchor.core = s.anchor.core ∧ (motion n c s).pending = s.pending := by
  constructor <;> simp [motion]

@[simp] theorem State.doNop_fr (s : State) (h : DescHdr) :
    (State.doNop s h).anchor.core = s.anchor.core ∧ (State.doNop s h).pending = s.pending := by
  constructor <;> simp [State.doNop]

@[simp] theorem State.point_fr (s : State) (n : Nat) (t : FTime) (v : Val) (judged : Bool) :
    (State.point s n t v judged).1.anchor.core = s.anchor.core ∧ (State.point s n t v judged).1.pending = s.pending := by
  constructor <;> simp [State.point]

theorem State.point_eqfr (s : State) (n : Nat) (t : FTime) (v : Val) (judged : Bool) {sa sb} (hq : (State.point s n t v judged) = (sa, sb)) :
    sa.anchor.core = s.anchor.core ∧ sa.pending = s.pending := by
  have hp := State.point_fr s n t v judged; rw [hq] at hp; exact hp

@[simp] theorem axsetReqs_fr (n : Nat) (req : Nat) (c : OpenCmd) (s : State) :
    (axsetReqs n req c s).anchor.core = s.anchor.core ∧ (axsetReqs n req c s).pending = s.pending := by
  constructor <;> simp [axsetReqs]

@[simp] theorem State.doAxset_fr (s : State) (h : DescHdr) (value : Val) (t : FTime) (valid : Bool) (req : BitVec 5) :
    (State.doAxset s h value t valid req).anchor.core = s.anchor.core ∧ (State.doAxset s h value t valid req).pending = s.pending := by
  constructor <;> simp [State.doAxset]

@[simp] theorem State.doMove_fr (s : State) (h : DescHdr) (target : Val) (vl : Word) (al : Word) (dl : Word) (jl : Word) (mf : BitVec 3) :
    (State.doMove s h target vl al dl jl mf).anchor.core = s.anchor.core ∧ (State.doMove s h target vl al dl jl mf).pending = s.pending := by
  constructor <;> simp [State.doMove]

@[simp] theorem State.doStop_fr (s : State) (h : DescHdr) (kind : BitVec 8) (scope : BitVec 8) :
    (State.doStop s h kind scope).anchor.core = s.anchor.core ∧ (State.doStop s h kind scope).pending = s.pending := by
  constructor <;> simp [State.doStop]

@[simp] theorem State.doResume_fr (s : State) (h : DescHdr) :
    (State.doResume s h).anchor.core = s.anchor.core ∧ (State.doResume s h).pending = s.pending := by
  constructor <;> simp [State.doResume]

@[simp] theorem State.doGear_fr (s : State) (h : DescHdr) (mode : BitVec 8) (mkind : BitVec 8) (master : BitVec 8) (gf : BitVec 2) (num : Word) (den : Word) (offset : Val) (lr : Val) (mpos : Val) :
    (State.doGear s h mode mkind master gf num den offset lr mpos).anchor.core = s.anchor.core ∧ (State.doGear s h mode mkind master gf num den offset lr mpos).pending = s.pending := by
  constructor <;> simp [State.doGear]

@[simp] theorem State.camEnter_fr (s : State) (c : Nat) (cf : BitVec 4) (base : Word) (n : Word) (mstep : Word) :
    (State.camEnter s c cf base n mstep).anchor.core = s.anchor.core ∧ (State.camEnter s c cf base n mstep).pending = s.pending := by
  constructor <;> simp [State.camEnter]

@[simp] theorem State.doCamLoad_fr (s : State) (h : DescHdr) (cam : BitVec 8) (cf : BitVec 4) (base n mstep : Word) (addr : BitVec 64)
    (xfer : Word) (pts : Dma (BitVec 64)) : (State.doCamLoad s h cam cf base n mstep addr xfer pts).anchor.core = s.anchor.core
      ∧ (State.doCamLoad s h cam cf base n mstep addr xfer pts).pending = s.pending := by
  apply State.desc_fr
  intro k x
  (repeat' split) <;> simp

@[simp] theorem State.doCamSelect_fr (s : State) (h : DescHdr) (cam : BitVec 8) (cf : BitVec 4) (cphase : Val) :
    (State.doCamSelect s h cam cf cphase).anchor.core = s.anchor.core ∧ (State.doCamSelect s h cam cf cphase).pending = s.pending := by
  constructor <;> simp [State.doCamSelect]

@[simp] theorem State.doCamDeselect_fr (s : State) (h : DescHdr) (cam : BitVec 8) :
    (State.doCamDeselect s h cam).anchor.core = s.anchor.core ∧ (State.doCamDeselect s h cam).pending = s.pending := by
  constructor <;> simp [State.doCamDeselect]

@[simp] theorem State.doCamFree_fr (s : State) (h : DescHdr) (cam : BitVec 8) :
    (State.doCamFree s h cam).anchor.core = s.anchor.core ∧ (State.doCamFree s h cam).pending = s.pending := by
  constructor <;> simp [State.doCamFree]

@[simp] theorem State.addEntries_fr (s : State) (p : Nat) (c : OpenCmd) (chrel : Bool) (raddr : Option Nat) (xs : List (BitVec 256)) :
    (State.addEntries s p c chrel raddr xs).anchor.core = s.anchor.core ∧ (State.addEntries s p c chrel raddr xs).pending = s.pending := by
  constructor <;> (unfold State.addEntries; (try dsimp only); (repeat' split) <;> simp_all)

@[simp] theorem State.doCmpadd_fr (s : State) (h : DescHdr) (count : BitVec 16) (raddr : BitVec 64) (entries : Dma (BitVec 256)) :
    (State.doCmpadd s h count raddr entries).anchor.core = s.anchor.core ∧ (State.doCmpadd s h count raddr entries).pending = s.pending := by
  constructor <;> (unfold State.doCmpadd; (try dsimp only); (repeat' split) <;> simp_all)

@[simp] theorem State.delAll_fr (s : State) (l : List Nat) :
    (State.delAll s l).1.anchor.core = s.anchor.core ∧ (State.delAll s l).1.pending = s.pending := by
  constructor <;> simp [State.delAll]

theorem State.delAll_eqfr (s : State) (l : List Nat) {sa sb} (hq : (State.delAll s l) = (sa, sb)) :
    sa.anchor.core = s.anchor.core ∧ sa.pending = s.pending := by
  have hp := State.delAll_fr s l; rw [hq] at hp; exact hp

@[simp] theorem State.doCmpdel_fr (s : State) (h : DescHdr) (by_ : BitVec 8) (index : BitVec 16) (target : BitVec 8) (tag : BitVec 8) (mask : BitVec 8) :
    (State.doCmpdel s h by_ index target tag mask).anchor.core = s.anchor.core ∧ (State.doCmpdel s h by_ index target tag mask).pending = s.pending := by
  constructor <;> simp [State.doCmpdel]

@[simp] theorem State.doLatarm_fr (s : State) (h : DescHdr) (op : Nat) (unit : Nat) (setcfg : Bool) (cfg : Word) :
    (State.doLatarm s h op unit setcfg cfg).anchor.core = s.anchor.core ∧ (State.doLatarm s h op unit setcfg cfg).pending = s.pending := by
  constructor <;> (unfold State.doLatarm; (try dsimp only); (repeat' split) <;> simp_all)

@[simp] theorem State.doRead_fr (s : State) (h : DescHdr) (object index : BitVec 16) (addr : BitVec 64) :
    (State.doRead s h object index addr).anchor.core = s.anchor.core ∧ (State.doRead s h object index addr).pending = s.pending := by
  apply State.desc_fr
  intro k x
  split
  · simp
  · rename_i f hf
    have hk : (f x).st.anchor.core = x.anchor.core ∧ (f x).st.pending = x.pending := by
      unfold mboForRead at hf
      split at hf
      · rename_i h; cases hf; exact mboTake_fr h x
      · exact mboTake_fr hf x
    simp [hk, State.hostWrite]

@[simp] theorem State.stage_fr (s : State) (o : Nat) (v : Word) :
    (State.stage s o v).anchor.core = s.anchor.core ∧ (State.stage s o v).pending = s.pending := by
  constructor <;> (unfold State.stage; (try dsimp only); (repeat' split) <;> simp_all)

@[simp] theorem State.doCfgstage_fr (s : State) (h : DescHdr) (count : BitVec 16) (pairs : Dma (BitVec 64)) :
    (State.doCfgstage s h count pairs).anchor.core = s.anchor.core ∧ (State.doCfgstage s h count pairs).pending = s.pending := by
  constructor <;> (unfold State.doCfgstage; (try dsimp only); (repeat' split) <;> simp_all)

@[simp] theorem State.doCommit_fr (s : State) (h : DescHdr) (groups : BitVec 8) (axsel : BitVec 256) (at_ : FTime) :
    (State.doCommit s h groups axsel at_).anchor.core = s.anchor.core ∧ (State.doCommit s h groups axsel at_).pending = s.pending := by
  constructor <;> simp [State.doCommit]

@[simp] theorem State.doMigrate_fr (s : State) (h : DescHdr) (src : BitVec 8) (dst : BitVec 8) (all : Bool) (axes : BitVec 256) (at_ : FTime) :
    (State.doMigrate s h src dst all axes at_).anchor.core = s.anchor.core ∧ (State.doMigrate s h src dst all axes at_).pending = s.pending := by
  constructor <;> simp [State.doMigrate]

@[simp] theorem State.doTxts_fr (s : State) (h : DescHdr) (port : BitVec 8) :
    (State.doTxts s h port).anchor.core = s.anchor.core ∧ (State.doTxts s h port).pending = s.pending := by
  constructor <;> simp [State.doTxts]

theorem execNop_fr (h : DescHdr) (s : State) : ∃ s', (execNop h s) = .next s' ∧ s'.anchor.core = s.anchor.core ∧ s'.pending = s.pending := by
  unfold execNop
  (try dsimp only)
  (repeat' split) <;> exact ⟨_, rfl, by simp, by simp⟩

theorem execAxset_fr (h : DescHdr) (value : BitVec 64) (t : FTime) (valid : Bool) (req : BitVec 5) (s : State) : ∃ s', (execAxset h value t valid req s) = .next s' ∧ s'.anchor.core = s.anchor.core ∧ s'.pending = s.pending := by
  unfold execAxset
  (try dsimp only)
  (repeat' split) <;> exact ⟨_, rfl, by simp, by simp⟩

theorem execMove_fr (h : DescHdr) (target : BitVec 64) (vl : Word) (al : Word) (dl : Word) (jl : Word) (mf : BitVec 3) (s : State) : ∃ s', (execMove h target vl al dl jl mf s) = .next s' ∧ s'.anchor.core = s.anchor.core ∧ s'.pending = s.pending := by
  unfold execMove
  (try dsimp only)
  (repeat' split) <;> exact ⟨_, rfl, by simp, by simp⟩

theorem execStop_fr (h : DescHdr) (kind : BitVec 8) (scope : BitVec 8) (s : State) : ∃ s', (execStop h kind scope s) = .next s' ∧ s'.anchor.core = s.anchor.core ∧ s'.pending = s.pending := by
  unfold execStop
  (try dsimp only)
  (repeat' split) <;> exact ⟨_, rfl, by simp, by simp⟩

theorem execResume_fr (h : DescHdr) (s : State) : ∃ s', (execResume h s) = .next s' ∧ s'.anchor.core = s.anchor.core ∧ s'.pending = s.pending := by
  unfold execResume
  (try dsimp only)
  (repeat' split) <;> exact ⟨_, rfl, by simp, by simp⟩

theorem execGear_fr (h : DescHdr) (mode : BitVec 8) (mkind : BitVec 8) (master : BitVec 8) (gf : BitVec 2) (num : Word) (den : Word) (offset : BitVec 64) (lr : BitVec 64) (mpos : BitVec 64) (s : State) : ∃ s', (execGear h mode mkind master gf num den offset lr mpos s) = .next s' ∧ s'.anchor.core = s.anchor.core ∧ s'.pending = s.pending := by
  unfold execGear
  (try dsimp only)
  (repeat' split) <;> exact ⟨_, rfl, by simp, by simp⟩

theorem execCamLoad_fr (h : DescHdr) (cam : BitVec 8) (cf : BitVec 4) (base : Word) (n : Word) (mstep : Word) (addr : BitVec 64) (xfer : Word) (pts : Dma (BitVec 64)) (s : State) : ∃ s', (execCamLoad h cam cf base n mstep addr xfer pts s) = .next s' ∧ s'.anchor.core = s.anchor.core ∧ s'.pending = s.pending := by
  unfold execCamLoad
  (try dsimp only)
  (repeat' split) <;> exact ⟨_, rfl, by simp, by simp⟩

theorem execCamSelect_fr (h : DescHdr) (cam : BitVec 8) (cf : BitVec 4) (cphase : BitVec 64) (s : State) : ∃ s', (execCamSelect h cam cf cphase s) = .next s' ∧ s'.anchor.core = s.anchor.core ∧ s'.pending = s.pending := by
  unfold execCamSelect
  (try dsimp only)
  (repeat' split) <;> exact ⟨_, rfl, by simp, by simp⟩

theorem execCamDeselect_fr (h : DescHdr) (cam : BitVec 8) (s : State) : ∃ s', (execCamDeselect h cam s) = .next s' ∧ s'.anchor.core = s.anchor.core ∧ s'.pending = s.pending := by
  unfold execCamDeselect
  (try dsimp only)
  (repeat' split) <;> exact ⟨_, rfl, by simp, by simp⟩

theorem execCamFree_fr (h : DescHdr) (cam : BitVec 8) (s : State) : ∃ s', (execCamFree h cam s) = .next s' ∧ s'.anchor.core = s.anchor.core ∧ s'.pending = s.pending := by
  unfold execCamFree
  (try dsimp only)
  (repeat' split) <;> exact ⟨_, rfl, by simp, by simp⟩

theorem execCmpadd_fr (h : DescHdr) (_addr : BitVec 64) (count : BitVec 16) (raddr : BitVec 64) (entries : Dma (BitVec 256)) (s : State) : ∃ s', (execCmpadd h _addr count raddr entries s) = .next s' ∧ s'.anchor.core = s.anchor.core ∧ s'.pending = s.pending := by
  unfold execCmpadd
  (try dsimp only)
  (repeat' split) <;> exact ⟨_, rfl, by simp, by simp⟩

theorem execCmpdel_fr (h : DescHdr) (by_ : BitVec 8) (index : BitVec 16) (target : BitVec 8) (tag : BitVec 8) (mask : BitVec 8) (s : State) : ∃ s', (execCmpdel h by_ index target tag mask s) = .next s' ∧ s'.anchor.core = s.anchor.core ∧ s'.pending = s.pending := by
  unfold execCmpdel
  (try dsimp only)
  (repeat' split) <;> exact ⟨_, rfl, by simp, by simp⟩

theorem execLatarmArm_fr (h : DescHdr) (unit : BitVec 8) (setcfg : Bool) (cfg : Word) (s : State) : ∃ s', (execLatarmArm h unit setcfg cfg s) = .next s' ∧ s'.anchor.core = s.anchor.core ∧ s'.pending = s.pending := by
  unfold execLatarmArm
  (try dsimp only)
  (repeat' split) <;> exact ⟨_, rfl, by simp, by simp⟩

theorem execLatarmDisarm_fr (h : DescHdr) (unit : BitVec 8) (setcfg : Bool) (cfg : Word) (s : State) : ∃ s', (execLatarmDisarm h unit setcfg cfg s) = .next s' ∧ s'.anchor.core = s.anchor.core ∧ s'.pending = s.pending := by
  unfold execLatarmDisarm
  (try dsimp only)
  (repeat' split) <;> exact ⟨_, rfl, by simp, by simp⟩

theorem execLatarmFlush_fr (h : DescHdr) (unit : BitVec 8) (setcfg : Bool) (cfg : Word) (s : State) : ∃ s', (execLatarmFlush h unit setcfg cfg s) = .next s' ∧ s'.anchor.core = s.anchor.core ∧ s'.pending = s.pending := by
  unfold execLatarmFlush
  (try dsimp only)
  (repeat' split) <;> exact ⟨_, rfl, by simp, by simp⟩

theorem execRead_fr (h : DescHdr) (object : BitVec 16) (index : BitVec 16) (addr : BitVec 64) (s : State) : ∃ s', (execRead h object index addr s) = .next s' ∧ s'.anchor.core = s.anchor.core ∧ s'.pending = s.pending := by
  unfold execRead
  (try dsimp only)
  (repeat' split) <;> exact ⟨_, rfl, by simp, by simp⟩

theorem execCfgstage_fr (h : DescHdr) (_addr : BitVec 64) (count : BitVec 16) (pairs : Dma (BitVec 64)) (s : State) : ∃ s', (execCfgstage h _addr count pairs s) = .next s' ∧ s'.anchor.core = s.anchor.core ∧ s'.pending = s.pending := by
  unfold execCfgstage
  (try dsimp only)
  (repeat' split) <;> exact ⟨_, rfl, by simp, by simp⟩

theorem execCommit_fr (h : DescHdr) (groups : BitVec 8) (axsel : BitVec 256) (at_ : FTime) (s : State) : ∃ s', (execCommit h groups axsel at_ s) = .next s' ∧ s'.anchor.core = s.anchor.core ∧ s'.pending = s.pending := by
  unfold execCommit
  (try dsimp only)
  (repeat' split) <;> exact ⟨_, rfl, by simp, by simp⟩

theorem execMigrate_fr (h : DescHdr) (src : BitVec 8) (dst : BitVec 8) (all : Bool) (axes : BitVec 256) (at_ : FTime) (s : State) : ∃ s', (execMigrate h src dst all axes at_ s) = .next s' ∧ s'.anchor.core = s.anchor.core ∧ s'.pending = s.pending := by
  unfold execMigrate
  (try dsimp only)
  (repeat' split) <;> exact ⟨_, rfl, by simp, by simp⟩

theorem execTxts_fr (h : DescHdr) (port : BitVec 8) (s : State) : ∃ s', (execTxts h port s) = .next s' ∧ s'.anchor.core = s.anchor.core ∧ s'.pending = s.pending := by
  unfold execTxts
  (try dsimp only)
  (repeat' split) <;> exact ⟨_, rfl, by simp, by simp⟩

@[simp] theorem State.doOther_fr (s : State) (h : DescHdr) (opc : Nat) :
    (State.doOther s h opc).anchor.core = s.anchor.core ∧ (State.doOther s h opc).pending = s.pending := by
  constructor <;> simp [State.doOther]

theorem execPeerCommand_fr (t : Fin 25) (pos : Fin 64) (flags : BitVec 8) (tag : BitVec 16) (axis : BitVec 8) (rsv : Bool) (cmd : PeerCmd) (s : State) : ∃ s', (execPeerCommand t pos flags tag axis rsv cmd s) = .next s' ∧ s'.anchor.core = s.anchor.core ∧ s'.pending = s.pending := by
  unfold execPeerCommand
  (try dsimp only)
  (repeat' split) <;> exact ⟨_, rfl, by simp, by simp⟩

/-! ### Stream -/

theorem execStreamLinkDown_fr (s : State) : ∃ s', (execStreamLinkDown s) = .next s' ∧ s'.anchor.core = s.anchor.core ∧ s'.pending = s.pending := by
  unfold execStreamLinkDown
  (try dsimp only)
  (repeat' split) <;> exact ⟨_, rfl, by simp, by simp⟩

@[simp] theorem State.strUp_fr (s : State) :
    (State.strUp s).anchor.core = s.anchor.core ∧ (State.strUp s).pending = s.pending := by
  constructor <;> simp [State.strUp]

theorem execStreamInitSend_fr (s : State) : ∃ s', (execStreamInitSend s) = .next s' ∧ s'.anchor.core = s.anchor.core ∧ s'.pending = s.pending := by
  unfold execStreamInitSend
  (try dsimp only)
  (repeat' split) <;> exact ⟨_, rfl, by simp, by simp⟩

@[simp] theorem netStrCfgWritten_fr (s : State) :
    (netStrCfgWritten s).anchor.core = s.anchor.core ∧ (netStrCfgWritten s).pending = s.pending := by
  constructor <;> simp [netStrCfgWritten]

theorem execStreamCreditSend_fr (s : State) : ∃ s', (execStreamCreditSend s) = .next s' ∧ s'.anchor.core = s.anchor.core ∧ s'.pending = s.pending := by
  unfold execStreamCreditSend
  (try dsimp only)
  (repeat' split) <;> exact ⟨_, rfl, by simp, by simp⟩

@[simp] theorem State.strShow_fr (s : State) :
    (State.strShow s).anchor.core = s.anchor.core ∧ (State.strShow s).pending = s.pending := by
  constructor <;> simp [State.strShow]

@[simp] theorem State.strRelease_fr (s : State) :
    (State.strRelease s).anchor.core = s.anchor.core ∧ (State.strRelease s).pending = s.pending := by
  constructor <;> simp [State.strRelease]

@[simp] theorem State.strQueue_fr (s : State) (len : Nat) (done : Bool) :
    (State.strQueue s len done).anchor.core = s.anchor.core ∧ (State.strQueue s len done).pending = s.pending := by
  constructor <;> simp [State.strQueue]

@[simp] theorem State.strDiscard_fr (s : State) (k : Nat) (bytes : Nat) :
    (State.strDiscard s k bytes).anchor.core = s.anchor.core ∧ (State.strDiscard s k bytes).pending = s.pending := by
  constructor <;> simp [State.strDiscard]

@[simp] theorem State.strCredit_fr (s : State) (n : Nat) :
    (State.strCredit s n).anchor.core = s.anchor.core ∧ (State.strCredit s n).pending = s.pending := by
  constructor <;> simp [State.strCredit]

@[simp] theorem State.strInit_fr (s : State) (payload : List Byte) :
    (State.strInit s payload).anchor.core = s.anchor.core ∧ (State.strInit s payload).pending = s.pending := by
  constructor <;> simp [State.strInit]

@[simp] theorem State.strSeq_fr (s : State) (seq : BitVec 16) :
    (State.strSeq s seq).anchor.core = s.anchor.core ∧ (State.strSeq s seq).pending = s.pending := by
  constructor <;> simp [State.strSeq]

theorem execStreamFrameReceive_fr (typ : BitVec 8) (len : Nat) (seq : BitVec 16) (cret : BitVec 16) (payload : List Byte) (crc : Word) (frameOk : Bool) (s : State) : ∃ s', (execStreamFrameReceive typ len seq cret payload crc frameOk s) = .next s' ∧ s'.anchor.core = s.anchor.core ∧ s'.pending = s.pending := by
  unfold execStreamFrameReceive
  (try dsimp only)
  (repeat' split) <;> exact ⟨_, rfl, by simp, by simp⟩

@[simp] theorem State.trajRefuse_fr (s : State) (n : Nat) (status : Nat) :
    (State.trajRefuse s n status).anchor.core = s.anchor.core ∧ (State.trajRefuse s n status).pending = s.pending := by
  constructor <;> simp [State.trajRefuse]

theorem execTrajRecord_fr (axis : BitVec 8) (kind : BitVec 8) (rsv : Bool) (t : FTime) (value : BitVec 64) (s : State) : ∃ s', (execTrajRecord axis kind rsv t value s) = .next s' ∧ s'.anchor.core = s.anchor.core ∧ s'.pending = s.pending := by
  unfold execTrajRecord
  (try dsimp only)
  (repeat' split) <;> exact ⟨_, rfl, by simp, by simp⟩

@[simp] theorem State.bulkQueue_fr (s : State) (t : Nat) (g : Nat) (stream : BitVec 8) (last : Bool) (offset : Nat) (data : List Byte) :
    (State.bulkQueue s t g stream last offset data).anchor.core = s.anchor.core ∧ (State.bulkQueue s t g stream last offset data).pending = s.pending := by
  constructor <;> simp [State.bulkQueue]

@[simp] theorem State.bulkMoved_fr (s : State) :
    (State.bulkMoved s).anchor.core = s.anchor.core ∧ (State.bulkMoved s).pending = s.pending := by
  constructor <;> simp [State.bulkMoved]

@[simp] theorem State.noDest_fr (s : State) :
    (State.noDest s).anchor.core = s.anchor.core ∧ (State.noDest s).pending = s.pending := by
  constructor <;> simp [State.noDest]

theorem execStreamBulkTransfer_fr (xfer : Word) (dest : BitVec 8) (flags : BitVec 8) (tether : BitVec 8) (pos : BitVec 8) (stream : BitVec 8) (offset : Word) (data : List Byte) (s : State) : ∃ s', (execStreamBulkTransfer xfer dest flags tether pos stream offset data s) = .next s' ∧ s'.anchor.core = s.anchor.core ∧ s'.pending = s.pending := by
  unfold execStreamBulkTransfer
  (try dsimp only)
  (repeat' split) <;> exact ⟨_, rfl, by simp, by simp⟩

theorem execFlogStreamDrain_fr (s : State) : ∃ s', (execFlogStreamDrain s) = .next s' ∧ s'.anchor.core = s.anchor.core ∧ s'.pending = s.pending := by
  unfold execFlogStreamDrain
  (try dsimp only)
  (repeat' split) <;> exact ⟨_, rfl, by simp, by simp⟩

/-! ### RegWrite -/

@[simp] theorem msixWritten_fr (v : Nat) (s : State) :
    (msixWritten v s).anchor.core = s.anchor.core ∧ (msixWritten v s).pending = s.pending := by
  constructor <;> simp [msixWritten]

@[simp] theorem fioCmdFree_fr (v : Word) (s : State) :
    (fioCmdFree v s).anchor.core = s.anchor.core ∧ (fioCmdFree v s).pending = s.pending := by
  constructor <;> simp [fioCmdFree]

/-- The effect of every register that has one leaves what the frame laws name. -/
theorem hooks_fr : ∀ h ∈ hooks, ∀ (via : RegPath) (i : Nat) (v old : Word) (s : State),
    (h.eff via i v old s).anchor.core = s.anchor.core ∧ (h.eff via i v old s).pending = s.pending := by
  simp only [hooks, List.forall_mem_cons]
  repeat' apply And.intro
  all_goals first
    | exact fun h hm => absurd hm List.not_mem_nil
    | exact fun via i v old s => ⟨by simp [hook, hook1], by simp [hook, hook1]⟩

@[simp] theorem writtenEff_fr (via : RegPath) (o : Nat) (v old : Word) (s : State) :
    (writtenEff via o v old s).anchor.core = s.anchor.core ∧ (writtenEff via o v old s).pending = s.pending := by
  unfold writtenEff
  split
  · rename_i f hf
    obtain ⟨h, hm, hh⟩ := List.exists_of_findSome?_eq_some hf
    cases hi : h.at o with
    | none => simp [hi] at hh
    | some i => simp [hi] at hh; subst hh; exact hooks_fr h hm via i v old s
  · simp

@[simp] theorem State.aliasWrite_fr (s : State) (via : RegPath) (o : Nat) (a : Nat) (v : Word) :
    (State.aliasWrite s via o a v).anchor.core = s.anchor.core ∧ (State.aliasWrite s via o a v).pending = s.pending := by
  constructor <;> (unfold State.aliasWrite; (try dsimp only); (repeat' split) <;> simp_all)

@[simp] theorem State.regWrite_fr (s : State) (via : RegPath) (off : Nat) (v : Word) :
    (State.regWrite s via off v).anchor.core = s.anchor.core ∧ (State.regWrite s via off v).pending = s.pending := by
  constructor <;> simp [State.regWrite]

theorem execRegisterWrite_fr (via : RegPath) (off : Nat) (v : Word) (whole : Bool) (s : State) : ∃ s', (execRegisterWrite via off v whole s) = .next s' ∧ s'.anchor.core = s.anchor.core ∧ s'.pending = s.pending := by
  unfold execRegisterWrite
  (try dsimp only)
  (repeat' split) <;> exact ⟨_, rfl, by simp, by simp⟩

theorem execRcRead_fr (via : RegPath) (off : Nat) (whole : Bool) (s : State) : ∃ s', (execRcRead via off whole s) = .next s' ∧ s'.anchor.core = s.anchor.core ∧ s'.pending = s.pending := by
  unfold execRcRead
  (try dsimp only)
  (repeat' split) <;> exact ⟨_, rfl, by simp, by simp⟩

end Sys2Proof.Machine
end

