-- ==== Sys2Proof/Laws/Mailbox.lean ====
section
/-! SUPPORT. What a mailbox request leaves: the answer that its object gives reads back. -/
namespace Sys2Proof.Machine

/-- Words written from DATA `k` on read back, and no other register changes. -/
theorem State.rget_mbxData (s : State) (set k : Nat) (ws : List Word) (o : Nat) :
    (∀ j, k ≤ j → j < k + ws.length → o ≠ rMBX_DATA set j) → (State.mbxData s set k ws).rget o = s.rget o := by
  induction ws generalizing s k with
  | nil => intro _; rfl
  | cons w ws ih =>
    intro h
    simp only [List.length_cons] at h
    rw [State.mbxData, ih _ _ (fun j h1 h2 => h j (by omega) (by omega)), State.rget_rset_ne _ _ (h k (by omega) (by omega))]

theorem State.rget_mbxData_at (s : State) (set k : Nat) (ws : List Word) (j : Nat) (h : j < ws.length) :
    (State.mbxData s set k ws).rget (rMBX_DATA set (k + j)) = ws.getD j 0 := by
  induction ws generalizing s k j with
  | nil => simp at h
  | cons w ws ih =>
    rw [State.mbxData]
    cases j with
    | zero =>
      rw [State.rget_mbxData]
      · simp
      · intro i h1 _ he
        simp only [rMBX_DATA] at he
        omega
    | succ j =>
      have := ih (s.rset (rMBX_DATA set k) w) (k + 1) j (by simpa using h)
      rw [show k + (j + 1) = k + 1 + j from by omega, this]
      rfl

theorem State.rget_mbxData_stat (s : State) (set k : Nat) (ws : List Word) :
    (State.mbxData s set k ws).rget (rMBX_STAT set) = s.rget (rMBX_STAT set) :=
  State.rget_mbxData _ _ _ _ _ (fun j _ _ => by simp only [rMBX_STAT, rMBX_DATA]; omega)

theorem State.wget_mbxData (s : State) (set k : Nat) (ws : List Word) (o : Nat) : (State.mbxData s set k ws).wget o = s.wget o := by
  induction ws generalizing s k with
  | nil => rfl
  | cons w ws ih => rw [State.mbxData, ih]; rfl

theorem rMBX_STAT_ne_REQ (set : Nat) : rMBX_STAT set ≠ rMBX_REQ set := by simp only [rMBX_STAT, rMBX_REQ]; omega
theorem rMBX_DATA_ne_STAT (set k : Nat) : rMBX_DATA set k ≠ rMBX_STAT set := by simp only [rMBX_STAT, rMBX_DATA]; omega

/-- A request that a free set takes is performed on `asked`, and its answer waits. -/
theorem State.mbx_eq (s : State) (set : Nat) (via : RegPath) (code op : Nat) (index : BitVec 14) (ops : List Word)
    (perform : State → MbxRes) (h : s.mbxFree set via) :
    s.mbx set via code op index ops perform =
      let r := perform (s.asked set code op index ops)
      { (r.st.drew 1) with mbxAns := tset none r.st.mbxAns set (some ⟨(r.st.free 0).toNat % 256, r.status, r.data⟩) } := by
  obtain ⟨h1, h2⟩ := h
  have hb : (((s.mbxData set 0 ops).rset (rMBX_REQ set) (mbxReqWord code op index)).flag (rMBX_STAT set) fMBX_STAT_BUSY) = false := by
    simp only [State.flag, State.fget, State.rget_rset_ne _ _ (rMBX_STAT_ne_REQ set), State.rget_mbxData_stat] at h1 ⊢
    exact h1
  have hw : (s.asked set code op index ops).wflag (rPLAN_P_FLAGS 8) fPLAN_P_FLAGS_MBX = s.wflag (rPLAN_P_FLAGS 8) fPLAN_P_FLAGS_MBX := by
    simp only [State.asked, State.mbxBusy, State.wflag, State.wfld, State.fset, State.wget_rset, State.wget_mbxData]
  have hp : ¬(via = .p8 ∧ (!(s.asked set code op index ops).wflag (rPLAN_P_FLAGS 8) fPLAN_P_FLAGS_MBX) = true) := by
    rintro ⟨hv, hn⟩
    rw [hw, h2 hv] at hn
    exact absurd hn (by decide)
  unfold State.mbx
  rw [if_neg (by simp [h1])]
  unfold State.mbxAccept
  simp only [hb, Bool.false_eq_true, if_false]
  rw [State.asked] at hp ⊢
  simp only [State.mbxRun, if_neg hp]

/-- The answer of a request is what its object gives. -/
theorem State.mbx_answers (s : State) (set : Nat) (via : RegPath) (code op : Nat) (index : BitVec 14) (ops : List Word)
    (perform : State → MbxRes) (h : s.mbxFree set via) :
    (s.mbx set via code op index ops perform).answers set (perform (s.asked set code op index ops)).status
      (perform (s.asked set code op index ops)).data := by
  rw [State.mbx_eq _ _ _ _ _ _ _ _ h]
  exact ⟨_, Nat.mod_lt _ (by decide), tget_tset_same _ _ _ _⟩

/-- When its core cycles are over, an answer shows: DATA, the status, VALID, no longer BUSY. -/
theorem State.mbxDone_answered (s : State) (set : Nat) (a : MbxAns) (hs : a.status < 16) :
    (s.mbxDone set a).answered set a.status a.data := by
  unfold State.mbxDone
  refine ⟨?_, ?_, ?_, ?_⟩
  · simp only [State.flag]
    rw [State.fget_fset_field _ _ _ _ _ (by decide), State.fget_fset _ _ _ _ (by decide)]
    rfl
  · simp only [State.flag]
    rw [State.fget_fset_field _ _ _ _ _ (by decide), State.fget_fset_field _ _ _ _ _ (by decide), State.fget_fset _ _ _ _ (by decide)]
    rfl
  · rw [State.fget_fset_field _ _ _ _ _ (by decide), State.fget_fset_field _ _ _ _ _ (by decide),
      State.fget_fset_field _ _ _ _ _ (by decide), State.fget_fset _ _ _ _ (by decide)]
    exact Nat.mod_eq_of_lt hs
  · intro k hk
    simp only [State.rget_fset_ne _ _ _ (rMBX_DATA_ne_STAT set k)]
    simpa using State.rget_mbxData_at { s with mbxAns := tset none s.mbxAns set none } set 0 a.data k hk

end Sys2Proof.Machine
end

