-- ==== Sys2Proof/Laws/Memory.lean ====
section
/-! SUPPORT. The laws of the byte memories (host memory, shared SRAM, the memories of the lanes): what a byte reads as after a write of
bytes, inside and outside of it, and that every write keeps the canonical form. -/
namespace Sys2Proof.Machine

@[simp] theorem memRead_length (m : Tbl Byte) (a n : Nat) : (memRead m a n).length = n := by
  induction n generalizing a with
  | zero => rfl
  | succ n ih => simp [memRead, ih]

/-- A byte of a memory after a write. -/
theorem tget_memWrite (m : Tbl Byte) (a : Nat) (bs : List Byte) (j : Nat) :
    tget 0 (memWrite m a bs) j = if a ≤ j ∧ j < a + bs.length then bs.getD (j - a) 0 else tget 0 m j := by
  induction bs generalizing m a with
  | nil => simp [memWrite]
  | cons b bs ih =>
    simp only [memWrite, ih, tget_tset, List.length_cons]
    by_cases h : j = a
    · subst h
      simp
    · by_cases h1 : a + 1 ≤ j ∧ j < a + 1 + bs.length
      · have h2 : a ≤ j ∧ j < a + (bs.length + 1) := by omega
        have h3 : j - a = (j - (a + 1)) + 1 := by omega
        simp only [h1, h2, and_self, if_true, h3, List.getD_cons_succ]
      · have h2 : ¬(a ≤ j ∧ j < a + (bs.length + 1)) := by omega
        simp only [h1, h2, if_false, h]

/-- A write leaves every byte outside of it. -/
theorem tget_memWrite_out (m : Tbl Byte) (a : Nat) (bs : List Byte) {j : Nat} (h : j < a ∨ a + bs.length ≤ j) :
    tget 0 (memWrite m a bs) j = tget 0 m j := by
  rw [tget_memWrite, if_neg (by omega)]

/-- A read after a write of the same bytes gives them. -/
theorem memRead_memWrite (m : Tbl Byte) (a : Nat) (bs : List Byte) : memRead (memWrite m a bs) a bs.length = bs := by
  have key : ∀ (l : List Byte) (p : Nat), (∀ i, i < l.length → tget 0 (memWrite m a bs) (p + i) = l.getD i 0) →
      memRead (memWrite m a bs) p l.length = l := by
    intro l
    induction l with
    | nil => intro p _; rfl
    | cons b l ih =>
      intro p h
      simp only [memRead, List.length_cons]
      rw [ih (p + 1) (fun i hi => by
        have := h (i + 1) (by simpa using hi)
        rw [Nat.add_right_comm, Nat.add_assoc]
        simpa using this)]
      have := h 0 (by simp)
      simp only [Nat.add_zero, List.getD_cons_zero] at this
      rw [this]
  exact key bs a (fun i hi => by
    rw [tget_memWrite, if_pos ⟨by omega, by omega⟩, Nat.add_sub_cancel_left])

/-- A write keeps the canonical form. -/
theorem memWrite_wf (m : Tbl Byte) (a : Nat) (bs : List Byte) (h : Memory.wf m = true) : Memory.wf (memWrite m a bs) = true := by
  induction bs generalizing m a with
  | nil => exact h
  | cons b bs ih => exact ih _ _ (tset_wf (fun _ => 0) a b h)

/-- A write of host memory keeps its canonical form, and touches no other memory. -/
theorem State.hostWrite_wf (s : State) (a : Nat) (bs : List Byte) (h : Memory.wf s.host = true) :
    Memory.wf (s.hostWrite a bs).host = true ∧ (s.hostWrite a bs).sram = s.sram ∧ (s.hostWrite a bs).lanes = s.lanes :=
  ⟨memWrite_wf _ _ _ h, rfl, rfl⟩

/-- A write of shared SRAM keeps its canonical form, and touches no other memory. -/
theorem State.sramWrite_wf (s : State) (a : Nat) (bs : List Byte) (h : Memory.wf s.sram = true) :
    Memory.wf (s.sramWrite a bs).sram = true ∧ (s.sramWrite a bs).host = s.host ∧ (s.sramWrite a bs).lanes = s.lanes :=
  ⟨memWrite_wf _ _ _ h, rfl, rfl⟩

/-- The memories at reset are in canonical form. -/
theorem reset_memories_wf : Memory.wf State.reset.host = true ∧ Memory.wf State.reset.sram = true
    ∧ ∀ l, Memory.wf (State.reset.ln l).mem = true ∧ Memory.wf (State.reset.ln l).bank0 = true ∧ Memory.wf (State.reset.ln l).bank1 = true :=
  ⟨rfl, rfl, fun _ => ⟨rfl, rfl, rfl⟩⟩

end Sys2Proof.Machine
end

