-- ==== Sys2Proof/Laws/Rings.lean ====
section
/-! SUPPORT. What posting an entry may do: whichever ring it goes to, whether it is written, kept in the backlog or lost, and whether the
flight log records it, nothing but the rings, their registers, the messages and the flight log changes. -/
namespace Sys2Proof.Machine

/-- The base of a completion ring (R374). -/
def cqBase (o : Nat) : Prop := ∃ q < 32, o = rHIF_CQ_BASE_LO q ∨ o = rHIF_CQ_BASE_HI q

theorem State.posted_refl (s : State) (L : List Nat) : s.posted s L := ⟨rfl, fun _ _ _ => rfl, fun _ h => ⟨h, rfl⟩⟩

theorem State.posted_trans {s t u : State} {L : List Nat} (h : u.posted t L) (h' : t.posted s L) : u.posted s L := by
  refine ⟨?_, fun o a b => (h.2.1 o a b).trans (h'.2.1 o a b), fun a ha => ?_⟩
  · rw [h.1, h'.1]
  · have h1 := h'.2.2 a ha
    have h2 := h.2.2 a h1.1
    exact ⟨h2.1, h2.2.trans h1.2⟩

theorem State.posted_mono {s t : State} {L M : List Nat} (h : t.posted s L) (hs : ∀ o ∈ L, o ∈ M) : t.posted s M :=
  ⟨h.1, fun o a b => h.2.1 o a (fun c => b (hs o c)), h.2.2⟩

/-- Where the rings lie is told by their bases alone. -/
theorem State.cqByte_congr {s t : State} (h : ∀ o, cqBase o → t.rget o = s.rget o) (a : Nat) : t.cqByte a ↔ s.cqByte a := by
  unfold State.cqByte State.cqSlot
  constructor <;> rintro ⟨q, hq, hb⟩ <;> refine ⟨q, hq, ?_⟩ <;>
    simpa only [h _ ⟨q, hq, .inl rfl⟩, h _ ⟨q, hq, .inr rfl⟩] using hb

theorem State.posted_of_wrote {s t : State} {L : List Nat} (h : t.wrote s L) (hL : ∀ o ∈ L, ¬ cqBase o) : t.posted s L := by
  refine ⟨?_, fun o _ b => h.2 o b, fun a ha => ⟨?_, ?_⟩⟩
  · rw [h.1]
  · rwa [State.cqByte_congr (fun o ho => h.2 o (fun hm => hL o hm ho))]
  · rw [h.1]

theorem State.rset_posted (s : State) {o : Nat} (v : Word) {L : List Nat} (h : postReg o = true ∨ o ∈ L) (hb : ¬ cqBase o) :
    (s.rset o v).posted s L := by
  refine ⟨rfl, fun p a b => State.rget_rset_ne s v ?_, fun a ha => ⟨?_, rfl⟩⟩
  · rintro rfl
    rcases h with h | h
    · simp [h] at a
    · exact b h
  · rwa [State.cqByte_congr (fun p hp => State.rget_rset_ne s v (fun he : p = o => hb (he ▸ hp)))]

theorem State.fset_posted (s : State) {o : Nat} (b : Bits) (x : Nat) {L : List Nat} (h : postReg o = true ∨ o ∈ L) (hb : ¬ cqBase o) :
    (s.fset o b x).posted s L := State.rset_posted s _ h hb

/-- No register that posting writes is the base of a ring. -/
theorem postReg_base {o : Nat} (h : postReg o = true) : ¬ cqBase o := by
  rintro ⟨p, hp, hb⟩
  simp only [postReg, Bool.or_eq_true, List.any_eq_true, List.mem_range, beq_iff_eq] at h
  simp only [rHIF_CQ_BASE_LO, rHIF_CQ_BASE_HI, rHIF_CQ_STAT, rHIF_CQ_LOST, rMSIX_PBA, rFLOG_STAT, rFLOG_LOST] at h hb
  obtain ((⟨q, _, h⟩ | ⟨q, _, h⟩) | h) | ⟨q, _, h⟩ := h <;> omega

theorem State.fset_post (s : State) {o : Nat} (b : Bits) (x : Nat) (h : postReg o = true) (L : List Nat) : (s.fset o b x).posted s L :=
  State.fset_posted s b x (.inl h) (postReg_base h)

theorem postReg_cqStat {q : Nat} (h : q < 32) : postReg (rHIF_CQ_STAT q) = true := by
  simp only [postReg, Bool.or_eq_true, List.any_eq_true, List.mem_range]
  exact .inl (.inl (.inl ⟨q, h, by simp⟩))
theorem postReg_cqLost {q : Nat} (h : q < 32) : postReg (rHIF_CQ_LOST q) = true := by
  simp only [postReg, Bool.or_eq_true, List.any_eq_true, List.mem_range]
  exact .inl (.inl (.inl ⟨q, h, by simp⟩))
theorem postReg_pba {k : Nat} (h : k < 4) : postReg (rMSIX_PBA k) = true := by
  simp only [postReg, Bool.or_eq_true, List.any_eq_true, List.mem_range]
  exact .inl (.inl (.inr ⟨k, h, by simp⟩))
theorem postReg_flogStat : postReg rFLOG_STAT = true := by
  simp [postReg]
theorem postReg_flogLost {k : Nat} (h : k < 5) : postReg (rFLOG_LOST k) = true := by
  simp only [postReg, Bool.or_eq_true, List.any_eq_true, List.mem_range]
  exact .inr ⟨k, h, by simp⟩

/-- A field is less than its range. -/
theorem bget_lt (v : Word) (b : Bits) : bget v b < 2 ^ b.w := Nat.mod_lt _ (Nat.two_pow_pos _)

theorem State.flog_posted (s : State) (f : FLog) (L : List Nat) : ({ s with flog := f } : State).posted s L :=
  ⟨rfl, fun _ _ _ => rfl, fun _ h => ⟨h, rfl⟩⟩

theorem State.flogStage_posted (s : State) (r : BitVec 256) (L : List Nat) : (s.flogStage r).posted s L := by
  unfold State.flogStage
  split <;> exact State.flog_posted _ _ _

theorem State.countN_posted (s : State) {o : Nat} (n : Nat) {L : List Nat} (h : postReg o = true ∨ o ∈ L) (hb : ¬ cqBase o) :
    (s.countN o n).posted s L := by
  unfold State.countN
  dsimp only
  split
  · exact State.posted_trans (State.fset_posted _ _ _ h hb) (State.fset_posted _ _ _ h hb)
  · exact State.fset_posted _ _ _ h hb

theorem State.count_post (s : State) {o : Nat} (h : postReg o = true) (L : List Nat) : (s.count o).posted s L :=
  State.countN_posted s 1 (.inl h) (postReg_base h)

theorem flogLostIdx_lt {typ : Nat} (h : typ ≤ 6) : flogLostIdx typ < 5 := by
  unfold flogLostIdx; split <;> omega

theorem State.flogLose_posted (s : State) {typ : Nat} (h : typ ≤ 6) (L : List Nat) : (s.flogLose typ).posted s L :=
  State.posted_trans (State.flog_posted _ _ _)
    (State.posted_trans (State.fset_post _ _ _ postReg_flogStat _) (State.count_post _ (postReg_flogLost (flogLostIdx_lt h)) _))

/-- The log writer changes only the flight log and its registers. -/
theorem State.flogAdd_posted (s : State) {typ : Nat} (source : Nat) (ft : FTime) (data : BitVec 128) (h : typ ≤ 6) (L : List Nat) :
    (s.flogAdd typ source ft data).posted s L := by
  unfold State.flogAdd
  dsimp only
  repeat' split
  · exact State.posted_refl _ _
  · exact State.posted_refl _ _
  · exact State.flog_posted s _ _
  · exact State.posted_trans (State.flogLose_posted _ h _) (State.flog_posted s _ _)
  · exact State.posted_trans (State.flogStage_posted _ _ _) (State.flog_posted s _ _)

theorem State.flogTrigger_posted (s : State) (cause code : Nat) (L : List Nat) : (s.flogTrigger cause code).posted s L := by
  have h : ((s.flogAdd 6 (cause + (code % 2 ^ 24) <<< 8) s.now 0).raise rFLOG_STAT fFLOG_STAT_TRIGD).posted s L :=
    State.posted_trans (State.fset_post _ _ _ postReg_flogStat _) (State.flogAdd_posted _ _ _ _ (by decide) _)
  unfold State.flogTrigger
  dsimp only
  repeat' split
  · exact State.posted_trans (State.flog_posted ((s.flogAdd 6 (cause + (code % 2 ^ 24) <<< 8) s.now 0).raise rFLOG_STAT fFLOG_STAT_TRIGD) _ _) h
  · exact h
  · exact State.posted_refl _ _

theorem State.sendMsg_posted (s : State) {v : Nat} (h : v < 128) (L : List Nat) : (s.sendMsg v).posted s L := by
  unfold State.sendMsg
  split
  · exact State.fset_post _ _ _ (postReg_pba (by omega)) _
  · exact ⟨rfl, fun _ _ _ => rfl, fun _ h => ⟨h, rfl⟩⟩

theorem State.updCq_posted (s : State) (q : Nat) (f : Cq → Cq) (L : List Nat) : (s.updCq q f).posted s L :=
  ⟨rfl, fun _ _ _ => rfl, fun _ h => ⟨h, rfl⟩⟩

theorem State.cqTest_posted (s : State) {q : Nat} (h : q < 32) (L : List Nat) : (s.cqTest q).posted s L := by
  unfold State.cqTest
  split
  · exact State.posted_trans (State.sendMsg_posted _ (Nat.lt_of_lt_of_le (bget_lt _ _) (by decide)) _)
      (State.posted_trans (State.updCq_posted _ _ _ _) (State.fset_post _ _ _ (postReg_cqStat h) _))
  · exact State.posted_refl _ _

@[simp] theorem leBytes_length (k x : Nat) : (leBytes k x).length = k := by
  induction k generalizing x with
  | zero => rfl
  | succ k ih => simp [leBytes, ih]

theorem cqeBytes_length (e : Cqe) (ph : Bool) : (cqeBytes e ph).length = 32 := by simp [cqeBytes]

/-- An entry of a ring written to host memory stays within the ring. -/
theorem State.cqSlot_posted (s : State) {q i : Nat} (bs : List Byte) (h : q < 32) (hi : i < 4096) (hb : bs.length = 32) (L : List Nat) :
    (s.hostWrite (s.cqSlot q i) bs).posted s L := by
  refine ⟨rfl, fun _ _ _ => rfl, fun a ha => ⟨ha, ?_⟩⟩
  refine tget_memWrite_out _ _ _ ?_
  by_contra hc
  refine ha ⟨q, h, ?_⟩
  rw [hb] at hc
  simp only [State.cqSlot] at hc ⊢
  omega

theorem State.cqWrite_posted (s : State) {q : Nat} (e : Cqe) (h : q < 32) (L : List Nat) : (s.cqWrite q e).posted s L := by
  unfold State.cqWrite State.fsetb
  exact State.posted_trans (State.fset_post _ _ _ (postReg_cqStat h) _)
    (State.posted_trans (State.fset_post _ _ _ (postReg_cqStat h) _)
      (State.posted_trans (State.updCq_posted _ _ _ _)
        (State.cqSlot_posted s _ h (Nat.lt_of_lt_of_le (bget_lt _ _) (by decide)) (cqeBytes_length _ _) _)))

/-- An entry offered to a ring is written, kept or lost; nothing else happens. -/
theorem State.cqOffer_posted (s : State) {q : Nat} (e : Cqe) (h : q < 32) (L : List Nat) : (s.cqOffer q e).posted s L := by
  unfold State.cqOffer
  repeat' split
  · exact State.count_post _ (postReg_cqLost h) _
  · exact State.posted_trans (State.cqTest_posted _ h _) (State.cqWrite_posted _ _ h _)
  · exact State.posted_trans (State.fset_post _ _ _ (postReg_cqStat h) _) (State.updCq_posted _ _ _ _)
  · exact State.count_post _ (postReg_cqLost h) _

/-- Producing an entry, for whichever ring or for none, changes only what posting may change. -/
theorem State.produce_posted (s : State) (ring : Option Nat) (e : Cqe) (h : ∀ q ∈ ring, q < 32) (L : List Nat) :
    (s.produce ring e).posted s L := by
  have h1 : ∀ u : State, u.posted s L → (match ring with | none => u | some q => u.cqOffer q e).posted s L := by
    intro u hu
    cases ring with
    | none => exact hu
    | some q => exact State.posted_trans (State.cqOffer_posted _ _ (h q rfl) _) hu
  unfold State.produce
  refine h1 _ ?_
  split
  · exact State.flogAdd_posted _ _ _ _ (by decide) _
  · exact State.posted_refl _ _

theorem ringIf_lt {en : Bool} {x : Nat} (h : x < 32) : ∀ q ∈ ringIf en x, q < 32 := by
  cases en <;> simp [ringIf, h]

theorem State.axEvent_posted (s : State) (n code data : Nat) (ft : FTime) (L : List Nat) : (s.axEvent n code data ft).posted s L :=
  State.produce_posted _ _ _ (ringIf_lt (bget_lt _ _)) _
theorem State.tetherEvent_posted (s : State) (t bits : Nat) (L : List Nat) : (s.tetherEvent t bits).posted s L :=
  State.produce_posted _ _ _ (ringIf_lt (bget_lt _ _)) _
theorem State.devEvent_posted (s : State) (code source data : Nat) (L : List Nat) : (s.devEvent code source data).posted s L :=
  State.produce_posted _ _ _ (ringIf_lt (bget_lt _ _)) _
theorem State.streamEvent_posted (s : State) (code data : Nat) (L : List Nat) : (s.streamEvent code data).posted s L :=
  State.produce_posted _ _ _ (ringIf_lt (bget_lt _ _)) _
theorem State.fioEvent_posted (s : State) (code source data : Nat) (ft : FTime) (L : List Nat) :
    (s.fioEvent code source data ft).posted s L := State.produce_posted _ _ _ (ringIf_lt (bget_lt _ _)) _
theorem State.sqEvent_posted (s : State) (q code data : Nat) (L : List Nat) : (s.sqEvent q code data).posted s L :=
  State.produce_posted _ _ _ (by rintro _ ⟨⟩; exact bget_lt _ _) _
theorem State.tthEvt_posted (s : State) (t bits : Nat) : (s.tthEvt t bits).posted s [rTTH_EVT t] :=
  State.posted_trans (State.tetherEvent_posted _ _ _ _) (State.rset_posted _ _ (.inr (by simp)) (by
    rintro ⟨q, hq, h⟩
    simp only [rTTH_EVT, rHIF_CQ_BASE_LO, rHIF_CQ_BASE_HI] at h
    omega))

end Sys2Proof.Machine
end

