-- ==== Sys2Proof/Tests/Slice0.lean ====
section
/-!
SUPPORT. Small tests and witnesses. A theorem test_<what> runs one step and checks a field or two of its outcome; its expected result is
worked out by hand from the rules that the command's meaning cites. A theorem wit_<Name> shows states and operands that meet the
hypotheses of the statement Obligations.<Name>, clause by clause, where a range has a bound at the bound.
-/
open Sys2Proof Sys2Proof.Machine
namespace Sys2Proof.Tests
set_option Elab.async false

/-! ### Helpers -/

/-- A state with fields of registers set. -/
def sts (l : List (Nat × Bits × Nat)) (s : State := {}) : State := l.foldl (fun s e => s.fset e.1 e.2.1 e.2.2) s

/-- A state with fields of working copies and their shadows set. -/
def cfgd (l : List (Nat × Sh × Nat)) (s : State := {}) : State := l.foldl (fun s e => s.bothSet e.1 e.2.1 e.2.2) s

/-- The device out of reset, its core PLL locked. -/
def runs : State := { su := { poreset := false }, time := { locked := true } }

/-- A state at a field time. -/
def at_ (ft : FTime) (s : State := runs) : State := { s with time := { s.time with ft := ft } }

/-- Does the command answer a next state of which `p` holds? -/
def did (c : Instr) (s : State) (p : State → Bool) : Bool :=
  match exec c s with
  | .next t => p t
  | _ => false

/-- The status and the words that a mailbox set is to show. -/
def told (t : State) (set : Nat) : Option (Nat × List Word) := (tget none t.mbxAns set).map (fun a => (a.status, a.data))

/-- What a port finds while it receives frame `f` without a fault. -/
def good (f : Frame) : RxQual :=
  { cv := 0, cvBetween := 0, seq := f.seq, crc := frameCrc f, eofx := false, fmtOk := true, full := false, lateWin := false }

/-- The same of a frame for which only the form of the command matters. -/
def anyRx : RxQual := good (mkFrame 0 0 0 0 0 [])

/-! ### Ill-formed commands are refused, one for each check -/

theorem test_wf_offset : (Instr.registerWrite .p0 0xFFFFFC 0 true).wf = true ∧ (Instr.registerWrite .p8 2 0 true).wf = false
    ∧ (Instr.rcRead .p0 1 true).wf = false := by decide +kernel

theorem test_wf_node : (Instr.gClrSil 1537 false 0).wf = true ∧ (Instr.gClrSil 1538 false 0).wf = false
    ∧ (Instr.trn1Complete (.gon 1535 .up)).wf = true ∧ (Instr.trn1Complete (.gon 1536 .up)).wf = false := by decide +kernel

theorem test_wf_frames :
    (Instr.identReceive 0 0 (List.replicate 64 0) 0 0 anyRx).wf = true ∧ (Instr.identReceive 0 0 (List.replicate 63 0) 0 0 anyRx).wf = false
      ∧ (Instr.tickUpReceive 0 0 0 0 (List.replicate 15 0) anyRx).wf = true
      ∧ (Instr.tickUpReceive 0 0 0 0 (List.replicate 16 0) anyRx).wf = false
      ∧ (Instr.gondolaTickDnReceive 0 0 0 0 0 0 0 (List.replicate 16 0)).wf = false
      ∧ (Instr.cfgRspReceive 0 0 0 0 (List.replicate 65 0) anyRx).wf = false
      ∧ (Instr.bulkReceive 0 0 0 false 0 (List.replicate 257 0) anyRx).wf = false
      ∧ (Instr.gondolaCfgWr 0 false 0 0 (List.replicate 66 0) 0 0).wf = false
      ∧ (Instr.gondolaBulkReceive 0 0 false 0 (List.replicate 257 0)).wf = false := by decide +kernel

theorem test_wf_host :
    (Instr.descriptorFetch 0 8 true).wf = true ∧ (Instr.descriptorFetch 0 0 true).wf = false ∧ (Instr.descriptorFetch 0 9 true).wf = false
      ∧ (Instr.canFrameReceive 0 0 false true false false (List.replicate 64 0) false).wf = true
      ∧ (Instr.canFrameReceive 0 0 false false false false (List.replicate 9 0) false).wf = false
      ∧ (Instr.dcmdStop 0 0 0 false (List.replicate 65 0)).wf = false
      ∧ (Instr.streamFrameReceive 3 0 0 0 (List.replicate 2049 0) 0 true).wf = false := by decide +kernel

/-! ### The interface: no row has bits, and a step takes the front of the queue -/

theorem test_no_words : decodeTableWord 32 0 = none ∧ (runs.withFetchWord 32 0).pending = [] := by decide +kernel

theorem test_queue : (match step { runs with pending := [.debugHalt, .swset .p0] } with
    | .next t => t.pending.length == 1 && t.time.halted && !t.swLatch
    | _ => false) = true := by decide +kernel

/-! ### The block, resets, boot and calibration -/

theorem wit_IdleCycle :
    let off : State := { runs with time := {} }
    let a : State := { runs with mbxAns := [(3, some ⟨0, 1, [7]⟩)] }
    let b : State := { runs with mbxAns := [(0, some ⟨255, 15, []⟩)] }
    off.pending = [] ∧ off.coreClock = false ∧ runs.pending = [] ∧ runs.coreClock = true ∧ runs.time.stepPend = 0 ∧ runs.hold = [] ∧ runs.mbxAns = []
      ∧ a.coreClock = true ∧ (∀ k < 4, k ≠ 3 → tget none a.mbxAns k = none) ∧ tget none a.mbxAns 3 = some ⟨0, 1, [7]⟩
      ∧ b.coreClock = true ∧ (∀ k < 4, k ≠ 0 → tget none b.mbxAns k = none) ∧ tget none b.mbxAns 0 = some ⟨255, 15, []⟩ := by decide +kernel

theorem wit_FieldTimeFromReset :
    let u : State := { su := { poreset := false } }
    u.time.locked = false ∧ u.pending = [] ∧ u.su.poreset = false ∧ u.su.sysreset = false ∧ u.su.railFault = false ∧ u.time.halted = false
      ∧ u.time.stepPend = 0 ∧ u.hold = [] ∧ u.wfld rFTM_INC_INT fFTM_INC_INT_INT = 40 ∧ u.wfld rFTM_INC_FRAC fFTM_INC_FRAC_FRAC = 0 := by
  decide +kernel

theorem test_idle_cycle : (match step runs with
    | .next t => t.now == 40 && t.time.prev == 0
    | _ => false) = true := by decide +kernel

theorem wit_RipLoopsSafe : ∃ s t : State, s.ripsSafe ∧ step s = .next t :=
  ⟨{ runs with pending := [.busComparatorRelease] }, { runs with anchor := { runs.anchor with bustrip := false } },
    by simp only [State.ripsSafe, Anchor.loopsSafe, Anchor.maySwitch]; decide +kernel, rfl⟩

theorem wit_LoopsMovedOnlyByAnchor : ∃ t, anchorRow .debugHalt = false ∧ exec .debugHalt runs = .next t := ⟨_, rfl, rfl⟩

theorem wit_ResetRows : State.reset.su.poreset = true ∧ State.reset.ripsSafe ∧ ({ su := { sysreset := true } } : State).su.sysreset = true
    ∧ ({ su := { railFault := true } } : State).su.railFault = true ∧ State.reset.time.locked = false := by
  refine ⟨rfl, ?_, rfl, rfl, rfl⟩
  simp only [State.ripsSafe, Anchor.loopsSafe, Anchor.maySwitch]; decide +kernel

theorem test_poreset : did .poresetAssert runs (fun t => t.su.poreset && t.lanes == []) = true := by decide +kernel

theorem test_poresetRelease : did (.poresetRelease 2) {} (fun t => t.fget rSU_STAT fSU_STAT_BOOTSEL == 2) = true := by decide +kernel

theorem wit_BootRows :
    let b : State := { runs with su := { runs.su with booting := some false } }
    let f := sts [(rSU_STAT, fSU_STAT_BOOTSEL, 1)] b
    let p := sts [(rSU_STAT, fSU_STAT_PHASE, 2), (rANC_STAT, fANC_STAT_ACTVAL, 1)] runs
    b.su.booting = some ((0 : Fin 2).val == 1) ∧ b.fget rSU_STAT fSU_STAT_BOOTSEL = 0 ∧ b.fget rSU_STAT fSU_STAT_FAILB = 0
      ∧ (2 ≤ (2 : BitVec 3).toNat ∧ (5 : BitVec 3).toNat ≤ 5) ∧ f.fget rSU_STAT fSU_STAT_BOOTSEL ≠ 0 ∧ f.su.booting = some ((0 : Fin 2).val == 1)
      ∧ p.fget rSU_STAT fSU_STAT_PHASE = 2 ∧ p.activePilot = some 0
      ∧ did (.bootSlotVerified 0 1 7) b (fun t => t.rget rPIL_VERA == 7 && t.fget rSU_STAT fSU_STAT_PHASE == 2) = true := by decide +kernel

/-- The device READY, with a mailbox that P8 may use, and tether 24 in UP. -/
def boxed : State :=
  cfgd [(rPLAN_P_FLAGS 8, fPLAN_P_FLAGS_MBX, 1)] (sts [(rSU_STAT, fSU_STAT_PHASE, 3), (rTTH_STAT 24, fTTH_STAT_LINK, 3)] runs)

theorem wit_CalibrationRows :
    let c : State := { runs with su := { runs.su with calRun := true } }
    boxed.flag rSU_STAT fSU_STAT_CALDONE = false ∧ boxed.link 24 = lkUP ∧ boxed.su.poreset = false ∧ boxed.su.sysreset = false
      ∧ boxed.su.railFault = false ∧ c.su.calRun = true ∧ ({ index := 23, w0 := 1, w1 := 2, w2 := 3, w3 := 4 } : CalResult).index.toNat < 24
      ∧ (15 : BitVec 14).toNat < 16 ∧ 16 ≤ (16 : BitVec 14).toNat ∧ (23 : BitVec 14).toNat < 24 ∧ 24 ≤ (24 : BitVec 14).toNat
      ∧ (29 : BitVec 14).toNat < 30 ∧ boxed.fget rSU_STAT fSU_STAT_PHASE = 3 ∧ (∀ n < 256, boxed.inPlan n = false)
      ∧ did .scrubberLine { runs with scrub := 163839 } (fun t => t.scrub == 0) = true := by decide +kernel

/-! ### Field time -/

/-- The same with axis 0 in the plan. -/
def planned : State := cfgd [(rAXC_CFG 0, fAXC_CFG_INPLAN, 1), (rAXC_CFG 0, fAXC_CFG_TYPE, 0), (rAXC_CFG 0, fAXC_CFG_TETHER, 0)] boxed

theorem wit_mailbox : boxed.mbxFree 3 .p8 ∧ planned.mbxFree 0 .p0 := by
  unfold State.mbxFree; decide +kernel

theorem wit_TimeObjects :
    let q := { boxed with time := { boxed.time with tsi := [(3, [(true, 7)])], txts := [(1, [(5, 9)])] } }
    (3 : BitVec 14).toNat < 4 ∧ tget [] boxed.time.tsi 3 = [] ∧ tget [] q.time.tsi 3 = [(true, 7)] ∧ (1 : BitVec 14).toNat < 2
      ∧ tget [] boxed.time.txts 1 = [] ∧ tget [] q.time.txts 1 = [(5, 9)] ∧ (7 : BitVec 14).toNat < 8
      ∧ (4000 ≤ (4000 : BitVec 64).toNat ∧ (2 ^ 48 : BitVec 64).toNat ≤ 2 ^ 48) ∧ (3999 : BitVec 64) ≠ 0 ∧ (3999 : BitVec 64).toNat < 4000
      ∧ (∀ n < 256, boxed.inPlan n = false) ∧ (∃ n < 256, planned.inPlan n = true) ∧ boxed.commit = none := by decide +kernel

theorem test_ftTc_range : did (.ftTc 0 .p0 7 5 3999) boxed (fun t => told t 0 == some (mbxRANGE, [])) = true := by decide +kernel

theorem test_tpOrgWrite : did (.tpOrgWrite 1 .p0 77) planned (fun t => told t 1 == some (mbxREFUSED, []) && t.time.torg == 0)
    && did (.tpOrgWrite 1 .p0 77) boxed (fun t => t.time.torg == 77) = true := by decide +kernel

theorem wit_TimeEventRows :
    let c := sts [(rFTM_TC_CTL 7, fFTM_TC_CTL_EN, 1)] runs
    let w := { c with time := { c.time with tc := [(7, { wait := true })] } }
    let e := sts [(rFTM_TC_CTL 7, fFTM_TC_CTL_EN, 1)] { runs with
      time := { locked := true, stepPend := 100, tc := [(7, { next := some (60, 0) }), (6, { target := 50 })] } }
    let p := sts [(rFTM_CTL, fFTM_CTL_PPS_EN, 1), (rFTM_CTL, fFTM_CTL_TDIST_EN, 1), (rFTM_TSI_CTL, fFTM_TSI_CTL_EDGE 3, 1)]
      { runs with time := { locked := true, ft := 16000000000, prev := 15999999990, ppsGen := true } }
    let d := { p with time := { p.time with tdLast := some p.now } }
    boxed.planHolds = false ∧ planned.planHolds = true ∧ e.coreClock = true ∧ e.hold = [] ∧ (e.time.comp 7).next = some (60, 0)
      ∧ (e.time.comp 6).next = none ∧ e.time.stepPend ≠ 0 ∧ e.flag (rFTM_TC_CTL 7) fFTM_TC_CTL_EN = true
      ∧ passed (140 - 100) 140 60 = true
      ∧ c.p8Denied .p0 (rFTM_TC_CTL 7) = false ∧ c.flag (rFTM_TC_CTL 7) fFTM_TC_CTL_EN = true ∧ reached c.now (c.time.comp 7).target = true
      ∧ (c.time.comp 7).wait = false ∧ (w.time.comp 7).wait = true ∧ runs.flag (rFTM_TC_CTL 7) fFTM_TC_CTL_EN = false
      ∧ ({ out := true } : TimeComp).out = true ∧ reached p.now (0 : FTime) = true
      ∧ p.flag rFTM_CTL fFTM_CTL_PPS_EN = true ∧ p.flag rFTM_CTL fFTM_CTL_PPS_SRC = false ∧ p.ppsSince < tdiff p.now p.time.prev
      ∧ p.time.ppsGen = true ∧ reached p.now p.time.ppsEnd = true
      ∧ (p.fget rFTM_TSI_CTL (fFTM_TSI_CTL_EDGE 3)).testBit 0 = true ∧ (tget [] p.time.tsi 3).length < 4
      ∧ p.flag rFTM_CTL fFTM_CTL_TDIST_EN = true ∧ p.tdistDue = true ∧ d.tdistDue = false
      ∧ did (.timeComparatorFire 7) c (fun t => t.flag (rFTM_TC_STAT 7) fFTM_TC_STAT_FIRED && !t.flag (rFTM_TC_CTL 7) fFTM_TC_CTL_EN) = true
      ∧ did .ppsOutRise p (fun t => t.ppsOut) = true := by decide +kernel

/-! ### Tethers -/

/-- Tether 0 in UP with a gondola at position 0 that carries axis 0. -/
def tethered : State := { sts [(rTTH_STAT 0, fTTH_STAT_LINK, 3), (rTTH_CTL 0, fTTH_CTL_EN, 1), (rTTH_PRES0 0, ⟨0, 32⟩, 1)] planned with
  gdev := [(0, { grantUp := 1, missRun := 3, cfg := [{ tag := 4, write := false, addr := 0, count := 4 }] })] }
/-- The same without an axis. -/
def bare : State := sts [(rTTH_STAT 0, fTTH_STAT_LINK, 3), (rTTH_CTL 0, fTTH_CTL_EN, 1), (rTTH_STAT 0, fTTH_STAT_ENUM_BUSY, 1)] runs

/-- Port 24 enabled in TRN1, port 23 in TRN2, and the odd port 1 of a ring in TRN2. -/
def training : State := cfgd [(rTTH_CTL 0, fTTH_CTL_RING, 1)] (sts [(rTTH_STAT 24, fTTH_STAT_LINK, 1), (rTTH_CTL 24, fTTH_CTL_EN, 1),
  (rTTH_STAT 23, fTTH_STAT_LINK, 2), (rTTH_STAT 1, fTTH_STAT_LINK, 2)] runs)

theorem wit_TrainingRows :
    runs.p8Denied .p0 (rTTH_CTL 0) = false ∧ runs.flag (rTTH_CTL 0) fTTH_CTL_EN = false ∧ bget (1 : Word) fTTH_CTL_EN = 1
      ∧ bare.flag (rTTH_CTL 0) fTTH_CTL_EN = true ∧ bget (0 : Word) fTTH_CTL_EN = 0 ∧ bare.link 0 = lkUP ∧ bare.link 0 ≠ lkOFF
      ∧ training.flag (rTTH_CTL 24) fTTH_CTL_EN = true ∧ training.link 24 = lkTRN1 ∧ training.link 23 = lkTRN2 ∧ training.link 1 = lkTRN2
      ∧ training.ringEven 23 = none ∧ training.ringEven 1 ≠ none ∧ rolesOK 1 2 false = true ∧ rolesOK 1 1 true = false := by decide +kernel

/-- A gondola whose upstream port is in TRN1, whose through port is in TRN2, and whose branch port is UP. -/
def trainee : Gondola := { links := [(0, 1), (1, 2), (2, 3)], pos := some 5 }

theorem wit_TrainingRows_gondola :
    trainee.glink .up = lkTRN1 ∧ trainee.glink .thru = lkTRN2 ∧ trainee.glink .branch = lkUP ∧ trainee.greg aG_PLAN = 0 ∧ isHome 0 = false
      ∧ rolesOK (gportRole .thru) 2 false = true ∧ ({ runs with gons := [(0, trainee)] } : State).onRing 0 = false
      ∧ did (.linkLoss (.dev 0) 0 0) bare (fun t => t.link 0 == lkTRN1 && t.flag (rTTH_EVT 0) fTTH_EVT_DOWN) = true := by decide +kernel

theorem wit_EnumerationRows :
    let r := cfgd [(rTTH_CTL 0, fTTH_CTL_RING, 1)] (sts [(rTTH_STAT 1, fTTH_STAT_LINK, 3)] bare)
    bare.p8Denied .p0 (rTTH_ENUM 0) = false ∧ bare.tetherAxes (bare.tetherKey 0) = [] ∧ bare.link (bare.tetherKey 0) = lkUP
      ∧ tethered.tetherAxes (tethered.tetherKey 0) ≠ [] ∧ bare.link 0 = lkUP
      ∧ goodRx (good (bare.enumBackFrame 0 1 0 false)) { bare.enumBackFrame 0 1 0 false with seq := (good (bare.enumBackFrame 0 1 0 false)).seq }
      ∧ bare.fget (rTTH_STAT (bare.tetherKey 0)) fTTH_STAT_ENUM_BUSY = 1
      ∧ bare.fget (rTTH_ENUM (bare.tetherKey 0)) fTTH_ENUM_EPOCH = (0 : BitVec 8).toNat ∧ bare.ringEven 0 = none
      ∧ r.link 1 = lkUP ∧ r.fget (rTTH_STAT (r.tetherKey 1)) fTTH_STAT_ENUM_BUSY = 1
      ∧ r.ringEven 1 = some 0 ∧ r.ringEven 1 ≠ some 1 ∧ (r.port (r.tetherKey 1)).enumOdd = false
      ∧ goodRx (good (mkFrame 7 0 63 9 0 [])) (mkFrame 7 0 63 9 0 [])
      ∧ did (.enumDone 0 1 false 0 0 (good (bare.enumBackFrame 0 1 0 false))) bare (fun t => t.flag (rTTH_EVT 0) fTTH_EVT_ENUM_DONE) = true
      ∧ did (.ringBreak 1 127) r (fun t => t.fget (rTTH_STAT 0) fTTH_STAT_BRKSEG == 127) = true := by
  unfold goodRx; decide +kernel

theorem wit_TetherFrameRows :
    let f := mkFrame 2 0 0 0 0 (leBytes 10 0 ++ [0].flatMap (fun r : BitVec 128 => leBytes 16 r.toNat))
    let c := { tethered with gdev := [(0, { credDn := 15, got := true, upTick := some (BitVec.ofInt 64 (tethered.tickEnded 0)) })] }
    let e := { tethered with ports := [(0, { ready := [0], waiting := [⟨5, 2, 0, 0, 0, []⟩] })] }
    let w := { bare with ports := [(0, { waiting := [⟨5, 2, 0, 0, 0, []⟩] })] }
    tethered.link 0 = lkUP ∧ goodRx (good f) f ∧ tethered.present 0 0 = true ∧ tethered.planChs (tethered.gk 0 0) ≠ []
      ∧ ([0] : List (BitVec 128)).map recCH = [0] ∧ tethered.planChs (tethered.gk 0 0) = [0]
      ∧ (tethered.gd (tethered.gk 0 0)).credDn + upCRET 0 ≤ 15 ∧ 15 < (c.gd (c.gk 0 0)).credDn + upCRET (1 <<< 72)
      ∧ c.upCame 0 (c.gk 0 0) = true ∧ tethered.upCame 0 (tethered.gk 0 0) = false
      ∧ (tethered.gd (tethered.gk 0 0)).missTick ≠ some (BitVec.ofInt 64 (tethered.tickEnded 0))
      ∧ tethered.lossStands 0 0 .threeMissing = true ∧ tethered.ringEven 0 = none
      ∧ (e.port 0).ready = 0 :: [] ∧ w.link 0 = lkUP ∧ (w.port 0).ready = [] ∧ w.nextFrame 0 = some 0
      ∧ ((w.port 0).waiting[0]?).isSome = true ∧ w.quietOK 0 (frameBytes ⟨5, 2, 0, 0, 0, []⟩) = true
      ∧ did (.tickUpMissing 0 0) tethered (fun t => (t.gd 0).missRun == 4) = true := by
  unfold goodRx; decide +kernel

theorem wit_TetherFrameRows_frames :
    let d := mkFrame 4 2 0 0 0 (leBytes 8 7)
    let r := mkFrame 0xA 0 0 0 4 (leBytes 2 0 ++ [0, 0] ++ [])
    let b := mkFrame 12 0 0 0 0 ([3, 1, 0, 0] ++ leBytes 4 0 ++ [])
    let n := mkFrame 13 0 0 0 0 [15, 0]
    tethered.link 0 = lkUP ∧ goodRx (good d) d ∧ goodRx (good r) r ∧ goodRx (good b) b ∧ goodRx (good n) n
      ∧ ((tethered.gd (tethered.gk 0 0)).cfg.map (fun r => r.tag)) = [4] ∧ (tethered.gd (tethered.gk 0 0)).grantUp ≠ 0 ∧ tethered.strLink ≠ skUP
      ∧ did (.creditReceive 0 0 15 (good n)) tethered (fun t => (t.gd 0).credDn == 15) = true := by
  unfold goodRx; decide +kernel

theorem wit_RxErrors :
    let n := mkFrame 13 0 0 0 0 [3, 0]
    tethered.link 0 = lkUP ∧ ({ good n with crc := 0 } : RxQual).crc ≠ frameCrc n
      ∧ did (.creditReceive 0 0 3 { good n with crc := 0, full := true }) tethered
        (fun t => t.fget (rTTH_ERR 0 cCRCERR) cntBits == 1 && t.fget (rTTH_ERR 0 cRXDROP) cntBits == 0 && (t.gd 0).credDn == 0) = true := by
  decide +kernel

/-! ### Gondolas -/

/-- An identity block with every port, two channels, four event outputs and a queue of four EVENTs. -/
def block : List Byte :=
  (List.range 64).map (fun i => if i = 11 then 7 else if i = 12 then 2 else if i = 14 ∨ i = 40 then 4 else if i = 16 then 1 else 0)

/-- A gondola at position 0 that counts ticks of 25 µs, with channel 0 in its plan. -/
def gond : Gondola := { ident := block, pos := some 0, regs := [(aG_TPER, 400000), (aG_PLAN, 1)], ripLatch := false }
def gstate (g : Gondola) : State := { runs with gons := [(0, g)] }
def withChan (c : GChan) : State := gstate { gond with chans := [(0, c)] }

/-- A tick frame of the gondola's own, and one of its frames of another kind. -/
def tickOut : OutFrame := ownFrame .up (mkFrame 2 0 0 0 0 [])
def otherOut : OutFrame := ownFrame .up (mkFrame 4 2 0 0 0 (leBytes 8 0))

theorem wit_GondolaTickRows :
    let s := gstate gond
    let v := withChan { rec_ := some 0, nextChange := 1 }
    let late := withChan { rec_ := some 0, nextChange := 1, lastExec := 500 }
    let m := withChan { smpTk := some 0, nsmp := 2 }
    let q := gstate { gond with missRun := 15 }
    let o := gstate { gond with queue := [tickOut], links := [(0, 3)] }
    let crc := frameCrc (mkFrame 1 0 0 0 0 (leBytes 10 0 ++ [0].flatMap (fun r : BitVec 128 => leBytes 16 r.toNat)))
    s.gTicking 0 = true ∧ isHome 0 = false ∧ (0 : BitVec 8) = tickByte (s.gTick 0 (s.gtime 0 0)) ∧ (255 : BitVec 8) ≠ tickByte (s.gTick 0 (s.gtime 0 0))
      ∧ reached (s.gTickStart 0 (s.gTick 0 (s.gtime 0 0)) + BitVec.ofNat 64 (s.gDLN 0)) (s.gtime 0 0) = true
      ∧ reached (s.gTickStart 0 (s.gTick 0 (s.gtime 0 399999)) + BitVec.ofNat 64 (s.gDLN 0)) (s.gtime 0 399999) = false
      ∧ ([0] : List (BitVec 128)).map recCH = s.gDue 0 (s.gTick 0 (s.gtime 0 0)) ∧ s.gDue 0 (s.gTick 0 s.now) ≠ [] ∧ s.gPLAN 0 ≠ 0
      ∧ recKIND 0 = kVECTOR ∧ reached (((v.gon 0).chan 0).recTk + BitVec.ofNat 64 (vecT1 0)) ((v.gon 0).chan 0).lastExec = true
      ∧ reached (v.gtime 0 0) (nearest (v.gquant 0) (((v.gon 0).chan 0).recTk + BitVec.ofNat 64 (vecT1 0))) = true
      ∧ reached (((late.gon 0).chan 0).recTk + BitVec.ofNat 64 (vecT1 0)) ((late.gon 0).chan 0).lastExec = false
      ∧ reached (late.gtime 0 500) ((late.gon 0).chan 0).lastExec = true
      ∧ ((m.gon 0).chan 0).smpTk = some 0 ∧ m.gTicking 0 = true ∧ m.gInPlan 0 0 = true ∧ 0 ≠ homeNode
      ∧ ((m.gon 0).chan 0).s1 ≤ idSMAX (m.gident 0) ∧ ((m.gon 0).chan 0).s2 ≤ idSMAX (m.gident 0)
      ∧ ((m.gon 0).chan 0).s1 + 4 * idTSPC (m.gident 0) ≤ ((m.gon 0).chan 0).s2
      ∧ reached (m.gtime 0 0) (nearest (m.gquant 0) (0 + BitVec.ofNat 64 (4 * ((m.gon 0).chan 0).s1))) = true
      ∧ s.gAllDue (baseNode 0) (s.gTick (baseNode 0) 0) ≠ []
      ∧ s.allAccepted (baseNode 0) (s.gTick (baseNode 0) 0) (s.gTickStart (baseNode 0) (s.gTick (baseNode 0) 0)) = false
      ∧ (s.gon (baseNode 0)).missTk ≠ some (s.gTickStart (baseNode 0) (s.gTick (baseNode 0) 0))
      ∧ q.gSILN 0 ≤ (q.gon (baseNode 0)).missRun ∧ (q.gon (baseNode 0)).sil = false
      ∧ (o.gon 0).queue = [tickOut] ∧ frameIsTick tickOut.frame = true ∧ (o.gon 0).portUp .up = true
      ∧ did (.tickDnDeadline 0 0) s (fun t => (t.gon 0).missRun == 1) = true
      ∧ did (.streamSilence 0 0) q (fun t => (t.gon 0).sil) = true
      ∧ did (.gondolaTickDnReceive 0 0 0 crc 0 255 0 [0]) s (fun t => (t.gon 0).acc0 == none) = true
      ∧ did (.gondolaTickDnReceive 0 0 0 crc 0 0 0 [0]) s (fun t => (t.gon 0).acc0 == some 0) = true := by decide +kernel

/-- A home channel of type 0 has the legs that PGN_HCH gives it, whatever interface its descriptor declares. -/
theorem home_legs (s : State) (c : Nat) (ht : s.wfld (rPGN_HCH c) fPGN_HCH_TYPE = 0) (hn : s.wfld (rPGN_HCH c) fPGN_HCH_NLEG = 1) :
    s.gLegs homeNode c = 1 := by
  unfold State.gLegs State.gdesc descLEGS fieldOf
  rw [if_neg (by decide), if_pos rfl, ht, hn]
  have := (homeIfs c).isLt
  simp only [BitVec.toNat_ofNat, Nat.shiftLeft_eq, Nat.shiftRight_eq_div_pow]
  omega

/-- Leg 0 of the home gondola, the one leg of channel 15, covered by fault input 3, whose latch is set. -/
def faulted : State := sts [(rPGN_HSTAT, fPGN_HSTAT_LATCH, 8)]
  (cfgd [(rPGN_HCH 15, fPGN_HCH_NLEG, 1), (rPGN_FLT_MASK0 3, fPGN_FLT_MASK0_LEGS, 1)] runs)

theorem wit_GondolaConfigRows_legs : 0 < faulted.gLegs homeNode 15 := by
  rw [home_legs faulted 15 (by decide +kernel) (by decide +kernel)]; decide

theorem wit_GondolaConfigRows :
    let s := gstate gond
    let z := gstate { gond with staged := true }
    let g := { faulted with fltIn := 8 }
    s.gTakes 0 false = true ∧ s.gTakes 0 true = true ∧ faulted.gTakes homeNode true = true ∧ s.gclass 0 aG_CTL = 0 ∧ s.gclass 0 0x210 = 0
      ∧ (0x42 : Word).toNat % 4 ≠ 0 ∧ (∀ i < 64 / 4, s.gclass 0 (4 * i) ≠ 1)
      ∧ (z.gon (baseNode 0)).staged = true ∧ (z.gon (baseNode 0)).actDue (z.gtime (baseNode 0) 0) = true ∧ isHome 0 = false ∧ isHome homeNode = true
      ∧ faulted.fltLatch 3 = true ∧ faulted.fltIn.getLsbD 3 = false ∧ g.fltLatch 3 = true ∧ g.fltIn.getLsbD 3 = true ∧ (0x8000 : BitVec 16).getLsbD 15 = true
      ∧ faulted.fltCovers 3 (faulted.homeLeg 15 0) = true ∧ s.hasRip 0 = true ∧ s.ripOff 0 = false := by decide +kernel

theorem wit_GondolaEventRows :
    let s := gstate { gond with events := [⟨5, 0, 1, 0, 0⟩], pulses := [(15, 3)] }
    s.gTakes 0 false = true ∧ (3 : BitVec 8).toNat < idNEVO (s.gident 0) ∧ tdiff (s.gtime 0 5) 5 ≤ 0
      ∧ (s.gon 0).events.length < idEVQ (s.gident 0) ∧ 0 < tdiff (s.gtime 0 6) 5 ∧ (s.gon 0).events = [⟨5, 0, 1, 0, 0⟩]
      ∧ reached (s.gtime 0 5) (nearest (s.gquant 0) 5) = true
      ∧ (∃ x ∈ (s.gon 0).pulses, x.1 = (15 : Fin 16).val ∧ reached (s.gtime 0 3) x.2 = true)
      ∧ did (.eventExecute 0 5) s (fun t => (t.gon 0).outs == 1 && (t.gon 0).events == []) = true := by decide +kernel

theorem wit_GondolaLinkRows :
    let s := gstate { gond with timeSeen := true, lock := true, pos := none, timeIv := 100, regs := [(aG_TPER, 400000)] }
    let r := cfgd [(rTTH_CTL 0, fTTH_CTL_RING, 1)] s
    let p := gstate { gond with regs := gond.regs ++ [(aG_QW_E, 400000)], queue := [otherOut], links := [(0, 3)] }
    let f := gstate { gond with queue := [{ otherOut with own := false }], links := [(0, 3)] }
    (s.gon 0).timeSeen = true ∧ (0 : BitVec 16) = (s.gon 0).stepCnt ∧ (1 : BitVec 16) ≠ (s.gon 0).stepCnt
      ∧ (tdiff (s.gtime 0 0) (0 + BitVec.ofInt 64 (fix16 ((0 : BitVec 64) + (0 + (s.gon 0).segDelay))))).natAbs < 16000
      ∧ 16000 ≤ (tdiff (s.gtime 0 16000) (0 + BitVec.ofInt 64 (fix16 ((0 : BitVec 64) + (0 + (s.gon 0).segDelay))))).natAbs
      ∧ (s.gon 0).timeIv ≠ 0 ∧ (4 * (s.gon 0).timeIv : Nat) ≤ tdiff (s.gtime 0 400) (s.gon 0).locRef
      ∧ tdiff (s.gtime 0 399) (s.gon 0).locRef < (4 * (s.gon 0).timeIv : Nat)
      ∧ s.onRing 0 = false ∧ r.onRing 0 = true ∧ (s.gon 0).pos = none ∧ (s.gon 0).portUp .branch = false
      ∧ (s.gon 0).portUp .thru = false ∧ (63 : BitVec 8).toNat < 64 ∧ 64 ≤ (64 : BitVec 8).toNat
      ∧ (gstate gond).gTakes 0 false = true ∧ (gstate gond).gPLAN 0 ≠ 0
      ∧ (gstate { gond with regs := [] }).gTakes 0 false = true ∧ (gstate { gond with regs := [] }).gPLAN 0 = 0
      ∧ (∀ x ∈ [otherOut], frameIsTick x.frame = false) ∧ (p.gon 0).portUp otherOut.port = true ∧ otherOut.own = true
      ∧ p.gQuiet 0 (otherOut.frame.body.length + 14) (p.gtime 0 100000) = true ∧ (f.gon 0).queue = [{ otherOut with own := false }]
      ∧ otherOut.frame.typ ≠ 3
      ∧ did (.gondolaEnumReceive 0 .up 63 false false false 1 0) s (fun t => (t.gon 0).pos == some 63) = true
      ∧ did (.gondolaEnumReceive 0 .up 64 false false false 1 0) s (fun t => (t.gon 0).pos == none) = true := by decide +kernel

theorem wit_GondolaInputRows :
    let a := gstate { gond with ripIn := true }
    let b := gstate gond
    a.hasRip 0 = true ∧ (a.gon 0).ripIn = true ∧ b.hasRip 0 = true ∧ (b.gon 0).ripIn = false ∧ (b.gon 0).ripLatch = false
      ∧ 6400000 < tdiff (b.gtime 0 6400001) (b.gon 0).ripOffAt ∧ 160000000 ≤ tdiff (a.gtime 0 160000000) (a.gon 0).ripSince
      ∧ b.fbKind 0 0 ≠ 3 ∧ quadPhase 1 = (quadPhase ((b.gon 0).chan 0).levels + 1) % 4
      ∧ quadPhase ((b.gon 0).chan 0).levels = (quadPhase 2 + 1) % 4 ∧ quadPhase ((b.gon 0).chan 0).levels = (quadPhase 3 + 2) % 4
      ∧ ((b.gon 0).chan 0).idx = none ∧ (((withChan { idx := some 1 }).gon 0).chan 0).idx ≠ none
      ∧ did (.powerStageDisable 0 6400001) b (fun t => (t.gon 0).ripLatch) = true
      ∧ did (.quadratureTransition 0 0 2 0) b (fun t => ((t.gon 0).chan 0).cnt == 0xFFFFFFFF) = true := by decide +kernel

/-- Channel 0 of the home gondola with a Hall source: it carries axis 0. -/
def hall : State := cfgd [(rAXC_CFG 0, fAXC_CFG_INPLAN, 1), (rAXC_CFG 0, fAXC_CFG_TYPE, 0), (rAXC_CFG 0, fAXC_CFG_TETHER, 24),
  (rFBK_CFG 0, fFBK_CFG_SRC, 3)] { runs with gons := [(homeNode, { chans := [(0, { levels := 1 })] })] }

theorem wit_GondolaInputRows_hall :
    hall.fbKind homeNode 0 = 3 ∧ hallSector ((hall.gon homeNode).chan 0).levels = some 0 ∧ hallSector 3 = some ((0 + 1) % 6)
      ∧ hallSector 5 = some 5 ∧ some 0 = some ((5 + 1) % 6) ∧ ((hall.gon homeNode).chan 0).levels ≠ 0 ∧ hallSector 0 = none := by decide +kernel

theorem wit_CarrierRows :
    let p : BitVec 128 := 1 <<< 4
    let s := withChan { startPend := true, shadow := some p }
    let k : Carrier := { pair := p, start := 0, period16 := 160, edges := [(some 5, some 9)] }
    let u : Carrier := { k with pair := (1 <<< 4) ||| (1 <<< 8) ||| (1 <<< 10) }
    let c := withChan { carrier := some k }
    ((s.gon 0).chan 0).startPend = true ∧ ((s.gon 0).chan 0).shadow = some p ∧ s.gTicking 0 = true
      ∧ reached (s.dueStart 0 0 (s.gtime 0 400000)) (((s.gon 0).chan 0).shadowAt + 1) = true
      ∧ (k.edge 0).1 = some 5 ∧ (k.edge 0).2 = some 9 ∧ reached (c.gtime 0 9) 9 = true ∧ c.legOver 0 0 0 = none
      ∧ ((c.gon 0).chan 0).shadow = none ∧ pairMid u.pair = true ∧ u.midDone = false ∧ come (c.gtime 0 5) (u.base16 + u.period16 / 2) = true
      ∧ pairMid k.pair = false ∧ come (c.gtime 0 10) k.end16 = true
      ∧ did (.carrierEdge 0 0 0 false 5) c (fun t => (((t.gon 0).chan 0).leg 0).last == 2) = true
      ∧ did (.carrierReload 0 0 10) c (fun t => (((t.gon 0).chan 0).carrier.map (fun x => x.j)) == some 1) = true := by decide +kernel

/-! ### Axes -/

/-- Axis 0 on tether 0 in a given state, its gondola present, locked and powered, in a tick whose boundary it has not passed. -/
def axisIn (x : Nat) (a : Axis := {}) : State :=
  { sts [(rAXC_STATE 0, fAXC_STATE_STATE, x)] tethered with gdev := [(0, { lock := true, ripin := true })], axes := tset {} [] 0 a }

theorem wit_AxisRequestRows : planned.p8Denied .p0 (rAXC_CMD 255) = false ∧ (Instr.fclr .p0 255, Req.fclr) ∈ [(Instr.fclr .p0 255, Req.fclr)]
    ∧ did (.fclr .p0 255) planned (fun t => (t.ax 255).causes == [.req .fclr none]) = true := by decide +kernel

theorem wit_AxisBoundaryRows :
    let a := axisIn xOFF { causes := [.req .arm none] }
    let b := cfgd [(rAXC_CFG 0, fAXC_CFG_INPLAN, 0)] a
    let c := axisIn xARMED { causes := [.req .disable none] }
    let p := cfgd [(rAXC_CFG 0, fAXC_CFG_INPLAN, 0)] (axisIn xARMED { causes := [.done 7] })
    let d := { axisIn xREADY with gdev := [] }
    let e := axisIn xOFF { setPos := some 65536 }
    let f := axisIn xOFF { bAt := some (a.axTickStart 0) }
    (a.ax 0).bAt ≠ some (a.axTickStart 0) ∧ a.time.halted = false ∧ (a.ax 0).setPos = none ∧ (a.ax 0).idxShift = none ∧ a.axState 0 = xOFF
      ∧ (a.ax 0).causes = [.req .arm none] ∧ a.inPlan 0 = true ∧ a.axPresent 0 = true ∧ a.axLock 0 = true
      ∧ b.axState 0 = xOFF ∧ (b.ax 0).causes = [.req .arm none] ∧ b.inPlan 0 = false
      ∧ c.axState 0 = xARMED ∧ (c.ax 0).causes = [.req .disable none] ∧ c.levels 0 = []
      ∧ p.axState 0 = xARMED ∧ (p.ax 0).causes = [.done 7] ∧ p.levels 0 = [] ∧ p.inPlan 0 = false
      ∧ d.axType 0 ≠ tyVX ∧ d.axState 0 = xREADY ∧ (d.ax 0).causes = [] ∧ d.powered 0 = false ∧ fcRIPLOSS ∉ (d.ax 0).lev
      ∧ d.fget (rAXC_STATE 0) fAXC_STATE_FCAUSE = 0
      ∧ (e.ax 0).setPos ≠ none ∧ (e.ax 0).causes = [] ∧ e.axState 0 = xOFF
      ∧ (f.ax 0).bAt = some (f.axTickStart 0) := by decide +kernel

theorem test_boundary_arm : did (.axisTickBoundary 0) (axisIn xOFF { causes := [.req .arm none] }) (fun t => t.axState 0 == xARMED) = true := by
  decide +kernel

theorem test_boundary_riploss : did (.axisTickBoundary 0) { axisIn xREADY with gdev := [] } (fun t =>
    t.axState 0 == xFAULT && t.fget (rAXC_STATE 0) fAXC_STATE_FCAUSE == fcRIPLOSS) = true := by decide +kernel

theorem wit_AxisEventRows :
    let r := axisIn xRUN { lossRun := 15, ssiRun := 255, hist := [(0, 0, 0)], ts := 160000000000 }
    let k := sts [(rTQ_LIVE 0, fTQ_LIVE_SKIPRUN, 15)] r
    let late (s : State) : State := { s with time := { s.time with ft := 160000000000 } }
    let sh := late (cfgd [(rTQ_CFG 0, fTQ_CFG_ANGSRC, 2)] { sts [(rTQ_LIVE 0, fTQ_LIVE_LSTAGE, 1)] (axisIn xRUN) with
      gdev := [(0, { descs := [(0, BitVec.ofNat 128 (3 <<< 16))] })] })
    let cr := late (sts [(rTQ_LIVE 0, fTQ_LIVE_LSTAGE, 2)] (axisIn xCATCH))
    let c3 := sts [(rTQ_LIVE 0, fTQ_LIVE_CATT, 3)] (axisIn xCATCH)
    let te := late (axisIn xTEST)
    let st := late (cfgd [(rAXC_CFG 0, fAXC_CFG_TYPE, 1)] (axisIn xALIGN))
    r.axType 0 = tyTQ ∧ lawState (r.axState 0) = true ∧ r.reacting 0 = false ∧ max 1 (r.wfld (rTQ_CFG 0) fTQ_CFG_LOSSN) ≤ (r.ax 0).lossRun
      ∧ max 1 (k.wfld (rTQ_CFG 0) fTQ_CFG_SKIPMAX) ≤ k.fget (rTQ_LIVE 0) fTQ_LIVE_SKIPRUN ∧ .fault fcSKIPMAX false ∉ (k.ax 0).causes
      ∧ sh.lstage 0 = lsSHORT ∧ sh.singleShunt 0 = true ∧ sh.angSrc 0 = 2
      ∧ reached sh.now (afterMs (sh.ax 0).stageAt (max 1 (sh.wfld (rTQ_CATCH2 0) fTQ_CATCH2_ASCT))) = true
      ∧ cr.axState 0 = xCATCH ∧ cr.lstage 0 = lsOFF ∧ cr.fget (rTQ_LIVE 0) fTQ_LIVE_CATT < 3
      ∧ reached cr.now (afterMs (cr.ax 0).stageAt (max 1 (cr.wfld (rTQ_CATCH2 0) fTQ_CATCH2_CWAIT))) = true
      ∧ c3.axState 0 = xCATCH ∧ c3.fget (rTQ_LIVE 0) fTQ_LIVE_CATT = 3 ∧ .fault fcOBSLOSS false ∉ (c3.ax 0).causes
      ∧ te.axState 0 = xTEST ∧ reached te.now (afterMs (te.ax 0).stageAt (max 1 (te.wfld (rTQ_TST 0) fTQ_TST_TT))) = true
      ∧ st.axType 0 = tyST ∧ st.axState 0 = xALIGN ∧ st.fbOwn 0 = true
      ∧ reached st.now (afterMs (st.ax 0).stageAt (st.wfld (rST_ALIGN 0) fST_ALIGN_SARAMP + st.wfld (rST_ALIGN 0) fST_ALIGN_SAHOLD)) = true
      ∧ (r.ax 0).moved = false ∧ ((r.wfld (rFBK_SPD 0) fFBK_SPD_STILL * 16000000 : Nat) : Int) ≤ tdiff (r.ax 0).ts 0
      ∧ max 1 (r.wfld (rFBK_SSI 0) fFBK_SSI_ERRN) ≤ (r.ax 0).ssiRun
      ∧ did (.observerLoss 0) r (fun t => t.reacting 0) = true
      ∧ did (.testEnd 0) te (fun t => (t.ax 0).causes == [.done 3]) = true := by decide +kernel

/-- Axis 0 at the end of a hold of ALIGN, with a source of the rotor angle, in a given step. -/
def aligned (src step : Nat) (x stepX holdX : BitVec 64) : State :=
  cfgd [(rTQ_CFG 0, fTQ_CFG_ANGSRC, src), (rFBK_CFG 0, fFBK_CFG_SRC, 1)]
    (at_ 160000000000 (axisIn xALIGN { x := x, alignStep := step, mot := { holdX := some holdX, stepX := stepX } }))

theorem wit_AxisEventRows_align :
    let z := aligned 0 0 0 0 0
    let m := aligned 0 1 0 0 0
    let n := aligned 0 1 1000 0 1000
    let a := aligned 2 0 0 0 0
    let w := aligned 2 0 1000000 0 0
    z.axState 0 = xALIGN ∧ (z.ax 0).mot.holdX = some 0 ∧ .done 1 ∉ (z.ax 0).causes ∧ reached z.now (afterMs (z.ax 0).stageAt (z.alignMs 0)) = true
      ∧ z.holdStood 0 0 = true ∧ z.angSrc 0 = 0 ∧ (z.ax 0).alignStep = 0
      ∧ m.holdStood 0 0 = true ∧ m.angSrc 0 = 0 ∧ (m.ax 0).alignStep ≠ 0 ∧ m.stepMoved 0 ((m.ax 0).x - (m.ax 0).mot.stepX).toInt = false
      ∧ n.holdStood 0 1000 = true ∧ n.angSrc 0 = 0 ∧ (n.ax 0).alignStep ≠ 0 ∧ n.stepMoved 0 ((n.ax 0).x - (n.ax 0).mot.stepX).toInt = true
      ∧ a.holdStood 0 0 = true ∧ a.angSrc 0 ≠ 0 ∧ w.holdStood 0 0 = false := by decide +kernel

theorem wit_ProfileEventRows :
    let m := axisIn xRUN { gen := { src := .move, arrived := false } }
    let v := axisIn xRUN { gen := { src := .velocity, arrived := false } }
    let a : Bridle := { mkind := 1, master := 1, mpos := 5 }
    let b := { axisIn xRUN { gen := { brArm := some a } } with axes := [(0, { gen := { brArm := some a } }), (1, { gen := { endP := some 5 } })] }
    let z := axisIn xRUN { gen := { brArm := some a } }
    let c := axisIn xRUN { gen := { br := { cam := some 0, camNext := some 63, camK := 1 } } }
    let r : State := { runs with rm := [(15, { valid := true })], time := { runs.time with ft := 16000000001 } }
    let h := { cfgd [(rAXC_CFG 0, fAXC_CFG_TYPE, 1)] (axisIn xRUN) with time := { locked := true, ft := 0x100000000000 } }
    (m.ax 0).gen.src = .move ∧ (m.ax 0).gen.arrived = false ∧ reached m.now (m.ax 0).gen.tArr = true
      ∧ (v.ax 0).gen.src = .velocity ∧ (v.ax 0).gen.arrived = false ∧ reached v.now (v.ax 0).gen.tArr = true
      ∧ (b.ax 0).gen.brArm = some a ∧ (z.ax 0).gen.brArm = some a
      ∧ crossed a.mlast.toInt (masterStep a.mlast.toInt (b.masterAt a (b.axTickStart 0)).1 (b.masterAt a (b.axTickStart 0)).2.2) a.mpos.toInt a.dir
          (b.masterAt a (b.axTickStart 0)).2.2 = true
      ∧ crossed a.mlast.toInt (masterStep a.mlast.toInt (z.masterAt a (z.axTickStart 0)).1 (z.masterAt a (z.axTickStart 0)).2.2) a.mpos.toInt a.dir
          (z.masterAt a (z.axTickStart 0)).2.2 = false
      ∧ (c.ax 0).gen.br.cam = some 0 ∧ (c.ax 0).gen.br.camNext = some 63
      ∧ (c.brAdvance (c.ax 0).gen.br (c.axTickStart 0)).1.camU / max 1 (c.camLen 0) ≠ (c.ax 0).gen.br.camK
      ∧ (r.rmSlot 15).valid = true ∧ r.flag (rLPE_RM_STAT 15) fLPE_RM_STAT_STALE = false ∧ (r.rmAge 15 : Int) < tdiff r.now (r.rmSlot 15).t
      ∧ h.axType 0 = tyST ∧ h.flag (rPRF_STAT 0) fPRF_STAT_HOLDI = false ∧ (h.spAt 0 h.now).2 = (0, 0) ∧ (h.ax 0).gen.vset = 0
      ∧ (h.ax 0).gen.aset = 0
      ∧ ((max 1 (h.wfld (rST_I 0) fST_I_HDELAY) * 16000000 : Nat) : Int) ≤ tdiff h.now (h.ax 0).gen.restAt
      ∧ did (.gearEngage 0) b (fun t => (t.ax 0).gen.br.engaged) = true
      ∧ did (.gearEngage 0) z (fun t => !(t.ax 0).gen.br.engaged) = true
      ∧ did (.remoteMasterStale 15) r (fun t => t.flag (rLPE_RM_STAT 15) fLPE_RM_STAT_STALE) = true := by decide +kernel

/-! ### Home gondola, bus energy, direct commands and masters -/

theorem wit_HomeAndBusRows :
    let f := cfgd [(rBUS_G_V0 31, fBUS_G_V0_VBALON, 100)] (sts [(rBUS_G_STAT 31, fBUS_G_STAT_BALFLT, 1)] runs)
    let hi := sts [(rBUS_G_LIVE 31, fBUS_G_LIVE_VBUS, 100)] f
    let n := { cfgd [(rBUS_G_CFG 0, fBUS_G_CFG_EN, 1), (rBUS_G_CFG 0, fBUS_G_CFG_BALCH, 0)] runs with bus := [(0, { nocur := 255 })] }
    runs.p8Denied .p0 rPGN_FLT_CMD = false ∧ (0b1000 : BitVec 4).getLsbD 3 = true ∧ (0b0111 : BitVec 4).getLsbD 3 = false
      ∧ runs.p8Denied .p0 (rPGN_TCTL 255) = false ∧ (axisIn xTEST).axState 0 = xTEST ∧ (axisIn xARMED).axState 0 ≠ xTEST
      ∧ runs.p8Denied .p0 (rBUS_G_CMD 31) = false
      ∧ f.balFlt 31 = true ∧ f.fget (rBUS_G_STAT 31) fBUS_G_STAT_BFCAUSE ≠ 3 ∧ f.fget (rBUS_G_LIVE 31) fBUS_G_LIVE_VBUS < f.vOn 31
      ∧ hi.balFlt 31 = true ∧ hi.vOn 31 ≤ hi.fget (rBUS_G_LIVE 31) fBUS_G_LIVE_VBUS
      ∧ n.busOn 0 = true ∧ n.balCauseNow 0 = some 1 ∧ n.balFlt 0 = false ∧ n.senseLost 0 = false
      ∧ did (.busFclr .p0 31) f (fun t => !t.balFlt 31) = true ∧ did (.busFclr .p0 31) hi (fun t => t.balFlt 31) = true
      ∧ did (.ballastFault 0) n (fun t => t.balFlt 0) = true := by decide +kernel

/-- A table whose entry 0 starts direct command 63 of action `a` and kind `k`, with rights or without, complete or still being built. -/
def canCmd (a k perm : Nat) (build : Nat := 0) : State :=
  cfgd [(rPLAN_CF_LO 0, fPLAN_CF_LO_EN, 1), (rPLAN_CF_HI 0, fPLAN_CF_HI_DCMD, 1), (rPLAN_CF_HI 0, fPLAN_CF_HI_DCIDX, 63),
    (rPLAN_CF_HI 0, fPLAN_CF_HI_CTRL, 15), (rPLAN_DC_A 63, fPLAN_DC_A_ACTION, a), (rPLAN_DC_A 63, fPLAN_DC_A_KIND, k),
    (rPLAN_P_AX 5 0, fPLAN_P_AX_PERM 0, perm), (rPLAN_P_FOUT 5, fPLAN_P_FOUT_FOUT, if perm = 0 then 0 else 0xFFFF)]
    (sts [(rPLAN_CAN_STAT, fPLAN_CAN_STAT_BUILD, build)] runs)

theorem wit_DirectCommandRows :
    let data : List Byte := [1, 0, 0, 0]
    let stop := canCmd 1 1 63
    let bare := canCmd 1 1 0
    (canCmd 1 1 63 1).flag rPLAN_CAN_STAT fPLAN_CAN_STAT_BUILD = true ∧ stop.flag rPLAN_CAN_STAT fPLAN_CAN_STAT_BUILD = false
      ∧ stop.canLookup 3 0 false = some 0 ∧ stop.wflag (rPLAN_CF_HI 0) fPLAN_CF_HI_DCMD = true ∧ stop.wfld (rPLAN_CF_HI 0) fPLAN_CF_HI_DCIDX = 63
      ∧ stop.dcReads 63 ≤ data.length ∧ stop.dcAdmits 63 data = true ∧ stop.dcA 63 fPLAN_DC_A_ACTION = dcSTOP
      ∧ stop.dcA 63 fPLAN_DC_A_KIND = 1 ∧ stop.permAll (2 + 3) pmSTOP (stop.dcScope (2 + 3) 63) = true
      ∧ (canCmd 1 3 63).dcA 63 fPLAN_DC_A_KIND ≠ 1 ∧ (canCmd 1 3 63).dcA 63 fPLAN_DC_A_KIND ≠ 2
      ∧ bare.dcA 63 fPLAN_DC_A_ACTION ≠ dcREQ ∧ bare.permAll (2 + 3) pmSTOP (bare.dcScope (2 + 3) 63) = false
      ∧ did (.dcmdStop 3 63 0 false data) stop (fun t => (t.ax 0).causes == [.stop 1 none]) = true
      ∧ did (.dcmdStop 3 63 0 false data) bare (fun t => (t.ax 0).causes == []) = true := by decide +kernel

theorem wit_DirectCommandRows_others :
    let data : List Byte := [1, 0, 0, 0]
    let req := canCmd 2 31 63
    let sect := canCmd 3 0 63
    let fout := canCmd 4 0 63
    req.canLookup 3 0 false = some 0 ∧ req.dcReads 63 ≤ data.length ∧ req.dcAdmits 63 data = true ∧ req.dcA 63 fPLAN_DC_A_ACTION = dcREQ
      ∧ req.reqsOK (2 + 3) (req.dcB 63 fPLAN_DC_B_TGT) (req.dcA 63 fPLAN_DC_A_KIND) = true
      ∧ (canCmd 2 31 0).reqsOK (2 + 3) ((canCmd 2 31 0).dcB 63 fPLAN_DC_B_TGT) ((canCmd 2 31 0).dcA 63 fPLAN_DC_A_KIND) = false
      ∧ sect.dcReads 63 ≤ data.length ∧ sect.dcAdmits 63 data = true ∧ sect.dcA 63 fPLAN_DC_A_ACTION = dcSECT
      ∧ (∀ i < 16, ∀ g ∈ sect.dcGroups 63 i, sect.permAll (2 + 3) pmCMP (sect.rowGroup g) = true)
      ∧ fout.dcReads 63 ≤ data.length ∧ fout.dcAdmits 63 data = true ∧ fout.dcA 63 fPLAN_DC_A_ACTION = dcFOUT
      ∧ (∀ i < 16, fout.dcState 63 data i < 2 → fout.foutOK (2 + 3) i = true) ∧ (canCmd 4 0 0).dcState 63 data 0 < 2
      ∧ (canCmd 4 0 0).foutOK (2 + 3) 0 = false
      ∧ did (.dcmdFout 3 63 0 false data) fout (fun t => t.foutCmd 0 && !t.foutCmd 15) = true := by decide +kernel

/-- Row group 0 with an axis on which the port does not hold the right. -/
theorem wit_DirectCommandRows_denied :
    let s := cfgd [(rAXC_GRP 0, fAXC_GRP_RGEN, 1)] (canCmd 3 0 0)
    s.dcA 63 fPLAN_DC_A_ACTION = dcSECT ∧ 0 ∈ s.dcGroups 63 0 ∧ s.permAll (2 + 3) pmCMP (s.rowGroup 0) = false := by decide +kernel

theorem wit_MasterRows :
    let s := cfgd [(rPLAN_P_RM 7, fPLAN_P_RM_RM, 0x8000)] (sts [(rLPE_RM_CFG 15, fLPE_RM_CFG_EN, 1), (rLPE_RM_ID 15, ⟨0, 32⟩, 9)] runs)
    let d := cfgd [(rPLAN_P_RM 7, fPLAN_P_RM_RM, 0)] s
    let p := sts [(rLPE_PUB_CFG 15, fLPE_PUB_CFG_EN, 1)] runs
    let v := { s with rm := [(15, { valid := true, t := 5 })] }
    (∀ k : Fin 16, s.flag (rLPE_RM_CFG k) fLPE_RM_CFG_EN = true ∧ s.rget (rLPE_RM_ID k) = 9 ↔ k = 15) ∧ s.rmOK (6 + 1) 15 = true
      ∧ (∀ k : Fin 16, d.flag (rLPE_RM_CFG k) fLPE_RM_CFG_EN = true ∧ d.rget (rLPE_RM_ID k) = 9 ↔ k = 15) ∧ d.rmOK (6 + 1) 15 = false
      ∧ (s.rmSlot 15).valid = false ∧ (v.rmSlot 15).valid = true ∧ 0 < tdiff 6 (v.rmSlot 15).t ∧ tdiff 5 (v.rmSlot 15).t ≤ 0
      ∧ p.flag (rLPE_PUB_CFG 15) fLPE_PUB_CFG_EN = true
      ∧ divides (p.fget (rLPE_PUB_CFG 15) fLPE_PUB_CFG_DIV + 1) (p.axTick (p.fget (rLPE_PUB_CFG 15) fLPE_PUB_CFG_AXIS)) = true
      ∧ p.txq_ (p.fget (rLPE_PUB_CFG 15) fLPE_PUB_CFG_PORT) = []
      ∧ did (.masterMessage 1 9 6 7 8) v (fun t => (t.rmSlot 15).t == 6) = true
      ∧ did (.masterMessage 1 9 5 7 8) v (fun t => (t.rmSlot 15).p == 0) = true := by decide +kernel

/-! ### Field inputs and outputs, compare and latch -/

theorem wit_FieldInputRows :
    let r := { runs with fins := [(31, { raw := true, run := some 0 })], time := { locked := true, ft := 160000000000 } }
    let e := { r with time := runs.time }
    let w := sts [(rFIO_STAT, fFIO_STAT_FIELDUP, 1)] { runs with fins := [(30, { raw := true, filt := true })] }
    let c := sts [(rFIO_INCPL, ⟨31, 1⟩, 1)] w
    w.finHeard = true ∧ w.finCpl 31 = false ∧ (w.fin_ 31).run = none ∧ (w.fin_ 31).raw ≠ true ∧ (w.fin_ 31).filt ≠ true
      ∧ (w.fin_ 31).raw = false ∧ w.coreClock = true ∧ w.finCpl 30 = false ∧ (w.fin_ 30).filt = true
      ∧ r.coreClock = true ∧ (r.fin_ 31).run = some 0 ∧ reached r.now (0 + r.finDeb 31) = true ∧ (e.fin_ 31).run = some 0
      ∧ reached e.now (0 + e.finDeb 31) = false ∧ c.finHeard = true ∧ c.finCpl 31 = true
      ∧ did (.finEdgeAccept 31) r (fun t => (t.fin_ 31).filt && t.flag rFIO_IN ⟨31, 1⟩) = true
      ∧ did (.finEdgeAccept 31) e (fun t => !(t.fin_ 31).filt) = true := by decide +kernel

theorem wit_FieldOutputRows :
    let u := sts [(rFIO_STAT, fFIO_STAT_FIELDUP, 1)] { runs with fouts := [(0, { pulse := some 0 }), (1, { sil := false }), (15, { tsd := true, sil := false })] }
    let w := cfgd [(rFIO_FOUT_CFG 15, fFIO_FOUT_CFG_TSDM, 0), (rFIO_FOUT_CFG 2, fFIO_FOUT_CFG_OLDEN, 1)] u
    let y := { cfgd [(rFIO_FOUT_CFG 15, fFIO_FOUT_CFG_TSDM, 1)] u with time := { ft := 160000000 }, fouts := [(3, { on_ := true }), (15, { tsd := true })] }
    u.p8Denied .p0 rFIO_FOUT = false ∧ u.p8Denied .p0 rFIO_CMD = false ∧ u.fieldUp = true ∧ (u.fout 0).sil = true ∧ (u.fout 0).words = false
      ∧ (w.fout 15).tsd = true ∧ w.wflag (rFIO_FOUT_CFG 15) fFIO_FOUT_CFG_TSDM = false ∧ u.coreClock = true ∧ (u.fout 0).pulse = some 0
      ∧ reached u.now 0 = true ∧ u.shellRuns = true ∧ (u.fout 1).sil = false ∧ (u.fout 1).tsd = false
      ∧ (y.fout 15).tsd = true ∧ y.wflag (rFIO_FOUT_CFG 15) fFIO_FOUT_CFG_TSDM = true
      ∧ reached y.now ((y.fout 15).shutAt + BitVec.ofNat 64 160000000) = true ∧ w.fieldUp = true ∧ (w.fout 2).on_ = false
      ∧ w.wflag (rFIO_FOUT_CFG 2) fFIO_FOUT_CFG_OLDEN = true ∧ w.flag (rFIO_FOUT_STAT 2) fFIO_FOUT_STAT_OPENL = false ∧ (y.fout 3).on_ = true
      ∧ (sts [(rFIO_STAT, fFIO_STAT_FIELDUP, 0)] u).fieldUp = false
      ∧ did (.foutWrite .p0 0x80008000) u (fun t => t.foutCmd 15 && !t.foutCmd 14) = true
      ∧ did (.thermalShutdown 1) u (fun t => (t.fout 1).tsd) = true
      ∧ did (.tclr .p0 0x8000 0) w (fun t => !(t.fout 15).tsd) = true := by decide +kernel

theorem wit_CompareRows :
    let put (e : CmpEnt) (ft : FTime) : State :=
      { axisIn xRUN { evalPos := some (5, 0) } with cmp := [(16383, e)], time := { locked := true, ft := ft } }
    let a := put { raw := 1 <<< 184, st := .armed } 10
    let w := put { raw := (2 <<< 184) ||| (10 <<< 64), st := .armed } 10
    let x := put { raw := (2 <<< 184) ||| (1 <<< 160), st := .armed } (100 * 16000)
    let f := put { raw := (1 <<< 184) ||| (2 <<< 192) ||| (1 <<< 194), st := .fired } 10
    (a.ce 16383).st = .armed ∧ (a.ce 16383).susp = false ∧ a.time.halted = false ∧ (a.ce 16383).trig = trTIME
      ∧ reached a.now ((a.ce 16383).key - BitVec.ofNat 64 (a.cmpLead (a.ce 16383) + a.cycles16)) = true
      ∧ (w.ce 16383).trig = trWIN ∧ (w.ce 16383).predicts = false ∧ w.evalPoint (w.ce 16383).axis (w.ce 16383).psrc = some (5, 0)
      ∧ reached w.now (w.ce 16383).topen = true ∧ reached 5 (w.ce 16383).topen = false
      ∧ w.winDist (w.ce 16383) ((0 : Val).toInt
          + w.predPath (w.ce 16383).axis (w.ce 16383).psrc 5 (0 : Val).toInt (tdiff (w.ce 16383).topen 5).toNat) = 0
      ∧ (x.ce 16383).st = .armed ∧ (x.ce 16383).trig = trWIN ∧ (x.ce 16383).tdur ≠ 0
      ∧ reached x.now ((x.ce 16383).topen + BitVec.ofNat 64 ((x.ce 16383).tdur * 100 * usUnits)) = true
      ∧ (f.ce 16383).st = .fired ∧ reached f.now (f.ce 16383).tf = true ∧ (f.ce 16383).evHeld = false ∧ (f.ce 16383).rearm = false
      ∧ (f.ce 16383).act = acFOUT ∧ (f.ce 16383).done = false
      ∧ f.p8Denied .p0 (rCMP_RG 63) = false ∧ bget (8 : Word) fCMP_RG_RESUME = 1
      ∧ did (.compareFire 16383) a (fun t => (t.ce 16383).st == .fired) = true
      ∧ did (.compareAction 16383) f (fun t => t.foutCmd 0 && (t.ce 16383).st == .free) = true
      ∧ did (.winExpire 16383) x (fun t => (t.ce 16383).st == .free) = true := by decide +kernel

theorem wit_LatchRows :
    let h := sts [(rLAT_CFG 255 1, fLAT_CFG_LSRC, 2), (rLAT_STAT 255, latArmed 1, 1)] runs
    let r := { runs with axes := [(255, { recent := [(5, 0, 0)] })] }
    let l := { runs with axes := [(255, { lat := [⟨0, 0, 2, 1, true, 0, 0, true⟩] })] }
    h.latHit 255 1 2 true = true ∧ (r.ax 255).recent ≠ [] ∧ (∀ w ∈ (runs.ax 255).latWait, runs.capturePos 255 w.t = none)
      ∧ (l.ax 255).lat = [⟨0, 0, 2, 1, true, 0, 0, true⟩] ∧ l.cqTakes (l.fget (rLAT_CFG 255 1) fLAT_CFG_CQ) = true
      ∧ l.p8Denied .p0 (rLAT_CTL 255) = false ∧ (2 : Word).getLsbD 1 = true ∧ (2 : Word).getLsbD (2 + 1) = false ∧ (8 : Word).getLsbD (2 + 1) = true
      ∧ did (.latchCapture 255 1 2 true) h (fun t => (t.ax 255).capCnt1 == 1 && !t.flag (rLAT_STAT 255) (latArmed 1)) = true
      ∧ did (.latCtlFlush .p0 255 16) l (fun t => (t.ax 255).lat == []) = true := by decide +kernel

/-! ### The anchor -/

/-- The anchor in RUN with loop 24 closed, both channels of pair 0 closed, roles assigned. -/
def anchored (l : Loop := { hi := true, lo := true, phase := 2, latched := 0 }) : Anchor :=
  { st := 2, loops := [(24, l)], ch := 3, pair := 1, holdopen := 0, assigned := true, actval := true }
def anch (a : Anchor) : State := { runs with anchor := a }

theorem wit_safe : (anch (anchored)).ripsSafe ∧ ((anch anchored).anchor.loop 24).energised = true := by
  simp only [State.ripsSafe, Anchor.loopsSafe, Anchor.maySwitch]; decide +kernel

theorem wit_AnchorResetRows :
    let s := anch anchored
    runs.ancHeld = false ∧ runs.anchor.st = 0 ∧ s.ancHeld = false ∧ s.anchor.st ≠ 3 ∧ s.anchor.up = true ∧ s.anchor.strapErr = false
      ∧ (1 : BitVec 8) ≠ s.anchor.strapLatched ∧ (0 : BitVec 8) ≠ ~~~(0 : BitVec 8) ∧ (1 ≤ (1 : BitVec 3).toNat ∧ (4 : BitVec 3).toNat ≤ 4)
      ∧ did .anchorReset s (fun t => t.ancHeld && t.anchor.st == 0) = true
      ∧ did (.anchorInternalFault 4) s (fun t => t.anchor.st == 3 && !(t.anchor.loop 24).energised) = true := by decide +kernel

theorem wit_GuardRows :
    let d := anch { anchored with ch := 1 }
    d.ancHeld = false ∧ d.anchor.ch.getLsbD 3 ≠ true ∧ 0 ∈ d.anchor.pairs ∧ d.anchor.disc.getLsbD 0 = false
      ∧ d.anchor.ch.getLsbD (2 * 0) ≠ d.anchor.ch.getLsbD (2 * 0 + 1)
      ∧ did (.guardDiscrepancy 0) d (fun t => t.anchor.disc == 1 && t.anchor.discCnt == 1) = true := by decide +kernel

theorem wit_GuardRows_stop1 :
    (anch { anchored with stop1run := true }).ancHeld = false ∧ (anch { anchored with stop1run := true }).anchor.stop1run = true
      ∧ (anch { anchored with stop1run := true }).ripsSafe := by
  simp only [State.ripsSafe, Anchor.loopsSafe, Anchor.maySwitch]; decide +kernel

theorem wit_LoopRows :
    let h := anch (anchored { lo := true, hi := true, phase := 1, latched := 0 })
    let d := anch (anchored { dis := true })
    h.ancHeld = false ∧ (h.anchor.loop 24).phase = 1 ∧ (h.anchor.loop 24).hi = true ∧ (h.anchor.loop 24).phase ≠ 0
      ∧ (h.anchor.loop 24).phase ≠ 5 ∧ d.ancHeld = false ∧ (d.anchor.loop 24).dis = true ∧ (d.anchor.loop 24).testing = 0
      ∧ (d.anchor.loop 24).phase = 0 ∧ (h.anchor.loop 24).dis = false
      ∧ did (.loopClosed 24) h (fun t => (t.anchor.loop 24).phase == 2) = true
      ∧ did (.loopClosed 24) d (fun t => (t.anchor.loop 24).phase == 0) = true
      ∧ did (.loopOverload 24) h (fun t => (t.anchor.loop 24).ovl && !(t.anchor.loop 24).energised) = true := by decide +kernel

theorem wit_TestPulseRows :
    let c := anch { anchored with strapLatched := 0x20 }
    let p := anch (anchored { lo := true, phase := 3, latched := 0, testing := 1 })
    let o := anch (anchored { hi := true, lo := true, phase := 3, latched := 0, testing := 1 })
    c.ancHeld = false ∧ c.anchor.tpi = true ∧ (c.anchor.loop 24).phase = 2 ∧ (p.anchor.loop 24).pulsed = true ∧ (p.anchor.loop 24).live = true
      ∧ (o.anchor.loop 24).testing ≠ 0 ∧ (o.anchor.loop 24).pulsed = false ∧ (o.anchor.loop 24).live = true
      ∧ did (.testPulseStart 24 true) c (fun t => !(t.anchor.loop 24).lo && (t.anchor.loop 24).hi) = true
      ∧ did (.testPulseCheckOff 24 true) p (fun t => (t.anchor.loop 24).fault) = true := by decide +kernel

theorem wit_PilotRows :
    let m := anch { anchored with beat0 := { missed := 3 }, stby := true, beat1 := { refuse := false } }
    let n := anch { anchored with beat0 := { missed := 3 } }
    let w : BitVec 16 := 0xEF10
    m.ancHeld = false ∧ (anch anchored).anchor.beatValid 0 0 = false ∧ (anch anchored).anchor.beatValid 0 w = true
      ∧ (anch anchored).anchor.assigned = true ∧ m.anchor.assigned = true
      ∧ (m.anchor.beat m.anchor.activeNo).missed = 3 ∧ m.anchor.stby = true ∧ (m.anchor.beat (1 - m.anchor.activeNo)).refuse = false
      ∧ (n.anchor.beat n.anchor.activeNo).missed = 3 ∧ n.anchor.stby = false ∧ (anch { anchored with promoted := true }).anchor.promoted = true
      ∧ did .promotion m (fun t => t.anchor.active) = true ∧ did .promotion n (fun t => t.anchor.nopilot) = true
      ∧ did (.pilotBeat 0 0) m (fun t => t.anchor.badbeat == 1) = true := by decide +kernel

/-- The anchor with a word of each source on STOPREQ, without and with the strap BALRIP. -/
def asking : State := { anch anchored with ancView := { sent := [.req0 (1 <<< 24), .req1, .bus (1 <<< 24)] } }
def askingBal : State := { asking with anchor := { anchored with strapLatched := 0x80 } }

theorem wit_AnchorInputRows :
    let l := anch { anchored with lostlane := 1 <<< 24, actval := false }
    let o := sts [(rANC_HOLDOPEN, ⟨0, 25⟩, 1 <<< 24)] (anch anchored)
    l.ancHeld = false ∧ l.anchor.lostlane.getLsbD 24 = true ∧ l.anchor.actval = false ∧ asking.ancHeld = false
      ∧ .req0 (1 <<< 24) ∈ asking.ancView.sent ∧ .req1 ∈ asking.ancView.sent ∧ .bus (1 <<< 24) ∈ asking.ancView.sent
      ∧ asking.anchor.balrip = false ∧ askingBal.anchor.balrip = true ∧ .bus (1 <<< 24) ∈ askingBal.ancView.sent
      ∧ (1 <<< 24 : BitVec 25) = (o.rget rANC_HOLDOPEN).setWidth 25 ∧ (0 : BitVec 25) ≠ (o.rget rANC_HOLDOPEN).setWidth 25 ∧ (1 : BitVec 2) ≠ 0
      ∧ did (.anchorStopreqReceive (.bus (1 <<< 24))) asking (fun t => (t.anchor.loop 24).energised) = true
      ∧ did (.anchorStopreqReceive (.bus (1 <<< 24))) askingBal (fun t => !(t.anchor.loop 24).energised) = true
      ∧ did (.busComparatorTrip 1) askingBal (fun t => !(t.anchor.loop 24).energised && t.anchor.bustrip) = true := by decide +kernel

theorem wit_AnchorInputRows_safe : asking.ripsSafe ∧ askingBal.ripsSafe := by
  constructor <;> simp only [State.ripsSafe, Anchor.loopsSafe, Anchor.maySwitch] <;> decide +kernel

theorem wit_AnchorShellRows :
    let a := anch anchored
    let l := { a with time := { ft := 16000000 } }
    ((0x1000000 : Word).setWidth 25 ≠ (0 : BitVec 25)) ∧ (1 : Word).getLsbD 0 = true ∧ a.ancHeld = false ∧ a.anchor.evts = [] ∧ a.anchor.reqAns = none
      ∧ a.anchor.stop1 = a.flag rANC_STAT fANC_STAT_STOP1 ∧ a.anchor.stop2 = a.flag rANC_STAT fANC_STAT_STOP2
      ∧ l.flag rANC_STAT fANC_STAT_LINKLOST = false ∧ reached l.now (l.ancView.aliveAt + BitVec.ofNat 64 (1000 * usUnits)) = true
      ∧ (24 : BitVec 14).toNat < 25
      ∧ did .anchorLinkLost l (fun t => t.flag rANC_STAT fANC_STAT_LINKLOST) = true
      ∧ did .anchorStatusWord a (fun t => t.fget rANC_STAT fANC_STAT_STATE == 2) = true := by decide +kernel

/-! ### Lanes -/

/-- Lane 15 executing a work item of axis 0, which it owns. -/
def laned (x : Lane := {}) : State :=
  { sts [(rLPE_L_STAT 15, fLPE_L_STAT_RUN, 1)] (cfgd [(rAXC_CFG 0, fAXC_CFG_LANE, 15)] (axisIn xRUN)) with lanes := [(15, x)] }
def item : LEvent := { tick := false, t := 0, pos := 0, cls := 0, tk := 0, raised := 0, subst := false, tickNo := 0 }
def lane (b : LBank) : State := laned { work := some item, fg := b }

theorem wit_steady : (lane {}).steady 15 := by unfold State.steady; decide +kernel

theorem test_lane_arith :
    let s := lane { d := [(0, 0x7FFFFF), (1, 1)] }
    did (.add 15 2 0 1 .nop) s (fun t => (t.curBank 15).dAt 2 == 0x800000 && (t.curBank 15).fN && !(t.curBank 15).fV)
      && did (.adds 15 2 0 1 .nop) s (fun t => (t.curBank 15).dAt 2 == 0x7FFFFF && (t.curBank 15).fV && (t.curBank 15).fSV)
      && did (.shl 15 2 1 0 .nop) s (fun t => (t.curBank 15).dAt 2 == 0) = true := by decide +kernel

theorem test_lane_mac :
    let s := lane { d := [(0, 0x800000)], a := [(3, 0x7FFFFFFFFFFFFF)] }
    did (.mac 15 3 0 0 .nop) s (fun t => (t.curBank 15).aAt 3 == 0x7FFFFFFFFFFFFF && (t.curBank 15).fV) = true := by decide +kernel

theorem wit_LaneLocalRows :
    let s := lane { p := [(0, 0xFFFC)] }
    let q := lane { p := [(0, 0xFFF8)] }
    (s.ln 15).upsets = [] ∧ (0 : BitVec 2) ≠ 3 ∧ (s.curBank 15).operand 0 0 0 0 = some (0xFFFC, 0xFFFC) ∧ plainReg 47 = true
      ∧ (q.curBank 15).operand 0 0 0 0 = some (0xFFF8, 0xFFF8) ∧ (19 : BitVec 6).toNat = 16 + (3 : Fin 4).val ∧ (14 : BitVec 6).toNat ≤ 14
      ∧ 0xFFFC % 4 = 0 ∧ 0xFFF8 % 8 = 0 ∧ 0xFFF8 + 4 < 0x10000
      ∧ did (.st 15 0 0 0 0 0 .nop) (lane { p := [(0, 0x9000)], d := [(0, 5)] }) (fun t => t.localBytes 15 0x9000 4 == [5, 0, 0, 0]) = true
      ∧ did (.ld 15 3 0 0 0 0 .nop) s (fun t => (t.ln 15).pend.map (fun x => x.dst) == [3]) = true := by decide +kernel

theorem wit_LaneSharedRows :
    let s := lane { p := [(0, 0x910000)], d := [(0, 5)] }
    s.sramUpsets = [] ∧ (s.curBank 15).operand 0 0 0 0 = some (0x910000, 0x910000) ∧ 0x910000 < sramEnd ∧ deviceKept 0x910000 = false
      ∧ s.sharedAt 15 0x910000 (s.curBank 15).pc.toNat = .mem
      ∧ s.sharedAt 15 0x500 (s.curBank 15).pc.toNat = .port 0 0x500 ∧ s.sharedAt 15 0 (s.curBank 15).pc.toNat = .forbidden
      ∧ deviceKept cmpBase = false ∧ cmpBase % 8 = 0 ∧ cmpBase < sramEnd
      ∧ did (.sts 15 0 0 0 0 0 .nop) s (fun t => memRead t.sram 0x910000 4 == [5, 0, 0, 0]) = true
      ∧ did (.sts 15 0 1 0 0 0 .nop) s (fun t => (t.ln 15).trapped) = true := by decide +kernel

theorem wit_LaneMoveRows :
    let s := lane { p := [(0, 0x9000), (1, 0x9008)], a := [(0, 0x800000)], scl := 0 }
    let g := { sts [(rLPE_L_STAT 15, fLPE_L_STAT_RUN, 1)] s with gdev := [(0, { collecting := true, due := [0] })] }
    (0 : BitVec 6) ≠ 0x33 ∧ ((s.curBank 15).movSrc 0).isSome = true ∧ (((s.curBank 15).arith .nop).movDst (s.curBank 15).rot 0 0).isSome = true
      ∧ plainReg 0 = true ∧ (s.ln 15).upsets = [] ∧ -64 < (-63 : BitVec 7).toInt ∧ (30 : BitVec 7).toInt ≤ 30 ∧ ((s.curBank 15).pAt 0).toNat % 8 = 0
      ∧ ((s.curBank 15).pAt 1).toNat % 8 = 0 ∧ ((s.curBank 15).pAt 1).toNat < 0x10000
      ∧ (s.curBank 15).operand 1 0 0 0 = some (0x9008, 0x9008) ∧ 0x9008 % 8 = 0 ∧ 0x9008 + 8 < 0x10000
      ∧ wordOf 1 ((g.curBank 15).storeVal 0) = 0 ∧ g.inPlan 0 = true ∧ g.axLane 0 = 15 ∧ g.axType 0 ≠ tyVX
      ∧ (g.gd (g.axGon 0)).collecting = true ∧ (g.gd (g.axGon 0)).due.contains (g.axCh 0) = true ∧ (s.gd (s.axGon 0)).collecting = false
      ∧ did (.mov 15 5 16 .nop) s (fun t => (t.curBank 15).dAt 5 == 1) = true := by decide +kernel

theorem wit_LaneControlRows :
    let s := lane { d := [(15, 0xFFFFFF)] }
    let u (x : Lane) : State := laned { x with work := some item }
    (8 : BitVec 4).toNat ≤ 8 ∧ (s.curBank 15).cond 0 = true ∧ (s.curBank 15).cond 1 = false ∧ (5 : BitVec 12) ≠ (s.curBank 15).pc
      ∧ min 4095 ((s.curBank 15).dAt 15).toNat ≠ 0 ∧ min 1024 ((s.curBank 15).dAt 0).toNat = 0 ∧ 14 ≤ (15 : Fin 16).val ∧ (13 : Fin 16).val < 14
      ∧ (u { fg := { iter := 1, pc := 7, loopEnd := 7 } }).laneRuns 15 = true
      ∧ ((u { fg := { iter := 1, pc := 7, loopEnd := 7 } }).curBank 15).pc = ((u { fg := { iter := 1, pc := 7, loopEnd := 7 } }).curBank 15).loopEnd
      ∧ ((u { pend := [⟨3, 9, true⟩] }).ln 15).pend = [⟨3, 9, true⟩]
      ∧ ((u { slots := some (1, 0x3FF, false) }).ln 15).slots = some (1, 0x3FF, false) ∧ isRoutine 0x3FF = false
      ∧ did (.laneNop 15) (u { pend := [⟨3, 9, true⟩] }) (fun t => (t.curBank 15).dAt 3 == 9) = true
      ∧ did (.laneNop 15) (u { slots := some (1, 0, true) }) (fun t => (t.ln 15).work == none) = true := by decide +kernel

theorem wit_LaneEventRows :
    let s := laned { evq := [item], imgKind := 1 }
    let k := laned { evq := [{ item with tick := true }], imgKind := 1 }
    let w := sts [(rLPE_L_WDG 15, fLPE_L_WDG_WDG, 1)] (at_ 400 (laned { work := some item }))
    let f := at_ 399999 laned
    s.laneRuns 15 = true ∧ (s.ln 15).work = none ∧ (s.ln 15).atBoundary = true ∧ (s.ln 15).imgKind = 1 ∧ s.sramUpsets = []
      ∧ (s.ln 15).evq = [item] ∧ (s.ln 15).pendSt = none ∧ (k.ln 15).evq = [{ item with tick := true }] ∧ (k.ln 15).atBoundary = true
      ∧ (w.ln 15).trapped = false ∧ w.fget (rLPE_L_WDG 15) fLPE_L_WDG_WDG ≠ 0
      ∧ w.fget (rLPE_L_WDG 15) fLPE_L_WDG_WDG < w.cyclesSince 0 ∧ w.laneRuns 15 = true ∧ w.p8Denied .p0 (rLPE_L_CMD 15) = false
      ∧ ((f.gonAxes (f.gk 0 0)).filter (fun n => f.axLane n == 15
          && f.dueAt n (tickStartOf (f.frameOrigin 0) (f.framePeriod 0) (tickAt (f.frameOrigin 0) (f.framePeriod 0) f.now)))) ≠ []
      ∧ (ptUp (f.upLat 0 (f.gk 0 0)) : Int)
          ≤ tdiff f.now (tickStartOf (f.frameOrigin 0) (f.framePeriod 0) (tickAt (f.frameOrigin 0) (f.framePeriod 0) f.now))
      ∧ (f.gd (f.gk 0 0)).upTick ≠ some (BitVec.ofInt 64 (tickAt (f.frameOrigin 0) (f.framePeriod 0) f.now))
      ∧ (f.ln 15).trapped = false ∧ f.laneRole 15 ≠ roRETIRED ∧ (f.ln 15).evq.length < 512
      ∧ did (.laneWatchdog 15) w (fun t => (t.ln 15).trapped) = true
      ∧ did (.substituteFrameEvent 15 0 0) f (fun t => (t.ln 15).evq.length == 1 && t.flag (rAXC_STAT 0) fAXC_STAT_RECMISS) = true := by decide +kernel

/-! ### Registers and commits -/

theorem wit_RegisterRows :
    let p := runs
    let hk := fun (o : Nat) => hooks.all (fun h => (h.at o).isNone)
    p.p8Denied .p8 rPLAN_VERSION = true ∧ p.p8Denied .p0 0 = false ∧ regRow 0xFFC = none ∧ (regRow (rPGN_TPER 255)).isSome = true
      ∧ hk (rPGN_TPER 255) = true ∧ isMsix (rPGN_TPER 255) = false ∧ (aliasOf (rPGN_TPER 255)).2 = 0 ∧ (aliasOf (rPGN_TPER 255 + 0x40000)).2 ≠ 0
      ∧ aliasOf (rPGN_TPER 255 + 0xC0000) = (rPGN_TPER 255, 3)
      ∧ (regRow (rPGN_TPER 255)).map (fun r => (r.wm, r.rw &&& r.sh)) = some (0, 0)
      ∧ did (.registerWrite .p8 0xFFC 1 true) p (fun t => t.fget (rPLAN_P_DENY 8) cntBits == 1 && !t.flag rGLB_STAT fGLB_STAT_UNMAP) = true
      ∧ did (.registerWrite .p0 0xFFC 1 true) p (fun t => t.flag rGLB_STAT fGLB_STAT_UNMAP) = true
      ∧ did (.registerWrite .p0 0xFFC 1 false) p (fun t => t.flag rHIF_STAT fHIF_STAT_BARERR && !t.flag rGLB_STAT fGLB_STAT_UNMAP) = true
      ∧ did (.registerWrite .p0 (rPGN_TPER 255 + 0xC0000) 0x7FFFFF true) p (fun t => t.rget (rPGN_TPER 255) == 0x79E57F) = true
      ∧ did (.rcRead .p0 rGLB_RSTCAUSE true) p (fun t => t.rget rGLB_RSTCAUSE == 0) = true
      ∧ did (.rcRead .p0 0 false) p (fun t => t.answer == none) = true := by decide +kernel

/-- A commit of group TIME in the path. -/
def comm : CommitRec :=
  { groups := 4, axsel := 0, sched := false, at_ := 0, fromDesc := none, captured := [(rFTM_INC_INT, 41)], stagedG := false, accepted := 0, armed := false }
def ready : State := sts [(rANC_STAT, fANC_STAT_ACTVAL, 1)] boxed

theorem wit_CommitRows :
    let k := { ready with commit := some comm }
    let d := { k with commit := some { comm with armed := true } }
    let g := { k with commit := some { comm with stagedG := true } }
    ready.p8Denied .p0 rGLB_COMMIT = false ∧ bget (2 : Word) fGLB_COMMIT_GROUP ≠ 0 ∧ k.commit.isSome = true ∧ ready.commit = none ∧ ready.mig = none
      ∧ ready.swapping = false ∧ ready.pilotReady = true ∧ boxed.pilotReady = false ∧ d.commitDue { comm with armed := true } = true
      ∧ g.commit = some { comm with stagedG := true } ∧ comm.stagedG = false ∧ k.commitDue comm = false ∧ comm.armed = false
      ∧ k.time.halted = false ∧ k.pilotReady = true ∧ d.hold = []
      ∧ (lanesChanged k.lifted (k.lifted.loaded comm) comm).any (fun l => k.flag (rLPE_L_STAT l) fLPE_L_STAT_BANKBUSY) = false
      ∧ commitVerdict k.lifted (k.lifted.loaded comm) comm = none
      ∧ [Grp.axis, .tether, .pulse, .bus, .fio].all (fun g => !comm.has g) = true
      ∧ did .commitCheckComplete k (fun t => (t.commit.map (fun c => c.armed)) == some true) = true
      ∧ did .commitApply d (fun t => t.wget rFTM_INC_INT == 41 && t.commit == none && t.flag rGLB_COMMIT_STAT fGLB_COMMIT_STAT_DONE) = true
      ∧ did (.commitCancel .p0) k (fun t => t.commit == none && t.fget rGLB_COMMIT_STAT fGLB_COMMIT_STAT_CAUSE == 5) = true
      ∧ did (.commitCancel .p0) d (fun t => t.commit != none && t.flag rGLB_COMMIT_STAT fGLB_COMMIT_STAT_CANCELREF) = true := by decide +kernel

/-- A commit that its check refuses: it puts axis 0 in the plan on a tether without a gondola. -/
theorem wit_CommitRefused :
    let c := { comm with groups := 1, axsel := 1, captured := [(rAXC_CFG 0, 0x80000000)] }
    let n := { ready with commit := some c }
    (lanesChanged n.lifted (n.lifted.loaded c) c).any (fun l => n.flag (rLPE_L_STAT l) fLPE_L_STAT_BANKBUSY) = false
      ∧ (commitVerdict n.lifted (n.lifted.loaded c) c).isSome = true
      ∧ did .commitCheckComplete n (fun t => t.commit == none && t.work == n.work) = true := by decide +kernel

/-! ### Host rings and network frames -/

/-- Ring 31 of command descriptors with one staged, completing on ring 5; a frame ring 30 of port 0. -/
def ringed : State :=
  { sts [(rHIF_SQ_CFG 31, fHIF_SQ_CFG_EN, 1), (rHIF_SQ_CFG 31, fHIF_SQ_CFG_CQ, 5), (rHIF_CQ_CFG 5, fHIF_CQ_CFG_EN, 1),
      (rHIF_SQ_CFG 30, fHIF_SQ_CFG_EN, 1), (rHIF_SQ_CFG 30, fHIF_SQ_CFG_KIND, 1), (rHIF_SQ_STAT 31, fHIF_SQ_STAT_TAIL, 1),
      (rHIF_SQ_STAT 30, fHIF_SQ_STAT_TAIL, 1), (rHIF_CQ_CFG 0, fHIF_CQ_CFG_EN, 1), (rNET_ETH_CFG 0, fNET_ETH_CFG_EN, 1),
      (rNET_CAN_CFG 3, fNET_CAN_CFG_EN, 1)] { ready with gdev := tethered.gdev } with
    sqs := [(30, { staged := 1 }), (31, { staged := 1 })] }

theorem wit_ringReady : ringed.ringReady 5 ∧ ringed.ringReady 0 := by unfold State.ringReady; decide +kernel

theorem wit_SubmissionRingRows :
    let w := sts [(rHIF_SQ_WD 31, fHIF_SQ_WD_TIME, 1)] (at_ 1600000 ringed)
    let n := { ringed with sqs := [] }
    runs.p8Denied .p0 (rHIF_SQ_CFG 0) = false ∧ runs.sqEn 0 = false ∧ bget (0 : Word) fHIF_SQ_CFG_KIND = 0
      ∧ bget (0x400 : Word) fHIF_SQ_CFG_KIND = 1 ∧ bget (0x400 : Word) fHIF_SQ_CFG_FPORT = 0 ∧ ringed.sqEn 0 = false
      ∧ (30 : Fin 32) ≠ 0 ∧ ringed.sqEn 30 = true ∧ ringed.sqKind 30 = 1 ∧ ringed.sqPort 30 = 0 ∧ ringed.sqEn 31 = true
      ∧ n.sqEn 31 = true ∧ (n.sq 31).staged = 0
      ∧ ringed.flag (rHIF_SQ_STAT 31) fHIF_SQ_STAT_SILENT = false ∧ (15 : Word).toNat % 4096 < ringed.sqSize 31
      ∧ ringed.sqSize 31 ≤ (16 : Word).toNat % 4096 ∧ (ringed.sq 31).stopped = false
      ∧ min (min 8 8) (min ((ringed.fget (rHIF_SQ_STAT 31) fHIF_SQ_STAT_TAIL + ringed.sqSize 31
          - ringed.fget (rHIF_SQ_STAT 31) fHIF_SQ_STAT_HEAD) % ringed.sqSize 31) (256 - (ringed.sq 31).staged)) ≠ 0
      ∧ w.fget (rHIF_SQ_WD 31) fHIF_SQ_WD_TIME = 1 ∧ w.flag (rHIF_SQ_STAT 31) fHIF_SQ_STAT_SILENT = false
      ∧ ((1 * 100 * usUnits : Nat) : Int) ≤ tdiff w.now (w.sq 31).lastDb ∧ w.fget (rHIF_SQ_WD 31) fHIF_SQ_WD_REACT = 0 := by decide +kernel

theorem test_rings :
    did (.sqDoorbell 31 16 true) ringed (fun t => t.flag (rHIF_SQ_STAT 31) fHIF_SQ_STAT_DBERR && t.fget (rHIF_SQ_STAT 31) fHIF_SQ_STAT_TAIL == 1)
      && did (.descriptorFetch 31 1 true) ringed (fun t => (t.sq 31).staged == 2 && t.fget (rHIF_SQ_STAT 31) fHIF_SQ_STAT_HEAD == 1)
      && did (.cqDoorbell 7 0 true) ringed (fun t => t.flag (rHIF_CQ_STAT 7) fHIF_CQ_STAT_DBERR) = true := by decide +kernel

theorem wit_CompletionRingRows :
    let e : Cqe := { ft := 0, payload := 0, tag := 0, planver := 0, status := 0, kind := 0, sq := 0, sqhead := 0 }
    let a := sts [(rHIF_CQ_CFG 5, fHIF_CQ_CFG_IEN, 1), (rHIF_CQ_STAT 5, fHIF_CQ_STAT_ARMED, 1), (rHIF_CQ_IMOD 5, fHIF_CQ_IMOD_ITIME, 1)]
      { at_ 16000 ringed with cqs := [(5, { ring := [(e, true, 0)] }), (6, { backlog := [e] })] }
    let mk := sts [(rMSIX_CTL 0, fMSIX_CTL_MASK, 1)] a
    runs.p8Denied .p0 (rHIF_CQ_CFG 0) = false ∧ runs.flag (rHIF_CQ_CFG 31) fHIF_CQ_CFG_EN = false ∧ ringed.flag (rHIF_CQ_CFG 5) fHIF_CQ_CFG_EN = true
      ∧ a.flag (rHIF_CQ_CFG 5) fHIF_CQ_CFG_EN = true ∧ 1 < a.cqSize 5 ∧ (1 + a.cqSize 5 - (a.cq 5).head.toNat) % a.cqSize 5 ≤ (a.cq 5).ring.length
      ∧ a.cqSize 5 ≤ 16 ∧ a.cqAged 5 = true ∧ a.flag (rHIF_CQ_CFG 5) fHIF_CQ_CFG_IEN = true ∧ a.flag (rHIF_CQ_STAT 5) fHIF_CQ_STAT_ARMED = true
      ∧ a.fget (rHIF_CQ_CFG 5) fHIF_CQ_CFG_VEC = 0 ∧ mk.flag (rMSIX_CTL 0) fMSIX_CTL_MASK = true ∧ mk.cqAged 5 = true
      ∧ (sts [(rMSIX_CTL 0, fMSIX_CTL_MASK, 0)] a).flag (rMSIX_CTL 0) fMSIX_CTL_MASK = false
      ∧ (a.cq 6).backlog = [e] ∧ a.cqRoom 6 = true ∧ (15 : Word).toNat % 4096 < runs.rxCount 5 ∧ runs.rxCount 5 ≤ (4095 : Word).toNat % 4096
      ∧ did (.cqDoorbell 5 1 true) a (fun t => (t.cq 5).ring == []) = true
      ∧ did (.cqBacklogDrain 6) a (fun t => (t.cq 6).backlog == []) = true := by decide +kernel

/-- Receive rings 0 and 5 of the host with room, and CAN port 3 with and without a default ring. -/
def receiving (dflt : Nat) : State := cfgd [(rPLAN_CAN_CFG 3, fPLAN_CAN_CFG_DEFHOST, dflt)]
  (sts [(rHIF_RX_CFG 0, fHIF_RX_CFG_EN, 1), (rHIF_RX_STAT 0, fHIF_RX_STAT_FREE, 1), (rHIF_RX_CFG 5, fHIF_RX_CFG_EN, 1),
    (rHIF_RX_STAT 5, fHIF_RX_STAT_FREE, 1)] ringed)

theorem wit_NetworkFrameRows :
    let i : TxItem := { q := some 30, tag := 1, nocomp := false, tsreq := false, frameId := 2, canid := 0, data := [1] }
    let t := { ringed with txq := [(0, [i])] }
    let o := cfgd [(rPLAN_P_OPC 0, fPLAN_P_OPC_OPC, 0)] ringed
    ringed.sqPort 30 = 0 ∧ ringed.sqReady 30 1 false = true ∧ ringed.txRoom 0 1518 = true ∧ ringed.sqCq 30 = 0 ∧ frameFormat 0 0x10 0 1518 0 = true
      ∧ frameFormat 0 0x10 0 1519 0 = false ∧ ringed.opcOK 0 0x10 = true ∧ o.opcOK 0 0x10 = false ∧ t.txq_ 0 = [i]
      ∧ did (.frameTransmit 30 0x10 0 7 2 14 0 0 (.ok (List.replicate 14 3))) ringed (fun t => (t.txq_ 0).length == 1) = true
      ∧ did (.frameTransmit 30 0x10 0 7 2 14 0 0 .memErr) ringed (fun t => (t.cq 0).ring.length == 1 && t.txq_ 0 == []) = true := by decide +kernel

theorem wit_NetworkFrameRows_receive :
    let x := receiving 0
    let c := receiving 1
    x.flag (rNET_ETH_CFG 0) fNET_ETH_CFG_EN = true ∧ (0x0800 : BitVec 16) ≠ 0x88B5 ∧ x.flag (rHIF_RX_CFG 0) fHIF_RX_CFG_EN = true
      ∧ ([1] : List Byte).length ≤ x.rxSize 0 ∧ x.fget (rHIF_RX_STAT 0) fHIF_RX_STAT_HEAD ≠ x.fget (rHIF_RX_STAT 0) fHIF_RX_STAT_FREE
      ∧ x.flag (rNET_CAN_CFG 3) fNET_CAN_CFG_EN = true ∧ x.canLookup 3 0 false = none ∧ x.wflag (rPLAN_CAN_CFG 3) fPLAN_CAN_CFG_DEFHOST = false
      ∧ c.flag (rNET_CAN_CFG 3) fNET_CAN_CFG_EN = true ∧ c.canLookup 3 0 false = none
      ∧ c.wflag (rPLAN_CAN_CFG 3) fPLAN_CAN_CFG_DEFHOST = true ∧ c.flag (rHIF_RX_CFG (2 + 3)) fHIF_RX_CFG_EN = true
      ∧ c.fget (rHIF_RX_STAT (2 + 3)) fHIF_RX_STAT_HEAD ≠ c.fget (rHIF_RX_STAT (2 + 3)) fHIF_RX_STAT_FREE
      ∧ ([1] : List Byte).length ≤ c.rxSize (2 + 3)
      ∧ did (.ethFrameReceive 0 0xFFFFFFFFFFFF 0x0800 [1] false false) x (fun t => t.fget (rNET_ETH_CNT 0 1) cntBits == 1) = true
      ∧ did (.canFrameReceive 3 0 false false false false [] true) x (fun t => t.fget (rNET_CAN_CNT 3 0) cntBits == 1) = true := by decide +kernel

/-! ### Command descriptors -/

/-- Axis 0 in RUN in the plan, with the ring of `ringed`. -/
def served : State :=
  sts [(rAXC_STATE 0, fAXC_STATE_STATE, xRUN)]
    (cfgd [(rAXC_CFG 0, fAXC_CFG_INPLAN, 1), (rAXC_CFG 0, fAXC_CFG_TYPE, 0), (rAXC_CFG 0, fAXC_CFG_TETHER, 0)] ringed)
def hdr : DescHdr := { src := .sq 31, flags := 0, tag := 7, axis := 0, rsv := false }

theorem wit_admits : served.admits 31 hdr 0x01 true ∧ served.admits 31 hdr 0x0E false := by
  unfold State.admits State.ringReady; decide +kernel

theorem wit_MotionDescriptorRows :
    let full := { served with axes := [(0, { gen := { stream := List.replicate 16 (0, 0) } })] }
    let no := cfgd [(rPLAN_P_OPC 0, fPLAN_P_OPC_OPC, 0)] served
    let p9 := cfgd [(rPLAN_P_OPC 9, fPLAN_P_OPC_OPC, 0xFFFF), (rPLAN_P_AX 9 0, fPLAN_P_AX_PERM 0, 63)] served
    hdr.src = .sq 31 ∧ served.descReady hdr = true ∧ hdr.flags.getLsbD 1 = false
      ∧ hdrGood { hdr with rsv := true } false = false ∧ hdrGood hdr true = true ∧ no.opcOK 0 0x04 = false ∧ served.reqsOK 0 0 31 = true
      ∧ ringed.inPlan 0 = false ∧ served.inPlan 0 = true ∧ reqsOf 16 = [.fclr] ∧ served.valueOK 0 5 = true ∧ served.perm 0 0 pmMOTION = true
      ∧ served.takesMotion 0 false = true ∧ served.pointsQueued 0 < 16 ∧ 16 ≤ full.pointsQueued 0 ∧ served.perm 0 255 pmREAD = true
      ∧ served.permAll 0 pmMOTION [0] = true ∧ served.permAll 0 pmSTOP [0] = true ∧ p9.opcOK 9 0x04 = true ∧ p9.perm 9 0 pmMOTION = true
      ∧ p9.inPlan 0 = true
      ∧ did (.nop hdr) served (fun t => (t.cq 5).ring.length == 1 && (t.sq 31).staged == 0) = true
      ∧ did (.move hdr 5 1 1 1 1 0) served (fun t => (t.ax 0).causes == [.motion 0]) = true
      ∧ did (.axset hdr 5 9 true 0) full (fun t => (t.cq 5).ring.map (fun e => e.1.status) == [2]) = true
      ∧ did (.stop hdr 3 0) served (fun t => (t.cq 5).ring.map (fun e => e.1.status) == [3] && (t.ax 0).causes == []) = true := by decide +kernel

theorem wit_DataDescriptorRows :
    let x : BitVec 256 := (1 <<< 184) ||| (1 <<< 255)
    let y : BitVec 256 := (1 <<< 184) ||| (255 <<< 176)
    let u := sts [(rLPE_CAM_CTL 63, fLPE_CAM_CTL_USERS, 1)] served
    let a := { served with cmp := [(9, { raw := x, st := .armed })] }
    served.portFlag 0 fPLAN_P_FLAGS_CAMW = true ∧ u.camRefused 63 0 2 = some 6 ∧ served.camRefused 63 0 2 = none
      ∧ served.fget (rLPE_CAM_CTL 63) fLPE_CAM_CTL_USERS = 0 ∧ u.fget (rLPE_CAM_CTL 63) fLPE_CAM_CTL_USERS ≠ 0
      ∧ entryOK x = true ∧ served.entryRight 0 x = true ∧ (served.cmpRange 0).1 < (served.cmpRange 0).2
      ∧ served.cmpAlloc (served.cmpRange 0).1 ((served.cmpRange 0).2 - 1) 1 = some [0] ∧ served.entryStands x = true
      ∧ ({ raw := x } : CmpEnt).heldBit = true ∧ entryOK y = true ∧ served.entryRight 0 y = true ∧ served.entryStands y = false
      ∧ (a.cmpRange 0).1 ≤ 9 ∧ 9 < (a.cmpRange 0).2 ∧ (a.ce 9).st = .armed ∧ served.perm 0 0 pmCMP = true ∧ served.ringOK 0 0 = true
      ∧ did (.camLoad hdr 63 0 0 2 1 0 0 (.ok [1, 2])) served (fun t => t.camN 63 == 2) = true
      ∧ did (.cmpadd hdr 0 1 64 (.ok [x])) served (fun t => (t.ce 0).st == .held) = true := by decide +kernel

theorem wit_DataDescriptorRows_config :
    let c := { served with commit := some comm }
    let l := { served with lanes := [(1, { loops := List.replicate 6 (some 0) }), (0, { loops := List.replicate 6 (some 0) })] }
    let q := { served with time := { served.time with txts := [(1, [(5, 6)])] } }
    served.portFlag 0 fPLAN_P_FLAGS_RDEV = true ∧ (regRow rFTM_INC_INT).map (fun r => r.sh != 0) = some true
      ∧ (64 : BitVec 64).toNat % 32 = 0 ∧ served.stageRight 0 rFTM_INC_INT = true ∧ canReg rFTM_INC_INT = false ∧ (4 : BitVec 8) &&& 1 = 0
      ∧ served.portFlag 0 fPLAN_P_FLAGS_CFGG = true ∧ c.commit.isSome = true ∧ served.commit = none ∧ served.mig = none
      ∧ served.swapping = false ∧ served.pilotReady = true ∧ served.portFlag 0 fPLAN_P_FLAGS_LANE = true
      ∧ l.permAll 0 pmCFG (l.laneAxes 0) = true ∧ l.migNo 0 1 (l.laneAxes 0) = none ∧ (served.txtsPop 1).2 = none
      ∧ (q.txtsPop 1).2 = some (5, 6)
      ∧ did (.commit hdr 4 0 0) served (fun t => t.commit.isSome) = true := by decide +kernel

/-! ### Stream port -/

/-- The stream link UP with a credit to return, the flight log to be streamed; axis 0 in RUN, which the port may move or not. -/
def streaming (perm : Nat) : State := sts [(rNET_STR_STAT, fNET_STR_STAT_LINK, 2), (rNET_STR_CRED, fNET_STR_CRED_TXCRED, 65535),
    (rFLOG_CTL, fFLOG_CTL_STREAM, 1), (rNET_STR_CFG, fNET_STR_CFG_EN, 1), (rAXC_STATE 0, fAXC_STATE_STATE, xRUN)]
  (cfgd [(rAXC_CFG 0, fAXC_CFG_INPLAN, 1), (rAXC_CFG 0, fAXC_CFG_TYPE, 0), (rPLAN_P_AX 1 0, fPLAN_P_AX_PERM 0, perm)]
    { runs with stream := { retPend := 3 }, flog := { store := [1] } })

theorem wit_StreamRows :
    let e := sts [(rNET_STR_CFG, fNET_STR_CFG_EN, 1)] runs
    let i := { e with stream := { rcvdInit := true } }
    let j := { e with stream := { sentInit := true } }
    let v := streaming 0
    e.flag rNET_STR_CFG fNET_STR_CFG_EN = true ∧ e.stream.rcvdInit = false ∧ i.stream.rcvdInit = true ∧ i.stream.sentInit = false
      ∧ (i.gdev.filter (fun e => !e.2.upData.isEmpty)) = [] ∧ i.flag rNET_STR_CFG fNET_STR_CFG_EN = true ∧ (7 : Word) ≠ strCrc 3 8 0 0 []
      ∧ (5 : BitVec 16) ≠ 0 ∧ j.strLink ≠ 2 ∧ j.stream.sentInit = true ∧ v.strLink = 2 ∧ v.stream.retPend ≠ 0
      ∧ (v.gdev.filter (fun e => !e.2.upData.isEmpty)) = [] ∧ (List.replicate 2048 (0 : Byte)).length % 8 = 0
      ∧ did .streamLinkDown v (fun t => t.strLink == 0) = true
      ∧ did (.streamFrameReceive 3 8 0 0 [] 7 true) v (fun t => t.fget (rNET_STR_CNT 0) cntBits == 1) = true
      ∧ did (.streamFrameReceive 1 8 0 0 [5, 0, 0, 0, 1, 0, 0, 0] (strCrc 1 8 0 0 [5, 0, 0, 0, 1, 0, 0, 0]) true) j
          (fun t => t.strLink == 2 && t.fget rNET_STR_CRED fNET_STR_CRED_TXCRED == 5) = true := by decide +kernel

theorem wit_StreamRows_data :
    let v := streaming 0
    let m := streaming 63
    v.valueOK 0 5 = true ∧ v.perm 1 0 pmMOTION = false ∧ v.netFlag rNET_STR_CFG fNET_STR_CFG_REPORT = false
      ∧ m.strLink = 2 ∧ m.valueOK 0 5 = true ∧ m.perm 1 0 pmMOTION = true ∧ (0 : BitVec 8).toNat = m.axCmode 0 ∧ m.inPlan 0 = true
      ∧ m.takesMotion 0 false = true ∧ m.pointsQueued 0 < 16
      ∧ v.flag rFLOG_CTL fFLOG_CTL_STREAM = true ∧ v.flog.store.take v.logMost ≠ []
      ∧ did (.trajRecord 0 0 false 9 5) m (fun t => (t.ax 0).causes == [.point 9 5]) = true
      ∧ did .flogStreamDrain v (fun t => t.flog.store == []) = true := by decide +kernel

theorem wit_StreamRows_bulk :
    let v := streaming 0
    let k := { v with cmds := [(4, some (OpenCmd.mk (.sq 31) 6 0 false 0 0 (.camLoad 63 8 0 2 1 99) 0 0 0 false))], stream := { rxq := [(1, false)] } }
    k.stream.rxq.all (fun e => e.2) = false
      ∧ k.camPending 98 = none ∧ k.camPending 99 = some (4, 63, 8, 0, 2, 1) ∧ k.sramUpsets = [] ∧ (0 : BitVec 8).getLsbD 1 = false
      ∧ (8 : Word).toNat + ([0, 0, 0, 0, 0, 0, 0, 1] : List Byte).length ≤ 8 * (2 : Word).toNat := by decide +kernel

/-! ### Service, flight log and mailbox -/

/-- A migration of axes 0 and 1 from lane 0 to lane 1. -/
def moving : Migration := { src := 0, dst := 1, axes := [0, 1], at_ := 0, tw := none, moved := 0, repair := false, cmd := none }
def migrating : State := cfgd [(rAXC_CFG 1, fAXC_CFG_INPLAN, 1), (rAXC_CFG 1, fAXC_CFG_TYPE, 3)]
  { cfgd [(rAXC_CFG 0, fAXC_CFG_TYPE, 3)] served with
    mig := some moving, lanes := [(0, { loops := List.replicate 6 (some 0) }), (1, { loops := List.replicate 6 (some 0) })] }

theorem wit_ServiceRows_migration :
    let s := migrating
    let n := sts [(rANC_STAT, fANC_STAT_ACTVAL, 0)] s
    let w := cfgd [(rLPE_TPHASE 0, fLPE_TPHASE_PHASE, 0), (rAXC_CFG 1, fAXC_CFG_CLASS, 1)] (at_ 400000 { s with mig := some { moving with tw := some 0 } })
    s.mig = some moving ∧ moving.tw = none ∧ s.flag (rLPE_L_STAT 1) fLPE_L_STAT_BANKBUSY = false ∧ s.flag rANC_STAT fANC_STAT_ACTVAL = true
      ∧ s.migFit 0 1 [0, 1] = none ∧ moving.axes ≠ [] ∧ n.mig = some moving ∧ n.flag (rLPE_L_STAT 1) fLPE_L_STAT_BANKBUSY = false
      ∧ n.flag rANC_STAT fANC_STAT_ACTVAL = false ∧ moving.repair = false
      ∧ w.mig = some { moving with tw := some 0 } ∧ reached (w.axTickStart 0) 0 = true ∧ moving.dst < 16
      ∧ (∀ j ∈ [0, 1], j < 0 → w.axTickStart j ≠ w.axTickStart 0)
      ∧ (w.ln 0).stsz / 8 + (if moving.bAt = w.axTickStart 0 then moving.bWords else 0) ≤ 384 ∧ w.windowBad 0 (w.ax 0).lidx = false
      ∧ (w.ln 0).trapped = false ∧ (∃ j ∈ [0, 1], j ≠ 0)
      ∧ did .migrationCheckEnd s (fun t => t.fget rLPE_MIG fLPE_MIG_PHASE == 2) = true
      ∧ did .migrationCheckEnd n (fun t => t.mig == none && t.flag rLPE_MIG fLPE_MIG_MIGERR) = true
      ∧ did (.migrationSwitch 0) w (fun t => t.axLane 0 == 1) = true := by decide +kernel

theorem wit_ServiceRows :
    let r := { migrating with mig := none, repairs := [0] }
    let g : State := { migrating with su := { migrating.su with loadMask := 0x8000, updRun := some true },
                                      pilot1 := { running := true, bootPend := some true, bootNext := true } }
    0 ∈ r.repairs ∧ r.mig = none ∧ r.commit = none ∧ r.flag rANC_STAT fANC_STAT_ACTVAL = true ∧ r.repairPlan 0 ≠ []
      ∧ (r.repairPlan 0).all (fun e => e.2 == some 1) = true
      ∧ g.su.loadMask.getLsbD 15 = true ∧ g.su.updRun = some true ∧ (g.pilot 1).bootPend = some true ∧ (g.pilot 1).bootNext = true
      ∧ (g.pilot 1).running = true ∧ g.flag rPIL_STAT (pilJSYNC 1) = false ∧ g.sramUpsets = []
      ∧ 0x34C000 ≤ 8 * 0x69800 ∧ 8 * 0x897FF < 0x44C000
      ∧ did (.journalSync 1) { g with sramUpsets := [(0x69800, true)] } (fun t => t.journalBad == [0x69800]) = true
      ∧ did (.laneLoadComplete 15 { image := none, testOk := true }) g (fun t => t.flag (rLPE_L_STAT 15) fLPE_L_STAT_LOADERR) = true
      ∧ did (.pilotUpdateComplete true 9) g (fun t => t.rget rPIL_VERB == 9) = true
      ∧ did (.pilotBootComplete 1 true) g (fun t => (t.pilot 1).slot) = true := by decide +kernel

/-- The header of a lane image of 72 bytes without its CRC: one packet, an entry at 0x400, a block of 8 bytes. -/
def imgHead : List Byte :=
  [0x59, 0x54, 0x4C, 0x49, 1, 0, 0, 3] ++ List.replicate 8 0 ++ [1, 0, 0, 0] ++ [0, 4, 0, 0] ++ [8, 0, 0, 0] ++ [0, 0x90, 192, 0]
    ++ List.replicate 28 0
def image : List Byte := imgHead ++ leBytes 4 (crc32 (imgHead ++ List.replicate 8 0)).toNat ++ List.replicate 8 0

theorem wit_image :
    let s := { ringed with su := { ringed.su with loadMask := 0x8000, loadLen := 72 } }
    s.su.loadMask.getLsbD 15 = true ∧ image.take s.su.loadLen.toNat = image ∧ imgGood image = true
      ∧ codeGood ((imgF image 7 1).testBit 0) (imgCode image) = true ∧ s.laneAxes 15 = [] ∧ imgGood (image.take 71) = false
      ∧ did (.laneLoadComplete 15 { image := some image, testOk := true }) s (fun t => t.laneRuns 15 && t.su.loadMask == 0) = true := by decide +kernel

theorem wit_ServiceObjects :
    let u := sts [(rANC_STAT, fANC_STAT_STBY, 1), (rANC_RIPCL, ⟨0, 25⟩, 1)] { at_ 160000000 ready with anchor := { beat1 := { refuse := false } } }
    let f := sts [(rFLOG_CTL, fFLOG_CTL_EN, 1), (rFLOG_CTL, fFLOG_CTL_FREEZE, 1), (rSU_STAT, fSU_STAT_DDRREADY, 1)] { ready with flog := { store := [5, 6] } }
    runs.fget rSU_STAT fSU_STAT_PHASE ≠ 3 ∧ ready.fget rSU_STAT fSU_STAT_PHASE = 3 ∧ (7 : BitVec 64).toNat % 8 ≠ 0 ∧ ready.su.loadMask = 0
      ∧ (∀ l : Fin 16, ready.laneAxes l = [] ∧ (ready.fget rLPE_RETIRE fLPE_RETIRE_HARD).testBit l = false)
      ∧ u.fget rSU_STAT fSU_STAT_PHASE = 3 ∧ 24 < (25 : BitVec 14).toNat ∧ u.ripClosed10 0 = true ∧ u.ripClosed10 23 = false
      ∧ u.activePilot = some 0 ∧ u.su.updRun = none ∧ (0x400000 : Word).toNat ≤ 4 * 2 ^ 20
      ∧ (u.pilot0.running && u.pilot1.running && u.pilot0.slot != u.pilot1.slot) = false ∧ u.activePilot ≠ some 1
      ∧ u.flag rANC_STAT fANC_STAT_STBY = true ∧ u.anchor.beat1.refuse = false ∧ u.fget rGLB_COMMIT_STAT fGLB_COMMIT_STAT_PHASE ≠ 1 ∧ u.mig = none
      ∧ f.flogOn = true ∧ f.flag rFLOG_CTL fFLOG_CTL_FREEZE = true ∧ f.flag rFLOG_STAT fFLOG_STAT_FROZEN = false ∧ ready.flog.store = []
      ∧ f.flog.store = 5 :: [6]
      ∧ did (.plSwap 0 .p0) u (fun t => (t.pilot 0).swap) = true
      ∧ did (.ttRipclr 0 .p0 24) u (fun t => told t 0 == some (mbxOK, []) && t.ports == []) = true
      ∧ did (.ttRipclr 0 .p0 23) u (fun t => told t 0 == some (mbxREFUSED, [])) = true
      ∧ did (.ttRipclr 0 .p0 0) u (fun t => (t.port 0).waiting.length == 1) = true
      ∧ did (.flogPop 3 .p0) f (fun t => t.flog.store == [6] && (told t 3).map (fun a => a.2.headD 0) == some 5) = true := by decide +kernel

theorem wit_FlightLogRows :
    let d := sts [(rSU_STAT, fSU_STAT_DDRREADY, 1), (rFLOG_CTL, fFLOG_CTL_EN, 1)] { runs with flog := { staging := [5], postLeft := some 0 } }
    d.flag rSU_STAT fSU_STAT_DDRREADY = true ∧ d.flog.staging = [5] ∧ d.flog.store.length < d.flogCap ∧ d.flog.postLeft = some 0
      ∧ d.flag rFLOG_STAT fFLOG_STAT_FROZEN = false ∧ d.p8Denied .p0 rFLOG_CMD = false ∧ d.flogOn = true ∧ d.fget rFLOG_CTL fFLOG_CTL_SNAP ≠ 0
      ∧ (d.fget rFLOG_CTL fFLOG_CTL_TYPES).testBit 3 = true
      ∧ did .flogStoreWrite d (fun t => t.flog.store == [5] && t.flog.staging == []) = true
      ∧ did .flogFreeze d (fun t => t.flag rFLOG_STAT fFLOG_STAT_FROZEN) = true
      ∧ did (.flush .p0) d (fun t => t.flog.staging == []) = true := by decide +kernel

/-- A full flight log with a record that waits, which wraps or does not. -/
def logFull (wrap : Nat) : State := sts [(rSU_STAT, fSU_STAT_DDRREADY, 1), (rFLOG_CTL, fFLOG_CTL_WRAP, wrap)]
  { runs with flog := { staging := [5], store := List.replicate 32768 0, area := 0 } }

theorem wit_FlightLogRows_full : (logFull 0).flogCap ≤ (logFull 0).flog.store.length ∧ (logFull 1).flogCap ≤ (logFull 1).flog.store.length := by
  show _ ≤ (List.replicate 32768 (0 : BitVec 256)).length ∧ _ ≤ (List.replicate 32768 (0 : BitVec 256)).length
  rw [List.length_replicate]; decide +kernel

theorem wit_MailboxObjects :
    let r := { boxed with axes := [(0, { lat := [⟨1, 2, 3, 1, true, 0, 0, false⟩] })], cmp := [(0, { st := .fired, tf := 9 }), (1, { st := .armed, susp := true })] }
    let w := cfgd [(rFBK_MOD 1, fFBK_MOD_M, 100), (rFBK_CFG 1, fFBK_CFG_MODULO, 1)] boxed
    256 ≤ (256 : BitVec 14).toNat ∧ (255 : BitVec 14).toNat < 256 ∧ (65536 : BitVec 64).toNat % 65536 = 0 ∧ boxed.fbModulo 0 = false
      ∧ (1 : BitVec 64).toNat % 65536 ≠ 0 ∧ w.fbModulo 1 = true ∧ (6553600 : BitVec 64).toInt = w.fbM 1 * 65536
      ∧ boxed.flag (rPRF_STAT 0) fPRF_STAT_REMV = false ∧ (boxed.ax 0).gen.remPend = false ∧ (boxed.ax 0).lat = []
      ∧ (r.ax 0).lat = [⟨1, 2, 3, 1, true, 0, 0, false⟩] ∧ (15 : BitVec 14).toNat < 16 ∧ (31 : BitVec 14).toNat < 32
      ∧ (r.ce 0).st = .fired ∧ (r.ce 0).susp = false
      ∧ (r.ce 1).st = .armed ∧ (r.ce 1).susp = true ∧ peekOK 0xE00000 = true ∧ peekOK 0xF00000 = false
      ∧ (regRow rFTM_INC_INT).map (fun r => r.sh != 0) = some true
      ∧ did (.fbSetpos 0 .p0 255 65536) boxed (fun t => (t.ax 255).setPos == some 65536) = true
      ∧ did (.fbSetpos 0 .p0 0 1) boxed (fun t => told t 0 == some (mbxREFUSED, [])) = true
      ∧ did (.latPop 2 .p0 0) r (fun t => (t.ax 0).lat == [] && (told t 2).map (fun a => a.2.headD 0) == some 1) = true
      ∧ did (.cmpInfo 0 .p0 1) r (fun t => told t 0 == some (mbxOK, [5, 0, 0])) = true
      ∧ did (.peek 0 .p0 0) boxed (fun t => told t 0 == some (mbxOK, [0, 0x59542A01, 0, 0])) = true := by decide +kernel

end Sys2Proof.Tests
end

section
/-! SUPPORT. What a mailbox request and a completed calibration leave as they were, and the settling of the statements on the calibration. -/
open Sys2Proof Sys2Proof.Machine
namespace Sys2Proof.Machine

/-! ### The state on which a mailbox object is performed -/

/-- Operand words change registers alone. -/
theorem State.mbxData_regs (s : State) (set k : Nat) (ws : List Word) :
    s.mbxData set k ws = { s with regs := (s.mbxData set k ws).regs } := by
  induction ws generalizing s k with
  | nil => rfl
  | cons w ws ih => exact ih (s.rset (rMBX_DATA set k) w) (k + 1)

/-- Placing a request changes registers alone. -/
theorem State.asked_regs (s : State) (set code op : Nat) (i : BitVec 14) (ops : List Word) :
    s.asked set code op i ops = { s with regs := (s.asked set code op i ops).regs } := by
  unfold State.asked
  rw [State.mbxData_regs]
  rfl

@[simp] theorem State.asked_su (s : State) (set code op : Nat) (i : BitVec 14) (ops : List Word) :
    (s.asked set code op i ops).su = s.su := by rw [State.asked_regs]
@[simp] theorem State.asked_axes (s : State) (set code op : Nat) (i : BitVec 14) (ops : List Word) :
    (s.asked set code op i ops).axes = s.axes := by rw [State.asked_regs]

/-- A request leaves every working copy. -/
@[simp] theorem State.asked_wflag (s : State) (set code op : Nat) (i : BitVec 14) (ops : List Word) (o : Nat) (b : Sh) :
    (s.asked set code op i ops).wflag o b = s.wflag o b := by
  simp only [State.asked, State.mbxBusy, State.wflag, State.wfld, State.fset, State.wget_rset, State.wget_mbxData]

/-- A request without operands leaves every register but the request and the status of its set. -/
theorem State.rget_asked_nil (s : State) (set code op : Nat) (i : BitVec 14) {o : Nat} (hq : o ≠ rMBX_REQ set) (hs : o ≠ rMBX_STAT set) :
    (s.asked set code op i []).rget o = s.rget o := by
  simp only [State.asked, State.mbxBusy, State.mbxData, State.rget_fset_ne _ _ _ hs, State.rget_rset_ne _ _ hq]

/-- The startup phase is not told by the mailbox. -/
theorem State.phase_asked (s : State) (set : Fin 4) (code op : Nat) (i : BitVec 14) :
    (s.asked set code op i []).fget rSU_STAT fSU_STAT_PHASE = s.fget rSU_STAT fSU_STAT_PHASE := by
  unfold State.fget
  rw [State.rget_asked_nil] <;> simp only [rSU_STAT, rMBX_REQ, rMBX_STAT] <;> omega

/-! ### Calibration -/

theorem execCalibrationStart_due (s : State) (hd : s.flag rSU_STAT fSU_STAT_CALDONE = false) (hl : s.link 24 = lkUP)
    (hp : s.su.poreset = false) (hs : s.su.sysreset = false) (hr : s.su.railFault = false) :
    execCalibrationStart s = .next { s with su := { s.su with calRun := true } } := by
  simp [execCalibrationStart, hd, hl, hp, hs, hr]

/-- The corrections of a result read back under its index (R533, R537). -/
theorem tget_calTake (m : Tbl Word) (r : CalResult) (h : r.index.toNat < 24) {k : Nat} (hk : k < 4) :
    tget (calNone k) (calTake m r) (4 * r.index.toNat + k) = (calWords r).getD k 0 := by
  have hs : ∀ (a b : Nat) (v : Word) (m : Tbl Word), a ≠ b → tget (calNone a) (tset (calNone b) m (4 * r.index.toNat + b) v)
      (4 * r.index.toNat + a) = tget (calNone a) m (4 * r.index.toNat + a) :=
    fun a b v m hab => tget_tset_ne _ _ _ _ (by omega)
  rw [calTake, if_neg (by omega)]
  simp only [List.range_succ, List.range_zero, List.nil_append, List.foldl_append, List.foldl_cons, List.foldl_nil]
  obtain rfl | rfl | rfl | rfl : k = 0 ∨ k = 1 ∨ k = 2 ∨ k = 3 := by omega
  · rw [hs _ _ _ _ (by decide), hs _ _ _ _ (by decide), hs _ _ _ _ (by decide), tget_tset_same]
  · rw [hs _ _ _ _ (by decide), hs _ _ _ _ (by decide), tget_tset_same]
  · rw [hs _ _ _ _ (by decide), tget_tset_same]
  · rw [tget_tset_same]

/-- The end of a calibration that runs (R533). -/
theorem execCalibrationComplete_runs (s : State) (h : s.su.calRun = true) (fail : BitVec 16) (rs : List CalResult) :
    execCalibrationComplete fail rs s = .next
      (({ s with su := { s.su with calRun := false, cal := rs.foldl calTake s.su.cal, calAt := s.now } } : State).raise rSU_STAT fSU_STAT_CALDONE
        |>.fset rSU_STAT fSU_STAT_CALFAIL fail.toNat) := by
  simp [execCalibrationComplete, h]

theorem calibrationComplete_completes (s : State) (h : s.su.calRun = true) (fail : BitVec 16) (r : CalResult) (hr : r.index.toNat < 24) :
    Completes (.calibrationComplete fail [r]) s (fun t => t.su.calRun = false ∧ t.su.calAt = s.now
      ∧ t.flag rSU_STAT fSU_STAT_CALDONE = true ∧ t.fget rSU_STAT fSU_STAT_CALFAIL = fail.toNat
      ∧ (∀ k < 4, tget (calNone k) t.su.cal (4 * r.index.toNat + k) = [r.w0, r.w1, r.w2, r.w3].getD k 0)
      ∧ t = { s with regs := t.regs, su := t.su } ∧ ∀ o ≠ rSU_STAT, t.rget o = s.rget o) := by
  refine ⟨_, execCalibrationComplete_runs s h fail [r], rfl, rfl, ?_, ?_, ?_, rfl, ?_⟩
  · rw [State.flag, State.fget_fset_field _ _ _ _ _ (by decide)]
    exact State.flag_raise _ _ _ (by decide) (by decide)
  · rw [State.fget_fset _ _ _ _ (by decide)]
    exact Nat.mod_eq_of_lt fail.isLt
  · exact fun k hk => tget_calTake s.su.cal r hr hk
  · intro o ho
    rw [State.rget_fset_ne _ _ _ ho, State.raise, State.rget_fset_ne _ _ _ ho]
    rfl

/-- CAL_READ on the state that a request leaves (R537): the corrections are those in force before it. -/
theorem calRead_completes (s : State) (set : Fin 4) (via : RegPath) (h : s.mbxFree set via) (i : BitVec 14) :
    (i.toNat < 16 → Completes (.calRead set via i) s (fun t => t.answers set mbxOK
      ([0, 1, 2, 3].map (fun j => tget (calNone j) s.su.cal (4 * i.toNat + j)) ++ words64 s.su.calAt)))
    ∧ (16 ≤ i.toNat → i.toNat < 24 → Completes (.calRead set via i) s (fun t => t.answers set mbxOK
      ([0, 1].map (fun j => tget (calNone j) s.su.cal (4 * i.toNat + j)) ++ [0, 0] ++ words64 s.su.calAt)))
    ∧ (24 ≤ i.toNat → i.toNat < 30 → Completes (.calRead set via i) s (fun t => ∃ w x y, t.answers set mbxOK [w, 0, 0, 0, x, y])) := by
  have key := State.mbx_answers s set via 0x091 0 i [] (mboCalRead i) h
  refine ⟨fun h1 => ⟨_, rfl, ?_⟩, fun h1 h2 => ⟨_, rfl, ?_⟩, fun h1 h2 => ⟨_, rfl, ?_⟩⟩
  · simpa [mboCalRead, h1] using key
  · simpa [mboCalRead, show ¬ i.toNat < 16 by omega, h2] using key
  · exact ⟨_, _, _, by simpa [mboCalRead, show ¬ i.toNat < 16 by omega, show ¬ i.toNat < 24 by omega, h2, words64] using key⟩

/-- CAL_RUN with no axis in the plan: the calibration runs (R534). -/
theorem mboCalRun_unplanned (s : State) (hp : s.fget rSU_STAT fSU_STAT_PHASE = 3) (hn : ∀ n < 256, s.inPlan n = false) :
    mboCalRun s = mbxRes { s with su := { s.su with calRun := true } } mbxOK := by
  have hf : allAxes.filter (fun n => s.inPlan n && s.axType n != tyVX && s.axTether n == 24) = [] :=
    List.filter_eq_nil_iff.2 (fun n hm => by simp [hn n (List.mem_range.1 hm)])
  simp [mboCalRun, State.ifReady, hp, hf]

theorem calRun_completes (s : State) (set : Fin 4) (via : RegPath) (h : s.mbxFree set via) (hp : s.fget rSU_STAT fSU_STAT_PHASE = 3)
    (hn : ∀ n < 256, s.inPlan n = false) :
    Completes (.calRun set via) s (fun t => t.answers set mbxOK [] ∧ t.su.calRun = true ∧ t.axes = s.axes) := by
  have hr := mboCalRun_unplanned (s.asked set 0x090 1 0 []) (by rw [State.phase_asked, hp])
    (fun n hl => by rw [State.inPlan, State.asked_wflag]; exact hn n hl)
  have hm := State.mbx_eq s set via 0x090 1 0 [] mboCalRun h
  have ha := State.mbx_answers s set via 0x090 1 0 [] mboCalRun h
  rw [hr] at hm ha
  refine ⟨_, rfl, ha, ?_, ?_⟩
  · rw [hm]; rfl
  · rw [hm]; exact State.asked_axes s set 0x090 1 0 []

/-! ### The scrubber -/

/-- A count changes registers alone. -/
theorem State.count_regs (s : State) (o : Nat) : s.count o = { s with regs := (s.count o).regs } := by
  simp only [State.count, State.countN]
  split <;> rfl

/-- What the scrubber counts changes registers alone (R27). -/
theorem scrubberCounts_regs (line : Nat) (hits : List (Nat × Bool)) (s : State) :
    ∃ R, hits.foldl (fun s u => if u.2 then (s.count rGLB_SRAM_UE).raise rGLB_STAT fGLB_STAT_SRAMUE
      else s.count (rGLB_SRAM_CE (line % 32))) s = { s with regs := R } := by
  induction hits generalizing s with
  | nil => exact ⟨s.regs, rfl⟩
  | cons u us ih =>
    rw [List.foldl_cons]
    obtain ⟨R, hR⟩ := ih (if u.2 then (s.count rGLB_SRAM_UE).raise rGLB_STAT fGLB_STAT_SRAMUE else s.count (rGLB_SRAM_CE (line % 32)))
    refine ⟨R, hR.trans ?_⟩
    split
    · rw [State.count_regs]; rfl
    · rw [State.count_regs]

theorem scrubberLine_completes (s : State) :
    Completes .scrubberLine s (fun t => t.scrub = (s.scrub + 1) % 163840 ∧ t.sram = s.sram
      ∧ (∀ u, u ∈ t.sramUpsets ↔ u ∈ s.sramUpsets ∧ (u.2 = true ∨ u.1 / 8 ≠ s.scrub))) := by
  obtain ⟨R, hR⟩ := scrubberCounts_regs s.scrub (s.sramUpsets.filter (fun u => u.1 / 8 == s.scrub))
    { s with scrub := (s.scrub + 1) % sramLines, sramUpsets := s.sramUpsets.filter (fun u => u.2 || u.1 / 8 != s.scrub) }
  refine ⟨_, congrArg Host.Outcome.next hR, rfl, rfl, fun u => ?_⟩
  simp [List.mem_filter]

end Sys2Proof.Machine

/-- Settles O11: clause by clause, each a lemma on its row. -/
theorem calibrationRows : Obligations.CalibrationRows := by
  unfold Obligations.CalibrationRows
  intro s
  refine ⟨fun hd hl hp hs hr => ⟨_, execCalibrationStart_due s hd hl hp hs hr, rfl⟩,
    fun h fail r hr => calibrationComplete_completes s h fail r hr,
    fun set via h i => calRead_completes s set via h i,
    fun set via h hp hn => calRun_completes s set via h hp hn,
    scrubberLine_completes s⟩
end

section
/-! SUPPORT. What a completion ring that is ready takes, what a counter shows after a count, and the settling of the statement on the frames
of the network. -/
open Sys2Proof Sys2Proof.Machine
namespace Sys2Proof.Machine

/-! ### Counters (R90) -/

/-- A count changes its register alone. -/
theorem State.count_wrote (s : State) (o : Nat) : (s.count o).wrote s [o] := by
  refine ⟨s.count_regs o, fun p hp => ?_⟩
  have hne : p ≠ o := fun h => hp (by simp [h])
  simp only [State.count, State.countN, State.raise]
  split
  · rw [State.rget_fset_ne _ _ _ hne, State.rget_fset_ne _ _ _ hne]
  · exact State.rget_fset_ne _ _ _ hne

/-- A count adds one and stops at 0xFFFF. -/
theorem State.fget_count (s : State) (o : Nat) : (s.count o).fget o cntBits = min 0xFFFF (s.fget o cntBits + 1) := by
  have hc : s.fget o cntBits < 2 ^ 16 := bget_lt _ _
  simp only [State.count, State.countN, State.raise]
  split
  · rw [State.fget_fset_field _ _ _ _ _ (by decide), State.fget_fset _ _ _ _ (by decide)]
    simp only [cntBits] at *
    omega
  · rw [State.fget_fset _ _ _ _ (by decide)]
    simp only [cntBits] at *
    omega

/-! ### A ready completion ring (R376, R390) -/

/-- What a message sends leaves every register but the pending bits. -/
theorem State.rget_sendMsg (s : State) (v : Nat) {o : Nat} (h : o ≠ rMSIX_PBA (v / 32)) : (s.sendMsg v).rget o = s.rget o := by
  unfold State.sendMsg
  split
  · exact State.rget_fset_ne _ _ _ h
  · rfl

@[simp] theorem State.cq_sendMsg (s : State) (v q : Nat) : (s.sendMsg v).cq q = s.cq q := by
  unfold State.sendMsg
  split <;> rfl

/-- The interrupt test leaves the entries of its ring. -/
theorem State.cqTest_ring (s : State) (q : Nat) : ((s.cqTest q).cq q).ring = (s.cq q).ring := by
  unfold State.cqTest
  split
  · rw [State.cq_sendMsg, State.cq_updCq]
    rfl
  · rfl

/-- The interrupt test leaves the tail of its ring. -/
theorem State.cqTest_tail (s : State) (q : Nat) :
    (s.cqTest q).fget (rHIF_CQ_STAT q) fHIF_CQ_STAT_TAIL = s.fget (rHIF_CQ_STAT q) fHIF_CQ_STAT_TAIL := by
  unfold State.cqTest
  split
  · have hv : bget (s.rget (rHIF_CQ_CFG q)) fHIF_CQ_CFG_VEC < 64 := bget_lt _ _
    rw [State.fget, State.rget_sendMsg _ _ (by simp only [rHIF_CQ_STAT, rMSIX_PBA, State.fget]; omega)]
    exact State.fget_fset_field _ _ _ _ _ (by decide)
  · rfl

@[simp] theorem State.cq_fset (s : State) (o : Nat) (b : Bits) (x q : Nat) : (s.fset o b x).cq q = s.cq q := rfl
@[simp] theorem State.cq_hostWrite (s : State) (a : Nat) (bs : List Byte) (q : Nat) : (s.hostWrite a bs).cq q = s.cq q := rfl

theorem State.cqSize_pos (s : State) (q : Nat) : 0 < s.cqSize q := Nat.two_pow_pos _
theorem State.cqSize_le (s : State) (q : Nat) : s.cqSize q ≤ 2 ^ 12 := Nat.pow_le_pow_right (by decide) (by omega)

/-- An entry written stands last in its ring, and the tail is past it. -/
theorem State.cqWrite_entered (s : State) (q : Nat) (e : Cqe) : (s.cqWrite q e).entered s q e := by
  constructor
  · simp only [State.cqWrite, State.fsetb, State.cq_fset, State.cq_updCq, State.cq_hostWrite]
  · have hlt := Nat.mod_lt (s.fget (rHIF_CQ_STAT q) fHIF_CQ_STAT_TAIL + 1) (s.cqSize_pos q)
    simp only [State.cqWrite, State.fsetb]
    rw [State.fget_fset_field _ _ _ _ _ (by decide), State.fget_fset _ _ _ _ (by decide)]
    exact Nat.mod_eq_of_lt (Nat.lt_of_lt_of_le hlt (s.cqSize_le q))

/-- A ring that is ready takes the entry offered. -/
theorem State.cqOffer_entered (s : State) (q : Nat) (e : Cqe) (h : s.ringReady q) : (s.cqOffer q e).entered s q e := by
  obtain ⟨hen, hbl, hroom⟩ := h
  obtain ⟨hring, htail⟩ := s.cqWrite_entered q e
  rw [State.cqOffer, if_neg (by simp [hen]), if_pos ⟨hbl, hroom⟩]
  exact ⟨(State.cqTest_ring _ _).trans hring, (State.cqTest_tail _ _).trans htail⟩

/-- What an entry finds is told by its ring, the registers of the ring and the time alone. -/
theorem State.entered_congr {t u v : State} {q : Nat} {e : Cqe} (hr : (u.cq q).ring = (v.cq q).ring) (hn : u.now = v.now)
    (hs : u.rget (rHIF_CQ_STAT q) = v.rget (rHIF_CQ_STAT q)) (hc : u.rget (rHIF_CQ_CFG q) = v.rget (rHIF_CQ_CFG q)) :
    t.entered u q e → t.entered v q e := by
  simp only [State.entered, State.flag, State.fget, State.cqSize, hr, hn, hs, hc, imp_self]

/-- Whether a ring is ready is told by the ring and its configuration alone. -/
theorem State.ringReady_congr {u v : State} {q : Nat} (hq : u.cq q = v.cq q) (hc : u.rget (rHIF_CQ_CFG q) = v.rget (rHIF_CQ_CFG q)) :
    v.ringReady q → u.ringReady q := by
  simp only [State.ringReady, State.flag, State.fget, State.cqRoom, State.cqSize, hq, hc]
  exact id

/-! ### The completion of a frame descriptor (R391) -/

theorem State.sqCq_lt (s : State) (q : Nat) : s.sqCq q < 32 := bget_lt _ _

/-- The completion of a frame changes only what posting may change. -/
theorem State.frameDone_posted (s : State) (q : Nat) (tag : BitVec 16) (nocomp : Bool) (fid : BitVec 16) (status : Nat) (L : List Nat) :
    (s.frameDone q tag nocomp fid status).posted s L := by
  unfold State.frameDone
  split
  · exact State.posted_refl _ _
  · exact State.produce_posted _ _ _ (by rintro _ ⟨⟩; exact s.sqCq_lt q) _

/-- The completion of a frame enters the ring that is bound to the descriptor's. -/
theorem State.frameDone_entered (s : State) (q : Nat) (tag : BitVec 16) (nocomp : Bool) (fid : BitVec 16) (status : Nat)
    (hn : ¬(nocomp = true ∧ status = stOK)) (h : s.ringReady (s.sqCq q)) :
    (s.frameDone q tag nocomp fid status).entered s (s.sqCq q) (txEntry s.now tag fid status) := by
  rw [State.frameDone, if_neg hn]
  exact s.cqOffer_entered _ _ h

/-- The projections that posting keeps. -/
theorem State.posted_sqs {t u : State} {L : List Nat} (h : t.posted u L) : t.sqs = u.sqs := by rw [h.1]
theorem State.posted_txq {t u : State} {L : List Nat} (h : t.posted u L) : t.txq = u.txq := by rw [h.1]
theorem State.posted_txSent {t u : State} {L : List Nat} (h : t.posted u L) : t.txSent = u.txSent := by rw [h.1]

/-! ### Frames to the network (R391) -/

/-- The ring of a frame descriptor with that descriptor taken off staging. -/
def State.unstaged (s : State) (q : Nat) : State := s.updSq q (fun x => { x with staged := x.staged - 1 })

theorem State.unstaged_staged (s : State) (q : Nat) : ((s.unstaged q).sq q).staged = (s.sq q).staged - 1 := by
  rw [State.unstaged, State.sq_updSq]

/-- A descriptor that may be admitted is taken, checked in form and rights, and its data queued. -/
theorem execFrameTransmit_ready (s : State) (q : Fin 32) (opc flags : BitVec 8) (tag fid len : BitVec 16) (addr : BitVec 64) (canid : Word)
    (data : Dma Byte) (hq : s.sqReady q 1 false = true) (hf : s.sqPort q < 6) (hr : s.txRoom (s.sqPort q) len.toNat = true) :
    execFrameTransmit q opc flags tag fid len addr canid data s =
      .next (if frameFormat (s.sqPort q) opc flags len canid = false then (s.unstaged q).frameDone q tag (flags.getLsbD 1) fid stFORMAT
        else if s.opcOK 0 0x10 = false then ((s.unstaged q).deny 0).frameDone q tag (flags.getLsbD 1) fid stDENIED
        else match data with
          | .readErr => (s.unstaged q).frameDone q tag (flags.getLsbD 1) fid stDMAERR
          | .memErr => (s.unstaged q).frameDone q tag (flags.getLsbD 1) fid stMEMERR
          | .ok bs => (s.unstaged q).setTxq (s.sqPort q) (s.txq_ (s.sqPort q)
              ++ [⟨some q, tag, flags.getLsbD 1, flags.getLsbD 0, fid, canid, bs.take len.toNat⟩])) := by
  have ho : (s.unstaged q).opcOK 0 0x10 = s.opcOK 0 0x10 := rfl
  have hc : ¬((!s.sqReady q 1 false) = true ∨ 6 ≤ s.sqPort q ∨ (!s.txRoom (s.sqPort q) len.toNat) = true) := by simp [hq, hr, hf]
  unfold execFrameTransmit
  dsimp only
  rw [if_neg hc]
  simp only [← State.unstaged.eq_def, ho, Bool.not_eq_true']
  split
  · rfl
  · split
    · rfl
    · cases data <;> rfl

/-- A completion after a change that keeps the completion rings and the staging of `s` but for the descriptor taken. -/
theorem frameDone_fails (s u : State) (q : Fin 32) (tag fid : BitVec 16) (nocomp : Bool) (status : Nat) (hst : status ≠ stOK)
    (hu : u.wrote (s.unstaged q) [rPLAN_P_DENY 0]) (h : s.ringReady (s.sqCq q)) :
    (u.frameDone q tag nocomp fid status).entered s (s.sqCq q) (txEntry s.now tag fid status)
      ∧ ((u.frameDone q tag nocomp fid status).sq q).staged = (s.sq q).staged - 1
      ∧ (u.frameDone q tag nocomp fid status).txq = s.txq := by
  obtain ⟨hform, hreg⟩ := hu
  have rstat : u.rget (rHIF_CQ_STAT (s.sqCq q)) = s.rget (rHIF_CQ_STAT (s.sqCq q)) :=
    hreg _ (by simp only [List.mem_singleton, rHIF_CQ_STAT, rPLAN_P_DENY]; omega)
  have rcfg : u.rget (rHIF_CQ_CFG (s.sqCq q)) = s.rget (rHIF_CQ_CFG (s.sqCq q)) :=
    hreg _ (by simp only [List.mem_singleton, rHIF_CQ_CFG, rPLAN_P_DENY]; omega)
  have hcq : u.sqCq q = s.sqCq q := by
    have : u.rget (rHIF_SQ_CFG q) = s.rget (rHIF_SQ_CFG q) :=
      hreg _ (by simp only [List.mem_singleton, rHIF_SQ_CFG, rPLAN_P_DENY]; omega)
    simp only [State.sqCq, State.fget, this]
  have hc : u.cq (s.sqCq q) = s.cq (s.sqCq q) := by rw [hform]; rfl
  have hnow : u.now = s.now := by rw [hform]; rfl
  have hp := u.frameDone_posted q tag nocomp fid status []
  refine ⟨?_, ?_, ?_⟩
  · have he := u.frameDone_entered q tag nocomp fid status (fun hn => hst hn.2) (by rw [hcq]; exact State.ringReady_congr hc rcfg h)
    rw [hcq, hnow] at he
    exact State.entered_congr (by rw [hc]) hnow rstat rcfg he
  · rw [State.sq, State.posted_sqs hp, hform]
    exact s.unstaged_staged q
  · rw [State.posted_txq hp, hform]
    rfl

theorem State.wrote_refl (s : State) (L : List Nat) : s.wrote s L := ⟨rfl, fun _ _ => rfl⟩

theorem State.txq_setTxq (s : State) (f : Nat) (l : List TxItem) : (s.setTxq f l).txq_ f = l := by simp [State.txq_, State.setTxq]

/-- FRAME_TRANSMIT: what refuses a frame completes its descriptor; else its data wait in the port's queue (R391). -/
theorem frameTransmit_completes (s : State) (q : Fin 32) (opc flags : BitVec 8) (tag fid len : BitVec 16) (addr : BitVec 64) (canid : Word)
    (data : Dma Byte) (hq : s.sqReady q 1 false = true) (hf : s.sqPort q < 6) (hr : s.txRoom (s.sqPort q) len.toNat = true) :
    let f := s.sqPort q
    let fails := fun (status : Nat) => s.ringReady (s.sqCq q) → Completes (.frameTransmit q opc flags tag fid len addr canid data) s (fun t =>
      t.entered s (s.sqCq q) (txEntry s.now tag fid status) ∧ (t.sq q).staged = (s.sq q).staged - 1 ∧ t.txq = s.txq)
    (frameFormat f opc flags len canid = false → fails 3)
    ∧ (frameFormat f opc flags len canid = true → s.opcOK 0 0x10 = false → fails 4)
    ∧ (frameFormat f opc flags len canid = true → s.opcOK 0 0x10 = true → data = .readErr → fails 9)
    ∧ (frameFormat f opc flags len canid = true → s.opcOK 0 0x10 = true → data = .memErr → fails 0xB)
    ∧ (∀ bs, frameFormat f opc flags len canid = true → s.opcOK 0 0x10 = true → data = .ok bs →
        Completes (.frameTransmit q opc flags tag fid len addr canid data) s (fun t => (∃ i : TxItem, t.txq_ f = s.txq_ f ++ [i]
          ∧ i.q = some q.val ∧ i.tag = tag ∧ i.frameId = fid ∧ i.canid = canid ∧ i.data = bs.take len.toNat)
          ∧ (t.sq q).staged = (s.sq q).staged - 1 ∧ t.regs = s.regs ∧ t.cqs = s.cqs)) := by
  have key := execFrameTransmit_ready s q opc flags tag fid len addr canid data hq hf hr
  have kept : (s.unstaged q).wrote (s.unstaged q) [rPLAN_P_DENY 0] := State.wrote_refl _ _
  refine ⟨fun h1 hc => ⟨_, key, ?_⟩, fun h1 h2 hc => ⟨_, key, ?_⟩, fun h1 h2 h3 hc => ⟨_, key, ?_⟩, fun h1 h2 h3 hc => ⟨_, key, ?_⟩,
    fun bs h1 h2 h3 => ⟨_, key, ?_⟩⟩
  · rw [if_pos h1]
    exact frameDone_fails s _ q _ _ _ _ (by decide) kept hc
  · rw [if_neg (by simp [h1]), if_pos h2]
    exact frameDone_fails s _ q _ _ _ _ (by decide) (State.count_wrote _ _) hc
  · rw [if_neg (by simp [h1]), if_neg (by simp [h2]), h3]
    exact frameDone_fails s _ q _ _ _ _ (by decide) kept hc
  · rw [if_neg (by simp [h1]), if_neg (by simp [h2]), h3]
    exact frameDone_fails s _ q _ _ _ _ (by decide) kept hc
  · rw [if_neg (by simp [h1]), if_neg (by simp [h2]), h3]
    exact ⟨⟨_, State.txq_setTxq _ _ _, rfl, rfl, rfl, rfl, rfl⟩, s.unstaged_staged q, rfl, rfl⟩

/-- The state of a port whose first frame has left or could not be sent. -/
def State.txLeft (s : State) (f : Nat) (i : TxItem) (rest : List TxItem) : State :=
  if s.portSends f i then { s.setTxq f rest with txSent := tset [] s.txSent f i.data } else s.setTxq f rest

/-- FRAME_TX_DONE for a frame that asks for no timestamp. -/
theorem execFrameTxDone_untimed (s : State) (f : Fin 6) (i : TxItem) (rest : List TxItem) (q : Nat) (hx : s.txq_ f = i :: rest)
    (hq : i.q = some q) (ht : i.tsreq = false) :
    execFrameTxDone f s = .next ((s.txLeft f i rest).frameDone q i.tag i.nocomp i.frameId (if s.portSends f i then stOK else stREFUSED)) := by
  simp only [execFrameTxDone, hx, hq, ht, Bool.false_eq_true, and_false, if_false]
  rfl

theorem frameTxDone_completes (s : State) (f : Fin 6) (i : TxItem) (rest : List TxItem) (q : Nat) (hx : s.txq_ f = i :: rest)
    (hq : i.q = some q) (hn : i.nocomp = false) (ht : i.tsreq = false) (hr : s.ringReady (s.sqCq q)) :
    Completes (.frameTxDone f) s (fun t => t.txq_ f = rest
      ∧ t.entered s (s.sqCq q) (txEntry s.now i.tag i.frameId (if s.portSends f i then 0 else 5))
      ∧ (s.portSends f i = true → tget [] t.txSent f = i.data)) := by
  have hu : ∃ x, s.txLeft f i rest = { s.setTxq f rest with txSent := x } := by
    unfold State.txLeft
    split
    · exact ⟨_, rfl⟩
    · exact ⟨s.txSent, rfl⟩
  have hp := (s.txLeft f i rest).frameDone_posted q i.tag i.nocomp i.frameId (if s.portSends f i then stOK else stREFUSED) []
  refine ⟨_, execFrameTxDone_untimed s f i rest q hx hq ht, ?_, ?_, fun hs => ?_⟩
  · obtain ⟨x, hu⟩ := hu
    rw [State.txq_, State.posted_txq hp, hu]
    exact State.txq_setTxq s f rest
  · obtain ⟨x, hu⟩ := hu
    have he := ({ s.setTxq f rest with txSent := x } : State).frameDone_entered q i.tag i.nocomp i.frameId
      (if s.portSends f i then stOK else stREFUSED) (by simp [hn]) hr
    rw [hu]
    exact he
  · rw [State.posted_txSent hp, State.txLeft, if_pos hs]
    exact tget_tset_same _ _ _ _

/-! ### Frames from the network (R392, R393, R423) -/

theorem State.rxCount_pos (s : State) (f : Nat) : 0 < s.rxCount f := Nat.two_pow_pos _
theorem State.rxCount_le (s : State) (f : Nat) : s.rxCount f ≤ 2 ^ 12 := Nat.pow_le_pow_right (by decide) (by omega)

/-- The registers of the receive rings are no registers of posting. -/
theorem rxStat_not_post {f : Nat} (h : f < 6) : postReg (rHIF_RX_STAT f) = false ∧ ¬ cqBase (rHIF_RX_STAT f) := by
  refine ⟨?_, ?_⟩
  · rw [← Bool.not_eq_true]
    intro hp
    simp only [postReg, Bool.or_eq_true, List.any_eq_true, List.mem_range, beq_iff_eq, rHIF_RX_STAT, rHIF_CQ_STAT, rHIF_CQ_LOST, rMSIX_PBA,
      rFLOG_STAT, rFLOG_LOST] at hp
    obtain ((⟨q, _, h⟩ | ⟨q, _, h⟩) | h) | ⟨q, _, h⟩ := hp <;> omega
  · rintro ⟨q, hq, hb⟩
    simp only [rHIF_RX_STAT, rHIF_CQ_BASE_LO, rHIF_CQ_BASE_HI] at hb
    omega

/-- Where the buffers of a receive ring begin (R392). -/
def State.rxBase (s : State) (f : Nat) : Nat := (join64 (s.rget (rHIF_RX_BASE_LO f)) (s.rget (rHIF_RX_BASE_HI f))).toNat / 64 * 64

/-- A frame that fits goes to the buffer at the head of an enabled ring with a free buffer, and its entry is posted. -/
theorem State.rxStore_buffered (s : State) {f : Nat} (bytes : List Byte) (flags canid : Nat) (t : FTime) (hf : f < 6)
    (hen : s.flag (rHIF_RX_CFG f) fHIF_RX_CFG_EN = true) (hl : bytes.length ≤ s.rxSize f)
    (hh : s.fget (rHIF_RX_STAT f) fHIF_RX_STAT_HEAD ≠ s.fget (rHIF_RX_STAT f) fHIF_RX_STAT_FREE) :
    (s.rxStore f bytes flags canid t).fget (rHIF_RX_STAT f) fHIF_RX_STAT_HEAD = (s.fget (rHIF_RX_STAT f) fHIF_RX_STAT_HEAD + 1) % s.rxCount f
      ∧ ∃ h, (s.rxStore f bytes flags canid t).posted { s with host := h } [rHIF_RX_STAT f]
        ∧ bytesAt h s.host (s.rxBase f + s.fget (rHIF_RX_STAT f) fHIF_RX_STAT_HEAD * s.rxSize f) bytes := by
  obtain ⟨hpost, hbase⟩ := rxStat_not_post hf
  have hlt := Nat.mod_lt (s.fget (rHIF_RX_STAT f) fHIF_RX_STAT_HEAD + 1) (s.rxCount_pos f)
  unfold State.rxStore
  dsimp only
  rw [if_neg (by simp [hen]), if_neg (by omega), if_neg hh]
  constructor
  · rw [State.fget, (State.produce_posted _ _ _ (by rintro _ ⟨⟩; exact bget_lt _ _) []).2.1 _ hpost (by simp)]
    exact (State.fget_fset _ _ _ _ (by decide)).trans (Nat.mod_eq_of_lt (Nat.lt_of_lt_of_le hlt (s.rxCount_le f)))
  · refine ⟨memWrite s.host (s.rxBase f + s.fget (rHIF_RX_STAT f) fHIF_RX_STAT_HEAD * s.rxSize f) bytes, ?_, fun k => tget_memWrite _ _ _ _⟩
    exact State.posted_trans (State.produce_posted _ _ _ (by rintro _ ⟨⟩; exact bget_lt _ _) _)
      (State.fset_posted _ _ _ (.inr (by simp)) hbase)

/-- A broadcast that is no master message passes the filter (R393). -/
theorem execEthFrameReceive_broadcast (s : State) (e : Fin 2) (et : BitVec 16) (data : List Byte) (ht : et ≠ 0x88B5)
    (hen : s.flag (rNET_ETH_CFG e) fNET_ETH_CFG_EN = true) :
    execEthFrameReceive e 0xFFFFFFFFFFFF et data true false s
      = .next ((s.drew 1).rxStore e data 2 0 (s.ethStamp e s.now fFTM_ETH_LAT_RXLAT)) := by
  have hm : (et == 0x88B5) = false := beq_false_of_ne ht
  unfold execEthFrameReceive
  dsimp only
  rw [if_neg (by simp [hen]), if_neg (by decide), if_neg (by decide), hm]
  simp only [Bool.false_and, Bool.false_eq_true, if_false, Bool.true_or, Bool.or_true, beq_self_eq_true, if_true]
  rfl

/-- A frame that finds the core-side queue full, and one whose check sequence is wrong, are counted (R21, R393). -/
theorem execEthFrameReceive_counted (s : State) (e : Fin 2) (dst : BitVec 48) (et : BitVec 16) (data : List Byte)
    (hen : s.flag (rNET_ETH_CFG e) fNET_ETH_CFG_EN = true) :
    (∀ fcs, execEthFrameReceive e dst et data fcs true s = .next (s.count (rNET_ETH_CNT e 0)))
      ∧ execEthFrameReceive e dst et data false false s = .next (s.count (rNET_ETH_CNT e 1)) := by
  unfold execEthFrameReceive
  exact ⟨fun fcs => by rw [if_neg (by simp [hen]), if_pos rfl],
    by rw [if_neg (by simp [hen]), if_neg (by decide), if_pos (by decide)]⟩

theorem ethFrameReceive_completes (s : State) (e : Fin 2) (dst : BitVec 48) (et : BitVec 16) (data : List Byte)
    (hen : s.flag (rNET_ETH_CFG e) fNET_ETH_CFG_EN = true) :
    (∀ fcs, Completes (.ethFrameReceive e dst et data fcs true) s (fun t => t.wrote s [rNET_ETH_CNT e 0]
      ∧ t.fget (rNET_ETH_CNT e 0) cntBits = min 0xFFFF (s.fget (rNET_ETH_CNT e 0) cntBits + 1)))
    ∧ Completes (.ethFrameReceive e dst et data false false) s (fun t => t.wrote s [rNET_ETH_CNT e 1]
      ∧ t.fget (rNET_ETH_CNT e 1) cntBits = min 0xFFFF (s.fget (rNET_ETH_CNT e 1) cntBits + 1))
    ∧ (dst = 0xFFFFFFFFFFFF → et ≠ 0x88B5 → s.flag (rHIF_RX_CFG e) fHIF_RX_CFG_EN = true → data.length ≤ s.rxSize e →
        let head := s.fget (rHIF_RX_STAT e) fHIF_RX_STAT_HEAD
        head ≠ s.fget (rHIF_RX_STAT e) fHIF_RX_STAT_FREE → Completes (.ethFrameReceive e dst et data true false) s (fun t =>
          t.fget (rHIF_RX_STAT e) fHIF_RX_STAT_HEAD = (head + 1) % s.rxCount e
          ∧ ∃ u : State, u = { s with host := u.host, freeCtr := u.freeCtr } ∧ t.posted u [rHIF_RX_STAT e]
            ∧ bytesAt u.host s.host (s.rxBase e + head * s.rxSize e) data)) := by
  obtain ⟨hfull, hfcs⟩ := execEthFrameReceive_counted s e dst et data hen
  refine ⟨fun fcs => ⟨_, hfull fcs, s.count_wrote _, s.fget_count _⟩, ⟨_, hfcs, s.count_wrote _, s.fget_count _⟩, ?_⟩
  rintro rfl ht hrx hl head hh
  obtain ⟨hhead, h, hp, hb⟩ := (s.drew 1).rxStore_buffered data 2 0 (s.ethStamp e s.now fFTM_ETH_LAT_RXLAT) (show e.val < 6 by omega) hrx hl hh
  exact ⟨_, execEthFrameReceive_broadcast s e et data ht hen, hhead, _, rfl, hp, hb⟩

/-- The state after the frame of a CAN controller has been stamped (R393). -/
def State.canTaken (s : State) (c : Nat) : State := { s with canT := tset none s.canT c (some s.canStamp), freeCtr := s.freeCtr + 1 }

/-- The flags of a frame of the classic format in its entry (R393). -/
def canFlags (ide brs esi : Bool) : Nat := (if ide then 1 else 0) + 0 + (if brs then 4 else 0) + if esi then 8 else 0

/-- A frame of the classic format without an entry of the table: to the host or counted (R423). -/
theorem execCanFrameReceive_unmatched (s : State) (c : Fin 4) (id : BitVec 29) (ide brs esi : Bool) (data : List Byte)
    (hen : s.flag (rNET_CAN_CFG c) fNET_CAN_CFG_EN = true) (hl : s.canLookup c id ide = none) :
    execCanFrameReceive c id ide false brs esi data false s = .next (if s.wflag (rPLAN_CAN_CFG c) fPLAN_CAN_CFG_DEFHOST then
        (s.canTaken c).rxStore (2 + c.val) data (canFlags ide brs esi) id.toNat s.canStamp else (s.canTaken c).count (rPLAN_CAN_NOMATCH c)) := by
  have hl' : ({ (s.drew 1) with canT := tset none s.canT c (some s.canStamp) } : State).canLookup c id ide = none := hl
  unfold execCanFrameReceive
  dsimp only
  rw [if_neg (by simp [hen]), if_neg (by decide)]
  simp only [hl']
  rfl

theorem execCanFrameReceive_full (s : State) (c : Fin 4) (id : BitVec 29) (ide brs esi : Bool) (data : List Byte)
    (hen : s.flag (rNET_CAN_CFG c) fNET_CAN_CFG_EN = true) :
    execCanFrameReceive c id ide false brs esi data true s = .next (s.count (rNET_CAN_CNT c 0)) := by
  unfold execCanFrameReceive
  rw [if_neg (by simp [hen]), if_pos rfl]

/-- The stamp of a frame lies within the CAN clock before now (R393). -/
theorem canStamp_near (s : State) : reached s.now s.canStamp = true ∧ tdiff s.now s.canStamp < 200 := by
  have hlt : (s.free 0).toNat % canClock < 200 := Nat.mod_lt _ (by decide)
  have hd : tdiff s.now s.canStamp = ((s.free 0).toNat % canClock : Nat) := by
    rw [tdiff, State.canStamp, sub_sub_cancel, BitVec.toInt_ofNat']
    exact Int.bmod_eq_of_le (by omega) (by omega)
  exact ⟨by simp only [reached, hd, decide_eq_true_eq]; omega, by omega⟩

theorem canFrameReceive_completes (s : State) (c : Fin 4) (id : BitVec 29) (ide brs esi : Bool) (data : List Byte)
    (hen : s.flag (rNET_CAN_CFG c) fNET_CAN_CFG_EN = true) :
    Completes (.canFrameReceive c id ide false brs esi data true) s (fun t => t.wrote s [rNET_CAN_CNT c 0]
      ∧ t.fget (rNET_CAN_CNT c 0) cntBits = min 0xFFFF (s.fget (rNET_CAN_CNT c 0) cntBits + 1))
    ∧ (s.canLookup c id ide = none →
      (s.wflag (rPLAN_CAN_CFG c) fPLAN_CAN_CFG_DEFHOST = false → Completes (.canFrameReceive c id ide false brs esi data false) s (fun t =>
        t.wrote (s.canTaken c) [rPLAN_CAN_NOMATCH c]
        ∧ t.fget (rPLAN_CAN_NOMATCH c) cntBits = min 0xFFFF (s.fget (rPLAN_CAN_NOMATCH c) cntBits + 1)))
      ∧ (s.wflag (rPLAN_CAN_CFG c) fPLAN_CAN_CFG_DEFHOST = true → s.flag (rHIF_RX_CFG (2 + c.val)) fHIF_RX_CFG_EN = true →
        data.length ≤ s.rxSize (2 + c.val) →
        let head := s.fget (rHIF_RX_STAT (2 + c.val)) fHIF_RX_STAT_HEAD
        head ≠ s.fget (rHIF_RX_STAT (2 + c.val)) fHIF_RX_STAT_FREE → Completes (.canFrameReceive c id ide false brs esi data false) s (fun t =>
          t.fget (rHIF_RX_STAT (2 + c.val)) fHIF_RX_STAT_HEAD = (head + 1) % s.rxCount (2 + c.val)
          ∧ ∃ x : State, x = { s.canTaken c with host := x.host } ∧ t.posted x [rHIF_RX_STAT (2 + c.val)]
            ∧ bytesAt x.host s.host (s.rxBase (2 + c.val) + head * s.rxSize (2 + c.val)) data))) := by
  refine ⟨⟨_, execCanFrameReceive_full s c id ide brs esi data hen, s.count_wrote _, s.fget_count _⟩, fun hl => ?_⟩
  have hx := execCanFrameReceive_unmatched s c id ide brs esi data hen hl
  refine ⟨fun hd => ⟨_, hx, ?_⟩, fun hd hrx hlen hh => ⟨_, hx, ?_⟩⟩
  · rw [if_neg (by simp [hd])]
    exact ⟨State.count_wrote _ _, State.fget_count _ _⟩
  · rw [if_pos hd]
    obtain ⟨hhead, h, hp, hb⟩ := (s.canTaken c).rxStore_buffered data (canFlags ide brs esi) id.toNat s.canStamp (show 2 + c.val < 6 by omega) hrx hlen hh
    exact ⟨hhead, _, rfl, hp, hb⟩

end Sys2Proof.Machine

/-- Settles O53: each clause by the lemma on its row. -/
theorem networkFrameRows : Obligations.NetworkFrameRows := by
  unfold Obligations.NetworkFrameRows
  intro s
  refine ⟨?_, ?_, ?_, ?_⟩
  · intro q opc flags tag fid len addr canid data f hq hf hr fails
    exact frameTransmit_completes s q opc flags tag fid len addr canid data hq hf hr
  · exact fun f i rest q hx hq hn ht hr => frameTxDone_completes s f i rest q hx hq hn ht hr
  · exact fun e dst et data hen => ethFrameReceive_completes s e dst et data hen
  · intro c id ide brs esi data hen
    obtain ⟨hfull, hnone⟩ := canFrameReceive_completes s c id ide brs esi data hen
    exact ⟨hfull, fun hl => ⟨s.canStamp, (canStamp_near s).1, (canStamp_near s).2, hnone hl⟩⟩
end

section
/-! SUPPORT. What the device knows of the traffic with its gondolas, and what leaves it. -/
open Sys2Proof Sys2Proof.Machine
namespace Sys2Proof.Machine

/-! ### The traffic record (R67, R89) -/

/-- What the device keeps of the frames of its gondolas and of those that its ports send. -/
structure Traffic where
  missRun : Nat → Nat
  vbus : Nat → BitVec 16
  cfg : Nat → List CfgReq
  sent : Nat → List Frame
  wire : Nat → List Byte
  seqCnt : Nat → Tbl (BitVec 8)

/-- The traffic record of a state. -/
def State.traffic (s : State) : Traffic where
  missRun k := (s.gd k).missRun
  vbus k := (s.gd k).vbus
  cfg k := (s.gd k).cfg
  sent t := (s.port t).sent
  wire t := (s.port t).wire
  seqCnt t := (s.port t).seqCnt

@[simp] theorem State.traffic_ite (c : Prop) [Decidable c] (a b : State) :
    (if c then a else b).traffic = if c then a.traffic else b.traffic := apply_ite _ _ _ _

@[simp] theorem State.traffic_foldl {α : Type} (f : State → α → State) (l : List α) (s : State)
    (h : ∀ s x, (f s x).traffic = s.traffic) : (l.foldl f s).traffic = s.traffic := by
  induction l generalizing s with
  | nil => rfl
  | cons x l ih => exact (ih _).trans (h s x)

@[simp] theorem State.traffic_setGd (s : State) (k : Nat) (d : GonDev)
    (h : d.missRun = (s.gd k).missRun ∧ d.vbus = (s.gd k).vbus ∧ d.cfg = (s.gd k).cfg) : (s.setGd k d).traffic = s.traffic := by
  obtain ⟨hm, hv, hc⟩ := h
  have hgd : ∀ j, (s.setGd k d).gd j = if j = k then d else s.gd j := fun j => by
    split
    · next hj => rw [hj, State.gd_setGd]
    · next hj => exact s.gd_setGd_ne d hj
  have hport : ∀ t, (s.setGd k d).port t = s.port t := fun _ => rfl
  simp only [State.traffic, hgd, hport, Traffic.mk.injEq, and_self, and_true]
  refine ⟨?_, ?_, ?_⟩ <;> funext j <;> split <;> simp_all

@[simp] theorem State.traffic_updGd (s : State) (k : Nat) (f : GonDev → GonDev)
    (h : ∀ d, (f d).missRun = d.missRun ∧ (f d).vbus = d.vbus ∧ (f d).cfg = d.cfg) : (s.updGd k f).traffic = s.traffic :=
  s.traffic_setGd k _ (h _)

@[simp] theorem State.traffic_updPort (s : State) (t : Nat) (f : PortDev → PortDev)
    (h : ∀ p, (f p).sent = p.sent ∧ (f p).wire = p.wire ∧ (f p).seqCnt = p.seqCnt) : (s.updPort t f).traffic = s.traffic := by
  obtain ⟨hs, hw, hq⟩ := h (s.port t)
  have hgd : ∀ j, (s.updPort t f).gd j = s.gd j := fun _ => rfl
  have hport : ∀ j, (s.updPort t f).port j = if j = t then f (s.port t) else s.port j := fun j => by
    split
    · next hj => rw [hj, State.port_updPort]
    · next hj => exact s.port_setPort_ne _ hj
  simp only [State.traffic, hgd, hport, Traffic.mk.injEq, true_and]
  refine ⟨?_, ?_, ?_⟩ <;> funext j <;> split <;> simp_all

/-! ### Operations that leave the traffic record -/

section
variable (s : State)

@[simp] theorem State.traffic_rset (o : Nat) (v : Word) : (s.rset o v).traffic = s.traffic := rfl
@[simp] theorem State.traffic_fset (o : Nat) (b : Bits) (x : Nat) : (s.fset o b x).traffic = s.traffic := rfl
@[simp] theorem State.traffic_fsetb (o : Nat) (b : Bits) (x : Bool) : (s.fsetb o b x).traffic = s.traffic := rfl
@[simp] theorem State.traffic_raise (o : Nat) (b : Bits) : (s.raise o b).traffic = s.traffic := rfl
@[simp] theorem State.traffic_setAx (n : Nat) (a : Axis) : (s.setAx n a).traffic = s.traffic := rfl
@[simp] theorem State.traffic_updAx (n : Nat) (f : Axis → Axis) : (s.updAx n f).traffic = s.traffic := rfl
@[simp] theorem State.traffic_setCe (i : Nat) (e : CmpEnt) : (s.setCe i e).traffic = s.traffic := rfl
@[simp] theorem State.traffic_setBg (b : Nat) (g : BusGrp) : (s.setBg b g).traffic = s.traffic := rfl
@[simp] theorem State.traffic_updBg (b : Nat) (f : BusGrp → BusGrp) : (s.updBg b f).traffic = s.traffic := rfl
@[simp] theorem State.traffic_updLn (l : Nat) (f : Lane → Lane) : (s.updLn l f).traffic = s.traffic := rfl
@[simp] theorem State.traffic_updCq (q : Nat) (f : Cq → Cq) : (s.updCq q f).traffic = s.traffic := rfl
@[simp] theorem State.traffic_setCmd (k : Nat) (x : Option OpenCmd) : (s.setCmd k x).traffic = s.traffic := rfl
@[simp] theorem State.traffic_hostWrite (a : Nat) (bs : List Byte) : (s.hostWrite a bs).traffic = s.traffic := rfl
@[simp] theorem State.traffic_withMig (x : Option Migration) : ({ s with mig := x } : State).traffic = s.traffic := rfl
@[simp] theorem State.traffic_withRepairs (x : List Nat) : ({ s with repairs := x } : State).traffic = s.traffic := rfl
@[simp] theorem State.traffic_sendStopreq (x : StopReqSrc) : (s.sendStopreq x).traffic = s.traffic := rfl

@[simp] theorem State.traffic_countN (o n : Nat) : (s.countN o n).traffic = s.traffic := by simp [State.countN]
@[simp] theorem State.traffic_count (o : Nat) : (s.count o).traffic = s.traffic := by simp [State.count]

/-! The flight log and the completion rings. -/

@[simp] theorem State.traffic_flogStage (r : BitVec 256) : (s.flogStage r).traffic = s.traffic := by
  unfold State.flogStage
  split <;> rfl
@[simp] theorem State.traffic_flogLose (typ : Nat) : (s.flogLose typ).traffic = s.traffic :=
  s.traffic_count (rFLOG_LOST (flogLostIdx typ))
@[simp] theorem State.traffic_flogAdd (typ source : Nat) (ft : FTime) (data : BitVec 128) : (s.flogAdd typ source ft data).traffic = s.traffic := by
  unfold State.flogAdd
  dsimp only
  repeat' split
  · rfl
  · rfl
  · rfl
  · exact State.traffic_flogLose _ _
  · exact State.traffic_flogStage _ _
@[simp] theorem State.traffic_flogTrigger (cause code : Nat) : (s.flogTrigger cause code).traffic = s.traffic := by
  unfold State.flogTrigger
  dsimp only
  repeat' split
  · exact s.traffic_flogAdd _ _ _ _
  · exact s.traffic_flogAdd _ _ _ _
  · rfl
@[simp] theorem State.traffic_sendMsg (v : Nat) : (s.sendMsg v).traffic = s.traffic := by
  unfold State.sendMsg
  split <;> rfl
@[simp] theorem State.traffic_cqOffer (q : Nat) (e : Cqe) : (s.cqOffer q e).traffic = s.traffic := by
  simp [State.cqOffer, State.cqTest, State.cqWrite]
@[simp] theorem State.traffic_produce (ring : Option Nat) (e : Cqe) : (s.produce ring e).traffic = s.traffic := by
  cases ring <;> simp [State.produce]
@[simp] theorem State.traffic_axEvent (n code data : Nat) (ft : FTime) : (s.axEvent n code data ft).traffic = s.traffic := by simp [State.axEvent]
@[simp] theorem State.traffic_devEvent (code source data : Nat) : (s.devEvent code source data).traffic = s.traffic := by simp [State.devEvent]
@[simp] theorem State.traffic_tthEvt (t bits : Nat) : (s.tthEvt t bits).traffic = s.traffic := by simp [State.tthEvt, State.tetherEvent]
@[simp] theorem State.traffic_complete (c : OpenCmd) (status payload : Nat) : (s.complete c status payload).traffic = s.traffic := by
  unfold State.complete
  split
  · rfl
  · cases c.src <;> simp
@[simp] theorem State.traffic_finish (k status payload : Nat) : (s.finish k status payload).traffic = s.traffic := by
  unfold State.finish
  split <;> simp

/-! Ports and the presence of gondolas. -/

@[simp] theorem State.traffic_tthStat (t : Nat) (b : Bits) (v : Nat) : (s.tthStat t b v).traffic = s.traffic := by simp [State.tthStat]
@[simp] theorem State.traffic_tthRaise (t bit : Nat) : (s.tthRaise t bit).traffic = s.traffic := by simp [State.tthRaise]
@[simp] theorem State.traffic_setLink (t v : Nat) : (s.setLink t v).traffic = s.traffic := by simp [State.setLink]
@[simp] theorem State.traffic_txQueue (t : Nat) (f : Frame) : (s.txQueue t f).traffic = s.traffic := by simp [State.txQueue]
@[simp] theorem State.traffic_ringBranch (e g : Nat) (up : Bool) : (s.ringBranch e g up).traffic = s.traffic := by simp [State.ringBranch]
@[simp] theorem State.traffic_ringClosed (e seg : Nat) : (s.ringClosed e seg).traffic = s.traffic := by simp [State.ringClosed]
@[simp] theorem State.traffic_checkAxes (t : Nat) : (s.checkAxes t).traffic = s.traffic := by simp [State.checkAxes]

/-- An attach enumeration forgets no gondola (R88). -/
@[simp] theorem State.traffic_startAttach (t : Nat) : (s.startEnum t true).traffic = s.traffic := by simp [State.startEnum]

@[simp] theorem State.traffic_portsReported (t g : Nat) (thru branch : Bool) : (s.portsReported t g thru branch).traffic = s.traffic := by
  have hr : ∀ d, (s.setGd (s.gk t g) d).ringEven t = s.ringEven t := fun _ => rfl
  unfold State.portsReported
  cases h : s.ringEven t <;> simp [hr, h]

/-! Axes and their causes. -/

@[simp] theorem State.traffic_noteLevels (n : Nat) : (s.noteLevels n).traffic = s.traffic := by simp [State.noteLevels]
@[simp] theorem State.traffic_faultCause (n code : Nat) (stop : Bool) : (s.faultCause n code stop).traffic = s.traffic := by
  simp [State.faultCause, State.cause]
@[simp] theorem State.traffic_busCause (n st : Nat) (stop : Bool) : (s.busCause n st stop).traffic = s.traffic := by simp [State.busCause]

/-! The transmit assembler (R17). -/

@[simp] theorem State.traffic_frameCheck (k : Nat) : (s.frameCheck k).traffic = s.traffic := by simp [State.frameCheck]
@[simp] theorem State.traffic_commitRec (k c : Nat) (r : BitVec 128) : (s.commitRec k c r).traffic = s.traffic := by simp [State.commitRec]
@[simp] theorem State.traffic_balCommit (b : Nat) : (s.balCommit b).traffic = s.traffic := by
  unfold State.balCommit
  split <;> simp
@[simp] theorem State.traffic_openTick (k : Nat) (tk : FTime) (j : Int) : (s.openTick k tk j).traffic = s.traffic := by simp [State.openTick]

/-! Bus groups. -/

@[simp] theorem State.traffic_balClrAnswer (b : Nat) : (s.balClrAnswer b).traffic = s.traffic := by
  unfold State.balClrAnswer
  split
  · rfl
  · split
    · rfl
    · split <;> simp [State.balClear, State.balClrRef]
@[simp] theorem State.traffic_balDeclare (b : Nat) : (s.balDeclare b).traffic = s.traffic := by
  unfold State.balDeclare
  split <;> simp
@[simp] theorem State.traffic_balCheck (b vb d0 : Nat) : (s.balCheck b vb d0).traffic = s.traffic := by simp [State.balCheck]
@[simp] theorem State.traffic_stageTrip (b : Nat) : (s.stageTrip b).traffic = s.traffic := by simp [State.stageTrip]
@[simp] theorem State.traffic_toStage (b st new vb : Nat) : (s.toStage b st new vb).traffic = s.traffic := by simp [State.toStage]
@[simp] theorem State.traffic_stageAscAxis (n : Nat) : (s.stageAscAxis n).traffic = s.traffic := by simp [State.stageAscAxis]
@[simp] theorem State.traffic_busEval (b vb : Nat) : (s.busEval b vb).traffic = s.traffic := by
  simp [State.busEval]
/-- The record that a bus group finds for its ballast channel is noted. -/
@[simp] theorem State.traffic_busTick (k vb : Nat) (recs : List (BitVec 128)) : (s.busTick k vb recs).traffic = s.traffic := by
  unfold State.busTick
  dsimp only
  rw [State.traffic_foldl _ _ _ (by simp), State.traffic_foldl]
  intro u b
  split
  · split
    · split <;> simp
    · rfl
  · rfl

/-! Position captures and compares. -/

@[simp] theorem State.traffic_latShow (n : Nat) : (s.latShow n).traffic = s.traffic := by simp [State.latShow]
@[simp] theorem State.traffic_latDrain (n k : Nat) : (s.latDrain n k).traffic = s.traffic := by
  induction k generalizing s with
  | zero => rfl
  | succ k ih =>
    unfold State.latDrain
    split
    · rfl
    · simp [ih]
@[simp] theorem State.traffic_latWrite (n : Nat) (w : LatWait) (t : FTime) (pos : BitVec 48) (flags : Nat) :
    (s.latWrite n w t pos flags).traffic = s.traffic := by simp [State.latWrite, State.latPush]
@[simp] theorem State.traffic_capture (n u src : Nat) (rising : Bool) (t : FTime) : (s.capture n u src rising t).traffic = s.traffic := by
  unfold State.capture
  dsimp only
  rw [State.traffic_latShow]
  split
  · simp [State.latArm]
  · split <;> simp [State.latArm]
@[simp] theorem State.traffic_latEdge (n src : Nat) (rising : Bool) (t : FTime) : (s.latEdge n src rising t).traffic = s.traffic := by
  simp [State.latEdge]
@[simp] theorem State.traffic_latResolve (n : Nat) (missing : Bool) : (s.latResolve n missing).traffic = s.traffic := by
  unfold State.latResolve
  dsimp only
  rw [State.traffic_latShow, State.traffic_foldl]
  · rfl
  · intro u w
    split <;> simp
@[simp] theorem State.traffic_cmpReport (i code : Nat) (t : FTime) (latT latCnt : Word) (pred : Bool) :
    (s.cmpReport i code t latT latCnt pred).traffic = s.traffic := by simp [State.cmpReport]
@[simp] theorem State.traffic_cmpSend (i : Nat) : (s.cmpSend i).traffic = s.traffic := by simp [State.cmpSend]
@[simp] theorem State.traffic_cmpFire (i : Nat) (tf : FTime) (latT latCnt : Int) (pred late : Bool) :
    (s.cmpFire i tf latT latCnt pred late).traffic = s.traffic := by simp [State.cmpFire]
@[simp] theorem State.traffic_cmpPredict (i : Nat) (t : FTime) (p : Int) : (s.cmpPredict i t p).traffic = s.traffic := by
  unfold State.cmpPredict
  dsimp only
  split <;> simp
@[simp] theorem State.traffic_cmpEvalOne (i : Nat) (prev : Option (FTime × Val)) (t : FTime) (p : Int) :
    (s.cmpEvalOne i prev t p).traffic = s.traffic := by simp [State.cmpEvalOne]
@[simp] theorem State.traffic_cmpEval (n psrc : Nat) (t : FTime) (p : Val) : (s.cmpEval n psrc t p).traffic = s.traffic := by
  simp [State.cmpEval]
@[simp] theorem State.traffic_cmpRelease : s.cmpRelease.traffic = s.traffic := by
  simp [State.cmpRelease, State.cmpDone, State.cmpFree]

/-! The feedback stage. -/

@[simp] theorem State.traffic_hallAngle (n : Nat) (ok : Bool) : (s.hallAngle n ok).traffic = s.traffic := by simp [State.hallAngle]
@[simp] theorem State.traffic_speedBound (n : Nat) (ts : FTime) : (s.speedBound n ts).traffic = s.traffic := by
  unfold State.speedBound
  dsimp only
  split <;> simp
@[simp] theorem State.traffic_speedPair (n : Nat) (te tk : FTime) : (s.speedPair n te tk).traffic = s.traffic := by simp [State.speedPair]
@[simp] theorem State.traffic_speedStep (n : Nat) (r : BitVec 128) (ts tk : FTime) (moved : Bool) :
    (s.speedStep n r ts tk moved).traffic = s.traffic := by simp [State.speedStep]
@[simp] theorem State.traffic_sumMoved (n : Nat) (old : Int) (ft : FTime) : (s.sumMoved n old ft).traffic = s.traffic := by
  simp [State.sumMoved, State.addTurns]
@[simp] theorem State.traffic_decideShift (n : Nat) (d : Int) : (s.decideShift n d).traffic = s.traffic := by simp [State.decideShift]
@[simp] theorem State.traffic_indexEdge (n : Nat) (r : BitVec 128) (ft : FTime) : (s.indexEdge n r ft).traffic = s.traffic := by
  simp [State.indexEdge]
@[simp] theorem State.traffic_hallCheck (n : Nat) (r : BitVec 128) : (s.hallCheck n r).traffic = s.traffic := by
  unfold State.hallCheck
  dsimp only
  split <;> simp
@[simp] theorem State.traffic_countRecord (n : Nat) (r : BitVec 128) (ts tk : FTime) : (s.countRecord n r ts tk).traffic = s.traffic := by
  simp [State.countRecord]
@[simp] theorem State.traffic_ssiRead (n : Nat) (r : BitVec 128) : (s.ssiRead n r).traffic = s.traffic := by simp [State.ssiRead]
@[simp] theorem State.traffic_illRecord (n : Nat) (r : BitVec 128) (ft : FTime) : (s.illRecord n r ft).traffic = s.traffic := by
  unfold State.illRecord
  split
  · rfl
  · dsimp only
    split <;> simp
@[simp] theorem State.traffic_feedback (n : Nat) (r : BitVec 128) (ts tk : FTime) : (s.feedback n r ts tk).traffic = s.traffic := by
  simp [State.feedback]

/-! The records of a frame and the events of its axes (R176, R354). -/

@[simp] theorem State.traffic_takeDelay (n d c : Nat) : (s.takeDelay n d c).traffic = s.traffic := by simp [State.takeDelay]
@[simp] theorem State.traffic_planApplied (n : Nat) (applyT : FTime) : (s.planApplied n applyT).traffic = s.traffic := by simp [State.planApplied]
@[simp] theorem State.traffic_measure (k n : Nat) (tk : FTime) (period : Nat) (missed : Bool) (applyT : FTime) :
    (s.measure k n tk period missed applyT).traffic = s.traffic := by
  unfold State.measure
  dsimp only
  split
  · rfl
  · split
    · simp
    · split <;> simp
@[simp] theorem State.traffic_missRecord (n : Nat) : (s.missRecord n).traffic = s.traffic := by simp [State.missRecord]
@[simp] theorem State.traffic_deliver (k n : Nat) (tk : FTime) (r : BitVec 128) : (s.deliver k n tk r).traffic = s.traffic := by
  simp [State.deliver]
@[simp] theorem State.traffic_inboxWrite (n : Nat) (missed : Bool) : (s.inboxWrite n missed).traffic = s.traffic := by simp [State.inboxWrite]

@[simp] theorem State.traffic_evqShow (l : Nat) : (s.evqShow l).traffic = s.traffic := by simp [State.evqShow]
@[simp] theorem State.traffic_laneOff (l : Nat) : (s.laneOff l).traffic = s.traffic := by simp [State.laneOff]
@[simp] theorem State.traffic_lostRefresh : s.lostRefresh.traffic = s.traffic := by
  unfold State.lostRefresh
  dsimp only
  split <;> rfl
@[simp] theorem State.traffic_migEnd (m : Migration) (status : Nat) : (s.migEnd m status).traffic = s.traffic := by
  unfold State.migEnd
  dsimp only
  split <;> simp [State.flogCommit]
@[simp] theorem State.traffic_trapLane (l code : Nat) : (s.trapLane l code).traffic = s.traffic := by
  unfold State.trapLane
  dsimp only
  split
  · rfl
  · split
    · simp [↓State.traffic_migEnd, ↓State.traffic_ite, ↓State.traffic_withRepairs, State.setRole]
    · simp [↓State.traffic_ite, ↓State.traffic_withRepairs, State.setRole]
@[simp] theorem State.traffic_raiseEvent (l : Nat) (e : LEvent) : (s.raiseEvent l e).traffic = s.traffic := by
  simp [State.raiseEvent, State.traceEvent, State.trace]
@[simp] theorem State.traffic_frameEvents (ns : List Nat) (tk : FTime) (j : Int) (subst : Bool) (lanes : List Nat) :
    (s.frameEvents ns tk j subst lanes).traffic = s.traffic := by
  refine State.traffic_foldl _ _ _ fun u l => ?_
  split <;> simp
end
end Sys2Proof.Machine
end

section
/-! SUPPORT. The frames that a port receives: what an accepted frame does. -/
open Sys2Proof Sys2Proof.Machine
namespace Sys2Proof.Machine

/-! ### Changes of registers alone -/

theorem State.wrote_trans {s t u : State} {L M : List Nat} (h : u.wrote t L) (h' : t.wrote s M) : u.wrote s (L ++ M) := by
  obtain ⟨hu, hr⟩ := h
  obtain ⟨ht, hr'⟩ := h'
  refine ⟨by rw [hu, ht], fun o ho => ?_⟩
  rw [List.mem_append, not_or] at ho
  exact (hr o ho.1).trans (hr' o ho.2)

theorem State.wrote_mono {s u : State} {L M : List Nat} (h : u.wrote s L) (hs : ∀ o ∈ L, o ∈ M) : u.wrote s M :=
  ⟨h.1, fun o ho => h.2 o fun hm => ho (hs o hm)⟩

theorem State.fset_wrote (s : State) (o : Nat) (b : Bits) (x : Nat) : (s.fset o b x).wrote s [o] :=
  ⟨rfl, fun _ hp => s.rget_fset_ne b x fun h => hp (by simp [h])⟩

theorem State.countN_wrote (s : State) (o n : Nat) : (s.countN o n).wrote s [o] := by
  unfold State.countN
  dsimp only
  split
  · exact State.wrote_mono (State.wrote_trans (State.fset_wrote _ o _ _) (s.fset_wrote o _ _)) (by simp)
  · exact s.fset_wrote o _ _

/-- A counter of a port changes its register alone (R91). -/
theorem State.tthCountN_wrote (s : State) (t k n : Nat) : (s.tthCountN t k n).wrote s [rTTH_ERR t k] := by
  unfold State.tthCountN
  split
  · exact s.countN_wrote _ _
  · exact s.wrote_refl _

/-- What the plan says of a tether and its gondolas stands in the working copies. -/
theorem State.tetherKey_of_wrote {s u : State} {L : List Nat} (h : u.wrote s L) (t : Nat) : u.tetherKey t = s.tetherKey t := by rw [h.1]; rfl
theorem State.gk_of_wrote {s u : State} {L : List Nat} (h : u.wrote s L) (t g : Nat) : u.gk t g = s.gk t g := by rw [h.1]; rfl
theorem State.planChs_of_wrote {s u : State} {L : List Nat} (h : u.wrote s L) (k : Nat) : u.planChs k = s.planChs k := by rw [h.1]; rfl
theorem State.gd_of_wrote {s u : State} {L : List Nat} (h : u.wrote s L) (k : Nat) : u.gd k = s.gd k := by rw [h.1]; rfl

/-- Presence is told by the plan and by PRES0 and PRES1 of the tether. -/
theorem State.present_congr {s u : State} (t g : Nat) (hk : u.tetherKey t = s.tetherKey t)
    (h0 : s.tetherKey t < 24 → u.rget (rTTH_PRES0 (s.tetherKey t)) = s.rget (rTTH_PRES0 (s.tetherKey t)))
    (h1 : s.tetherKey t < 24 → u.rget (rTTH_PRES1 (s.tetherKey t)) = s.rget (rTTH_PRES1 (s.tetherKey t))) :
    u.present t g = s.present t g := by
  unfold State.present State.pairMask
  rw [hk]
  split
  · next hlt => rw [h0 hlt, h1 hlt]
  · rfl

/-! ### An accepted frame (R89) -/

/-- The port with its sets looked at: no code violation to count. -/
def State.rxSeen (s : State) (t : Nat) : State := s.tthCountN t cCVERR 0

theorem State.rxSeen_wrote (s : State) (t : Nat) : (s.rxSeen t).wrote s [rTTH_ERR t cCVERR] := s.tthCountN_wrote _ _ _

@[simp] theorem State.rxSeen_gd (s : State) (t k : Nat) : (s.rxSeen t).gd k = s.gd k := State.gd_of_wrote (s.rxSeen_wrote t) k
@[simp] theorem State.rxSeen_gk (s : State) (t j g : Nat) : (s.rxSeen t).gk j g = s.gk j g := State.gk_of_wrote (s.rxSeen_wrote t) j g
@[simp] theorem State.rxSeen_planChs (s : State) (t k : Nat) : (s.rxSeen t).planChs k = s.planChs k :=
  State.planChs_of_wrote (s.rxSeen_wrote t) k
@[simp] theorem State.rxSeen_present (s : State) (t j g : Nat) : (s.rxSeen t).present j g = s.present j g := by
  have h := s.rxSeen_wrote t
  refine State.present_congr _ _ (State.tetherKey_of_wrote h j) (fun hk => h.2 _ ?_) (fun hk => h.2 _ ?_) <;>
    simp only [rTTH_PRES0, rTTH_PRES1, rTTH_ERR, cCVERR, List.mem_singleton] <;> omega

/-- A frame received without a fault by a port in UP has its effect. -/
theorem State.rx_good (s : State) (t : Nat) (q : RxQual) (fr : Frame) (f : State → State) (hl : s.link t = lkUP) (hq : goodRx q fr) :
    s.rx t q fr f = f (s.rxSeen t) := by
  obtain ⟨hcv, hbt, hcrc, heof, hfmt, hfull, hwin⟩ := hq
  simp [State.rx, State.rxCheck, State.rxSeen, hl, hcv, hbt, hcrc, heof, hfmt, hfull, hwin]

/-! ### Credits (R68, R89) -/

/-- Credits that find room are returned. -/
theorem State.returnCredits_fit (s : State) (t g n : Nat) (h : (s.gd (s.gk t g)).credDn + n ≤ 15) :
    s.returnCredits t g n = (s.updGd (s.gk t g) (fun d => { d with credDn := min 15 ((s.gd (s.gk t g)).credDn + n) }), true) := by
  rw [State.returnCredits]
  exact if_neg (by omega)

/-- Credits beyond 15 are counted as a fault of the frame's form. -/
theorem State.returnCredits_over (s : State) (t g n : Nat) (h : 15 < (s.gd (s.gk t g)).credDn + n) :
    s.returnCredits t g n =
      ((s.updGd (s.gk t g) (fun d => { d with credDn := min 15 ((s.gd (s.gk t g)).credDn + n) })).tthCountN t cFMTERR 1, false) := by
  rw [State.returnCredits]
  exact if_pos h

/-- A change of the gondolas as the device sees them after and before a change of registers. -/
theorem State.wrote_updGd {s v u : State} {L M : List Nat} (k : Nat) (f : GonDev → GonDev) (hv : v.wrote s L)
    (hu : u.wrote (v.updGd k f) M) : u.gd k = f (s.gd k) ∧ u.wrote { s with gdev := u.gdev } (M ++ L) := by
  obtain ⟨hv1, hv2⟩ := hv
  obtain ⟨hu1, hu2⟩ := hu
  refine ⟨?_, ?_, fun o ho => ?_⟩
  · rw [hu1]
    show (v.updGd k f).gd k = _
    rw [State.gd_updGd, hv1]
    rfl
  · rw [hu1, hv1]
    rfl
  · rw [List.mem_append, not_or] at ho
    exact (hu2 o ho.1).trans (hv2 o ho.2)

/-- The credits returned to a gondola change its count alone, and the counter of faults when they are too many. -/
theorem State.returnCredits_seen (s : State) (t g n : Nat) :
    (((s.rxSeen t).returnCredits t g n).1.gd (s.gk t g)) = { s.gd (s.gk t g) with credDn := min 15 ((s.gd (s.gk t g)).credDn + n) }
      ∧ ((s.rxSeen t).returnCredits t g n).1.wrote { s with gdev := ((s.rxSeen t).returnCredits t g n).1.gdev }
        [rTTH_ERR t cCVERR, rTTH_ERR t cFMTERR] := by
  have hw : ∃ M, (∀ o ∈ M, o = rTTH_ERR t cFMTERR) ∧ ((s.rxSeen t).returnCredits t g n).1.wrote
      ((s.rxSeen t).updGd (s.gk t g) (fun d => { d with credDn := min 15 ((s.gd (s.gk t g)).credDn + n) })) M := by
    rcases Nat.lt_or_ge 15 ((s.gd (s.gk t g)).credDn + n) with h | h
    · refine ⟨[rTTH_ERR t cFMTERR], fun _ => List.mem_singleton.1, ?_⟩
      rw [State.returnCredits_over _ _ _ _ (by simpa using h)]
      simpa using State.tthCountN_wrote _ t cFMTERR 1
    · refine ⟨[], by simp, ?_⟩
      rw [State.returnCredits_fit _ _ _ _ (by simpa using h)]
      simpa using State.wrote_refl _ _
  obtain ⟨M, hM, hw⟩ := hw
  obtain ⟨hg, hr⟩ := State.wrote_updGd _ _ (s.rxSeen_wrote t) hw
  refine ⟨hg, State.wrote_mono hr fun o ho => ?_⟩
  rw [List.mem_append, List.mem_singleton] at ho
  rcases ho with ho | rfl
  · simp [hM o ho]
  · simp

theorem execCreditReceive_good (s : State) (t : Fin 25) (pos : Fin 64) (n : BitVec 4) (q : RxQual) (hl : s.link t = lkUP)
    (hq : goodRx q (mkFrame 13 0 pos q.seq 0 [BitVec.ofNat 8 n.toNat, 0])) :
    Completes (.creditReceive t pos n q) s (fun u => (u.gd (s.gk t pos)).credDn = min 15 ((s.gd (s.gk t pos)).credDn + n.toNat)
        ∧ u.wrote { s with gdev := u.gdev } [rTTH_ERR t cCVERR, rTTH_ERR t cFMTERR]) := by
  refine ⟨_, rfl, ?_⟩
  rw [State.rx_good s t q _ _ hl hq]
  obtain ⟨hg, hw⟩ := s.returnCredits_seen t pos n.toNat
  exact ⟨by rw [hg], hw⟩
end Sys2Proof.Machine
end

section
/-! SUPPORT. The frames of a gondola that a port receives: TICK_UP, the answers to its requests and its stream data. -/
open Sys2Proof Sys2Proof.Machine
namespace Sys2Proof.Machine

/-! ### TICK_UP (R60) -/

/-- What a TICK_UP reports of the gondola itself stands in its record; all that follows from it leaves that. -/
theorem State.upReport_traffic (s : State) (t addr : Nat) (f : BitVec 80) :
    (s.upReport t addr f).traffic.missRun (s.gk t addr) = 0
      ∧ (s.upReport t addr f).traffic.vbus (s.gk t addr) = BitVec.ofNat 16 (upVBUS f) := by
  unfold State.upReport
  dsimp only
  simp only [State.traffic_ite, State.traffic_faultCause, State.traffic_foldl, State.traffic_noteLevels, State.traffic_portsReported,
    implies_true, ite_self]
  simp [State.traffic]

/-- The frame of a TICK_UP (R60). -/
def tickUpFrame (pos : Fin 64) (seq : BitVec 8) (fixed : BitVec 80) (recs : List (BitVec 128)) : Frame :=
  mkFrame 2 0 pos seq 0 (leBytes 10 fixed.toNat ++ recs.flatMap (fun r => leBytes 16 r.toNat))

section
variable {s : State} {t : Fin 25} {pos : Fin 64} {seq : BitVec 8} {fixed : BitVec 80} {recs : List (BitVec 128)} {q : RxQual}
  (hl : s.link t = lkUP) (hq : goodRx q (tickUpFrame pos seq fixed recs)) (hp : s.present t (if t.val = 24 then 0 else pos.val) = true)
  (hplan : s.planChs (s.gk t pos) ≠ []) (hrecs : ∀ r ∈ recs, recCH r ∈ s.planChs (s.gk t pos))
include hl hq hp hplan hrecs

/-- An accepted TICK_UP of a gondola in the plan first returns its credits; if they find room it is taken, and what follows the report of the
gondola leaves the traffic record. -/
theorem execTickUpReceive_admitted (c : State × Bool) (hc : (s.rxSeen t).returnCredits t pos (upCRET fixed) = c) :
    ∃ v, execTickUpReceive t pos seq fixed recs q s = .next (if (!c.2) = true then c.1 else v)
      ∧ v.traffic = (c.1.upReport t pos fixed).traffic := by
  have hin : ¬(((s.rxSeen t).planChs ((s.rxSeen t).gk t pos)).isEmpty = true
      ∨ (!recs.all fun r => ((s.rxSeen t).planChs ((s.rxSeen t).gk t pos)).contains (recCH r)) = true) := by
    simpa [hplan] using hrecs
  have hrx := fun f => State.rx_good s t q _ f hl hq
  refine ⟨?v, ?outcome, ?kept⟩
  case outcome =>
    rw [execTickUpReceive, ← tickUpFrame, hrx]
    dsimp only
    rw [if_neg (by simp [hp]), if_neg hin, hc]
  rw [State.traffic_frameEvents, State.traffic_foldl, State.traffic_foldl]
  · simp
  · intro u r
    split <;> simp
  · intro u n
    simp

theorem execTickUpReceive_fit (hc : (s.gd (s.gk t pos)).credDn + upCRET fixed ≤ 15) :
    Completes (.tickUpReceive t pos seq fixed recs q) s (fun u =>
      (u.gd (s.gk t pos)).missRun = 0 ∧ (u.gd (s.gk t pos)).vbus = BitVec.ofNat 16 (upVBUS fixed)) := by
  obtain ⟨v, hv, ht⟩ := execTickUpReceive_admitted hl hq hp hplan hrecs _ (State.returnCredits_fit _ _ _ _ (by simpa using hc))
  have hk : ∀ f, ((s.rxSeen t).updGd (s.gk t pos) f).gk t pos = s.gk t pos := fun _ => s.rxSeen_gk t t pos
  have hr := State.upReport_traffic ((s.rxSeen t).updGd (s.gk t pos)
    (fun d => { d with credDn := min 15 ((s.gd (s.gk t pos)).credDn + upCRET fixed) })) t pos fixed
  refine ⟨v, hv, ?_⟩
  simp only [State.rxSeen_gk, State.rxSeen_gd] at ht
  rw [← ht, hk] at hr
  exact hr

theorem execTickUpReceive_over (hc : 15 < (s.gd (s.gk t pos)).credDn + upCRET fixed) :
    Completes (.tickUpReceive t pos seq fixed recs q) s (fun u =>
      u.gd (s.gk t pos) = { s.gd (s.gk t pos) with credDn := 15 }
        ∧ u.wrote { s with gdev := u.gdev } [rTTH_ERR t cCVERR, rTTH_ERR t cFMTERR]) := by
  obtain ⟨hg, hw⟩ := s.returnCredits_seen t pos (upCRET fixed)
  obtain ⟨v, hv, -⟩ := execTickUpReceive_admitted hl hq hp hplan hrecs _ rfl
  have h2 : ((s.rxSeen t).returnCredits t pos (upCRET fixed)).2 = false := by
    rw [State.returnCredits_over _ _ _ _ (by simpa using hc)]
  rw [Nat.min_eq_left (by omega)] at hg
  exact ⟨_, hv.trans (by rw [h2]; rfl), hg, hw⟩
end

/-! ### A missing TICK_UP (R87, R89) -/

/-- A frame that came leaves the state. -/
theorem execTickUpMissing_came (s : State) (t : Fin 25) (pos : Fin 64) (h : s.upCame t (s.gk t pos) = true) :
    Completes (.tickUpMissing t pos) s (fun u => u = s) :=
  ⟨s, if_pos (.inr (.inr (.inl h))), rfl⟩

/-- A frame that did not come counts once in the tick that ended, at its gondola and in UPMISS. -/
theorem execTickUpMissing_missed (s : State) (t : Fin 25) (pos : Fin 64) (hplan : s.planChs (s.gk t pos) ≠ [])
    (hp : s.present t (if t.val = 24 then 0 else pos.val) = true) (hc : s.upCame t (s.gk t pos) = false)
    (hm : (s.gd (s.gk t pos)).missTick ≠ some (BitVec.ofInt 64 (s.tickEnded t))) :
    Completes (.tickUpMissing t pos) s (fun u =>
      u.gd (s.gk t pos) = { s.gd (s.gk t pos) with
        missRun := (s.gd (s.gk t pos)).missRun + 1, missTick := some (BitVec.ofInt 64 (s.tickEnded t)) }
      ∧ u.wrote { s with gdev := u.gdev } [rTTH_ERR t cUPMISS]) := by
  refine ⟨_, if_neg (by simp [hplan, hp, hc, hm]), ?_⟩
  exact State.wrote_updGd _ _ (s.tthCountN_wrote t cUPMISS 1) (State.wrote_refl _ [])

/-! ### DLY_REQ, CFG_RSP and BULK (R65, R67, R68) -/

/-- A delay request queues its answer at its port, which waits behind the frames there. -/
theorem execDlyReqReceive_good (s : State) (t : Fin 25) (t1 : FTime) (q : RxQual) (hl : s.link t = lkUP) (ht : t.val < 24)
    (hq : goodRx q (mkFrame 4 2 0 q.seq 0 (leBytes 8 t1.toNat))) :
    Completes (.dlyReqReceive t t1 q) s (fun u => (u.port t).waiting = (s.port t).waiting
        ++ [mkFrame 5 2 0 0 0 (leBytes 8 t1.toNat ++ leBytes 8 s.now.toNat ++ leBytes 8 0)]
        ∧ u.gdev = s.gdev ∧ ∀ k ≠ t.val, u.port k = s.port k) := by
  have hs : s.rxSeen t = { s with regs := (s.rxSeen t).regs } := (s.rxSeen_wrote t).1
  refine ⟨_, rfl, ?_⟩
  rw [if_neg (by omega), State.rx_good s t q _ _ hl hq, hs]
  refine ⟨?_, rfl, fun k hk => State.port_setPort_ne _ _ hk⟩
  rw [State.txQueue, State.port_updPort]
  rfl

/-- What an answer tells the device leaves the requests that are open. -/
@[simp] theorem State.traffic_cfgAnswer (s : State) (t g : Nat) (r : CfgReq) (status : Nat) (data : List Byte) :
    (s.cfgAnswer t g r status data).traffic = s.traffic := by
  simp [State.cfgAnswer]

/-- An answer closes the requests with its TAG, and no other. -/
theorem execCfgRspReceive_good (s : State) (t : Fin 25) (pos : Fin 64) (tag : BitVec 8) (status : BitVec 16) (data : List Byte) (q : RxQual)
    (hl : s.link t = lkUP) (hq : goodRx q (mkFrame 0xA 0 pos q.seq tag (leBytes 2 status.toNat ++ [0, 0] ++ data)))
    (hr : ∃ r ∈ (s.gd (s.gk t pos)).cfg, r.tag = tag) :
    Completes (.cfgRspReceive t pos tag status data q) s (fun u =>
      (u.gd (s.gk t pos)).cfg = (s.gd (s.gk t pos)).cfg.filter (fun r => r.tag != tag)) := by
  obtain ⟨r, hf⟩ : ∃ r, (s.gd (s.gk t pos)).cfg.find? (fun r => r.tag == tag) = some r :=
    Option.isSome_iff_exists.1 (by simpa using hr)
  refine ⟨_, rfl, ?_⟩
  rw [State.rx_good s t q _ _ hl hq]
  simp only [State.rxSeen_gk, State.rxSeen_gd, hf]
  calc _ = (State.cfgAnswer _ t pos r status.toNat data).traffic.cfg (s.gk t pos) := rfl
    _ = _ := by
      rw [State.traffic_cfgAnswer]
      simp [State.traffic]

/-- The pump of the stream port leaves the credits granted. -/
theorem State.strPumpOne_grantUp (s : State) (k : Nat) (l : List (BitVec 8 × Bool × Word × List Byte)) (j : Nat) :
    ((s.strPumpOne k l).gd j).grantUp = (s.gd j).grantUp := by
  induction l generalizing s with
  | nil => rfl
  | cons d l ih =>
    have hsend : ∀ p, (s.strSend sfBULK p).gd j = s.gd j := fun p => by
      unfold State.strSend
      dsimp only
      split <;> rfl
    simp only [State.strPumpOne]
    split
    · rw [ih, ← hsend (bulkOut k d)]
      by_cases hj : j = k
      · rw [hj, State.gd_updGd]
      · rw [State.updGd, State.gd_setGd_ne _ _ hj]
    · rfl

theorem State.strPump_grantUp (s : State) (j : Nat) : (s.strPump.gd j).grantUp = (s.gd j).grantUp := by
  unfold State.strPump
  dsimp only
  split
  · rfl
  · exact List.foldlRecOn (motive := fun u : State => (u.gd j).grantUp = (s.gd j).grantUp) _ _ rfl
      fun u hu k _ => (u.strPumpOne_grantUp k _ j).trans hu

/-- The pump waits while the stream port is not up. -/
theorem State.strPump_down (s : State) (h : s.strLink ≠ skUP) : s.strPump = s := if_pos (.inr h)

/-- The gondola that sent a stream frame has spent a credit of its own. -/
def State.bulkSpent (s : State) (k : Nat) : State :=
  match s.nodeOf k with
  | some n => s.updGon n (fun g => { g with cGrant := g.cGrant - 1 })
  | none => s

theorem State.bulkSpent_eq (s : State) (k : Nat) : s.bulkSpent k = { s with gons := (s.bulkSpent k).gons } := by
  unfold State.bulkSpent
  split <;> rfl

theorem State.bulkSpent_gd (s : State) (k j : Nat) : (s.bulkSpent k).gd j = s.gd j := by rw [s.bulkSpent_eq]; rfl
theorem State.bulkSpent_strLink (s : State) (k : Nat) : (s.bulkSpent k).strLink = s.strLink := by rw [s.bulkSpent_eq]; rfl

/-- The link of the stream port does not rest on what a port counts. -/
theorem State.rxSeen_strLink (s : State) (t : Nat) : (s.rxSeen t).strLink = s.strLink := by
  unfold State.strLink State.fget
  rw [(s.rxSeen_wrote t).2 _ (by simp only [rNET_STR_STAT, rTTH_ERR, cCVERR, List.mem_singleton]; omega)]

/-- The record of a gondola after a stream frame for the stream port: the credit is used up, and the data wait. -/
def GonDev.bulkTook (d : GonDev) (x : BitVec 8 × Bool × Word × List Byte) : GonDev :=
  { d with grantUp := d.grantUp - 1, bulkHeld := d.bulkHeld + 1, upData := d.upData ++ [x] }

/-- The effect of a stream frame that a credit was granted for. -/
theorem execBulkReceive_granted (s : State) (t : Fin 25) (pos : Fin 64) (str : BitVec 8) (last : Bool) (off : Word) (data : List Byte)
    (q : RxQual) (hl : s.link t = lkUP)
    (hq : goodRx q (mkFrame 12 0 pos q.seq 0 ([str, if last then 1 else 0, 0, 0] ++ leBytes 4 off.toNat ++ data)))
    (hg : (s.gd (s.gk t pos)).grantUp ≠ 0) (v : State) (hv : v = (s.rxSeen t).bulkSpent (s.gk t pos)) :
    execBulkReceive t pos str last off data q s = .next (if str = 3 then
        if off.toNat % 64 = 0 ∧ data.length % 64 = 0 then v.updGd (s.gk t pos) (fun d => { d with grantUp := d.grantUp - 1 })
        else (v.updGd (s.gk t pos) (fun d => { d with grantUp := d.grantUp - 1 })).deny 9
      else (v.updGd (s.gk t pos) (fun d => d.bulkTook (str, last, off, data))).strPump) := by
  rw [execBulkReceive, State.rx_good s t q _ _ hl hq, hv, ← s.rxSeen_gk t]
  exact congrArg _ (if_neg (by simpa using hg))

/-- A stream frame against a granted credit uses the credit up; its data wait for the stream port unless they are commands, and stay there
while that port is not up. -/
theorem execBulkReceive_good (s : State) (t : Fin 25) (pos : Fin 64) (str : BitVec 8) (last : Bool) (off : Word) (data : List Byte)
    (q : RxQual) (hl : s.link t = lkUP)
    (hq : goodRx q (mkFrame 12 0 pos q.seq 0 ([str, if last then 1 else 0, 0, 0] ++ leBytes 4 off.toNat ++ data)))
    (hg : (s.gd (s.gk t pos)).grantUp ≠ 0) :
    Completes (.bulkReceive t pos str last off data q) s (fun u =>
      (u.gd (s.gk t pos)).grantUp = (s.gd (s.gk t pos)).grantUp - 1
      ∧ (str = 3 → (u.gd (s.gk t pos)).upData = (s.gd (s.gk t pos)).upData)
      ∧ (str ≠ 3 → s.strLink ≠ skUP → (u.gd (s.gk t pos)).upData = (s.gd (s.gk t pos)).upData ++ [(str, last, off, data)])) := by
  obtain ⟨v, hdef⟩ : ∃ v, v = (s.rxSeen t).bulkSpent (s.gk t pos) := ⟨_, rfl⟩
  have hv : v.gd (s.gk t pos) = s.gd (s.gk t pos) := by rw [hdef, State.bulkSpent_gd, State.rxSeen_gd]
  have hlink : v.strLink = s.strLink := by rw [hdef, State.bulkSpent_strLink, State.rxSeen_strLink]
  refine ⟨_, execBulkReceive_granted s t pos str last off data q hl hq hg v hdef, ?_⟩
  by_cases h3 : str = 3
  · rw [if_pos h3]
    split
    · simp [h3, hv]
    · rw [State.deny, State.gd_of_wrote (State.count_wrote _ _)]
      simp [h3, hv]
  · rw [if_neg h3]
    refine ⟨?_, fun h => absurd h h3, fun _ hd => ?_⟩
    · rw [State.strPump_grantUp, State.gd_updGd, hv, GonDev.bulkTook]
    · rw [State.strPump_down (v.updGd _ _) (fun h => hd (hlink.symm.trans h)), State.gd_updGd, hv, GonDev.bulkTook]
end Sys2Proof.Machine
end

section
/-! SUPPORT. The frames that a port sends: a tick frame that is ready, and the next other frame. -/
open Sys2Proof Sys2Proof.Machine
namespace Sys2Proof.Machine

/-! ### TICK_DN (R18) -/

/-- The first tick frame that is ready leaves, and its gondola's record notes what it carried. -/
theorem State.tickDnStart_ready (s : State) (t k : Nat) (r : List Nat) (h : (s.port t).ready = k :: r) :
    s.tickDnStart t = { s with ports := (s.tickDnStart t).ports, gdev := (s.tickDnStart t).gdev }
      ∧ ((s.tickDnStart t).port t).ready = r
      ∧ (∃ f, f = (s.gd k).tickDn (k % 64) (((s.gd k).upTick.getD 0).setWidth 8) ∧ ((s.tickDnStart t).port t).sent = [f]
        ∧ ((s.tickDnStart t).port t).wire = frameHeader f ++ f.body ++ leBytes 4 (frameCrc f).toNat)
      ∧ ((s.tickDnStart t).gd k).ready = false ∧ ((s.tickDnStart t).gd k).grantUp = (s.gd k).grantUp + (s.gd k).grant
      ∧ ((s.tickDnStart t).gd k).recs = [] ∧ (∀ j ≠ k, (s.tickDnStart t).gd j = s.gd j)
      ∧ ∀ j ≠ t, (s.tickDnStart t).port j = s.port j := by
  have hport : ∀ (u : State) d j, (u.setGd k d).port j = u.port j := fun _ _ _ => rfl
  unfold State.tickDnStart
  rw [h]
  dsimp only
  refine ⟨rfl, ?_, ⟨_, rfl, ?_, ?_⟩, ?_, ?_, ?_, fun j hj => ?_, fun j hj => ?_⟩
  · rw [hport, State.port_updPort]
  · rw [hport, State.port_updPort]
  · rw [hport, State.port_updPort, frameWire]
  · rw [State.gd_setGd]
  · rw [State.gd_setGd]
  · rw [State.gd_setGd]
  · exact State.gd_setGd_ne _ _ hj
  · exact State.port_setPort_ne _ _ hj

/-- A device port sends, but T24 while the core is halted. -/
theorem execTickDnTransmit_dev (s : State) (t : Fin 25) (now : FTime) (h : ¬(t.val = 24 ∧ s.time.halted = true)) :
    execTickDnTransmit (.dev t) now s = .next (s.tickDnStart t) := congrArg Host.Outcome.next (if_neg h)

theorem execTickDnTransmit_halted (s : State) (t : Fin 25) (now : FTime) (h : t.val = 24 ∧ s.time.halted = true) :
    execTickDnTransmit (.dev t) now s = .next s := congrArg Host.Outcome.next (if_pos h)

/-! ### The other frames (R77) -/

theorem execNonTickFrameStart_dev (s : State) (t : Fin 25) (now : FTime) (h : ¬(t.val = 24 ∧ s.time.halted = true)) :
    execNonTickFrameStart (.dev t) now s = .next (s.nonTickStart t) := congrArg Host.Outcome.next (if_neg h)

/-- A frame that is stamped keeps its type, its route and its address. -/
theorem State.stamp_header (s : State) (f : Frame) :
    (s.stamp f).typ = f.typ ∧ (s.stamp f).route = f.route ∧ (s.stamp f).addr = f.addr := by
  unfold State.stamp
  split
  · exact ⟨rfl, rfl, rfl⟩
  · split <;> exact ⟨rfl, rfl, rfl⟩

/-- A TIME frame leaves with the time of its departure first (R64). -/
theorem State.stamp_time (s : State) (f : Frame) (h : f.typ = 3) : (s.stamp f).body.take 8 = leBytes 8 s.now.toNat := by
  rw [State.stamp, if_pos h]
  simp only [List.append_assoc]
  exact List.take_left' (leBytes_length _ _)

/-- Only TIME and DLY_RSP are stamped. -/
theorem State.stamp_other (s : State) (f : Frame) (h3 : f.typ ≠ 3) (h5 : f.typ ≠ 5) : s.stamp f = f := by
  rw [State.stamp, if_neg h3, if_neg h5]

/-- The frame that leaves a port: stamped, and numbered by the port's count for its type (R57). -/
def State.outFrame (s : State) (t : Nat) (f : Frame) : Frame := { s.stamp f with seq := tget 0 (s.port t).seqCnt f.typ.toNat }

/-- A port that starts a frame shows it as sent, and counts it. -/
theorem State.startFrame_port (s : State) (t : Nat) (f : Frame) :
    ((s.startFrame t f).port t).sent = [s.outFrame t f] ∧ ((s.startFrame t f).port t).wire = frameWire (s.outFrame t f)
      ∧ ((s.startFrame t f).port t).seqCnt
        = tset 0 (s.port t).seqCnt f.typ.toNat (tget 0 (s.port t).seqCnt f.typ.toNat + 1) := by
  rw [State.startFrame, State.port_updPort, State.outFrame, (s.stamp_header f).1]
  exact ⟨rfl, rfl, rfl⟩

/-- What a frame uses up leaves the traffic record and the time. -/
@[simp] theorem State.traffic_spend (s : State) (t : Nat) (f : Frame) : (s.spend t f).traffic = s.traffic := by
  simp [State.spend]

theorem State.now_spend (s : State) (t : Nat) (f : Frame) : (s.spend t f).now = s.now := by
  unfold State.spend
  split
  · rfl
  · split <;> rfl

/-- The state at the departure of the frame that waits at place `i`. -/
def State.departing (s : State) (t i : Nat) (f : Frame) : State := (s.updPort t (fun p => { p with waiting := p.waiting.eraseIdx i })).spend t f

theorem State.traffic_departing (s : State) (t i : Nat) (f : Frame) : (s.departing t i f).traffic = s.traffic := by
  rw [State.departing, State.traffic_spend, State.traffic_updPort _ _ _ (by simp)]

/-- The frame that may start and finds its window leaves. -/
theorem State.nonTickStart_next (s : State) (t i : Nat) (f : Frame) (hl : s.link t = lkUP) (hr : (s.port t).ready = [])
    (hn : s.nextFrame t = some i) (hf : (s.port t).waiting[i]? = some f) (hq : s.quietOK t (frameBytes f) = true) :
    s.nonTickStart t = ((s.departing t i f).startFrame t f).cmpRelease := by
  simp [State.nonTickStart, State.departing, hl, hr, hn, hf, hq]

/-- Nothing else leaves a port while a tick frame is ready. -/
theorem State.nonTickStart_ready (s : State) (t : Nat) (hr : (s.port t).ready ≠ []) : s.nonTickStart t = s := if_pos (.inr hr)

/-- The frame that leaves is the one that waited, numbered and, where its type says so, stamped. -/
theorem State.nonTickStart_sent (s : State) (t i : Nat) (f : Frame) (hl : s.link t = lkUP) (hr : (s.port t).ready = [])
    (hn : s.nextFrame t = some i) (hf : (s.port t).waiting[i]? = some f) (hq : s.quietOK t (frameBytes f) = true) :
    ∃ g, ((s.nonTickStart t).port t).sent = [g]
        ∧ ((s.nonTickStart t).port t).wire = frameHeader g ++ g.body ++ leBytes 4 (frameCrc g).toNat
        ∧ g.typ = f.typ ∧ g.route = f.route ∧ g.addr = f.addr
        ∧ g.seq = tget 0 (s.port t).seqCnt f.typ.toNat ∧ tget 0 ((s.nonTickStart t).port t).seqCnt f.typ.toNat = g.seq + 1
        ∧ (f.typ = 3 → g.body.take 8 = leBytes 8 s.now.toNat) ∧ (f.typ ≠ 3 → f.typ ≠ 5 → g.body = f.body) := by
  obtain ⟨v, hv⟩ : ∃ v, v = s.departing t i f := ⟨_, rfl⟩
  have hseq : (v.port t).seqCnt = (s.port t).seqCnt := congrArg (fun r => r.seqCnt t) (hv ▸ s.traffic_departing t i f)
  have hnow : v.now = s.now := hv ▸ State.now_spend _ t f
  have htr : (s.nonTickStart t).traffic = (v.startFrame t f).traffic := by
    rw [s.nonTickStart_next t i f hl hr hn hf hq, State.traffic_cmpRelease, hv]
  obtain ⟨hsent, hwire, hcnt⟩ := v.startFrame_port t f
  obtain ⟨htyp, hroute, haddr⟩ := v.stamp_header f
  refine ⟨v.outFrame t f, ?_, ?_, htyp, hroute, haddr, ?_, ?_, fun h3 => ?_, fun h3 h5 => ?_⟩
  · exact (congrArg (fun r => r.sent t) htr).trans hsent
  · exact (congrArg (fun r => r.wire t) htr).trans hwire
  · rw [State.outFrame, hseq]
  · rw [show ((s.nonTickStart t).port t).seqCnt = ((v.startFrame t f).port t).seqCnt from congrArg (fun r => r.seqCnt t) htr, hcnt,
      tget_tset_same, State.outFrame]
  · rw [State.outFrame, ← hnow]
    exact v.stamp_time f h3
  · rw [State.outFrame, v.stamp_other f h3 h5]
end Sys2Proof.Machine
end

section
/-! SUPPORT. The loss of a gondola: its presence is cleared, and nothing that the loss brings about restores one. -/
open Sys2Proof Sys2Proof.Machine
namespace Sys2Proof.Machine

/-! ### Presence (R91) -/

/-- A bit that is cleared reads 0, and the others as before. -/
theorem testBit_setBit_false (x i j : Nat) : (setBit x i false).testBit j = (x.testBit j && decide (j ≠ i)) := by
  rw [setBit, if_neg (by decide)]
  split
  · next h =>
    have hle : 2 ^ i ≤ x := Nat.ge_two_pow_of_testBit h
    have hx : 2 ^ i + (x - 2 ^ i) = x := Nat.add_sub_cancel' hle
    rcases Nat.lt_trichotomy j i with hj | rfl | hj
    · have hlow := Nat.testBit_two_pow_add_gt hj (x - 2 ^ i)
      rw [hx] at hlow
      simp [hlow, Nat.ne_of_lt hj]
    · have hown := Nat.testBit_two_pow_add_eq (x - 2 ^ j) j
      rw [hx, h] at hown
      simpa using hown
    · obtain ⟨m, rfl⟩ := Nat.exists_eq_add_of_lt hj
      have hodd : x / 2 ^ i % 2 = 1 := by simpa [Nat.testBit_eq_decide_div_mod_eq] using h
      have hdiv : (x - 2 ^ i) / 2 ^ (i + 1) = x / 2 ^ (i + 1) := by
        have hq := Nat.sub_mul_div x (2 ^ i) 1
        rw [Nat.mul_one] at hq
        rw [Nat.pow_succ, ← Nat.div_div_eq_div_mul, ← Nat.div_div_eq_div_mul, hq]
        generalize x / 2 ^ i = a at hodd
        omega
      rw [show i + m + 1 = m + (i + 1) by omega, Nat.testBit_add, Nat.testBit_add, hdiv, decide_eq_true (by omega), Bool.and_true]
  · next h =>
    by_cases hj : j = i
    · subst hj
      simpa using h
    · simp [hj]

/-- What tells which gondolas are present: the plan's working copies, and PRES0 and PRES1 of each tether. -/
def State.presWords (s : State) : Tbl Word × List PlanHold × (Fin 24 → Word × Word) :=
  (s.work, s.hold, fun e => (s.rget (rTTH_PRES0 e), s.rget (rTTH_PRES1 e)))

theorem State.ringEven_of_presWords {s u : State} (h : u.presWords = s.presWords) (t : Nat) : u.ringEven t = s.ringEven t := by
  obtain ⟨hw, hh, -⟩ : u.work = s.work ∧ u.hold = s.hold ∧ _ := by simpa [State.presWords] using h
  have hget : ∀ o, u.wget o = s.wget o := fun o => by simp only [State.wget, State.held, State.wcopy, hw, hh]
  unfold State.ringEven State.wflag State.wfld
  dsimp only
  rw [hget]

theorem State.tetherKey_of_presWords {s u : State} (h : u.presWords = s.presWords) (t : Nat) : u.tetherKey t = s.tetherKey t := by
  rw [State.tetherKey, State.tetherKey, State.ringEven_of_presWords h]

theorem State.present_of_presWords {s u : State} (h : u.presWords = s.presWords) (t g : Nat) : u.present t g = s.present t g := by
  obtain ⟨-, -, hr⟩ : u.work = s.work ∧ u.hold = s.hold ∧ (fun e : Fin 24 => (u.rget (rTTH_PRES0 e), u.rget (rTTH_PRES1 e)))
    = fun e : Fin 24 => (s.rget (rTTH_PRES0 e), s.rget (rTTH_PRES1 e)) := by simpa [State.presWords] using h
  have he : ∀ e, e < 24 → u.rget (rTTH_PRES0 e) = s.rget (rTTH_PRES0 e) ∧ u.rget (rTTH_PRES1 e) = s.rget (rTTH_PRES1 e) := fun e hlt =>
    Prod.mk.injEq .. ▸ congrFun hr ⟨e, hlt⟩
  exact State.present_congr t g (State.tetherKey_of_presWords h t) (fun hlt => (he _ hlt).1) (fun hlt => (he _ hlt).2)

/-- Is a register none of the words that tell presence? -/
def notPres (o : Nat) : Prop := ∀ e < 24, rTTH_PRES0 e ≠ o ∧ rTTH_PRES1 e ≠ o

/-- A change of other registers, and of what posting writes, leaves the presence. -/
theorem State.presWords_of_posted {s u : State} {L : List Nat} (h : u.posted s L) (hL : ∀ o ∈ L, notPres o) : u.presWords = s.presWords := by
  obtain ⟨hu, hr, -⟩ := h
  have hpost : ∀ e < 24, postReg (rTTH_PRES0 e) = false ∧ postReg (rTTH_PRES1 e) = false := by decide
  have hw : u.work = s.work ∧ u.hold = s.hold := by rw [hu]; exact ⟨rfl, rfl⟩
  rw [State.presWords, hw.1, hw.2, State.presWords, Prod.mk.injEq, Prod.mk.injEq]
  refine ⟨rfl, rfl, funext fun e => ?_⟩
  obtain ⟨hp0, hp1⟩ := hpost e e.isLt
  rw [hr _ hp0 fun hm => (hL _ hm e e.isLt).1 rfl, hr _ hp1 fun hm => (hL _ hm e e.isLt).2 rfl]

/-! Operations that leave the presence. -/

@[simp] theorem State.presWords_ite (c : Prop) [Decidable c] (a b : State) :
    (if c then a else b).presWords = if c then a.presWords else b.presWords := apply_ite _ _ _ _

@[simp] theorem State.presWords_foldl {α : Type} (f : State → α → State) (l : List α) (s : State)
    (h : ∀ s x, (f s x).presWords = s.presWords) : (l.foldl f s).presWords = s.presWords := by
  induction l generalizing s with
  | nil => rfl
  | cons x l ih => exact (ih _).trans (h s x)

theorem State.presWords_of_wrote {s u : State} {L : List Nat} (h : u.wrote s L) (hL : ∀ o ∈ L, notPres o) : u.presWords = s.presWords := by
  obtain ⟨hu, hr⟩ := h
  have hw : u.work = s.work ∧ u.hold = s.hold := by rw [hu]; exact ⟨rfl, rfl⟩
  rw [State.presWords, hw.1, hw.2, State.presWords, Prod.mk.injEq, Prod.mk.injEq]
  refine ⟨rfl, rfl, funext fun e => ?_⟩
  rw [hr _ fun hm => (hL _ hm e e.isLt).1 rfl, hr _ fun hm => (hL _ hm e e.isLt).2 rfl]

/-- Registers from 0x418000 on are none of a port's. -/
theorem notPres_of_le {o : Nat} (h : 0x418000 ≤ o) : notPres o := fun e he => by
  simp only [rTTH_PRES0, rTTH_PRES1]
  omega

section
variable (s : State)

theorem State.presWords_fset {o : Nat} (b : Bits) (x : Nat) (h : notPres o) : (s.fset o b x).presWords = s.presWords :=
  State.presWords_of_wrote (s.fset_wrote o b x) (by simpa using h)

theorem State.presWords_countN {o : Nat} (n : Nat) (h : notPres o) : (s.countN o n).presWords = s.presWords :=
  State.presWords_of_wrote (s.countN_wrote o n) (by simpa using h)

@[simp] theorem State.presWords_updAx (n : Nat) (f : Axis → Axis) : (s.updAx n f).presWords = s.presWords := rfl
@[simp] theorem State.presWords_updBg (b : Nat) (f : BusGrp → BusGrp) : (s.updBg b f).presWords = s.presWords := rfl
@[simp] theorem State.presWords_updPort (t : Nat) (f : PortDev → PortDev) : (s.updPort t f).presWords = s.presWords := rfl
@[simp] theorem State.presWords_setGd (k : Nat) (d : GonDev) : (s.setGd k d).presWords = s.presWords := rfl
@[simp] theorem State.presWords_noteLevels (n : Nat) : (s.noteLevels n).presWords = s.presWords := rfl
@[simp] theorem State.presWords_sendStopreq (x : StopReqSrc) : (s.sendStopreq x).presWords = s.presWords := rfl

@[simp] theorem State.presWords_flogTrigger (cause code : Nat) : (s.flogTrigger cause code).presWords = s.presWords :=
  State.presWords_of_posted (s.flogTrigger_posted cause code []) (by simp)

@[simp] theorem State.presWords_tthRaise (t bit : Nat) : (s.tthRaise t bit).presWords = s.presWords := by
  unfold State.tthRaise
  split
  · refine State.presWords_of_posted (s.tthEvt_posted t _) fun o ho e he => ?_
    rw [List.mem_singleton.1 ho]
    simp only [rTTH_PRES0, rTTH_PRES1, rTTH_EVT]
    omega
  · rfl

@[simp] theorem State.presWords_unref (n : Nat) : (s.unref n).presWords = s.presWords := by
  have hstat : notPres (rFBK_STAT n) := notPres_of_le (by simp only [rFBK_STAT]; omega)
  have haxc : notPres (rAXC_STATE n) := notPres_of_le (by simp only [rAXC_STATE]; omega)
  simp [State.unref, State.presWords_fset _ _ _ hstat, State.presWords_fset _ _ _ haxc]

@[simp] theorem State.presWords_busCause (n st : Nat) (stop : Bool) : (s.busCause n st stop).presWords = s.presWords := by
  simp [State.busCause, State.faultCause, State.cause]

@[simp] theorem State.presWords_stageTrip (b : Nat) : (s.stageTrip b).presWords = s.presWords := by simp [State.stageTrip]

@[simp] theorem State.presWords_toStage (b st new vb : Nat) : (s.toStage b st new vb).presWords = s.presWords := by
  have hstat : notPres (rBUS_G_STAT b) := notPres_of_le (by simp only [rBUS_G_STAT]; omega)
  have hcnt : ∀ k, notPres (rBUS_G_CNT b k) := fun k => notPres_of_le (by simp only [rBUS_G_CNT]; omega)
  have hpost : ∀ u e, (State.produce u (some (u.fget rBUS_CTL fBUS_CTL_CQ)) e).presWords = u.presWords := fun u e =>
    State.presWords_of_posted (u.produce_posted _ _ (by rintro _ ⟨⟩; exact bget_lt _ _) []) (by simp)
  unfold State.toStage
  split
  · rfl
  · rw [hpost]
    simp [State.count, State.presWords_countN _ _ (hcnt _), State.presWords_fset _ _ _ hstat]

@[simp] theorem State.presWords_busSenseLost (k : Nat) : (s.busSenseLost k).presWords = s.presWords := by
  have hstat : ∀ b, notPres (rBUS_G_STAT b) := fun b => notPres_of_le (by simp only [rBUS_G_STAT]; omega)
  simp [State.busSenseLost, State.raise, State.presWords_fset _ _ _ (hstat _)]
end

/-! ### A gondola that is forgotten (R87) -/

/-- The presence words of a tether after a write of the pair. -/
theorem State.pairMask_setPairMask (s : State) {lo hi : Nat} (v : Nat) (hne : lo ≠ hi) (hv : v < 2 ^ 64) :
    (s.setPairMask lo hi v).pairMask lo hi = v := by
  simp only [State.pairMask, State.setPairMask, State.rget_rset, State.rget_rset_ne _ _ hne, BitVec.toNat_ofNat]
  omega

theorem State.pairMask_lt (s : State) (lo hi : Nat) : s.pairMask lo hi < 2 ^ 64 := by
  have h0 := (s.rget lo).isLt
  have h1 := (s.rget hi).isLt
  unfold State.pairMask
  omega

theorem setBit_false_le (x i : Nat) : setBit x i false ≤ x := by
  rw [setBit, if_neg (by decide)]
  split
  · exact Nat.sub_le _ _
  · exact Nat.le_refl _

theorem State.tetherKey_le (s : State) (t : Nat) : s.tetherKey t ≤ t := by
  simp only [State.tetherKey, State.ringEven]
  split <;> simp

theorem State.presWords_tthStat (s : State) (t : Nat) (b : Bits) (v : Nat) : (s.tthStat t b v).presWords = s.presWords := by
  have hstat : notPres (rTTH_STAT t) := fun e _ => by
    simp only [rTTH_PRES0, rTTH_PRES1, rTTH_STAT]
    omega
  simp [State.tthStat, State.presWords_fset _ _ _ hstat]

theorem State.presWords_setHomed (s : State) (t g : Nat) (b : Bool) : (s.setHomed t g b).presWords = s.presWords := by
  have hset : ∀ (u : State) {o : Nat} (v : Word), notPres o → (u.rset o v).presWords = u.presWords := fun u o v ho =>
    State.presWords_of_wrote (L := [o]) ⟨rfl, fun p hp => u.rget_rset_ne v fun h => hp (by simp [h])⟩ (by simpa using ho)
  have h0 : notPres (rTTH_HOME0 t) := fun e _ => by
    simp only [rTTH_PRES0, rTTH_PRES1, rTTH_HOME0]
    omega
  have h1 : notPres (rTTH_HOME1 t) := fun e _ => by
    simp only [rTTH_PRES0, rTTH_PRES1, rTTH_HOME1]
    omega
  simp [State.setHomed, State.setPairMask, hset _ _ h0, hset _ _ h1]

/-- A position whose presence is cleared is not present; every other one is as before. -/
theorem State.present_setPresent_false (s : State) {t : Nat} (ht : t < 24) (g x : Nat) :
    (s.setPresent t g false).present t x = (s.present t x && decide (x ≠ g)) := by
  have hk : s.tetherKey t < 24 := Nat.lt_of_le_of_lt (s.tetherKey_le t) ht
  have hkey : ∀ v, (s.setPairMask (rTTH_PRES0 (s.tetherKey t)) (rTTH_PRES1 (s.tetherKey t)) v).tetherKey t = s.tetherKey t := fun _ => rfl
  have hne : rTTH_PRES0 (s.tetherKey t) ≠ rTTH_PRES1 (s.tetherKey t) := by
    simp only [rTTH_PRES0, rTTH_PRES1]
    omega
  have hlt := Nat.lt_of_le_of_lt (setBit_false_le _ g) (s.pairMask_lt (rTTH_PRES0 (s.tetherKey t)) (rTTH_PRES1 (s.tetherKey t)))
  rw [State.setPresent, if_neg (by omega)]
  dsimp only
  rw [State.present_of_presWords (State.presWords_tthStat _ _ _ _), State.present, hkey, if_pos hk, State.pairMask_setPairMask _ _ hne hlt,
    testBit_setBit_false, State.present, if_pos hk]

/-- A position that is forgotten is not present; every other one is as before. -/
theorem State.present_forget (s : State) {t : Nat} (ht : t < 24) (g x : Nat) :
    (s.forget t g).present t x = (s.present t x && decide (x ≠ g)) := by
  have h : (s.forget t g).presWords = (s.setPresent t g false).presWords := by
    simp [State.forget, State.presWords_setHomed]
  rw [State.present_of_presWords h, s.present_setPresent_false ht]

/-! ### GONDOLA_LOST (R87) -/

/-- What the loss of a gondola does beyond forgetting it leaves the presence. -/
theorem State.presWords_loseGondola (s : State) (t g : Nat) (h : s.present t g = true) :
    ∃ u : State, u.presWords = s.presWords ∧ (s.loseGondola t g).presWords = (u.forget t g).presWords := by
  refine ⟨?u, ?same, ?lost⟩
  case lost =>
    rw [State.loseGondola, if_pos h]
    dsimp only
    rw [State.presWords_foldl _ _ _ (by simp), State.presWords_busSenseLost]
  rfl

/-- A gondola that is lost is not present; every other one is as before. -/
theorem State.present_loseGondola (s : State) {t : Nat} (ht : t < 24) (g x : Nat) :
    (s.loseGondola t g).present t x = (s.present t x && decide (x ≠ g)) := by
  cases h : s.present t g with
  | true =>
    obtain ⟨u, hu, hl⟩ := s.presWords_loseGondola t g h
    rw [State.present_of_presWords hl, State.present_forget _ ht, State.present_of_presWords hu]
  | false =>
    rw [State.loseGondola, if_neg (by simp [h])]
    by_cases hx : x = g
    · simp [hx, h]
    · simp [hx]

/-- The gondolas lost are not present. -/
theorem State.present_foldl_loseGondola (s : State) {t : Nat} (ht : t < 24) (gs : List Nat) (x : Nat) :
    (gs.foldl (fun s g => s.loseGondola t g) s).present t x = (s.present t x && decide (x ∉ gs)) := by
  induction gs generalizing s with
  | nil => simp
  | cons g gs ih =>
    rw [List.foldl_cons, ih, s.present_loseGondola ht]
    simp [Bool.and_assoc]

/-- An event raised at a port shows in its EVT register (R91). -/
theorem State.flag_tthRaise (s : State) {e bit : Nat} (he : e < 24) (hb : bit < 32) :
    (s.tthRaise e bit).flag (rTTH_EVT e) ⟨bit, 1⟩ = true := by
  have hpost : ∀ e < 24, postReg (rTTH_EVT e) = false := by decide
  have hget : (s.tthRaise e bit).rget (rTTH_EVT e) = s.rget (rTTH_EVT e) ||| BitVec.ofNat 32 (2 ^ bit) := by
    rw [State.tthRaise, if_pos he, State.tthEvt, (State.tetherEvent_posted _ _ _ []).2.1 _ (hpost e he) List.not_mem_nil, State.rget_rset]
  have hbit : (bget ((s.tthRaise e bit).rget (rTTH_EVT e)) ⟨bit, 1⟩).testBit 0 = true := by
    rw [testBit_bget, hget, BitVec.getLsbD_or, BitVec.getLsbD_ofNat, Nat.add_zero, Nat.testBit_two_pow_self]
    simp [hb]
  simp only [State.flag, State.fget, bne_iff_ne]
  intro h0
  simp [h0] at hbit

/-- The gondola lost, and on a chain or tree those served through it, are present no more, and the event says so. -/
theorem execGondolaLost_stands (s : State) (t : Fin 25) (pos : Fin 64) (cause : LossCause) (ht : t.val < 24) (hp : s.present t pos = true)
    (hc : s.lossStands t pos cause = true) :
    Completes (.gondolaLost t pos cause) s (fun u => u.present t pos = false
      ∧ (s.ringEven t = none → ∀ g ∈ s.through t pos, u.present t g = false)
      ∧ u.flag (rTTH_EVT (s.tetherKey t)) fTTH_EVT_GLOST = true) := by
  have hkey : s.tetherKey t < 24 := Nat.lt_of_le_of_lt (s.tetherKey_le t) ht
  refine ⟨_, if_neg (by simp [hp, hc, Nat.ne_of_lt ht]), ?_, fun hr g hg => ?_, State.flag_tthRaise _ hkey (by decide)⟩
  · rw [State.present_of_presWords (State.presWords_tthRaise _ _ _), State.present_foldl_loseGondola _ ht]
    simp
  · rw [State.present_of_presWords (State.presWords_tthRaise _ _ _), State.present_foldl_loseGondola _ ht]
    simp [hr, hg]

end Sys2Proof.Machine

/-- Settles O16, clause by clause: what an accepted frame does to the traffic record of its gondola, what a frame that leaves shows at its port,
and what a loss does to the presence. -/
theorem tetherFrameRows : Obligations.TetherFrameRows := by
  unfold Obligations.TetherFrameRows
  intro s t now
  have hdev (hrun : t.val = 24 → s.time.halted = false) : ¬(t.val = 24 ∧ s.time.halted = true) := fun ⟨ht, hh⟩ => by simp [hrun ht] at hh
  refine ⟨fun pos seq fixed recs q hl hq hp hplan hrecs => ⟨execTickUpReceive_fit hl hq hp hplan hrecs,
      execTickUpReceive_over hl hq hp hplan hrecs⟩,
    fun pos hplan hp => ⟨execTickUpMissing_came s t pos, execTickUpMissing_missed s t pos hplan hp⟩,
    execGondolaLost_stands s t, execDlyReqReceive_good s t, execCfgRspReceive_good s t, execBulkReceive_good s t,
    execCreditReceive_good s t, fun hrun => ⟨fun k r hr => ?_, fun hr => ?_, fun i f hl hr hn hf hq => ?_⟩,
    fun ht hh => ⟨s, execTickDnTransmit_halted s t now ⟨ht, hh⟩, rfl⟩⟩
  · exact ⟨_, execTickDnTransmit_dev s t now (hdev hrun), s.tickDnStart_ready t k r hr⟩
  · exact ⟨_, execNonTickFrameStart_dev s t now (hdev hrun), s.nonTickStart_ready t hr⟩
  · exact ⟨_, execNonTickFrameStart_dev s t now (hdev hrun), s.nonTickStart_sent t i f hl hr hn hf hq⟩
end

section
/-! SUPPORT. What one core cycle does to field time, the comparators and the mailbox, and the settling of the statements on it. -/
open Sys2Proof Sys2Proof.Machine
namespace Sys2Proof.Machine

/-! ### A core cycle of the mailbox (R444) -/

theorem State.mbxTick1_idle (s : State) {set : Nat} (h : tget none s.mbxAns set = none) : s.mbxTick1 set = s := by
  simp [State.mbxTick1, h]

theorem State.mbxTick1_due (s : State) {set : Nat} {a : MbxAns} (h : tget none s.mbxAns set = some a) (hl : a.left = 0) :
    s.mbxTick1 set = s.mbxDone set a := by
  simp [State.mbxTick1, h, hl]

theorem State.mbxTick1_waits (s : State) {set : Nat} {a : MbxAns} (h : tget none s.mbxAns set = some a) (hl : a.left ≠ 0) :
    s.mbxTick1 set = { s with mbxAns := tset none s.mbxAns set (some { a with left := a.left - 1 }) } := by
  simp [State.mbxTick1, h, hl]

/-- An answer that is written takes its set's place in the waiting answers, and changes registers besides. -/
theorem State.mbxDone_eq (s : State) (set : Nat) (a : MbxAns) :
    s.mbxDone set a = { s with regs := (s.mbxDone set a).regs, mbxAns := tset none s.mbxAns set none } := by
  unfold State.mbxDone
  rw [State.mbxData_regs]
  rfl

/-- A core cycle of a mailbox set touches registers and its own waiting answer alone. -/
theorem State.mbxTick1_eq (s : State) (set : Nat) :
    ∃ v, s.mbxTick1 set = { s with regs := (s.mbxTick1 set).regs, mbxAns := tset none s.mbxAns set v } ∨ s.mbxTick1 set = s := by
  cases h : tget none s.mbxAns set with
  | none => exact ⟨none, .inr (s.mbxTick1_idle h)⟩
  | some a =>
    by_cases hl : a.left = 0
    · rw [s.mbxTick1_due h hl]
      exact ⟨_, .inl (s.mbxDone_eq set a)⟩
    · rw [s.mbxTick1_waits h hl]
      exact ⟨_, .inl rfl⟩

theorem State.mbxTick1_time (s : State) (set : Nat) : (s.mbxTick1 set).time = s.time := by
  obtain ⟨v, h | h⟩ := s.mbxTick1_eq set <;> rw [h]

theorem State.mbxTick1_mbxAns_ne (s : State) {set k : Nat} (hk : k ≠ set) :
    tget none (s.mbxTick1 set).mbxAns k = tget none s.mbxAns k := by
  obtain ⟨v, h | h⟩ := s.mbxTick1_eq set <;> rw [h]
  exact tget_tset_ne _ _ _ _ hk

@[simp] theorem State.mbxTick_time (s : State) : s.mbxTick.time = s.time := by
  unfold State.mbxTick
  induction List.range 4 generalizing s with
  | nil => rfl
  | cons k l ih => rw [List.foldl_cons, ih, State.mbxTick1_time]

/-- Sets without a waiting answer stay as they are. -/
theorem State.foldl_mbxTick1_idle (s : State) (l : List Nat) (h : ∀ k ∈ l, tget none s.mbxAns k = none) :
    l.foldl State.mbxTick1 s = s := by
  induction l with
  | nil => rfl
  | cons k l ih =>
    rw [List.foldl_cons, s.mbxTick1_idle (h k List.mem_cons_self), ih (fun j hj => h j (List.mem_cons_of_mem _ hj))]

/-- Of sets of which one alone may have an answer waiting, that one is taken. -/
theorem State.foldl_mbxTick1_one (s : State) {set : Nat} (l : List Nat) (hd : l.Nodup) (hm : set ∈ l)
    (h : ∀ k ∈ l, k ≠ set → tget none s.mbxAns k = none) : l.foldl State.mbxTick1 s = s.mbxTick1 set := by
  induction l with
  | nil => simp at hm
  | cons k l ih =>
    obtain ⟨hk, hd⟩ := List.nodup_cons.1 hd
    have hl : ∀ j ∈ l, j ≠ set → tget none s.mbxAns j = none := fun j hj => h j (List.mem_cons_of_mem _ hj)
    by_cases hks : k = set
    · subst hks
      have hne : ∀ j ∈ l, j ≠ k := fun j hj he => hk (he ▸ hj)
      exact State.foldl_mbxTick1_idle _ l (fun j hj => (s.mbxTick1_mbxAns_ne (hne j hj)).trans (hl j hj (hne j hj)))
    · rw [List.foldl_cons, s.mbxTick1_idle (h k List.mem_cons_self hks)]
      exact ih hd ((List.mem_cons.1 hm).resolve_left (Ne.symm hks)) hl

theorem State.mbxTick_idle (s : State) (h : s.mbxAns = []) : s.mbxTick = s :=
  s.foldl_mbxTick1_idle _ (fun k _ => by rw [h]; rfl)

theorem State.mbxTick_one (s : State) (set : Fin 4) (h : ∀ k < 4, k ≠ set.val → tget none s.mbxAns k = none) :
    s.mbxTick = s.mbxTick1 set :=
  s.foldl_mbxTick1_one _ List.nodup_range (List.mem_range.2 set.isLt) (fun k hk => h k (List.mem_range.1 hk))

/-! ### The comparators at the end of a core cycle (R39, R45) -/

@[simp] theorem TimeUnit.comp_setComp (u : TimeUnit) (n : Nat) (c : TimeComp) : (u.setComp n c).comp n = c := by
  simp [TimeUnit.comp, TimeUnit.setComp]
theorem TimeUnit.comp_setComp_ne (u : TimeUnit) {n k : Nat} (c : TimeComp) (h : k ≠ n) : (u.setComp n c).comp k = u.comp k :=
  tget_tset_ne _ _ _ _ h

/-- A comparator after a step of field time from `a` to `b`: if it is armed and its target is skipped, that is noted (R39). -/
def TimeComp.marked (c : TimeComp) (armed : Bool) (a b : FTime) : TimeComp :=
  if armed = true ∧ Machine.passed a b c.target = true then { c with stepped := true } else c

@[simp] theorem TimeComp.marked_target (c : TimeComp) (e : Bool) (a b : FTime) : (c.marked e a b).target = c.target := by
  unfold TimeComp.marked; split <;> rfl
@[simp] theorem TimeComp.marked_period (c : TimeComp) (e : Bool) (a b : FTime) : (c.marked e a b).period = c.period := by
  unfold TimeComp.marked; split <;> rfl
@[simp] theorem TimeComp.marked_next (c : TimeComp) (e : Bool) (a b : FTime) : (c.marked e a b).next = c.next := by
  unfold TimeComp.marked; split <;> rfl
theorem TimeComp.marked_stepped (c : TimeComp) {e : Bool} {a b : FTime} (he : e = true) (hp : Machine.passed a b c.target = true) :
    (c.marked e a b).stepped = true := by
  rw [TimeComp.marked, if_pos ⟨he, hp⟩]

/-- A forward step marks comparators alone in the field-time unit. -/
theorem State.markStepped_time (s : State) (a b : FTime) :
    (s.markStepped a b).time = { s.time with tc := (s.markStepped a b).time.tc } := by
  unfold State.markStepped
  dsimp only
  generalize s.time = u
  induction List.range 8 generalizing u with
  | nil => rfl
  | cons k l ih =>
    rw [List.foldl_cons]
    exact (ih _).trans (by split <;> rfl)

/-- Each comparator is marked as its own arming and target say. -/
theorem State.comp_markStepped (s : State) (a b : FTime) {n : Nat} (hn : n < 8) :
    (s.markStepped a b).time.comp n = (s.time.comp n).marked (s.flag (rFTM_TC_CTL n) fFTM_TC_CTL_EN) a b := by
  have key : ∀ m, ((List.range m).foldl (fun u k =>
      if s.flag (rFTM_TC_CTL k) fFTM_TC_CTL_EN = true ∧ Machine.passed a b (u.comp k).target = true
        then u.setComp k { u.comp k with stepped := true } else u) s.time).comp n
      = if n < m then (s.time.comp n).marked (s.flag (rFTM_TC_CTL n) fFTM_TC_CTL_EN) a b else s.time.comp n := by
    intro m
    induction m with
    | zero => rfl
    | succ m ih =>
      rw [List.range_succ, List.foldl_append, List.foldl_cons, List.foldl_nil]
      rcases Nat.lt_trichotomy n m with h | rfl | h
      · rw [if_pos h] at ih
        rw [if_pos (Nat.lt_succ_of_lt h), ← ih]
        split
        · exact TimeUnit.comp_setComp_ne _ _ (Nat.ne_of_lt h)
        · rfl
      · rw [if_neg (Nat.lt_irrefl n)] at ih
        rw [if_pos (Nat.lt_succ_self n), ih, TimeComp.marked]
        split
        · exact TimeUnit.comp_setComp _ _ _
        · exact ih
      · rw [if_neg (Nat.lt_asymm h)] at ih
        rw [if_neg (Nat.not_lt.2 h), ← ih]
        split
        · exact TimeUnit.comp_setComp_ne _ _ (Nat.ne_of_gt h)
        · rfl
  exact (key 8).trans (if_pos hn)

theorem TimeComp.nextCycle_written (c : TimeComp) {t : FTime} {p : BitVec 64} (h : c.next = some (t, p)) :
    c.nextCycle.target = t ∧ c.nextCycle.period = p ∧ c.nextCycle.next = none := by
  simp [TimeComp.nextCycle, h]

theorem TimeComp.nextCycle_unwritten (c : TimeComp) (h : c.next = none) :
    c.nextCycle.target = c.target ∧ c.nextCycle.period = c.period := by
  simp [TimeComp.nextCycle, h]

theorem State.comp_timeNext (s : State) (n : Nat) : s.timeNext.comp n = (s.time.comp n).nextCycle :=
  tget_tmap _ _ rfl _ _

/-! ### Field time in a core cycle (R34-R37) -/

/-- The state at the end of a core cycle, before parts of the tick plan and mailbox answers follow. -/
def State.timed (s : State) : State :=
  let t := { s with time := s.timeNext }
  if s.time.stepPend = 0 then t else t.markStepped (t.now - s.time.stepPend) t.now

theorem State.cycle_stopped (s : State) (h : s.coreClock = false) : s.cycle = s := by simp [State.cycle, h]
theorem State.cycle_runs (s : State) (h : s.coreClock = true) : s.cycle = s.timed.planTake.mbxTick := if_pos h

theorem State.timed_unstepped (s : State) (h : s.time.stepPend = 0) : s.timed = { s with time := s.timeNext } := if_pos h
theorem State.timed_stepped (s : State) (h : s.time.stepPend ≠ 0) :
    s.timed = ({ s with time := s.timeNext } : State).markStepped (s.timeNext.ft - s.time.stepPend) s.timeNext.ft := if_neg h

/-- Of the field-time unit that a core cycle starts from, a step changes the comparators alone. -/
theorem State.time_of_stepped {s t : State} {u : TimeUnit} {a b : FTime}
    (h : t = { s with time := u } ∨ t = ({ s with time := u } : State).markStepped a b) : t.time = { u with tc := t.time.tc } := by
  obtain rfl | rfl := h
  · rfl
  · exact State.markStepped_time _ _ _

theorem State.timed_time (s : State) : s.timed.time = { s.timeNext with tc := s.timed.time.tc } :=
  State.time_of_stepped (if h : s.time.stepPend = 0 then .inl (s.timed_unstepped h) else .inr (s.timed_stepped h))

@[simp] theorem State.timed_regs (s : State) : s.timed.regs = s.regs := by unfold State.timed; dsimp only; split <;> rfl
@[simp] theorem State.timed_hold (s : State) : s.timed.hold = s.hold := by unfold State.timed; dsimp only; split <;> rfl
@[simp] theorem State.timed_mbxAns (s : State) : s.timed.mbxAns = s.mbxAns := by unfold State.timed; dsimp only; split <;> rfl
@[simp] theorem State.timed_stepPend (s : State) : s.timed.time.stepPend = 0 := by rw [State.timed_time]; rfl
@[simp] theorem State.timed_prev (s : State) : s.timed.time.prev = s.now := by rw [State.timed_time]; rfl

/-- The increment that the registers hold is in force (R36). -/
theorem State.timed_increment (s : State) :
    s.timed.increment = s.wfld rFTM_INC_INT fFTM_INC_INT_INT * 2 ^ 32 + s.wfld rFTM_INC_FRAC fFTM_INC_FRAC_FRAC := by
  have hi : s.wfld rFTM_INC_INT fFTM_INC_INT_INT < 2 ^ 8 := bget_lt _ _
  have hf : s.wfld rFTM_INC_FRAC fFTM_INC_FRAC_FRAC < 2 ^ 32 := bget_lt _ _
  rw [State.increment, State.timed_time]
  simp only [State.timeNext, BitVec.toNat_ofNat, Nat.mod_eq_of_lt hi, Nat.mod_eq_of_lt hf]

/-- The accumulator advances by the increment and by the steps accepted in the cycle (R35, R37). -/
theorem State.timed_accum (s : State) :
    s.timed.accum = (s.accum + s.timed.increment + s.time.stepPend.toNat * 2 ^ 32) % 2 ^ 96 := by
  have hft : s.timed.time.ft = BitVec.ofNat 64 ((s.accum + s.timed.increment) / 2 ^ 32) + s.time.stepPend := by
    rw [State.increment, s.timed_time, ← Nat.add_assoc]
    rfl
  have hfrac : s.timed.time.frac = BitVec.ofNat 32 (s.accum + s.timed.increment) := by
    rw [State.increment, s.timed_time, ← Nat.add_assoc]
    rfl
  rw [State.accum, hft, hfrac, BitVec.toNat_add, BitVec.toNat_ofNat, BitVec.toNat_ofNat]
  generalize s.accum + s.timed.increment = x
  omega

theorem State.planTake_idle (s : State) (h : s.hold = []) : s.planTake = s := by simp [State.planTake, h]

theorem State.cycle_unheld (s : State) (hc : s.coreClock = true) (hh : s.hold = []) : s.cycle = s.timed.mbxTick := by
  rw [s.cycle_runs hc, State.planTake_idle _ (by rw [State.timed_hold, hh])]

theorem step_idle (s : State) (h : s.pending = []) : step s = .next s.cycle := by simp [step, h]

/-- An answer that is due shows, one that is not due comes nearer (R444). -/
theorem State.timed_mbxTick_one (s : State) (set : Fin 4) (a : MbxAns)
    (ho : ∀ k < 4, k ≠ set.val → tget none s.mbxAns k = none) (ha : tget none s.mbxAns set = some a) (hs : a.status < 16) :
    (a.left = 0 → s.timed.mbxTick.answered set a.status a.data)
    ∧ (a.left ≠ 0 → s.timed.mbxTick.regs = s.regs
      ∧ tget none s.timed.mbxTick.mbxAns set = some { a with left := a.left - 1 }) := by
  rw [← s.timed_mbxAns] at ho ha
  rw [State.mbxTick_one _ set ho]
  refine ⟨fun hl => ?_, fun hl => ?_⟩
  · rw [State.mbxTick1_due _ ha hl]
    exact State.mbxDone_answered _ _ _ hs
  · rw [State.mbxTick1_waits _ ha hl]
    exact ⟨s.timed_regs, tget_tset_same _ _ _ _⟩

/-! ### Field time from reset (R34, R35) -/

theorem execCorePllLock_unlocked (s : State) (h : s.time.locked = false) :
    execCorePllLock s = .next { s with time := { s.time with locked := true, ft := 0, frac := 0, prev := 0 } } := by
  simp [execCorePllLock, h]

/-- From 0 and without a step, field time advances to the whole part of the increment. -/
theorem State.timeNext_from_zero (s : State) (hs : s.time.stepPend = 0) (ht : s.time.ft = 0) (hf : s.time.frac = 0)
    (hz : s.wfld rFTM_INC_FRAC fFTM_INC_FRAC_FRAC = 0) :
    s.timeNext.ft = BitVec.ofNat 64 (s.wfld rFTM_INC_INT fFTM_INC_INT_INT) := by
  have hi : s.wfld rFTM_INC_INT fFTM_INC_INT_INT < 2 ^ 8 := bget_lt _ _
  simp [State.timeNext, State.accum, hs, ht, hf, hz, Nat.mod_eq_of_lt (show _ < 256 from hi)]

end Sys2Proof.Machine

/-- Settles O2: a core cycle is the advance of the field-time unit, then what waits on the tick plan, then a cycle of the mailbox. -/
theorem idleCycle : Obligations.IdleCycle := by
  unfold Obligations.IdleCycle
  intro s hp
  refine ⟨_, step_idle s hp, s.cycle_stopped, fun hc => ⟨⟨s.timed, s.cycle_runs hc, s.timed_increment, s.timed_accum, s.timed_stepPend,
    s.timed_prev, fun h => ?_, fun hh hm => ?_⟩, fun hh set a ho ha hs => ?_⟩⟩
  · rw [s.timed_unstepped h]
  · rw [s.cycle_unheld hc hh, State.mbxTick_idle _ (by rw [State.timed_mbxAns, hm])]
  · rw [s.cycle_unheld hc hh]
    exact s.timed_mbxTick_one set a ho ha hs

/-- Settles O3: the lock sets field time to 0, and the first core cycle adds the increment that the registers hold. -/
theorem fieldTimeFromReset : Obligations.FieldTimeFromReset := by
  unfold Obligations.FieldTimeFromReset
  refine ⟨rfl, rfl, by decide, by decide, fun s hl => s.cycle_stopped (by simp [State.coreClock, hl]), ?_⟩
  intro s hp hpo hsy hra hl hh hs hhold hi hz
  let t : State := { s with time := { s.time with locked := true, ft := 0, frac := 0, prev := 0 } }
  have hc : t.coreClock = true := by simp [t, State.coreClock, hpo, hsy, hra, hh]
  refine ⟨t, t.cycle, execCorePllLock_unlocked s hl, rfl, step_idle t hp, ?_⟩
  rw [t.cycle_unheld hc hhold, State.now, State.mbxTick_time, t.timed_time]
  exact (t.timeNext_from_zero hs rfl rfl hz).trans (congrArg (BitVec.ofNat 64) hi)
end

section
/-! SUPPORT. The latch engine leaves field time and the registers of its block, and so does posting. -/
open Sys2Proof Sys2Proof.Machine
namespace Sys2Proof.Machine

/-! ### Field time and its registers -/

/-- The field-time unit and the registers of its block (R48). -/
def State.ftm (s : State) : TimeUnit × (Nat → Word) := (s.time, fun o => if o / 0x100000 = 3 then s.rget o else 0)

theorem State.ftm_eq {s u : State} (ht : u.time = s.time) (hr : ∀ o, o / 0x100000 = 3 → u.rget o = s.rget o) : u.ftm = s.ftm := by
  unfold State.ftm
  rw [ht]
  congr 1
  funext o
  split
  · next h => exact hr o h
  · rfl

theorem State.time_of_ftm {s u : State} (h : u.ftm = s.ftm) : u.time = s.time := congrArg Prod.fst h
theorem State.rget_of_ftm {s u : State} (h : u.ftm = s.ftm) {o : Nat} (ho : o / 0x100000 = 3) : u.rget o = s.rget o := by
  simpa [State.ftm, ho] using congrFun (congrArg Prod.snd h) o
theorem State.fget_of_ftm {s u : State} (h : u.ftm = s.ftm) {o : Nat} (b : Bits) (ho : o / 0x100000 = 3) : u.fget o b = s.fget o b := by
  rw [State.fget, State.rget_of_ftm h ho]; rfl
theorem State.flag_of_ftm {s u : State} (h : u.ftm = s.ftm) {o : Nat} (b : Bits) (ho : o / 0x100000 = 3) : u.flag o b = s.flag o b := by
  rw [State.flag, State.fget_of_ftm h b ho]; rfl

theorem tcCtl_block (n : Fin 8) : rFTM_TC_CTL n / 0x100000 = 3 := by simp only [rFTM_TC_CTL]; omega
theorem tcStat_block (n : Fin 8) : rFTM_TC_STAT n / 0x100000 = 3 := by simp only [rFTM_TC_STAT]; omega
theorem tcCtl_ne_tcStat (n : Nat) : rFTM_TC_CTL n ≠ rFTM_TC_STAT n := by simp only [rFTM_TC_CTL, rFTM_TC_STAT]; omega

section
variable (s : State)

@[simp] theorem State.ftm_ite (c : Prop) [Decidable c] (a b : State) : (if c then a else b).ftm = if c then a.ftm else b.ftm :=
  apply_ite _ _ _ _

theorem State.ftm_rset {o : Nat} (v : Word) (h : o / 0x100000 ≠ 3) : (s.rset o v).ftm = s.ftm :=
  State.ftm_eq rfl (fun p hp => s.rget_rset_ne v (fun he : p = o => h (he ▸ hp)))
theorem State.ftm_fset {o : Nat} (b : Bits) (x : Nat) (h : o / 0x100000 ≠ 3) : (s.fset o b x).ftm = s.ftm := s.ftm_rset _ h

@[simp] theorem State.updTime_time (f : TimeUnit → TimeUnit) : (s.updTime f).time = f s.time := rfl
@[simp] theorem State.updTime_flag (f : TimeUnit → TimeUnit) (o : Nat) (b : Bits) : (s.updTime f).flag o b = s.flag o b := rfl

@[simp] theorem State.ftm_updAx (n : Nat) (f : Axis → Axis) : (s.updAx n f).ftm = s.ftm := rfl

/-- No register that posting writes lies in the block of field time. -/
theorem postReg_ftm {o : Nat} (h : o / 0x100000 = 3) : postReg o = false := by
  by_contra hp
  rw [Bool.not_eq_false] at hp
  simp only [postReg, Bool.or_eq_true, List.any_eq_true, List.mem_range, beq_iff_eq] at hp
  simp only [rHIF_CQ_STAT, rHIF_CQ_LOST, rMSIX_PBA, rFLOG_STAT, rFLOG_LOST] at hp
  obtain ((⟨q, _, hp⟩ | ⟨q, _, hp⟩) | hp) | ⟨q, _, hp⟩ := hp <;> omega

@[simp] theorem State.ftm_produce (q : Nat) (e : Cqe) (h : q < 32) : (s.produce (some q) e).ftm = s.ftm := by
  obtain ⟨ht, hr, -⟩ := s.produce_posted (some q) e (by rintro _ ⟨⟩; exact h) []
  exact State.ftm_eq (by rw [ht]) (fun o ho => hr o (postReg_ftm ho) List.not_mem_nil)

/-! ### The latch engine (R301-R304) -/

@[simp] theorem State.ftm_latStat (n : Nat) (b : Bits) (x : Nat) : (s.fset (rLAT_STAT n) b x).ftm = s.ftm :=
  s.ftm_fset b x (by simp only [rLAT_STAT]; omega)
@[simp] theorem State.ftm_latStatBit (n : Nat) (b : Bits) (x : Bool) : (s.fsetb (rLAT_STAT n) b x).ftm = s.ftm := s.ftm_latStat n b _
@[simp] theorem State.ftm_latRaise (n : Nat) (b : Bits) : (s.raise (rLAT_STAT n) b).ftm = s.ftm := s.ftm_latStat n b 1

@[simp] theorem State.ftm_latArm (n u : Nat) (b : Bool) : (s.latArm n u b).ftm = s.ftm := by simp [State.latArm]
@[simp] theorem State.ftm_latShow (n : Nat) : (s.latShow n).ftm = s.ftm := by simp [State.latShow]

@[simp] theorem State.ftm_latDrain (n k : Nat) : (s.latDrain n k).ftm = s.ftm := by
  induction k generalizing s with
  | zero => rfl
  | succ k ih =>
    unfold State.latDrain
    split
    · rfl
    · next r _ =>
      have hq : s.fget (rLAT_CFG n r.unit) fLAT_CFG_CQ < 32 := bget_lt _ _
      simp [ih, hq]

@[simp] theorem State.ftm_latPush (n : Nat) (r : LatRec) : (s.latPush n r).ftm = s.ftm := by simp [State.latPush]
@[simp] theorem State.ftm_latWrite (n : Nat) (w : LatWait) (t : FTime) (pos : BitVec 48) (flags : Nat) :
    (s.latWrite n w t pos flags).ftm = s.ftm := s.ftm_latPush n _

@[simp] theorem State.ftm_capture (n u src : Nat) (rising : Bool) (t : FTime) : (s.capture n u src rising t).ftm = s.ftm := by
  unfold State.capture
  dsimp only
  rw [State.ftm_latShow]
  split
  · simp
  · split <;> simp

@[simp] theorem State.ftm_latEdge (n src : Nat) (rising : Bool) (t : FTime) : (s.latEdge n src rising t).ftm = s.ftm := by
  simp [State.latEdge]

theorem State.ftm_latOffer (src : Nat) (rising : Bool) (t : FTime) : (s.latOffer src rising t).ftm = s.ftm := by
  unfold State.latOffer
  induction allAxes.filter (fun n => s.latHit n 0 src rising || s.latHit n 1 src rising) generalizing s with
  | nil => rfl
  | cons n l ih => rw [List.foldl_cons, ih, State.ftm_latEdge]

/-! ### A mailbox request (R444) -/

theorem State.ftm_mbxData (set k : Nat) (ws : List Word) : (s.mbxData set k ws).ftm = s.ftm := by
  rw [State.mbxData_regs]
  refine State.ftm_eq rfl (fun o ho => s.rget_mbxData set k ws o (fun j _ _ => ?_))
  simp only [rMBX_DATA]
  omega

/-- Placing a request leaves field time. -/
theorem State.ftm_asked (set code op : Nat) (i : BitVec 14) (ops : List Word) : (s.asked set code op i ops).ftm = s.ftm := by
  have hs : rMBX_STAT set / 0x100000 ≠ 3 := by simp only [rMBX_STAT]; omega
  have hq : rMBX_REQ set / 0x100000 ≠ 3 := by simp only [rMBX_REQ]; omega
  rw [State.asked, State.mbxBusy, State.ftm_fset _ _ _ hs, State.ftm_fset _ _ _ hs, State.ftm_rset _ _ hq, State.ftm_mbxData]

/-- A request that a free set takes leaves field time and the registers as its object does. -/
theorem State.mbx_time (set : Nat) (via : RegPath) (code op : Nat) (i : BitVec 14) (ops : List Word) (perform : State → MbxRes)
    (h : s.mbxFree set via) : (s.mbx set via code op i ops perform).time = (perform (s.asked set code op i ops)).st.time := by
  rw [State.mbx_eq _ _ _ _ _ _ _ _ h]
  rfl
theorem State.mbx_fget (set : Nat) (via : RegPath) (code op : Nat) (i : BitVec 14) (ops : List Word) (perform : State → MbxRes)
    (h : s.mbxFree set via) (o : Nat) (b : Bits) :
    (s.mbx set via code op i ops perform).fget o b = (perform (s.asked set code op i ops)).st.fget o b := by
  rw [State.mbx_eq _ _ _ _ _ _ _ _ h]
  rfl

end
end Sys2Proof.Machine
end

section
/-! SUPPORT. The events of field time: its step, the comparators, PPS_OUT, the time-stamp inputs and the distribution of time. -/
open Sys2Proof Sys2Proof.Machine
namespace Sys2Proof.Machine

/-! ### FT_STEP (R37, R38) -/

theorem State.planHolds_asked (s : State) (set code op : Nat) (i : BitVec 14) (ops : List Word) :
    (s.asked set code op i ops).planHolds = s.planHolds := by
  simp only [State.planHolds, State.asked_wflag]

theorem mboFtStep_unplanned (s : State) (off : BitVec 64) (h : s.planHolds = false) : mboFtStep off s =
    mbxRes ((s.updTime (fun u => { u with stepPend := u.stepPend + off })).fset rFTM_STAT fFTM_STAT_STEP_CNT
      (s.fget rFTM_STAT fFTM_STAT_STEP_CNT + 1)) mbxOK := if_neg (by simp [h])
theorem mboFtStep_planned (s : State) (off : BitVec 64) (h : s.planHolds = true) : mboFtStep off s = mbxRes s mbxREFUSED := if_pos h

theorem ftStep_accepted (s : State) (set : Fin 4) (via : RegPath) (off : BitVec 64) (h : s.mbxFree set via) (hp : s.planHolds = false) :
    Completes (.ftStep set via off) s (fun t => t.answers set mbxOK []
      ∧ t.time = { s.time with stepPend := s.time.stepPend + off }
      ∧ t.fget rFTM_STAT fFTM_STAT_STEP_CNT = (s.fget rFTM_STAT fFTM_STAT_STEP_CNT + 1) % 2 ^ 16) := by
  have ha := State.mbx_answers s set via 0x002 1 0 (words64 off) (mboFtStep off) h
  have hv := s.ftm_asked set 0x002 1 0 (words64 off)
  have hr := mboFtStep_unplanned (s.asked set 0x002 1 0 (words64 off)) off (by rw [State.planHolds_asked, hp])
  refine ⟨_, rfl, by rwa [hr] at ha, ?_, ?_⟩
  · rw [State.mbx_time _ _ _ _ _ _ _ _ h, hr, ← State.time_of_ftm hv]
    rfl
  · rw [State.mbx_fget _ _ _ _ _ _ _ _ h, hr, ← State.fget_of_ftm hv fFTM_STAT_STEP_CNT (by decide)]
    exact State.fget_fset _ _ _ _ (by decide)

theorem ftStep_refused (s : State) (set : Fin 4) (via : RegPath) (off : BitVec 64) (h : s.mbxFree set via) (hp : s.planHolds = true) :
    Completes (.ftStep set via off) s (fun t => t.answers set mbxREFUSED [] ∧ t.time = s.time) := by
  have ha := State.mbx_answers s set via 0x002 1 0 (words64 off) (mboFtStep off) h
  have hr := mboFtStep_planned (s.asked set 0x002 1 0 (words64 off)) off (by rw [State.planHolds_asked, hp])
  refine ⟨_, rfl, by rwa [hr] at ha, ?_⟩
  rw [State.mbx_time _ _ _ _ _ _ _ _ h, hr, ← State.time_of_ftm (s.ftm_asked set 0x002 1 0 (words64 off))]
  rfl

/-! ### The comparators in a core cycle (R36, R39, R45) -/

theorem State.comp_of_time {s t : State} {u : TimeUnit} (h : t = { s with time := u }) (n : Nat) : t.time.comp n = u.comp n := by
  rw [h]

theorem State.comp_of_markStepped {s t : State} {u : TimeUnit} {a b : FTime} (h : t = ({ s with time := u } : State).markStepped a b)
    {n : Nat} (hn : n < 8) : t.time.comp n = (u.comp n).marked (s.flag (rFTM_TC_CTL n) fFTM_TC_CTL_EN) a b := by
  rw [h]
  exact State.comp_markStepped _ _ _ hn

theorem State.comp_timed_unstepped (s : State) (n : Nat) (h : s.time.stepPend = 0) :
    s.timed.time.comp n = (s.time.comp n).nextCycle :=
  (State.comp_of_time (s.timed_unstepped h) n).trans (s.comp_timeNext n)

theorem State.comp_timed_stepped (s : State) {n : Nat} (hn : n < 8) (h : s.time.stepPend ≠ 0) :
    s.timed.time.comp n = ((s.time.comp n).nextCycle).marked (s.flag (rFTM_TC_CTL n) fFTM_TC_CTL_EN)
      (s.timeNext.ft - s.time.stepPend) s.timeNext.ft := by
  rw [State.comp_of_markStepped (s.timed_stepped h) hn, s.comp_timeNext]

/-- Whatever a step skips, target and period are those that the next core cycle gives. -/
theorem State.comp_timed (s : State) {n : Nat} (hn : n < 8) :
    (s.timed.time.comp n).target = (s.time.comp n).nextCycle.target ∧ (s.timed.time.comp n).period = (s.time.comp n).nextCycle.period
      ∧ (s.timed.time.comp n).next = (s.time.comp n).nextCycle.next := by
  by_cases h : s.time.stepPend = 0
  · rw [s.comp_timed_unstepped n h]
    exact ⟨rfl, rfl, rfl⟩
  · rw [s.comp_timed_stepped hn h]
    exact ⟨TimeComp.marked_target _ _ _ _, TimeComp.marked_period _ _ _ _, TimeComp.marked_next _ _ _ _⟩

theorem State.timed_now (s : State) : s.timed.now = s.timeNext.ft := by rw [State.now, s.timed_time]

/-- A comparator at the end of an idle core cycle. -/
theorem State.comp_cycle (s : State) (hc : s.coreClock = true) (hh : s.hold = []) (n : Nat) (hn : n < 8) :
    (∀ target period, (s.time.comp n).next = some (target, period) →
      (s.cycle.time.comp n).target = target ∧ (s.cycle.time.comp n).period = period ∧ (s.cycle.time.comp n).next = none)
    ∧ ((s.time.comp n).next = none →
      (s.cycle.time.comp n).target = (s.time.comp n).target ∧ (s.cycle.time.comp n).period = (s.time.comp n).period)
    ∧ (s.time.stepPend ≠ 0 → s.flag (rFTM_TC_CTL n) fFTM_TC_CTL_EN = true →
      Machine.passed (s.cycle.now - s.time.stepPend) s.cycle.now (s.cycle.time.comp n).target = true → (s.cycle.time.comp n).stepped = true) := by
  have ht : s.cycle.time = s.timed.time := by rw [s.cycle_unheld hc hh, State.mbxTick_time]
  have hnow : s.cycle.now = s.timeNext.ft := by rw [State.now, ht, ← s.timed_now]; rfl
  obtain ⟨htgt, hper, hnext⟩ := s.comp_timed hn
  rw [hnow, ht, htgt, hper, hnext]
  refine ⟨fun target period h => TimeComp.nextCycle_written _ h, TimeComp.nextCycle_unwritten _, fun hs he hp => ?_⟩
  rw [s.comp_timed_stepped hn hs]
  exact TimeComp.marked_stepped _ he hp

/-! ### TC_ARM (R45) -/

/-- A field that is readable and writable, or has a shadow, stores what is written (R12). -/
theorem bget_regStore (r : RegRow) (old v : Word) (b : Bits)
    (h : ∀ i < b.w, (BitVec.ofNat 32 (r.rw ||| r.sh)).getLsbD (b.lo + i) = true) : bget (regStore r old v) b = bget v b := by
  apply Nat.eq_of_testBit_eq
  intro i
  rw [testBit_bget, testBit_bget]
  by_cases hi : i < b.w
  · simp only [regStore, BitVec.getLsbD_or, BitVec.getLsbD_and, BitVec.getLsbD_not, h i hi]
    cases v.getLsbD (b.lo + i) <;> simp
  · simp [hi]

/-- The row of FTM_TCn_CTL in the register map (R48). -/
def tcCtlRow : RegRow := ⟨0x300080, [(8, 0x10)], 0x1F0F, 0x0, 0x0, 0x0, 0x0, 0x0, 0x0, .none_⟩

theorem regRow_tcCtl (n : Fin 8) : regRow (rFTM_TC_CTL n) = some tcCtlRow := by
  revert n
  decide

theorem absentBits_tcCtl (n : Fin 8) : absentBits (rFTM_TC_CTL n) = 0 :=
  if_neg (by simp only [rFTM_TC_CTL, rTTH_CTL]; omega)

/-- Every field of FTM_TCn_CTL stores what is written. -/
theorem State.fget_storeWord_tcCtl (s : State) (n : Fin 8) (v : Word) {b : Bits}
    (hb : b ∈ [fFTM_TC_CTL_EN, fFTM_TC_CTL_ACT_EVT, fFTM_TC_CTL_ACT_LAT, fFTM_TC_CTL_ACT_PLS, fFTM_TC_CTL_CQ]) :
    (s.storeWord tcCtlRow (rFTM_TC_CTL n) v).fget (rFTM_TC_CTL n) b = bget v b := by
  have hrw : ∀ b ∈ [fFTM_TC_CTL_EN, fFTM_TC_CTL_ACT_EVT, fFTM_TC_CTL_ACT_LAT, fFTM_TC_CTL_ACT_PLS, fFTM_TC_CTL_CQ],
      ∀ i < b.w, (BitVec.ofNat 32 (tcCtlRow.rw ||| tcCtlRow.sh)).getLsbD (b.lo + i) = true := by decide
  have hall : ~~~(0 : Word) = BitVec.allOnes 32 := rfl
  rw [State.fget, State.storeWord, State.rget_rset, absentBits_tcCtl, hall, BitVec.and_allOnes]
  exact bget_regStore _ _ _ _ (hrw b hb)

theorem State.portWrite_stored (s : State) (via : RegPath) {o : Nat} (v : Word) (eff : Word → State → State) {r : RegRow}
    (hd : s.p8Denied via o = false) (hr : regRow o = some r) : s.portWrite via o v eff = eff (s.rget o) (s.storeWord r o v) := by
  simp [State.portWrite, hd, hr]

/-- The effect of a write of FTM_TCn_CTL is on its comparator alone, and there neither on its target nor on its period. -/
theorem tcCtlWritten_eq (n : Nat) (old : Word) (s : State) :
    tcCtlWritten n old s = { s with time := (tcCtlWritten n old s).time }
      ∧ ((tcCtlWritten n old s).time.comp n).target = (s.time.comp n).target
      ∧ ((tcCtlWritten n old s).time.comp n).period = (s.time.comp n).period := by
  unfold tcCtlWritten
  dsimp only
  split
  · exact ⟨rfl, rfl, rfl⟩
  · refine ⟨rfl, ?_, ?_⟩ <;> simp

/-- A comparator that is newly armed fires late if its target is already reached, and not in this core cycle. -/
theorem tcCtlWritten_arms (n : Nat) (old : Word) (s : State) (ho : bget old fFTM_TC_CTL_EN = 0)
    (he : s.flag (rFTM_TC_CTL n) fFTM_TC_CTL_EN = true) :
    ((tcCtlWritten n old s).time.comp n).lateArm = reached s.now (s.time.comp n).target
      ∧ ((tcCtlWritten n old s).time.comp n).wait = reached s.now (s.time.comp n).target := by
  simp [tcCtlWritten, ho, he]

theorem tcArm_completes (s : State) (n : Fin 8) (v : Word) (via : RegPath) (hd : s.p8Denied via (rFTM_TC_CTL n) = false) :
    Completes (.tcArm via n v) s (fun t =>
      [fFTM_TC_CTL_EN, fFTM_TC_CTL_ACT_EVT, fFTM_TC_CTL_ACT_LAT, fFTM_TC_CTL_ACT_PLS, fFTM_TC_CTL_CQ].all
          (fun b => t.fget (rFTM_TC_CTL n) b == bget v b) = true
        ∧ (t.time.comp n).target = (s.time.comp n).target ∧ (t.time.comp n).period = (s.time.comp n).period
        ∧ (s.flag (rFTM_TC_CTL n) fFTM_TC_CTL_EN = false → bget v fFTM_TC_CTL_EN = 1 →
          (t.time.comp n).lateArm = reached s.now (s.time.comp n).target ∧ (t.time.comp n).wait = reached s.now (s.time.comp n).target)
        ∧ t.wrote { s with time := t.time } [rFTM_TC_CTL n]) := by
  have hw := s.portWrite_stored via v (tcCtlWritten n) hd (regRow_tcCtl n)
  have hf := fun b hb => s.fget_storeWord_tcCtl n v (b := b) hb
  obtain ⟨heq, htgt, hper⟩ := tcCtlWritten_eq n (s.rget (rFTM_TC_CTL n)) (s.storeWord tcCtlRow (rFTM_TC_CTL n) v)
  refine ⟨_, congrArg Host.Outcome.next hw, ?_, htgt, hper, fun ho he => ?_, ?_⟩
  · rw [List.all_eq_true, heq]
    exact fun b hb => beq_iff_eq.2 (hf b hb)
  · refine tcCtlWritten_arms n _ (s.storeWord tcCtlRow (rFTM_TC_CTL n) v) ?_ ?_
    · simpa [State.flag, State.fget] using ho
    · rw [State.flag, hf _ List.mem_cons_self, he]
      rfl
  · rw [heq]
    exact ⟨rfl, fun o ho => s.rget_rset_ne _ (fun he => ho (List.mem_singleton.2 he))⟩

/-! ### A comparator that fires (R39, R45) -/

theorem State.flag_raise_field (s : State) (o : Nat) {b c : Bits} (h : c.lo + c.w ≤ b.lo ∨ b.lo + b.w ≤ c.lo) :
    (s.raise o b).flag o c = s.flag o c := by
  rw [State.flag, State.raise, State.fget_fset_field _ _ _ _ _ h]; rfl

/-- The state with the firing of a comparator shown in its status. -/
def State.tcShown (s : State) (n : Nat) : State :=
  let c := s.time.comp n
  let o := rFTM_TC_STAT n
  let s := s.raise o fFTM_TC_STAT_FIRED
  let s := if c.lateArm then s.raise o fFTM_TC_STAT_LATE else s
  if c.stepped then s.raise o fFTM_TC_STAT_STEPPED else s

theorem State.tcShown_time (s : State) (n : Nat) : (s.tcShown n).time = s.time := by
  unfold State.tcShown
  dsimp only
  split <;> split <;> rfl

theorem State.tcShown_rget (s : State) (n : Nat) {o : Nat} (h : o ≠ rFTM_TC_STAT n) : (s.tcShown n).rget o = s.rget o := by
  have hr : ∀ (u : State) (b : Bits), (u.raise (rFTM_TC_STAT n) b).rget o = u.rget o := fun u b => u.rget_fset_ne b 1 h
  unfold State.tcShown
  dsimp only
  split <;> split <;> simp only [hr]

theorem State.tcShown_flags (s : State) (n : Nat) :
    (s.tcShown n).flag (rFTM_TC_STAT n) fFTM_TC_STAT_FIRED = true
      ∧ ((s.time.comp n).lateArm = true → (s.tcShown n).flag (rFTM_TC_STAT n) fFTM_TC_STAT_LATE = true)
      ∧ ((s.time.comp n).stepped = true → (s.tcShown n).flag (rFTM_TC_STAT n) fFTM_TC_STAT_STEPPED = true) := by
  have hF := fun u : State => u.flag_raise (rFTM_TC_STAT n) fFTM_TC_STAT_FIRED (by decide) (by decide)
  have hL := fun u : State => u.flag_raise (rFTM_TC_STAT n) fFTM_TC_STAT_LATE (by decide) (by decide)
  have hS := fun u : State => u.flag_raise (rFTM_TC_STAT n) fFTM_TC_STAT_STEPPED (by decide) (by decide)
  have hFL := fun u : State => u.flag_raise_field (rFTM_TC_STAT n) (b := fFTM_TC_STAT_LATE) (c := fFTM_TC_STAT_FIRED) (by decide)
  have hFS := fun u : State => u.flag_raise_field (rFTM_TC_STAT n) (b := fFTM_TC_STAT_STEPPED) (c := fFTM_TC_STAT_FIRED) (by decide)
  have hLS := fun u : State => u.flag_raise_field (rFTM_TC_STAT n) (b := fFTM_TC_STAT_STEPPED) (c := fFTM_TC_STAT_LATE) (by decide)
  unfold State.tcShown
  dsimp only
  refine ⟨?_, fun hl => ?_, fun hs => ?_⟩
  · split <;> split <;> simp only [hF, hFL, hFS]
  · rw [if_pos hl]
    split <;> simp only [hL, hLS]
  · rw [if_pos hs, hS]

/-- The state with the firing shown, offered to the latch units and posted. -/
def State.tcFired (s : State) (n : Nat) : State :=
  let t := (s.time.comp n).target
  let s := s.tcShown n
  let s := if s.flag (rFTM_TC_CTL n) fFTM_TC_CTL_ACT_LAT then s.latOffer (0x2E + n) true t else s
  s.tcPost n t

theorem execTimeComparatorFire_due (s : State) (n : Fin 8) (h : s.tcDue n = true) :
    execTimeComparatorFire n s = .next (((s.tcFired n).tcPulse n).tcAdvance n) := if_pos h
theorem execTimeComparatorFire_idle (s : State) (n : Fin 8) (h : s.tcDue n = false) : execTimeComparatorFire n s = .next s :=
  if_neg (by simp [h])

theorem State.ftm_tcPost (s : State) (n : Nat) (t : FTime) : (s.tcPost n t).ftm = s.ftm := by
  have hq : s.fget (rFTM_TC_CTL n) fFTM_TC_CTL_CQ < 32 := bget_lt _ _
  simp [State.tcPost, hq]

theorem State.ftm_tcFired (s : State) (n : Nat) : (s.tcFired n).ftm = (s.tcShown n).ftm := by
  simp [State.tcFired, State.ftm_tcPost, State.ftm_latOffer]

theorem State.tcFired_time (s : State) (n : Nat) : (s.tcFired n).time = s.time :=
  (State.time_of_ftm (s.ftm_tcFired n)).trans (s.tcShown_time n)

/-- Firing leaves the control register of the comparator. -/
theorem State.tcFired_ctl (s : State) (n : Fin 8) (b : Bits) : (s.tcFired n).flag (rFTM_TC_CTL n) b = s.flag (rFTM_TC_CTL n) b := by
  rw [State.flag_of_ftm (s.ftm_tcFired n) b (tcCtl_block n), State.flag, State.fget, s.tcShown_rget n (tcCtl_ne_tcStat n)]
  rfl

/-! The pulse action. -/

theorem State.tcPulse_flag (s : State) (n o : Nat) (b : Bits) : (s.tcPulse n).flag o b = s.flag o b := by
  unfold State.tcPulse; split <;> rfl
theorem State.tcPulse_now (s : State) (n : Nat) : (s.tcPulse n).now = s.now := by
  unfold State.tcPulse; split <;> rfl
theorem State.tcPulse_comp (s : State) (n : Nat) : ((s.tcPulse n).time.comp n).target = (s.time.comp n).target
    ∧ ((s.tcPulse n).time.comp n).period = (s.time.comp n).period := by
  unfold State.tcPulse
  split
  · simp
  · exact ⟨rfl, rfl⟩
theorem State.tcPulse_out (s : State) (n : Nat) (h : s.flag (rFTM_TC_CTL n) fFTM_TC_CTL_ACT_PLS = true) :
    ((s.tcPulse n).time.comp n).out = true ∧ ((s.tcPulse n).time.comp n).outEnd = s.now + BitVec.ofNat 64 16000000 := by
  rw [State.tcPulse, if_pos h]
  simp [usUnits]

/-! The advance of the target. -/

theorem State.tcAdvance_once (s : State) (n : Nat) (h : (s.time.comp n).period = 0) : s.tcAdvance n =
    (s.fset (rFTM_TC_CTL n) fFTM_TC_CTL_EN 0).updTime
      (fun u => u.setComp n { s.time.comp n with lateArm := false, stepped := false }) := if_pos h

/-- The state after the firing of a periodic comparator: the periods skipped are counted, the target lies after now (R45). -/
theorem State.tcAdvance_periodic (s : State) (n : Nat) (h : (s.time.comp n).period ≠ 0) : s.tcAdvance n =
    let c := s.time.comp n
    let k := periodsPast c.target c.period.toNat s.now
    (s.fset (rFTM_TC_STAT n) fFTM_TC_STAT_SKIP (min 0xFFFF (s.fget (rFTM_TC_STAT n) fFTM_TC_STAT_SKIP + (k - 1)))).updTime
      (fun u => u.setComp n { c with target := c.target + BitVec.ofNat 64 (k * c.period.toNat), lateArm := false, stepped := false }) :=
  if_neg h

theorem State.tcAdvance_now (s : State) (n : Nat) : (s.tcAdvance n).now = s.now := by
  by_cases h : (s.time.comp n).period = 0
  · rw [s.tcAdvance_once n h]; rfl
  · rw [s.tcAdvance_periodic n h]; rfl

theorem State.tcAdvance_out (s : State) (n : Nat) : ((s.tcAdvance n).time.comp n).out = (s.time.comp n).out
    ∧ ((s.tcAdvance n).time.comp n).outEnd = (s.time.comp n).outEnd := by
  by_cases h : (s.time.comp n).period = 0
  · rw [s.tcAdvance_once n h]; simp
  · rw [s.tcAdvance_periodic n h]; simp

/-- Of the status of the comparator, the advance changes SKIP alone. -/
theorem State.tcAdvance_flag (s : State) (n : Nat) {b : Bits} (hb : b.lo + b.w ≤ 16) :
    (s.tcAdvance n).flag (rFTM_TC_STAT n) b = s.flag (rFTM_TC_STAT n) b := by
  by_cases h : (s.time.comp n).period = 0
  · rw [s.tcAdvance_once n h]
    exact congrArg (· != 0) (s.fget_fset_reg _ _ _ (tcCtl_ne_tcStat n).symm)
  · rw [s.tcAdvance_periodic n h]
    exact congrArg (· != 0) (s.fget_fset_field _ _ _ _ (.inl hb))

theorem State.tcAdvance_stops (s : State) (n : Nat) (h : (s.time.comp n).period = 0) :
    (s.tcAdvance n).flag (rFTM_TC_CTL n) fFTM_TC_CTL_EN = false ∧ ((s.tcAdvance n).time.comp n).target = (s.time.comp n).target := by
  rw [s.tcAdvance_once n h]
  refine ⟨congrArg (· != 0) (s.fget_fset _ _ 0 (by decide)), ?_⟩
  simp

theorem State.tcAdvance_goes_on (s : State) (n : Nat) (h : (s.time.comp n).period ≠ 0) :
    ((s.tcAdvance n).time.comp n).target = (s.time.comp n).target
        + BitVec.ofNat 64 (((s.now - (s.time.comp n).target).toNat / (s.time.comp n).period.toNat + 1) * (s.time.comp n).period.toNat)
      ∧ (s.tcAdvance n).flag (rFTM_TC_CTL n) fFTM_TC_CTL_EN = s.flag (rFTM_TC_CTL n) fFTM_TC_CTL_EN := by
  rw [s.tcAdvance_periodic n h]
  refine ⟨?_, congrArg (· != 0) (s.fget_fset_reg _ _ _ (tcCtl_ne_tcStat n))⟩
  simp [periodsPast]

theorem timeComparatorFire_fires (s : State) (n : Fin 8) (he : s.flag (rFTM_TC_CTL n) fFTM_TC_CTL_EN = true)
    (hr : reached s.now (s.time.comp n).target = true) (hw : (s.time.comp n).wait = false) :
    Completes (.timeComparatorFire n) s (fun t => t.flag (rFTM_TC_STAT n) fFTM_TC_STAT_FIRED = true ∧ t.now = s.now
      ∧ ((s.time.comp n).lateArm = true → t.flag (rFTM_TC_STAT n) fFTM_TC_STAT_LATE = true)
      ∧ ((s.time.comp n).stepped = true → t.flag (rFTM_TC_STAT n) fFTM_TC_STAT_STEPPED = true)
      ∧ ((s.time.comp n).period = 0 → t.flag (rFTM_TC_CTL n) fFTM_TC_CTL_EN = false ∧ (t.time.comp n).target = (s.time.comp n).target)
      ∧ ((s.time.comp n).period ≠ 0 → (t.time.comp n).target = (s.time.comp n).target
          + BitVec.ofNat 64 (((s.now - (s.time.comp n).target).toNat / (s.time.comp n).period.toNat + 1) * (s.time.comp n).period.toNat)
        ∧ t.flag (rFTM_TC_CTL n) fFTM_TC_CTL_EN = true)
      ∧ (s.flag (rFTM_TC_CTL n) fFTM_TC_CTL_ACT_PLS = true → (t.time.comp n).out = true
        ∧ (t.time.comp n).outEnd = s.now + BitVec.ofNat 64 16000000)) := by
  have htime := s.tcFired_time n
  have hnow : (s.tcFired n).now = s.now := congrArg TimeUnit.ft htime
  obtain ⟨htgt, hper⟩ := (s.tcFired n).tcPulse_comp n
  rw [htime] at htgt hper
  have hstat : ∀ b : Bits, b.lo + b.w ≤ 16 → (((s.tcFired n).tcPulse n).tcAdvance n).flag (rFTM_TC_STAT n) b
      = (s.tcShown n).flag (rFTM_TC_STAT n) b := fun b hb => by
    rw [State.tcAdvance_flag _ _ hb, State.tcPulse_flag, State.flag_of_ftm (s.ftm_tcFired n) b (tcStat_block n)]
  obtain ⟨hfired, hlate, hstepped⟩ := s.tcShown_flags n
  refine ⟨_, execTimeComparatorFire_due s n (by simp [State.tcDue, he, hr, hw]), ?_, ?_, fun hl => ?_, fun hs => ?_, fun hp => ?_,
    fun hp => ?_, fun hpls => ?_⟩
  · rw [hstat _ (by decide), hfired]
  · rw [State.tcAdvance_now, State.tcPulse_now, hnow]
  · rw [hstat _ (by decide), hlate hl]
  · rw [hstat _ (by decide), hstepped hs]
  · rw [← htgt]
    exact State.tcAdvance_stops _ n (hper.trans hp)
  · obtain ⟨ht, hen⟩ := State.tcAdvance_goes_on ((s.tcFired n).tcPulse n) n (by rwa [hper])
    rw [htgt, hper, State.tcPulse_now, hnow] at ht
    exact ⟨ht, by rw [hen, State.tcPulse_flag, s.tcFired_ctl, he]⟩
  · obtain ⟨ho, hend⟩ := State.tcAdvance_out ((s.tcFired n).tcPulse n) n
    obtain ⟨ho', hend'⟩ := (s.tcFired n).tcPulse_out n (by rw [s.tcFired_ctl, hpls])
    exact ⟨ho.trans ho', by rw [hend, hend', hnow]⟩

theorem tcPulseEnd_completes (s : State) (n : Fin 8) (ho : (s.time.comp n).out = true) (hr : reached s.now (s.time.comp n).outEnd = true) :
    Completes (.tcPulseEnd n) s (fun t => t = { s with time := t.time } ∧ (t.time.comp n).out = false
      ∧ ∀ k ≠ n.val, t.time.comp k = s.time.comp k) := by
  refine ⟨_, if_pos ⟨ho, hr⟩, rfl, ?_, fun k hk => TimeUnit.comp_setComp_ne _ _ hk⟩
  simp

/-! ### PPS_OUT (R44) -/

theorem ppsOutRise_completes (s : State) (he : s.flag rFTM_CTL fFTM_CTL_PPS_EN = true) (hs : s.flag rFTM_CTL fFTM_CTL_PPS_SRC = false)
    (hd : s.ppsSince < tdiff s.now s.time.prev) :
    Completes .ppsOutRise s (fun t => t = { s with time := t.time } ∧ t.ppsOut = true
      ∧ t.time.ppsEnd = s.now + BitVec.ofNat 64 (ppsWidth (s.fget rFTM_PPS_CTL fFTM_PPS_CTL_WIDTH) * 16000000)) := by
  have hdue : s.ppsDue = true := by simp [State.ppsDue, he, hs, hd]
  refine ⟨_, if_pos hdue, rfl, ?_, ?_⟩
  · simp [State.ppsOut, he, hs]
  · simp only [State.updTime_time, usUnits, Nat.mul_assoc]

theorem ppsOutFall_completes (s : State) (hg : s.time.ppsGen = true) (hr : reached s.now s.time.ppsEnd = true) :
    Completes .ppsOutFall s (fun t => t = { s with time := { s.time with ppsGen := false } }
      ∧ (s.flag rFTM_CTL fFTM_CTL_PPS_SRC = false → t.ppsOut = false)) := by
  refine ⟨_, if_pos ⟨hg, hr⟩, rfl, fun hs => ?_⟩
  simp [State.ppsOut, hs]

/-! ### Time-stamp inputs (R43) -/

/-- A selected edge on an input whose queue has room is stamped. -/
theorem execTsiEdge_stamped (s : State) (k : Fin 4) (rising : Bool)
    (he : (s.fget rFTM_TSI_CTL (fFTM_TSI_CTL_EDGE k)).testBit (if rising then 0 else 1) = true) (hl : (tget [] s.time.tsi k).length < 4) :
    execTsiEdge k rising s = .next (((s.latOffer (0x2A + k) rising (s.now - s.threeCycles)).updTime (fun u =>
      { u with tsi := tset [] u.tsi k (tget [] s.time.tsi k ++ [(rising, s.now - s.threeCycles)]) })).fset rFTM_TSI_STAT (tsiCnt k)
        ((tget [] s.time.tsi k).length + 1)) := by
  have hv := s.ftm_latOffer (0x2A + k) rising (s.now - s.threeCycles)
  unfold execTsiEdge
  dsimp only
  rw [State.fget_of_ftm hv _ (by decide), if_pos he, State.time_of_ftm hv, if_neg (Nat.not_le.2 hl)]

theorem tsiEdge_completes (s : State) (k : Fin 4) (rising : Bool)
    (he : (s.fget rFTM_TSI_CTL (fFTM_TSI_CTL_EDGE k)).testBit (if rising then 0 else 1) = true) (hl : (tget [] s.time.tsi k).length < 4) :
    Completes (.tsiEdge k rising) s (fun t => tget [] t.time.tsi k = tget [] s.time.tsi k ++ [(rising, s.now - s.threeCycles)]
      ∧ t.fget rFTM_TSI_STAT (tsiCnt k) = (tget [] s.time.tsi k).length + 1 ∧ t.now = s.now) := by
  have hnow : (s.latOffer (0x2A + k) rising (s.now - s.threeCycles)).now = s.now :=
    congrArg TimeUnit.ft (State.time_of_ftm (s.ftm_latOffer _ _ _))
  refine ⟨_, execTsiEdge_stamped s k rising he hl, tget_tset_same _ _ _ _, ?_, hnow⟩
  rw [State.fget_fset _ _ _ _ (by simp only [tsiCnt]; omega)]
  exact Nat.mod_eq_of_lt (show _ < 8 by omega)

/-! ### The distribution of time (R64) -/

/-- A frame is queued at a port that is UP. -/
def State.queueUp (f : Frame) (s : State) (t : Nat) : State := if s.link t = lkUP then s.txQueue t f else s

theorem State.queueUp_ports (f : Frame) (s : State) (t : Nat) : s.queueUp f t = { s with ports := (s.queueUp f t).ports } := by
  unfold State.queueUp; split <;> rfl

theorem State.queueUp_port_ne (f : Frame) (s : State) {t k : Nat} (h : k ≠ t) : (s.queueUp f t).port k = s.port k := by
  unfold State.queueUp
  split
  · exact s.port_setPort_ne _ h
  · rfl

/-- What waits at the port grows by the frame if it is UP; what else the link is told by stays. -/
theorem State.queueUp_port (f : Frame) (s : State) (t : Nat) : ((s.queueUp f t).port t).mis = (s.port t).mis
    ∧ ((s.queueUp f t).port t).waiting = (s.port t).waiting ++ if s.link t = lkUP then [f] else [] := by
  unfold State.queueUp
  split <;> simp [State.txQueue]

theorem State.queueUp_link (f : Frame) (s : State) (t k : Nat) : (s.queueUp f t).link k = s.link k := by
  have hm : ((s.queueUp f t).port k).mis = (s.port k).mis := by
    by_cases h : k = t
    · rw [h]; exact (s.queueUp_port f t).1
    · rw [s.queueUp_port_ne f h]
  have hf : (s.queueUp f t).fget (rTTH_STAT k) fTTH_STAT_LINK = s.fget (rTTH_STAT k) fTTH_STAT_LINK := by rw [s.queueUp_ports f t]; rfl
  rw [State.link, State.link, hf, hm]

/-- A frame queued at all of the first ports that are UP. -/
theorem State.foldl_queueUp (f : Frame) (s : State) (m : Nat) :
    (List.range m).foldl (State.queueUp f) s = { s with ports := ((List.range m).foldl (State.queueUp f) s).ports }
    ∧ (∀ k, ((List.range m).foldl (State.queueUp f) s).link k = s.link k)
    ∧ ∀ k, (((List.range m).foldl (State.queueUp f) s).port k).waiting
        = (s.port k).waiting ++ if k < m ∧ s.link k = lkUP then [f] else [] := by
  induction m with
  | zero => simp
  | succ m ih =>
    rw [List.range_succ, List.foldl_append, List.foldl_cons, List.foldl_nil]
    generalize (List.range m).foldl (State.queueUp f) s = u at ih ⊢
    obtain ⟨hs, hl, hw⟩ := ih
    refine ⟨?_, fun k => (u.queueUp_link f m k).trans (hl k), fun k => ?_⟩
    · rw [u.queueUp_ports f m, hs]
    · by_cases hk : k = m
      · rw [hk, (u.queueUp_port f m).2, hw, hl]
        simp
      · have hlt : k < m + 1 ↔ k < m := by omega
        rw [u.queueUp_port_ne f hk, hw]
        simp only [hlt]

theorem timeDistribution_due (s : State) (he : s.flag rFTM_CTL fFTM_CTL_TDIST_EN = true) (hd : s.tdistDue = true) :
    Completes .timeDistribution s (fun t => t = { s with ports := t.ports, time := { s.time with tdLast := some s.now } }
      ∧ ∀ k < 24, (t.port k).waiting = (s.port k).waiting ++ if s.link k = lkUP then [timeFrame] else []) := by
  obtain ⟨hs, -, hw⟩ := State.foldl_queueUp timeFrame (s.updTime (fun u => { u with tdLast := some s.now })) 24
  refine ⟨_, if_pos ⟨he, hd⟩, hs, fun k hk => (hw k).trans ?_⟩
  have hlink : (s.updTime (fun u => { u with tdLast := some s.now })).link k = s.link k := rfl
  rw [hlink]
  simp only [hk, true_and]
  rfl

end Sys2Proof.Machine

/-- Settles O13: clause by clause, each by the lemma on its row; the second by what a core cycle makes of a comparator. -/
theorem timeEventRows : Obligations.TimeEventRows := by
  unfold Obligations.TimeEventRows
  intro s
  refine ⟨fun set via off h => ⟨ftStep_accepted s set via off h, ftStep_refused s set via off h⟩,
    fun hp hc hh => ⟨_, step_idle s hp, s.comp_cycle hc hh⟩, fun n v via hd => tcArm_completes s n v via hd,
    fun n he hr => ⟨fun hw => ?_, timeComparatorFire_fires s n he hr⟩, tcPulseEnd_completes s, ppsOutRise_completes s,
    ppsOutFall_completes s, tsiEdge_completes s, fun he => ⟨timeDistribution_due s he, fun hd => ?_⟩⟩
  · exact ⟨s, execTimeComparatorFire_idle s n (by simp [State.tcDue, hw]), rfl⟩
  · exact ⟨s, if_neg (by simp [hd]), rfl⟩
end

section
/-! SUPPORT. A frame that a port receives with a fault: one counter takes it, and nothing else does. -/
open Sys2Proof Sys2Proof.Machine
namespace Sys2Proof.Machine

/-- A counter adds what it is told and stops at 0xFFFF (R90). -/
theorem State.fget_countN (s : State) (o n : Nat) : (s.countN o n).fget o cntBits = min 0xFFFF (s.fget o cntBits + n) := by
  simp only [State.countN, State.raise]
  split
  · rw [State.fget_fset_field _ _ _ _ _ (by decide), State.fget_fset _ _ _ _ (by decide)]
    simp only [cntBits] at *
    omega
  · rw [State.fget_fset _ _ _ _ (by decide)]
    simp only [cntBits] at *
    omega

/-- The counter that takes a faulty frame without code violations: that of the first fault that it shows (R89; log entry 117). -/
def rxFaultCounter (q : RxQual) (fr : Frame) : Nat :=
  if q.eofx ∨ q.fmtOk = false then cFMTERR else if q.crc ≠ frameCrc fr then cCRCERR else cRXDROP

/-- A faulty frame is discarded: its code violations are counted, and without any the first fault that it shows. -/
theorem State.rxCheck_faulty (s : State) (t : Nat) (q : RxQual) (fr : Frame) (nonTick : Bool)
    (h : q.cv ≠ 0 ∨ q.eofx = true ∨ q.fmtOk = false ∨ q.crc ≠ frameCrc fr ∨ q.full = true) :
    s.rxCheck t q fr nonTick = (if q.cv ≠ 0 then s.tthCountN t cCVERR (q.cv + q.cvBetween)
      else (s.tthCountN t cCVERR (q.cv + q.cvBetween)).tthCountN t (rxFaultCounter q fr) 1, false) := by
  unfold State.rxCheck rxFaultCounter
  by_cases hcv : q.cv ≠ 0
  · simp [hcv]
  by_cases hfmt : q.eofx ∨ q.fmtOk = false
  · simp [hcv, hfmt]
  by_cases hcrc : q.crc ≠ frameCrc fr
  · simp [hcv, hfmt, hcrc]
  have hfull : q.full = true := by tauto
  simp [hcv, hfmt, hcrc, hfull]

/-- No fault but code violations counts in CVERR. -/
theorem cCVERR_ne_rxFaultCounter (q : RxQual) (fr : Frame) (t : Nat) : rTTH_ERR t cCVERR ≠ rTTH_ERR t (rxFaultCounter q fr) := by
  unfold rxFaultCounter
  split
  · simp [rTTH_ERR, cCVERR, cFMTERR]
  · split <;> simp [rTTH_ERR, cCVERR, cCRCERR, cRXDROP]

/-- A frame received with a fault leaves all but the counters of its port. -/
theorem State.rx_faulty (s : State) (t : Nat) (q : RxQual) (fr : Frame) (f : State → State) (ht : t < 24) (hl : s.link t = lkUP)
    (h : q.cv ≠ 0 ∨ q.eofx = true ∨ q.fmtOk = false ∨ q.crc ≠ frameCrc fr ∨ q.full = true) :
    (s.rx t q fr f).wrote s (rTTH_ERR t cCVERR :: if q.cv ≠ 0 then [] else [rTTH_ERR t (rxFaultCounter q fr)])
      ∧ (s.rx t q fr f).fget (rTTH_ERR t cCVERR) cntBits = min 0xFFFF (s.fget (rTTH_ERR t cCVERR) cntBits + (q.cv + q.cvBetween)) := by
  have hw := s.tthCountN_wrote t cCVERR (q.cv + q.cvBetween)
  have hc : (s.tthCountN t cCVERR (q.cv + q.cvBetween)).fget (rTTH_ERR t cCVERR) cntBits
      = min 0xFFFF (s.fget (rTTH_ERR t cCVERR) cntBits + (q.cv + q.cvBetween)) := by
    rw [State.tthCountN, if_pos (.inl ht), State.fget_countN]
  rw [State.rx, if_pos hl, s.rxCheck_faulty t q fr _ h]
  by_cases hcv : q.cv ≠ 0
  · simp only [if_pos hcv]
    exact ⟨hw, hc⟩
  · simp only [if_neg hcv]
    have hw' := (s.tthCountN t cCVERR (q.cv + q.cvBetween)).tthCountN_wrote t (rxFaultCounter q fr) 1
    refine ⟨State.wrote_mono (State.wrote_trans hw' hw) (by simp), ?_⟩
    rw [State.fget, hw'.2 _ (by simpa using cCVERR_ne_rxFaultCounter q fr t)]
    exact hc

end Sys2Proof.Machine

/-- Settles O17: a faulty frame of any kind changes its port's counters alone, and so does a CREDIT. -/
theorem rxErrors : Obligations.RxErrors := by
  unfold Obligations.RxErrors
  intro s t pos n q ht hl f hbad
  obtain ⟨hw, hc⟩ := s.rx_faulty t q f (fun s => (s.returnCredits t pos n.toNat).1) ht hl hbad
  exact ⟨_, rfl, hw, fun hlt h0 => by rw [hc, h0]; omega⟩
end

section
/-! SUPPORT. The gondolas but for their legs: what the operations on legs and what shows them leave as it was. -/
open Sys2Proof Sys2Proof.Machine
namespace Sys2Proof.Machine

/-! ### Reading back gondolas, channels and links -/

@[simp] theorem Gondola.chan_updChan (g : Gondola) (c : Nat) (f : GChan → GChan) : (g.updChan c f).chan c = f (g.chan c) := by
  simp [Gondola.updChan, Gondola.setChan, Gondola.chan]
theorem Gondola.chan_updChan_ne (g : Gondola) {c j : Nat} (f : GChan → GChan) (h : j ≠ c) : (g.updChan c f).chan j = g.chan j := by
  simp [Gondola.updChan, Gondola.setChan, Gondola.chan, tget_tset_ne _ _ _ _ h]
theorem State.gon_updGon_ne (s : State) {n m : Nat} (f : Gondola → Gondola) (h : m ≠ n) : (s.updGon n f).gon m = s.gon m :=
  s.gon_setGon_ne _ h

/-! ### What legs do not touch -/

/-- The gondolas and their channels, but for legs, carriers and registers. -/
def State.legless (s : State) : Nat → Gondola × (Nat → GChan) := fun n =>
  ({ s.gon n with chans := [], regs := [] }, fun c => { (s.gon n).chan c with legs := [], carrier := none })

/-- The device, and every gondola but one. -/
def State.apart (s : State) (n : Nat) : State × (Nat → Gondola) := ({ s with gons := [] }, fun m => if m = n then {} else s.gon m)

theorem State.legless_of_gons {s u : State} (h : u.gons = s.gons) : u.legless = s.legless := by
  funext n
  simp only [State.legless, State.gon, h]

/-- A change of one gondola that keeps all but legs, carriers and registers. -/
theorem State.legless_updGon (s : State) (n : Nat) (f : Gondola → Gondola)
    (hg : ∀ g, { f g with chans := [], regs := [] } = { g with chans := [], regs := [] })
    (hc : ∀ g c, { (f g).chan c with legs := [], carrier := none } = { g.chan c with legs := [], carrier := none }) :
    (s.updGon n f).legless = s.legless := by
  funext m
  by_cases hm : m = n
  · subst hm
    simp only [State.legless, State.gon_updGon, hg, hc]
  · simp only [State.legless, s.gon_updGon_ne f hm]

theorem State.legless_updChan (s : State) (n c : Nat) (f : GChan → GChan)
    (h : ∀ x, { f x with legs := [], carrier := none } = { x with legs := [], carrier := none }) :
    (s.updGon n (fun g => g.updChan c f)).legless = s.legless := by
  refine s.legless_updGon n _ (fun _ => rfl) (fun g j => ?_)
  by_cases hj : j = c
  · rw [hj, Gondola.chan_updChan, h]
  · rw [g.chan_updChan_ne f hj]

@[simp] theorem State.apart_updGon (s : State) (n : Nat) (f : Gondola → Gondola) : (s.updGon n f).apart n = s.apart n := by
  simp only [State.apart, Prod.mk.injEq]
  refine ⟨rfl, funext fun m => ?_⟩
  split
  · rfl
  · next h => exact s.gon_updGon_ne f h

/-- A fold of operations that keep a projection of the state keeps it. -/
theorem foldl_keeps {α β : Type} (p : State → β) (f : State → α → State) (l : List α) (s : State) (h : ∀ s x, p (f s x) = p s) :
    p (l.foldl f s) = p s := by
  induction l generalizing s with
  | nil => rfl
  | cons x l ih => exact (ih _).trans (h s x)

/-! ### Operations on legs -/

@[simp] theorem State.legless_gcount (s : State) (n k : Nat) : (s.gcount n k).legless = s.legless :=
  s.legless_updGon _ _ (fun _ => rfl) (fun _ _ => rfl)

@[simp] theorem State.legless_legPut (s : State) (n c k : Nat) (t : FTime) (v : BitVec 2) : (s.legPut n c k t v).legless = s.legless :=
  s.legless_updChan n c _ (fun _ => rfl)
@[simp] theorem State.apart_legPut (s : State) (n c k : Nat) (t : FTime) (v : BitVec 2) : (s.legPut n c k t v).apart n = s.apart n :=
  s.apart_updGon n _

@[simp] theorem State.legless_legCmd (s : State) (n c k : Nat) (t : FTime) (v : BitVec 2) : (s.legCmd n c k t v).legless = s.legless := by
  unfold State.legCmd
  split
  · exact s.legless_legPut n c k t v
  · dsimp only
    split
    · exact (State.legless_gcount _ _ _).trans (s.legless_updChan n c _ (fun _ => rfl))
    · exact s.legless_updChan n c _ (fun _ => rfl)

@[simp] theorem State.legless_legsCmd (s : State) (n c : Nat) (t : FTime) (f : Nat → BitVec 2) : (s.legsCmd n c t f).legless = s.legless :=
  foldl_keeps State.legless _ _ _ (fun u k => u.legless_legCmd n c k t (f k))

@[simp] theorem State.legless_legsCancel (s : State) (n c : Nat) (t : FTime) : (s.legsCancel n c t).legless = s.legless :=
  foldl_keeps State.legless _ _ _ (fun u _ => u.legless_updChan n c _ (fun _ => rfl))

/-- An override leaves what a projection of the state keeps if it keeps that in a change of carrier and in a change of a leg. -/
theorem State.overCh_keeps {β : Type} (p : State → β) (s : State) (n c : Nat) (t : FTime)
    (hcar : ∀ (u : State) (F : Option Carrier → Option Carrier),
      p (u.updGon n (fun g => g.updChan c (fun ch => { ch with carrier := F ch.carrier }))) = p u)
    (hput : ∀ (u : State) k v, p (u.legPut n c k t v) = p u) : p (s.overCh n c t) = p s := by
  unfold State.overCh
  dsimp only
  rw [foldl_keeps p]
  · split
    · rfl
    · exact hcar s _
  · intro u k
    split
    · split
      · rfl
      · exact hput u k _
    · rfl

@[simp] theorem State.legless_overCh (s : State) (n c : Nat) (t : FTime) : (s.overCh n c t).legless = s.legless :=
  State.overCh_keeps State.legless s n c t (fun u _ => u.legless_updChan n c _ (fun _ => rfl)) (fun u k v => u.legless_legPut n c k t v)
theorem State.apart_overCh (s : State) (n c : Nat) (t : FTime) : (s.overCh n c t).apart n = s.apart n :=
  State.overCh_keeps (State.apart · n) s n c t (fun u _ => u.apart_updGon n _) (fun u k v => u.apart_legPut n c k t v)

/-! ### What shows the legs -/

theorem State.gons_showLeg (s : State) (t : FTime) (n c k o : Nat) (b : Bits) (w1 : Bool) : (s.showLeg t n c k o b w1).gons = s.gons := rfl

theorem State.gons_showCh (t : FTime) (s : State) (c : Nat) : (s.showCh t c).gons = s.gons :=
  foldl_keeps State.gons _ _ _ (fun u k => by dsimp only; split <;> rfl)

theorem State.gons_showSpare (s : State) (l : Nat) : (s.showSpare l).gons = s.gons := by
  unfold State.showSpare
  split <;> rfl

/-- The leg states of the home gondola are shown in registers of the device. -/
theorem State.gons_homeView (s : State) (t : FTime) : (s.homeView t).gons = s.gons := by
  refine (foldl_keeps State.gons _ _ _ fun u c => u.gons_showLeg t homeBal c 0 rPGN_HSTAT ⟨24 + c, 1⟩ true).trans ?_
  refine (foldl_keeps State.gons _ _ _ State.gons_showSpare).trans ?_
  refine (foldl_keeps State.gons _ _ _ (State.gons_showCh t)).trans ?_
  exact foldl_keeps State.gons _ _ _ fun u j => u.rset_gons (rPGN_LEGST j) 0

theorem State.gons_gview (s : State) (n : Nat) (t : FTime) : (s.gview n t).gons = s.gons := by
  unfold State.gview
  split
  · exact s.gons_homeView t
  · rfl

@[simp] theorem State.gon_gview (s : State) (n m : Nat) (t : FTime) : (s.gview n t).gon m = s.gon m := by
  exact congrArg (tget ({} : Gondola) · m) (s.gons_gview n t)

@[simp] theorem State.legless_gview (s : State) (n : Nat) (t : FTime) : (s.gview n t).legless = s.legless :=
  State.legless_of_gons (s.gons_gview n t)

/-- A gondola away from the device is shown by its frames alone. -/
theorem State.gview_away (s : State) {n : Nat} (t : FTime) (h : isHome n = false) : s.gview n t = s := if_neg (by simp [h])

@[simp] theorem State.legless_overAll (s : State) (n : Nat) (t : FTime) : (s.overAll n t).legless = s.legless := by
  rw [State.overAll, State.legless_gview]
  exact foldl_keeps State.legless _ _ _ (fun u m => foldl_keeps State.legless _ _ _ (fun v c => v.legless_overCh m c t))

theorem State.apart_overAll (s : State) {n : Nat} (t : FTime) (h : isHome n = false) : (s.overAll n t).apart n = s.apart n := by
  rw [State.overAll, State.gview_away _ _ h, nodesOf, if_neg (by simp [h]), List.foldl_cons, List.foldl_nil]
  exact foldl_keeps (State.apart · n) _ _ _ (fun v c => v.apart_overCh n c t)

/-! ### What the projections say -/

theorem State.eq_of_apart {s u : State} {n : Nat} (h : u.apart n = s.apart n) : u = { s with gons := u.gons } ∧ ∀ m ≠ n, u.gon m = s.gon m := by
  have hs : ({ u with gons := [] } : State) = { s with gons := [] } := congrArg Prod.fst h
  refine ⟨congrArg (fun x : State => { x with gons := u.gons }) hs, fun m hm => ?_⟩
  simpa [State.apart, hm] using congrFun (congrArg Prod.snd h) m

end Sys2Proof.Machine
end

section
/-! SUPPORT. The link of a device port: what a write of its control register stores, and what leaves its training state and its events. -/
open Sys2Proof Sys2Proof.Machine
namespace Sys2Proof.Machine

/-! ### Registers of the tethers -/

/-- No register of the blocks from field time to the feedback is one that posting an entry writes. -/
theorem postReg_of_block {o : Nat} (h : 3 ≤ o / 0x100000 ∧ o / 0x100000 ≤ 9) : postReg o = false := by
  rw [Bool.eq_false_iff]
  intro hp
  simp only [postReg, Bool.or_eq_true, List.any_eq_true, List.mem_range, beq_iff_eq] at hp
  simp only [rHIF_CQ_STAT, rHIF_CQ_LOST, rMSIX_PBA, rFLOG_STAT, rFLOG_LOST] at hp
  obtain ((⟨q, _, hp⟩ | ⟨q, _, hp⟩) | hp) | ⟨q, _, hp⟩ := hp <;> omega

theorem postReg_tether {o : Nat} (h : o / 0x100000 = 4) : postReg o = false := postReg_of_block (by omega)

/-- No register of the tethers is the base of a completion ring. -/
theorem not_cqBase_tether {o : Nat} (h : o / 0x100000 = 4) : ¬ cqBase o := by
  rintro ⟨q, hq, hb⟩
  simp only [rHIF_CQ_BASE_LO, rHIF_CQ_BASE_HI] at hb
  omega

/-- A change of registers of the tethers is one that posting may stand beside. -/
theorem State.posted_of_wrote_tether {s u : State} {L : List Nat} (h : u.wrote s L) (hL : ∀ o ∈ L, o / 0x100000 = 4) : u.posted s L :=
  State.posted_of_wrote h fun o ho => not_cqBase_tether (hL o ho)

/-- A field that is readable and writable, or has a shadow, and that the register has, stores what is written (R12, R91). -/
theorem State.fget_storeWord (s : State) (r : RegRow) (o : Nat) (v : Word) (b : Bits)
    (h : ∀ i < b.w, (BitVec.ofNat 32 (r.rw ||| r.sh)).getLsbD (b.lo + i) = true ∧ (absentBits o).getLsbD (b.lo + i) = false) :
    (s.storeWord r o v).fget o b = bget v b := by
  rw [State.fget, State.storeWord, State.rget_rset, ← bget_regStore r (s.rget o) v b fun i hi => (h i hi).1]
  apply Nat.eq_of_testBit_eq
  intro i
  rw [testBit_bget, testBit_bget]
  by_cases hi : i < b.w
  · obtain ⟨hst, habs⟩ := h i hi
    rw [BitVec.getLsbD_and, BitVec.getLsbD_not, habs, decide_eq_true (BitVec.lt_of_getLsbD hst)]
    simp
  · simp [hi]

theorem State.storeWord_wrote (s : State) (r : RegRow) (o : Nat) (v : Word) : (s.storeWord r o v).wrote s [o] :=
  ⟨rfl, fun _ hp => s.rget_rset_ne _ fun h => hp (by simp [h])⟩

/-- EN of TTH_Tn_CTL stores what is written at each port (R91). -/
theorem regRow_tthCtl_en (t : Fin 25) :
    (regRow (rTTH_CTL t)).any (fun r => (BitVec.ofNat 32 (r.rw ||| r.sh)).getLsbD 0) = true ∧ (absentBits (rTTH_CTL t)).getLsbD 0 = false := by
  revert t
  decide

/-- A write of TTH_Tn_CTL stores EN, and its effect follows. -/
theorem State.portWrite_tthCtl (s : State) (via : RegPath) (t : Fin 25) (v : Word) (hd : s.p8Denied via (rTTH_CTL t) = false) :
    ∃ u : State, u.wrote s [rTTH_CTL t] ∧ u.flag (rTTH_CTL t) fTTH_CTL_EN = (bget v fTTH_CTL_EN != 0)
      ∧ ∀ eff, s.portWrite via (rTTH_CTL t) v eff = eff (s.rget (rTTH_CTL t)) u := by
  obtain ⟨hrow, habs⟩ := regRow_tthCtl_en t
  cases hr : regRow (rTTH_CTL t) with
  | none => simp [hr] at hrow
  | some r =>
    rw [hr, Option.any_some] at hrow
    refine ⟨s.storeWord r (rTTH_CTL t) v, s.storeWord_wrote r _ v, ?_, fun eff => s.portWrite_stored via v eff hd hr⟩
    rw [State.flag, s.fget_storeWord r _ v fTTH_CTL_EN fun i hi => ?_]
    obtain rfl : i = 0 := Nat.lt_one_iff.1 hi
    exact ⟨hrow, habs⟩

/-! ### The link of a port (R69, R91) -/

/-- The training state that a LINK field and the miswires it stands for tell (R75). -/
def linkOf (v : Nat) (mis : List Nat) : Nat := if v = lkMISWIRE ∧ mis ≠ [] then lkUP else v

theorem State.link_eq (s : State) (t : Nat) : s.link t = linkOf (s.fget (rTTH_STAT t) fTTH_STAT_LINK) (s.port t).mis := rfl

theorem State.link_congr {s u : State} {t : Nat} (hs : u.rget (rTTH_STAT t) = s.rget (rTTH_STAT t)) (hp : u.ports = s.ports) :
    u.link t = s.link t := by
  rw [State.link_eq, State.link_eq, State.fget, State.fget, State.port, State.port, hs, hp]

theorem State.link_of_wrote {s u : State} {L : List Nat} {t : Nat} (h : u.wrote s L) (ht : rTTH_STAT t ∉ L) : u.link t = s.link t :=
  State.link_congr (h.2 _ ht) (by rw [h.1])

theorem State.link_of_posted {s u : State} {L : List Nat} {t : Nat} (h : u.posted s L) (ht : t < 25) (hL : rTTH_STAT t ∉ L) :
    u.link t = s.link t :=
  State.link_congr (h.2.1 _ (postReg_tether (by simp only [rTTH_STAT]; omega)) hL) (by rw [h.1])

theorem State.flag_of_posted {s u : State} {L : List Nat} {o : Nat} (h : u.posted s L) (b : Bits) (ho : o / 0x100000 = 4) (hL : o ∉ L) :
    u.flag o b = s.flag o b := by
  simp only [State.flag, State.fget, h.2.1 o (postReg_tether ho) hL]

theorem State.setLink_wrote (s : State) (t v : Nat) : (s.setLink t v).wrote s [rTTH_STAT t] := s.fset_wrote _ _ _

/-- A port that changes its training state is in it; MISWIRE of its own stands with no ring gondola's. -/
theorem State.link_setLink (s : State) (t v : Nat) (hv : v < 8) (hm : v = lkMISWIRE → (s.port t).mis = []) : (s.setLink t v).link t = v := by
  have hp : (s.setLink t v).port t = s.port t := rfl
  rw [State.link_eq, hp, State.setLink, State.fget_fset _ _ _ _ (by decide)]
  simp only [fTTH_STAT_LINK, lkUP, lkMISWIRE, linkOf] at *
  by_cases hmis : (s.port t).mis = []
  · simp [hmis, Nat.mod_eq_of_lt hv]
  · by_cases h3 : v = 3
    · simp [hmis, h3]
    · have h4 : v ≠ 4 := fun h => hmis (hm h)
      simp [hmis, h3, h4, Nat.mod_eq_of_lt hv]

/-- A write of a field of STAT leaves the rest of it. -/
theorem State.fget_tthStat_field (s : State) (e o : Nat) {b c : Bits} (v : Nat) (h : c.lo + c.w ≤ b.lo ∨ b.lo + b.w ≤ c.lo) :
    (s.tthStat e b v).fget o c = s.fget o c := by
  unfold State.tthStat
  split
  · by_cases ho : o = rTTH_STAT e
    · rw [ho, State.fget_fset_field _ _ _ _ _ h]
    · exact State.fget_fset_reg _ _ _ _ ho
  · rfl

theorem State.tthStat_wrote (s : State) (e : Nat) (b : Bits) (v : Nat) : (s.tthStat e b v).wrote s [rTTH_STAT e] := by
  unfold State.tthStat
  split
  · exact s.fset_wrote _ _ _
  · exact s.wrote_refl _

/-- A field of STAT above LINK does not tell the training state. -/
theorem State.link_tthStat (s : State) (e t : Nat) (b : Bits) (v : Nat) (h : 3 ≤ b.lo) : (s.tthStat e b v).link t = s.link t := by
  have hp : (s.tthStat e b v).port t = s.port t := by
    unfold State.tthStat
    split <;> rfl
  rw [State.link_eq, State.link_eq, hp, s.fget_tthStat_field e _ v (c := fTTH_STAT_LINK) (.inl h)]

/-! ### Events of a port (R91) -/

theorem State.tthRaise_posted (s : State) (e bit : Nat) : (s.tthRaise e bit).posted s [rTTH_EVT e] := by
  unfold State.tthRaise
  split
  · exact s.tthEvt_posted _ _
  · exact s.posted_refl _

theorem State.link_tthRaise (s : State) (e bit : Nat) {t : Nat} (ht : t < 25) : (s.tthRaise e bit).link t = s.link t :=
  State.link_of_posted (s.tthRaise_posted e bit) ht (by simp only [rTTH_STAT, rTTH_EVT, List.mem_singleton]; omega)

/-- A flag is a bit of its register. -/
theorem State.flag_eq_getLsbD (s : State) (o b : Nat) : s.flag o ⟨b, 1⟩ = (s.rget o).getLsbD b := by
  have h := testBit_bget (s.rget o) ⟨b, 1⟩ 0
  have hlt := bget_lt (s.rget o) ⟨b, 1⟩
  simp only [State.flag, State.fget]
  generalize bget (s.rget o) ⟨b, 1⟩ = x at *
  obtain rfl | rfl : x = 0 ∨ x = 1 := by simp only at hlt; omega
  · simpa using h
  · simpa using h

/-- An event that stands goes on standing while others are raised. -/
theorem State.flag_tthRaise_of_flag (s : State) (e bit : Nat) {t : Nat} (ht : t < 24) {b : Nat} (h : s.flag (rTTH_EVT t) ⟨b, 1⟩ = true) :
    (s.tthRaise e bit).flag (rTTH_EVT t) ⟨b, 1⟩ = true := by
  have hev : ∀ e < 24, rTTH_EVT e / 0x100000 = 4 := by decide
  unfold State.tthRaise State.tthEvt
  split
  · next he =>
    have hpost := (s.rset (rTTH_EVT e) (s.rget (rTTH_EVT e) ||| BitVec.ofNat 32 (2 ^ bit))).tetherEvent_posted e (2 ^ bit) []
    rw [State.flag_of_posted hpost _ (hev t ht) List.not_mem_nil]
    by_cases hte : t = e
    · subst hte
      rw [State.flag_eq_getLsbD] at h ⊢
      rw [State.rget_rset, BitVec.getLsbD_or, h, Bool.true_or]
    · rw [State.flag, State.fget, State.rget_rset_ne _ _ (by simp only [rTTH_EVT]; omega)]
      exact h
  · exact h

/-! ### A port that goes down, and one that comes up (R69) -/

/-- The ring of a port, if it is on one, is whole no longer (R91). -/
def State.ringOpened (s : State) (t : Nat) : State :=
  match s.ringEven t with
  | some e => s.tthStat e fTTH_STAT_RING_WHOLE 0
  | none => s

theorem State.ringOpened_wrote (s : State) (t : Nat) : (s.ringOpened t).wrote s [rTTH_STAT (s.tetherKey t)] := by
  rw [State.tetherKey, State.ringOpened]
  cases s.ringEven t with
  | none => exact s.wrote_refl _
  | some e => exact s.tthStat_wrote e _ _

theorem State.link_ringOpened (s : State) (t j : Nat) : (s.ringOpened t).link j = s.link j := by
  unfold State.ringOpened
  split
  · exact s.link_tthStat _ _ _ _ (by decide)
  · rfl

/-- The state of a port that is down, before its event. -/
def State.dropped (s : State) (t v : Nat) : State := ((s.setLink t v).tthStat t fTTH_STAT_LOCK 0).ringOpened t

theorem State.portDown_eq (s : State) (t to_ : Nat) : s.portDown t to_ =
    if s.link t = lkUP then (s.dropped t (if to_ = lkDOWN then lkTRN1 else to_)).tthRaise t evDOWN
    else s.dropped t (if to_ = lkDOWN then lkTRN1 else to_) := rfl

theorem State.dropped_wrote (s : State) (t v : Nat) : (s.dropped t v).wrote s [rTTH_STAT t, rTTH_STAT (s.tetherKey t)] := by
  have hw := State.wrote_trans (State.tthStat_wrote (s.setLink t v) t fTTH_STAT_LOCK 0) (s.setLink_wrote t v)
  have hk := State.tetherKey_of_wrote hw t
  refine State.wrote_mono (State.wrote_trans (State.ringOpened_wrote _ t) hw) ?_
  rw [hk]
  simp

/-- A port that leaves its state is in the next one, from DOWN in TRN1; if it was UP the event says so. -/
theorem State.portDown_shows (s : State) {t : Nat} (to_ : Nat) (ht : t < 25) (hto : to_ = lkOFF ∨ to_ = lkDOWN) :
    (s.portDown t to_).link t = (if to_ = lkDOWN then lkTRN1 else lkOFF)
      ∧ (s.portDown t to_).posted s [rTTH_STAT t, rTTH_STAT (s.tetherKey t), rTTH_EVT t]
      ∧ (t < 24 → s.link t = lkUP → (s.portDown t to_).flag (rTTH_EVT t) fTTH_EVT_DOWN = true) := by
  obtain ⟨v, hv, hlt⟩ : ∃ v, (if to_ = lkDOWN then lkTRN1 else to_) = v ∧ v < 2 := ⟨_, rfl, by rcases hto with rfl | rfl <;> decide⟩
  have hv' : (if to_ = lkDOWN then lkTRN1 else lkOFF) = v := by rcases hto with rfl | rfl <;> exact hv
  have hlink : (s.dropped t v).link t = v := by
    rw [State.dropped, State.link_ringOpened, State.link_tthStat _ _ _ _ _ (by decide)]
    exact s.link_setLink t v (by omega) (by simp only [lkMISWIRE]; omega)
  have hkey := s.tetherKey_le t
  have hpost := State.posted_of_wrote_tether (s.dropped_wrote t v) (by simp only [rTTH_STAT, List.mem_cons]; grind)
  rw [s.portDown_eq, hv, hv']
  split
  · refine ⟨by rw [State.link_tthRaise _ _ _ ht, hlink], ?_, fun h24 _ => State.flag_tthRaise _ h24 (by decide)⟩
    exact State.posted_trans (State.posted_mono (State.tthRaise_posted _ t evDOWN) (by simp)) (State.posted_mono hpost (by simp))
  · next h => exact ⟨hlink, State.posted_mono hpost (by simp), fun _ hup => absurd hup h⟩

end Sys2Proof.Machine
end

section
/-! SUPPORT. What an enumeration that starts leaves of the links, the events and the presence, and a port that comes up. -/
open Sys2Proof Sys2Proof.Machine
namespace Sys2Proof.Machine

/-! ### What clearing a tether leaves (R72) -/

/-- Of each port the training state, the events and the enumeration word. -/
def State.linkView (s : State) : Nat → Nat × Word × Word := fun j => (s.link j, s.rget (rTTH_EVT j), s.rget (rTTH_ENUM j))

theorem State.link_of_linkView {s u : State} (h : u.linkView = s.linkView) (j : Nat) : u.link j = s.link j := congrArg (fun v => (v j).1) h
theorem State.evt_of_linkView {s u : State} (h : u.linkView = s.linkView) (j : Nat) : u.rget (rTTH_EVT j) = s.rget (rTTH_EVT j) :=
  congrArg (fun v => (v j).2.1) h
theorem State.enum_of_linkView {s u : State} (h : u.linkView = s.linkView) (j : Nat) : u.rget (rTTH_ENUM j) = s.rget (rTTH_ENUM j) :=
  congrArg (fun v => (v j).2.2) h

theorem State.linkView_of_wrote {s u : State} {L : List Nat} (h : u.wrote s L)
    (hL : ∀ o ∈ L, ∀ j, o ≠ rTTH_STAT j ∧ o ≠ rTTH_EVT j ∧ o ≠ rTTH_ENUM j) : u.linkView = s.linkView := by
  funext j
  rw [State.linkView, State.linkView, State.link_of_wrote h fun hm => (hL _ hm j).1 rfl, h.2 _ fun hm => (hL _ hm j).2.1 rfl,
    h.2 _ fun hm => (hL _ hm j).2.2 rfl]

theorem State.linkView_tthStat (s : State) (e : Nat) (b : Bits) (v : Nat) (h : 3 ≤ b.lo) : (s.tthStat e b v).linkView = s.linkView := by
  have hw := s.tthStat_wrote e b v
  funext j
  rw [State.linkView, State.linkView, s.link_tthStat e j b v h,
    hw.2 (rTTH_EVT j) (by simp only [rTTH_STAT, rTTH_EVT, List.mem_singleton]; omega),
    hw.2 (rTTH_ENUM j) (by simp only [rTTH_STAT, rTTH_ENUM, List.mem_singleton]; omega)]

@[simp] theorem State.linkView_setGd (s : State) (k : Nat) (d : GonDev) : (s.setGd k d).linkView = s.linkView := rfl

theorem State.linkView_updPort (s : State) (t : Nat) (f : PortDev → PortDev) (h : ∀ p, (f p).mis = p.mis) : (s.updPort t f).linkView = s.linkView := by
  funext j
  have hp : ((s.updPort t f).port j).mis = (s.port j).mis := by
    by_cases hj : j = t
    · rw [hj, State.port_updPort, h]
    · rw [State.updPort, State.port_setPort_ne _ _ hj]
  show ((s.updPort t f).link j, _) = (s.link j, _)
  rw [State.link_eq, State.link_eq, hp]
  rfl

theorem State.linkView_txQueue (s : State) (t : Nat) (f : Frame) : (s.txQueue t f).linkView = s.linkView := s.linkView_updPort t _ fun _ => rfl

theorem State.setPairMask_wrote (s : State) (lo hi v : Nat) : (s.setPairMask lo hi v).wrote s [lo, hi] := by
  refine ⟨rfl, fun o ho => ?_⟩
  simp only [List.mem_cons, List.not_mem_nil, or_false, not_or] at ho
  rw [State.setPairMask, State.rget_rset_ne _ _ ho.2, State.rget_rset_ne _ _ ho.1]

@[simp] theorem State.linkView_setPresent (s : State) (t g : Nat) (b : Bool) : (s.setPresent t g b).linkView = s.linkView := by
  unfold State.setPresent
  split
  · rfl
  · refine (State.linkView_tthStat _ _ _ _ (by decide)).trans (State.linkView_of_wrote (State.setPairMask_wrote s _ _ _) fun o ho j => ?_)
    simp only [rTTH_PRES0, rTTH_PRES1, rTTH_STAT, rTTH_EVT, rTTH_ENUM, List.mem_cons, List.not_mem_nil, or_false] at ho ⊢
    omega

theorem State.setHomed_wrote (s : State) (t g : Nat) (b : Bool) : (s.setHomed t g b).wrote s [rTTH_HOME0 t, rTTH_HOME1 t] := by
  unfold State.setHomed
  split
  · exact s.wrote_refl _
  · exact s.setPairMask_wrote _ _ _

@[simp] theorem State.linkView_setHomed (s : State) (t g : Nat) (b : Bool) : (s.setHomed t g b).linkView = s.linkView := by
  refine State.linkView_of_wrote (s.setHomed_wrote t g b) fun o ho j => ?_
  simp only [rTTH_HOME0, rTTH_HOME1, rTTH_STAT, rTTH_EVT, rTTH_ENUM, List.mem_cons, List.not_mem_nil, or_false] at ho ⊢
  omega

@[simp] theorem State.linkView_forget (s : State) (t g : Nat) : (s.forget t g).linkView = s.linkView := by
  unfold State.forget
  dsimp only
  rw [State.linkView_setGd]
  split <;> simp only [State.linkView_setHomed, State.linkView_setPresent]

/-- A tether whose positions are all forgotten (R72). -/
def State.cleared (s : State) (e : Nat) : State := (List.range 64).foldl (fun s g => if s.present e g then s.forget e g else s) s

@[simp] theorem State.linkView_cleared (s : State) (e : Nat) : (s.cleared e).linkView = s.linkView :=
  foldl_keeps State.linkView _ _ _ fun u g => by
    split
    · exact u.linkView_forget e g
    · rfl

theorem State.present_foldl_forget (s : State) {e : Nat} (he : e < 24) (gs : List Nat) (x : Nat) :
    (gs.foldl (fun s g => if s.present e g then s.forget e g else s) s).present e x = (s.present e x && decide (x ∉ gs)) := by
  have hone : ∀ (u : State) (g : Nat), (if u.present e g then u.forget e g else u).present e x = (u.present e x && decide (x ≠ g)) := by
    intro u g
    split
    · exact u.present_forget he g x
    · next h => by_cases hx : x = g <;> simp_all
  induction gs generalizing s with
  | nil => simp
  | cons g gs ih =>
    rw [List.foldl_cons, ih, hone]
    simp [Bool.and_assoc]

/-- No position of a tether that is cleared is present. -/
theorem State.present_cleared (s : State) {e g : Nat} (he : e < 24) (hg : g < 64) : (s.cleared e).present e g = false := by
  rw [State.cleared, s.present_foldl_forget he]
  simp [hg]

/-! ### An enumeration that starts (R72, R88) -/

/-- The enumeration word of a tether steps on, the tether is busy, and the frame waits. -/
def State.enumSent (s : State) (e : Nat) (attach : Bool) : State :=
  let epoch := BitVec.ofNat 8 (s.fget (rTTH_ENUM e) fTTH_ENUM_EPOCH + 1)
  let next := if attach then s.nextPos e else 0
  let s := (s.fset (rTTH_ENUM e) fTTH_ENUM_EPOCH epoch.toNat).tthStat e fTTH_STAT_ENUM_BUSY 1
  let s := s.updPort e (fun p => { p with enumKind := if attach then .attach else .full, enumNext := BitVec.ofNat 8 next, enumOdd := false })
  s.txQueue e (enumFrame next false false attach epoch)

theorem State.startEnum_up (s : State) (t : Nat) (attach : Bool) (he : s.tetherKey t < 24) (hl : s.link (s.tetherKey t) = lkUP) :
    s.startEnum t attach = (if attach then s else s.cleared (s.tetherKey t)).enumSent (s.tetherKey t) attach := if_neg (by simp [he, hl])

theorem State.startEnum_idle (s : State) (t : Nat) (attach : Bool) (h : 24 ≤ s.tetherKey t ∨ s.link (s.tetherKey t) ≠ lkUP) :
    s.startEnum t attach = s := if_pos h

section
variable (s : State) (e : Nat) (attach : Bool)

theorem State.linkView_enumSent : (s.enumSent e attach).linkView
    = (s.fset (rTTH_ENUM e) fTTH_ENUM_EPOCH (BitVec.ofNat 8 (s.fget (rTTH_ENUM e) fTTH_ENUM_EPOCH + 1)).toNat).linkView := by
  refine (State.linkView_txQueue _ _ _).trans ((State.linkView_updPort _ _ _ fun p => ?_).trans ?_)
  · rfl
  · exact State.linkView_tthStat _ _ _ _ (by decide)

theorem State.link_enumSent (j : Nat) : (s.enumSent e attach).link j = s.link j := by
  rw [State.link_of_linkView (s.linkView_enumSent e attach)]
  exact State.link_of_wrote (s.fset_wrote _ _ _) (by simp only [rTTH_STAT, rTTH_ENUM, List.mem_singleton]; omega)

theorem State.evt_enumSent (j : Nat) : (s.enumSent e attach).rget (rTTH_EVT j) = s.rget (rTTH_EVT j) := by
  rw [State.evt_of_linkView (s.linkView_enumSent e attach)]
  exact s.rget_fset_ne _ _ (by simp only [rTTH_EVT, rTTH_ENUM]; omega)

theorem State.presWords_enumSent : (s.enumSent e attach).presWords = s.presWords := by
  have henum : notPres (rTTH_ENUM e) := fun j _ => by
    simp only [rTTH_PRES0, rTTH_PRES1, rTTH_ENUM]
    omega
  simp [State.enumSent, State.txQueue, State.presWords_tthStat, State.presWords_fset _ _ _ henum]

theorem State.enumSent_shows (he : e < 24) :
    (s.enumSent e attach).flag (rTTH_STAT e) fTTH_STAT_ENUM_BUSY = true
      ∧ (s.enumSent e attach).fget (rTTH_ENUM e) fTTH_ENUM_EPOCH = (s.fget (rTTH_ENUM e) fTTH_ENUM_EPOCH + 1) % 256
      ∧ ((s.enumSent e attach).port e).enumKind = (if attach then .attach else .full) := by
  refine ⟨?_, ?_, ?_⟩
  · have hreg : (s.enumSent e attach).rget (rTTH_STAT e) = ((s.fset (rTTH_ENUM e) fTTH_ENUM_EPOCH
        (BitVec.ofNat 8 (s.fget (rTTH_ENUM e) fTTH_ENUM_EPOCH + 1)).toNat).tthStat e fTTH_STAT_ENUM_BUSY 1).rget (rTTH_STAT e) := rfl
    rw [State.flag, State.fget, hreg, State.tthStat, if_pos he]
    exact State.flag_raise _ _ _ (by decide) (by decide)
  · rw [State.fget, State.enum_of_linkView (s.linkView_enumSent e attach), ← State.fget, State.fget_fset _ _ _ _ (by decide)]
    simp [fTTH_ENUM_EPOCH]
  · simp [State.enumSent, State.txQueue]
end

/-- An enumeration that starts leaves the links. -/
theorem State.link_startEnum (s : State) (t : Nat) (attach : Bool) (j : Nat) : (s.startEnum t attach).link j = s.link j := by
  by_cases h : 24 ≤ s.tetherKey t ∨ s.link (s.tetherKey t) ≠ lkUP
  · rw [s.startEnum_idle t attach h]
  · rw [s.startEnum_up t attach (by omega) (by tauto), State.link_enumSent]
    split
    · rfl
    · exact State.link_of_linkView (s.linkView_cleared _) j

/-- An enumeration that starts leaves the events. -/
theorem State.evt_startEnum (s : State) (t : Nat) (attach : Bool) (j : Nat) :
    (s.startEnum t attach).rget (rTTH_EVT j) = s.rget (rTTH_EVT j) := by
  by_cases h : 24 ≤ s.tetherKey t ∨ s.link (s.tetherKey t) ≠ lkUP
  · rw [s.startEnum_idle t attach h]
  · rw [s.startEnum_up t attach (by omega) (by tauto), State.evt_enumSent]
    split
    · rfl
    · exact State.evt_of_linkView (s.linkView_cleared _) j

/-! ### A port that comes up (R69) -/

theorem State.autoEnum_keeps (s : State) (t j : Nat) :
    (s.autoEnum t).link j = s.link j ∧ (s.autoEnum t).rget (rTTH_EVT j) = s.rget (rTTH_EVT j) := by
  unfold State.autoEnum
  split
  · exact ⟨s.link_startEnum _ _ j, s.evt_startEnum _ _ j⟩
  · exact ⟨rfl, rfl⟩

theorem State.ringClosed_keeps (s : State) (e seg : Nat) {t : Nat} (ht : t < 25) : (s.ringClosed e seg).link t = s.link t
    ∧ (t < 24 → s.flag (rTTH_EVT t) fTTH_EVT_UP = true → (s.ringClosed e seg).flag (rTTH_EVT t) fTTH_EVT_UP = true) := by
  unfold State.ringClosed
  split
  · refine ⟨by rw [State.link_tthRaise _ _ _ ht, State.link_tthStat _ _ _ _ _ (by decide)], fun h24 hf => ?_⟩
    refine State.flag_tthRaise_of_flag _ _ _ h24 ?_
    rw [State.flag, State.fget, (State.tthStat_wrote _ _ _ _).2 _ (by simp only [rTTH_STAT, rTTH_EVT, List.mem_singleton]; omega)]
    exact hf
  · exact ⟨rfl, fun _ => id⟩

/-- What a port that comes up does beyond its link and its event. -/
def State.joined (s : State) (t : Nat) : State :=
  match s.ringEven t with
  | some e => let s := s.ringClosed e (if t = e then 0 else s.nextPos e); if t = e then s.autoEnum t else s
  | none => s.autoEnum t

theorem State.joined_keeps (s : State) {t : Nat} (ht : t < 25) : (s.joined t).link t = s.link t
    ∧ (t < 24 → s.flag (rTTH_EVT t) fTTH_EVT_UP = true → (s.joined t).flag (rTTH_EVT t) fTTH_EVT_UP = true) := by
  have hauto : ∀ u : State, (u.autoEnum t).link t = u.link t
      ∧ (u.autoEnum t).flag (rTTH_EVT t) fTTH_EVT_UP = u.flag (rTTH_EVT t) fTTH_EVT_UP := fun u => by
    obtain ⟨hl, he⟩ := u.autoEnum_keeps t t
    simp only [hl, State.flag, State.fget, he, and_self]
  unfold State.joined
  cases s.ringEven t with
  | none =>
    obtain ⟨hl, hf⟩ := hauto s
    exact ⟨hl, fun _ => hf.trans⟩
  | some e =>
    dsimp only
    generalize (if t = e then 0 else s.nextPos e) = seg
    obtain ⟨hl, hf⟩ := s.ringClosed_keeps e seg ht
    split
    · obtain ⟨hl', hf'⟩ := hauto (s.ringClosed e seg)
      exact ⟨hl'.trans hl, fun h24 h => hf'.trans (hf h24 h)⟩
    · exact ⟨hl, hf⟩

theorem State.portUp_eq (s : State) (t : Nat) : s.portUp t =
    ((((s.updPort t (fun p => { p with mis := s.ringMis t })).setLink t lkUP).tthStat t fTTH_STAT_LOCK 1).tthRaise t evUP).joined t := rfl

/-- A port that comes up is UP, and the event says so. -/
theorem State.portUp_shows (s : State) {t : Nat} (ht : t < 25) :
    (s.portUp t).link t = lkUP ∧ (t < 24 → (s.portUp t).flag (rTTH_EVT t) fTTH_EVT_UP = true) := by
  rw [State.portUp_eq]
  obtain ⟨hl, hf⟩ := State.joined_keeps
    ((((s.updPort t (fun p => { p with mis := s.ringMis t })).setLink t lkUP).tthStat t fTTH_STAT_LOCK 1).tthRaise t evUP) ht
  refine ⟨?_, fun h24 => hf h24 (State.flag_tthRaise _ h24 (by decide))⟩
  rw [hl, State.link_tthRaise _ _ _ ht, State.link_tthStat _ _ _ _ _ (by decide)]
  exact State.link_setLink _ _ _ (by decide) fun h => absurd h (by decide)

end Sys2Proof.Machine
end

section
/-! SUPPORT. The training of a port at the device and at a gondola, and the settling of the statement on it. -/
open Sys2Proof Sys2Proof.Machine
namespace Sys2Proof.Machine

/-! ### Writes of TTH_Tn_CTL (R69, R91) -/

/-- What a port that leaves its state after a write of its control register shows. -/
theorem portDown_written (s : State) (t : Fin 25) {w : State} (hw : w.wrote s [rTTH_CTL t]) (to_ : Nat) (hto : to_ = lkOFF ∨ to_ = lkDOWN) :
    (w.portDown t to_).link t = (if to_ = lkDOWN then lkTRN1 else lkOFF)
      ∧ (w.portDown t to_).posted s [rTTH_CTL t, rTTH_STAT t, rTTH_STAT (s.tetherKey t), rTTH_EVT t]
      ∧ (t.val < 24 → s.link t = lkUP → (w.portDown t to_).flag (rTTH_EVT t) fTTH_EVT_DOWN = true)
      ∧ (w.portDown t to_).flag (rTTH_CTL t) fTTH_CTL_EN = w.flag (rTTH_CTL t) fTTH_CTL_EN := by
  have hctl : rTTH_CTL t / 0x100000 = 4 := by simp only [rTTH_CTL]; omega
  have hne : rTTH_CTL t ∉ [rTTH_STAT t, rTTH_STAT (w.tetherKey t), rTTH_EVT t] := by
    simp only [rTTH_CTL, rTTH_STAT, rTTH_EVT, List.mem_cons, List.not_mem_nil, or_false]
    omega
  obtain ⟨hl, hp, hf⟩ := w.portDown_shows to_ t.isLt hto
  have hkey := State.tetherKey_of_wrote hw t
  have hlink : w.link t = s.link t := State.link_of_wrote hw (by simp only [rTTH_CTL, rTTH_STAT, List.mem_singleton]; omega)
  have hwp : w.posted s [rTTH_CTL t] := State.posted_of_wrote_tether hw (by simpa using hctl)
  refine ⟨hl, ?_, fun h24 hup => hf h24 (hlink.trans hup), State.flag_of_posted hp _ hctl hne⟩
  rw [hkey] at hp
  exact State.posted_trans (State.posted_mono hp (by simp)) (State.posted_mono hwp (by simp))

/-- What RETRAIN leaves of a written control word, and what it adds. -/
theorem bget_retrain (v : Word) : bget (bset v fTTH_CTL_RETRAIN 1) fTTH_CTL_EN = bget v fTTH_CTL_EN
    ∧ bget (bset v fTTH_CTL_RETRAIN 1) fTTH_CTL_RETRAIN = 1 :=
  ⟨bget_bset_ne _ _ _ _ (by decide), bget_bset _ _ _ (by decide)⟩

section
variable (s : State) (via : RegPath) (t : Fin 25) (v : Word) (hd : s.p8Denied via (rTTH_CTL t) = false)
include hd

/-- A port that is enabled trains. -/
theorem portEnable_on (ho : s.flag (rTTH_CTL t) fTTH_CTL_EN = false) (hv : bget v fTTH_CTL_EN = 1) :
    Completes (.portEnable via t v) s (fun u =>
      u.link t = lkTRN1 ∧ u.flag (rTTH_CTL t) fTTH_CTL_EN = true ∧ u.wrote s [rTTH_CTL t, rTTH_STAT t]) := by
  obtain ⟨w, hw, hen, hp⟩ := s.portWrite_tthCtl via t v hd
  have hold : bget (s.rget (rTTH_CTL t)) fTTH_CTL_EN = 0 := by simpa [State.flag, State.fget] using ho
  have hnew : w.flag (rTTH_CTL t) fTTH_CTL_EN = true := by rw [hen, hv]; rfl
  have heff : tthCtlWritten t v (s.rget (rTTH_CTL t)) w = w.setLink t lkTRN1 := by simp [tthCtlWritten, hold, hnew]
  refine ⟨_, congrArg Host.Outcome.next ((hp _).trans heff), w.link_setLink t lkTRN1 (by decide) fun h => absurd h (by decide), ?_,
    State.wrote_mono (State.wrote_trans (w.setLink_wrote t lkTRN1) hw) (by simp)⟩
  rw [State.flag, State.fget, (w.setLink_wrote t lkTRN1).2 _ (by simp only [rTTH_CTL, rTTH_STAT, List.mem_singleton]; omega)]
  exact hnew

/-- A port that is disabled is OFF. -/
theorem portEnable_off (ho : s.flag (rTTH_CTL t) fTTH_CTL_EN = true) (hv : bget v fTTH_CTL_EN = 0) :
    Completes (.portEnable via t v) s (fun u => u.link t = lkOFF ∧ u.flag (rTTH_CTL t) fTTH_CTL_EN = false
      ∧ u.posted s [rTTH_CTL t, rTTH_STAT t, rTTH_STAT (s.tetherKey t), rTTH_EVT t]) := by
  obtain ⟨w, hw, hen, hp⟩ := s.portWrite_tthCtl via t v hd
  have hold : bget (s.rget (rTTH_CTL t)) fTTH_CTL_EN ≠ 0 := by simpa [State.flag, State.fget] using ho
  have hnew : w.flag (rTTH_CTL t) fTTH_CTL_EN = false := by rw [hen, hv]; rfl
  have heff : tthCtlWritten t v (s.rget (rTTH_CTL t)) w = w.portDown t lkOFF := by simp [tthCtlWritten, hold, hnew]
  obtain ⟨hl, hpost, -, hflag⟩ := portDown_written s t hw lkOFF (.inl rfl)
  exact ⟨_, congrArg Host.Outcome.next ((hp _).trans heff), hl, hflag.trans hnew, hpost⟩

/-- A port that is enabled and not OFF trains again. -/
theorem retrain_on (ho : s.flag (rTTH_CTL t) fTTH_CTL_EN = true) (hv : bget v fTTH_CTL_EN = 1) (ht : t.val < 24) (hl : s.link t ≠ lkOFF) :
    Completes (.retrain via t v) s (fun u => u.link t = lkTRN1
        ∧ u.posted s [rTTH_CTL t, rTTH_STAT t, rTTH_STAT (s.tetherKey t), rTTH_EVT t]
        ∧ (s.link t = lkUP → u.flag (rTTH_EVT t) fTTH_EVT_DOWN = true)) := by
  obtain ⟨hvEn, hvRe⟩ := bget_retrain v
  obtain ⟨w, hw, hen, hp⟩ := s.portWrite_tthCtl via t (bset v fTTH_CTL_RETRAIN 1) hd
  have hold : bget (s.rget (rTTH_CTL t)) fTTH_CTL_EN ≠ 0 := by simpa [State.flag, State.fget] using ho
  have hnew : w.flag (rTTH_CTL t) fTTH_CTL_EN = true := by rw [hen, hvEn, hv]; rfl
  have hlink : w.link t ≠ lkOFF := by
    rwa [State.link_of_wrote hw (by simp only [rTTH_CTL, rTTH_STAT, List.mem_singleton]; omega)]
  have heff : tthCtlWritten t (bset v fTTH_CTL_RETRAIN 1) (s.rget (rTTH_CTL t)) w = w.portDown t lkDOWN := by
    simp [tthCtlWritten, hold, hnew, hvRe, hlink, ht]
  obtain ⟨htrn, hpost, hdown, -⟩ := portDown_written s t hw lkDOWN (.inr rfl)
  exact ⟨_, congrArg Host.Outcome.next ((hp _).trans heff), htrn, hpost, hdown ht⟩

/-- RETRAIN has no effect at T24 (R91). -/
theorem retrain_home (ho : s.flag (rTTH_CTL t) fTTH_CTL_EN = true) (hv : bget v fTTH_CTL_EN = 1) (ht : t.val = 24) :
    Completes (.retrain via t v) s (fun u => u.wrote s [rTTH_CTL t]) := by
  obtain ⟨w, hw, hen, hp⟩ := s.portWrite_tthCtl via t (bset v fTTH_CTL_RETRAIN 1) hd
  have hold : bget (s.rget (rTTH_CTL t)) fTTH_CTL_EN ≠ 0 := by simpa [State.flag, State.fget] using ho
  have hnew : w.flag (rTTH_CTL t) fTTH_CTL_EN = true := by rw [hen, (bget_retrain v).1, hv]; rfl
  have heff : tthCtlWritten t (bset v fTTH_CTL_RETRAIN 1) (s.rget (rTTH_CTL t)) w = w := by
    simp [tthCtlWritten, hold, hnew, show ¬ t.val < 24 by omega]
  exact ⟨_, congrArg Host.Outcome.next ((hp _).trans heff), hw⟩

end

/-! ### The training of a device port (R69-R71) -/

section
variable (s : State) (t : Fin 25)

theorem trn1Complete_dev (h : s.link t = lkTRN1) :
    Completes (.trn1Complete (.dev t)) s (fun u => u.link t = lkTRN2 ∧ u.wrote s [rTTH_STAT t]) := by
  refine ⟨_, if_pos h, ?_, State.wrote_mono (State.wrote_trans (State.tthStat_wrote _ t fTTH_STAT_LOCK 1) (s.setLink_wrote t lkTRN2)) (by simp)⟩
  rw [State.link_tthStat _ _ _ _ _ (by decide)]
  exact s.link_setLink t lkTRN2 (by decide) fun h => absurd h (by decide)

theorem trainingTimeout_dev (h : s.link t = lkTRN1 ∨ s.link t = lkTRN2) :
    Completes (.trainingTimeout (.dev t)) s (fun u => u.link t = lkTRN1 ∧ u.wrote s [rTTH_STAT t, rTTH_ERR t cRETRAIN]) := by
  have hw := State.wrote_trans (State.tthStat_wrote _ t fTTH_STAT_LOCK 0) (s.setLink_wrote t lkTRN1)
  refine ⟨_, if_pos (by simpa using h), ?_, State.wrote_mono (State.wrote_trans (State.tthCountN_wrote _ t cRETRAIN 1) hw) (by simp)⟩
  rw [State.link_of_wrote (State.tthCountN_wrote _ t cRETRAIN 1) (by simp only [rTTH_STAT, rTTH_ERR, cRETRAIN, List.mem_singleton]; omega),
    State.link_tthStat _ _ _ _ _ (by decide)]
  exact s.link_setLink t lkTRN1 (by decide) fun h => absurd h (by decide)

theorem linkLoss_dev (cv : Nat) (now : FTime) (h : s.link t = lkUP) :
    Completes (.linkLoss (.dev t) cv now) s (fun u => u.link t = lkTRN1
      ∧ (t.val < 24 → u.flag (rTTH_EVT t) fTTH_EVT_DOWN = true)
      ∧ u.posted s [rTTH_STAT t, rTTH_STAT (s.tetherKey t), rTTH_EVT t, rTTH_ERR t cLOCKLOSS, rTTH_ERR t cCVERR]) := by
  obtain ⟨hl, hp, hf⟩ := s.portDown_shows lkDOWN t.isLt (.inr rfl)
  have hw := State.wrote_trans (State.tthCountN_wrote _ t cCVERR cv) ((s.portDown t lkDOWN).tthCountN_wrote t cLOCKLOSS 1)
  have hpost := State.posted_of_wrote_tether hw (by
    simp only [rTTH_ERR, cCVERR, cLOCKLOSS, List.mem_append, List.mem_singleton]
    omega)
  have hne : ∀ o ∈ [rTTH_STAT t, rTTH_EVT t], o ∉ [rTTH_ERR t cCVERR] ++ [rTTH_ERR t cLOCKLOSS] := by
    simp only [rTTH_STAT, rTTH_EVT, rTTH_ERR, cCVERR, cLOCKLOSS, List.mem_append, List.mem_cons, List.not_mem_nil, or_false]
    omega
  refine ⟨_, if_pos h, ?_, fun h24 => ?_, State.posted_trans (State.posted_mono hpost (by simp)) (State.posted_mono hp (by simp))⟩
  · rw [State.link_of_wrote hw (hne _ (by simp))]
    exact hl
  · rw [State.flag, State.fget, hw.2 _ (hne _ (by simp))]
    exact hf h24 h

/-! The roles (R70). -/

/-- A pairing that is right away from a ring is right on it. -/
theorem rolesOK_ring {mine theirs : Nat} (r : Bool) (h : rolesOK mine theirs false = true) : rolesOK mine theirs r = true := by
  cases r <;> simp_all [rolesOK]

theorem rolesOK_noRing {mine theirs : Nat} (r : Bool) (h : rolesOK mine theirs true = false) : rolesOK mine theirs r = false := by
  cases r <;> simp_all [rolesOK]

/-- What the port does with the roles (R70, R75): a device port takes the through port of a gondola only at the odd end of a ring. -/
theorem execTrn2Complete_dev (h : s.link t = lkTRN2) (role cap : BitVec 8) : execTrn2Complete (.dev t) role cap s =
    .next (if rolesOK 1 role.toNat (decide (t.val % 2 = 1 ∧ (s.ringEven t).isSome)) = true
      then (s.updPort t (fun p => { p with role := role, cap := cap })).portUp t
      else ((s.updPort t (fun p => { p with role := role, cap := cap })).updPort t (fun p => { p with mis := [] })).setLink t lkMISWIRE) :=
  if_pos (.inl h)

theorem trn2Complete_dev_up (h : s.link t = lkTRN2) (role cap : BitVec 8)
    (hr : rolesOK 1 role.toNat (decide (t.val % 2 = 1 ∧ (s.ringEven t).isSome)) = true) :
    Completes (.trn2Complete (.dev t) role cap) s (fun u => u.link t = lkUP ∧ (t.val < 24 → u.flag (rTTH_EVT t) fTTH_EVT_UP = true)) :=
  ⟨_, (execTrn2Complete_dev s t h role cap).trans (congrArg _ (if_pos hr)), State.portUp_shows _ t.isLt⟩

theorem trn2Complete_dev_miswire (h : s.link t = lkTRN2) (role cap : BitVec 8)
    (hr : rolesOK 1 role.toNat (decide (t.val % 2 = 1 ∧ (s.ringEven t).isSome)) = false) :
    Completes (.trn2Complete (.dev t) role cap) s (fun u => u.link t = lkMISWIRE
      ∧ u.wrote { s with ports := u.ports } [rTTH_STAT t]) := by
  refine ⟨_, (execTrn2Complete_dev s t h role cap).trans (congrArg _ (if_neg (by rw [hr]; decide))), ?_, State.setLink_wrote _ t lkMISWIRE⟩
  exact State.link_setLink _ t lkMISWIRE (by decide) fun _ => by rw [State.port_updPort]

/-- A through port at the other end (R70, R75). -/
theorem trn2Complete_dev_through (h : s.link t = lkTRN2) (role cap : BitVec 8) (hrole : role = 3) :
    (rolesOK 1 role.toNat true = true ∧ rolesOK 1 role.toNat false = false)
      ∧ (s.ringEven t = none ∨ t.val % 2 = 0 → Completes (.trn2Complete (.dev t) role cap) s (fun u => u.link t = lkMISWIRE))
      ∧ (s.ringEven t ≠ none → t.val % 2 = 1 → Completes (.trn2Complete (.dev t) role cap) s (fun u => u.link t = lkUP)) := by
  have hroles : rolesOK 1 role.toNat true = true ∧ rolesOK 1 role.toNat false = false := by rw [hrole]; decide
  refine ⟨hroles, fun hoff => ?_, fun hon hodd => ?_⟩
  · have hd : decide (t.val % 2 = 1 ∧ (s.ringEven t).isSome) = false := by
      rcases hoff with h | h <;> simp [h]
    obtain ⟨u, hu, hl, -⟩ := trn2Complete_dev_miswire s t h role cap (by rw [hd, hroles.2])
    exact ⟨u, hu, hl⟩
  · have hd : decide (t.val % 2 = 1 ∧ (s.ringEven t).isSome) = true := by
      simpa [hodd, Option.isSome_iff_ne_none] using hon
    obtain ⟨u, hu, hl, -⟩ := trn2Complete_dev_up s t h role cap (by rw [hd, hroles.1])
    exact ⟨u, hu, hl⟩
end

/-! ### The training of a port of a gondola (R69-R71, R86) -/

@[simp] theorem Gondola.glink_setGlink (g : Gondola) (p : GPort) (v : Nat) : (g.setGlink p v).glink p = v := by
  simp [Gondola.setGlink, Gondola.glink]

/-- A change of one gondola leaves the device and the other gondolas. -/
theorem State.updGon_frame (s : State) (n : Nat) (f : Gondola → Gondola) :
    s.updGon n f = { s with gons := (s.updGon n f).gons } ∧ ∀ m ≠ n, (s.updGon n f).gon m = s.gon m :=
  ⟨rfl, fun _ hm => s.gon_updGon_ne f hm⟩

section
variable (s : State) (n : Nat) (p : GPort)

theorem trn1Complete_gon (h : (s.gon n).glink p = lkTRN1) :
    Completes (.trn1Complete (.gon n p)) s (fun u => u = { s with gons := u.gons }
      ∧ (u.gon n).glink p = lkTRN2 ∧ ∀ m ≠ n, u.gon m = s.gon m) := by
  obtain ⟨hs, hm⟩ := s.updGon_frame n (fun g => g.setGlink p lkTRN2)
  exact ⟨_, if_pos h, hs, by simp, hm⟩

theorem trainingTimeout_gon (h : (s.gon n).glink p = lkTRN1 ∨ (s.gon n).glink p = lkTRN2) :
    Completes (.trainingTimeout (.gon n p)) s (fun u => u = { s with gons := u.gons }
      ∧ (u.gon n).glink p = lkTRN1 ∧ ∀ m ≠ n, u.gon m = s.gon m) := by
  obtain ⟨hs, hm⟩ := s.updGon_frame n (fun g => g.setGlink p lkTRN1)
  exact ⟨_, if_pos (by simpa using h), hs, by simp, hm⟩

/-- A report of a port leaves the links (R86). -/
theorem Gondola.glink_reportPort (g : Gondola) (ring : Bool) (q : GPort) : (g.reportPort ring q).glink p = g.glink p := by
  unfold Gondola.reportPort
  split
  · rfl
  · rfl
  · split <;> rfl

/-- A gondola with a position that is in no tick plan reports a port of its own toward its serving side (R86). -/
theorem Gondola.queue_reportPort (g : Gondola) (ring : Bool) {q : GPort} {pos : Fin 64} (hq : q ≠ .up) (hp : g.pos = some pos)
    (hplan : g.greg aG_PLAN = 0) : ∃ f, (g.reportPort ring q).queue = g.queue ++ [f] ∧ f.own = true ∧ f.port = g.serving ring ∧ f.frame.typ = 0xA := by
  have h0 : (tget 0 g.regs 0x06C : Word) = 0 := hplan
  refine ⟨ownFrame (g.serving ring) (gstatReport g pos (g.portUp .thru) (g.portUp .branch)), ?_, rfl, rfl, rfl⟩
  unfold Gondola.reportPort
  split
  · exact absurd rfl hq
  · simp_all
  · next h => rw [if_pos h0, Option.some.inj (h.symm.trans hp)]; rfl

theorem trn2Complete_gon (h : (s.gon n).glink p = lkTRN2) (role cap : BitVec 8) :
    Completes (.trn2Complete (.gon n p) role cap) s (fun u =>
      u = { s with gons := u.gons } ∧ (u.gon n).glink p = (if rolesOK (gportRole p) role.toNat (s.onRing n) then lkUP else lkMISWIRE)
        ∧ (∀ pos, p ≠ .up → (s.gon n).pos = some pos → (s.gon n).greg aG_PLAN = 0 → rolesOK (gportRole p) role.toNat (s.onRing n) = true →
            ∃ f, (u.gon n).queue = (s.gon n).queue ++ [f] ∧ f.own = true ∧ f.port = (s.gon n).serving (s.onRing n) ∧ f.frame.typ = 0xA)
        ∧ ∀ m ≠ n, u.gon m = s.gon m) := by
  by_cases hr : rolesOK (gportRole p) role.toNat (s.onRing n) = true
  · obtain ⟨hs, hm⟩ := s.updGon_frame n (fun g => (g.setGlink p lkUP).reportPort (s.onRing n) p)
    refine ⟨_, (if_pos (.inl h)).trans (if_pos hr), hs, ?_, fun pos hp hpos hplan _ => ?_, hm⟩
    · rw [if_pos hr, State.gon_updGon, Gondola.glink_reportPort, Gondola.glink_setGlink]
    · rw [State.gon_updGon]
      exact ((s.gon n).setGlink p lkUP).queue_reportPort (s.onRing n) hp hpos hplan
  · obtain ⟨hs, hm⟩ := s.updGon_frame n (fun g => g.setGlink p lkMISWIRE)
    refine ⟨_, (if_pos (.inl h)).trans (if_neg hr), hs, ?_, fun _ _ _ _ hr' => absurd hr' hr, hm⟩
    rw [if_neg hr, State.gon_updGon, Gondola.glink_setGlink]

/-- What a gondola on a ring does about a ring port that went down: it sends BRK out of the other one and serves from there (R83). -/
def Gondola.turned (g : Gondola) (ring : Bool) (p : GPort) : Gondola :=
  match ring, g.pos with
  | true, some pos =>
    if p = .branch then g else
    { g with brk := g.brk ++ [(otherPort p, BitVec.ofNat 8 (ringSegment pos p))],
             serveThru := if p = .up then true else false }
  | _, _ => g

/-- Does no port of a gondola lead toward the device (R99)? -/
def Gondola.cutOff (g : Gondola) (ring : Bool) : Bool := if ring then !g.portUp .up && !g.portUp .thru else !g.portUp .up

theorem Gondola.portDown_eq (g : Gondola) (ring : Bool) : g.portDown ring p =
    if p ≠ .branch ∧ ((g.setGlink p lkTRN1).turned ring p).cutOff ring = true then { (g.setGlink p lkTRN1).turned ring p with pos := none }
    else (g.setGlink p lkTRN1).turned ring p := rfl

theorem Gondola.glink_turned (g : Gondola) (ring : Bool) (q : GPort) : (g.turned ring p).glink q = g.glink q := by
  unfold Gondola.turned
  split
  · split <;> rfl
  · rfl

/-- A port of a gondola that goes down trains again; away from a ring the upstream port takes the position with it (R99). -/
theorem Gondola.portDown_shows (g : Gondola) (ring : Bool) :
    (g.portDown ring p).glink p = lkTRN1 ∧ (ring = false → p = .up → (g.portDown ring p).pos = none) := by
  have hlink : ((g.setGlink p lkTRN1).turned ring p).glink p = lkTRN1 := by rw [Gondola.glink_turned, Gondola.glink_setGlink]
  rw [Gondola.portDown_eq]
  refine ⟨?_, ?_⟩
  · split <;> exact hlink
  · rintro rfl rfl
    have hcut : ((g.setGlink .up lkTRN1).turned false .up).cutOff false = true := by
      rw [Gondola.cutOff, if_neg (by decide), Gondola.portUp, hlink]
      rfl
    rw [if_pos ⟨by decide, hcut⟩]

theorem linkLoss_gon (cv : Nat) (now : FTime) (hh : isHome n = false) (h : (s.gon n).glink p = lkUP) :
    Completes (.linkLoss (.gon n p) cv now) s (fun u => u = { s with gons := u.gons }
      ∧ (u.gon n).glink p = lkTRN1 ∧ (s.onRing n = false → p = .up → (u.gon n).pos = none) ∧ ∀ m ≠ n, u.gon m = s.gon m) := by
  obtain ⟨v, hv⟩ : ∃ v, v = s.updGon n (fun g => ((g.portDown (s.onRing n) p).countN (gportIdx p) cv).countN gcLOCKLOSS 1) := ⟨_, rfl⟩
  have hleg := v.legless_overAll n (s.gtime n now)
  have hgon : v.gon n = (((s.gon n).portDown (s.onRing n) p).countN (gportIdx p) cv).countN gcLOCKLOSS 1 := by rw [hv, State.gon_updGon]
  obtain ⟨hs, hm⟩ := State.eq_of_apart ((v.apart_overAll (s.gtime n now) hh).trans (hv ▸ s.apart_updGon n _))
  obtain ⟨hlink, hpos⟩ := (s.gon n).portDown_shows p (s.onRing n)
  refine ⟨v.overAll n (s.gtime n now), ?_, hs, ?_, fun hring hup => ?_, hm⟩
  · rw [hv]
    exact if_pos (by simp [Gondola.portUp, h])
  · exact (congrArg (fun x => (x n).1.glink p) hleg).trans ((congrArg (·.glink p) hgon).trans hlink)
  · exact (congrArg (fun x => (x n).1.pos) hleg).trans ((congrArg (·.pos) hgon).trans (hpos hring hup))
end

end Sys2Proof.Machine

/-- Settles O14: the writes of TTH_Tn_CTL, the training of a device port and that of a port of a gondola, each by the lemma on its row. -/
theorem trainingRows : Obligations.TrainingRows := by
  unfold Obligations.TrainingRows
  intro s
  refine ⟨fun via t v hd => ⟨portEnable_on s via t v hd, portEnable_off s via t v hd, retrain_on s via t v hd, retrain_home s via t v hd⟩,
    trn1Complete_dev s, fun t h role cap => ⟨fun hr => trn2Complete_dev_up s t h role cap (rolesOK_ring _ hr), fun hr => ?_,
      trn2Complete_dev_through s t h role cap⟩, trainingTimeout_dev s, linkLoss_dev s, fun n p => ⟨trn1Complete_gon s n p,
      trn2Complete_gon s n p, trainingTimeout_gon s n p, linkLoss_gon s n p⟩⟩
  exact trn2Complete_dev_miswire s t h role cap (rolesOK_noRing _ hr)
end

section
/-! SUPPORT. A gondola's counters, its queue and the frame that starts at its ports, and what its silence leaves. -/
open Sys2Proof Sys2Proof.Machine
namespace Sys2Proof.Machine

/-! ### Counters and the local time of a gondola -/

/-- A count changes only registers of a gondola. -/
theorem State.gon_gcount (s : State) (n k m : Nat) : ∃ r, (s.gcount n k).gon m = { s.gon m with regs := r } := by
  by_cases h : m = baseNode n
  · subst h
    exact ⟨_, s.gon_updGon _ _⟩
  · exact ⟨_, s.gon_updGon_ne _ h⟩

/-- The tick plan of a node is in no counter. -/
theorem State.gPLAN_gcount (s : State) (n k m : Nat) : (s.gcount n k).gPLAN m = s.gPLAN m := by
  have hreg : ((s.gcount n k).gon m).greg aG_PLAN = (s.gon m).greg aG_PLAN := by
    by_cases h : m = baseNode n
    · subst h
      have hk : aG_PLAN ≠ 0x080 + 4 * k := by unfold aG_PLAN; omega
      simp only [State.gcount, State.gon_updGon, Gondola.greg, Gondola.countN]
      exact tget_tset_ne _ _ _ _ hk
    · rw [State.gcount, s.gon_updGon_ne _ h]
  exact congrArg (fun v : Word => v.toNat % 65536) hreg

/-- The local time of a gondola is in neither its queue nor its registers (R117). -/
theorem State.gtime_congr {s u : State} {n : Nat} {q : List OutFrame} {r : Tbl Word} (h : u = { s with gons := u.gons })
    (hg : u.gon n = { s.gon n with queue := q, regs := r }) (raw : FTime) : u.gtime n raw = s.gtime n raw := by
  have hnow : u.now = s.now := (congrArg State.now h).trans rfl
  have hq : u.gquant n = s.gquant n := by
    unfold State.gquant State.gident
    rw [hg]
  unfold State.gtime
  rw [hnow, hq, hg]

/-- The ports that a broadcast frame leaves by rest on the links of the gondola. -/
theorem State.castPorts_congr {s u : State} {n : Nat} (h : u = { s with gons := u.gons }) (hl : (u.gon n).links = (s.gon n).links)
    (p : GPort) : u.castPorts n p = s.castPorts n p := by
  have hring : u.onRing n = s.onRing n := (congrArg (State.onRing · n) h).trans rfl
  unfold State.castPorts Gondola.portUp Gondola.glink
  rw [hring, hl]

/-- Two changes of gondolas alone, one after the other. -/
theorem State.gons_trans {s u v : State} (hv : v = { u with gons := v.gons }) (hu : u = { s with gons := u.gons }) :
    v = { s with gons := v.gons } :=
  hv.trans (congrArg (fun x : State => { x with gons := v.gons }) hu)

/-! ### The queue -/

/-- Queue a frame at several ports, to be passed on. -/
def State.queueAts (s : State) (n : Nat) (ps : List GPort) (f : Frame) (crc : Word) (loc : FTime) : State :=
  ps.foldl (fun s p => s.updGon n (fun g => g.queueAt p false f crc loc)) s

theorem State.gon_queueAts (s : State) (n : Nat) (ps : List GPort) (f : Frame) (crc : Word) (loc : FTime) :
    (s.queueAts n ps f crc loc).gon n = { s.gon n with queue := (s.gon n).queue ++ ps.map (fun p => ⟨p, false, f, crc, loc⟩) } := by
  induction ps generalizing s with
  | nil => simp [State.queueAts]
  | cons p ps ih =>
    refine (ih (s.updGon n (fun g => g.queueAt p false f crc loc))).trans ?_
    simp [Gondola.queueAt]

/-- Queueing changes its gondola alone. -/
theorem State.queueAts_frame (s : State) (n : Nat) (ps : List GPort) (f : Frame) (crc : Word) (loc : FTime) :
    let u := s.queueAts n ps f crc loc
    u = { s with gons := u.gons } ∧ ∀ m ≠ n, u.gon m = s.gon m :=
  State.eq_of_apart (foldl_keeps (State.apart · n) _ _ _ (fun u _ => u.apart_updGon n _))

/-- A frame that is forwarded gets the local time of its arrival at each port, which queueing does not change. -/
theorem State.foldl_forward (s : State) (n : Nat) (ps : List GPort) (f : Frame) (crc : Word) (sof : FTime) :
    ps.foldl (fun s p => s.updGon n (fun g => g.queueAt p false f crc (s.gtime n sof))) s = s.queueAts n ps f crc (s.gtime n sof) := by
  induction ps generalizing s with
  | nil => rfl
  | cons p ps ih =>
    have ht : (s.updGon n (fun g => g.queueAt p false f crc (s.gtime n sof))).gtime n sof = s.gtime n sof :=
      State.gtime_congr rfl (s.gon_updGon n _) sof
    rw [List.foldl_cons, ih, ht]
    rfl

/-! ### The frame that starts at a port (R57, R97) -/

/-- The gondola when frame o, the one at place i of its queue, has left at local time t. -/
def Gondola.started (g : Gondola) (i : Nat) (o : OutFrame) (t : FTime) : Gondola :=
  let x := g.leaving o t
  let typ := o.frame.typ.toNat
  { g with queue := g.queue.eraseIdx i, out := some { o with frame := x.1, crc := x.2 }
           seqCnt := if o.own ∧ !frameIsTick o.frame then tset 0 g.seqCnt typ (tget 0 g.seqCnt typ + 1) else g.seqCnt }

/-- The frame that is next at a port that is up leaves. -/
theorem State.gStart_of_next (s : State) {n i : Nat} {p : GPort} {tick : Bool} {now : FTime} {o : OutFrame}
    (hup : isHome n = true ∨ (s.gon n).portUp p = true) (hn : s.gNext n p tick (s.gtime n now) = some i)
    (hi : (s.gon n).queue[i]? = some o) :
    s.gStart n p tick now = s.updGon n (fun g => g.started i o (s.gtime n now)) := by
  have hgo : ¬(!isHome n ∧ !(s.gon n).portUp p) := by
    rcases hup with h | h <;> simp [h]
  unfold State.gStart
  dsimp only
  rw [if_neg hgo, hn]
  dsimp only
  rw [hi]
  rfl

/-- Without a frame that may start nothing leaves. -/
theorem State.gStart_of_none (s : State) {n : Nat} {p : GPort} {tick : Bool} {now : FTime} (hn : s.gNext n p tick (s.gtime n now) = none) :
    s.gStart n p tick now = s := by
  unfold State.gStart
  dsimp only
  rw [hn]
  exact ite_self s

/-! ### Silence (R110) -/

/-- The gondolas but for their channels, their registers and what says that they are silent. -/
def State.unmuted (s : State) : Nat → Gondola := fun n => { s.gon n with chans := [], regs := [], sil := false, silentFlag := false }

/-- The gondolas but for their channels and registers. -/
def State.bare (s : State) : Nat → Gondola := fun n => { s.gon n with chans := [], regs := [] }

theorem State.bare_of_legless {s u : State} (h : u.legless = s.legless) : u.bare = s.bare :=
  funext fun n => congrArg (fun x => (x n).1) h

theorem State.unmuted_of_bare {s u : State} (h : u.bare = s.bare) : u.unmuted = s.unmuted :=
  funext fun n => congrArg (fun x => { x n with sil := false, silentFlag := false }) h

theorem State.bare_updChan (s : State) (n c : Nat) (f : GChan → GChan) : (s.updGon n (fun g => g.updChan c f)).bare = s.bare := by
  funext m
  by_cases hm : m = n
  · subst hm
    simp only [State.bare, State.gon_updGon]
    rfl
  · simp only [State.bare, s.gon_updGon_ne _ hm]

theorem State.unmuted_sil (s : State) (n : Nat) : (s.updGon n (fun g => { g with sil := true, silentFlag := true })).unmuted = s.unmuted := by
  funext m
  by_cases hm : m = n
  · subst hm
    simp only [State.unmuted, State.gon_updGon]
  · simp only [State.unmuted, s.gon_updGon_ne _ hm]

/-- Channel c of node m loses its record, unless there is no such channel. -/
def State.drop (s : State) (m c : Nat) : State :=
  if ((s.gon m).chan c) = {} then s else
    s.updGon m (fun g => g.updChan c (fun ch => { ch.stopCarrier with rec_ := none, nextChange := 3 }))

/-- The channels of some nodes lose their records. -/
def State.drops (s : State) (ms : List Nat) : State := ms.foldl (fun s m => (List.range 16).foldl (fun s c => s.drop m c) s) s

/-- The gondola is marked silent. -/
def State.mute (s : State) (b : Nat) : State := (s.gcount b gcSILENT).updGon b (fun g => { g with sil := true, silentFlag := true })

theorem State.silence_eq (s : State) (n : Nat) (t : FTime) :
    s.silence n t = (((s.mute (baseNode n)).drops (nodesOf (baseNode n))).overAll (baseNode n) t) := rfl

theorem State.bare_drop (s : State) (m c : Nat) : (s.drop m c).bare = s.bare := by
  unfold State.drop
  split
  · rfl
  · exact s.bare_updChan m c _

theorem State.bare_drops (s : State) (ms : List Nat) : (s.drops ms).bare = s.bare :=
  foldl_keeps State.bare _ _ _ (fun _ m => foldl_keeps State.bare _ _ _ (fun v c => v.bare_drop m c))

theorem State.unmuted_mute (s : State) (b : Nat) : (s.mute b).unmuted = s.unmuted :=
  (State.unmuted_sil _ b).trans (State.unmuted_of_bare (State.bare_of_legless (s.legless_gcount b gcSILENT)))

/-- Silence leaves what does not concern it. -/
theorem State.unmuted_silence (s : State) (n : Nat) (t : FTime) : (s.silence n t).unmuted = s.unmuted := by
  rw [s.silence_eq, State.unmuted_of_bare (State.bare_of_legless (State.legless_overAll _ _ t)), State.unmuted_of_bare (State.bare_drops _ _),
    s.unmuted_mute]

/-- A gondola made silent says so. -/
theorem State.sil_silence (s : State) (n : Nat) (t : FTime) :
    ((s.silence n t).gon (baseNode n)).sil = true ∧ ((s.silence n t).gon (baseNode n)).silentFlag = true := by
  have h : (s.silence n t).bare = (s.mute (baseNode n)).bare := by
    rw [s.silence_eq, State.bare_of_legless (State.legless_overAll _ _ t), State.bare_drops]
  have hm : (s.mute (baseNode n)).gon (baseNode n) = { (s.gcount (baseNode n) gcSILENT).gon (baseNode n) with sil := true, silentFlag := true } :=
    State.gon_updGon _ _ _
  have hs := congrArg (fun x => (x (baseNode n)).sil) h
  have hf := congrArg (fun x => (x (baseNode n)).silentFlag) h
  simp only [State.bare, hm] at hs hf
  exact ⟨hs, hf⟩

/-! ### No record is left -/

theorem State.rec_drop (s : State) (m c : Nat) : (((s.drop m c).gon m).chan c).rec_ = none := by
  unfold State.drop
  split
  · next h => rw [h]
  · simp

theorem State.rec_drop_of_none {s : State} {m c : Nat} (m' c' : Nat) (h : ((s.gon m).chan c).rec_ = none) :
    (((s.drop m' c').gon m).chan c).rec_ = none := by
  by_cases hm : m = m'
  · subst hm
    by_cases hc : c = c'
    · subst hc
      exact s.rec_drop m c
    · unfold State.drop
      split
      · exact h
      · rw [State.gon_updGon, Gondola.chan_updChan_ne _ _ hc, h]
  · unfold State.drop
    split
    · exact h
    · rw [s.gon_updGon_ne _ hm, h]

/-- What each step of a fold keeps and one step of it brings about holds after the fold. -/
theorem foldl_reaches {α β : Type} (P : β → Prop) (f : β → α → β) {l : List α} {x : α} (hx : x ∈ l) (hdo : ∀ s, P (f s x))
    (hkeep : ∀ s y, P s → P (f s y)) (s : β) : P (l.foldl f s) := by
  induction l generalizing s with
  | nil => simp at hx
  | cons y l ih =>
    rw [List.foldl_cons]
    rcases List.mem_cons.mp hx with rfl | hl
    · exact List.foldlRecOn l f (hdo s) (fun u hu z _ => hkeep u z hu)
    · exact ih hl _

theorem State.rec_drops (s : State) {ms : List Nat} {m c : Nat} (hm : m ∈ ms) (hc : c < 16) : (((s.drops ms).gon m).chan c).rec_ = none := by
  refine foldl_reaches (fun u : State => ((u.gon m).chan c).rec_ = none) _ hm (fun u => ?_) (fun u m' hu => ?_) s
  · exact foldl_reaches (fun u : State => ((u.gon m).chan c).rec_ = none) _ (List.mem_range.mpr hc) (fun v => v.rec_drop m c)
      (fun v c' hv => State.rec_drop_of_none m c' hv) u
  · exact List.foldlRecOn (motive := fun u : State => ((u.gon m).chan c).rec_ = none) _ (fun s c => s.drop m' c) hu
      (fun v hv c' _ => State.rec_drop_of_none m' c' hv)

/-- A silent gondola holds no record. -/
theorem State.rec_silence (s : State) (n : Nat) (t : FTime) {m c : Nat} (hm : m ∈ nodesOf (baseNode n)) (hc : c < 16) :
    (((s.silence n t).gon m).chan c).rec_ = none := by
  have h := congrArg (fun x => ((x m).2 c).rec_) (State.legless_overAll ((s.mute (baseNode n)).drops (nodesOf (baseNode n))) (baseNode n) t)
  simp only [State.legless, ← s.silence_eq] at h
  rw [h]
  exact State.rec_drops _ hm hc

end Sys2Proof.Machine
end

section
/-! SUPPORT. How a gondola keeps field time, takes its position, forwards, stores and starts its frames, and the settling of the statement. -/
open Sys2Proof Sys2Proof.Machine
namespace Sys2Proof.Machine

/-! ### Keeping field time (R64, R117, R118) -/

/-- The TIME frame that a gondola passes on. -/
def passedTime (origin : FTime) (corr path : BitVec 64) (ii : BitVec 8) (fr : Word) (sc : BitVec 16) (hops : BitVec 8) : Frame :=
  mkFrame 3 1 0 0 0 (leBytes 8 origin.toNat ++ leBytes 8 corr.toNat ++ leBytes 8 path.toNat ++ [ii] ++ leBytes 4 fr.toNat
    ++ leBytes 2 sc.toNat ++ [hops + 1])

/-- The gondola g after a TIME frame of origin time `origin` whose target time is reached at loc, on its local time. -/
structure Gondola.Timed (g g' : Gondola) (origin loc target sof : FTime) (ii : BitVec 8) (fr : Word) (sc : BitVec 16) : Prop where
  links : g'.links = g.links
  queue : g'.queue = g.queue
  plan : g'.regs = g.regs
  seen : g'.lastOrigin = origin ∧ g'.incInt = ii ∧ g'.incFrac = fr ∧ g'.stepCnt = sc ∧ g'.rawRef = sof
  offset : g'.offset = BitVec.ofInt 64 (tdiff loc target)
  stepped : (g.timeSeen = true ∧ sc ≠ g.stepCnt) ∨ 16000 ≤ (tdiff loc target).natAbs → g'.locRef = target ∧ g'.slew = 0
  slewed : ¬((g.timeSeen = true ∧ sc ≠ g.stepCnt) ∨ 16000 ≤ (tdiff loc target).natAbs) → g'.locRef = loc
    ∧ (g.timeSeen = true → g'.slew = -(tdiff loc target) ∨ g'.slew.natAbs = (origin - g.lastOrigin).toNat * 200 / 1000000)

/-- What counting a loss of lock leaves of the gondola. -/
theorem State.timed_counted (s : State) (node : Nat) (g' : Gondola) (lost : Bool) (hplan : g'.regs = (s.gon node).regs) :
    let w := if lost then (s.setGon node g').gcount node gcLOCKLOSS else s.setGon node g'
    w = { s with gons := w.gons } ∧ (∃ r, w.gon node = { g' with regs := r }) ∧ w.gPLAN node = s.gPLAN node := by
  have hset : (s.setGon node g').gPLAN node = s.gPLAN node := by
    have hreg : ((s.setGon node g').gon node).greg aG_PLAN = (s.gon node).greg aG_PLAN := by
      rw [State.gon_setGon, Gondola.greg, Gondola.greg, hplan]
    exact congrArg (fun v : Word => v.toNat % 65536) hreg
  cases lost
  · exact ⟨rfl, ⟨g'.regs, s.gon_setGon _ _⟩, hset⟩
  · obtain ⟨r, hr⟩ := (s.setGon node g').gon_gcount node gcLOCKLOSS node
    refine ⟨rfl, ⟨r, hr.trans ?_⟩, (State.gPLAN_gcount _ _ _ _).trans hset⟩
    rw [State.gon_setGon]

section
variable (s : State) (node : Nat) (port : GPort) (origin sof loc target : FTime) (corr path : BitVec 64) (ii hops : BitVec 8) (fr : Word)
  (sc : BitVec 16)

/-- A TIME frame: the local time is kept, a loss of lock counted, the streams silenced if the time stepped, and the frame passed on. -/
theorem timeReceive_next (hloc : loc = s.gtime node sof)
    (htarget : target = origin + BitVec.ofInt 64 (fix16 (corr + (path + (s.gon node).segDelay)))) :
    ∃ (g' : Gondola) (w u : State), (s.gon node).Timed g' origin loc target sof ii fr sc
      ∧ w = { s with gons := w.gons } ∧ (∃ r, w.gon node = { g' with regs := r })
      ∧ u = (if ((s.gon node).timeSeen = true ∧ sc ≠ (s.gon node).stepCnt ∨ 16000 ≤ (tdiff loc target).natAbs) ∧ s.gPLAN node ≠ 0
          then w.silence node target else w)
      ∧ execGondolaTimeReceive node port origin corr path ii fr sc hops sof s
        = .next (u.queueAts node (u.castPorts node port) (passedTime origin corr (path + (s.gon node).segDelay) ii fr sc hops) 0 loc) := by
  have hexec : ∃ (g' : Gondola) (lost : Bool), (s.gon node).Timed g' origin loc target sof ii fr sc ∧
      let w := if lost then (s.setGon node g').gcount node gcLOCKLOSS else s.setGon node g'
      let u := if ((s.gon node).timeSeen = true ∧ sc ≠ (s.gon node).stepCnt ∨ 16000 ≤ (tdiff loc target).natAbs) ∧ w.gPLAN node ≠ 0
        then w.silence node target else w
      execGondolaTimeReceive node port origin corr path ii fr sc hops sof s
        = .next (u.queueAts node (u.castPorts node port) (passedTime origin corr (path + (s.gon node).segDelay) ii fr sc hops) 0 loc) := by
    subst hloc htarget
    refine ⟨_, _, ?_, rfl⟩
    refine ⟨rfl, rfl, rfl, ⟨rfl, rfl, rfl, rfl, rfl⟩, rfl, fun h => ⟨if_pos h, if_pos h⟩, fun h => ⟨if_neg h, fun hseen => ?_⟩⟩
    simp only [usUnits, if_neg h, if_pos hseen]
    omega
  obtain ⟨g', lost, hg, hexec⟩ := hexec
  obtain ⟨hw, hr, hplan⟩ := s.timed_counted node g' lost hg.plan
  refine ⟨g', _, _, hg, hw, hr, rfl, ?_⟩
  rw [← hplan]
  exact hexec

/-- A TIME frame while the local time is slewed. -/
theorem timeReceive_slewed (hloc : loc = s.gtime node sof)
    (htarget : target = origin + BitVec.ofInt 64 (fix16 (corr + (path + (s.gon node).segDelay))))
    (hseen : (s.gon node).timeSeen = true) (hsc : sc = (s.gon node).stepCnt) (hoff : (tdiff loc target).natAbs < 16000) :
    Completes (.gondolaTimeReceive node port origin corr path ii fr sc hops sof) s (fun t => t = { s with gons := t.gons }
        ∧ (t.gon node).lastOrigin = origin ∧ (t.gon node).incInt = ii ∧ (t.gon node).incFrac = fr
        ∧ (t.gon node).locRef = loc ∧ (t.gon node).rawRef = sof ∧ (t.gon node).offset = BitVec.ofInt 64 (tdiff loc target)
        ∧ ((t.gon node).slew = -(tdiff loc target) ∨ (t.gon node).slew.natAbs = (origin - (s.gon node).lastOrigin).toNat * 200 / 1000000)
        ∧ ∃ f, f.typ = 3 ∧ f.body = leBytes 8 origin.toNat ++ leBytes 8 corr.toNat ++ leBytes 8 (path + (s.gon node).segDelay).toNat ++ [ii]
              ++ leBytes 4 fr.toNat ++ leBytes 2 sc.toNat ++ [hops + 1]
            ∧ (t.gon node).queue = (s.gon node).queue ++ (s.castPorts node port).map (fun p => ⟨p, false, f, 0, loc⟩)) := by
  have hno : ¬((s.gon node).timeSeen = true ∧ sc ≠ (s.gon node).stepCnt ∨ 16000 ≤ (tdiff loc target).natAbs) := by
    rintro (⟨-, h⟩ | h)
    · exact h hsc
    · omega
  obtain ⟨g', w, u, hg, hw, ⟨r, hr⟩, hu, hexec⟩ := timeReceive_next s node port origin sof loc target corr path ii hops fr sc hloc htarget
  rw [if_neg (fun h => hno h.1)] at hu
  subst hu
  have hcast : u.castPorts node port = s.castPorts node port := State.castPorts_congr hw (by rw [hr]; exact hg.links) port
  obtain ⟨horigin, hii, hfr, -, hraw⟩ := hg.seen
  obtain ⟨hlocRef, hslew⟩ := hg.slewed hno
  refine ⟨_, hexec, ?_⟩
  beta_reduce
  rw [hcast, State.gon_queueAts, hr]
  refine ⟨State.gons_trans (State.queueAts_frame _ _ _ _ _ _).1 hw, horigin, hii, hfr, hlocRef, hraw, hg.offset,
    hslew hseen, passedTime origin corr (path + (s.gon node).segDelay) ii fr sc hops, rfl, rfl, ?_⟩
  rw [hg.queue]

/-- A TIME frame that steps the local time. -/
theorem timeReceive_stepped (hloc : loc = s.gtime node sof)
    (htarget : target = origin + BitVec.ofInt 64 (fix16 (corr + (path + (s.gon node).segDelay))))
    (hstep : (s.gon node).timeSeen = true ∧ sc ≠ (s.gon node).stepCnt ∨ 16000 ≤ (tdiff loc target).natAbs) :
    Completes (.gondolaTimeReceive node port origin corr path ii fr sc hops sof) s (fun t => (t.gon node).locRef = target
        ∧ (t.gon node).rawRef = sof ∧ (t.gon node).slew = 0 ∧ (t.gon node).stepCnt = sc
        ∧ (s.gPLAN node ≠ 0 → (t.gon (baseNode node)).sil = true)) := by
  obtain ⟨g', w, u, hg, -, ⟨r, hr⟩, hu, hexec⟩ := timeReceive_next s node port origin sof loc target corr path ii hops fr sc hloc htarget
  obtain ⟨-, -, -, hsc, hraw⟩ := hg.seen
  obtain ⟨hlocRef, hslew⟩ := hg.stepped hstep
  have hunm : u.unmuted = w.unmuted := by
    rw [hu]
    split
    · exact w.unmuted_silence node target
    · rfl
  have hsil : s.gPLAN node ≠ 0 → (u.gon (baseNode node)).sil = true := by
    intro hp
    rw [hu, if_pos ⟨hstep, hp⟩]
    exact (w.sil_silence node target).1
  have hkeep : (u.gon node).locRef = target ∧ (u.gon node).rawRef = sof ∧ (u.gon node).slew = 0 ∧ (u.gon node).stepCnt = sc := by
    have h := congrFun hunm node
    simp only [State.unmuted, hr, Gondola.mk.injEq] at h
    simp [h, hlocRef, hraw, hslew, hsc]
  refine ⟨_, hexec, ?_⟩
  beta_reduce
  rw [State.gon_queueAts]
  obtain ⟨hkLoc, hkRaw, hkSlew, hkStep⟩ := hkeep
  refine ⟨hkLoc, hkRaw, hkSlew, hkStep, fun hp => ?_⟩
  by_cases hb : baseNode node = node
  · rw [hb, State.gon_queueAts]
    rw [hb] at hsil
    exact hsil hp
  · rw [(State.queueAts_frame _ _ _ _ _ _).2 _ hb]
    exact hsil hp

end

/-- The lock is lost after four TIME intervals without a TIME frame, and not before (R118). -/
theorem lockLoss_gon (s : State) (node : Nat) (now : FTime) (hiv : (s.gon node).timeIv ≠ 0) :
    ((4 * (s.gon node).timeIv : Nat) ≤ tdiff (s.gtime node now) (s.gon node).locRef →
      Completes (.gondolaLockLoss node now) s (fun t => t = { s with gons := t.gons } ∧ (t.gon node).lock = false ∧ (t.gon node).goodTimes = 0))
    ∧ (tdiff (s.gtime node now) (s.gon node).locRef < (4 * (s.gon node).timeIv : Nat) →
      Completes (.gondolaLockLoss node now) s (fun t => t = s)) := by
  refine ⟨fun hlate => ?_, fun hin => ⟨s, if_neg (by omega), rfl⟩⟩
  refine ⟨_, if_pos ⟨hiv, by omega⟩, ?_, by simp⟩
  split <;> rfl

/-! ### Positions (R72, R82, R99) -/

/-- The identity block of a gondola does not change with what else is known of it. -/
theorem State.gident_updGon (s : State) (n : Nat) (f : Gondola → Gondola) (h : (f (s.gon n)).ident = (s.gon n).ident) :
    (s.updGon n f).gident n = s.gident n := by
  unfold State.gident
  rw [State.gon_updGon, h]

/-- A gondola without a position, the last on its tether, takes the one that an ENUM brings. -/
theorem enumReceive_last (s : State) (node : Nat) (next ep : BitVec 8) (attach : Bool) (now : FTime) (hring : s.onRing node = false)
    (hnext : next.toNat < 64) (hpos : (s.gon node).pos = none) (hbr : (s.gon node).portUp .branch = false)
    (hth : (s.gon node).portUp .thru = false) :
    Completes (.gondolaEnumReceive node .up next false false attach ep now) s (fun t => t = { s with gons := t.gons }
        ∧ (t.gon node).pos = some (Fin.ofNat 64 next.toNat) ∧ (t.gon node).epoch = ep
        ∧ ∃ f, (t.gon node).queue = (s.gon node).queue ++ [ownFrame .up f, ownFrame .up (enumFrame (next.toNat + 1) true false attach ep)]
          ∧ f.typ = 7 ∧ f.body = s.gident node) := by
  have hexec : execGondolaEnumReceive node .up next false false attach ep now s
      = .next ((s.takePos node .up next ep).gfwd node .up (enumFrame (next.toNat + 1) true false attach ep)) := by
    have hr : (s.takePos node .up next ep).onRing node = false := hring
    unfold execGondolaEnumReceive
    simp [hr, hbr, hth, show ¬64 ≤ next.toNat by omega, hpos]
  refine ⟨_, hexec, rfl, ?_⟩
  simp only [State.gfwd, State.takePos, State.gon_updGon, Gondola.queueAt]
  refine ⟨trivial, trivial, _, by rw [List.append_assoc]; rfl, rfl, ?_⟩
  exact s.gident_updGon node _ rfl

/-- An ENUM without a position left is sent back; a gondola that would have taken one has none. -/
theorem enumReceive_over (s : State) (node : Nat) (p : GPort) (next ep : BitVec 8) (attach : Bool) (now : FTime) (hnext : 64 ≤ next.toNat) :
    Completes (.gondolaEnumReceive node p next false false attach ep now) s (fun t =>
        (t.gon node).pos = (if attach = false ∧ ep ≠ (s.gon node).epoch then none else (s.gon node).pos)
        ∧ (isHome node = false → t = { s with gons := t.gons })
        ∧ (t.gon node).queue = (s.gon node).queue ++ [ownFrame p (enumFrame next.toNat true true attach ep)]) := by
  have hexec : execGondolaEnumReceive node p next false false attach ep now s
      = .next ((if (s.gon node).pos.isNone = true ∨ (!attach) = true ∧ ep ≠ (s.gon node).epoch then
          (s.updGon node (fun g => { g with pos := none })).overAll node (s.gtime node now) else s).gfwd node p
            (enumFrame next.toNat true true attach ep)) := by
    unfold execGondolaEnumReceive
    simp only [Bool.false_eq_true, if_false, if_pos hnext]
  refine ⟨_, hexec, ?_⟩
  simp only [State.gfwd, State.gon_updGon, Gondola.queueAt]
  by_cases htakes : (s.gon node).pos.isNone = true ∨ (!attach) = true ∧ ep ≠ (s.gon node).epoch
  · rw [if_pos htakes]
    generalize hw : s.updGon node (fun g => { g with pos := none }) = w
    have hbare := congrFun (State.bare_of_legless (w.legless_overAll node (s.gtime node now))) node
    have hwg : w.gon node = { s.gon node with pos := none } := by rw [← hw, State.gon_updGon]
    simp only [State.bare, hwg, Gondola.mk.injEq] at hbare
    refine ⟨?_, fun hh => ?_, by simp [hbare, ownFrame]⟩
    · have hnone : (if attach = false ∧ ep ≠ (s.gon node).epoch then none else (s.gon node).pos) = none := by
        split
        · rfl
        · next h => exact Option.isNone_iff_eq_none.mp (htakes.resolve_right (by simpa using h))
      simp [hbare, hnone]
    · have hap : ((w.overAll node (s.gtime node now)).updGon node (fun g => g.queueAt p true (enumFrame next.toNat true true attach ep) 0 0)).apart node
          = s.apart node := by rw [State.apart_updGon, State.apart_overAll _ _ hh, ← hw, State.apart_updGon]
      exact (State.eq_of_apart hap).1
  · rw [if_neg htakes]
    rw [if_neg (fun h => htakes (.inr (by simpa using h)))]
    exact ⟨rfl, fun _ => rfl, rfl⟩

/-! ### Forwarding and storing (R73, R83, R97, R123) -/

/-- What counting in a gondola's own counters leaves. -/
theorem State.gcount_frame (s : State) (n k : Nat) : s.gcount n k = { s with gons := (s.gcount n k).gons } := rfl

/-- A frame is forwarded whole; code violations and a bad CRC are counted. -/
theorem frameForward_gon (s : State) (node : Nat) (p : GPort) (f : Frame) (crc : Word) (cv : Nat) (sof : FTime) :
    let out := (s.fwdPorts node p f.route.toNat f.addr.toNat).filter (fun q => (s.gon node).portUp q)
    Completes (.gondolaFrameForward node p f crc cv sof) s (fun t => t = { s with gons := t.gons }
        ∧ (t.gon node).queue = (s.gon node).queue ++ out.map (fun q => ⟨q, false, f, crc, s.gtime node sof⟩)
        ∧ (cv = 0 → (t.gon node).regs
            = ((if out ≠ [] ∧ crc ≠ frameCrc f then s.gcount node gcCRC_FWD else s).gon node).regs)) := by
  intro out
  generalize hv : (if cv = 0 then s else s.updGon node (fun g => g.countN (gportIdx p) cv)) = v
  generalize hu : (if out ≠ [] ∧ crc ≠ frameCrc f then v.gcount node gcCRC_FWD else v) = u
  have hexec : execGondolaFrameForward node p f crc cv sof s = .next (u.queueAts node out f crc (u.gtime node sof)) := by
    rw [← u.foldl_forward, ← hu, ← hv]
    rfl
  have hvs : v = { s with gons := v.gons } ∧ ∃ r, v.gon node = { s.gon node with regs := r } := by
    rw [← hv]
    split
    · exact ⟨rfl, _, rfl⟩
    · exact ⟨rfl, _, s.gon_updGon _ _⟩
  have hus : u = { s with gons := u.gons } ∧ ∃ r, u.gon node = { s.gon node with regs := r } := by
    obtain ⟨hvs, r, hr⟩ := hvs
    rw [← hu]
    split
    · obtain ⟨r', hr'⟩ := v.gon_gcount node gcCRC_FWD node
      exact ⟨State.gons_trans (v.gcount_frame _ _) hvs, r', by rw [hr', hr]⟩
    · exact ⟨hvs, r, hr⟩
  obtain ⟨hus, r, hr⟩ := hus
  have htime : u.gtime node sof = s.gtime node sof := State.gtime_congr hus hr sof
  refine ⟨_, hexec, State.gons_trans (State.queueAts_frame _ _ _ _ _ _).1 hus, ?_, fun hcv => ?_⟩
  · rw [State.gon_queueAts, htime, hr]
  · rw [State.gon_queueAts, ← hu, ← hv, if_pos hcv]

/-- A BRK moves the serving side when it comes to it, and goes on. -/
theorem brkReceive_gon (s : State) (node : Nat) (p : GPort) (seg : BitVec 8) (hp : p ≠ .branch) (hring : s.onRing node = true) :
    Completes (.gondolaBrkReceive node p seg) s (fun t =>
      t = { s with gons := t.gons } ∧ (t.gon node).brk = (s.gon node).brk ++ [(otherPort p, seg)]
        ∧ (t.gon node).serving true = (if (s.gon node).serving true = p then otherPort p else (s.gon node).serving true)) := by
  refine ⟨_, if_neg (by simp [hp, hring]), rfl, by rw [State.gon_updGon], ?_⟩
  rw [State.gon_updGon]
  cases p with
  | branch => exact absurd rfl hp
  | up => cases h : (s.gon node).serveThru <;> simp [Gondola.serving, h, otherPort]
  | thru => cases h : (s.gon node).serveThru <;> simp [Gondola.serving, h, otherPort]

/-- The gondola after a part of a BULK stream. -/
def Gondola.took (g : Gondola) (plan : Nat) (str : BitVec 8) (last : Bool) (off : Word) (data : List Byte) : Gondola :=
  let b := (tget [] g.stored str.toNat).take off.toNat ++ data
  let g := { g with stored := tset [] g.stored str.toNat b, cRet := if plan = 0 then g.cRet else min 15 (g.cRet + 1) }
  if last ∧ str = 0 then { g with image := some b, stored := tset [] g.stored 0 [] : Gondola }.useImage plan else g

/-- A part of a stream is stored; the last one of the firmware is the image, or the firmware itself outside a tick plan. -/
theorem Gondola.took_shows (g : Gondola) (plan : Nat) (str : BitVec 8) (last : Bool) (off : Word) (data : List Byte) :
    let got := (tget [] g.stored str.toNat).take off.toNat ++ data
    let g' := g.took plan str last off data
    (¬(last = true ∧ str = 0) → tget [] g'.stored str.toNat = got ∧ g'.image = g.image ∧ g'.firmware = g.firmware)
      ∧ (last = true → str = 0 → if plan = 0 then g'.firmware = got else g'.image = some got)
      ∧ g'.cRet = (if plan = 0 then g.cRet else min 15 (g.cRet + 1)) ∧ g'.queue = g.queue := by
  by_cases hfw : last = true ∧ str = 0
  · by_cases hplan : plan = 0 <;> simp [Gondola.took, Gondola.useImage, hfw, hplan]
  · simp only [Gondola.took, if_neg hfw]
    exact ⟨fun _ => ⟨tget_tset_same _ _ _ _, trivial, trivial⟩, fun hl hs => absurd ⟨hl, hs⟩ hfw, trivial, trivial⟩

/-- A part of a BULK stream that a gondola takes, and its credit. -/
theorem bulkReceive_gon (s : State) (node : Nat) (htakes : s.gTakes node false = true) (str : BitVec 8) (last : Bool) (off : Word)
    (data : List Byte) :
    let got := (tget [] (s.gon node).stored str.toNat).take off.toNat ++ data
    Completes (.gondolaBulkReceive node str last off data) s (fun t => t = { s with gons := t.gons }
        ∧ (¬(last = true ∧ str = 0) → tget [] (t.gon node).stored str.toNat = got ∧ (t.gon node).image = (s.gon node).image
            ∧ (t.gon node).firmware = (s.gon node).firmware)
        ∧ (last = true → str = 0 → if s.gPLAN node = 0 then (t.gon node).firmware = got else (t.gon node).image = some got)
        ∧ (s.gPLAN node ≠ 0 → (t.gon node).cRet = min 15 ((s.gon node).cRet + 1) ∧ (t.gon node).queue = (s.gon node).queue)
        ∧ (s.gPLAN node = 0 → (t.gon node).cRet = (s.gon node).cRet
            ∧ ∃ p f, (t.gon node).queue = (s.gon node).queue ++ [ownFrame p f] ∧ f.typ = 13 ∧ f.body = [1, 0])) := by
  intro got
  generalize hw : s.updGon node (fun g => g.took (s.gPLAN node) str last off data) = w
  have hexec : execGondolaBulkReceive node str last off data s
      = .next (if s.gPLAN node = 0 then w.gsend node (w.gframe node 13 0 0 [1, 0]) else w) := by
    unfold execGondolaBulkReceive
    rw [if_neg (by simp [htakes]), ← hw]
    rfl
  have hwg : w.gon node = (s.gon node).took (s.gPLAN node) str last off data := by rw [← hw, State.gon_updGon]
  have hws : w = { s with gons := w.gons } := by rw [← hw]; rfl
  obtain ⟨hpart, himage, hcRet, hqueue⟩ := (s.gon node).took_shows (s.gPLAN node) str last off data
  refine ⟨_, hexec, ?_⟩
  rw [← hwg] at hpart himage hcRet hqueue
  by_cases hplan : s.gPLAN node = 0
  · rw [if_pos hplan] at hcRet ⊢
    simp only [State.gsend, State.gfwd, State.gon_updGon, Gondola.queueAt]
    refine ⟨State.gons_trans rfl hws, hpart, himage, fun h => absurd hplan h, fun _ => ⟨hcRet, _, _, by rw [hqueue]; rfl, rfl, rfl⟩⟩
  · rw [if_neg hplan] at hcRet ⊢
    exact ⟨hws, hpart, himage, fun _ => ⟨hcRet, hqueue⟩, fun h => absurd h hplan⟩

/-- Credits granted to a gondola. -/
theorem creditReceive_gon (s : State) (node : Nat) (htakes : s.gTakes node false = true) (n : BitVec 4) :
    Completes (.gondolaCreditReceive node n) s (fun t => t = { s with gons := t.gons }
      ∧ t.gon node = { s.gon node with cGrant := min 15 ((s.gon node).cGrant + n.toNat) } ∧ ∀ m ≠ node, t.gon m = s.gon m) := by
  refine ⟨_, congrArg Host.Outcome.next (if_pos htakes), rfl, s.gon_updGon _ _, fun m hm => s.gon_updGon_ne _ hm⟩

/-! ### The frames that start (R57, R97) -/

/-- With no tick frame in the queue the first frame is the next that may start. -/
theorem State.gNext_head (s : State) {node : Nat} {o : OutFrame} {r : List OutFrame} (t : FTime) (hq : (s.gon node).queue = o :: r)
    (htick : ∀ x ∈ o :: r, frameIsTick x.frame = false)
    (hmay : o.own = true → s.gQuiet node (o.frame.body.length + 14) t = true) : s.gNext node o.port false t = some 0 := by
  have hany : (o :: r).any (fun x => x.port == o.port && frameIsTick x.frame) = false := by
    rw [List.any_eq_false]
    intro x hx
    simp [htick x hx]
  have hfirst : (o.port == o.port && (!o.own || s.gQuiet node (o.frame.body.length + 14) t)) = true := by
    cases ho : o.own
    · simp
    · simp [hmay ho]
  simp only [State.gNext, hq, hany, Bool.false_eq_true, if_false]
  rw [List.findIdx?_cons, if_pos hfirst]

/-- With no tick frame in the queue none starts as one. -/
theorem State.gNext_none (s : State) {node : Nat} {p : GPort} {q : List OutFrame} (t : FTime) (hq : (s.gon node).queue = q)
    (htick : ∀ x ∈ q, frameIsTick x.frame = false) : s.gNext node p true t = none := by
  refine List.findIdx?_eq_none_iff.mpr fun x hx => ?_
  rw [hq] at hx
  simp [htick x hx]

/-- What a gondola writes into a frame of its own that is no tick frame keeps its type, and numbers it. -/
theorem Gondola.leaving_own (g : Gondola) {o : OutFrame} (t : FTime) (hown : o.own = true) (htick : frameIsTick o.frame = false) :
    ∃ f, g.leaving o t = (f, frameCrc f) ∧ f.typ = o.frame.typ ∧ f.seq = tget 0 g.seqCnt o.frame.typ.toNat := by
  refine ⟨_, if_pos hown, ?_⟩
  simp only [htick, Bool.false_eq_true, if_false]
  split
  · exact ⟨rfl, rfl⟩
  · split <;> exact ⟨rfl, rfl⟩

/-- A frame of the gondola's own that is no tick frame leaves with the next number of its type. -/
theorem Gondola.started_own (g : Gondola) {o : OutFrame} {r : List OutFrame} (t : FTime) (hq : g.queue = o :: r) (hown : o.own = true)
    (htick : frameIsTick o.frame = false) :
    (g.started 0 o t).queue = r ∧ ∃ f, (g.started 0 o t).out = some { o with frame := f, crc := frameCrc f } ∧ f.typ = o.frame.typ
      ∧ f.seq = tget 0 g.seqCnt f.typ.toNat ∧ tget 0 (g.started 0 o t).seqCnt f.typ.toNat = f.seq + 1 := by
  obtain ⟨f, hf, htyp, hseq⟩ := g.leaving_own t hown htick
  refine ⟨by simp [Gondola.started, hq], f, by simp [Gondola.started, hf], htyp, by rw [htyp, hseq], ?_⟩
  simp [Gondola.started, hown, htick, htyp, hseq]

/-- A frame that is passed on, but a TIME frame, leaves as it came. -/
theorem Gondola.started_passed (g : Gondola) {o : OutFrame} {r : List OutFrame} (t : FTime) (hq : g.queue = o :: r) (hown : o.own = false)
    (htyp : o.frame.typ ≠ 3) : (g.started 0 o t).queue = r ∧ (g.started 0 o t).out = some o := by
  have hf : g.leaving o t = (o.frame, o.crc) := (if_neg (by simp [hown])).trans (if_neg htyp)
  simp [Gondola.started, hf, hq]

/-- The first frame of a queue without tick frames starts at its port. -/
theorem frameStart_gon (s : State) (node : Nat) (o : OutFrame) (r : List OutFrame) (now : FTime) (hq : (s.gon node).queue = o :: r)
    (htick : ∀ x ∈ o :: r, frameIsTick x.frame = false) (hup : isHome node = true ∨ (s.gon node).portUp o.port = true) :
    (o.own = true → s.gQuiet node (o.frame.body.length + 14) (s.gtime node now) = true →
      Completes (.nonTickFrameStart (.gon node o.port) now) s (fun t => t = { s with gons := t.gons } ∧ (t.gon node).queue = r
        ∧ ∃ f, (t.gon node).out = some { o with frame := f, crc := frameCrc f } ∧ f.typ = o.frame.typ
          ∧ f.seq = tget 0 (s.gon node).seqCnt f.typ.toNat ∧ tget 0 (t.gon node).seqCnt f.typ.toNat = f.seq + 1))
    ∧ (o.own = false → o.frame.typ ≠ 3 → Completes (.nonTickFrameStart (.gon node o.port) now) s (fun t => t = { s with gons := t.gons }
        ∧ (t.gon node).queue = r ∧ (t.gon node).out = some o))
    ∧ Completes (.tickDnTransmit (.gon node o.port) now) s (fun t => t = s) := by
  have hi : (s.gon node).queue[0]? = some o := by rw [hq]; rfl
  refine ⟨fun hown hquiet => ?_, fun hown htyp => ?_, ?_⟩
  · have hstart := s.gStart_of_next hup (s.gNext_head (s.gtime node now) hq htick (fun _ => hquiet)) hi
    refine ⟨_, congrArg Host.Outcome.next hstart, rfl, ?_⟩
    rw [State.gon_updGon]
    exact Gondola.started_own _ _ hq hown (htick o (by simp))
  · have hstart := s.gStart_of_next hup (s.gNext_head (s.gtime node now) hq htick (fun h => by simp [hown] at h)) hi
    refine ⟨_, congrArg Host.Outcome.next hstart, rfl, ?_⟩
    rw [State.gon_updGon]
    exact Gondola.started_passed _ _ hq hown htyp
  · exact ⟨_, rfl, s.gStart_of_none (s.gNext_none (s.gtime node now) hq htick)⟩

end Sys2Proof.Machine

/-- Settles O21: field time slewed and stepped, positions taken and refused, frames forwarded, stored and started. -/
theorem gondolaLinkRows : Obligations.GondolaLinkRows := by
  unfold Obligations.GondolaLinkRows
  intro s node
  refine ⟨fun port origin sof corr path ii hops fr sc => ⟨?_, ?_⟩, fun now hiv => lockLoss_gon s node now hiv, ?_, ?_, ?_, ?_, ?_, ?_, ?_, ?_,
    frameForward_gon s node, fun o r now hq htick hup => frameStart_gon s node o r now hq htick hup⟩
  · exact timeReceive_slewed s node port origin sof _ _ corr path ii hops fr sc rfl rfl
  · exact timeReceive_stepped s node port origin sof _ _ corr path ii hops fr sc rfl rfl
  · exact ⟨_, rfl, rfl, by rw [State.gsend, State.gfwd, State.gon_updGon]; rfl⟩
  · exact fun t1 t2 t3 now => ⟨_, rfl, rfl, s.gon_updGon _ _, fun m hm => s.gon_updGon_ne _ hm⟩
  · exact fun p t1 sof hp => ⟨_, if_neg (fun h => hp h.1), rfl, by rw [State.gfwd, State.gon_updGon]; rfl⟩
  · exact enumReceive_last s node
  · exact enumReceive_over s node
  · exact bulkReceive_gon s node
  · exact brkReceive_gon s node
  · exact creditReceive_gon s node
end

section
/-! SUPPORT. The tick frames, the changes, the samples and the missed ticks of a gondola, and the settling of the statement on them. -/
open Sys2Proof Sys2Proof.Machine
namespace Sys2Proof.Machine

/-! ### What an accepted record leaves (R103, R104) -/

theorem State.bare_of_gons {s u : State} (h : u.gons = s.gons) : u.bare = s.bare := State.bare_of_legless (State.legless_of_gons h)

theorem State.gons_countN (s : State) (o n : Nat) : (s.countN o n).gons = s.gons := by
  unfold State.countN
  dsimp only
  split <;> rfl

/-- A new shadow pair is counted and shown in registers of the device. -/
theorem State.gons_onWin_shadow (s : State) (n c : Nat) (full : Bool) (tick : BitVec 8) :
    (s.onWin n c (fun w s =>
      let s := if full then s.count w.ovwr else s
      s.fset w.seq fPGN_SEQ_TICKW tick.toNat)).gons = s.gons := by
  unfold State.onWin
  split
  · dsimp only
    split
    · exact State.gons_countN _ _ _
    · rfl
  · rfl

/-- The state on which a channel's new shadow pair is written differs in registers of the device alone. -/
theorem State.shadowWrite_eq (s : State) (n c : Nat) (p : BitVec 128) (t : FTime) (tick : BitVec 8) : ∃ v : State, v.gons = s.gons ∧
    s.shadowWrite n c p t tick = v.updGon n (fun g => g.updChan c (fun ch => { ch with shadow := some p, shadowAt := t, shadowTick := tick })) :=
  ⟨_, s.gons_onWin_shadow n c _ tick, rfl⟩

/-- The records that the channels of a node hold. -/
def State.recOf (s : State) (n : Nat) : Nat → Option (BitVec 128) := fun c => ((s.gon n).chan c).rec_

theorem State.recOf_of_legless {s u : State} (n : Nat) (h : u.legless = s.legless) : u.recOf n = s.recOf n :=
  funext fun c => congrArg (fun x : Gondola × (Nat → GChan) => (x.2 c).rec_) (congrFun h n)

theorem State.recOf_updChan (s : State) (n c : Nat) (f : GChan → GChan) (j : Nat) :
    (s.updGon n (fun g => g.updChan c f)).recOf n j = if j = c then (f ((s.gon n).chan c)).rec_ else s.recOf n j := by
  unfold State.recOf
  rw [State.gon_updGon]
  split
  · next h => rw [h, Gondola.chan_updChan]
  · next h => rw [Gondola.chan_updChan_ne _ _ h]

/-- A record applied to channel c leaves the gondolas but for channels, and that channel alone holds it. -/
theorem State.applyRec_shows (s : State) (n c : Nat) (r : BitVec 128) (at_ tk : FTime) (tick : BitVec 8) :
    (s.applyRec n c r at_ tk tick).bare = s.bare
      ∧ ((s.gon (baseNode n)).sil = false → ∀ j, (s.applyRec n c r at_ tk tick).recOf n j = if j = c then some r else s.recOf n j) := by
  have hcancel : (s.legsCancel n c at_).legless = s.legless := s.legless_legsCancel n c at_
  generalize hv : s.legsCancel n c at_ = v at hcancel
  have hbare : v.bare = s.bare := State.bare_of_legless hcancel
  have hheld : v.recOf n = s.recOf n := State.recOf_of_legless n hcancel
  have hsil : (v.gon (baseNode n)).sil = (s.gon (baseNode n)).sil := congrArg (fun x => (x (baseNode n)).sil) hbare
  unfold State.applyRec
  dsimp only
  rw [hv, hsil]
  split
  · next h => exact ⟨(v.bare_updChan n c _).trans hbare, fun h' => absurd h (by simp [h'])⟩
  · split
    · generalize hu : v.updGon n _ = u
      obtain ⟨w, hw, hshadow⟩ := u.shadowWrite_eq n c r at_ tick
      rw [hshadow]
      refine ⟨(w.bare_updChan n c _).trans ((State.bare_of_gons hw).trans ?_), fun _ j => ?_⟩
      · rw [← hu, v.bare_updChan n c, hbare]
      · have hwu : ∀ j, w.recOf n j = u.recOf n j := fun j => congrFun (State.recOf_of_legless n (State.legless_of_gons hw)) j
        rw [State.recOf_updChan]
        split
        · next hj =>
          have hc := hwu c
          rw [← hu, v.recOf_updChan, if_pos rfl] at hc
          exact hc
        · next hj => rw [hwu, ← hu, v.recOf_updChan, if_neg hj, hheld]
    · refine ⟨(State.bare_of_legless (State.legless_legsCmd _ n c at_ _)).trans ((v.bare_updChan n c _).trans hbare), fun _ j => ?_⟩
      rw [State.recOf_of_legless n (State.legless_legsCmd _ n c at_ _), v.recOf_updChan, hheld]

/-- Records on different channels are all held. -/
theorem State.applyRecs_shows (s : State) (n : Nat) (recs : List (BitVec 128)) (at_ tk : FTime) (tick : BitVec 8) (hd : (recs.map recCH).Nodup) :
    let u := recs.foldl (fun s r => s.applyRec n (recCH r) r at_ tk tick) s
    u.bare = s.bare ∧ ((s.gon (baseNode n)).sil = false →
      (∀ r ∈ recs, u.recOf n (recCH r) = some r) ∧ ∀ j ∉ recs.map recCH, u.recOf n j = s.recOf n j) := by
  induction recs generalizing s with
  | nil => simp
  | cons r recs ih =>
    obtain ⟨hbare, hrec⟩ := s.applyRec_shows n (recCH r) r at_ tk tick
    obtain ⟨hnot, hd⟩ := List.nodup_cons.mp hd
    obtain ⟨hbare', hrest⟩ := ih (s.applyRec n (recCH r) r at_ tk tick) hd
    refine ⟨hbare'.trans hbare, fun hs => ?_⟩
    have hsil : ((s.applyRec n (recCH r) r at_ tk tick).gon (baseNode n)).sil = false :=
      (congrArg (fun x => (x (baseNode n)).sil) hbare).trans hs
    obtain ⟨hin, hout⟩ := hrest hsil
    refine ⟨fun r' hr' => ?_, fun j hj => ?_⟩
    · rcases List.mem_cons.mp hr' with rfl | hr'
      · exact (hout _ hnot).trans ((hrec hs _).trans (if_pos rfl))
      · exact hin r' hr'
    · rw [List.map_cons, List.mem_cons, not_or] at hj
      exact (hout j hj.2).trans ((hrec hs j).trans (if_neg hj.1))

/-! ### TICK_DN (R102, R103) -/

/-- The node that a tick frame concerns. -/
def tickNode (node : Nat) (addr : Fin 2) : Nat := if isHome node then (if addr = 1 then homeBal else homeNode) else node

/-- The gondola after it has accepted a TICK_DN for the tick that starts at tk. -/
def Gondola.accepted (g : Gondola) (n : Nat) (at_ tk : FTime) (grant : Nat) : Gondola :=
  { g with applyTime := at_, cGrant := min 15 (g.cGrant + grant),
           acc0 := if n = homeBal then g.acc0 else some tk, acc1 := if n = homeBal then some tk else g.acc1 }

/-- The apply time is a multiple of the quantum within t_ap after the arrival. -/
theorem State.applyAt_within (s : State) (n : Nat) (a : FTime) :
    ∃ d, s.gquant n * d ≤ idTAP (s.gident n) * 16 ∧ s.applyAt n a = a + BitVec.ofNat 64 (s.gquant n * d) := by
  refine ⟨_, ?_, rfl⟩
  have hle : (s.free 0).toNat % (idTAP (s.gident n) * 16 / s.gquant n + 1) ≤ idTAP (s.gident n) * 16 / s.gquant n :=
    Nat.lt_succ_iff.mp (Nat.mod_lt _ (Nat.succ_pos _))
  exact (Nat.mul_le_mul_left _ hle).trans (Nat.mul_div_le _ _)

/-- The channels due are different. -/
theorem State.gDue_nodup (s : State) (n : Nat) (k : Int) : (s.gDue n k).Nodup := List.Nodup.filter _ List.nodup_range

section
variable (s : State) (node : Nat) (addr : Fin 2) (arr : FTime) (seq : BitVec 8) (fixed : BitVec 80) (recs : List (BitVec 128)) (n : Nat)

/-- The CRC of the TICK_DN that a gondola finds. -/
def State.dnCrc : Word :=
  frameCrc (mkFrame 1 0 (if isHome n then addr.val else (s.gpos n).getD 0) seq 0 (leBytes 10 fixed.toNat ++ recs.flatMap (fun r => leBytes 16 r.toNat)))

/-- What a gondola does with a TICK_DN, in the order in which it looks. -/
theorem tickDnReceive_eq (hn : n = tickNode node addr) (hticks : s.gTicking n = true) (haddr : isHome n = true ∨ addr = 0) (c : Word) :
    let a := s.gtime n arr
    let k := s.gTick n a
    let tk := s.gTickStart n k
    execGondolaTickDnReceive node addr arr c 0 seq fixed recs s
      = if c ≠ s.dnCrc addr seq fixed recs n then .next (s.gcount n gcCRC_OWN)
        else if seq ≠ tickByte k then .next (s.gcount n gcSEQERR)
        else if !reached (tk + BitVec.ofNat 64 (s.gDLN n)) a then .next (s.gcount n gcLATEDN)
        else if recs.map recCH ≠ s.gDue n k then .next (s.gcount n gcSEQERR)
        else
          let u := (s.drew 1).updGon (baseNode n) (fun g => g.accepted n (s.applyAt n a) tk (dnCGRANT fixed))
          let u := if u.allAccepted n k tk then u.updGon (baseNode n) (fun g => { g with missRun := 0 }) else u
          .next ((recs.foldl (fun v r => v.applyRec n (recCH r) r (s.applyAt n a) tk seq) u).gview n (s.applyAt n a)) := by
  have hgo : ¬((!s.gTicking n) = true ∨ (!isHome n) = true ∧ addr = 1) := by
    rcases haddr with h | h <;> simp [h, hticks]
  have hnode : (if isHome node = true then (if addr = 1 then homeBal else homeNode) else node) = n := hn.symm
  unfold execGondolaTickDnReceive
  simp only [hnode, if_true, if_neg hgo]
  rfl

/-- A TICK_DN that a gondola refuses is counted, under the first of its checks that fails. -/
theorem tickDnReceive_refused (hn : n = tickNode node addr) (hticks : s.gTicking n = true) (haddr : isHome n = true ∨ addr = 0) :
    let a := s.gtime n arr
    let k := s.gTick n a
    let crc := s.dnCrc addr seq fixed recs n
    (∀ c ≠ crc, Completes (.gondolaTickDnReceive node addr arr c 0 seq fixed recs) s (fun t => t = s.gcount n gcCRC_OWN))
    ∧ (seq ≠ tickByte k → Completes (.gondolaTickDnReceive node addr arr crc 0 seq fixed recs) s (fun t => t = s.gcount n gcSEQERR))
    ∧ (seq = tickByte k →
      (reached (s.gTickStart n k + BitVec.ofNat 64 (s.gDLN n)) a = false →
        Completes (.gondolaTickDnReceive node addr arr crc 0 seq fixed recs) s (fun t => t = s.gcount n gcLATEDN))
      ∧ (reached (s.gTickStart n k + BitVec.ofNat 64 (s.gDLN n)) a = true → recs.map recCH ≠ s.gDue n k →
          Completes (.gondolaTickDnReceive node addr arr crc 0 seq fixed recs) s (fun t => t = s.gcount n gcSEQERR))) := by
  have hexec := tickDnReceive_eq s node addr arr seq fixed recs n hn hticks haddr
  refine ⟨fun c hc => ⟨_, (hexec c).trans (if_pos hc), rfl⟩, fun hseq => ?_, fun hseq => ⟨fun hdl => ?_, fun hdl hrecs => ?_⟩⟩
  · exact ⟨_, (hexec _).trans ((if_neg (not_not.mpr rfl)).trans (if_pos hseq)), rfl⟩
  · refine ⟨_, (hexec _).trans ?_, rfl⟩
    rw [if_neg (not_not.mpr rfl), if_neg (not_not.mpr hseq), if_pos (by simp [hdl])]
  · refine ⟨_, (hexec _).trans ?_, rfl⟩
    rw [if_neg (not_not.mpr rfl), if_neg (not_not.mpr hseq), if_neg (by simp [hdl]), if_pos hrecs]

/-- A TICK_DN that a gondola accepts: its tick, its credits, its apply time, and each record at its channel. -/
theorem tickDnReceive_accepted (hn : n = tickNode node addr) (hticks : s.gTicking n = true) (haddr : isHome n = true ∨ addr = 0)
    (hseq : seq = tickByte (s.gTick n (s.gtime n arr)))
    (hdl : reached (s.gTickStart n (s.gTick n (s.gtime n arr)) + BitVec.ofNat 64 (s.gDLN n)) (s.gtime n arr) = true)
    (hrecs : recs.map recCH = s.gDue n (s.gTick n (s.gtime n arr))) :
    Completes (.gondolaTickDnReceive node addr arr (s.dnCrc addr seq fixed recs n) 0 seq fixed recs) s (fun t =>
          (if n = homeBal then (t.gon (baseNode n)).acc1 else (t.gon (baseNode n)).acc0) = some (s.gTickStart n (s.gTick n (s.gtime n arr)))
          ∧ (t.gon (baseNode n)).cGrant = min 15 ((s.gon (baseNode n)).cGrant + dnCGRANT fixed)
          ∧ (∃ d, s.gquant n * d ≤ idTAP (s.gident n) * 16
            ∧ (t.gon (baseNode n)).applyTime = s.gtime n arr + BitVec.ofNat 64 (s.gquant n * d))
          ∧ ((s.gon (baseNode n)).sil = false → ∀ r ∈ recs, ((t.gon n).chan (recCH r)).rec_ = some r)) := by
  generalize ha : s.gtime n arr = a at hseq hdl hrecs ⊢
  generalize hu : (s.drew 1).updGon (baseNode n) (fun g => g.accepted n (s.applyAt n a) (s.gTickStart n (s.gTick n a)) (dnCGRANT fixed)) = u
  generalize hv : (if u.allAccepted n (s.gTick n a) (s.gTickStart n (s.gTick n a)) then u.updGon (baseNode n) (fun g => { g with missRun := 0 })
    else u) = v
  have hexec : execGondolaTickDnReceive node addr arr (s.dnCrc addr seq fixed recs n) 0 seq fixed recs s = .next ((recs.foldl (fun v r =>
      v.applyRec n (recCH r) r (s.applyAt n a) (s.gTickStart n (s.gTick n a)) seq) v).gview n (s.applyAt n a)) := by
    rw [tickDnReceive_eq s node addr arr seq fixed recs n hn hticks haddr, if_neg (not_not.mpr rfl), ha, if_neg (not_not.mpr hseq),
      if_neg (by simp [hdl]), if_neg (not_not.mpr hrecs), hu, ← hv]
  have hug : u.gon (baseNode n) = (s.gon (baseNode n)).accepted n (s.applyAt n a) (s.gTickStart n (s.gTick n a)) (dnCGRANT fixed) := by
    rw [← hu, State.gon_updGon]
    rfl
  have hvg : ∃ m, v.gon (baseNode n) = { u.gon (baseNode n) with missRun := m } := by
    rw [← hv]
    split
    · exact ⟨_, u.gon_updGon _ _⟩
    · exact ⟨_, rfl⟩
  obtain ⟨m, hvg⟩ := hvg
  rw [hug] at hvg
  obtain ⟨hbare, hrec⟩ := v.applyRecs_shows n recs (s.applyAt n a) (s.gTickStart n (s.gTick n a)) seq (hrecs ▸ s.gDue_nodup n _)
  generalize recs.foldl (fun v r => v.applyRec n (recCH r) r (s.applyAt n a) (s.gTickStart n (s.gTick n a)) seq) v = w at hexec hbare hrec
  have hb := congrFun hbare (baseNode n)
  simp only [State.bare, hvg, Gondola.mk.injEq] at hb
  obtain ⟨d, hd, hat⟩ := s.applyAt_within n a
  refine ⟨_, hexec, ?_⟩
  simp only [State.gon_gview]
  refine ⟨?_, by simp [hb, Gondola.accepted], ⟨d, hd, by simp [hb, Gondola.accepted, hat]⟩, fun hs r hr => ?_⟩
  · by_cases hbal : n = homeBal
    · simp [hbal] at hb ⊢
      simp [hb, Gondola.accepted]
    · simp only [if_neg hbal]
      simp [hb, Gondola.accepted, hbal]
  · exact (hrec (by rw [hvg]; exact hs)).1 r hr

end

/-! ### VECTOR changes (R104, R105) -/

/-- What a VECTOR change leaves of its channel when it executes at x. -/
theorem vectorChange_shows (v : State) (node c : Nat) (x now : FTime) (nx : Nat) (f : Nat → BitVec 2) :
    let t := ((v.updGon node (fun g => g.updChan c (fun ch => { ch with nextChange := nx, lastExec := x }))).legsCmd node c x f).gview node now
    ((t.gon node).chan c).lastExec = x ∧ ((t.gon node).chan c).nextChange = nx := by
  generalize hw : v.updGon node (fun g => g.updChan c (fun ch => { ch with nextChange := nx, lastExec := x })) = w
  intro t
  have hch : (w.gon node).chan c = { (v.gon node).chan c with nextChange := nx, lastExec := x } := by
    rw [← hw, State.gon_updGon, Gondola.chan_updChan]
  have hleg : t.legless = w.legless := (State.legless_gview _ _ _).trans (w.legless_legsCmd node c x f)
  have hexec : ((t.gon node).chan c).lastExec = ((w.gon node).chan c).lastExec := congrArg (fun y => ((y node).2 c).lastExec) hleg
  have hnext : ((t.gon node).chan c).nextChange = ((w.gon node).chan c).nextChange := congrArg (fun y => ((y node).2 c).nextChange) hleg
  rw [hexec, hnext, hch]
  exact ⟨rfl, rfl⟩

/-- A VECTOR change executes at its commanded time, at once when that is past, and not before it. -/
theorem vectorChange_gon (s : State) (node : Nat) (ch : Fin 16) (second : Bool) (now : FTime) (r : BitVec 128)
    (hrec : ((s.gon node).chan ch).rec_ = some r) (hkind : recKIND r = kVECTOR)
    (hnext : ((s.gon node).chan ch).nextChange = (if second then 2 else 1)) :
    let cmd := ((s.gon node).chan ch).recTk + BitVec.ofNat 64 (if second then vecT2 r else vecT1 r)
    (reached cmd ((s.gon node).chan ch).lastExec = true → reached (s.gtime node now) (nearest (s.gquant node) cmd) = true →
      Completes (.vectorChange node ch second now) s (fun t => ((t.gon node).chan ch).lastExec = nearest (s.gquant node) cmd
        ∧ ((t.gon node).chan ch).nextChange = if second = false ∧ vecNCH r = 2 then 2 else 3))
    ∧ (reached cmd ((s.gon node).chan ch).lastExec = true → reached (s.gtime node now) (nearest (s.gquant node) cmd) = false →
      Completes (.vectorChange node ch second now) s (fun t => t = s))
    ∧ (reached cmd ((s.gon node).chan ch).lastExec = false → reached (s.gtime node now) ((s.gon node).chan ch).lastExec = true →
      Completes (.vectorChange node ch second now) s (fun t => ((t.gon node).chan ch).lastExec = ((s.gon node).chan ch).lastExec
        ∧ ((t.gon node).chan ch).nextChange = if second = false ∧ vecNCH r = 2 then 2 else 3)) := by
  intro cmd
  have hgo : ¬(recKIND r ≠ kVECTOR ∨ ((s.gon node).chan ch).nextChange ≠ if second = true then 2 else 1) := by simp [hkind, hnext]
  have hexec : ∀ x, x = (if (!reached cmd ((s.gon node).chan ch).lastExec) = true then ((s.gon node).chan ch).lastExec
        else nearest (s.gquant node) cmd) →
      execVectorChange node ch second now s = if (!reached (s.gtime node now) x) = true then .next s else
        .next ((((if (!reached cmd ((s.gon node).chan ch).lastExec) = true then s.gcount node gcLATECHG else s).updGon node
          (fun g => g.updChan ch (fun y => { y with nextChange := if second = false ∧ vecNCH r = 2 then 2 else 3, lastExec := x }))).legsCmd
            node ch x (fun k => vecLevel (if second then vecV2 r else vecV1 r) k)).gview node (s.gtime node now)) := by
    intro x hx
    unfold execVectorChange
    simp only [hrec, if_neg hgo, hx, Bool.not_eq_true']
    rfl
  refine ⟨fun hin hdue => ?_, fun hin hdue => ?_, fun hlate hdue => ?_⟩
  · have hx := hexec (nearest (s.gquant node) cmd) (if_neg (by simp [hin])).symm
    rw [if_neg (by simp [hdue])] at hx
    exact ⟨_, hx, vectorChange_shows _ node ch _ _ _ _⟩
  · have hx := hexec (nearest (s.gquant node) cmd) (if_neg (by simp [hin])).symm
    rw [if_pos (by simp [hdue])] at hx
    exact ⟨_, hx, rfl⟩
  · have hx := hexec ((s.gon node).chan ch).lastExec (if_pos (by simp [hlate])).symm
    rw [if_neg (by simp [hdue])] at hx
    exact ⟨_, hx, vectorChange_shows _ node ch _ _ _ _⟩

/-! ### Samples (R106) -/

/-- A node samples unless it is the home gondola while the analogue core is calibrated (R534). -/
theorem State.calibrates_false (s : State) {node : Nat} (hcal : node = homeNode → s.su.calRun = false) :
    (node == homeNode && s.su.calRun) = false := by
  by_cases h : node = homeNode
  · simp [h, hcal h]
  · simp [h]

/-- The first sample of a tick, at its instant. -/
theorem sampleInstant_first (s : State) (node : Nat) (ch : Fin 16) (now tk : FTime) (ia ib : BitVec 24) (ssi : Option Word)
    (htk : ((s.gon node).chan ch).smpTk = some tk) (hticks : s.gTicking node = true) (hplan : s.gInPlan node ch = true)
    (hn : 1 ≤ ((s.gon node).chan ch).nsmp) (hcal : node = homeNode → s.su.calRun = false)
    (hs1 : ((s.gon node).chan ch).s1 ≤ idSMAX (s.gident node))
    (hdue : reached (s.gtime node now) (nearest (s.gquant node) (tk + BitVec.ofNat 64 (4 * ((s.gon node).chan ch).s1))) = true) :
    Completes (.sampleInstant node ch false now ia ib ssi) s (fun t => t = { s with gons := t.gons }
        ∧ ((t.gon node).chan ch).s1ok = true ∧ ((t.gon node).chan ch).ia = ia ∧ ((t.gon node).chan ch).ib = ib
        ∧ ((t.gon node).chan ch).cntS = (match ssi with
          | none => ((s.gon node).chan ch).cnt
          | some w => BitVec.ofNat 32 (w.toNat % 2 ^ s.gSsiBits node ch))) := by
  have hcal' := s.calibrates_false hcal
  have hexec : execSampleInstant node ch false now ia ib ssi s = .next ((s.takeCount node ch
      (nearest (s.gquant node) (tk + BitVec.ofNat 64 (4 * ((s.gon node).chan ch).s1))) ssi).updGon node
        (fun g => g.updChan ch (fun x => { x with s1ok := true, s2ok := false, ia := ia, ib := ib }))) := by
    unfold execSampleInstant
    simp [htk, hticks, hplan, hn, hs1, hcal', hdue]
  refine ⟨_, hexec, rfl, ?_⟩
  simp only [State.takeCount, State.gon_updGon, Gondola.chan_updChan]
  refine ⟨trivial, trivial, trivial, ?_⟩
  cases ssi <;> rfl

/-- The second sample of a tick, at its instant. -/
theorem sampleInstant_second (s : State) (node : Nat) (ch : Fin 16) (now tk : FTime) (ia ib : BitVec 24) (ssi : Option Word)
    (htk : ((s.gon node).chan ch).smpTk = some tk) (hticks : s.gTicking node = true) (hplan : s.gInPlan node ch = true)
    (hn : ((s.gon node).chan ch).nsmp = 2) (hcal : node = homeNode → s.su.calRun = false)
    (hs2 : ((s.gon node).chan ch).s2 ≤ idSMAX (s.gident node))
    (hgap : ((s.gon node).chan ch).s1 + 4 * idTSPC (s.gident node) ≤ ((s.gon node).chan ch).s2)
    (hdue : reached (s.gtime node now) (nearest (s.gquant node) (tk + BitVec.ofNat 64 (4 * ((s.gon node).chan ch).s2))) = true) :
    Completes (.sampleInstant node ch true now ia ib ssi) s (fun t => t = { s with gons := t.gons }
        ∧ ((t.gon node).chan ch).s2ok = true ∧ ((t.gon node).chan ch).ia = ((s.gon node).chan ch).ia) := by
  have hcal' := s.calibrates_false hcal
  have hexec : execSampleInstant node ch true now ia ib ssi s = .next (s.updGon node (fun g => g.updChan ch (fun x =>
      { x with s2ok := true, ib := if descSENSE (s.gdesc node ch) == 3 then ia else ib }))) := by
    unfold execSampleInstant
    simp [htk, hticks, hplan, hn, hs2, hgap, hcal', hdue]
  refine ⟨_, hexec, rfl, ?_⟩
  simp only [State.gon_updGon, Gondola.chan_updChan]
  exact ⟨trivial, trivial⟩

/-! ### TICK_UP (R107) -/

/-- A change of a gondola keeps of every gondola what it keeps of that one. -/
theorem State.gon_updGon_keeps {β : Type} (p : Gondola → β) (s : State) (n m : Nat) (f : Gondola → Gondola) (h : ∀ g, p (f g) = p g) :
    p ((s.updGon n f).gon m) = p (s.gon m) := by
  by_cases hm : m = n
  · rw [hm, State.gon_updGon, h]
  · rw [s.gon_updGon_ne f hm]

/-- A frame that is sent leaves of every gondola all but its queue. -/
theorem State.gon_gsend_keeps {β : Type} (p : Gondola → β) (s : State) (n m : Nat) (f : Frame)
    (h : ∀ (g : Gondola) q, p (g.queueAt q true f 0 0) = p g) : p ((s.gsend n f).gon m) = p (s.gon m) :=
  State.gon_updGon_keeps p s n m _ (fun g => h g _)

/-- What channels reported is reported once. -/
def State.reported (s : State) (n : Nat) (cs : List Nat) : State :=
  cs.foldl (fun s c => s.updGon n (fun g => g.updChan c (fun ch => { ch with ill := false, idx := none, s1ok := false, s2ok := false }))) s

theorem State.reported_frame (s : State) (n : Nat) (cs : List Nat) :
    s.reported n cs = { s with gons := (s.reported n cs).gons } ∧ (s.reported n cs).bare = s.bare := by
  have h : ({ s.reported n cs with gons := [] } : State) = { s with gons := [] } :=
    foldl_keeps (fun u : State => ({ u with gons := [] } : State)) _ cs s (fun _ _ => rfl)
  exact ⟨congrArg (fun x : State => { x with gons := (s.reported n cs).gons }) h,
    foldl_keeps State.bare _ cs s (fun u c => u.bare_updChan n c _)⟩

theorem State.reported_shows (s : State) (n : Nat) (cs : List Nat) {c : Nat} (hc : c ∈ cs) :
    let ch := ((s.reported n cs).gon n).chan c
    ch.ill = false ∧ ch.idx = none ∧ ch.s1ok = false := by
  refine foldl_reaches (fun u : State => let ch := (u.gon n).chan c; ch.ill = false ∧ ch.idx = none ∧ ch.s1ok = false) _ hc (fun u => ?_)
    (fun u j hu => ?_) s
  · simp
  · by_cases hj : c = j
    · subst hj
      simp
    · simp only [State.gon_updGon, Gondola.chan_updChan_ne _ _ hj]
      exact hu

/-- A TICK_UP: one record per channel due, each reported once. -/
theorem tickUpSend_gon (s : State) (node : Nat) (addr : Fin 2) (now : FTime) (vbus : BitVec 16) (temp : BitVec 8) (n : Nat)
    (hn : n = tickNode node addr) (hticks : s.gTicking n = true) (haddr : isHome n = true ∨ addr = 0) (hplan : s.gPLAN n ≠ 0) :
    let k := s.gTick n (s.gtime n now)
    Completes (.gondolaTickUpSend node addr now vbus temp) s (fun t => t = { s with gons := t.gons }
      ∧ ∃ p f, (t.gon (baseNode n)).queue = (s.gon (baseNode n)).queue ++ [ownFrame p f] ∧ f.typ = 2 ∧ f.seq = tickByte k
        ∧ f.body.length = 10 + 16 * (s.gDue n k).length ∧ (t.gon n).missedFlag = false
        ∧ ∀ c ∈ s.gDue n k, ((t.gon n).chan c).ill = false ∧ ((t.gon n).chan c).idx = none ∧ ((t.gon n).chan c).s1ok = false) := by
  intro k
  have hnode : (if isHome node = true then (if addr = 1 then homeBal else homeNode) else node) = n := hn.symm
  have hgo : ¬((!s.gTicking n) = true ∨ (!isHome n) = true ∧ addr = 1 ∨ s.gPLAN n = 0) := by
    rcases haddr with h | h <;> simp [h, hticks, hplan]
  generalize hv : s.reported n (s.gDue n k) = v
  generalize hw : (v.updGon (baseNode n) (fun g => { g with silentFlag := false, evLate := false, cRet := 0 })).updGon n
    (fun g => { g with missedFlag := false }) = w
  have hexec : ∃ f, execGondolaTickUpSend node addr now vbus temp s = .next (w.gsend (baseNode n) f) ∧ f.typ = 2 ∧ f.seq = tickByte k
      ∧ f.body.length = 10 + 16 * (s.gDue n k).length := by
    rw [← hw, ← hv]
    unfold execGondolaTickUpSend
    simp only [hnode, if_neg hgo]
    refine ⟨_, rfl, ?_⟩
    split <;> simp [State.gframe, mkFrame, k, List.length_flatMap, Function.comp_def, Nat.mul_comm]
  obtain ⟨f, hexec, htyp, hseq, hlen⟩ := hexec
  obtain ⟨hvs, hbare⟩ := s.reported_frame n (s.gDue n k)
  have hshows : ∀ c ∈ s.gDue n k, ((v.gon n).chan c).ill = false ∧ ((v.gon n).chan c).idx = none ∧ ((v.gon n).chan c).s1ok = false :=
    fun c hc => hv ▸ s.reported_shows n _ hc
  rw [hv] at hvs hbare
  have hkeep : ∀ {β : Type} (p : Gondola → β), (∀ g, p { g with silentFlag := false, evLate := false, cRet := 0 } = p g) →
      (∀ g, p { g with missedFlag := false } = p g) → ∀ m, p (w.gon m) = p (v.gon m) := by
    intro β p hsent hmissed m
    rw [← hw]
    exact (State.gon_updGon_keeps p _ _ _ _ hmissed).trans (State.gon_updGon_keeps p _ _ _ _ hsent)
  have hqueue : (w.gon (baseNode n)).queue = (s.gon (baseNode n)).queue :=
    (hkeep Gondola.queue (fun _ => rfl) (fun _ => rfl) _).trans (congrArg (fun x => (x (baseNode n)).queue) hbare)
  have hmissed : (w.gon n).missedFlag = false := by rw [← hw, State.gon_updGon]
  have hws : w = { s with gons := w.gons } := by
    rw [← hw]
    exact State.gons_trans (u := v) rfl hvs
  refine ⟨_, hexec, State.gons_trans (u := w) rfl hws, (w.gon (baseNode n)).serving (w.onRing (baseNode n)), f, ?_, htyp, hseq, hlen, ?_, fun c hc => ?_⟩
  · rw [State.gsend, State.gfwd, State.gon_updGon, Gondola.queueAt, hqueue]
    rfl
  · exact (w.gon_gsend_keeps Gondola.missedFlag _ _ f (fun _ _ => rfl)).trans hmissed
  · have hsent : ((w.gsend (baseNode n) f).gon n).chan c = (v.gon n).chan c :=
      (w.gon_gsend_keeps (Gondola.chan · c) _ _ f (fun _ _ => rfl)).trans (hkeep (Gondola.chan · c) (fun _ => rfl) (fun _ => rfl) n)
    rw [hsent]
    exact hshows c hc

/-! ### Missed ticks and silence (R109, R110) -/

theorem State.bare_missAction (s : State) (n c : Nat) (t : FTime) : (s.missAction n c t).bare = s.bare := by
  have hlegs : ∀ (u : State) (f : Nat → BitVec 2), (u.legsCmd n c t f).bare = u.bare :=
    fun u f => State.bare_of_legless (u.legless_legsCmd n c t f)
  unfold State.missAction
  dsimp only
  split
  · exact s.bare_updChan n c _
  · split
    · rw [hlegs, State.bare_updChan, State.bare_updChan]
    · split
      · rw [hlegs, State.bare_updChan, State.bare_updChan]
      · exact s.bare_updChan n c _

/-- A tick that is missed is counted, and each node of the gondola says so. -/
theorem tickDnDeadline_gon (s : State) (node : Nat) (now : FTime) :
    let b := baseNode node
    let k := s.gTick b (s.gtime b now)
    s.gTicking b = true → s.gAllDue b k ≠ [] →
    reached (s.gtime b now) (s.gTickStart b k + BitVec.ofNat 64 (s.gDLN b)) = true →
    s.allAccepted b k (s.gTickStart b k) = false → (s.gon b).missTk ≠ some (s.gTickStart b k) →
    Completes (.tickDnDeadline node now) s (fun t => (t.gon b).missRun = (s.gon b).missRun + 1
      ∧ (∀ m ∈ nodesOf b, (t.gon m).missedFlag = true) ∧ (t.gon b).missTk = some (s.gTickStart b k)) := by
  intro b k hticks hdue hdl hacc hmiss
  generalize hu : (s.gcount b gcMISSED).updGon b (fun g => { g with missRun := g.missRun + 1, missTk := some (s.gTickStart b k) }) = u
  generalize hv : (nodesOf b).foldl (fun s m => s.updGon m (fun g => { g with missedFlag := true })) u = v
  have hexec : ∃ t, execTickDnDeadline node now s = .next t ∧ t.bare = v.bare := by
    rw [← hv, ← hu]
    refine ⟨_, if_neg ?_, ?_⟩
    · rintro (h | h | h | h | h)
      · exact absurd hticks (by simpa using h)
      · exact hdue h
      · exact absurd hdl (by simpa using h)
      · exact absurd h (by simpa using hacc)
      · exact hmiss h
    · rw [State.bare_of_legless (State.legless_gview _ _ _)]
      exact foldl_keeps State.bare _ _ _ (fun w e => (State.bare_updChan _ _ _ _).trans (w.bare_missAction _ _ _))
  obtain ⟨t, hexec, hbare⟩ := hexec
  obtain ⟨r, hr⟩ := s.gon_gcount b gcMISSED b
  have hug : u.gon b = { s.gon b with regs := r, missRun := (s.gon b).missRun + 1, missTk := some (s.gTickStart b k) } := by
    rw [← hu, State.gon_updGon, hr]
  have hkeep : ∀ {β : Type} (p : Gondola → β), (∀ g, p { g with missedFlag := true } = p g) → p (v.gon b) = p (u.gon b) := by
    intro β p hp
    rw [← hv]
    exact foldl_keeps (fun w : State => p (w.gon b)) _ _ _ (fun w m => w.gon_updGon_keeps p m b _ hp)
  have hflag : ∀ m ∈ nodesOf b, (v.gon m).missedFlag = true := by
    intro m hm
    rw [← hv]
    refine foldl_reaches (fun w : State => (w.gon m).missedFlag = true) _ hm (fun w => by rw [State.gon_updGon]) (fun w j hw => ?_) u
    by_cases hj : m = j
    · rw [hj, State.gon_updGon]
    · rw [w.gon_updGon_ne _ hj, hw]
  refine ⟨t, hexec, ?_, fun m hm => ?_, ?_⟩
  · have h : (t.gon b).missRun = (v.gon b).missRun := congrArg (fun x => (x b).missRun) hbare
    rw [h, hkeep Gondola.missRun (fun _ => rfl), hug]
  · have h : (t.gon m).missedFlag = (v.gon m).missedFlag := congrArg (fun x => (x m).missedFlag) hbare
    rw [h, hflag m hm]
  · have h : (t.gon b).missTk = (v.gon b).missTk := congrArg (fun x => (x b).missTk) hbare
    rw [h, hkeep Gondola.missTk (fun _ => rfl), hug]

/-- A gondola that missed too many ticks goes silent. -/
theorem streamSilence_gon (s : State) (node : Nat) (now : FTime) (hrun : s.gSILN node ≤ (s.gon (baseNode node)).missRun)
    (hsil : (s.gon (baseNode node)).sil = false) :
    Completes (.streamSilence node now) s (fun t => (t.gon (baseNode node)).sil = true ∧ (t.gon (baseNode node)).silentFlag = true
      ∧ ∀ m ∈ nodesOf (baseNode node), ∀ c < 16, ((t.gon m).chan c).rec_ = none) := by
  obtain ⟨hs, hf⟩ := s.sil_silence node (s.gtime node now)
  exact ⟨_, if_pos ⟨hrun, by simp [hsil]⟩, hs, hf, fun m hm c hc => s.rec_silence node _ hm hc⟩

/-! ### Tick frames at a port (R57) -/

/-- What a gondola writes into a tick frame that leaves is the CRC of its own. -/
theorem Gondola.leaving_tick (g : Gondola) (o : OutFrame) (t : FTime) (htick : frameIsTick o.frame = true) :
    g.leaving o t = (o.frame, if o.own then frameCrc o.frame else o.crc) := by
  have htyp : o.frame.typ = 1 ∨ o.frame.typ = 2 := by simpa [frameIsTick] using htick
  unfold Gondola.leaving
  cases hown : o.own <;> rcases htyp with h | h <;> simp [frameIsTick, h]

/-- A tick frame that waits first at a port leaves as one, and holds up every other. -/
theorem tickFrame_gon (s : State) (node : Nat) (o : OutFrame) (r : List OutFrame) (now : FTime) (hq : (s.gon node).queue = o :: r)
    (htick : frameIsTick o.frame = true) (hup : isHome node = true ∨ (s.gon node).portUp o.port = true) :
    Completes (.tickDnTransmit (.gon node o.port) now) s (fun t =>
      t = { s with gons := t.gons } ∧ (t.gon node).queue = r
      ∧ (t.gon node).out = some { o with crc := if o.own then frameCrc o.frame else o.crc })
    ∧ Completes (.nonTickFrameStart (.gon node o.port) now) s (fun t => t = s) := by
  have hfirst : s.gNext node o.port true (s.gtime node now) = some 0 := by
    simp [State.gNext, hq, htick, List.findIdx?_cons]
  have hnone : s.gNext node o.port false (s.gtime node now) = none := by
    simp [State.gNext, hq, htick]
  refine ⟨⟨_, congrArg Host.Outcome.next (s.gStart_of_next hup hfirst (by rw [hq]; rfl)), rfl, ?_⟩, _, rfl, s.gStart_of_none hnone⟩
  rw [State.gon_updGon]
  simp [Gondola.started, Gondola.leaving_tick _ _ _ htick, hq]

end Sys2Proof.Machine

/-- Settles O18: TICK_DN refused and accepted, VECTOR changes, samples, TICK_UP, missed ticks, silence, and the tick frames at a port. -/
theorem gondolaTickRows : Obligations.GondolaTickRows := by
  unfold Obligations.GondolaTickRows
  intro s node
  refine ⟨fun addr arr seq fixed recs n hn hticks haddr => ?_,
    fun ch second now r hrec hkind hnext => vectorChange_gon s node ch second now r hrec hkind hnext,
    fun ch now tk ia ib ssi htk hticks hplan =>
      ⟨fun hsmp hcal hs1 hdue => sampleInstant_first s node ch now tk ia ib ssi htk hticks hplan hsmp hcal hs1 hdue,
        fun hsmp hcal hs2 hgap hdue => sampleInstant_second s node ch now tk ia ib ssi htk hticks hplan hsmp hcal hs2 hgap hdue⟩,
    fun addr now vbus temp n hn hticks haddr hplan => tickUpSend_gon s node addr now vbus temp n hn hticks haddr hplan,
    tickDnDeadline_gon s node, streamSilence_gon s node, tickFrame_gon s node⟩
  obtain ⟨hcrc, hseq, hrest⟩ := tickDnReceive_refused s node addr arr seq fixed recs n hn hticks haddr
  refine ⟨hcrc, hseq, fun h => ⟨(hrest h).1, fun hdl => ⟨(hrest h).2 hdl, fun hrecs => ?_⟩⟩⟩
  exact tickDnReceive_accepted s node addr arr seq fixed recs n hn hticks haddr h hdl hrecs
end

section
/-! SUPPORT. The tether of a ring, the homes of its positions, and the presence of a position that is written. -/
open Sys2Proof Sys2Proof.Machine
namespace Sys2Proof.Machine

/-! ### The key of a tether (R75) -/

/-- The even port of a ring is its own, and has an odd port beside it. -/
theorem State.ringEven_some {s : State} {t e : Nat} (h : s.ringEven t = some e) : e = t - t % 2 ∧ t < 24 ∧ s.ringEven e = some e := by
  unfold State.ringEven at h
  dsimp only at h
  split at h
  · next hc =>
    obtain ⟨ht, hring⟩ := hc
    obtain rfl : t - t % 2 = e := Option.some.inj h
    have he : t - t % 2 - (t - t % 2) % 2 = t - t % 2 := by omega
    refine ⟨rfl, ht, ?_⟩
    unfold State.ringEven
    dsimp only
    rw [he, if_pos ⟨by omega, hring⟩]
  · cases h

theorem State.tetherKey_of_ringEven {s : State} {t e : Nat} (h : s.ringEven t = some e) : s.tetherKey t = e := by rw [State.tetherKey, h]; rfl

@[simp] theorem State.tetherKey_tetherKey (s : State) (t : Nat) : s.tetherKey (s.tetherKey t) = s.tetherKey t := by
  cases h : s.ringEven t with
  | none =>
    have hk : s.tetherKey t = t := by rw [State.tetherKey, h]; rfl
    rw [hk, hk]
  | some e =>
    rw [State.tetherKey_of_ringEven h]
    exact State.tetherKey_of_ringEven (State.ringEven_some h).2.2

theorem State.present_tetherKey (s : State) (t g : Nat) : s.present (s.tetherKey t) g = s.present t g := by
  unfold State.present
  rw [State.tetherKey_tetherKey]

theorem State.tetherKey_setGd (s : State) (k : Nat) (d : GonDev) (t : Nat) : (s.setGd k d).tetherKey t = s.tetherKey t := rfl
theorem State.ringEven_of_wrote {s u : State} {L : List Nat} (h : u.wrote s L) (t : Nat) : u.ringEven t = s.ringEven t := by rw [h.1]; rfl
theorem State.port_of_wrote {s u : State} {L : List Nat} (h : u.wrote s L) (t : Nat) : u.port t = s.port t := by rw [h.1]; rfl
theorem State.port_of_posted {s u : State} {L : List Nat} (h : u.posted s L) (t : Nat) : u.port t = s.port t := by rw [h.1]; rfl
theorem State.fget_of_wrote {s u : State} {L : List Nat} (h : u.wrote s L) {o : Nat} (b : Bits) (ho : o ∉ L) : u.fget o b = s.fget o b := by
  rw [State.fget, State.fget, h.2 o ho]

/-- A fold of steps that write some registers alone writes those alone. -/
theorem foldl_wrote {α : Type} (f : State → α → State) (l : List α) {L : List Nat} (h : ∀ u x, (f u x).wrote u L) (s : State) :
    (l.foldl f s).wrote s L := by
  induction l generalizing s with
  | nil => exact s.wrote_refl L
  | cons x l ih => exact State.wrote_mono (State.wrote_trans (ih (f s x)) (h s x)) (by simp)

/-! ### Masks of positions -/

theorem testBit_setBit (x i j : Nat) (b : Bool) : (setBit x i b).testBit j = if j = i then b else x.testBit j := by
  cases b with
  | false =>
    rw [testBit_setBit_false]
    by_cases hj : j = i <;> simp [hj]
  | true =>
    rw [setBit, if_pos rfl, Nat.testBit_or, Nat.testBit_two_pow]
    by_cases hj : j = i
    · simp [hj]
    · simp [hj, Ne.symm hj]

theorem setBit_lt {x i : Nat} (b : Bool) (hx : x < 2 ^ 64) (hi : i < 64) : setBit x i b < 2 ^ 64 := by
  cases b with
  | false => exact Nat.lt_of_le_of_lt (setBit_false_le x i) hx
  | true => exact Nat.or_lt_two_pow hx (Nat.pow_lt_pow_right (by decide) hi)

/-! ### Homes (R81-R83) -/

/-- The registers that tell the homes of a ring. -/
def homeRegs (e : Nat) : List Nat := [rTTH_HOME0 e, rTTH_HOME1 e, rTTH_HOME0 (e + 1), rTTH_HOME1 (e + 1)]

theorem stat_not_mem_homeRegs (e j : Nat) : rTTH_STAT j ∉ homeRegs e := by
  simp only [homeRegs, rTTH_HOME0, rTTH_HOME1, rTTH_STAT, List.mem_cons, List.not_mem_nil, or_false]
  omega

theorem State.rehome_wrote (s : State) (e g : Nat) (odd : Bool) : (s.rehome e g odd).wrote s (homeRegs e) :=
  State.wrote_mono (State.wrote_trans (State.setHomed_wrote _ (e + 1) g odd) (s.setHomed_wrote e g (!odd))) fun o ho => by
    simpa [homeRegs, or_comm, or_left_comm, or_assoc] using ho

theorem State.presWords_rehome (s : State) (e g : Nat) (odd : Bool) : (s.rehome e g odd).presWords = s.presWords := by
  rw [State.rehome, State.presWords_setHomed, State.presWords_setHomed]

/-- A position is homed where it was written, and every other one as before. -/
theorem State.homed_setHomed (s : State) {t g j : Nat} (b : Bool) (x : Nat) (ht : t < 24) (hg : g < 64) (hj : j < 24) :
    (s.setHomed t g b).homed j x = if j = t ∧ x = g then b else s.homed j x := by
  have hlt := setBit_lt b (s.pairMask_lt (rTTH_HOME0 t) (rTTH_HOME1 t)) hg
  rw [State.setHomed, if_neg (by omega), State.homed, State.homed, if_pos hj, if_pos hj]
  by_cases h : j = t
  · subst h
    rw [State.pairMask_setPairMask _ _ (by simp only [rTTH_HOME0, rTTH_HOME1]; omega) hlt, testBit_setBit]
    simp
  · have hw := s.setPairMask_wrote (rTTH_HOME0 t) (rTTH_HOME1 t) (setBit (s.pairMask (rTTH_HOME0 t) (rTTH_HOME1 t)) g b)
    have h0 : rTTH_HOME0 j ∉ [rTTH_HOME0 t, rTTH_HOME1 t] := by simp only [rTTH_HOME0, rTTH_HOME1, List.mem_cons, List.not_mem_nil, or_false]; omega
    have h1 : rTTH_HOME1 j ∉ [rTTH_HOME0 t, rTTH_HOME1 t] := by simp only [rTTH_HOME0, rTTH_HOME1, List.mem_cons, List.not_mem_nil, or_false]; omega
    rw [State.pairMask, hw.2 _ h0, hw.2 _ h1, ← State.pairMask, if_neg (fun hc => h hc.1)]

/-- A position that is homed anew is so at its ring's ports, and every other one as before. -/
theorem State.homed_rehome (s : State) {e g : Nat} (odd : Bool) (x : Nat) (he : e + 1 < 24) (hg : g < 64) :
    (s.rehome e g odd).homed e x = (if x = g then !odd else s.homed e x)
      ∧ (s.rehome e g odd).homed (e + 1) x = (if x = g then odd else s.homed (e + 1) x) := by
  unfold State.rehome
  constructor
  · rw [State.homed_setHomed _ _ _ he hg (by omega), if_neg (by omega), s.homed_setHomed _ _ (by omega) hg (by omega)]
    simp
  · rw [State.homed_setHomed _ _ _ he hg he, s.homed_setHomed _ _ (by omega) hg he]
    simp

/-- Homes are told by HOME0 and HOME1. -/
theorem State.homed_of_posted {s u : State} {L : List Nat} (h : u.posted s L) {t : Nat} (g : Nat) (ht : t < 24)
    (hL : ∀ o ∈ L, o ≠ rTTH_HOME0 t ∧ o ≠ rTTH_HOME1 t) : u.homed t g = s.homed t g := by
  have hreg : u.rget (rTTH_HOME0 t) = s.rget (rTTH_HOME0 t) ∧ u.rget (rTTH_HOME1 t) = s.rget (rTTH_HOME1 t) :=
    ⟨h.2.1 _ (postReg_tether (by simp only [rTTH_HOME0]; omega)) fun hm => (hL _ hm).1 rfl,
      h.2.1 _ (postReg_tether (by simp only [rTTH_HOME1]; omega)) fun hm => (hL _ hm).2 rfl⟩
  unfold State.homed State.pairMask
  rw [hreg.1, hreg.2]

/-! ### Presence that is written (R91) -/

/-- A position whose presence is written has it; every other one is as before. -/
theorem State.present_setPresent (s : State) {t g : Nat} (b : Bool) (x : Nat) (ht : t < 24) (hg : g < 64) :
    (s.setPresent t g b).present t x = if x = g then b else s.present t x := by
  have hk : s.tetherKey t < 24 := Nat.lt_of_le_of_lt (s.tetherKey_le t) ht
  have hkey : ∀ v, (s.setPairMask (rTTH_PRES0 (s.tetherKey t)) (rTTH_PRES1 (s.tetherKey t)) v).tetherKey t = s.tetherKey t := fun _ => rfl
  have hne : rTTH_PRES0 (s.tetherKey t) ≠ rTTH_PRES1 (s.tetherKey t) := by
    simp only [rTTH_PRES0, rTTH_PRES1]
    omega
  have hlt := setBit_lt b (s.pairMask_lt (rTTH_PRES0 (s.tetherKey t)) (rTTH_PRES1 (s.tetherKey t))) hg
  rw [State.setPresent, if_neg (by omega)]
  dsimp only
  rw [State.present_of_presWords (State.presWords_tthStat _ _ _ _), State.present, hkey, if_pos hk, State.pairMask_setPairMask _ _ hne hlt,
    testBit_setBit, State.present, if_pos hk]

theorem State.setPresent_wrote (s : State) (t g : Nat) (b : Bool) :
    (s.setPresent t g b).wrote s [rTTH_STAT (s.tetherKey t), rTTH_PRES0 (s.tetherKey t), rTTH_PRES1 (s.tetherKey t)] := by
  unfold State.setPresent
  split
  · exact s.wrote_refl _
  · exact State.wrote_trans (State.tthStat_wrote _ _ _ _) (s.setPairMask_wrote _ _ _)

end Sys2Proof.Machine
end

section
/-! SUPPORT. An enumeration from its start to its end, the identity block of a gondola, a break of a ring, and the settling of the
statement. -/
open Sys2Proof Sys2Proof.Machine
namespace Sys2Proof.Machine

/-! ### Writes of TTH_Tn_ENUM (R72, R86, R88) -/

/-- What is forgotten is no part of the plan. -/
theorem State.tetherKey_forget (s : State) (e g j : Nat) : (s.forget e g).tetherKey j = s.tetherKey j := by
  have hhome : ∀ (u : State) k, (u.setHomed k g false).tetherKey j = u.tetherKey j := fun u k => State.tetherKey_of_wrote (u.setHomed_wrote k g false) j
  unfold State.forget
  dsimp only
  rw [State.tetherKey_setGd]
  split
  · rw [hhome, hhome, State.tetherKey_of_wrote (s.setPresent_wrote e g false)]
  · rw [hhome, State.tetherKey_of_wrote (s.setPresent_wrote e g false)]

theorem State.tetherKey_cleared (s : State) (e j : Nat) : (s.cleared e).tetherKey j = s.tetherKey j :=
  foldl_keeps (State.tetherKey · j) _ _ _ fun u g => by
    split
    · exact u.tetherKey_forget e g j
    · rfl

/-- No bit of TTH_Tn_ENUM stores what is written (R91). -/
theorem regRow_tthEnum (t : Fin 25) :
    (regRow (rTTH_ENUM t)).any (fun r => r.rw == 0 && r.sh == 0 && r.wm == 0) = true ∧ absentBits (rTTH_ENUM t) = 0 := by
  revert t
  decide

/-- A register without a bit that a write stores stays as it is (R12). -/
theorem regStore_of_none {r : RegRow} (old v : Word) (hrw : r.rw = 0) (hsh : r.sh = 0) (hwm : r.wm = 0) : regStore r old v = old := by
  have hzero : BitVec.ofNat 32 (0 ||| 0) = 0#32 := rfl
  simp only [regStore, hrw, hsh, hwm, hzero, BitVec.and_zero, BitVec.zero_and, BitVec.or_zero]
  exact BitVec.and_allOnes

/-- A write of TTH_Tn_ENUM stores nothing, and its effect follows. -/
theorem State.portWrite_tthEnum (s : State) (via : RegPath) (t : Fin 25) (v : Word) (hd : s.p8Denied via (rTTH_ENUM t) = false) :
    ∃ u : State, u.wrote s [] ∧ ∀ eff, s.portWrite via (rTTH_ENUM t) v eff = eff (s.rget (rTTH_ENUM t)) u := by
  obtain ⟨hrow, habs⟩ := regRow_tthEnum t
  cases hr : regRow (rTTH_ENUM t) with
  | none => simp [hr] at hrow
  | some r =>
    rw [hr, Option.any_some] at hrow
    obtain ⟨⟨hrw, hsh⟩, hwm⟩ : (r.rw = 0 ∧ r.sh = 0) ∧ r.wm = 0 := by simpa using hrow
    refine ⟨s.storeWord r (rTTH_ENUM t) v, ⟨rfl, fun o _ => ?_⟩, fun eff => s.portWrite_stored via v eff hd hr⟩
    by_cases ho : o = rTTH_ENUM t
    · subst ho
      rw [State.storeWord, State.rget_rset, habs, regStore_of_none _ _ hrw hsh hwm]
      exact BitVec.and_allOnes
    · exact State.rget_rset_ne _ _ ho

section
variable (s : State) (via : RegPath) (t : Fin 25) (v : Word) (hd : s.p8Denied via (rTTH_ENUM t) = false) (ht : t.val < 24)
include hd ht

/-- A START while the plan holds no axis on the tether starts a full enumeration. -/
theorem enumStart_free (hax : s.tetherAxes (s.tetherKey t) = []) (hl : s.link (s.tetherKey t) = lkUP) :
    Completes (.enumStart via t v) s (fun u =>
      u.flag (rTTH_STAT (s.tetherKey t)) fTTH_STAT_ENUM_BUSY = true
      ∧ u.fget (rTTH_ENUM (s.tetherKey t)) fTTH_ENUM_EPOCH = (s.fget (rTTH_ENUM (s.tetherKey t)) fTTH_ENUM_EPOCH + 1) % 256
      ∧ (u.port (s.tetherKey t)).enumKind = .full ∧ ∀ g < 64, u.present t g = false) := by
  obtain ⟨u, hu, hwrite⟩ := s.portWrite_tthEnum via t (bset v fTTH_ENUM_START 1) hd
  have hkey : u.tetherKey t = s.tetherKey t := State.tetherKey_of_wrote hu t
  have hlt : s.tetherKey t < 24 := Nat.lt_of_le_of_lt (s.tetherKey_le t) ht
  have hkey' : u.tetherKey (s.tetherKey t) = s.tetherKey t := by rw [State.tetherKey_of_wrote hu, State.tetherKey_tetherKey]
  have haxes : u.tetherAxes (s.tetherKey t) = [] := (congrArg (State.tetherAxes · (s.tetherKey t)) hu.1).trans hax
  have hlink : u.link (s.tetherKey t) = lkUP := (State.link_of_wrote hu List.not_mem_nil).trans hl
  have heff : tthEnumWritten t (bset v fTTH_ENUM_START 1) u = (u.cleared (s.tetherKey t)).enumSent (s.tetherKey t) false := by
    unfold tthEnumWritten
    rw [hkey, if_neg (by omega), if_pos (by rw [bget_bset _ _ _ (by decide)]; rfl), haxes, if_pos List.isEmpty_nil,
      u.startEnum_up _ _ (by rw [hkey']; exact hlt) (by rw [hkey']; exact hlink), hkey', if_neg (by decide)]
  obtain ⟨hbusy, hepoch, hkind⟩ := (u.cleared (s.tetherKey t)).enumSent_shows (s.tetherKey t) false hlt
  refine ⟨_, congrArg Host.Outcome.next ((hwrite _).trans heff), hbusy, ?_, hkind, fun g hg => ?_⟩
  · have hword : (u.cleared (s.tetherKey t)).rget (rTTH_ENUM (s.tetherKey t)) = s.rget (rTTH_ENUM (s.tetherKey t)) :=
      (State.enum_of_linkView (u.linkView_cleared _) _).trans (hu.2 _ List.not_mem_nil)
    rw [hepoch, State.fget, hword]
    rfl
  · rw [State.present_of_presWords (State.presWords_enumSent _ _ _), ← State.present_tetherKey, State.tetherKey_cleared, hkey]
    exact u.present_cleared hlt hg

/-- A START while the plan holds an axis there is refused. -/
theorem enumStart_refused (hax : s.tetherAxes (s.tetherKey t) ≠ []) : Completes (.enumStart via t v) s (fun u =>
      u.flag (rTTH_ENUM (s.tetherKey t)) fTTH_ENUM_REFUSED = true ∧ u.wrote s [rTTH_ENUM t, rTTH_ENUM (s.tetherKey t)]) := by
  obtain ⟨u, hu, hwrite⟩ := s.portWrite_tthEnum via t (bset v fTTH_ENUM_START 1) hd
  have hkey : u.tetherKey t = s.tetherKey t := State.tetherKey_of_wrote hu t
  have hlt : s.tetherKey t < 24 := Nat.lt_of_le_of_lt (s.tetherKey_le t) ht
  have haxes : u.tetherAxes (s.tetherKey t) = s.tetherAxes (s.tetherKey t) :=
    (congrArg (State.tetherAxes · (s.tetherKey t)) hu.1).trans rfl
  have heff : tthEnumWritten t (bset v fTTH_ENUM_START 1) u = u.raise (rTTH_ENUM (s.tetherKey t)) fTTH_ENUM_REFUSED := by
    unfold tthEnumWritten
    rw [hkey, if_neg (by omega), if_pos (by rw [bget_bset _ _ _ (by decide)]; rfl), haxes, if_neg (by simpa using hax)]
  refine ⟨_, congrArg Host.Outcome.next ((hwrite _).trans heff), u.flag_raise _ _ (by decide) (by decide), ?_⟩
  exact State.wrote_mono (State.wrote_trans (u.fset_wrote _ _ _) hu) (by simp)

/-- ATTACH starts an enumeration that keeps the positions. -/
theorem enumAttach_up (hl : s.link (s.tetherKey t) = lkUP) : Completes (.enumAttach via t v) s (fun u =>
      u.flag (rTTH_STAT (s.tetherKey t)) fTTH_STAT_ENUM_BUSY = true ∧ (u.port (s.tetherKey t)).enumKind = .attach
      ∧ ∀ g < 64, u.present t g = s.present t g) := by
  obtain ⟨u, hu, hwrite⟩ := s.portWrite_tthEnum via t (bset (bset v fTTH_ENUM_START 0) fTTH_ENUM_ATTACH 1) hd
  have hkey : u.tetherKey t = s.tetherKey t := State.tetherKey_of_wrote hu t
  have hlt : s.tetherKey t < 24 := Nat.lt_of_le_of_lt (s.tetherKey_le t) ht
  have hkey' : u.tetherKey (s.tetherKey t) = s.tetherKey t := by rw [State.tetherKey_of_wrote hu, State.tetherKey_tetherKey]
  have hlink : u.link (s.tetherKey t) = lkUP := (State.link_of_wrote hu List.not_mem_nil).trans hl
  have hstart : bget (bset (bset v fTTH_ENUM_START 0) fTTH_ENUM_ATTACH 1) fTTH_ENUM_START = 0 := by
    rw [bget_bset_ne _ _ _ _ (by decide), bget_bset _ _ _ (by decide)]
    rfl
  have heff : tthEnumWritten t (bset (bset v fTTH_ENUM_START 0) fTTH_ENUM_ATTACH 1) u = u.enumSent (s.tetherKey t) true := by
    unfold tthEnumWritten
    rw [hkey, if_neg (by omega), if_neg (by rw [hstart]; decide), if_pos (by rw [bget_bset _ _ _ (by decide)]; rfl),
      u.startEnum_up _ _ (by rw [hkey']; exact hlt) (by rw [hkey']; exact hlink), hkey', if_pos rfl]
  obtain ⟨hbusy, -, hkind⟩ := u.enumSent_shows (s.tetherKey t) true hlt
  refine ⟨_, congrArg Host.Outcome.next ((hwrite _).trans heff), hbusy, hkind, fun g _ => ?_⟩
  rw [State.present_of_presWords (State.presWords_enumSent _ _ _)]
  exact State.present_of_presWords (State.presWords_of_wrote hu (by simp)) t g
end

/-! ### An enumeration that ends (R72) -/

/-- What an enumeration that ends finds out is noted in STAT. -/
def State.enumNoted (s : State) (e : Nat) (ovr : Bool) : State :=
  let s := (s.tthStat e fTTH_STAT_ENUM_BUSY 0).updPort e (fun p => { p with enumKind := .idle, enumOdd := false })
  (if ovr then s.tthStat e fTTH_STAT_ENUM_OVER 1 else s).checkAxes e

theorem State.enumEnd_eq (s : State) (e : Nat) (ovr : Bool) : s.enumEnd e ovr = (s.enumNoted e ovr).tthRaise e evENUM_DONE := rfl

/-- The check of the axes writes AXIS_OVER at most. -/
theorem State.fget_checkAxes (s : State) (e o : Nat) {b : Bits} (h : b.lo + b.w ≤ 15) : (s.checkAxes e).fget o b = s.fget o b := by
  unfold State.checkAxes
  split
  · exact s.fget_tthStat_field _ _ _ (.inl h)
  · rfl

theorem State.port_checkAxes (s : State) (e j : Nat) : (s.checkAxes e).port j = s.port j := by
  unfold State.checkAxes
  split
  · exact State.port_of_wrote (s.tthStat_wrote _ _ _) j
  · rfl

theorem State.fget_tthStat_same (s : State) {e : Nat} (b : Bits) (v : Nat) (he : e < 24) (hb : b.lo + b.w ≤ 32) :
    (s.tthStat e b v).fget (rTTH_STAT e) b = v % 2 ^ b.w := by
  rw [State.tthStat, if_pos he, State.fget_fset _ _ _ _ hb]

theorem State.enumNoted_shows (s : State) {e : Nat} (ovr : Bool) (he : e < 24) :
    (s.enumNoted e ovr).fget (rTTH_STAT e) fTTH_STAT_ENUM_BUSY = 0
      ∧ (ovr = true → (s.enumNoted e ovr).fget (rTTH_STAT e) fTTH_STAT_ENUM_OVER = 1)
      ∧ (s.enumNoted e ovr).fget (rTTH_STAT e) fTTH_STAT_RING_WHOLE = s.fget (rTTH_STAT e) fTTH_STAT_RING_WHOLE
      ∧ ∀ j ≠ e, (s.enumNoted e ovr).port j = s.port j := by
  unfold State.enumNoted
  dsimp only
  generalize hu : (s.tthStat e fTTH_STAT_ENUM_BUSY 0).updPort e (fun p => { p with enumKind := .idle, enumOdd := false }) = u
  have hreg : ∀ b, u.fget (rTTH_STAT e) b = (s.tthStat e fTTH_STAT_ENUM_BUSY 0).fget (rTTH_STAT e) b := fun b => by rw [← hu]; rfl
  have hbusy : u.fget (rTTH_STAT e) fTTH_STAT_ENUM_BUSY = 0 := by rw [hreg, s.fget_tthStat_same _ _ he (by decide)]; rfl
  have hwhole : u.fget (rTTH_STAT e) fTTH_STAT_RING_WHOLE = s.fget (rTTH_STAT e) fTTH_STAT_RING_WHOLE := by
    rw [hreg, s.fget_tthStat_field _ _ _ (by decide)]
  have hport : ∀ j ≠ e, u.port j = s.port j := fun j hj => by
    rw [← hu, State.updPort, State.port_setPort_ne _ _ hj]
    exact State.port_of_wrote (s.tthStat_wrote _ _ _) j
  refine ⟨?_, fun ho => ?_, ?_, fun j hj => ?_⟩
  · rw [State.fget_checkAxes _ _ _ (by decide)]
    split
    · rw [u.fget_tthStat_field _ _ _ (by decide), hbusy]
    · exact hbusy
  · rw [State.fget_checkAxes _ _ _ (by decide), if_pos ho, u.fget_tthStat_same _ _ he (by decide)]
    rfl
  · rw [State.fget_checkAxes _ _ _ (by decide)]
    split
    · rw [u.fget_tthStat_field _ _ _ (by decide), hwhole]
    · exact hwhole
  · rw [State.port_checkAxes]
    split
    · rw [State.port_of_wrote (u.tthStat_wrote _ _ _), hport j hj]
    · exact hport j hj

/-- STAT is no event: what it shows stays while an event is raised. -/
theorem State.fget_stat_tthRaise (s : State) (e bit : Nat) {j : Nat} (b : Bits) (hj : j < 24) :
    (s.tthRaise e bit).fget (rTTH_STAT j) b = s.fget (rTTH_STAT j) b := by
  have hreg := (s.tthRaise_posted e bit).2.1 (rTTH_STAT j) (postReg_tether (by simp only [rTTH_STAT]; omega))
    (by simp only [rTTH_STAT, rTTH_EVT, List.mem_singleton]; omega)
  rw [State.fget, State.fget, hreg]

/-- An enumeration that has ended: not busy, its event, OVER as it came; the ring is as it was, and so is every other port. -/
theorem State.enumEnd_shows (s : State) {e : Nat} (ovr : Bool) (he : e < 24) :
    (s.enumEnd e ovr).flag (rTTH_STAT e) fTTH_STAT_ENUM_BUSY = false ∧ (s.enumEnd e ovr).flag (rTTH_EVT e) fTTH_EVT_ENUM_DONE = true
      ∧ (ovr = true → (s.enumEnd e ovr).flag (rTTH_STAT e) fTTH_STAT_ENUM_OVER = true)
      ∧ (s.enumEnd e ovr).fget (rTTH_STAT e) fTTH_STAT_RING_WHOLE = s.fget (rTTH_STAT e) fTTH_STAT_RING_WHOLE
      ∧ ∀ j ≠ e, (s.enumEnd e ovr).port j = s.port j := by
  obtain ⟨hbusy, hover, hwhole, hport⟩ := s.enumNoted_shows ovr he
  rw [State.enumEnd_eq]
  refine ⟨?_, State.flag_tthRaise _ he (by decide), fun ho => ?_, ?_, fun j hj => ?_⟩
  · rw [State.flag, State.fget_stat_tthRaise _ _ _ _ he, hbusy]
    rfl
  · rw [State.flag, State.fget_stat_tthRaise _ _ _ _ he, hover ho]
    rfl
  · rw [State.fget_stat_tthRaise _ _ _ _ he, hwhole]
  · rw [State.port_of_posted (State.tthRaise_posted _ _ _), hport j hj]

/-- A ring that an enumeration has run round from its odd port: whole, the way back measured, and after a full enumeration homed anew. -/
def State.ringRound (s : State) (e mm : Nat) : State :=
  let p := s.port e
  let s := (s.tthStat e fTTH_STAT_RING_WHOLE 1).updPort (e + 1) (fun p => { p with endMm := mm })
  if p.enumKind = .full then (s.homeRing e).tthStat e fTTH_STAT_RING_BROKEN 0 else s

theorem State.homeRing_wrote (s : State) (e : Nat) : (s.homeRing e).wrote s (homeRegs e) :=
  foldl_wrote _ _ (fun u g => by
    split
    · exact u.rehome_wrote e g _
    · exact u.wrote_refl _) s

theorem State.ringRound_shows (s : State) {e : Nat} (mm : Nat) (he : e < 24) :
    (s.ringRound e mm).fget (rTTH_STAT e) fTTH_STAT_RING_WHOLE = 1 ∧ ((s.ringRound e mm).port (e + 1)).endMm = mm := by
  unfold State.ringRound
  dsimp only
  generalize hu : (s.tthStat e fTTH_STAT_RING_WHOLE 1).updPort (e + 1) (fun p => { p with endMm := mm }) = u
  have hwhole : u.fget (rTTH_STAT e) fTTH_STAT_RING_WHOLE = 1 := by
    rw [← hu]
    exact s.fget_tthStat_same _ _ he (by decide)
  have hmm : (u.port (e + 1)).endMm = mm := by rw [← hu, State.port_updPort]
  split
  · rw [State.fget_tthStat_field _ _ _ _ (by decide), State.fget_of_wrote (u.homeRing_wrote e) _ (stat_not_mem_homeRegs e e),
      State.port_of_wrote (State.tthStat_wrote _ _ _ _), State.port_of_wrote (u.homeRing_wrote e)]
    exact ⟨hwhole, hmm⟩
  · exact ⟨hwhole, hmm⟩

/-- The ENUM that comes back with the epoch in force ends the enumeration, on a ring when it has run round it. -/
theorem enumDone_ends (s : State) (t : Fin 25) (next epoch : BitVec 8) (ovr : Bool) (mm : Nat) (q : RxQual) (hl : s.link t = lkUP)
    (ht : t.val < 24) (hq : goodRx q ({ s.enumBackFrame t next epoch ovr with seq := q.seq }))
    (hbusy : s.fget (rTTH_STAT (s.tetherKey t)) fTTH_STAT_ENUM_BUSY = 1)
    (hepoch : s.fget (rTTH_ENUM (s.tetherKey t)) fTTH_ENUM_EPOCH = epoch.toNat)
    (hring : s.ringEven t = none ∨ (s.ringEven t ≠ some t.val ∧ (s.port (s.tetherKey t)).enumOdd = false)) :
    Completes (.enumDone t next ovr epoch mm q) s (fun u =>
      u.flag (rTTH_STAT (s.tetherKey t)) fTTH_STAT_ENUM_BUSY = false ∧ u.flag (rTTH_EVT (s.tetherKey t)) fTTH_EVT_ENUM_DONE = true
      ∧ (ovr = true → u.flag (rTTH_STAT (s.tetherKey t)) fTTH_STAT_ENUM_OVER = true)
      ∧ (s.ringEven t ≠ none → u.flag (rTTH_STAT (s.tetherKey t)) fTTH_STAT_RING_WHOLE = true ∧ (u.port t).endMm = mm)) := by
  have hlt : s.tetherKey t < 24 := Nat.lt_of_le_of_lt (s.tetherKey_le t) ht
  have hw := s.rxSeen_wrote t
  have hkey : (s.rxSeen t).tetherKey t = s.tetherKey t := State.tetherKey_of_wrote hw t
  have heven : (s.rxSeen t).ringEven t = s.ringEven t := State.ringEven_of_wrote hw t
  have hgo : (s.rxSeen t).fget (rTTH_STAT (s.tetherKey t)) fTTH_STAT_ENUM_BUSY = 1
      ∧ (s.rxSeen t).fget (rTTH_ENUM (s.tetherKey t)) fTTH_ENUM_EPOCH = epoch.toNat := by
    rw [State.fget_of_wrote hw _ (by simp only [rTTH_STAT, rTTH_ERR, cCVERR, List.mem_singleton]; omega),
      State.fget_of_wrote hw _ (by simp only [rTTH_ENUM, rTTH_ERR, cCVERR, List.mem_singleton]; omega)]
    exact ⟨hbusy, hepoch⟩
  cases hr : s.ringEven t with
  | none =>
    have hexec : execEnumDone t next ovr epoch mm q s = .next ((s.rxSeen t).enumEnd (s.tetherKey t) ovr) := by
      rw [execEnumDone, State.rx_good _ _ _ _ _ hl hq]
      dsimp only
      rw [hkey, if_pos hgo, heven, hr]
    obtain ⟨hend, hev, hover, -, -⟩ := (s.rxSeen t).enumEnd_shows ovr hlt
    exact ⟨_, hexec, hend, hev, hover, fun h => absurd rfl h⟩
  | some e =>
    obtain ⟨hodd, hopen⟩ : s.ringEven t ≠ some t.val ∧ (s.port (s.tetherKey t)).enumOdd = false := hring.resolve_left (by simp [hr])
    have hke : s.tetherKey t = e := State.tetherKey_of_ringEven hr
    have hte : t.val ≠ e := fun h => hodd (by rw [hr, h])
    obtain ⟨he, -, -⟩ := State.ringEven_some hr
    have hpos : t.val = e + 1 := by omega
    have hexec : execEnumDone t next ovr epoch mm q s = .next (((s.rxSeen t).ringRound e mm).enumEnd e ovr) := by
      rw [execEnumDone, State.rx_good _ _ _ _ _ hl hq]
      dsimp only
      rw [hkey, if_pos hgo, heven, hr]
      dsimp only
      have hno : ((s.rxSeen t).port e).enumOdd = false := by rw [State.port_of_wrote hw, ← hke, hopen]
      rw [if_pos ⟨hte, by rw [hno]; rfl⟩]
      rfl
    rw [hke] at hlt ⊢
    obtain ⟨hend, hev, hover, hwhole, hport⟩ := ((s.rxSeen t).ringRound e mm).enumEnd_shows ovr hlt
    obtain ⟨hround, hmm⟩ := (s.rxSeen t).ringRound_shows mm hlt
    refine ⟨_, hexec, hend, hev, hover, fun _ => ⟨?_, ?_⟩⟩
    · rw [State.flag, hwhole, hround]
      rfl
    · rw [hport _ hte]
      exact (congrArg (fun j => (((s.rxSeen t).ringRound e mm).port j).endMm) hpos).trans hmm

/-! ### A break of a ring (R83) -/

/-- The position i of a broken ring moves to the other port, if it is between the break and the split. -/
def State.turnHome (s : State) (e m g i : Nat) : State :=
  if s.present e i then (if g ≤ i ∧ i < m then s.rehome e i true else if m ≤ i ∧ i < g then s.rehome e i false else s) else s

theorem State.turnHome_wrote (s : State) (e m g i : Nat) : (s.turnHome e m g i).wrote s (homeRegs e) := by
  unfold State.turnHome
  split
  · split
    · exact s.rehome_wrote e i true
    · split
      · exact s.rehome_wrote e i false
      · exact s.wrote_refl _
  · exact s.wrote_refl _

theorem State.presWords_turnHome (s : State) (e m g i : Nat) : (s.turnHome e m g i).presWords = s.presWords := by
  simp [State.turnHome, State.presWords_rehome]

/-- A position that is turned home keeps every other one's. -/
theorem State.homed_turnHome_ne (s : State) {e i x : Nat} (m g : Nat) (he : e + 1 < 24) (hi : i < 64) (hx : x ≠ i) :
    (s.turnHome e m g i).homed e x = s.homed e x ∧ (s.turnHome e m g i).homed (e + 1) x = s.homed (e + 1) x := by
  have hre : ∀ odd, (s.rehome e i odd).homed e x = s.homed e x ∧ (s.rehome e i odd).homed (e + 1) x = s.homed (e + 1) x := fun odd => by
    obtain ⟨h0, h1⟩ := s.homed_rehome odd x he hi
    rw [h0, h1, if_neg hx, if_neg hx]
    exact ⟨rfl, rfl⟩
  unfold State.turnHome
  split
  · split
    · exact hre true
    · split
      · exact hre false
      · exact ⟨rfl, rfl⟩
  · exact ⟨rfl, rfl⟩

section
variable {e m g x : Nat} (he : e + 1 < 24) (hx : x < 64) (hg : g ≤ x) (hm : x < m)
include he hx hg hm

/-- A gondola between the break and the split that is turned home is served by the odd port. -/
theorem State.homed_turnHome_same (s : State) (hp : s.present e x = true) :
    (s.turnHome e m g x).homed (e + 1) x = true ∧ (s.turnHome e m g x).homed e x = false := by
  obtain ⟨h0, h1⟩ := s.homed_rehome true x he hx
  rw [State.turnHome, if_pos hp, if_pos ⟨hg, hm⟩, h0, h1, if_pos rfl, if_pos rfl]
  exact ⟨rfl, rfl⟩

/-- A gondola between the break and the split is served by the odd port once its position is turned home. -/
theorem State.homed_foldl_turnHome (gs : List Nat) (hgs : ∀ i ∈ gs, i < 64) (s : State)
    (h : s.homed (e + 1) x = true ∧ s.homed e x = false ∨ x ∈ gs) (hp : s.present e x = true) :
    let u := gs.foldl (fun s i => s.turnHome e m g i) s
    u.homed (e + 1) x = true ∧ u.homed e x = false := by
  induction gs generalizing s with
  | nil => exact h.resolve_right List.not_mem_nil
  | cons i gs ih =>
    refine ih (fun j hj => hgs j (List.mem_cons_of_mem _ hj)) (s.turnHome e m g i) ?_
      ((State.present_of_presWords (s.presWords_turnHome e m g i) e x).trans hp)
    by_cases hi : x = i
    · exact .inl (hi ▸ s.homed_turnHome_same he hx hg hm hp)
    · obtain ⟨h0, h1⟩ := s.homed_turnHome_ne m g he (hgs i List.mem_cons_self) hi
      rw [h0, h1]
      exact h.imp_right fun h => (List.mem_cons.mp h).resolve_left hi
end

/-- A break is recorded, the ring is whole no more, and the gondolas between it and the split move to the odd port. -/
theorem ringBreak_ring (s : State) (t : Fin 25) (seg : BitVec 8) (e : Nat) (hr : s.ringEven t = some e) :
    Completes (.ringBreak t seg) s (fun u =>
      u.fget (rTTH_STAT e) fTTH_STAT_BRKSEG = seg.toNat % 128 ∧ u.flag (rTTH_STAT e) fTTH_STAT_RING_BROKEN = true
      ∧ u.flag (rTTH_STAT e) fTTH_STAT_RING_WHOLE = false ∧ u.flag (rTTH_EVT e) fTTH_EVT_RING_BREAK = true
      ∧ ∀ g < 64, s.present e g = true → seg.toNat ≤ g → g < s.split e → u.homed (e + 1) g = true ∧ u.homed e g = false) := by
  obtain ⟨he, ht, -⟩ := State.ringEven_some hr
  have hlt : e + 1 < 24 := by omega
  generalize hv : ((s.tthStat e fTTH_STAT_BRKSEG seg.toNat).tthStat e fTTH_STAT_RING_BROKEN 1).tthStat e fTTH_STAT_RING_WHOLE 0 = v
  generalize hw : (List.range 64).foldl (fun s' i => s'.turnHome e (s.split e) seg.toNat i) v = w
  have hexec : execRingBreak t seg s = .next (w.tthRaise e evRING_BREAK) := by
    unfold execRingBreak
    rw [hr, ← hw, ← hv]
    rfl
  have hstat : ∀ b, (w.tthRaise e evRING_BREAK).fget (rTTH_STAT e) b = v.fget (rTTH_STAT e) b := fun b => by
    rw [State.fget_stat_tthRaise _ _ _ _ (by omega), ← hw]
    exact State.fget_of_wrote (foldl_wrote _ _ (fun u i => u.turnHome_wrote e (s.split e) seg.toNat i) v) b (stat_not_mem_homeRegs e e)
  have hpres : ∀ g, v.present e g = s.present e g := fun g => by
    rw [← hv, State.present_of_presWords (State.presWords_tthStat _ _ _ _), State.present_of_presWords (State.presWords_tthStat _ _ _ _),
      State.present_of_presWords (State.presWords_tthStat _ _ _ _)]
  refine ⟨_, hexec, ?_, ?_, ?_, State.flag_tthRaise _ (by omega) (by decide), fun g hg hp hlo hhi => ?_⟩
  · rw [hstat, ← hv, State.fget_tthStat_field _ _ _ _ (by decide), State.fget_tthStat_field _ _ _ _ (by decide),
      State.fget_tthStat_same _ _ _ (by omega) (by decide)]
    rfl
  · rw [State.flag, hstat, ← hv, State.fget_tthStat_field _ _ _ _ (by decide), State.fget_tthStat_same _ _ _ (by omega) (by decide)]
    rfl
  · rw [State.flag, hstat, ← hv, State.fget_tthStat_same _ _ _ (by omega) (by decide)]
    rfl
  · have hev : ∀ j, ∀ o ∈ [rTTH_EVT e], o ≠ rTTH_HOME0 j ∧ o ≠ rTTH_HOME1 j := fun j o ho => by
      simp only [rTTH_EVT, rTTH_HOME0, rTTH_HOME1, List.mem_singleton] at ho ⊢
      omega
    rw [State.homed_of_posted (w.tthRaise_posted e _) g hlt (hev _), State.homed_of_posted (w.tthRaise_posted e _) g (by omega) (hev _), ← hw]
    exact State.homed_foldl_turnHome hlt hg hlo hhi (List.range 64) (fun i hi => List.mem_range.mp hi) v (.inr (List.mem_range.mpr hg))
      ((hpres g).trans hp)

/-! ### The identity block of a gondola (R72, R93, R132) -/

/-- What the identity block of a gondola told the device of it. -/
def State.identView (s : State) : Nat → List Byte × Nat × Nat := fun k => ((s.gd k).ident, (s.gd k).hops, (s.gd k).cableMm)

theorem State.identView_setGd (s : State) (k : Nat) (d : GonDev)
    (h : (d.ident, d.hops, d.cableMm) = ((s.gd k).ident, (s.gd k).hops, (s.gd k).cableMm)) : (s.setGd k d).identView = s.identView := by
  funext j
  by_cases hj : j = k
  · rw [State.identView, hj, State.gd_setGd, h]
    rfl
  · rw [State.identView, State.gd_setGd_ne _ _ hj]
    rfl

/-- The requests for the channel descriptors leave registers, plan and identity. -/
theorem State.readDescs_keeps (s : State) (t g : Nat) :
    (s.readDescs t g).regs = s.regs ∧ (s.readDescs t g).presWords = s.presWords ∧ (s.readDescs t g).identView = s.identView :=
  ⟨foldl_keeps State.regs _ _ _ (fun _ _ => rfl), foldl_keeps State.presWords _ _ _ (fun _ _ => rfl),
    foldl_keeps State.identView _ _ _ (fun u _ => u.identView_setGd _ _ rfl)⟩

/-- An axis that loses its reference shows so, and no other one gains it. -/
theorem State.fget_refd_unref (s : State) (y n : Nat) :
    (s.unref y).fget (rFBK_STAT n) fFBK_STAT_REFD = if n = y then 0 else s.fget (rFBK_STAT n) fFBK_STAT_REFD := by
  have hfirst : ((s.updAx y (fun a => { a with resync := true })).fset (rFBK_STAT y) fFBK_STAT_REFD 0).fget (rFBK_STAT n) fFBK_STAT_REFD
      = if n = y then 0 else s.fget (rFBK_STAT n) fFBK_STAT_REFD := by
    by_cases h : n = y
    · rw [h, State.fget_fset _ _ _ _ (by decide), if_pos rfl]
      rfl
    · rw [State.fget_fset_reg _ _ _ _ (by simp only [rFBK_STAT]; omega), if_neg h]
      rfl
  unfold State.unref
  dsimp only
  split
  · rw [State.fget_fset_reg _ _ _ _ (by simp only [rFBK_STAT, rAXC_STATE]; omega), hfirst]
  · exact hfirst

/-- The axes of a list all lose their reference. -/
theorem State.refd_unrefs (s : State) {ns : List Nat} {n : Nat} (hn : n ∈ ns) :
    (ns.foldl (fun s n => s.unref n) s).fget (rFBK_STAT n) fFBK_STAT_REFD = 0 := by
  refine foldl_reaches (fun u : State => u.fget (rFBK_STAT n) fFBK_STAT_REFD = 0) _ hn (fun u => ?_) (fun u y hu => ?_) s
  · rw [State.fget_refd_unref, if_pos rfl]
  · rw [State.fget_refd_unref, hu, ite_self]

theorem State.gdev_unref (s : State) (n : Nat) : (s.unref n).gdev = s.gdev := by
  unfold State.unref
  dsimp only
  split <;> rfl

theorem State.gdev_of_posted {s u : State} {L : List Nat} (h : u.posted s L) : u.gdev = s.gdev := by rw [h.1]

theorem State.identView_of_gdev {s u : State} (h : u.gdev = s.gdev) : u.identView = s.identView := by
  funext k
  simp only [State.identView, State.gd, h]

/-- The position is served by the port that its identity block came to (R81). -/
def State.identHomed (s : State) (t e g : Nat) : State :=
  match s.ringEven t with
  | some e => s.rehome e g (t ≠ e)
  | none => s.setHomed e g true

theorem State.identHomed_wrote (s : State) (t e g : Nat) : ∃ L, (s.identHomed t e g).wrote s L := by
  unfold State.identHomed
  split
  · exact ⟨_, s.rehome_wrote _ _ _⟩
  · exact ⟨_, s.setHomed_wrote _ _ _⟩

theorem State.presWords_identHomed (s : State) (t e g : Nat) : (s.identHomed t e g).presWords = s.presWords := by
  unfold State.identHomed
  split
  · exact s.presWords_rehome _ _ _
  · exact s.presWords_setHomed _ _ _

theorem State.gonAxes_of_wrote {s u : State} {L : List Nat} (h : u.wrote s L) (k : Nat) : u.gonAxes k = s.gonAxes k := by rw [h.1]; rfl

/-- The gondola at a position as its identity block tells it, behind the port of the tether or the odd one. -/
def GonDev.identified (d : GonDev) (block : List Byte) (hops mm : Nat) (odd : Bool) : GonDev :=
  { d with ident := block, descs := [], odd := odd, hops := hops, cableMm := mm, credDn := idCRED block, missRun := 0, grantUp := 0,
           ready := false }

/-- The gondola at position g is known by its identity block, present and served, and its axes have lost their reference. -/
def State.identTaken (s : State) (t g : Nat) (block : List Byte) (hops mm : Nat) : State :=
  let e := s.tetherKey t
  let s := s.updGd (gkey e g) (fun d => d.identified block hops mm (decide (t ≠ e)))
  let s := (s.setPresent e g true).identHomed t e g
  (s.gonAxes (gkey e g)).foldl (fun s n => s.unref n) s

theorem State.identTaken_shows (s : State) {t g : Nat} (block : List Byte) (hops mm : Nat) (ht : t < 24) (hg : g < 64) :
    let w := s.identTaken t g block hops mm
    w.identView (s.gk t g) = (block, hops, mm) ∧ w.present t g = true
      ∧ ∀ n ∈ s.gonAxes (s.gk t g), w.fget (rFBK_STAT n) fFBK_STAT_REFD = 0 := by
  have hlt : s.tetherKey t < 24 := Nat.lt_of_le_of_lt (s.tetherKey_le t) ht
  generalize hu : s.updGd (s.gk t g) (fun d => d.identified block hops mm (decide (t ≠ s.tetherKey t))) = u
  generalize hv : (u.setPresent (s.tetherKey t) g true).identHomed t (s.tetherKey t) g = v
  generalize hw : (v.gonAxes (s.gk t g)).foldl (fun s n => s.unref n) v = w
  have htaken : s.identTaken t g block hops mm = w := by
    rw [← hw, ← hv, ← hu]
    rfl
  obtain ⟨L, hhomed⟩ := (u.setPresent (s.tetherKey t) g true).identHomed_wrote t (s.tetherKey t) g
  rw [hv] at hhomed
  have hvu : v.wrote u _ := State.wrote_trans hhomed (u.setPresent_wrote _ _ _)
  rw [htaken]
  refine ⟨?_, ?_, fun n hn => ?_⟩
  · have hwv : w.identView = v.identView := by
      rw [← hw]
      exact foldl_keeps State.identView _ _ _ (fun x n => State.identView_of_gdev (x.gdev_unref n))
    have hvd : v.gd (s.gk t g) = u.gd (s.gk t g) := State.gd_of_wrote hvu _
    rw [hwv, State.identView, hvd, ← hu, State.gd_updGd]
    rfl
  · have hwp : w.presWords = (u.setPresent (s.tetherKey t) g true).presWords := by
      rw [← State.presWords_identHomed (u.setPresent (s.tetherKey t) g true) t (s.tetherKey t) g, hv, ← hw]
      exact foldl_keeps State.presWords _ _ _ (fun x n => x.presWords_unref n)
    have hkey : (u.setPresent (s.tetherKey t) g true).tetherKey t = s.tetherKey t := by
      rw [State.tetherKey_of_wrote (u.setPresent_wrote _ _ _), ← hu]
      rfl
    rw [State.present_of_presWords hwp, ← State.present_tetherKey, hkey, u.present_setPresent _ _ hlt hg, if_pos rfl]
  · have hax : v.gonAxes (s.gk t g) = s.gonAxes (s.gk t g) := by
      rw [State.gonAxes_of_wrote hvu, ← hu]
      rfl
    rw [← hw]
    exact State.refd_unrefs v (hax ▸ hn)

/-- The identity block of a position makes its gondola known and present, and its axes lose their reference. -/
theorem identReceive_good (s : State) (t : Fin 25) (pos hops : Fin 64) (block : List Byte) (mm : Nat) (q : RxQual) (hl : s.link t = lkUP)
    (ht : t.val < 24) (hq : goodRx q (mkFrame 7 0 pos q.seq 0 block)) :
    Completes (.identReceive t pos block hops mm q) s (fun u => (u.gd (s.gk t pos)).ident = block
      ∧ (u.gd (s.gk t pos)).hops = hops.val ∧ (u.gd (s.gk t pos)).cableMm = mm ∧ u.present t pos = true
      ∧ (∀ n ∈ s.gonAxes (s.gk t pos), u.flag (rFBK_STAT n) fFBK_STAT_REFD = false)
      ∧ u.flag (rTTH_EVT (s.tetherKey t)) fTTH_EVT_IDENT_NEW = true) := by
  have hseen := s.rxSeen_wrote t
  have hkey : (s.rxSeen t).tetherKey t = s.tetherKey t := State.tetherKey_of_wrote hseen t
  have hlt : s.tetherKey t < 24 := Nat.lt_of_le_of_lt (s.tetherKey_le t) ht
  obtain ⟨hview, hpres, hrefd⟩ := (s.rxSeen t).identTaken_shows block hops.val mm ht pos.isLt
  rw [State.rxSeen_gk] at hview hrefd
  generalize hw : (s.rxSeen t).identTaken t pos block hops.val mm = w at hview hpres hrefd
  have hexec : execIdentReceive t pos block hops mm q s = .next ((w.readDescs t pos).tthRaise (s.tetherKey t) evIDENT_NEW) := by
    rw [execIdentReceive, State.rx_good _ _ _ _ _ hl hq, ← hw, ← hkey]
    rfl
  obtain ⟨hregs, hpw, hid⟩ := w.readDescs_keeps t pos
  have hraise := (w.readDescs t pos).tthRaise_posted (s.tetherKey t) evIDENT_NEW
  have hfinal : ((w.readDescs t pos).tthRaise (s.tetherKey t) evIDENT_NEW).identView (s.gk t pos) = (block, hops.val, mm) := by
    rw [State.identView_of_gdev (State.gdev_of_posted hraise), hid, hview]
  obtain ⟨hident, hhops, hmm⟩ : _ ∧ _ ∧ _ := by simpa only [State.identView, Prod.mk.injEq] using hfinal
  refine ⟨_, hexec, hident, hhops, hmm, ?_, fun n hn => ?_, State.flag_tthRaise _ hlt (by decide)⟩
  · rw [State.present_of_presWords (State.presWords_tthRaise _ _ _), State.present_of_presWords hpw, hpres]
  · have hn256 : n < 256 := List.mem_range.mp (List.mem_of_mem_filter hn)
    have hreg := hraise.2.1 (rFBK_STAT n) (postReg_of_block (by simp only [rFBK_STAT]; omega))
      (by simp only [rFBK_STAT, rTTH_EVT, List.mem_singleton]; omega)
    have hsame : (w.readDescs t pos).rget (rFBK_STAT n) = w.rget (rFBK_STAT n) := by rw [State.rget, State.rget, hregs]
    rw [State.flag, State.fget, hreg, hsame, ← State.fget, hrefd n ((State.gonAxes_of_wrote hseen _).symm ▸ hn)]
    rfl

end Sys2Proof.Machine

/-- Settles O15: an enumeration started, refused and ended, an identity block received, and a ring broken. -/
theorem enumerationRows : Obligations.EnumerationRows := by
  unfold Obligations.EnumerationRows
  intro s
  refine ⟨fun via t v hd ht => ⟨?_, ?_, ?_⟩, ?_, ?_, ringBreak_ring s⟩
  · exact enumStart_free s via t v hd ht
  · exact enumStart_refused s via t v hd ht
  · exact enumAttach_up s via t v hd ht
  · exact fun t next epoch ovr mm q hl ht hq hbusy hepoch hring => enumDone_ends s t next epoch ovr mm q hl ht hq hbusy hepoch hring
  · exact fun t pos hops block mm q hl ht hq => identReceive_good s t pos hops block mm q hl ht hq
end

section
/-! SUPPORT. The EVENTs of a gondola: their queue, their outputs, and the settling of the statement on them. -/
open Sys2Proof Sys2Proof.Machine
namespace Sys2Proof.Machine

/-! ### The queue of EVENTs (R115) -/

theorem mem_insEvent (e x : GEvent) (l : List GEvent) : x ∈ insEvent e l ↔ x ∈ l ∨ x = e := by
  induction l with
  | nil => simp [insEvent]
  | cons y l ih =>
    unfold insEvent
    split
    · rw [List.mem_cons, or_comm]
    · rw [List.mem_cons, ih, List.mem_cons, or_assoc]

theorem length_insEvent (e : GEvent) (l : List GEvent) : (insEvent e l).length = l.length + 1 := by
  induction l with
  | nil => rfl
  | cons y l ih =>
    unfold insEvent
    split
    · rfl
    · rw [List.length_cons, ih, List.length_cons]

/-! ### The event outputs (R115) -/

/-- One of the outputs written. -/
theorem getLsbD_ofNat_setBit (x : BitVec 16) (i : Nat) (b : Bool) {k : Nat} (hk : k < 16) :
    (BitVec.ofNat 16 (setBit x.toNat i b)).getLsbD k = if k = i then b else x.getLsbD k := by
  rw [BitVec.getLsbD_ofNat, testBit_setBit, BitVec.testBit_toNat, decide_eq_true hk, Bool.true_and]

/-- What an action does to its output: to 0, to 1, over, and a pulse. -/
theorem Gondola.outs_act (g : Gondola) {out : Nat} (act pw : Nat) (t : FTime) (h : out < 16) :
    (act = 0 → (g.act out act pw t).outs.getLsbD out = false)
      ∧ (act = 1 ∨ act = 3 → (g.act out act pw t).outs.getLsbD out = true)
      ∧ (act = 2 → (g.act out act pw t).outs.getLsbD out = !g.outs.getLsbD out) := by
  have hwritten : ∀ b, (BitVec.ofNat 16 (setBit g.outs.toNat out b)).getLsbD out = b :=
    fun b => (getLsbD_ofNat_setBit g.outs out b h).trans (if_pos rfl)
  refine ⟨?_, ?_, ?_⟩
  · rintro rfl
    exact hwritten false
  · rintro (rfl | rfl) <;> exact hwritten true
  · rintro rfl
    exact (hwritten _).trans (congrArg not (BitVec.testBit_toNat g.outs))

/-- An action leaves the queue. -/
@[simp] theorem Gondola.events_act (g : Gondola) (out act pw : Nat) (t : FTime) : (g.act out act pw t).events = g.events := by
  unfold Gondola.act
  dsimp only
  split <;> rfl

/-- A pulse returns after its width. -/
theorem Gondola.pulse_act (g : Gondola) (out pw : Nat) (t : FTime) : (out, t + BitVec.ofNat 64 (pw * usUnits)) ∈ (g.act out 3 pw t).pulses :=
  List.mem_append_right _ List.mem_cons_self

/-! ### The rows -/

/-- An EVENT that is not late is queued by its time. -/
theorem eventAccept_queued (s : State) (node : Nat) (ex now : FTime) (out act : BitVec 8) (pw : BitVec 16) (id : Word)
    (htakes : s.gTakes node false = true) (hout : out.toNat < idNEVO (s.gident node)) (hearly : tdiff (s.gtime node now) ex ≤ 0)
    (hroom : (s.gon node).events.length < (if isHome node then 64 else idEVQ (s.gident node))) :
    Completes (.gondolaEventAccept node ex out act pw id now) s (fun t => t = { s with gons := t.gons }
        ∧ (∀ e, e ∈ (t.gon node).events ↔ e ∈ (s.gon node).events ∨ e = { exec := ex, out := out.toNat, act := act.toNat, pw := pw.toNat, id := id })
        ∧ (t.gon node).events.length = (s.gon node).events.length + 1 ∧ (t.gon node).outs = (s.gon node).outs) := by
  have hexec : execGondolaEventAccept node ex out act pw id now s = .next (s.updGon node (fun g =>
      { g with events := insEvent { exec := ex, out := out.toNat, act := act.toNat, pw := pw.toNat, id := id } g.events })) := by
    unfold execGondolaEventAccept
    dsimp only
    rw [if_neg (by simp [htakes]), if_neg (Nat.not_le.mpr hout), if_neg (Int.not_lt.mpr hearly), if_neg (Nat.not_le.mpr hroom)]
  refine ⟨_, hexec, rfl, ?_⟩
  rw [State.gon_updGon]
  exact ⟨fun e => mem_insEvent _ e _, length_insEvent _ _, rfl⟩

/-- An EVENT that is late acts at once and says so. -/
theorem eventAccept_late (s : State) (node : Nat) (ex now : FTime) (out act : BitVec 8) (pw : BitVec 16) (id : Word)
    (htakes : s.gTakes node false = true) (hout : out.toNat < idNEVO (s.gident node)) (hlate : 0 < tdiff (s.gtime node now) ex) :
    Completes (.gondolaEventAccept node ex out act pw id now) s (fun t => (t.gon node).evLate = true
        ∧ (t.gon node).events = (s.gon node).events
        ∧ ∀ b : Fin 16, b.val = out.toNat → ((act = 0 → (t.gon node).outs.getLsbD b.val = false)
          ∧ (act = 1 → (t.gon node).outs.getLsbD b.val = true)
          ∧ (act = 2 → (t.gon node).outs.getLsbD b.val = !(s.gon node).outs.getLsbD b.val))) := by
  have hexec : execGondolaEventAccept node ex out act pw id now s = .next ((s.gcount node gcEVLATE).updGon node (fun g =>
      { g.act out.toNat act.toNat pw.toNat (s.gtime node now) with evLate := true })) := by
    unfold execGondolaEventAccept
    dsimp only
    rw [if_neg (by simp [htakes]), if_neg (Nat.not_le.mpr hout), if_pos hlate]
  obtain ⟨r, hr⟩ := s.gon_gcount node gcEVLATE node
  refine ⟨_, hexec, ?_⟩
  beta_reduce
  rw [State.gon_updGon, hr]
  refine ⟨rfl, Gondola.events_act _ _ _ _ _, fun b hb => ?_⟩
  obtain ⟨hlow, hhigh, hover⟩ :=
    ({ s.gon node with regs := r } : Gondola).outs_act act.toNat pw.toNat (s.gtime node now) b.isLt
  rw [← hb]
  exact ⟨fun h => hlow (by rw [h]; rfl), fun h => hhigh (.inl (by rw [h]; rfl)), fun h => hover (by rw [h]; rfl)⟩

/-- The first EVENT of the queue acts when its time has come. -/
theorem eventExecute_gon (s : State) (node : Nat) (now : FTime) (e : GEvent) (r : List GEvent) (hq : (s.gon node).events = e :: r)
    (hdue : reached (s.gtime node now) (nearest (s.gquant node) e.exec) = true) :
    Completes (.eventExecute node now) s (fun t => t = { s with gons := t.gons } ∧ (t.gon node).events = r
      ∧ (e.out < 16 → (e.act = 0 → (t.gon node).outs.getLsbD e.out = false)
        ∧ (e.act = 1 ∨ e.act = 3 → (t.gon node).outs.getLsbD e.out = true)
        ∧ (e.act = 2 → (t.gon node).outs.getLsbD e.out = !(s.gon node).outs.getLsbD e.out)
        ∧ (e.act = 3 → ∃ x ∈ (t.gon node).pulses, x = (e.out, nearest (s.gquant node) e.exec + BitVec.ofNat 64 (e.pw * usUnits))))) := by
  have hexec : execEventExecute node now s = .next (s.updGon node (fun g =>
      ({ g with events := r } : Gondola).act e.out e.act e.pw (nearest (s.gquant node) e.exec))) := by
    unfold execEventExecute
    rw [hq]
    exact if_pos hdue
  refine ⟨_, hexec, rfl, ?_⟩
  rw [State.gon_updGon]
  refine ⟨Gondola.events_act _ _ _ _ _, fun hout => ?_⟩
  obtain ⟨hlow, hhigh, hover⟩ :=
    ({ s.gon node with events := r } : Gondola).outs_act e.act e.pw (nearest (s.gquant node) e.exec) hout
  exact ⟨hlow, hhigh, hover, fun h => ⟨_, h ▸ Gondola.pulse_act _ _ _ _, rfl⟩⟩

/-- A pulse whose time is over returns its output to 0, and no other output. -/
theorem eventPulseReturn_gon (s : State) (node : Nat) (out : Fin 16) (now : FTime)
    (hdue : ∃ x ∈ (s.gon node).pulses, x.1 = out.val ∧ reached (s.gtime node now) x.2 = true) :
    Completes (.eventPulseReturn node out now) s (fun t => t = { s with gons := t.gons }
      ∧ ∀ k < 16, (t.gon node).outs.getLsbD k = if k = out.val then false else (s.gon node).outs.getLsbD k) := by
  have hany : (s.gon node).pulses.any (fun e => e.1 == out.val && reached (s.gtime node now) e.2) = true := by
    simpa only [List.any_eq_true, Bool.and_eq_true, beq_iff_eq] using hdue
  refine ⟨_, if_pos hany, rfl, fun k hk => ?_⟩
  rw [State.gon_setGon]
  exact getLsbD_ofNat_setBit _ _ _ hk

end Sys2Proof.Machine

/-- Settles O20: EVENTs queued by their time, late ones at once, EVENTs executed, and the return of a pulse. -/
theorem gondolaEventRows : Obligations.GondolaEventRows := by
  unfold Obligations.GondolaEventRows
  intro s node
  refine ⟨fun ex now out act pw id htakes hout => ⟨?_, ?_⟩, eventExecute_gon s node, eventPulseReturn_gon s node⟩
  · exact eventAccept_queued s node ex now out act pw id htakes hout
  · exact eventAccept_late s node ex now out act pw id htakes hout
end

section
/-! SUPPORT. The legs of a gondola away from the device under a state of higher precedence: each takes the level of that state (R114). -/
open Sys2Proof Sys2Proof.Machine
namespace Sys2Proof.Machine

/-! ### What legs and carriers are not part of -/

/-- The gondolas and their channels, but for legs and carriers. -/
def State.offLegs (s : State) : Nat → Gondola × (Nat → GChan) := fun n =>
  ({ s.gon n with chans := [] }, fun c => { (s.gon n).chan c with legs := [], carrier := none })

theorem State.offLegs_of_gons {s u : State} (h : u.gons = s.gons) : u.offLegs = s.offLegs := by
  funext n
  simp only [State.offLegs, State.gon, h]

theorem State.offLegs_updChan (s : State) (n c : Nat) (f : GChan → GChan)
    (h : ∀ x, { f x with legs := [], carrier := none } = { x with legs := [], carrier := none }) :
    (s.updGon n (fun g => g.updChan c f)).offLegs = s.offLegs := by
  funext m
  by_cases hm : m = n
  · subst hm
    simp only [State.offLegs, State.gon_updGon, Prod.mk.injEq]
    refine ⟨rfl, funext fun j => ?_⟩
    by_cases hj : j = c
    · rw [hj, Gondola.chan_updChan, h]
    · rw [Gondola.chan_updChan_ne _ f hj]
  · simp only [State.offLegs, s.gon_updGon_ne _ hm]

theorem State.offLegs_legPut (s : State) (n c k : Nat) (t : FTime) (v : BitVec 2) : (s.legPut n c k t v).offLegs = s.offLegs :=
  s.offLegs_updChan n c _ (fun _ => rfl)

theorem State.offLegs_overCh (s : State) (n c : Nat) (t : FTime) : (s.overCh n c t).offLegs = s.offLegs :=
  State.overCh_keeps State.offLegs s n c t (fun u _ => u.offLegs_updChan n c _ (fun _ => rfl)) (fun u k v => u.offLegs_legPut n c k t v)

theorem State.offLegs_gview (s : State) (n : Nat) (t : FTime) : (s.gview n t).offLegs = s.offLegs :=
  State.offLegs_of_gons (s.gons_gview n t)

/-- What overrides leave: registers, staged values, the queue, and all of a channel but its legs and carrier. -/
theorem State.offLegs_overAll (s : State) (n : Nat) (t : FTime) : (s.overAll n t).offLegs = s.offLegs := by
  rw [State.overAll, State.offLegs_gview]
  exact foldl_keeps State.offLegs _ _ _ (fun u m => foldl_keeps State.offLegs _ _ _ (fun v c => v.offLegs_overCh m c t))

theorem State.gon_of_offLegs {s u : State} {n : Nat} (h : u.offLegs n = s.offLegs n) : u.gon n = { s.gon n with chans := (u.gon n).chans } :=
  congrArg (fun x : Gondola × (Nat → GChan) => { x.1 with chans := (u.gon n).chans }) h

theorem State.forced_of_offLegs {s u : State} {n : Nat} (h : u.offLegs n = s.offLegs n) (c : Nat) :
    ((u.gon n).chan c).forced = ((s.gon n).chan c).forced :=
  congrArg (fun x : Gondola × (Nat → GChan) => (x.2 c).forced) h

/-! ### What holds a leg, away from the device (R114) -/

theorem baseNode_away {n : Nat} (h : isHome n = false) : baseNode n = n := if_neg fun e => by simp [e, isHome] at h
theorem nodesOf_away {n : Nat} (h : isHome n = false) : nodesOf n = [n] := if_neg (by simp [h])
theorem regNode_away {n : Nat} (a : Nat) (h : isHome n = false) : regNode n a = n := by rw [regNode, baseNode_away h, ite_self]

/-- A gondola away from the device has the identity block and the descriptors that its own state holds, and so its legs and its rip input. -/
theorem State.legs_away {s u : State} {n : Nat} (h : isHome n = false) (hid : (u.gon n).ident = (s.gon n).ident)
    (hds : (u.gon n).descs = (s.gon n).descs) : u.hasRip n = s.hasRip n ∧ ∀ c, u.gLegs n c = s.gLegs n c := by
  have hn : n ≠ homeNode ∧ n ≠ homeBal := by simpa [isHome] using h
  refine ⟨?_, fun c => ?_⟩
  · simp only [State.hasRip, State.gident, hid]
  · simp only [State.gLegs, State.gdesc, if_neg hn.1, if_neg hn.2, hid, hds]

theorem State.gLegs_congr {s u : State} {n : Nat} (h : isHome n = false) (hu : u.offLegs n = s.offLegs n) (c : Nat) :
    u.gLegs n c = s.gLegs n c := by
  have hg := State.gon_of_offLegs hu
  exact (State.legs_away h (by rw [hg]) (by rw [hg])).2 c

/-- Legs and carriers do not tell what holds a leg. -/
theorem State.legOver_congr {s u : State} {n : Nat} (h : isHome n = false) (hu : u.offLegs n = s.offLegs n) (c k : Nat) :
    u.legOver n c k = s.legOver n c k := by
  have hn : n ≠ homeNode ∧ n ≠ homeBal := by simpa [isHome] using h
  have hforced := State.forced_of_offLegs hu c
  have hg := State.gon_of_offLegs hu
  have hrip : u.hasRip n = s.hasRip n := (State.legs_away h (by rw [hg]) (by rw [hg])).1
  have hgreg : ∀ a, u.greg n a = s.greg n a := fun a => by rw [State.greg, State.greg, regNode_away a h, hg]; rfl
  have hforce : u.forceLevel n c k = s.forceLevel n c k := by
    simp only [State.forceLevel, if_neg hn.1, if_neg hn.2, hforced, hgreg]
  have hripOff : u.ripOff n = s.ripOff n := by rw [State.ripOff, State.ripOff, hrip, hg]
  have hpos : u.gpos n = s.gpos n := by rw [State.gpos, State.gpos, hg]
  have hplan : u.gInPlan n c = s.gInPlan n c := by rw [State.gInPlan, State.gInPlan, State.gPLAN, State.gPLAN, hgreg]
  have hctl : (u.gon n).greg aG_CTL = (s.gon n).greg aG_CTL := by rw [hg]; rfl
  have hsil : (u.gon n).sil = (s.gon n).sil := by rw [hg]
  simp only [State.legOver, baseNode_away h, hforce, hripOff, hpos, hplan, hctl, hsil]

/-- The rip input holds every leg off (R120). -/
theorem State.legOver_rip {s : State} {n : Nat} (h : s.ripOff n = true) (c k : Nat) : s.legOver n c k = some 0 := if_pos h

/-- A channel that is forced holds its legs at their SAFE levels (R112). -/
theorem State.legOver_forced {s : State} {n c : Nat} (h : isHome n = false) (hrip : s.ripOff n = false) (hf : ((s.gon n).chan c).forced = true)
    (k : Nat) : s.legOver n c k = some (safeLevel (bget (s.greg n (aCH_CFG c)) ⟨4 + 2 * k, 2⟩)) := by
  have hn : n ≠ homeNode ∧ n ≠ homeBal := by simpa [isHome] using h
  have hforce : s.forceLevel n c k = some (safeLevel (bget (s.greg n (aCH_CFG c)) ⟨4 + 2 * k, 2⟩)) := by
    rw [State.forceLevel, if_neg hn.2, if_neg hn.1, if_pos hf]
  simp [State.legOver, hrip, hforce]

/-! ### A leg that takes a level (R105) -/

/-- Pruning keeps the last change. -/
theorem getLast?_legPrune (t : FTime) (o : BitVec 2) (q : List (FTime × BitVec 2)) : (legPrune t o q).2.getLast? = q.getLast? := by
  induction q generalizing o with
  | nil => rfl
  | cons e q ih =>
    cases q with
    | nil => rfl
    | cons f r =>
      rw [legPrune]
      split
      · rw [ih, List.getLast?_cons_cons]
      · rfl

theorem Leg.last_of_getLast? {l : Leg} {e : FTime × BitVec 2} (h : l.q.getLast? = some e) : l.last = e.2 := by rw [Leg.last, h]

/-- A leg that is set has the level. -/
theorem last_legForce (t : FTime) (v : BitVec 2) (dead minp : Nat) (l : Leg) : (legForce t v dead minp l).last = v := by
  unfold legForce
  dsimp only
  split
  · next h => exact h
  · refine Leg.last_of_getLast? (e := (t, v)) ?_
    rw [getLast?_legPrune, List.getLast?_concat]

theorem GChan.leg_setLeg (c : GChan) (k j : Nat) (l : Leg) : (c.setLeg k l).leg j = if j = k then l else c.leg j := tget_tset _ _ _ _ _

/-- A level put on a leg is there, unless a state of higher precedence holds the leg at its own. -/
theorem State.last_legPut (s : State) (n c k : Nat) (t : FTime) (v : BitVec 2) :
    ((((s.legPut n c k t v).gon n).chan c).leg k).last = (s.legOver n c k).getD v := by
  rw [State.legPut, State.gon_updGon, Gondola.chan_updChan, GChan.leg_setLeg, if_pos rfl]
  split
  · rfl
  · exact last_legForce _ _ _ _ _

/-- A level put on a leg leaves every other leg of the gondola. -/
theorem State.leg_legPut_ne (s : State) (n : Nat) {c k c' j : Nat} (t : FTime) (v : BitVec 2) (h : ¬(c = c' ∧ k = j)) :
    (((s.legPut n c' j t v).gon n).chan c).leg k = (((s.gon n).chan c).leg k) := by
  rw [State.legPut, State.gon_updGon]
  by_cases hc : c = c'
  · subst hc
    rw [Gondola.chan_updChan, GChan.leg_setLeg, if_neg fun hk => h ⟨rfl, hk⟩]
  · rw [Gondola.chan_updChan_ne _ _ hc]

/-! ### The overrides brought into force (R114) -/

/-- A leg is at the level that a state of higher precedence holds it at, if one does. -/
def State.legHeld (s : State) (n c k : Nat) : Prop := ∀ v, s.legOver n c k = some v → (((s.gon n).chan c).leg k).last = v

/-- A leg is brought under the override in force. -/
def State.overLeg (s : State) (n c : Nat) (t : FTime) (k : Nat) : State := match s.legOver n c k with
  | some v => if (((s.gon n).chan c).leg k).last = v then s else s.legPut n c k t v
  | none => s

/-- The legs of channel c that are held lose their carry. -/
def State.overCarry (s : State) (n c : Nat) : State :=
  let ks := (List.range 4).filter (fun k => decide (k < max 1 (s.gLegs n c)) && (s.legOver n c k).isSome)
  if ks = [] ∨ ((s.gon n).chan c).carrier = none then s
    else s.updGon n (fun g => g.updChan c (fun ch => { ch with carrier := ch.carrier.map (fun x => ks.foldl Carrier.hold x) }))

theorem State.overCh_eq (s : State) (n c : Nat) (t : FTime) :
    s.overCh n c t = (List.range (max 1 ((s.overCarry n c).gLegs n c))).foldl (fun s k => s.overLeg n c t k) (s.overCarry n c) := rfl

theorem State.overLeg_cases (s : State) (n c : Nat) (t : FTime) (k : Nat) :
    s.overLeg n c t k = s ∧ s.legHeld n c k ∨ ∃ v, s.legOver n c k = some v ∧ s.overLeg n c t k = s.legPut n c k t v := by
  unfold State.overLeg State.legHeld
  split
  · next v hv =>
    split
    · next hlast => exact .inl ⟨rfl, fun w hw => hlast.trans (Option.some.inj (hv.symm.trans hw))⟩
    · exact .inr ⟨v, hv, rfl⟩
  · next hv => exact .inl ⟨rfl, fun w hw => absurd (hv.symm.trans hw) nofun⟩

theorem State.offLegs_overCarry (s : State) (n c : Nat) : (s.overCarry n c).offLegs = s.offLegs := by
  unfold State.overCarry
  dsimp only
  split
  · rfl
  · exact s.offLegs_updChan n c _ (fun _ => rfl)

/-- What holds a leg is the same before and after a change of legs and carriers. -/
theorem State.legHeld_of_leg {s u : State} {n c k : Nat} (h : isHome n = false) (hu : u.offLegs n = s.offLegs n)
    (hleg : ((u.gon n).chan c).leg k = ((s.gon n).chan c).leg k) (hs : s.legHeld n c k) : u.legHeld n c k := fun v hv => by
  rw [hleg]
  exact hs v ((State.legOver_congr h hu c k).symm.trans hv)

theorem State.legHeld_overLeg (s : State) {n : Nat} (h : isHome n = false) (c : Nat) (t : FTime) (k : Nat) :
    (s.overLeg n c t k).legHeld n c k := by
  rcases s.overLeg_cases n c t k with ⟨hstep, hheld⟩ | ⟨v, hv, hstep⟩ <;> rw [hstep]
  · exact hheld
  · intro w hw
    rw [State.legOver_congr h (congrFun (s.offLegs_legPut n c k t v) n), hv] at hw
    rw [State.last_legPut, hv]
    exact Option.some.inj hw

theorem State.legHeld_overLeg_of {s : State} {n c k : Nat} (h : isHome n = false) (hs : s.legHeld n c k) (c' : Nat) (t : FTime) (j : Nat) :
    (s.overLeg n c' t j).legHeld n c k := by
  by_cases hsame : c = c' ∧ k = j
  · obtain ⟨rfl, rfl⟩ := hsame
    exact s.legHeld_overLeg h c t k
  · rcases s.overLeg_cases n c' t j with ⟨hstep, -⟩ | ⟨v, -, hstep⟩ <;> rw [hstep]
    · exact hs
    · exact State.legHeld_of_leg h (congrFun (s.offLegs_legPut n c' j t v) n) (s.leg_legPut_ne n t v hsame) hs

/-- Every leg of a channel is at the level that it is held at. -/
def State.chHeld (s : State) (n c : Nat) : Prop := ∀ k < s.gLegs n c, s.legHeld n c k

theorem State.chHeld_overCh (s : State) {n : Nat} (h : isHome n = false) (c : Nat) (t : FTime) : (s.overCh n c t).chHeld n c := by
  intro k hk
  have hlegs : (s.overCh n c t).gLegs n c = (s.overCarry n c).gLegs n c :=
    State.gLegs_congr h (congrFun ((s.offLegs_overCh n c t).trans (s.offLegs_overCarry n c).symm) n) c
  rw [hlegs] at hk
  rw [State.overCh_eq]
  exact foldl_reaches (fun u : State => u.legHeld n c k) _ (List.mem_range.mpr (Nat.lt_of_lt_of_le hk (Nat.le_max_right 1 _)))
    (fun u => u.legHeld_overLeg h c t k) (fun u j hu => State.legHeld_overLeg_of h hu c t j) _

theorem State.leg_overCarry (s : State) (n c c' k : Nat) : ((((s.overCarry n c').gon n).chan c).leg k) = (((s.gon n).chan c).leg k) := by
  unfold State.overCarry
  dsimp only
  split
  · rfl
  · rw [State.gon_updGon]
    by_cases hc : c = c'
    · rw [hc, Gondola.chan_updChan]
      rfl
    · rw [Gondola.chan_updChan_ne _ _ hc]

theorem State.chHeld_overCh_of {s : State} {n c : Nat} (h : isHome n = false) (hs : s.chHeld n c) (c' : Nat) (t : FTime) :
    (s.overCh n c' t).chHeld n c := by
  intro k hk
  rw [State.gLegs_congr h (congrFun (s.offLegs_overCh n c' t) n)] at hk
  rw [State.overCh_eq]
  exact List.foldlRecOn (motive := fun u : State => u.legHeld n c k) _ _
    (State.legHeld_of_leg h (congrFun (s.offLegs_overCarry n c') n) (s.leg_overCarry n c c' k) (hs k hk))
    (fun u hu j _ => State.legHeld_overLeg_of h hu c' t j)

/-- Away from the device every leg takes the level of the override that holds it. -/
theorem State.chHeld_overAll (s : State) {n c : Nat} (h : isHome n = false) (hc : c < 16) (t : FTime) : (s.overAll n t).chHeld n c := by
  rw [State.overAll, State.gview_away _ _ h, nodesOf_away h, List.foldl_cons, List.foldl_nil]
  exact foldl_reaches (fun u : State => u.chHeld n c) (fun u c' => u.overCh n c' t) (List.mem_range.mpr hc) (fun u => u.chHeld_overCh h c t)
    (fun u c' hu => State.chHeld_overCh_of h hu c' t) s

end Sys2Proof.Machine
end

section
/-! SUPPORT. The rip input of a gondola, its power stage and its feedback counters, and the settling of the statement on them. -/
open Sys2Proof Sys2Proof.Machine
namespace Sys2Proof.Machine

/-! ### The rip input (R120, R121) -/

theorem away_of_hasRip {s : State} {n : Nat} (h : s.hasRip n = true) : isHome n = false := by
  simp only [State.hasRip, Bool.and_eq_true, Bool.not_eq_true'] at h
  exact h.1

/-- A rip input that drops, and one that is energised. -/
theorem ripInput_gon (s : State) (node : Nat) (now : FTime) (hrip : s.hasRip node = true) :
    ((s.gon node).ripIn = true → Completes (.ripInputDrop node now) s (fun t => t = { s with gons := t.gons }
      ∧ t.gon node = { s.gon node with ripIn := false, ripOffAt := s.gtime node now, rip10 := false }))
    ∧ ((s.gon node).ripIn = false → Completes (.ripInputEnergised node now) s (fun t => t = { s with gons := t.gons }
      ∧ t.gon node = { s.gon node with ripIn := true, ripSince := s.gtime node now })) :=
  ⟨fun hin => ⟨_, if_pos ⟨hrip, hin⟩, rfl, s.gon_updGon _ _⟩, fun hin => ⟨_, if_pos ⟨hrip, by simp [hin]⟩, rfl, s.gon_updGon _ _⟩⟩

/-- A rip input de-energised for too long disables the power stage: it latches, and every leg is off. -/
theorem powerStageDisable_gon (s : State) (node : Nat) (now : FTime) (hrip : s.hasRip node = true) (hin : (s.gon node).ripIn = false)
    (hlatch : (s.gon node).ripLatch = false) (hlong : 6400000 < tdiff (s.gtime node now) (s.gon node).ripOffAt) :
    Completes (.powerStageDisable node now) s (fun t => (t.gon node).ripLatch = true ∧ t = { s with gons := t.gons }
        ∧ ∀ c < 16, ∀ k < s.gLegs node c, (((t.gon node).chan c).leg k).last = 0) := by
  have haway := away_of_hasRip hrip
  generalize hu : (s.gcount node gcRIPDROP).updGon node (fun g => { g with ripLatch := true }) = u
  have hexec : execPowerStageDisable node now s = .next (u.overAll node (s.gtime node now)) := by
    rw [← hu]
    exact if_pos ⟨hrip, by simp [hin], by simp [hlatch], hlong⟩
  obtain ⟨r, hr⟩ := s.gon_gcount node gcRIPDROP node
  have hug : u.gon node = { s.gon node with regs := r, ripLatch := true } := by rw [← hu, State.gon_updGon, hr]
  obtain ⟨hurip, hulegs⟩ := State.legs_away (s := s) (u := u) haway (by rw [hug]) (by rw [hug])
  have hoff : u.ripOff node = true := by rw [State.ripOff, hurip, hrip, hug]; rfl
  have hapart : u.apart node = s.apart node := by
    rw [← hu, State.apart_updGon, State.gcount, baseNode_away haway, State.apart_updGon]
  have hover := congrFun (u.offLegs_overAll node (s.gtime node now)) node
  refine ⟨_, hexec, ?_, (State.eq_of_apart ((u.apart_overAll _ haway).trans hapart)).1, fun c hc k hk => ?_⟩
  · rw [State.gon_of_offLegs hover, hug]
  · refine u.chHeld_overAll haway hc (s.gtime node now) k ?_ 0 ?_
    · rw [State.gLegs_congr haway hover, hulegs]
      exact hk
    · rw [State.legOver_congr haway hover, State.legOver_rip hoff]

/-! ### Transitions of the feedback inputs (R108, R129) -/

theorem quadPhase_lt (l : BitVec 3) : quadPhase l < 4 := by decide +revert

theorem hallSector_lt {l : BitVec 3} {x : Nat} (h : hallSector l = some x) : x < 6 := by
  have hall : ∀ l : BitVec 3, ∀ x ∈ hallSector l, x < 6 := by decide
  exact hall l x h

/-- The levels that an input takes: a quadrature input leaves Z as it was. -/
def takenLevels (kind : Nat) (old lv : BitVec 3) : BitVec 3 := if kind = 3 then lv else (lv &&& 3) ||| (old &&& 4)

theorem quadPhase_takenLevels {kind : Nat} (h : kind ≠ 3) (old lv : BitVec 3) : quadPhase (takenLevels kind old lv) = quadPhase lv := by
  rw [takenLevels, if_neg h]
  decide +revert

/-- A quadrature transition by its steps from the old phase to the new one. -/
theorem transOf_quad {kind : Nat} (h : kind ≠ 3) {old lv : BitVec 3} {d : Nat} (hd : (quadPhase lv + 4 - quadPhase old) % 4 = d) :
    (d = 1 → transOf (kind == 3) old (takenLevels kind old lv) = some .fwd)
      ∧ (d = 2 → transOf (kind == 3) old (takenLevels kind old lv) = some .illegal)
      ∧ (d = 3 → transOf (kind == 3) old (takenLevels kind old lv) = some .back) := by
  rw [transOf, if_neg (by simpa using h), quadPhase_takenLevels h, hd]
  refine ⟨?_, ?_, ?_⟩ <;> rintro rfl <;> rfl

/-- A Hall transition between sectors that differ. -/
theorem transOf_hall {old lv : BitVec 3} {x y : Nat} (hx : hallSector old = some x) (hy : hallSector lv = some y) (hne : x ≠ y) :
    transOf true old lv = if y = (x + 1) % 6 then some .fwd else if x = (y + 1) % 6 then some .back else some .illegal := by
  rw [transOf, if_pos rfl, hx, hy]
  exact if_neg hne

/-- Hall levels that are all alike are illegal. -/
theorem transOf_hall_none {old lv : BitVec 3} (hne : old ≠ lv) (hnone : hallSector lv = none) : transOf true old lv = some .illegal := by
  rw [transOf, if_pos rfl, hnone]
  cases hallSector old <;> exact if_neg hne

theorem transOf_fwd {kind : Nat} {old lv : BitVec 3} (h : kind ≠ 3 ∧ quadPhase lv = (quadPhase old + 1) % 4
    ∨ kind = 3 ∧ ∃ x, hallSector old = some x ∧ hallSector lv = some ((x + 1) % 6)) :
    transOf (kind == 3) old (takenLevels kind old lv) = some .fwd := by
  rcases h with ⟨hk, hq⟩ | ⟨rfl, x, hx, hy⟩
  · have := quadPhase_lt old
    exact (transOf_quad hk rfl).1 (by omega)
  · have := hallSector_lt hx
    exact (transOf_hall hx hy (by omega)).trans (if_pos rfl)

theorem transOf_back {kind : Nat} {old lv : BitVec 3} (h : kind ≠ 3 ∧ quadPhase old = (quadPhase lv + 1) % 4
    ∨ kind = 3 ∧ ∃ x, hallSector lv = some x ∧ hallSector old = some ((x + 1) % 6)) :
    transOf (kind == 3) old (takenLevels kind old lv) = some .back := by
  rcases h with ⟨hk, hq⟩ | ⟨rfl, x, hx, hy⟩
  · have := quadPhase_lt lv
    exact (transOf_quad hk rfl).2.2 (by omega)
  · have := hallSector_lt hx
    refine (transOf_hall hy hx (by omega)).trans ?_
    rw [if_neg (by omega), if_pos rfl]

theorem transOf_illegal {kind : Nat} {old lv : BitVec 3} (h : kind ≠ 3 ∧ quadPhase old = (quadPhase lv + 2) % 4
    ∨ kind = 3 ∧ old ≠ lv ∧ hallSector lv = none) : transOf (kind == 3) old (takenLevels kind old lv) = some .illegal := by
  rcases h with ⟨hk, hq⟩ | ⟨rfl, hne, hnone⟩
  · have := quadPhase_lt lv
    exact (transOf_quad hk rfl).2.1 (by omega)
  · exact transOf_hall_none hne hnone

/-! ### The counters (R108, R154) -/

/-- The device without its registers and without what the emulation outputs have accumulated. -/
def State.offEmu (s : State) : State := { s with regs := [], emuAcc := [] }

theorem State.offEmu_emuStep (s : State) (e : Nat) (d : Int) : (s.emuStep e d).offEmu = s.offEmu := by
  unfold State.emuStep
  dsimp only
  split
  · rfl
  · split <;> rfl

theorem State.eq_of_offEmu {s u : State} (h : u.offEmu = s.offEmu) : u = { s with regs := u.regs, emuAcc := u.emuAcc } := by
  have hput := congrArg (fun x : State => ({ x with regs := u.regs, emuAcc := u.emuAcc } : State)) h
  exact hput

/-- The emulation outputs stand in registers of the device and in what they have accumulated. -/
theorem State.emu_frame (s : State) (c : Nat) (d : Int) :
    s.emu c d = { s with regs := (s.emu c d).regs, emuAcc := (s.emu c d).emuAcc } := by
  refine State.eq_of_offEmu (foldl_keeps State.offEmu _ _ _ (fun u e => ?_))
  by_cases hsrc : u.wfld (rFBK_EMU_CTL e) fFBK_EMU_CTL_SRC = c
  · rw [if_pos hsrc, State.offEmu_emuStep]
  · rw [if_neg hsrc]

theorem State.gon_emu (s : State) (c : Nat) (d : Int) (n : Nat) : (s.emu c d).gon n = s.gon n := by rw [s.emu_frame]; rfl

section
variable (s : State) (node : Nat) (now : FTime) (ch : Fin 16) (lv : BitVec 3)

/-- A transition that counts moves the counter by one, and at home the emulation outputs with it. -/
theorem quadratureTransition_counted {tr : QTrans} {d : Int} (hd : tr = .fwd ∧ d = 1 ∨ tr = .back ∧ d = -1)
    (htr : transOf (s.fbKind node ch == 3) ((s.gon node).chan ch).levels (takenLevels (s.fbKind node ch) ((s.gon node).chan ch).levels lv)
      = some tr) :
    Completes (.quadratureTransition node ch lv now) s (fun t => t = { s with gons := t.gons, regs := t.regs, emuAcc := t.emuAcc }
        ∧ ((t.gon node).chan ch).cnt = ((s.gon node).chan ch).cnt + BitVec.ofInt 32 d
        ∧ ((t.gon node).chan ch).lastTrans = s.gtime node now
        ∧ (node ≠ homeNode ∨ s.fbKind node ch = 3 → t = { s with gons := t.gons })) := by
  generalize hu : s.updGon node (fun g => g.updChan ch (fun x =>
    { x with levels := takenLevels (s.fbKind node ch) ((s.gon node).chan ch).levels lv })) = u
  generalize hw : u.updGon node (fun g => g.updChan ch (fun x =>
    { x with cnt := x.cnt + BitVec.ofInt 32 d, prevTrans := x.lastTrans, lastTrans := u.gtime node now })) = w
  have htime : u.gtime node now = s.gtime node now := by
    unfold State.gtime State.gquant State.gident
    rw [← hu, State.gon_updGon]
    rfl
  have hexec : execQuadratureTransition node ch lv now s = .next (if node = homeNode ∧ s.fbKind node ch ≠ 3 then w.emu ch d else w) := by
    unfold execQuadratureTransition
    dsimp only
    rw [← takenLevels, hu, htr]
    rcases hd with ⟨rfl, rfl⟩ | ⟨rfl, rfl⟩ <;> rw [← hw] <;> rfl
  have hws : w = { s with gons := w.gons } := by rw [← hw, ← hu]; rfl
  have hch : ((w.gon node).chan ch).cnt = ((s.gon node).chan ch).cnt + BitVec.ofInt 32 d
      ∧ ((w.gon node).chan ch).lastTrans = s.gtime node now := by
    rw [← hw, State.gon_updGon, Gondola.chan_updChan, htime, ← hu, State.gon_updGon, Gondola.chan_updChan]
    exact ⟨rfl, rfl⟩
  refine ⟨_, hexec, ?_⟩
  by_cases hemu : node = homeNode ∧ s.fbKind node ch ≠ 3
  · simp only [if_pos hemu, State.gon_emu]
    refine ⟨?_, hch.1, hch.2, fun h => ?_⟩
    · have hput := congrArg (fun x : State => ({ x with regs := (w.emu ch d).regs, emuAcc := (w.emu ch d).emuAcc } : State)) hws
      rw [w.emu_frame]
      exact hput
    · exact absurd hemu (by tauto)
  · simp only [if_neg hemu]
    exact ⟨congrArg (fun x : State => ({ x with regs := w.regs, emuAcc := w.emuAcc } : State)) hws, hch.1, hch.2, fun _ => hws⟩

/-- A field of a counter word that counts one more stays at its largest value. -/
theorem bget_counted (v : Word) (b : Bits) (hb : b.lo + b.w ≤ 32) :
    bget (bset v b (min (2 ^ b.w - 1) (bget v b + 1))) b = min (2 ^ b.w - 1) (bget v b + 1) := by
  have hpos : 0 < 2 ^ b.w := Nat.two_pow_pos _
  rw [bget_bset _ _ _ hb, Nat.mod_eq_of_lt (by omega)]

/-- A transition that is illegal is marked and counted, and leaves the counter. -/
theorem quadratureTransition_illegal
    (htr : transOf (s.fbKind node ch == 3) ((s.gon node).chan ch).levels (takenLevels (s.fbKind node ch) ((s.gon node).chan ch).levels lv)
      = some .illegal) :
    Completes (.quadratureTransition node ch lv now) s (fun t => t = { s with gons := t.gons }
        ∧ ((t.gon node).chan ch).ill = true ∧ ((t.gon node).chan ch).cnt = ((s.gon node).chan ch).cnt
        ∧ bget ((t.gon node).greg (aCH_CNT ch)) ⟨0, 16⟩ = min 0xFFFF (bget ((s.gon node).greg (aCH_CNT ch)) ⟨0, 16⟩ + 1)) := by
  generalize hu : s.updGon node (fun g => g.updChan ch (fun x =>
    { x with levels := takenLevels (s.fbKind node ch) ((s.gon node).chan ch).levels lv })) = u
  have hexec : execQuadratureTransition node ch lv now s = .next (u.updGon node (fun g =>
      (g.updChan ch (fun x => { x with ill := true })).countIll ch)) := by
    unfold execQuadratureTransition
    dsimp only
    rw [← takenLevels, hu, htr]
  have hug : u.gon node = (s.gon node).updChan ch (fun x =>
    { x with levels := takenLevels (s.fbKind node ch) ((s.gon node).chan ch).levels lv }) := by rw [← hu, State.gon_updGon]
  have hch : ∀ g : Gondola, (g.countIll ch).chan ch = g.chan ch := fun _ => rfl
  refine ⟨_, hexec, ?_, ?_⟩
  · rw [← hu]; rfl
  rw [State.gon_updGon, hch, Gondola.chan_updChan, hug, Gondola.chan_updChan]
  refine ⟨rfl, rfl, ?_⟩
  rw [Gondola.countIll, Gondola.setGreg, Gondola.greg, tget_tset_same]
  exact bget_counted _ ⟨0, 16⟩ (by decide)

/-- An index edge: the first one latches the counter, a further one is counted. -/
theorem indexEdge_rising :
    Completes (.indexEdge node ch true now) s (fun t => t = { s with gons := t.gons }
        ∧ ((t.gon node).chan ch).levels = ((s.gon node).chan ch).levels ||| 4
        ∧ (((s.gon node).chan ch).idx = none → ((t.gon node).chan ch).idx = some (((s.gon node).chan ch).cnt.setWidth 16))
        ∧ (((s.gon node).chan ch).idx ≠ none → ((t.gon node).chan ch).idx = ((s.gon node).chan ch).idx
          ∧ bget ((t.gon node).greg (aCH_CNT ch)) ⟨16, 8⟩ = min 0xFF (bget ((s.gon node).greg (aCH_CNT ch)) ⟨16, 8⟩ + 1))) := by
  have hz : ∀ l : BitVec 3, (l &&& 3) ||| 4 = l ||| 4 := by decide
  generalize hg : (s.gon node).updChan ch (fun x => { x with levels := (x.levels &&& 3) ||| 4 }) = g
  have hgc : g.chan ch = { (s.gon node).chan ch with levels := ((s.gon node).chan ch).levels ||| 4 } := by
    rw [← hg, Gondola.chan_updChan, hz]
  have hreg : g.greg (aCH_CNT ch) = (s.gon node).greg (aCH_CNT ch) := by rw [← hg]; rfl
  refine ⟨_, rfl, rfl, ?_⟩
  simp only [if_true, State.gon_updGon, hg, hgc]
  cases hidx : ((s.gon node).chan ch).idx with
  | none => simp [hgc]
  | some x =>
    have hch : (g.countIdx ch).chan ch = g.chan ch := rfl
    refine ⟨by rw [Option.isSome_some, if_pos rfl, hch, hgc], nofun, fun _ => ⟨?_, ?_⟩⟩
    · rw [Option.isSome_some, if_pos rfl, hch, hgc, ← hidx]
    · rw [Option.isSome_some, if_pos rfl, Gondola.countIdx, Gondola.setGreg, Gondola.greg, tget_tset_same, hreg]
      exact bget_counted _ ⟨16, 8⟩ (by decide)

/-- Z falls, and nothing else happens. -/
theorem indexEdge_falling :
    Completes (.indexEdge node ch false now) s (fun t => t = { s with gons := t.gons }
        ∧ t.gon node = (s.gon node).updChan ch (fun x => { x with levels := x.levels &&& 3 })) := by
  refine ⟨_, rfl, rfl, ?_⟩
  simp

end

end Sys2Proof.Machine

/-- Settles O22: the rip input, the power stage, quadrature and Hall transitions, and the index input. -/
theorem gondolaInputRows : Obligations.GondolaInputRows := by
  unfold Obligations.GondolaInputRows
  intro s node now
  refine ⟨fun hrip => ⟨(ripInput_gon s node now hrip).1, (ripInput_gon s node now hrip).2, powerStageDisable_gon s node now hrip,
      fun hin hlong => ⟨_, if_pos ⟨hrip, hin, hlong⟩, rfl, s.gon_updGon _ _⟩⟩,
    fun ch lv => ⟨fun h => ?_, fun h => ?_, fun h => ?_⟩, fun ch => ⟨indexEdge_rising s node now ch, indexEdge_falling s node now ch⟩⟩
  · exact quadratureTransition_counted s node now ch lv (.inl ⟨rfl, rfl⟩) (transOf_fwd h)
  · obtain ⟨t, ht, hframe, hcnt, hlast, -⟩ := quadratureTransition_counted s node now ch lv (.inr ⟨rfl, rfl⟩) (transOf_back h)
    exact ⟨t, ht, hframe, by rw [hcnt, BitVec.sub_eq_add_neg]; rfl, hlast⟩
  · exact quadratureTransition_illegal s node now ch lv (transOf_illegal h)
end

section
/-! SUPPORT. The register space of a gondola: what is answered, written and read, and the staged values that come into force. -/
open Sys2Proof Sys2Proof.Machine
namespace Sys2Proof.Machine

/-! ### The device without its gondolas, and without its registers -/

def State.offGons (s : State) : State := { s with gons := [] }
def State.offRegs (s : State) : State := { s with regs := [] }

theorem State.eq_of_offGons {s u : State} (h : u.offGons = s.offGons) : u = { s with gons := u.gons } := by
  have hput := congrArg (fun x : State => ({ x with gons := u.gons } : State)) h
  exact hput

theorem State.eq_of_offRegs {s u : State} (h : u.offRegs = s.offRegs) : u = { s with regs := u.regs } := by
  have hput := congrArg (fun x : State => ({ x with regs := u.regs } : State)) h
  exact hput

/-! ### CFG_RSP (R67) -/

/-- An answer is queued as a frame of the gondola's own. -/
theorem State.cfgRsp_shows (s : State) (n : Nat) (tag : BitVec 8) (status : Nat) (data : List Byte) :
    ∃ p f, ((s.cfgRsp n tag status data).gon (baseNode n)).queue = (s.gon (baseNode n)).queue ++ [ownFrame p f] ∧ f.typ = 0xA
      ∧ f.tag = tag ∧ f.body = leBytes 2 status ++ [0, 0] ++ data := by
  refine ⟨(s.gon (baseNode n)).serving (s.onRing (baseNode n)), s.gframe n 0xA 0 tag (leBytes 2 status ++ [0, 0] ++ data), ?_, rfl, rfl, rfl⟩
  rw [State.cfgRsp, State.gsend, State.gfwd, State.gon_updGon]
  rfl

theorem State.clrAnswer_frame (s : State) (n : Nat) (bc : Bool) (tag : BitVec 8) (status : Nat) :
    s.clrAnswer n bc tag status = { s with gons := (s.clrAnswer n bc tag status).gons } := by
  unfold State.clrAnswer
  split <;> rfl

theorem State.fget_clrAnswer (s : State) (n : Nat) (bc : Bool) (tag : BitVec 8) (status o : Nat) (b : Bits) :
    (s.clrAnswer n bc tag status).fget o b = s.fget o b := by
  rw [s.clrAnswer_frame]
  rfl

/-- An answer leaves of every gondola all but its queue. -/
theorem State.gon_clrAnswer_keeps {β : Type} (p : Gondola → β) (s : State) (n : Nat) (bc : Bool) (tag : BitVec 8) (status m : Nat)
    (h : ∀ (g : Gondola) q f, p (g.queueAt q true f 0 0) = p g) : p ((s.clrAnswer n bc tag status).gon m) = p (s.gon m) := by
  unfold State.clrAnswer
  split
  · rfl
  · exact s.gon_gsend_keeps p _ m _ (fun g q => h g q _)

/-! ### CFG_WR (R122) -/

theorem State.aligned_of_gclass {s : State} {n a : Nat} (h : s.gclass n a ≠ 1) : a % 4 = 0 := by
  by_contra ha
  exact h (if_pos ha)

/-- The gondola after a word of its register space has been written: its rw bits at once, its sh bits staged. -/
def Gondola.written (g : Gondola) (a : Nat) (v : Word) : Gondola :=
  let m := BitVec.ofNat 32 (grw a)
  let g := if grw a = 0 then g else g.setGreg a ((g.greg a &&& ~~~m) ||| (v &&& m))
  if gsh a = 0 then g else g.setGstage a (v &&& BitVec.ofNat 32 (gsh a))

theorem Gondola.greg_written (g : Gondola) (a : Nat) (v : Word) :
    (g.written a v).greg a = (g.greg a &&& ~~~(BitVec.ofNat 32 (grw a))) ||| (v &&& BitVec.ofNat 32 (grw a)) := by
  have hstage : ∀ (x : Gondola) w, (x.setGstage a w).greg a = x.greg a := fun _ _ => rfl
  have hrw : (if grw a = 0 then g else g.setGreg a ((g.greg a &&& ~~~(BitVec.ofNat 32 (grw a))) ||| (v &&& BitVec.ofNat 32 (grw a)))).greg a
      = (g.greg a &&& ~~~(BitVec.ofNat 32 (grw a))) ||| (v &&& BitVec.ofNat 32 (grw a)) := by
    split
    · next h =>
      have hnone : ~~~(BitVec.ofNat 32 0) = BitVec.allOnes 32 := BitVec.not_zero
      rw [h, hnone, BitVec.and_allOnes, BitVec.and_zero, BitVec.or_zero]
    · exact tget_tset_same _ _ _ _
  unfold Gondola.written
  dsimp only
  split
  · exact hrw
  · rw [hstage, hrw]

theorem Gondola.gstage_written (g : Gondola) {a : Nat} (v : Word) (h : gsh a ≠ 0) :
    (g.written a v).gstage a = v &&& BitVec.ofNat 32 (gsh a) := by
  unfold Gondola.written
  dsimp only
  rw [if_neg h]
  exact tget_tset_same _ _ _ _

theorem Gondola.queue_written (g : Gondola) (a : Nat) (v : Word) : (g.written a v).queue = g.queue := by
  unfold Gondola.written
  dsimp only
  split <;> split <;> rfl

/-- A word that neither clears nor arms is written at its node, and with it the overrides come into force. -/
theorem State.gwrite_plain (s : State) (n : Nat) {a : Nat} (v : Word) (active : Nat) (now : FTime) (hclr : a ≠ aG_CLR) (hact : a ≠ aG_ACT_HI) :
    ∃ w, s.gwrite n a v active now = (w, 0) ∧ w.offLegs = (s.updGon (regNode n a) (fun g => g.written a v)).offLegs := by
  unfold State.gwrite
  rw [if_neg hclr, if_neg hact]
  dsimp only
  split
  · exact ⟨_, rfl, State.offLegs_overAll _ _ _⟩
  · exact ⟨_, rfl, rfl⟩

/-- One word written by CFG_WR, and its answer. -/
theorem cfgWr_word (s : State) (node : Nat) (tag : BitVec 8) (bc : Bool) (now : FTime) (htakes : s.gTakes node bc = true) (addr v : Word)
    (active : BitVec 16) (hclass : s.gclass node addr.toNat = 0) (hclr : addr.toNat ≠ aG_CLR) (hact : addr.toNat ≠ aG_ACT_HI) :
    Completes (.gondolaCfgWr node bc tag addr [v] active now) s (fun t =>
      (t.gon (regNode node addr.toNat)).greg addr.toNat
        = (s.greg node addr.toNat &&& ~~~(BitVec.ofNat 32 (grw addr.toNat))) ||| (v &&& BitVec.ofNat 32 (grw addr.toNat))
      ∧ (gsh addr.toNat ≠ 0 → (t.gon (regNode node addr.toNat)).gstage addr.toNat = v &&& BitVec.ofNat 32 (gsh addr.toNat))
      ∧ (bc = true → (t.gon (baseNode node)).queue = (s.gon (baseNode node)).queue)
      ∧ (bc = false → ∃ p f, (t.gon (baseNode node)).queue = (s.gon (baseNode node)).queue ++ [ownFrame p f] ∧ f.typ = 0xA ∧ f.tag = tag
          ∧ f.body = [0, 0, 0, 0])) := by
  obtain ⟨w, hw, hlegs⟩ := s.gwrite_plain node v active.toNat (s.gtime node now) hclr hact
  have haligned : addr.toNat % 4 = 0 := State.aligned_of_gclass (s := s) (n := node) (by omega)
  have hexec : execGondolaCfgWr node bc tag addr [v] active now s = .next (w.clrAnswer node bc tag 0) := by
    have hformed : ¬(addr.toNat % 4 ≠ 0 ∨ [v] = [] ∨ 16 < [v].length) := by simp [haligned]
    have hmay : ∀ k, k ≠ 0 → ¬[addr.toNat].any (fun a => s.gclass node a == k) = true := fun k hk => by simpa [hclass] using hk.symm
    have hone : (List.range [v].length).map (fun i => addr.toNat + 4 * i) = [addr.toNat] := rfl
    unfold execGondolaCfgWr
    rw [if_neg (by simp [htakes])]
    dsimp only
    rw [if_neg hformed, hone, if_neg (hmay 2 (by decide)), if_neg (hmay 1 (by decide)), List.zip_cons_cons, List.zip_nil_left,
      List.foldl_cons, List.foldl_nil, hw]
    rfl
  have hreg := State.gon_of_offLegs (congrFun hlegs (regNode node addr.toNat))
  rw [State.gon_updGon] at hreg
  have hqueue : (w.gon (baseNode node)).queue = (s.gon (baseNode node)).queue := by
    rw [State.gon_of_offLegs (congrFun hlegs (baseNode node))]
    exact s.gon_updGon_keeps Gondola.queue _ _ _ (fun g => g.queue_written _ _)
  refine ⟨_, hexec, ?_, fun hsh => ?_, fun hbc => ?_, fun hbc => ?_⟩
  · rw [w.gon_clrAnswer_keeps (Gondola.greg · addr.toNat) _ _ _ _ _ (fun _ _ _ => rfl), hreg]
    exact Gondola.greg_written _ _ _
  · rw [w.gon_clrAnswer_keeps (Gondola.gstage · addr.toNat) _ _ _ _ _ (fun _ _ _ => rfl), hreg]
    exact Gondola.gstage_written _ v hsh
  · rw [State.clrAnswer, if_pos hbc, hqueue]
  · rw [State.clrAnswer, if_neg (by simp [hbc]), ← hqueue]
    obtain ⟨p, f, hq, htyp, htag, hbody⟩ := w.cfgRsp_shows node tag 0 []
    exact ⟨p, f, hq, htyp, htag, hbody⟩

/-- A CFG_WR that is malformed is answered so, and writes nothing. -/
theorem cfgWr_malformed (s : State) (node : Nat) (tag : BitVec 8) (now : FTime) (htakes : s.gTakes node false = true) (addr : Word)
    (data : List Word) (active : BitVec 16) (hbad : addr.toNat % 4 ≠ 0 ∨ data = [] ∨ 16 < data.length) :
    Completes (.gondolaCfgWr node false tag addr data active now) s (fun t => t = s.cfgRsp node tag 3 []) := by
  refine ⟨_, ?_, rfl⟩
  show execGondolaCfgWr node false tag addr data active now s = _
  unfold execGondolaCfgWr
  rw [if_neg (by simp [htakes])]
  dsimp only
  rw [if_pos hbad]
  rfl

/-! ### CFG_RD (R67) -/

theorem cfgRd_words (s : State) (node : Nat) (tag : BitVec 8) (htakes : s.gTakes node false = true) (addr : Word) (count : BitVec 16)
    (haddr : addr.toNat % 4 = 0) (hcount : count.toNat % 4 = 0) (hmin : 4 ≤ count.toNat) (hmax : count.toNat ≤ 64)
    (hclass : ∀ i < count.toNat / 4, s.gclass node (addr.toNat + 4 * i) ≠ 1) :
    Completes (.gondolaCfgRd node tag addr count) s (fun t =>
      t = { s with gons := t.gons } ∧ ∃ p f, (t.gon (baseNode node)).queue = (s.gon (baseNode node)).queue ++ [ownFrame p f] ∧ f.typ = 0xA
        ∧ f.tag = tag
        ∧ f.body = [0, 0, 0, 0] ++ (List.range (count.toNat / 4)).flatMap (fun i => leBytes 4 (s.gread node (addr.toNat + 4 * i)).toNat)) := by
  have hgood : ¬(addr.toNat % 4 ≠ 0 ∨ count.toNat % 4 ≠ 0 ∨ count.toNat / 4 = 0 ∨ 16 < count.toNat / 4) := by omega
  have hany : ((List.range (count.toNat / 4)).map (fun i => addr.toNat + 4 * i)).any (fun a => s.gclass node a == 1) = false := by
    rw [List.any_eq_false]
    intro a ha
    obtain ⟨i, hi, rfl⟩ := List.mem_map.mp ha
    simpa using hclass i (List.mem_range.mp hi)
  have hexec : execGondolaCfgRd node tag addr count s = .next (s.cfgRsp node tag 0
      ((List.range (count.toNat / 4)).flatMap (fun i => leBytes 4 (s.gread node (addr.toNat + 4 * i)).toNat))) := by
    unfold execGondolaCfgRd
    rw [if_neg (by simp [htakes])]
    dsimp only
    rw [if_neg hgood, hany, if_neg (by decide), List.flatMap_map]
  obtain ⟨p, f, hq, htyp, htag, hbody⟩ := s.cfgRsp_shows node tag 0
    ((List.range (count.toNat / 4)).flatMap (fun i => leBytes 4 (s.gread node (addr.toNat + 4 * i)).toNat))
  exact ⟨_, hexec, rfl, p, f, hq, htyp, htag, hbody⟩

/-! ### Staged values (R100, R122) -/

/-- The sh bits of a register take their staged value. -/
def Gondola.takeStage (g : Gondola) (a : Nat) : Gondola :=
  g.setGreg a ((g.greg a &&& ~~~(BitVec.ofNat 32 (gsh a))) ||| (g.gstage a &&& BitVec.ofNat 32 (gsh a)))

theorem Gondola.activate_eq (g : Gondola) :
    g.activate = (List.range 16).foldl (fun g c => g.takeStage (aCH_CFG c))
      ([aG_TPER, aG_TPH_LO, aG_TPH_HI, aG_DLN, aG_QW_W, aG_QW_E, aG_DPROP, aG_PLAN].foldl Gondola.takeStage g) := rfl

/-- The registers of a gondola's tick timing. -/
def tickRegs : List Nat := [aG_TPER, aG_TPH_LO, aG_TPH_HI, aG_DLN, aG_QW_W, aG_QW_E, aG_DPROP]

/-- A register shows what is staged. -/
def Gondola.inForce (g : Gondola) (a : Nat) : Prop := g.greg a = g.gstage a

@[simp] theorem Gondola.greg_setGreg (g : Gondola) (a : Nat) (v : Word) : (g.setGreg a v).greg a = v := tget_tset_same _ _ _ _
theorem Gondola.greg_setGreg_ne (g : Gondola) {a b : Nat} (v : Word) (h : b ≠ a) : (g.setGreg a v).greg b = g.greg b :=
  tget_tset_ne _ _ _ _ h

theorem Gondola.inForce_takeStage (g : Gondola) {a : Nat} (h : gsh a = 0xFFFFFFFF) : (g.takeStage a).inForce a := by
  have hall : ∀ x y : Word, (x &&& ~~~(BitVec.ofNat 32 0xFFFFFFFF)) ||| (y &&& BitVec.ofNat 32 0xFFFFFFFF) = y := fun x y => by
    have hones : BitVec.ofNat 32 0xFFFFFFFF = BitVec.allOnes 32 := by decide
    rw [hones, BitVec.not_allOnes, BitVec.and_zero, BitVec.zero_or, BitVec.and_allOnes]
  have hread := g.greg_setGreg a ((g.greg a &&& ~~~(BitVec.ofNat 32 (gsh a))) ||| (g.gstage a &&& BitVec.ofNat 32 (gsh a)))
  rw [h, hall] at hread
  rw [Gondola.takeStage, h, hall]
  exact hread

theorem Gondola.inForce_takeStage_of {g : Gondola} {a : Nat} (h : gsh a = 0xFFFFFFFF) (b : Nat) (hg : g.inForce a) : (g.takeStage b).inForce a := by
  by_cases hb : a = b
  · exact hb ▸ g.inForce_takeStage h
  · exact (g.greg_setGreg_ne _ hb).trans hg

theorem gsh_tickRegs {a : Nat} (h : a ∈ tickRegs) : gsh a = 0xFFFFFFFF := if_pos h

/-- After the activation the tick timing is the staged one. -/
theorem Gondola.inForce_activate (g : Gondola) {a : Nat} (h : a ∈ tickRegs) : g.activate.inForce a := by
  have hsh := gsh_tickRegs h
  rw [Gondola.activate_eq]
  refine List.foldlRecOn (motive := fun u : Gondola => u.inForce a) _ _ ?_ (fun u hu c _ => Gondola.inForce_takeStage_of hsh _ hu)
  exact foldl_reaches (fun u : Gondola => u.inForce a) _ (List.mem_append_left [aG_PLAN] h) (fun u => u.inForce_takeStage hsh)
    (fun u b hu => Gondola.inForce_takeStage_of hsh b hu) g

theorem Gondola.stage_activate (g : Gondola) : g.activate.stage = g.stage := by
  rw [Gondola.activate_eq]
  refine List.foldlRecOn (motive := fun u : Gondola => u.stage = g.stage) _ _ ?_ (fun u hu c _ => hu)
  exact List.foldlRecOn (motive := fun u : Gondola => u.stage = g.stage) _ _ rfl (fun u hu c _ => hu)

theorem baseNode_mem_nodesOf (n : Nat) : baseNode n ∈ nodesOf (baseNode n) := by
  by_cases h : isHome n = true
  · have hb : baseNode n = homeNode := by
      unfold baseNode
      split
      · rfl
      · next hn => exact (by simpa [isHome, hn] using h)
    rw [hb]
    decide
  · have haway : isHome n = false := by simpa using h
    rw [baseNode_away haway, nodesOf_away haway]
    exact List.mem_singleton_self n

/-- No staged value of a gondola waits. -/
def Gondola.settled (g : Gondola) : Gondola := { g with staged := false }

theorem Gondola.settled_keeps (g : Gondola) (a : Nat) :
    g.settled.staged = false ∧ g.settled.stage = g.stage ∧ (g.settled.inForce a ↔ g.inForce a) :=
  ⟨rfl, rfl, Iff.rfl⟩

/-- The staged values of a gondola come into force, and none waits. -/
def Gondola.activated (g : Gondola) : Gondola := g.activate.settled

/-- No staged value of the tick timing waits. -/
def Gondola.upToDate (g : Gondola) : Prop := g.staged = false ∧ ∀ a ∈ tickRegs, g.inForce a

theorem Gondola.upToDate_activated (g : Gondola) : g.activated.upToDate :=
  ⟨(g.activate.settled_keeps 0).1, fun a ha => (g.activate.settled_keeps a).2.2.mpr (g.inForce_activate ha)⟩

theorem Gondola.stage_activated (g : Gondola) : g.activated.stage = g.stage := (g.activate.settled_keeps 0).2.1.trans g.stage_activate

/-- The staged values of the nodes of a gondola come into force. -/
def State.activates (s : State) (ms : List Nat) : State := ms.foldl (fun s m => s.updGon m Gondola.activated) s

theorem State.upToDate_activates (s : State) {ms : List Nat} {m : Nat} (hm : m ∈ ms) : ((s.activates ms).gon m).upToDate := by
  refine foldl_reaches (fun u : State => (u.gon m).upToDate) (fun s m => s.updGon m Gondola.activated) hm (fun u => ?_) (fun u j hu => ?_) s
  · rw [State.gon_updGon]
    exact Gondola.upToDate_activated _
  · by_cases hj : m = j
    · rw [hj, State.gon_updGon]
      exact Gondola.upToDate_activated _
    · rw [u.gon_updGon_ne _ hj]
      exact hu

theorem State.stage_activates (s : State) (ms : List Nat) (m : Nat) : ((s.activates ms).gon m).stage = (s.gon m).stage :=
  foldl_keeps (fun u : State => (u.gon m).stage) _ _ _ (fun u _ => u.gon_updGon_keeps Gondola.stage _ _ _ Gondola.stage_activated)

/-- The register space of a node: what works, what is staged, and whether it waits. -/
def Gondola.space (g : Gondola) : Tbl Word × Tbl Word × Bool := (g.regs, g.stage, g.staged)

theorem Gondola.space_useImage (g : Gondola) (plan : Nat) : (g.useImage plan).space = g.space := by
  unfold Gondola.useImage
  split
  · split <;> rfl
  · rfl

theorem State.space_of_offLegs {s u : State} (h : u.offLegs = s.offLegs) (n : Nat) : (u.gon n).space = (s.gon n).space :=
  congrArg (fun x : Nat → Gondola × (Nat → GChan) => (x n).1.space) h

/-- A channel that the plan in force does not hold stops, unless there is no such channel. -/
def State.idle (s : State) (m c : Nat) : State :=
  if s.gInPlan m c ∨ ((s.gon m).chan c) = {} then s else
    s.updGon m (fun g => g.updChan c (fun ch => { ch.stopCarrier with rec_ := none, nextChange := 3, smpTk := none, nsmp := 0 }))

/-- The channels of some nodes that no plan holds stop. -/
def State.idles (s : State) (ms : List Nat) : State := ms.foldl (fun s m => (List.range 16).foldl (fun s c => s.idle m c) s) s

theorem State.space_idle (s : State) (m c n : Nat) : ((s.idle m c).gon n).space = (s.gon n).space := by
  unfold State.idle
  split
  · rfl
  · exact s.gon_updGon_keeps Gondola.space _ _ _ (fun _ => rfl)

theorem State.space_idles (s : State) (ms : List Nat) (n : Nat) : ((s.idles ms).gon n).space = (s.gon n).space :=
  foldl_keeps (fun u : State => (u.gon n).space) _ _ _ (fun _ m => foldl_keeps (fun u : State => (u.gon n).space) _ _ _ (fun v c =>
    v.space_idle m c n))

/-- What an activation does: the staged values, the channels outside the plan, the firmware image, and the overrides. -/
theorem stagedActivation_next (s : State) (node : Nat) (now : FTime) (hstaged : (s.gon (baseNode node)).staged = true)
    (hdue : (s.gon (baseNode node)).actDue (s.gtime (baseNode node) now) = true) :
    ∃ plan, execStagedActivation node now s = .next ((((s.activates (nodesOf (baseNode node))).idles (nodesOf (baseNode node))).updGon
      (baseNode node) (fun g => g.useImage plan)).overAll (baseNode node) (s.gtime (baseNode node) now)) :=
  ⟨_, if_pos ⟨hstaged, hdue⟩⟩

/-- The staged timing comes into force at its time. -/
theorem stagedActivation_gon (s : State) (node : Nat) (now : FTime) (hstaged : (s.gon (baseNode node)).staged = true)
    (hdue : (s.gon (baseNode node)).actDue (s.gtime (baseNode node) now) = true) :
    Completes (.stagedActivation node now) s (fun t => (t.gon (baseNode node)).staged = false
      ∧ ∀ a ∈ [aG_TPER, aG_TPH_LO, aG_TPH_HI, aG_DLN, aG_QW_W, aG_QW_E, aG_DPROP],
          (t.gon (baseNode node)).greg a = (s.gon (baseNode node)).gstage a) := by
  obtain ⟨plan, hexec⟩ := stagedActivation_next s node now hstaged hdue
  obtain ⟨hdone, hforce⟩ := s.upToDate_activates (baseNode_mem_nodesOf node)
  have hstage := s.stage_activates (nodesOf (baseNode node)) (baseNode node)
  generalize baseNode node = b at hexec hdone hforce hstage
  generalize s.activates (nodesOf b) = v at hexec hdone hforce hstage
  generalize hw : v.idles (nodesOf b) = w at hexec
  generalize hu : w.updGon b (fun g => g.useImage plan) = u at hexec
  have hspace : ((u.overAll b (s.gtime b now)).gon b).space = (v.gon b).space := by
    rw [State.space_of_offLegs (u.offLegs_overAll b _) b, ← hu, State.gon_updGon, Gondola.space_useImage, ← hw, v.space_idles]
  generalize u.overAll b (s.gtime b now) = t at hexec hspace
  simp only [Gondola.space, Prod.mk.injEq] at hspace
  obtain ⟨hregs, -, hwait⟩ := hspace
  refine ⟨t, hexec, hwait.trans hdone, fun a ha => ?_⟩
  calc (t.gon b).greg a = (v.gon b).greg a := by rw [Gondola.greg, Gondola.greg, hregs]
    _ = (v.gon b).gstage a := hforce a ha
    _ = (s.gon b).gstage a := by rw [Gondola.gstage, Gondola.gstage, hstage]

end Sys2Proof.Machine
end

section
/-! SUPPORT. What each bit of G_CLR clears, the forcing of a channel, and the settling of the statement on the register space. -/
open Sys2Proof Sys2Proof.Machine
namespace Sys2Proof.Machine

/-! ### G_CLR.FORCE (R113, R246) -/

theorem mem_idx {n : Nat} {p : Nat → Bool} {i : Nat} : i ∈ idx n p ↔ i < n ∧ p i = true := by rw [idx, List.mem_filter, List.mem_range]

/-- The channels of a gondola away from the device that are released. -/
theorem State.forced_releases (s : State) {n : Nat} (haway : isHome n = false) (active : Nat) (cs : List Nat) (c : Nat) :
    (((cs.foldl (fun s c => s.releaseCh n c active) s).gon n).chan c).forced
      = if c ∈ cs ∧ active.testBit c = false then false else ((s.gon n).chan c).forced := by
  induction cs generalizing s with
  | nil => simp
  | cons d cs ih =>
    have hstep : (((s.releaseCh n d active).gon n).chan c).forced
        = if c = d ∧ active.testBit c = false then false else ((s.gon n).chan c).forced := by
      have hn : ¬isHome n = true := by simp [haway]
      unfold State.releaseCh
      rw [if_neg hn, State.causeActive, if_neg hn]
      by_cases hd : active.testBit d = true
      · have hheld : ¬(c = d ∧ active.testBit c = false) := by
          rintro ⟨rfl, hc⟩
          simp [hc] at hd
        rw [if_pos hd, if_neg hheld]
      · rw [if_neg hd, State.gon_updGon]
        by_cases hc : c = d
        · subst hc
          rw [Gondola.chan_updChan, if_pos ⟨rfl, by simpa using hd⟩]
        · rw [Gondola.chan_updChan_ne _ _ hc, if_neg fun h => hc h.1]
    rw [List.foldl_cons, ih, hstep]
    by_cases hc : c = d
    · subst hc
      by_cases ha : active.testBit c = false <;> simp [ha]
    · simp [hc]

theorem State.offGons_releaseCh (s : State) {n : Nat} (haway : isHome n = false) (c active : Nat) :
    (s.releaseCh n c active).offGons = s.offGons := by
  unfold State.releaseCh
  rw [if_neg (by simp [haway])]
  split <;> rfl

/-- Away from the device each selected channel whose cause is gone is released. -/
theorem clrForce_away (s : State) (node : Nat) (tag : BitVec 8) (bc : Bool) (now : FTime) (htakes : s.gTakes node bc = true)
    (chans active : BitVec 16) (haway : isHome node = false) :
    Completes (.gClrForce node bc tag chans active now) s (fun t => t = { s with gons := t.gons } ∧ ∀ c < 16,
      ((t.gon node).chan c).forced = if chans.getLsbD c ∧ ¬ active.getLsbD c then false else ((s.gon node).chan c).forced) := by
  generalize hw : (idx 16 (fun c => chans.toNat.testBit c)).foldl (fun s c => s.releaseCh node c active.toNat) s = w
  have hexec : ∃ status, execGClrForce node bc tag chans active now s = .next (w.clrAnswer node bc tag status) := by
    unfold execGClrForce
    rw [if_neg (by simp [htakes])]
    dsimp only
    rw [State.gview_away _ _ haway, ← hw]
    exact ⟨_, rfl⟩
  obtain ⟨status, hexec⟩ := hexec
  have hws : w = { s with gons := w.gons } := by
    rw [← hw]
    exact State.eq_of_offGons (foldl_keeps State.offGons _ _ _ (fun u c => u.offGons_releaseCh haway c _))
  refine ⟨_, hexec, State.gons_trans (w.clrAnswer_frame _ _ _ _) hws, fun c hc => ?_⟩
  rw [w.gon_clrAnswer_keeps (fun g => (g.chan c).forced) _ _ _ _ _ (fun _ _ _ => rfl), ← hw, s.forced_releases haway]
  simp only [mem_idx, hc, true_and, BitVec.testBit_toNat, Bool.not_eq_true]

/-- A latch of the home gondola that covers channel c is cleared once its input is inactive (R246). -/
def State.freeLatch (s : State) (c i : Nat) : State :=
  if s.fltLatch i && !s.fltIn.getLsbD i && s.latchOf homeNode c i then s.clrLatch i else s

theorem State.releaseCh_home (s : State) (c active : Nat) :
    s.releaseCh homeNode c active = (List.range 4).foldl (fun s i => s.freeLatch c i) s := rfl

theorem State.offRegs_freeLatch (s : State) (c i : Nat) : (s.freeLatch c i).offRegs = s.offRegs := by
  unfold State.freeLatch
  split <;> rfl

theorem State.swLatch_freeLatch (s : State) (c i : Nat) : (s.freeLatch c i).swLatch = s.swLatch := by
  unfold State.freeLatch
  split
  · rw [State.swLatch, State.flag, State.clrLatch, State.fget_fset_field _ _ _ _ _ (by decide)]
    rfl
  · rfl

theorem State.fltLatch_clrLatch (s : State) (i : Nat) {j : Nat} (hj : j < 4) :
    (s.clrLatch i).fltLatch j = (s.fltLatch j && decide (j ≠ i)) := by
  rw [State.fltLatch, State.clrLatch, State.fget_fset _ _ _ _ (by decide), Nat.testBit_mod_two_pow, testBit_setBit_false]
  simp only [fPGN_HSTAT_LATCH, hj, decide_true, Bool.true_and]
  rfl

/-- A latch after another one, or itself, is freed. -/
theorem State.fltLatch_freeLatch (s : State) (c i : Nat) {j : Nat} (hj : j < 4) :
    (s.freeLatch c i).fltLatch j = (s.fltLatch j && !(decide (j = i) && !s.fltIn.getLsbD j && s.latchOf homeNode c j)) := by
  unfold State.freeLatch
  by_cases hij : j = i
  · subst hij
    split
    · next h =>
      simp only [Bool.and_eq_true] at h
      simp [s.fltLatch_clrLatch j hj, h]
    · next h =>
      cases hl : s.fltLatch j
      · rfl
      · have hstays : (!s.fltIn.getLsbD j && s.latchOf homeNode c j) = false := by simpa [hl] using h
        simp only [decide_true, Bool.true_and, hstays, Bool.not_false]
  · split
    · rw [s.fltLatch_clrLatch i hj]
      simp [hij]
    · simp [hij]

/-- Which latch covers which channel stands in the working copies. -/
theorem State.latchOf_of_offRegs {s u : State} (h : u.offRegs = s.offRegs) (c i : Nat) : u.latchOf homeNode c i = s.latchOf homeNode c i := by
  rw [State.eq_of_offRegs h]
  rfl

theorem State.fltIn_of_offRegs {s u : State} (h : u.offRegs = s.offRegs) : u.fltIn = s.fltIn := by
  rw [State.eq_of_offRegs h]

/-- The latches that cover some channels of the home gondola are freed. -/
def State.freeLatches (s : State) (cs : List Nat) : State := cs.foldl (fun s c => (List.range 4).foldl (fun s i => s.freeLatch c i) s) s

/-- What each freeing of a latch keeps stands after them all. -/
theorem State.freeLatches_keeps {P : State → Prop} (s : State) (cs : List Nat) (hs : P s) (h : ∀ u c i, P u → P (u.freeLatch c i)) :
    P (s.freeLatches cs) :=
  List.foldlRecOn (motive := P) _ _ hs fun _ hu c _ => List.foldlRecOn (motive := P) _ _ hu fun v hv i _ => h v c i hv

theorem State.offRegs_freeLatches (s : State) (cs : List Nat) : (s.freeLatches cs).offRegs = s.offRegs :=
  State.freeLatches_keeps (P := fun u => u.offRegs = s.offRegs) s cs rfl (fun u c i hu => (u.offRegs_freeLatch c i).trans hu)

theorem State.swLatch_freeLatches (s : State) (cs : List Nat) : (s.freeLatches cs).swLatch = s.swLatch :=
  State.freeLatches_keeps (P := fun u => u.swLatch = s.swLatch) s cs rfl (fun u c i hu => (u.swLatch_freeLatch c i).trans hu)

/-- A latch whose input is inactive is cleared with a channel that it covers. -/
theorem State.fltLatch_freeLatches (s : State) {cs : List Nat} {c i : Nat} (hc : c ∈ cs) (hi : i < 4) (hin : s.fltIn.getLsbD i = false)
    (hof : s.latchOf homeNode c i = true) : (s.freeLatches cs).fltLatch i = false := by
  have hkeep : ∀ (u : State) c' j, (u.offRegs = s.offRegs → u.fltLatch i = false) → (u.freeLatch c' j).offRegs = s.offRegs →
      (u.freeLatch c' j).fltLatch i = false := fun u c' j hu h => by
    rw [u.offRegs_freeLatch] at h
    rw [u.fltLatch_freeLatch c' j hi, hu h, Bool.false_and]
  refine foldl_reaches (fun u : State => u.offRegs = s.offRegs → u.fltLatch i = false) _ hc (fun u => ?_) (fun _ c' hu => ?_) s
    (s.offRegs_freeLatches cs)
  · refine foldl_reaches (fun u : State => u.offRegs = s.offRegs → u.fltLatch i = false) (fun s i => s.freeLatch c i) (List.mem_range.mpr hi)
      (fun v h => ?_) (fun v j hv => hkeep v c j hv) u
    rw [v.offRegs_freeLatch] at h
    rw [v.fltLatch_freeLatch c i hi, State.fltIn_of_offRegs h, State.latchOf_of_offRegs h, hin, hof]
    simp
  · exact List.foldlRecOn (motive := fun v : State => v.offRegs = s.offRegs → v.fltLatch i = false) _ _ hu (fun v hv j _ => hkeep v c' j hv)

/-- A latch whose input is active stays. -/
theorem State.fltLatch_freeLatches_active (s : State) (cs : List Nat) {i : Nat} (hi : i < 4) (hin : s.fltIn.getLsbD i = true) :
    (s.freeLatches cs).fltLatch i = s.fltLatch i := by
  refine (State.freeLatches_keeps (P := fun u => u.fltIn = s.fltIn ∧ u.fltLatch i = s.fltLatch i) s cs ⟨rfl, rfl⟩ fun u c j hu => ?_).2
  obtain ⟨huin, hu⟩ := hu
  refine ⟨(State.fltIn_of_offRegs (u.offRegs_freeLatch c j)).trans huin, ?_⟩
  rw [u.fltLatch_freeLatch c j hi, huin, hin, hu]
  simp

/-- The view of the legs leaves the fields of PGN_HSTAT below BALON. -/
theorem State.fget_homeView (s : State) (t : FTime) {b : Bits} (hb : b.lo + b.w ≤ 24) :
    (s.homeView t).fget rPGN_HSTAT b = s.fget rPGN_HSTAT b := by
  have hne : ∀ j, rPGN_HSTAT ≠ rPGN_LEGST j := fun j => by simp only [rPGN_HSTAT, rPGN_LEGST]; omega
  unfold State.homeView
  dsimp only
  refine (foldl_keeps (fun u : State => u.fget rPGN_HSTAT b) _ _ _ fun u c => u.fget_fset_field _ _ _ _ (.inl (by dsimp only; omega))).trans ?_
  refine (foldl_keeps (fun u : State => u.fget rPGN_HSTAT b) _ _ _ fun u l => ?_).trans ?_
  · unfold State.showSpare
    split
    · exact u.fget_fset_reg _ _ _ (hne _)
    · rfl
  refine (foldl_keeps (fun u : State => u.fget rPGN_HSTAT b) _ _ _ fun u c => ?_).trans ?_
  · refine foldl_keeps (fun u : State => u.fget rPGN_HSTAT b) _ _ _ fun v k => ?_
    dsimp only
    split
    · exact v.fget_fset_reg _ _ _ (hne _)
    · rfl
  exact foldl_keeps (fun u : State => u.fget rPGN_HSTAT b) _ _ _ fun u j => congrArg (bget · b) (u.rget_rset_ne _ (hne j))

/-- The home gondola: what releases its channels, and where their legs are shown. -/
theorem State.clrForce_home (s : State) (chans active : Nat) :
    (s.clrForce homeNode chans active).1 = s.freeLatches (idx 16 (fun c => chans.testBit c)) := rfl
theorem State.gview_home (s : State) (t : FTime) : s.gview homeNode t = s.homeView t := if_pos (by decide)

/-- At home each latch that covers a selected channel and whose input is inactive is cleared, and no other. -/
theorem clrForce_home (s : State) (tag : BitVec 8) (bc : Bool) (now : FTime) (chans active : BitVec 16) :
    Completes (.gClrForce homeNode bc tag chans active now) s (fun t => t.swLatch = s.swLatch ∧ ∀ i < 4, s.fltLatch i = true →
        (s.fltIn.getLsbD i = false →
          (∃ c < 16, chans.getLsbD c = true ∧ ∃ k < s.gLegs homeNode c, s.fltCovers i (s.homeLeg c k) = true) → t.fltLatch i = false)
        ∧ (s.fltIn.getLsbD i = true → t.fltLatch i = true)) := by
  have htakes : s.gTakes homeNode bc = true := by
    rw [State.gTakes, State.gpos, if_pos (by decide)]
    simp
  generalize hcs : idx 16 (fun c => chans.toNat.testBit c) = cs
  have hexec : ∃ status at_, execGClrForce homeNode bc tag chans active now s
      = .next (((s.freeLatches cs).homeView at_).clrAnswer homeNode bc tag status) := by
    unfold execGClrForce
    rw [if_neg (by simp [htakes]), ← hcs]
    dsimp only
    rw [State.gview_home, State.clrForce_home]
    exact ⟨_, _, rfl⟩
  obtain ⟨status, at_, hexec⟩ := hexec
  generalize ht : ((s.freeLatches cs).homeView at_).clrAnswer homeNode bc tag status = t at hexec
  have hshown : ∀ b : Bits, b.lo + b.w ≤ 24 → t.fget rPGN_HSTAT b = (s.freeLatches cs).fget rPGN_HSTAT b := fun b hb => by
    rw [← ht, State.fget_clrAnswer, State.fget_homeView _ at_ hb]
  have hlatch : ∀ i, t.fltLatch i = (s.freeLatches cs).fltLatch i := fun i => by rw [State.fltLatch, State.fltLatch, hshown _ (by decide)]
  refine ⟨t, hexec, ?_, fun i hi hset => ⟨?_, fun hin => ?_⟩⟩
  · rw [← s.swLatch_freeLatches cs, State.swLatch, State.swLatch, State.flag, State.flag, hshown _ (by decide)]
  · rintro hin ⟨c, hc, hsel, k, hk, hcov⟩
    have hof : s.latchOf homeNode c i = true := by
      rw [State.latchOf, if_neg (by decide), List.any_eq_true]
      exact ⟨k, List.mem_range.mpr hk, hcov⟩
    rw [hlatch]
    exact s.fltLatch_freeLatches (hcs ▸ mem_idx.mpr ⟨hc, by rw [BitVec.testBit_toNat]; exact hsel⟩) hi hin hof
  · rw [hlatch, s.fltLatch_freeLatches_active cs hi hin, hset]

/-! ### G_CLR.SIL, RIP and CNT (R110, R121, R122) -/

theorem clrSil_gon (s : State) (node : Nat) (tag : BitVec 8) (bc : Bool) (htakes : s.gTakes node bc = true) :
    Completes (.gClrSil node bc tag) s (fun t => t = { s with gons := t.gons } ∧ (t.gon (baseNode node)).sil = false
      ∧ (t.gon (baseNode node)).missRun = 0) := by
  refine ⟨_, congrArg Host.Outcome.next (if_pos htakes), State.gons_trans (State.clrAnswer_frame _ _ _ _ _) rfl, ?_, ?_⟩
  · rw [State.gon_clrAnswer_keeps Gondola.sil _ _ _ _ _ _ (fun _ _ _ => rfl), State.clrSil, State.gon_updGon]
  · rw [State.gon_clrAnswer_keeps Gondola.missRun _ _ _ _ _ _ (fun _ _ _ => rfl), State.clrSil, State.gon_updGon]

theorem clrRip_gon (s : State) (node : Nat) (tag : BitVec 8) (bc : Bool) (htakes : s.gTakes node bc = true) (hrip : s.hasRip node = true) :
    Completes (.gClrRip node bc tag) s (fun t => t = { s with gons := t.gons }
      ∧ (t.gon node).ripLatch = if (s.gon node).rip10 then false else (s.gon node).ripLatch) := by
  have hclr : (s.clrRip node).1 = { s with gons := (s.clrRip node).1.gons }
      ∧ ((s.clrRip node).1.gon node).ripLatch = if (s.gon node).rip10 then false else (s.gon node).ripLatch := by
    unfold State.clrRip
    rw [if_neg (by simp [hrip])]
    by_cases h10 : (s.gon node).rip10 = true
    · rw [if_pos h10, if_pos h10, State.gon_updGon]
      exact ⟨rfl, rfl⟩
    · rw [if_neg h10, if_neg h10]
      exact ⟨rfl, rfl⟩
  refine ⟨_, if_neg (by simp [htakes]), State.gons_trans (State.clrAnswer_frame _ _ _ _ _) hclr.1, ?_⟩
  rw [State.gon_clrAnswer_keeps Gondola.ripLatch _ _ _ _ _ _ (fun _ _ _ => rfl), hclr.2]

/-- Registers that are set to 0 read so. -/
theorem Gondola.greg_foldl_zero (g : Gondola) (f : Nat → Nat) {ks : List Nat} {k : Nat} (hk : k ∈ ks) :
    (ks.foldl (fun (g : Gondola) k => g.setGreg (f k) 0) g).greg (f k) = 0 := by
  refine foldl_reaches (fun u : Gondola => u.greg (f k) = 0) (fun u k => u.setGreg (f k) 0) hk (fun u => u.greg_setGreg _ _)
    (fun u j hu => ?_) g
  by_cases h : f k = f j
  · rw [h, Gondola.greg_setGreg]
  · exact (u.greg_setGreg_ne 0 h).trans hu

/-- The counters of a node set to 0. -/
def Gondola.clearCnt (g : Gondola) : Gondola :=
  (List.range 16).foldl (fun (g : Gondola) c => g.setGreg (aCH_CNT c) 0) ((List.range 16).foldl (fun (g : Gondola) k => g.setGreg (aG_CNT k) 0) g)

theorem Gondola.greg_clearCnt (g : Gondola) {k : Nat} (hk : k < 16) :
    g.clearCnt.greg (aG_CNT k) = 0 ∧ g.clearCnt.greg (aCH_CNT k) = 0 := by
  refine ⟨?_, Gondola.greg_foldl_zero _ aCH_CNT (List.mem_range.mpr hk)⟩
  refine List.foldlRecOn (motive := fun u : Gondola => u.greg (aG_CNT k) = 0) _ _ (g.greg_foldl_zero aG_CNT (List.mem_range.mpr hk))
    (fun u hu c _ => ?_)
  exact (u.greg_setGreg_ne 0 (by simp only [aG_CNT, aCH_CNT]; omega)).trans hu

theorem State.clrCnt_eq (s : State) (n : Nat) : s.clrCnt n = (nodesOf n).foldl (fun s m => s.updGon m Gondola.clearCnt) s := rfl

theorem State.greg_clrCnt (s : State) {n m k : Nat} (hm : m ∈ nodesOf n) (hk : k < 16) :
    ((s.clrCnt n).gon m).greg (aG_CNT k) = 0 ∧ ((s.clrCnt n).gon m).greg (aCH_CNT k) = 0 := by
  have hdo : ∀ u : State, ((u.updGon m Gondola.clearCnt).gon m).greg (aG_CNT k) = 0
      ∧ ((u.updGon m Gondola.clearCnt).gon m).greg (aCH_CNT k) = 0 :=
    fun u => by rw [State.gon_updGon]; exact Gondola.greg_clearCnt _ hk
  rw [State.clrCnt_eq]
  refine foldl_reaches (fun u : State => (u.gon m).greg (aG_CNT k) = 0 ∧ (u.gon m).greg (aCH_CNT k) = 0) _ hm hdo (fun u j hu => ?_) s
  by_cases hj : m = j
  · exact hj ▸ hdo u
  · rw [u.gon_updGon_ne _ hj]
    exact hu

theorem clrCnt_gon (s : State) (node : Nat) (tag : BitVec 8) (bc : Bool) (htakes : s.gTakes node bc = true) :
    Completes (.gClrCnt node bc tag) s (fun t => t = { s with gons := t.gons } ∧ ∀ m ∈ nodesOf node,
      ∀ k < 16, (t.gon m).greg (aG_CNT k) = 0 ∧ (t.gon m).greg (aCH_CNT k) = 0) := by
  have hframe : (s.clrCnt node).offGons = s.offGons := foldl_keeps State.offGons _ _ _ (fun _ _ => rfl)
  refine ⟨_, congrArg Host.Outcome.next (if_pos htakes),
    State.gons_trans (State.clrAnswer_frame _ _ _ _ _) (State.eq_of_offGons hframe), fun m hm k hk => ?_⟩
  rw [State.gon_clrAnswer_keeps (Gondola.greg · (aG_CNT k)) _ _ _ _ _ _ (fun _ _ _ => rfl),
    State.gon_clrAnswer_keeps (Gondola.greg · (aCH_CNT k)) _ _ _ _ _ _ (fun _ _ _ => rfl)]
  exact s.greg_clrCnt hm hk

/-! ### FAULT_FORCING (R112) -/

/-- A protection that trips away from the device forces its channel, whose legs take their SAFE levels. -/
theorem faultForcing_away (s : State) (node : Nat) (now : FTime) (ch : Fin 16) (haway : isHome node = false) :
    Completes (.faultForcing node ch now) s (fun t => ((t.gon node).chan ch).forced = true
        ∧ t = { s with gons := t.gons } ∧ (∀ m ≠ node, t.gon m = s.gon m)
        ∧ (s.ripOff node = false → ∀ k < s.gLegs node ch, (((t.gon node).chan ch).leg k).last
            = safeLevel (bget (s.greg node (aCH_CFG ch)) ⟨4 + 2 * k, 2⟩))) := by
  generalize hu : (s.gcount node gcFORCE).updGon node (fun g => g.updChan ch (fun x => { x with forced := true })) = u
  have hexec : execFaultForcing node ch now s = .next (u.overCh node ch (u.gtime node now)) := by
    rw [← hu]
    exact if_neg (by simp [haway])
  have hug : u.gon node = ((s.gon node).countN gcFORCE 1).updChan ch (fun x => { x with forced := true }) := by
    rw [← hu, State.gon_updGon, State.gcount, baseNode_away haway, State.gon_updGon]
  have hforced : ((u.gon node).chan ch).forced = true := by rw [hug, Gondola.chan_updChan]
  have hapart : u.apart node = s.apart node := by
    rw [← hu, State.apart_updGon, State.gcount, baseNode_away haway, State.apart_updGon]
  obtain ⟨hframe, hothers⟩ := State.eq_of_apart ((u.apart_overCh node ch (u.gtime node now)).trans hapart)
  have hover := congrFun (u.offLegs_overCh node ch (u.gtime node now)) node
  refine ⟨_, hexec, (State.forced_of_offLegs hover ch).trans hforced, hframe, hothers, fun hrip k hk => ?_⟩
  obtain ⟨hhas, hlegs⟩ := State.legs_away (s := s) (u := u) haway (by rw [hug]; rfl) (by rw [hug]; rfl)
  have hcfg : u.greg node (aCH_CFG ch) = s.greg node (aCH_CFG ch) := by
    rw [State.greg, State.greg, regNode_away _ haway, hug]
    exact tget_tset_ne _ _ _ _ (by simp only [aCH_CFG, gcFORCE]; omega)
  have hurip : u.ripOff node = false := by
    rw [← hrip, State.ripOff, State.ripOff, hhas, hug]
    rfl
  refine u.chHeld_overCh haway ch (u.gtime node now) k ?_ _ ?_
  · rw [State.gLegs_congr haway hover, hlegs]
    exact hk
  · rw [State.legOver_congr haway hover, State.legOver_forced haway hurip hforced, hcfg]

end Sys2Proof.Machine

/-- Settles O19: words written, read, staged and activated, what each bit of G_CLR clears, and the forcing of a channel. -/
theorem gondolaConfigRows : Obligations.GondolaConfigRows := by
  unfold Obligations.GondolaConfigRows
  intro s node tag bc now htakes
  refine ⟨cfgWr_word s node tag bc now htakes, ?_, ?_, stagedActivation_gon s node now,
    fun chans active => ⟨clrForce_away s node tag bc now htakes chans active, clrForce_home s tag bc now chans active⟩,
    clrSil_gon s node tag bc htakes, clrRip_gon s node tag bc htakes, clrCnt_gon s node tag bc htakes,
    fun ch => ⟨faultForcing_away s node now ch, fun hhome => ⟨_, if_pos hhome, rfl⟩⟩⟩
  · rintro addr data active hbad rfl
    exact cfgWr_malformed s node tag now htakes addr data active hbad
  · rintro addr count haddr hcount hmin hmax rfl hclass
    exact cfgRd_words s node tag htakes addr count haddr hcount hmin hmax hclass
end

section
/-! SUPPORT. What a mailbox request leaves as it was for the object that it names, and the settling of the statement on the objects. -/
open Sys2Proof Sys2Proof.Machine
namespace Sys2Proof.Machine

/-! ### What a request leaves (R443, R444) -/

section
variable (s : State) (set code op : Nat) (i : BitVec 14) (ops : List Word)

@[simp] theorem State.asked_ax (n : Nat) : (s.asked set code op i ops).ax n = s.ax n := by rw [State.asked_regs]; rfl
@[simp] theorem State.asked_now : (s.asked set code op i ops).now = s.now := by rw [State.asked_regs]; rfl
@[simp] theorem State.asked_rmSlot (r : Nat) : (s.asked set code op i ops).rmSlot r = s.rmSlot r := by rw [State.asked_regs]; rfl
@[simp] theorem State.asked_ce (j : Nat) : (s.asked set code op i ops).ce j = s.ce j := by rw [State.asked_regs]; rfl
@[simp] theorem State.asked_fin (n : Nat) : (s.asked set code op i ops).fin_ n = s.fin_ n := by rw [State.asked_regs]; rfl
@[simp] theorem State.asked_wcopy (o : Nat) : (s.asked set code op i ops).wcopy o = s.wcopy o := by rw [State.asked_regs]; rfl
@[simp] theorem State.asked_wfld (o : Nat) (b : Sh) : (s.asked set code op i ops).wfld o b = s.wfld o b := by rw [State.asked_regs]; rfl
@[simp] theorem State.asked_fbOwn (n : Nat) : (s.asked set code op i ops).fbOwn n = s.fbOwn n := by rw [State.asked_regs]; rfl
@[simp] theorem State.asked_fbModulo (n : Nat) : (s.asked set code op i ops).fbModulo n = s.fbModulo n := by rw [State.asked_regs]; rfl
@[simp] theorem State.asked_fbM (n : Nat) : (s.asked set code op i ops).fbM n = s.fbM n := by rw [State.asked_regs]; rfl
@[simp] theorem State.asked_actPos (n : Nat) : (s.asked set code op i ops).actPos n = s.actPos n := by rw [State.asked_regs]; rfl
@[simp] theorem State.asked_actSpd (n : Nat) : (s.asked set code op i ops).actSpd n = s.actSpd n := by rw [State.asked_regs]; rfl

/-- A request changes no register below the mailbox's block. -/
theorem State.rget_asked {o : Nat} (h : o < 0xE00000) : (s.asked set code op i ops).rget o = s.rget o := by
  have hreq : o ≠ rMBX_REQ set := by simp only [rMBX_REQ]; omega
  have hstat : o ≠ rMBX_STAT set := by simp only [rMBX_STAT]; omega
  have hdata : ∀ j, 0 ≤ j → j < 0 + ops.length → o ≠ rMBX_DATA set j := fun j _ _ => by simp only [rMBX_DATA]; omega
  rw [State.asked, State.mbxBusy, State.rget_fset_ne _ _ _ hstat, State.rget_fset_ne _ _ _ hstat, State.rget_rset_ne _ _ hreq,
    State.rget_mbxData _ _ _ _ _ hdata]

theorem State.fget_asked {o : Nat} (h : o < 0xE00000) (b : Bits) : (s.asked set code op i ops).fget o b = s.fget o b := by
  rw [State.fget, s.rget_asked set code op i ops h]; rfl
theorem State.flag_asked {o : Nat} (h : o < 0xE00000) (b : Bits) : (s.asked set code op i ops).flag o b = s.flag o b := by
  rw [State.flag, s.fget_asked set code op i ops h]; rfl

end

/-- A register with a shadow lies below the mailbox's block (R450). -/
theorem lt_mailbox_of_sh {o : Nat} {r : RegRow} (hr : regRow o = some r) (hsh : r.sh ≠ 0) : o < 0xE00000 := by
  have hmem : r ∈ regRows (o / 0x100000) := List.mem_of_find?_eq_some hr
  have hmbx : ∀ q ∈ regRows 0xE, q.sh = 0 := by decide
  by_contra hge
  obtain he | hgt : o / 0x100000 = 0xE ∨ 0xF ≤ o / 0x100000 := by omega
  · exact hsh (hmbx r (he ▸ hmem))
  · obtain ⟨k, hk⟩ := Nat.exists_eq_add_of_le' hgt
    rw [hk] at hmem
    exact absurd hmem List.not_mem_nil

/-! ### Objects that read, and objects that are refused -/

/-- The state that an object leaves, once its answer is stored (R444). -/
def State.withAns (u : State) (A : Tbl (Option MbxAns)) (F : Nat) : State := { u with mbxAns := A, freeCtr := F }

@[simp] theorem State.ax_withAns (u : State) (A : Tbl (Option MbxAns)) (F n : Nat) : (u.withAns A F).ax n = u.ax n := rfl
@[simp] theorem State.flag_withAns (u : State) (A : Tbl (Option MbxAns)) (F o : Nat) (b : Bits) : (u.withAns A F).flag o b = u.flag o b := rfl

/-- What holds of the state that the object leaves holds when the request is complete. -/
theorem completes_mbx {c : Instr} {s : State} {set : Nat} {via : RegPath} {code op : Nat} {i : BitVec 14} {ops : List Word}
    {perform : State → MbxRes} {u : State} {status : Nat} {data : List Word} {Q : State → Prop}
    (hx : exec c s = .next (s.mbx set via code op i ops perform)) (h : s.mbxFree set via)
    (hp : perform (s.asked set code op i ops) = ⟨u, status, data⟩) (hq : ∀ A F, Q (u.withAns A F)) :
    Completes c s (fun t => t.answers set status data ∧ Q t) := by
  have ha := State.mbx_answers s set via code op i ops perform h
  rw [hp] at ha
  refine ⟨_, hx, ha, ?_⟩
  rw [State.mbx_eq _ _ _ _ _ _ _ _ h, hp]
  exact hq _ _

/-- A request that its object answers without a change of state leaves all but registers as it was. -/
theorem completes_read {α : Type} (p : State → α) {c : Instr} {s : State} {set : Nat} {via : RegPath} {code op : Nat} {i : BitVec 14}
    {ops : List Word} {perform : State → MbxRes} {status : Nat} {data : List Word}
    (hx : exec c s = .next (s.mbx set via code op i ops perform)) (h : s.mbxFree set via)
    (hp : perform (s.asked set code op i ops) = ⟨s.asked set code op i ops, status, data⟩)
    (hkeep : ∀ R A F, p { s with regs := R, mbxAns := A, freeCtr := F } = p s) :
    Completes c s (fun t => t.answers set status data ∧ p t = p s) :=
  completes_mbx hx h hp fun A F => by rw [State.asked_regs]; exact hkeep _ A F

/-- The answer of a request, whatever its object does to the state. -/
theorem completes_answers {c : Instr} {s : State} {set : Nat} {via : RegPath} {code op : Nat} {i : BitVec 14} {ops : List Word}
    {perform : State → MbxRes} {u : State} {status : Nat} {data : List Word}
    (hx : exec c s = .next (s.mbx set via code op i ops perform)) (h : s.mbxFree set via)
    (hp : perform (s.asked set code op i ops) = ⟨u, status, data⟩) : Completes c s (fun t => t.answers set status data) := by
  obtain ⟨t, ht, ha, -⟩ := completes_mbx (Q := fun _ => True) hx h hp fun _ _ => trivial
  exact ⟨t, ht, ha⟩

theorem axisIdx_out {i : BitVec 14} (hi : 256 ≤ i.toNat) (f : Nat → MbxRes) (s : State) : axisIdx i f s = mbxRes s mbxRANGE := if_pos hi
theorem axisIdx_in {i : BitVec 14} (hi : i.toNat < 256) (f : Nat → MbxRes) (s : State) : axisIdx i f s = f i.toNat := if_neg (by omega)

theorem completes_axisRange {c : Instr} {s : State} {set : Nat} {via : RegPath} {code op : Nat} {i : BitVec 14} {ops : List Word}
    {f : State → Nat → MbxRes} (hx : exec c s = .next (s.mbx set via code op i ops (fun u => axisIdx i (f u) u))) (h : s.mbxFree set via)
    (hi : 256 ≤ i.toNat) : Completes c s (fun t => t.answers set mbxRANGE []) := completes_answers hx h (axisIdx_out hi _ _)

/-- An axis that loses its reference shows it (R132). -/
theorem State.refd_unref (s : State) (n : Nat) (hn : n < 256) : (s.unref n).flag (rFBK_STAT n) fFBK_STAT_REFD = false := by
  have hne : rFBK_STAT n ≠ rAXC_STATE n := by simp only [rFBK_STAT, rAXC_STATE]; omega
  have hrefd : ∀ u : State, (u.fset (rFBK_STAT n) fFBK_STAT_REFD 0).flag (rFBK_STAT n) fFBK_STAT_REFD = false := fun u => by
    rw [State.flag, State.fget_fset _ _ _ _ (by decide)]; rfl
  unfold State.unref
  dsimp only
  split
  · rw [State.flag, State.fget_fset_reg _ _ _ _ hne]
    exact hrefd _
  · exact hrefd _

@[simp] theorem State.ax_fset (s : State) (o : Nat) (b : Bits) (x n : Nat) : (s.fset o b x).ax n = s.ax n := rfl

/-- The state in which an axis is to take a position at its next tick boundary (R144). -/
def State.setPosDue (s : State) (n : Nat) (p : BitVec 64) : State :=
  (s.updAx n (fun a => { a with setPos := some p })).raise (rFBK_STAT n) fFBK_STAT_SHIFT_PEND

theorem State.setPosDue_shows (s : State) (n : Nat) (p : BitVec 64) :
    ((s.setPosDue n p).ax n).setPos = some p ∧ (s.setPosDue n p).flag (rFBK_STAT n) fFBK_STAT_SHIFT_PEND = true := by
  refine ⟨?_, State.flag_raise _ _ _ (by decide) (by decide)⟩
  rw [State.setPosDue, State.raise, State.ax_fset, State.ax_updAx]

/-- The state in which the oldest record of an axis's latch queue has been taken (R304). -/
def State.latTaken (s : State) (n : Nat) (rest : List LatRec) : State := (s.updAx n (fun a => { a with lat := rest })).latShow n

theorem State.lat_latTaken (s : State) (n : Nat) (rest : List LatRec) : ((s.latTaken n rest).ax n).lat = rest := by
  rw [State.latTaken, State.latShow, State.fsetb, State.ax_fset, State.ax_fset, State.ax_updAx]

/-! ### Objects of an axis (R132, R138-R144, R162, R212, R255-R275, R301) -/

section
variable {s : State} {set : Fin 4} {via : RegPath} (h : s.mbxFree set via) {i : BitVec 14} (hi : i.toNat < 256)
include h hi

theorem fbPos_completes : Completes (.fbPos set via i) s (fun t => t.answers set mbxOK
    (words64 (s.actPos i.toNat) ++ words64 (s.actSpd i.toNat) ++ [(s.ax i.toNat).turns] ++ words64 (s.ax i.toNat).spdMid
      ++ [BitVec.ofNat 32 ((if s.flag (rFBK_STAT i.toNat) fFBK_STAT_REFD then 2 ^ 0 else 0)
        + (if s.flag (rFBK_STAT i.toNat) fFBK_STAT_STILL then 2 ^ 1 else 0)
        + (if s.flag (rFBK_STAT i.toNat) fFBK_STAT_PLIM_NOW then 2 ^ 2 else 0)
        + (if s.flag (rFBK_STAT i.toNat) fFBK_STAT_SHIFT_PEND then 2 ^ 3 else 0))]) ∧ t.axes = s.axes) := by
  have hstat : rFBK_STAT i.toNat < 0xE00000 := by simp only [rFBK_STAT]; omega
  refine completes_read State.axes rfl h ?_ fun _ _ _ => rfl
  simp only [mboFbPos, axisIdx_in hi, State.asked_actPos, State.asked_actSpd, State.asked_ax, State.flag_asked _ _ _ _ _ _ hstat]

theorem fbSetpos_completes (p : BitVec 64) :
    (p.toNat % 65536 = 0 ∧ (s.fbModulo i.toNat = true → 0 ≤ p.toInt ∧ p.toInt < s.fbM i.toNat * 65536) →
      Completes (.fbSetpos set via i p) s (fun t => t.answers set mbxOK [] ∧ (t.ax i.toNat).setPos = some p
        ∧ t.flag (rFBK_STAT i.toNat) fFBK_STAT_SHIFT_PEND = true))
    ∧ (¬(p.toNat % 65536 = 0 ∧ (s.fbModulo i.toNat = true → 0 ≤ p.toInt ∧ p.toInt < s.fbM i.toNat * 65536)) →
      Completes (.fbSetpos set via i p) s (fun t => t.answers set mbxREFUSED [] ∧ t.axes = s.axes)) := by
  refine ⟨fun ⟨hfrac, hrange⟩ => ?_, fun hbad => ?_⟩
  · have hp : mboFbSetpos i p (s.asked set 0x011 1 i (words64 p)) = mbxRes ((s.asked set 0x011 1 i (words64 p)).setPosDue i.toNat p) mbxOK := by
      simp only [mboFbSetpos, axisIdx_in hi, State.asked_fbModulo, State.asked_fbM]
      exact if_neg fun hor => hor.elim (· hfrac) fun ⟨hm, hn⟩ => hn (hrange hm)
    exact completes_mbx rfl h hp fun A F => State.setPosDue_shows _ _ _
  · refine completes_read State.axes rfl h ?_ fun _ _ _ => rfl
    simp only [mboFbSetpos, axisIdx_in hi, State.asked_fbModulo, State.asked_fbM]
    refine if_pos ?_
    by_contra hok
    obtain ⟨hfrac, hrange⟩ := not_or.1 hok
    exact hbad ⟨not_not.1 hfrac, fun hm => not_not.1 fun hn => hrange ⟨hm, hn⟩⟩
theorem fbUnref_completes : Completes (.fbUnref set via i) s (fun t => t.answers set mbxOK []
    ∧ t.flag (rFBK_STAT i.toNat) fFBK_STAT_REFD = false) :=
  completes_mbx rfl h (axisIdx_in hi _ _) fun _ _ => State.refd_unref _ _ hi

theorem fbCorr_completes : Completes (.fbCorr set via i) s (fun t => t.answers set mbxOK
    (words64 (s.ax i.toNat).cix ++ words64 (s.ax i.toNat).cuser ++ words64 (s.ax i.toNat).x) ∧ t.axes = s.axes) := by
  refine completes_read State.axes rfl h ?_ fun _ _ _ => rfl
  simp only [mboFbCorr, axisIdx_in hi, State.asked_ax]

theorem axDly_completes : Completes (.axDly set via i) s (fun t => t.answers set mbxOK
    [satWord (s.ax i.toNat).closed.dmin, satWord (s.ax i.toNat).closed.dmax,
      satWord (if (s.ax i.toNat).closed.n = 0 then 0 else (s.ax i.toNat).closed.dsum / (s.ax i.toNat).closed.n),
      satWord (s.ax i.toNat).closed.cmax, satWord (s.ax i.toNat).closed.n, satWord (s.ax i.toNat).d, satWord (s.ax i.toNat).dhat,
      (s.ax i.toNat).winNo.setWidth 32] ∧ t.axes = s.axes) := by
  refine completes_read State.axes rfl h ?_ fun _ _ _ => rfl
  simp only [mboAxDly, axisIdx_in hi, State.asked_ax]

theorem tqEst_completes : Completes (.tqEst set via i) s (fun t => t.answers set mbxOK (s.ax i.toNat).snap ∧ t.axes = s.axes) := by
  refine completes_read State.axes rfl h ?_ fun _ _ _ => rfl
  simp only [mboTqEst, axisIdx_in hi, State.asked_ax]

theorem prfSp_completes : Completes (.prfSp set via i) s (fun t => t.answers set mbxOK
    (words64 ((s.asked set 0x040 0 i []).spAt i.toNat s.now).1 ++ words64 ((s.asked set 0x040 0 i []).spAt i.toNat s.now).2.1
      ++ words64 ((s.asked set 0x040 0 i []).spAt i.toNat s.now).2.2 ++ words64 s.now) ∧ t.axes = s.axes) := by
  refine completes_read State.axes rfl h ?_ fun _ _ _ => rfl
  simp only [mboPrfSp, axisIdx_in hi, State.asked_now]

theorem prfState_completes (hremv : s.flag (rPRF_STAT i.toNat) fPRF_STAT_REMV = false) (hpend : (s.ax i.toNat).gen.remPend = false) :
    Completes (.prfState set via i) s (fun t => t.answers set mbxOK (words64 (s.ax i.toNat).gen.target
      ++ words64 (s.ax i.toNat).gen.remain ++ words64 (s.ax i.toNat).gen.tArr
      ++ [BitVec.ofNat 32 (srcCode (s.ax i.toNat).gen.src), BitVec.ofNat 32 (s.ax i.toNat).gen.stream.length]) ∧ t.axes = s.axes) := by
  have hstat : rPRF_STAT i.toNat < 0xE00000 := by simp only [rPRF_STAT]; omega
  refine completes_read State.axes rfl h ?_ fun _ _ _ => rfl
  simp [mboPrfState, axisIdx_in hi, State.flag_asked _ _ _ _ _ _ hstat, hremv, hpend]

theorem brState_completes : Completes (.brState set via i) s (fun t => t.answers set mbxOK
    (words64 (BitVec.ofInt 64 (s.ax i.toNat).gen.br.mdisp) ++ words64 (BitVec.ofInt 64 (s.ax i.toNat).gen.br.base)
      ++ words64 (BitVec.ofInt 64 (s.ax i.toNat).gen.br.offset) ++ words64 (s.ax i.toNat).gen.lag) ∧ t.axes = s.axes) := by
  refine completes_read State.axes rfl h ?_ fun _ _ _ => rfl
  simp only [mboBrState, axisIdx_in hi, State.asked_ax]

theorem latPop_empty (hlat : (s.ax i.toNat).lat = []) :
    Completes (.latPop set via i) s (fun t => t.answers set mbxOK [0, 0, 0, 0, 0, 0] ∧ t.axes = s.axes) := by
  refine completes_read State.axes rfl h ?_ fun _ _ _ => rfl
  simp only [mboLatPop, axisIdx_in hi, State.asked_ax, hlat]

theorem latPop_record {r : LatRec} {rest : List LatRec} (hlat : (s.ax i.toNat).lat = r :: rest) :
    Completes (.latPop set via i) s (fun t => (t.ax i.toNat).lat = rest ∧ t.answers set mbxOK (words64 r.t
      ++ words64 (BitVec.ofInt 64 (r.pos.toInt * 65536)) ++ [BitVec.ofNat 32 (r.tail.toNat / 2 ^ 48 + 2 ^ 31), BitVec.ofNat 32 rest.length])) := by
  have hp : mboLatPop i (s.asked set 0x052 2 i []) = ⟨(s.asked set 0x052 2 i []).latTaken i.toNat rest, mbxOK, words64 r.t
      ++ words64 (BitVec.ofInt 64 (r.pos.toInt * 65536)) ++ [BitVec.ofNat 32 (r.tail.toNat / 2 ^ 48 + 2 ^ 31), BitVec.ofNat 32 rest.length]⟩ := by
    simp only [mboLatPop, axisIdx_in hi, State.asked_ax, hlat, State.latTaken]
  obtain ⟨t, ht, ha, hl⟩ := completes_mbx (c := .latPop set via i) (Q := fun t => (t.ax i.toNat).lat = rest) rfl h hp fun _ _ => State.lat_latTaken _ _ _
  exact ⟨t, ht, hl, ha⟩

end

/-! ### The other objects (R271, R283, R444, R447, R496) -/

section
variable {s : State} {set : Fin 4} {via : RegPath} (h : s.mbxFree set via) (i : BitVec 14)
include h

theorem rmRead_completes (hi : i.toNat < 16) : Completes (.rmRead set via i) s (fun t => t.answers set mbxOK
    (words64 (s.rmSlot i.toNat).t ++ words64 (s.rmSlot i.toNat).p ++ words64 (s.rmSlot i.toNat).v
      ++ [BitVec.ofNat 32 (s.fget (rLPE_RM_STAT i.toNat) fLPE_RM_STAT_STALE)]) ∧ t.rm = s.rm) := by
  have hstat : rLPE_RM_STAT i.toNat < 0xE00000 := by simp only [rLPE_RM_STAT]; omega
  refine completes_read State.rm rfl h ?_ fun _ _ _ => rfl
  simp only [mboRmRead, if_neg (show ¬ 16 ≤ i.toNat by omega), State.asked_rmSlot, State.fget_asked _ _ _ _ _ _ hstat]

theorem cmpRead_completes : Completes (.cmpRead set via i) s (fun t => t.answers set mbxOK
    ((List.range 8).map (fun k => BitVec.ofNat 32 ((s.ce i.toNat).raw.toNat >>> (32 * k)))) ∧ t.cmp = s.cmp) := by
  refine completes_read State.cmp rfl h ?_ fun _ _ _ => rfl
  simp only [mboCmpRead, State.asked_ce]

theorem cmpInfo_fired (hst : (s.ce i.toNat).st = .fired) (hsusp : (s.ce i.toNat).susp = false) :
    Completes (.cmpInfo set via i) s (fun t => t.answers set mbxOK (3 :: words64 (s.ce i.toNat).tf) ∧ t.cmp = s.cmp) := by
  refine completes_read State.cmp rfl h ?_ fun _ _ _ => rfl
  simp [mboCmpInfo, hst, hsusp]

theorem cmpInfo_suspended (hst : (s.ce i.toNat).st = .armed) (hsusp : (s.ce i.toNat).susp = true) :
    Completes (.cmpInfo set via i) s (fun t => t.answers set mbxOK [5, 0, 0] ∧ t.cmp = s.cmp) := by
  refine completes_read State.cmp rfl h ?_ fun _ _ _ => rfl
  simp [mboCmpInfo, hst, hsusp, words64, lo32, hi32]

theorem fioEdge_completes (hi : i.toNat < 32) : Completes (.fioEdge set via i) s (fun t => t.answers set mbxOK
    (words64 (s.fin_ i.toNat).lastRise ++ words64 (s.fin_ i.toNat).lastFall
      ++ [BitVec.ofNat 32 (s.fget (rFIO_FIN_STAT i.toNat) fFIO_FIN_STAT_ACC + (if (s.fin_ i.toNat).filt then 65536 else 0)
        + (if (s.fin_ i.toNat).run.isSome then 131072 else 0))]
      ++ words64 ((s.fin_ i.toNat).run.getD 0))) := by
  have hstat : rFIO_FIN_STAT i.toNat < 0xE00000 := by simp only [rFIO_FIN_STAT]; omega
  refine completes_answers (u := s.asked set 0x070 0 i []) rfl h ?_
  simp only [mboFioEdge, if_neg (show ¬ 32 ≤ i.toNat by omega), State.asked_fin, State.fget_asked _ _ _ _ _ _ hstat]

theorem peek_completes {off : BitVec 24} (hok : peekOK off.toNat = true) : Completes (.peek set via off) s (fun t => t.answers set mbxOK
    ([off.setWidth 32, (s.asked set 0x0F0 0 0 [off.setWidth 32]).view off.toNat] ++ words64 s.now) ∧ t.work = s.work) := by
  refine completes_read State.work rfl h ?_ fun _ _ _ => rfl
  simp only [mboPeek, hok, if_true, State.asked_now]

theorem peek_range {off : BitVec 24} (hno : peekOK off.toNat = false) :
    Completes (.peek set via off) s (fun t => t.answers set mbxRANGE []) := by
  refine completes_answers (u := s.asked set 0x0F0 0 0 [off.setWidth 32]) rfl h ?_
  simp only [mboPeek, hno, Bool.false_eq_true, if_false, mbxRes]

theorem cfgWork_completes {off : BitVec 24} {r : RegRow} (hr : regRow off.toNat = some r) (hsh : r.sh ≠ 0) :
    Completes (.cfgWork set via off) s (fun t => t.answers set mbxOK
      [off.setWidth 32, s.wcopy off.toNat &&& BitVec.ofNat 32 r.sh, s.rget off.toNat &&& BitVec.ofNat 32 r.sh] ∧ t.work = s.work) := by
  refine completes_read State.work rfl h ?_ fun _ _ _ => rfl
  simp only [mboCfgWork, hr, if_neg hsh, State.asked_wcopy, State.rget_asked _ _ _ _ _ _ (lt_mailbox_of_sh hr hsh)]

end

end Sys2Proof.Machine

/-- Settles O60: object by object, each a lemma on what it answers and what it leaves. -/
theorem mailboxObjects : Obligations.MailboxObjects := by
  unfold Obligations.MailboxObjects
  intro s set via h
  refine ⟨fun i hi => ⟨completes_axisRange rfl h hi, completes_axisRange rfl h hi⟩, fun i hi => ⟨fbPos_completes h hi, fbSetpos_completes h hi,
    fbUnref_completes h hi, fbCorr_completes h hi, axDly_completes h hi, tqEst_completes h hi, prfSp_completes h hi, prfState_completes h hi,
    brState_completes h hi, latPop_empty h hi, fun _ _ => latPop_record h hi⟩,
    fun i => ⟨rmRead_completes h i, cmpRead_completes h i, cmpInfo_fired h i, cmpInfo_suspended h i, fioEdge_completes h i⟩,
    fun off => ⟨peek_completes h, peek_range h, fun _ => cfgWork_completes h⟩⟩
end

section
/-! SUPPORT. The events of the loops of an axis, one lemma an event, and the settling of the statement on them. -/
open Sys2Proof Sys2Proof.Machine
namespace Sys2Proof.Machine

/-! ### What an event of an axis changes -/


/-- An event that changes nothing but an axis. -/
theorem completes_updAx {c : Instr} {s : State} {n : Nat} {f : Axis → Axis} (hx : exec c s = .next (s.updAx n f)) :
    Completes c s (fun t => t = { s with axes := t.axes } ∧ t.ax n = f (s.ax n)) :=
  ⟨_, hx, rfl, s.ax_updAx n f⟩

/-- A cause waits for the next tick boundary of the axis, and nothing else changes (R184). -/
theorem completes_cause {c : Instr} {s : State} {n : Nat} {x : Cause} (hx : exec c s = .next (s.cause n x)) :
    Completes c s (fun t => t = { s with axes := t.axes } ∧ t.ax n = { s.ax n with causes := (s.ax n).causes ++ [x] }) :=
  completes_updAx hx

theorem contains_eq_false {l : List Cause} {c : Cause} (h : c ∉ l) : (!l.contains c) = true := by simpa using h

/-- The stage of an axis, where it is one of those of R223. -/
theorem State.lstage_setStage (s : State) (n : Nat) {st : Nat} (t : FTime) (h : st < 8) : (s.setStage n st t).lstage n = st :=
  (s.fget_fset (rTQ_LIVE n) fTQ_LIVE_LSTAGE st (by decide)).trans (Nat.mod_eq_of_lt h)

theorem State.ax_setStage (s : State) (n st : Nat) (t : FTime) : (s.setStage n st t).ax n = { s.ax n with
    stageAt := t, stageCnt := 0, mot := { (s.ax n).mot with mAt := none, eCnt := 0, holdX := none, wCur := none } } :=
  State.ax_updAx _ n _

theorem State.setStage_wrote (s : State) (n st : Nat) (t : FTime) :
    (s.setStage n st t).wrote { s with axes := (s.setStage n st t).axes } [rTQ_LIVE n] :=
  ⟨rfl, fun _ ho => s.rget_fset_ne _ _ fun h => ho (by simp [h])⟩

/-- A reaction that begins runs: SHORT or OFF (R217). -/
theorem State.reacting_startReaction (s : State) (n : Nat) (w : Int) (t : FTime) (h : s.axType n = tyTQ) :
    (s.startReaction n w t).reacting n = true := by
  have hstage : ∀ st, st = lsSHORT ∨ st = lsOFF → (s.setStage n st t).reacting n = true := fun st hst => by
    have hty : (s.setStage n st t).axType n = tyTQ := h
    have hlt : st < 8 := by rcases hst with rfl | rfl <;> decide
    have hst' : (st == lsSHORT || st == lsOFF) = true := by simpa using hst
    rw [State.reacting, hty, State.lstage_setStage _ _ _ hlt, hst']
    rfl
  unfold State.startReaction
  split
  · assumption
  · exact hstage _ (by split <;> simp)

theorem State.startReaction_keeps (s : State) (n : Nat) (w : Int) (t : FTime) :
    ((s.startReaction n w t).ax n).lossRun = (s.ax n).lossRun ∧ ∀ o ≠ rTQ_LIVE n, (s.startReaction n w t).rget o = s.rget o := by
  unfold State.startReaction
  split
  · exact ⟨rfl, fun _ _ => rfl⟩
  · exact ⟨by rw [State.ax_setStage], fun o ho => (s.setStage_wrote n _ t).2 o (by simpa using ho)⟩

theorem State.raiseKind_wrote (s : State) (n k : Nat) : (s.raiseKind n k).wrote s [rAXC_STATE n] := by
  unfold State.raiseKind
  split
  · exact s.fset_wrote _ _ _
  · exact s.wrote_refl _

/-- A loss that is declared shows, its count of ticks starts anew, and the reaction runs (R216-R218). -/
theorem State.declareLoss_shows (s : State) {n : Nat} (hn : n < 256) (hty : s.axType n = tyTQ) (w : Int) (t : FTime) :
    (s.declareLoss n w t).flag (rTQ_STAT n) fTQ_STAT_LOSS = true ∧ ((s.declareLoss n w t).ax n).lossRun = 0
      ∧ (s.declareLoss n w t).reacting n = true := by
  have hpost : postReg (rTQ_STAT n) = false := postReg_of_block (by simp only [rTQ_STAT]; omega)
  have hcnt : rTQ_STAT n ∉ [rTQ_CNT n 3] := by simp only [rTQ_STAT, rTQ_CNT, List.mem_singleton]; omega
  have hlive : rTQ_STAT n ≠ rTQ_LIVE n := by simp only [rTQ_STAT, rTQ_LIVE]; omega
  have hstate : rTQ_STAT n ∉ [rAXC_STATE n] := by simp only [rTQ_STAT, rAXC_STATE, List.mem_singleton]; omega
  have hlive' : rTQ_LIVE n ∉ [rAXC_STATE n] := by simp only [rTQ_LIVE, rAXC_STATE, List.mem_singleton]; omega
  obtain ⟨u, hu⟩ : ∃ u, u = ((s.raise (rTQ_STAT n) fTQ_STAT_LOSS).count (rTQ_CNT n 3)).axEvent n 0x08 0 t := ⟨_, rfl⟩
  have hev := State.axEvent_posted ((s.raise (rTQ_STAT n) fTQ_STAT_LOSS).count (rTQ_CNT n 3)) n 0x08 0 t []
  have hct := State.countN_wrote (s.raise (rTQ_STAT n) fTQ_STAT_LOSS) (rTQ_CNT n 3) 1
  rw [← hu] at hev
  have hreg : u.rget (rTQ_STAT n) = (s.raise (rTQ_STAT n) fTQ_STAT_LOSS).rget (rTQ_STAT n) :=
    (hev.2.1 _ hpost List.not_mem_nil).trans (hct.2 _ hcnt)
  have htyu : u.axType n = tyTQ := by rw [hev.1, State.count, hct.1]; exact hty
  obtain ⟨v, hv⟩ : ∃ v, v = (u.updAx n (fun a => { a with lossRun := 0 })).startReaction n w t := ⟨_, rfl⟩
  obtain ⟨hrun, hrest⟩ := (u.updAx n (fun a => { a with lossRun := 0 })).startReaction_keeps n w t
  have hre := (u.updAx n (fun a => { a with lossRun := 0 })).reacting_startReaction n w t htyu
  rw [← hv] at hrun hrest hre
  have hloss : v.flag (rTQ_STAT n) fTQ_STAT_LOSS = true := by
    rw [State.flag, State.fget, hrest _ hlive]
    exact (congrArg (fun w => bget w fTQ_STAT_LOSS != 0) hreg).trans (s.flag_raise _ _ (by decide) (by decide))
  have hzero : (v.ax n).lossRun = 0 := by rw [hrun, State.ax_updAx]
  have heq : s.declareLoss n w t = if v.axState n = xSTOPPING then v.raiseKind n 2 else v := by rw [hv, hu]; rfl
  rw [heq]
  split
  · obtain ⟨hk, hkr⟩ := v.raiseKind_wrote n 2
    refine ⟨?_, by rw [hk]; exact hzero, ?_⟩
    · rw [State.flag, State.fget, hkr _ hstate]; exact hloss
    · rw [State.reacting, State.lstage, State.fget, hkr _ hlive', hk]; exact hre
  · exact ⟨hloss, hzero, hre⟩

/-! ### Losses and stages (R209, R216-R219) -/

section
variable {s : State} {n : Fin 256} (hty : s.axType n = tyTQ)
include hty

theorem observerLoss_completes (hlaw : lawState (s.axState n) = true) (hre : s.reacting n = false)
    (hrun : max 1 (s.wfld (rTQ_CFG n) fTQ_CFG_LOSSN) ≤ (s.ax n).lossRun) :
    Completes (.observerLoss n) s (fun t => t.flag (rTQ_STAT n) fTQ_STAT_LOSS = true ∧ (t.ax n).lossRun = 0 ∧ t.reacting n = true) := by
  have hx : exec (.observerLoss n) s = .next (s.declareLoss n (s.ax n).preW (s.axTickStart n)) :=
    congrArg Host.Outcome.next (if_pos ⟨hty, hlaw, by simp [hre], hrun⟩)
  exact ⟨_, hx, s.declareLoss_shows n.isLt hty _ _⟩

theorem skipmax_completes (hlaw : lawState (s.axState n) = true)
    (hrun : max 1 (s.wfld (rTQ_CFG n) fTQ_CFG_SKIPMAX) ≤ s.fget (rTQ_LIVE n) fTQ_LIVE_SKIPRUN)
    (hnew : .fault fcSKIPMAX false ∉ (s.ax n).causes) :
    Completes (.skipmax n) s (fun t => t = { s with axes := t.axes }
      ∧ t.ax n = { s.ax n with causes := (s.ax n).causes ++ [.fault fcSKIPMAX false] }) :=
  completes_cause (congrArg Host.Outcome.next (if_pos ⟨hty, hlaw, hrun, contains_eq_false hnew⟩))

theorem shortTimeout_completes (hst : s.lstage n = lsSHORT) (hsh : s.singleShunt n = true) (hang : s.angSrc n = 2)
    (hdue : reached s.now (afterMs (s.ax n).stageAt (max 1 (s.wfld (rTQ_CATCH2 n) fTQ_CATCH2_ASCT))) = true) :
    Completes (.shortTimeout n) s (fun t => t = { s with axes := t.axes } ∧ t.ax n = { s.ax n with react := lsOFF }) :=
  completes_updAx (c := .shortTimeout n) (congrArg Host.Outcome.next (if_pos ⟨hty, hst, hsh, hang, hdue⟩))

theorem catchRetry_completes (hx : s.axState n = xCATCH) (hst : s.lstage n = lsOFF) (hatt : s.fget (rTQ_LIVE n) fTQ_LIVE_CATT < 3)
    (hdue : reached s.now (afterMs (s.ax n).stageAt (max 1 (s.wfld (rTQ_CATCH2 n) fTQ_CATCH2_CWAIT))) = true) :
    Completes (.catchRetry n) s (fun t => t.wrote { s with axes := t.axes } [rTQ_LIVE n] ∧ t.lstage n = lsZERO
      ∧ (t.ax n).stageAt = s.now) :=
  ⟨_, congrArg Host.Outcome.next (if_pos ⟨hty, hx, hst, hatt, hdue⟩), s.setStage_wrote n _ _, s.lstage_setStage n _ (by decide),
    by rw [State.ax_setStage]⟩

theorem catchThirdFailure_completes (hx : s.axState n = xCATCH) (hatt : s.fget (rTQ_LIVE n) fTQ_LIVE_CATT = 3)
    (hnew : .fault fcOBSLOSS false ∉ (s.ax n).causes) :
    Completes (.catchThirdFailure n) s (fun t => t = { s with axes := t.axes }
      ∧ t.ax n = { s.ax n with causes := (s.ax n).causes ++ [.fault fcOBSLOSS false] }) :=
  completes_cause (congrArg Host.Outcome.next (if_pos ⟨hty, hx, hatt, contains_eq_false hnew⟩))

theorem testEnd_completes (hx : s.axState n = xTEST)
    (hdue : reached s.now (afterMs (s.ax n).stageAt (max 1 (s.wfld (rTQ_TST n) fTQ_TST_TT))) = true) :
    Completes (.testEnd n) s (fun t => t = { s with axes := t.axes }
      ∧ t.ax n = { s.ax n with causes := (s.ax n).causes ++ [.done 3] }) :=
  completes_cause (congrArg Host.Outcome.next (if_pos ⟨hty, hx, hdue⟩))

end

/-! ### Alignment (R219-R222) -/

/-- The end of an alignment in ALIGN (R219, R220): the angle is valid, the PLL starts there, and the state is to be left. -/
theorem State.alignEnd_shows (s : State) (n : Nat) (th : Int) (hx : s.axState n = xALIGN) :
    ((s.alignEnd n th).ax n).causes = (s.ax n).causes ++ [.done 1] ∧ (s.alignEnd n th).flag (rAXC_STATE n) fAXC_STATE_ANGVAL = true
      ∧ (s.alignEnd n th).axState n = xALIGN ∧ ((s.alignEnd n th).ax n).mot.wPll = 0 ∧ ((s.alignEnd n th).ax n).mot.thPll = th.toNat
      ∧ ∀ o b, (s.alignEnd n th).wfld o b = s.wfld o b := by
  obtain ⟨u, hu⟩ : ∃ u, u = s.updAx n (fun a => { a with alignStep := 0, mot := { a.mot with thPll := th.toNat, wPll := 0 } }) := ⟨_, rfl⟩
  have hax : u.ax n = { s.ax n with alignStep := 0, mot := { (s.ax n).mot with thPll := th.toNat, wPll := 0 } } := by rw [hu, State.ax_updAx]
  have hxu : u.axState n = xALIGN := by rw [hu]; exact hx
  have heq : s.alignEnd n th = (u.fset (rAXC_STATE n) fAXC_STATE_ANGVAL 1).cause n (.done 1) := by
    rw [hu] at hxu ⊢
    exact if_neg (by rw [hxu]; decide)
  have haxe : (s.alignEnd n th).ax n = { u.ax n with causes := (u.ax n).causes ++ [.done 1] } := by
    rw [heq]; exact State.ax_updAx _ n _
  rw [haxe, hax, heq]
  refine ⟨rfl, u.flag_raise (rAXC_STATE n) _ (by decide) (by decide), ?_, rfl, rfl, fun o b => by rw [hu]; rfl⟩
  exact (u.fget_fset_field (rAXC_STATE n) fAXC_STATE_ANGVAL fAXC_STATE_STATE 1 (by decide)).trans hxu

/-- What waits for a tick start follows a write of a field of its working copy (R170). -/
theorem State.held_wfset (s : State) (o : Nat) (b : Sh) (x : Nat) : (s.wfset o b x).held o = (s.held o).map (fun v => bset v b.b x) := by
  unfold State.held State.wfset
  dsimp only
  induction s.hold with
  | nil => rfl
  | cons h t ih =>
    rw [List.map_cons, List.findSome?_cons, List.findSome?_cons, ih, PlanHold.find_map]
    cases hf : h.regs.find? (fun e => e.1 == o) with
    | none => simp
    | some e =>
      have he : e.1 = o := by simpa using List.find?_some hf
      simp [he]

/-- A field of a working copy after a write of it. -/
theorem State.wfld_wfset (s : State) (o : Nat) (b : Sh) (x : Nat) (h : b.b.lo + b.b.w ≤ 32) : (s.wfset o b x).wfld o b = x % 2 ^ b.b.w := by
  have hget : (s.wfset o b x).wget o = bset (s.wget o) b.b x := by
    unfold State.wget
    rw [State.held_wfset]
    cases s.held o <;> simp [State.wcopy, State.wfset]
  rw [State.wfld, hget, bget_bset _ _ _ h]

theorem State.angoffFor_lt (s : State) (n : Nat) (angle : Int) : s.angoffFor n angle < 2 ^ 24 := by
  unfold State.angoffFor
  dsimp only
  omega

/-- The angle offset written is the one in use (R220). -/
theorem State.wfld_setAngoff (s : State) (n : Nat) {v : Nat} (h : v < 2 ^ 24) : (s.setAngoff n v).wfld (rTQ_ANGOFF n) fTQ_ANGOFF_ANGOFF = v :=
  (s.wfld_wfset (rTQ_ANGOFF n) fTQ_ANGOFF_ANGOFF v (by decide)).trans (Nat.mod_eq_of_lt h)

section
variable {s : State} {n : Fin 256} (hty : s.axType n = tyTQ) {x0 : BitVec 64} (hx : s.axState n = xALIGN)
  (hhold : (s.ax n).mot.holdX = some x0) (hnew : .done 1 ∉ (s.ax n).causes)
  (hdue : reached s.now (afterMs (s.ax n).stageAt (s.alignMs n)) = true)
include hty hx hhold hnew hdue

/-- The end of an alignment step that is due, in ALIGN. -/
theorem execAlignStepEnd_due : execAlignStepEnd n s = .next (
    if !s.holdStood n x0 then s.alignFail n
    else if s.angSrc n ≠ 0 then s.alignEnd n (s.alignAngle n)
    else if (s.ax n).alignStep = 0 then
      s.updAx n (fun a => { a with alignStep := 1, stageAt := s.now, mot := { a.mot with holdX := none, stepX := a.x } })
    else if !s.stepMoved n ((s.ax n).x - (s.ax n).mot.stepX).toInt then s.alignFail n
    else (s.setAngoff n (s.angoffFor n (s.alignAngle n / 65536))).alignEnd n (s.alignAngle n)) := by
  have hal : s.aligning n = true := by simp [State.aligning, hx]
  rw [execAlignStepEnd]
  simp only [hhold]
  rw [if_pos ⟨hty, hal, contains_eq_false hnew, hdue⟩]

theorem alignStepEnd_fails (hbad : s.holdStood n x0 = false ∨ s.angSrc n = 0 ∧ (s.ax n).alignStep ≠ 0
      ∧ s.stepMoved n ((s.ax n).x - (s.ax n).mot.stepX).toInt = false) :
    Completes (.alignStepEnd n) s (fun t => t = { s with axes := t.axes }
      ∧ t.ax n = { s.ax n with causes := (s.ax n).causes ++ [.fault fcALIGN false] }) := by
  have hfail : s.alignFail n = s.cause n (.fault fcALIGN false) := if_neg (by rw [hx]; decide)
  refine completes_cause ((execAlignStepEnd_due hty hx hhold hnew hdue).trans (congrArg Host.Outcome.next ?_))
  rw [← hfail]
  rcases hbad with hstood | ⟨hang, hstep, hmoved⟩
  · simp [hstood]
  · simp only [hang, hstep, hmoved, ne_eq, not_true_eq_false, if_false, Bool.not_false, if_true, ite_self]

theorem alignStepEnd_ends (hstood : s.holdStood n x0 = true) (hang : s.angSrc n ≠ 0) :
    Completes (.alignStepEnd n) s (fun t => (t.ax n).causes = (s.ax n).causes ++ [.done 1]
      ∧ t.flag (rAXC_STATE n) fAXC_STATE_ANGVAL = true ∧ t.axState n = xALIGN ∧ (t.ax n).mot.wPll = 0
      ∧ (t.ax n).mot.thPll = (s.alignAngle n).toNat) := by
  have heq : execAlignStepEnd n s = .next (s.alignEnd n (s.alignAngle n)) := by
    rw [execAlignStepEnd_due hty hx hhold hnew hdue]
    simp [hstood, hang]
  obtain ⟨hc, hv, hst, hw, hth, -⟩ := s.alignEnd_shows n (s.alignAngle n) hx
  exact ⟨_, heq, hc, hv, hst, hw, hth⟩

theorem alignStepEnd_second (hstood : s.holdStood n x0 = true) (hang : s.angSrc n = 0) (hstep : (s.ax n).alignStep = 0) :
    Completes (.alignStepEnd n) s (fun t => t = { s with axes := t.axes } ∧ t.ax n = { s.ax n with
      alignStep := 1, stageAt := s.now, mot := { (s.ax n).mot with holdX := none, stepX := (s.ax n).x } }) := by
  refine completes_updAx (c := .alignStepEnd n) (f := fun a => { a with
    alignStep := 1, stageAt := s.now, mot := { a.mot with holdX := none, stepX := a.x } }) ?_
  refine (execAlignStepEnd_due hty hx hhold hnew hdue).trans (congrArg Host.Outcome.next ?_)
  simp [hstood, hang, hstep]

theorem alignStepEnd_writes (hstood : s.holdStood n x0 = true) (hang : s.angSrc n = 0) (hstep : (s.ax n).alignStep ≠ 0)
    (hmoved : s.stepMoved n ((s.ax n).x - (s.ax n).mot.stepX).toInt = true) :
    Completes (.alignStepEnd n) s (fun t => (t.ax n).causes = (s.ax n).causes ++ [.done 1]
      ∧ t.flag (rAXC_STATE n) fAXC_STATE_ANGVAL = true
      ∧ t.wfld (rTQ_ANGOFF n) fTQ_ANGOFF_ANGOFF = s.angoffFor n (s.alignAngle n / 65536)) := by
  have heq : execAlignStepEnd n s = .next ((s.setAngoff n (s.angoffFor n (s.alignAngle n / 65536))).alignEnd n (s.alignAngle n)) := by
    rw [execAlignStepEnd_due hty hx hhold hnew hdue]
    simp only [hstood, hang, hstep, hmoved, ne_eq, not_true_eq_false, if_false, Bool.not_true, Bool.false_eq_true]
  have hne : rAXC_STATE n ≠ rTQ_ANGOFF n := by simp only [rAXC_STATE, rTQ_ANGOFF]; omega
  have hxu : (s.setAngoff n (s.angoffFor n (s.alignAngle n / 65536))).axState n = xALIGN :=
    (congrArg (fun w => bget w fAXC_STATE_STATE) (State.rget_rset_ne _ _ hne)).trans hx
  obtain ⟨hc, hv, -, -, -, hw⟩ := (s.setAngoff n (s.angoffFor n (s.alignAngle n / 65536))).alignEnd_shows n (s.alignAngle n) hxu
  exact ⟨_, heq, hc, hv, (hw _ _).trans (s.wfld_setAngoff n (s.angoffFor_lt n _))⟩

end

/-! ### Steppers, standstill and SSI (R147, R153, R278) -/

section
variable {s : State} {n : Fin 256}

theorem stAlignEnd_completes (hty : s.axType n = tyST) (hx : s.axState n = xALIGN) (hnew : .done 1 ∉ (s.ax n).causes)
    (hown : s.fbOwn n = true)
    (hdue : reached s.now (afterMs (s.ax n).stageAt (s.wfld (rST_ALIGN n) fST_ALIGN_SARAMP + s.wfld (rST_ALIGN n) fST_ALIGN_SAHOLD)) = true) :
    Completes (.stAlignEnd n) s (fun t => t = { s with axes := t.axes }
      ∧ t.ax n = { s.ax n with causes := (s.ax n).causes ++ [.done 1] }) := by
  refine completes_cause (congrArg Host.Outcome.next ((if_pos ⟨hty, hx, contains_eq_false hnew, hdue⟩).trans ?_))
  simp [hown]

theorem speedStandstill_completes {h : FTime × BitVec 64 × FTime} {r : List (FTime × BitVec 64 × FTime)} (hh : (s.ax n).hist = h :: r)
    (hm : (s.ax n).moved = false) (hdue : ((s.wfld (rFBK_SPD n) fFBK_SPD_STILL * 16000000 : Nat) : Int) ≤ tdiff (s.ax n).ts h.1) :
    Completes (.speedStandstill n) s (fun t => t.wrote { s with axes := t.axes } [rFBK_STAT n]
      ∧ t.flag (rFBK_STAT n) fFBK_STAT_STILL = true ∧ t.ax n = { s.ax n with spd := 0, hist := [] }) := by
  have hx : execSpeedStandstill n s = .next ((s.updAx n (fun a => { a with spd := 0, hist := [] })).raise (rFBK_STAT n) fFBK_STAT_STILL) := by
    have hus : s.wfld (rFBK_SPD n) fFBK_SPD_STILL * 1000 * usUnits = s.wfld (rFBK_SPD n) fFBK_SPD_STILL * 16000000 := by
      simp only [usUnits]; omega
    simp only [execSpeedStandstill, hh, hus]
    exact if_pos ⟨by simp [hm], hdue⟩
  exact ⟨_, hx, ⟨rfl, fun _ ho => State.rget_fset_ne _ _ _ fun h => ho (by simp [h])⟩, State.flag_raise _ _ _ (by decide) (by decide),
    by rw [State.raise, State.ax_fset, State.ax_updAx]⟩

theorem ssiErrorFault_completes (hrun : max 1 (s.wfld (rFBK_SSI n) fFBK_SSI_ERRN) ≤ (s.ax n).ssiRun) :
    Completes (.ssiErrorFault n) s (fun t => t = { s with axes := t.axes }
      ∧ t.ax n = { s.ax n with causes := (s.ax n).causes ++ [.fault fcSSI false] }) :=
  completes_cause (if_pos hrun)

end
end Sys2Proof.Machine

/-- Settles O26: event by event, each a lemma on what it changes. -/
theorem axisEventRows : Obligations.AxisEventRows := by
  unfold Obligations.AxisEventRows
  intro s n
  refine ⟨fun hty => ⟨observerLoss_completes hty, skipmax_completes hty, shortTimeout_completes hty, catchRetry_completes hty,
    catchThirdFailure_completes hty, fun x0 hx hhold hnew hdue => ⟨fun hstood => ?_, alignStepEnd_fails hty hx hhold hnew hdue⟩,
    testEnd_completes hty⟩, stAlignEnd_completes, fun _ _ => speedStandstill_completes, ssiErrorFault_completes⟩
  exact ⟨alignStepEnd_ends hty hx hhold hnew hdue hstood, alignStepEnd_second hty hx hhold hnew hdue hstood,
    alignStepEnd_writes hty hx hhold hnew hdue hstood⟩
end
section
/-! SUPPORT. The tick boundary of an axis (R140, R182-R187): what it prepares, the causes that it takes, what an entry leaves, and the settling of
the statement on it. -/
open Sys2Proof Sys2Proof.Machine
namespace Sys2Proof.Machine

/-! ### The axes and their registers, which lanes, frames and rings leave as they are -/

/-- Does a register belong to an axis, or to its feedback? -/
def axisReg (o : Nat) : Prop := 0x500000 ≤ o ∧ o < 0x540000 ∨ 0x900000 ≤ o ∧ o < 0x910000

/-- The axes with their registers. -/
def State.axisSide (s : State) : Tbl Axis × ({o // axisReg o} → Word) := (s.axes, fun o => s.rget o)

theorem State.ax_of_axisSide {s u : State} (h : u.axisSide = s.axisSide) (n : Nat) : u.ax n = s.ax n := by
  rw [State.ax, State.ax, show u.axes = s.axes from congrArg Prod.fst h]

theorem State.rget_of_axisSide {s u : State} (h : u.axisSide = s.axisSide) {o : Nat} (ho : axisReg o) : u.rget o = s.rget o :=
  congrFun (congrArg Prod.snd h) ⟨o, ho⟩

theorem axisReg_block {o : Nat} (h : axisReg o) : 3 ≤ o / 0x100000 ∧ o / 0x100000 ≤ 9 := by
  unfold axisReg at h
  omega

theorem State.axisSide_of_posted {s u : State} (h : u.posted s []) : u.axisSide = s.axisSide := by
  obtain ⟨hu, hr, -⟩ := h
  have ha : u.axes = s.axes := by rw [hu]
  exact Prod.ext ha (funext fun o => hr o (postReg_of_block (axisReg_block o.2)) List.not_mem_nil)

theorem State.axisSide_fset (s : State) {o : Nat} (b : Bits) (x : Nat) (h : ¬ axisReg o) : (s.fset o b x).axisSide = s.axisSide :=
  Prod.ext rfl (funext fun p => s.rget_fset_ne b x fun hp : p.1 = o => h (hp ▸ p.2))

/-- The registers of the lanes are none of an axis's. -/
theorem not_axisReg_lane {o : Nat} (h : 0x620000 ≤ o) (h' : o < 0x640000) : ¬ axisReg o := by
  unfold axisReg
  omega

theorem State.axisSide_lane (s : State) {o : Nat} (b : Bits) (x : Nat) (h : 0x620000 ≤ o) (h' : o < 0x640000) :
    (s.fset o b x).axisSide = s.axisSide := s.axisSide_fset b x (not_axisReg_lane h h')

@[simp] theorem State.axisSide_ite (c : Prop) [Decidable c] (a b : State) :
    (if c then a else b).axisSide = if c then a.axisSide else b.axisSide := apply_ite _ _ _ _

@[simp] theorem State.axisSide_foldl {α : Type} (f : State → α → State) (l : List α) (s : State)
    (h : ∀ s x, (f s x).axisSide = s.axisSide) : (l.foldl f s).axisSide = s.axisSide := by
  induction l generalizing s with
  | nil => rfl
  | cons x l ih => exact (ih _).trans (h s x)

section
variable (s : State)

@[simp] theorem State.axisSide_updLn (l : Nat) (f : Lane → Lane) : (s.updLn l f).axisSide = s.axisSide := rfl
@[simp] theorem State.axisSide_setGd (k : Nat) (d : GonDev) : (s.setGd k d).axisSide = s.axisSide := rfl
@[simp] theorem State.axisSide_updGd (k : Nat) (f : GonDev → GonDev) : (s.updGd k f).axisSide = s.axisSide := rfl
@[simp] theorem State.axisSide_updPort (t : Nat) (f : PortDev → PortDev) : (s.updPort t f).axisSide = s.axisSide := rfl
@[simp] theorem State.axisSide_setCmd (k : Nat) (x : Option OpenCmd) : (s.setCmd k x).axisSide = s.axisSide := rfl
@[simp] theorem State.axisSide_withRepairs (x : List Nat) : ({ s with repairs := x } : State).axisSide = s.axisSide := rfl
@[simp] theorem State.axisSide_withMig (x : Option Migration) : ({ s with mig := x } : State).axisSide = s.axisSide := rfl

@[simp] theorem State.axisSide_flogTrigger (cause code : Nat) : (s.flogTrigger cause code).axisSide = s.axisSide :=
  State.axisSide_of_posted (s.flogTrigger_posted _ _ _)
@[simp] theorem State.axisSide_axEvent (n code data : Nat) (ft : FTime) : (s.axEvent n code data ft).axisSide = s.axisSide :=
  State.axisSide_of_posted (s.axEvent_posted _ _ _ _ _)
@[simp] theorem State.axisSide_devEvent (code source data : Nat) : (s.devEvent code source data).axisSide = s.axisSide :=
  State.axisSide_of_posted (s.devEvent_posted _ _ _ _)
@[simp] theorem State.axisSide_trace (n : Nat) (tk : FTime) : (s.trace n tk).axisSide = s.axisSide :=
  State.axisSide_of_posted (s.flogAdd_posted _ _ _ (by decide) _)
@[simp] theorem State.axisSide_flogCommit (src dst moved : Nat) : (s.flogCommit src dst moved).axisSide = s.axisSide :=
  State.axisSide_of_posted (s.flogAdd_posted _ _ _ (by decide) _)

@[simp] theorem State.axisSide_complete (c : OpenCmd) (status payload : Nat) : (s.complete c status payload).axisSide = s.axisSide := by
  unfold State.complete
  split
  · rfl
  · split
    · split
      · rfl
      · exact State.axisSide_of_posted (s.produce_posted _ _ (by rintro _ ⟨⟩; exact bget_lt _ _) _)
    · exact State.axisSide_of_posted (s.produce_posted _ _ (ringIf_lt (bget_lt _ _)) _)

@[simp] theorem State.axisSide_finish (k status payload : Nat) : (s.finish k status payload).axisSide = s.axisSide := by
  unfold State.finish
  split <;> simp

@[simp] theorem State.axisSide_lostRefresh : s.lostRefresh.axisSide = s.axisSide := by
  unfold State.lostRefresh
  dsimp only
  split <;> rfl

/-! Frames that lanes commit, and the lanes' traps and events. -/

@[simp] theorem State.axisSide_frameCheck (k : Nat) : (s.frameCheck k).axisSide = s.axisSide := by simp [State.frameCheck]
@[simp] theorem State.axisSide_commitRec (k c : Nat) (r : BitVec 128) : (s.commitRec k c r).axisSide = s.axisSide := by simp [State.commitRec]
@[simp] theorem State.axisSide_laneOff (l : Nat) : (s.laneOff l).axisSide = s.axisSide := by simp [State.laneOff]
@[simp] theorem State.axisSide_traceEvent (l : Nat) (e : LEvent) : (s.traceEvent l e).axisSide = s.axisSide := by simp [State.traceEvent]

@[simp] theorem State.axisSide_setRole (l r : Nat) : (s.setRole l r).axisSide = s.axisSide := s.axisSide_lane _ _ (by decide) (by decide)

@[simp] theorem State.axisSide_migEnd (m : Migration) (status : Nat) : (s.migEnd m status).axisSide = s.axisSide := by
  unfold State.migEnd
  dsimp only
  have h : ∀ u : State, (u.fset rLPE_MIG fLPE_MIG_PHASE 0).axisSide = u.axisSide := fun u => u.axisSide_lane _ _ (by decide) (by decide)
  split <;> simp [h]

variable {l : Nat} (hl : l < 16)
include hl

theorem State.axisSide_laneStat (b : Bits) (x : Nat) : (s.fset (rLPE_L_STAT l) b x).axisSide = s.axisSide :=
  s.axisSide_lane b x (by simp only [rLPE_L_STAT]; omega) (by simp only [rLPE_L_STAT]; omega)

theorem State.axisSide_evqShow : (s.evqShow l).axisSide = s.axisSide := by
  have h : ∀ (u : State) b x, (u.fset (rLPE_L_EVQ l) b x).axisSide = u.axisSide := fun u b x =>
    u.axisSide_lane b x (by simp only [rLPE_L_EVQ]; omega) (by simp only [rLPE_L_EVQ]; omega)
  simp [State.evqShow, h]

theorem State.axisSide_trapLane (code : Nat) : (s.trapLane l code).axisSide = s.axisSide := by
  have hstat : ∀ (u : State) b x, (u.fset (rLPE_L_STAT l) b x).axisSide = u.axisSide := fun u => u.axisSide_laneStat hl
  have hshow : ∀ u : State, (u.evqShow l).axisSide = u.axisSide := fun u => u.axisSide_evqShow hl
  have hret : ∀ (u : State) b x, (u.fset rLPE_RETIRE b x).axisSide = u.axisSide := fun u b x => u.axisSide_lane b x (by decide) (by decide)
  unfold State.trapLane
  dsimp only
  split
  · rfl
  · split
    · simp [↓State.axisSide_migEnd, ↓State.axisSide_ite, ↓State.axisSide_withRepairs, State.raise, hstat, hshow, hret]
    · simp [↓State.axisSide_ite, ↓State.axisSide_withRepairs, State.raise, hstat, hshow, hret]

theorem State.axisSide_raiseEvent (e : LEvent) : (s.raiseEvent l e).axisSide = s.axisSide := by
  have hshow : ∀ u : State, (u.evqShow l).axisSide = u.axisSide := fun u => u.axisSide_evqShow hl
  have htrap : ∀ (u : State) c, (u.trapLane l c).axisSide = u.axisSide := fun u => u.axisSide_trapLane hl
  simp [State.raiseEvent, hshow, htrap]

omit hl

/-- The TICK event of a lane leaves the axes (R166, R354). -/
@[simp] theorem State.axisSide_tickEvent (n : Nat) (tb : FTime) : (s.tickEvent n tb).axisSide = s.axisSide := by
  unfold State.tickEvent
  dsimp only
  split
  · rfl
  · exact (State.axisSide_raiseEvent _ (bget_lt _ _) _).trans (s.axisSide_updLn _ _)

end

/-! ### What a tick boundary decides of an axis -/

/-- The state of an axis as it is shown, with its recorded cause, and what waits for its tick boundary (R140, R182, R186). -/
structure TickView where
  state : Nat
  prev : Nat
  fcause : Nat
  nopwr : Nat
  causes : List Cause
  bAt : Option FTime
  setPos : Option Val
  idxShift : Option (BitVec 64)

def TickView.of (w : Word) (a : Axis) : TickView :=
  { state := bget w fAXC_STATE_STATE, prev := bget w fAXC_STATE_PREV, fcause := bget w fAXC_STATE_FCAUSE, nopwr := bget w fAXC_STATE_NOPWR,
    causes := a.causes, bAt := a.bAt, setPos := a.setPos, idxShift := a.idxShift }

def State.tickView (s : State) (n : Nat) : TickView := .of (s.rget (rAXC_STATE n)) (s.ax n)

/-- Does a change of an axis leave what waits for its tick boundary? -/
def KeepsDue (f : Axis → Axis) : Prop :=
  ∀ a, (f a).causes = a.causes ∧ (f a).bAt = a.bAt ∧ (f a).setPos = a.setPos ∧ (f a).idxShift = a.idxShift

theorem State.tickView_congr {s u : State} {n : Nat} (hr : u.rget (rAXC_STATE n) = s.rget (rAXC_STATE n)) (ha : u.ax n = s.ax n) :
    u.tickView n = s.tickView n := by rw [State.tickView, hr, ha, State.tickView]

theorem axisReg_axcState (n : Fin 256) : axisReg (rAXC_STATE n) := .inl (by simp only [rAXC_STATE]; omega)

theorem State.tickView_of_axisSide {s u : State} (h : u.axisSide = s.axisSide) (n : Fin 256) : u.tickView n = s.tickView n :=
  State.tickView_congr (State.rget_of_axisSide h (axisReg_axcState n)) (State.ax_of_axisSide h n)

@[simp] theorem State.tickView_ite (c : Prop) [Decidable c] (a b : State) (n : Nat) :
    (if c then a else b).tickView n = if c then a.tickView n else b.tickView n := apply_ite (fun s : State => s.tickView n) _ _ _

theorem State.tickView_foldl {α : Type} (f : State → α → State) (l : List α) (s : State) (n : Nat)
    (h : ∀ s, ∀ x ∈ l, (f s x).tickView n = s.tickView n) : (l.foldl f s).tickView n = s.tickView n :=
  List.foldlRecOn (motive := fun u : State => u.tickView n = s.tickView n) l f rfl fun u hu x hx => (h u x hx).trans hu

@[simp] theorem State.tickView_foldl_all {α : Type} (f : State → α → State) (l : List α) (s : State) (n : Nat)
    (h : ∀ s x, (f s x).tickView n = s.tickView n) : (l.foldl f s).tickView n = s.tickView n :=
  s.tickView_foldl f l n fun u x _ => h u x

theorem State.ax_updAx_ne (s : State) {m j : Nat} (f : Axis → Axis) (h : j ≠ m) : (s.updAx m f).ax j = s.ax j := s.ax_setAx_ne _ h

/-! Registers that are not the state of an axis. -/

@[simp] theorem axcState_ne_miss (n m : Nat) : rAXC_STATE n ≠ rAXC_MISS m := by simp only [rAXC_STATE, rAXC_MISS]; omega
@[simp] theorem axcState_ne_stat (n m : Nat) : rAXC_STATE n ≠ rAXC_STAT m := by simp only [rAXC_STATE, rAXC_STAT]; omega
@[simp] theorem axcState_ne_prf (n m : Nat) : rAXC_STATE n ≠ rPRF_STAT m := by simp only [rAXC_STATE, rPRF_STAT]; omega
@[simp] theorem axcState_ne_live (n m : Nat) : rAXC_STATE n ≠ rTQ_LIVE m := by simp only [rAXC_STATE, rTQ_LIVE]; omega
@[simp] theorem axcState_ne_angoff (n m : Nat) : rAXC_STATE n ≠ rTQ_ANGOFF m := by simp only [rAXC_STATE, rTQ_ANGOFF]; omega
@[simp] theorem axcState_ne_fbk (n m : Nat) : rAXC_STATE n ≠ rFBK_STAT m := by simp only [rAXC_STATE, rFBK_STAT]; omega
@[simp] theorem axcState_ne_cam (n : Fin 256) (c : Nat) : rAXC_STATE n ≠ rLPE_CAM_CTL c := by simp only [rAXC_STATE, rLPE_CAM_CTL]; omega
@[simp] theorem axcState_ne_lat (n : Fin 256) (m : Nat) : rAXC_STATE n ≠ rLAT_STAT m := by simp only [rAXC_STATE, rLAT_STAT]; omega
@[simp] theorem axcState_ne_cmpCnt (n : Fin 256) (k : Nat) : rAXC_STATE n ≠ rCMP_CNT k := by simp only [rAXC_STATE, rCMP_CNT]; omega
@[simp] theorem axcState_ne_cmpRg (n : Fin 256) (g : Nat) : rAXC_STATE n ≠ rCMP_RG g := by simp only [rAXC_STATE, rCMP_RG]; omega
@[simp] theorem axcState_ne_cmpStat (n : Fin 256) : rAXC_STATE n ≠ rCMP_STAT := by simp only [rAXC_STATE, rCMP_STAT]; omega
@[simp] theorem axcState_ne_cmpFree (n : Fin 256) : rAXC_STATE n ≠ rCMP_FREE := by simp only [rAXC_STATE, rCMP_FREE]; omega

section
variable (s : State) (n : Fin 256)

theorem State.tickView_rset {o : Nat} (v : Word) (h : rAXC_STATE n ≠ o) : (s.rset o v).tickView n = s.tickView n :=
  State.tickView_congr (s.rget_rset_ne v h) rfl
@[simp] theorem State.tickView_fset {o : Nat} (b : Bits) (x : Nat) (h : rAXC_STATE n ≠ o) : (s.fset o b x).tickView n = s.tickView n :=
  State.tickView_congr (s.rget_fset_ne b x h) rfl
@[simp] theorem State.tickView_raise {o : Nat} (b : Bits) (h : rAXC_STATE n ≠ o) : (s.raise o b).tickView n = s.tickView n :=
  s.tickView_fset n b 1 h
@[simp] theorem State.tickView_fsetb {o : Nat} (b : Bits) (x : Bool) (h : rAXC_STATE n ≠ o) : (s.fsetb o b x).tickView n = s.tickView n :=
  s.tickView_fset n b _ h
@[simp] theorem State.tickView_count {o : Nat} (h : rAXC_STATE n ≠ o) : (s.count o).tickView n = s.tickView n := by
  simp [State.count, State.countN, h]
/-- The angle's validity and the kind of a stop, which lie in the register of the state too. -/
theorem State.tickView_fset_from16 (b : Bits) (x : Nat) (h : 19 ≤ b.lo ∨ b.lo = 16 ∧ b.w = 2) :
    (s.fset (rAXC_STATE n) b x).tickView n = s.tickView n := by
  have hf : ∀ c : Bits, c.lo + c.w ≤ b.lo ∨ b.lo + b.w ≤ c.lo → bget (bset (s.rget (rAXC_STATE n)) b x) c = bget (s.rget (rAXC_STATE n)) c :=
    fun c hc => bget_bset_ne _ b c x hc
  rw [State.tickView, State.rget_fset, TickView.of, hf fAXC_STATE_STATE, hf fAXC_STATE_PREV, hf fAXC_STATE_FCAUSE, hf fAXC_STATE_NOPWR]
  · rfl
  all_goals simp only [fAXC_STATE_STATE, fAXC_STATE_PREV, fAXC_STATE_FCAUSE, fAXC_STATE_NOPWR]; omega

theorem State.tickView_updAx (m : Nat) {f : Axis → Axis} (hf : KeepsDue f) : (s.updAx m f).tickView n = s.tickView n := by
  by_cases hm : n.val = m
  · subst hm
    obtain ⟨hc, hb, hp, hi⟩ := hf (s.ax n)
    rw [State.tickView, State.ax_updAx, TickView.of, hc, hb, hp, hi]
    rfl
  · exact State.tickView_congr rfl (s.ax_updAx_ne f hm)

@[simp] theorem State.tickView_updGen (m : Nat) (f : Gen → Gen) : (s.updGen m f).tickView n = s.tickView n :=
  s.tickView_updAx n m fun _ => ⟨rfl, rfl, rfl, rfl⟩

theorem State.tickView_cause_ne {m : Nat} (c : Cause) (h : n.val ≠ m) : (s.cause m c).tickView n = s.tickView n :=
  State.tickView_congr rfl (s.ax_updAx_ne _ h)

@[simp] theorem State.tickView_setCe (i : Nat) (e : CmpEnt) : (s.setCe i e).tickView n = s.tickView n := rfl
@[simp] theorem State.tickView_updGd (k : Nat) (f : GonDev → GonDev) : (s.updGd k f).tickView n = s.tickView n := rfl
@[simp] theorem State.tickView_txQueue (t : Nat) (f : Frame) : (s.txQueue t f).tickView n = s.tickView n := rfl
@[simp] theorem State.tickView_axEvent (m code data : Nat) (ft : FTime) : (s.axEvent m code data ft).tickView n = s.tickView n :=
  State.tickView_of_axisSide (by simp) n
@[simp] theorem State.tickView_lostRefresh : s.lostRefresh.tickView n = s.tickView n := State.tickView_of_axisSide (by simp) n
@[simp] theorem State.tickView_flogTrigger (cause code : Nat) : (s.flogTrigger cause code).tickView n = s.tickView n :=
  State.tickView_of_axisSide (by simp) n

/-! The set-point generator (R251-R265). -/

@[simp] theorem State.tickView_addTurns (m : Nat) (d : Int) : (s.addTurns m d).tickView n = s.tickView n := by
  have h : ∀ v, (s.updAx m (fun a => { a with turns := v })).tickView n = s.tickView n := fun v => s.tickView_updAx n m fun _ => ⟨rfl, rfl, rfl, rfl⟩
  simp [State.addTurns, h]
@[simp] theorem State.tickView_spWraps (m : Nat) (t : FTime) : (s.spWraps m t).tickView n = s.tickView n := by simp [State.spWraps]
@[simp] theorem State.tickView_spUpdate (m : Nat) (t : FTime) : (s.spUpdate m t).tickView n = s.tickView n := by simp [State.spUpdate]
@[simp] theorem State.tickView_setRate (m : Nat) (b : Bool) : (s.setRate m b).tickView n = s.tickView n := by simp [State.setRate]
@[simp] theorem State.tickView_startPlan (m : Nat) (t : FTime) (src : Src) (k : Kin) (pieces : List (Nat × Int)) (endP : Option Val) (endV : Val) :
    (s.startPlan m t src k pieces endP endV).tickView n = s.tickView n := by simp [State.startPlan]
@[simp] theorem State.tickView_camUse (c : Nat) (d : Int) : (s.camUse c d).tickView n = s.tickView n := by simp [State.camUse]
@[simp] theorem State.tickView_camsFree (b : Bridle) : (s.camsFree b).tickView n = s.tickView n := by
  unfold State.camsFree
  cases b.cam <;> cases b.camNext <;> simp
@[simp] theorem State.tickView_leaveSource (m : Nat) : (s.leaveSource m).tickView n = s.tickView n := by simp [State.leaveSource]
@[simp] theorem State.tickView_dropResume (m : Nat) : (s.dropResume m).tickView n = s.tickView n := by simp [State.dropResume]
@[simp] theorem State.tickView_restAtPos (m : Nat) (p : Val) (t : FTime) : (s.restAtPos m p t).tickView n = s.tickView n := by simp [State.restAtPos]
@[simp] theorem State.tickView_planMove (m : Nat) (t : FTime) (target : Val) (rel isVel : Bool) (vl al dl jl : Word) :
    (s.planMove m t target rel isVel vl al dl jl).tickView n = s.tickView n := by simp [State.planMove]
@[simp] theorem State.tickView_startLine (t : FTime) (ds : List (Nat × Int)) (ends : Nat → Val) (v a : Int) :
    (s.startLine t ds ends v a).tickView n = s.tickView n := by simp [State.startLine]
@[simp] theorem State.tickView_groupRebase (m : Nat) (t : FTime) : (s.groupRebase m t).tickView n = s.tickView n := by simp [State.groupRebase]
@[simp] theorem State.tickView_genShift (m : Nat) (d : Int) (t : FTime) : (s.genShift m d t).tickView n = s.tickView n := by simp [State.genShift]
@[simp] theorem State.tickView_masterShift (m : Nat) (d : Int) : (s.masterShift m d).tickView n = s.tickView n := by simp [State.masterShift]
@[simp] theorem State.tickView_angleShift (m : Nat) (d : Int) : (s.angleShift m d).tickView n = s.tickView n :=
  State.tickView_rset _ n _ (axcState_ne_angoff n m)

/-! Stages, loops, latches and the compare engine. -/

@[simp] theorem State.tickView_setStage (m st : Nat) (t : FTime) : (s.setStage m st t).tickView n = s.tickView n := by
  rw [State.setStage, State.tickView_updAx]
  · exact s.tickView_fset n _ _ (axcState_ne_live n m)
  · exact fun _ => ⟨rfl, rfl, rfl, rfl⟩
@[simp] theorem State.tickView_startReaction (m : Nat) (w : Int) (t : FTime) : (s.startReaction m w t).tickView n = s.tickView n := by
  simp [State.startReaction]
@[simp] theorem State.tickView_clearLoops (m : Nat) : (s.clearLoops m).tickView n = s.tickView n :=
  (State.tickView_rset _ n _ (axcState_ne_miss n m)).trans (s.tickView_updAx n m fun _ => ⟨rfl, rfl, rfl, rfl⟩)
@[simp] theorem State.tickView_latArm (m u : Nat) (b : Bool) : (s.latArm m u b).tickView n = s.tickView n :=
  (State.tickView_fsetb _ n _ _ (axcState_ne_lat n m)).trans (s.tickView_updAx n m fun _ => ⟨rfl, rfl, rfl, rfl⟩)
@[simp] theorem State.tickView_latOff (m : Nat) : (s.latOff m).tickView n = s.tickView n := by simp [State.latOff]
@[simp] theorem State.tickView_cmpReport (i code : Nat) (t : FTime) (latT latCnt : Word) (pred : Bool) :
    (s.cmpReport i code t latT latCnt pred).tickView n = s.tickView n := by
  have h : ∀ (u : State) e, (u.produce (some (s.ce i).cq) e).tickView n = u.tickView n := fun u e =>
    State.tickView_of_axisSide (State.axisSide_of_posted (u.produce_posted _ _ (by rintro _ ⟨⟩; exact Nat.mod_lt _ (by decide)) _)) n
  simp [State.cmpReport, h]
@[simp] theorem State.tickView_cmpFree (i : Nat) (fired : Bool) : (s.cmpFree i fired).tickView n = s.tickView n := by simp [State.cmpFree]
@[simp] theorem State.tickView_cmpSend (i : Nat) : (s.cmpSend i).tickView n = s.tickView n := by simp [State.cmpSend]
@[simp] theorem State.tickView_cmpFire (i : Nat) (tf : FTime) (latT latCnt : Int) (pred late : Bool) :
    (s.cmpFire i tf latT latCnt pred late).tickView n = s.tickView n := by simp [State.cmpFire]
@[simp] theorem State.tickView_cmpDiscard (i : Nat) : (s.cmpDiscard i).tickView n = s.tickView n := by simp [State.cmpDiscard]
@[simp] theorem State.tickView_cmpShift (m psrc : Nat) (d : Int) (post : Val) : (s.cmpShift m psrc d post).tickView n = s.tickView n := by
  unfold State.cmpShift
  dsimp only
  split
  · simp
  · rw [State.tickView_updAx]
    · simp
    · intro a
      split <;> exact ⟨rfl, rfl, rfl, rfl⟩
@[simp] theorem State.tickView_cmpDel (i : Nat) : (s.cmpDel i).1.tickView n = s.tickView n := by
  unfold State.cmpDel
  dsimp only
  split <;> simp
@[simp] theorem State.tickView_cmpAxisOff (m : Nat) : (s.cmpAxisOff m).tickView n = s.tickView n := by simp [State.cmpAxisOff]
@[simp] theorem State.tickView_cmpSuspend (g : Nat) : (s.cmpSuspend g).tickView n = s.tickView n :=
  (State.tickView_fset _ n _ _ (axcState_ne_cmpRg n g)).trans (State.tickView_foldl_all _ _ s n fun _ _ => rfl)
@[simp] theorem State.tickView_cmpFact (g : Nat) : (s.cmpFact g).tickView n = s.tickView n := by
  unfold State.cmpFact
  split <;> simp

/-! What an axis asks of the others of its groups (R189, R265). -/

theorem State.tickView_others {f : State → Nat → State} (l : List Nat) (hf : ∀ u m, n.val ≠ m → (f u m).tickView n = u.tickView n) :
    ((l.filter (fun m => m != n.val)).foldl f s).tickView n = s.tickView n :=
  s.tickView_foldl f _ n fun u m hm => hf u m fun h => by simp [h] at hm

@[simp] theorem State.tickView_groupFault : (s.groupFault n).tickView n = s.tickView n := by
  unfold State.groupFault
  dsimp only
  split
  · rfl
  · rw [State.tickView_cmpFact]
    refine s.tickView_others n _ fun u m hm => ?_
    split
    · rfl
    · exact u.tickView_cause_ne n _ hm

@[simp] theorem State.tickView_igStop (kind : Nat) : (s.igStop n kind).tickView n = s.tickView n := by
  unfold State.igStop
  split
  · rfl
  · exact s.tickView_others n _ fun u m hm => u.tickView_cause_ne n _ hm

@[simp] theorem State.tickView_stateEvent (old new code : Nat) (t : FTime) : (s.stateEvent n old new code t).tickView n = s.tickView n := by
  simp [State.stateEvent]

end

/-! ### Entries (R182, R185, R188) -/

section
variable (s : State) (n : Fin 256)

/-- An entry into OFF, ARMED or FAULT shows the new state and the one before; what waits for the boundary stays. -/
theorem State.tickView_enter {new : Nat} (h : new = xOFF ∨ new = xARMED ∨ new = xFAULT) (skind : Nat) (t : FTime) :
    (s.enter n new skind t).tickView n = { s.tickView n with state := new, prev := s.axState n } := by
  have hold : s.axState n % 2 ^ 4 = s.axState n := Nat.mod_eq_of_lt (bget_lt _ _)
  have hnew : new % 2 ^ 4 = new := by rcases h with rfl | rfl | rfl <;> rfl
  unfold State.enter
  extract_lets r old s1 s2 tq s3 s4 _ _ _ moving s5 s6 s7
  have h1 : s1.tickView n = { s.tickView n with state := new, prev := s.axState n } := by
    rw [show s1.tickView n = ((s.fset r fAXC_STATE_STATE new).fset r fAXC_STATE_PREV old).tickView n from
      State.tickView_fset_from16 _ n fAXC_STATE_SKIND _ (.inr ⟨rfl, rfl⟩)]
    simp only [State.tickView, State.rget_fset, TickView.of, r, State.ax_fset, old]
    rw [bget_bset _ fAXC_STATE_PREV _ (by decide), bget_bset_ne _ fAXC_STATE_PREV fAXC_STATE_STATE _ (by decide),
      bget_bset _ fAXC_STATE_STATE _ (by decide)]
    rw [bget_bset_ne _ fAXC_STATE_PREV fAXC_STATE_FCAUSE _ (by decide), bget_bset_ne _ fAXC_STATE_STATE fAXC_STATE_FCAUSE _ (by decide),
      bget_bset_ne _ fAXC_STATE_PREV fAXC_STATE_NOPWR _ (by decide), bget_bset_ne _ fAXC_STATE_STATE fAXC_STATE_NOPWR _ (by decide)]
    congr 1
  have h2 : s2.tickView n = s1.tickView n := by simp [s2]
  have h3 : s3.tickView n = s2.tickView n := by
    simp only [s3, State.tickView_ite, State.tickView_fset_from16 _ n fAXC_STATE_ANGVAL _ (.inl (by decide)), ite_self]
  have h4 : s4.tickView n = s3.tickView n := by simp [s4]
  have h7 : s7.tickView n = s4.tickView n := by simp [s7, s6, s5]
  rw [← h1, ← h2, ← h3, ← h4]
  rcases h with rfl | rfl | rfl
  · simp
  · simp [xARMED, xOFF]
  · simp [xFAULT, xOFF, xARMED, xREADY, xRUN, xALIGN, xCATCH, xTEST, xSTOPPING, xHOLD, h7]

/-! ### Taking causes (R183, R184, R186) -/

/-- Is a cause a fault? -/
def Cause.isFault : Cause → Bool
  | .fault _ _ => true
  | _ => false

theorem Cause.exists_of_isFault {c : Cause} (h : c.isFault = true) : ∃ code stop, c = .fault code stop := by
  cases c with
  | fault code stop => exact ⟨code, stop, rfl⟩
  | _ => cases h

variable {s n} in
/-- In OFF faults are not taken (R186). -/
theorem State.takeAll_off (hx : s.axState n = xOFF) (t : FTime) (cs : List Cause) (hcs : ∀ c ∈ cs, c.isFault = true) (moved : Bool)
    (w : List Cause) : s.takeAll n t cs moved w = (s, w) := by
  induction cs with
  | nil => rfl
  | cons c cs ih =>
    have hrest := ih fun d hd => hcs d (List.mem_cons_of_mem _ hd)
    obtain ⟨code, stop, rfl⟩ := Cause.exists_of_isFault (hcs _ List.mem_cons_self)
    have htake : s.take n (.fault code stop) t moved = tookNo s moved := if_pos hx
    rw [State.takeAll, htake]
    exact hrest

/-- In FAULT a further fault is only told (R186). -/
theorem State.takeAll_fault (t : FTime) (cs : List Cause) (hcs : ∀ c ∈ cs, c.isFault = true) (moved : Bool) (w : List Cause)
    (hx : s.axState n = xFAULT) : (s.takeAll n t cs moved w).1.tickView n = s.tickView n ∧ (s.takeAll n t cs moved w).2 = w := by
  induction cs generalizing s with
  | nil => exact ⟨rfl, rfl⟩
  | cons c cs ih =>
    obtain ⟨code, stop, rfl⟩ := Cause.exists_of_isFault (hcs _ List.mem_cons_self)
    have htake : s.take n (.fault code stop) t moved = tookNo (s.stateEvent n xFAULT xFAULT code t) moved := by
      simp [State.take, State.takeFault, hx, xFAULT, xOFF]
    have hview := s.tickView_stateEvent n xFAULT xFAULT code t
    obtain ⟨hv, hw⟩ := ih (s.stateEvent n xFAULT xFAULT code t) (fun d hd => hcs d (List.mem_cons_of_mem _ hd))
      ((congrArg TickView.state hview).trans hx)
    rw [State.takeAll, htake]
    exact ⟨hv.trans hview, hw⟩

variable {s n} in
/-- A fault without a stop takes an axis from READY or RUN to FAULT, as the first cause of its boundary (R183, R186). -/
theorem State.takeFault_running (hx : s.axState n = xREADY ∨ s.axState n = xRUN) (code : Nat) (t : FTime) :
    s.takeFault n code false t false = tookNo ((s.recordCause n code).enter n xFAULT 0 t) true := by
  rcases hx with hx | hx <;> simp [State.takeFault, hx, xREADY, xRUN, xFAULT, xOFF, xSTOPPING, State.goTo]

theorem State.tickView_fset_fcause {code : Nat} (hc : code < 2 ^ fAXC_STATE_FCAUSE.w) :
    (s.fset (rAXC_STATE n) fAXC_STATE_FCAUSE code).tickView n = { s.tickView n with fcause := code } := by
  rw [State.tickView, State.rget_fset, TickView.of, bget_bset _ fAXC_STATE_FCAUSE _ (by decide),
    bget_bset_ne _ fAXC_STATE_FCAUSE fAXC_STATE_STATE _ (by decide), bget_bset_ne _ fAXC_STATE_FCAUSE fAXC_STATE_PREV _ (by decide),
    bget_bset_ne _ fAXC_STATE_FCAUSE fAXC_STATE_NOPWR _ (by decide), Nat.mod_eq_of_lt hc]
  rfl

end

theorem mem_of_mem_inOrder {l : List Cause} {c : Cause} (h : c ∈ inOrder l) : c ∈ l := by
  obtain ⟨r, -, hr⟩ := List.mem_flatMap.1 h
  exact (List.mem_filter.1 hr).1

/-- A fault without a stop that stands first is taken first (R184). -/
theorem inOrder_cons_fault (code : Nat) (l : List Cause) :
    ∃ cs, inOrder (.fault code false :: l) = .fault code false :: cs ∧ ∀ c ∈ cs, c ∈ Cause.fault code false :: l := by
  have h : inOrder (.fault code false :: l)
      = .fault code false :: (ofRank l 0 ++ (List.range' 1 8).flatMap (ofRank (.fault code false :: l))) := rfl
  refine ⟨_, h, fun c hc => mem_of_mem_inOrder ?_⟩
  rw [h]
  exact List.mem_cons_of_mem _ hc

/-! ### Fault levels (R186) -/

theorem State.levels_isFault (s : State) (n : Nat) : ∀ c ∈ s.levels n, c.isFault = true := by
  intro c hc
  unfold State.levels at hc
  dsimp only at hc
  split at hc
  · exact absurd hc List.not_mem_nil
  · simp only [List.mem_append, List.mem_ite_nil_right, List.mem_singleton] at hc
    rcases hc with ((⟨-, rfl⟩ | ⟨-, rfl⟩) | ⟨-, rfl⟩) | ⟨-, rfl⟩ <;> rfl

theorem State.levels_off {s : State} {n : Nat} (hx : s.axState n = xOFF) : s.levels n = [] := by
  simp [State.levels, hx, xOFF, xARMED, energised, xALIGN]

/-- The rip loss of an energised axis stands before its other levels. -/
theorem State.levels_ripLoss {s : State} {n : Nat} (hty : s.axType n ≠ tyVX) (hx : energised (s.axState n) = true)
    (hp : s.powered n = false) : ∃ l, s.levels n = .fault fcRIPLOSS false :: l := by
  unfold State.levels
  dsimp only
  rw [if_neg hty, if_pos (by simp [hx, hp])]
  exact ⟨_, rfl⟩

/-! ### What a boundary prepares (R140, R186, R217) -/

/-- The axis after its shifts, a change of stage and its fault levels, at its tick start. -/
def State.boundaryPrep (s : State) (n : Nat) : State :=
  let u := (((s.updAx n (fun a => { a with bAt := some (s.axTickStart n) })).applyShifts n (s.axTickStart n)).stageDue n
    (s.axTickStart n)).noteLevels n
  u.fsetb (rAXC_STATE n) fAXC_STATE_NOPWR (!u.powered n)

/-- The axis as its causes are about to be taken: none is left to wait. -/
def State.boundaryOpen (s : State) (n : Nat) : State := (s.boundaryPrep n).updAx n (fun a => { a with causes := [] })

/-- The causes that a boundary takes, in the order given to it. -/
def State.boundaryCauses (s : State) (n : Nat) : List Cause :=
  ((s.boundaryPrep n).ax n).causes ++ if (s.boundaryPrep n).axState n = xSTOPPING then [.done 6] else []

/-- The axis after its causes have been taken; those that wait stand before those that arose. -/
def State.boundaryTaken (s : State) (n : Nat) : State :=
  let r := (s.boundaryOpen n).takeAll n (s.axTickStart n) (inOrder (s.boundaryCauses n)) false []
  r.1.updAx n (fun a => { a with causes := r.2.filter (fun c => c != .done 6) ++ a.causes })

/-- A boundary that is due takes the causes; the TICK event that follows leaves the axis and its registers. -/
theorem boundary_completes {s : State} {n : Fin 256} (hb : (s.ax n).bAt ≠ some (s.axTickStart n)) (hh : s.time.halted = false)
    {P : State → Prop} (h : ∀ t : State, t.axisSide = (s.boundaryTaken n).axisSide → P t) : Completes (.axisTickBoundary n) s P :=
  have hx : exec (.axisTickBoundary n) s = .next ((s.boundaryTaken n).tickEvent n (s.axTickStart n)) :=
    if_neg (by simp [hb, hh])
  ⟨_, hx, h _ (State.axisSide_tickEvent _ _ _)⟩

/-- Is a state another but for its axes, and for the state and the stage that an axis shows? -/
def State.sameBut (u s : State) (n : Nat) : Prop := u.wrote { s with axes := u.axes } [rTQ_LIVE n, rAXC_STATE n]

section
variable {s u : State} {n : Fin 256} (h : u.sameBut s n)
include h

theorem State.sameBut.updAx (f : Axis → Axis) : (u.updAx n f).sameBut s n :=
  ⟨congrArg (fun v : State => v.updAx n f) h.1, h.2⟩

theorem State.sameBut.fset (b : Bits) (x : Nat) {o : Nat} (ho : o = rTQ_LIVE n ∨ o = rAXC_STATE n) : (u.fset o b x).sameBut s n := by
  refine ⟨congrArg (fun v : State => { v with regs := (u.fset o b x).regs }) h.1, fun p hp => ?_⟩
  have hne : p ≠ o := by
    rintro rfl
    simp [ho] at hp
  exact (u.rget_fset_ne b x hne).trans (h.2 p hp)

theorem State.sameBut.wfld (o : Nat) (b : Sh) : u.wfld o b = s.wfld o b := by rw [h.1]; rfl
theorem State.sameBut.axType (m : Nat) : u.axType m = s.axType m := h.wfld _ _
theorem State.sameBut.axTether (m : Nat) : u.axTether m = s.axTether m := h.wfld _ _
theorem State.sameBut.inPlan (m : Nat) : u.inPlan m = s.inPlan m := congrArg (· != 0) (h.wfld _ _)
theorem State.sameBut.actStop (m : Nat) (b : Sh) : u.actStop m b = s.actStop m b := congrArg (· != 0) (h.wfld _ _)

theorem State.sameBut.axGon (m : Nat) : u.gd (u.axGon m) = s.gd (s.axGon m) := by
  have hg : u.axGon m = s.axGon m := by rw [h.1]; rfl
  rw [hg, State.gd_of_wrote h]
  rfl

theorem State.sameBut.powered : u.powered n = s.powered n := by
  have hst : u.rget rANC_STAT = s.rget rANC_STAT := h.2 _ (by
    simp only [rANC_STAT, rTQ_LIVE, rAXC_STATE, List.mem_cons, List.not_mem_nil, or_false]
    omega)
  have hcl : u.rget rANC_RIPCL = s.rget rANC_RIPCL := h.2 _ (by
    simp only [rANC_RIPCL, rTQ_LIVE, rAXC_STATE, List.mem_cons, List.not_mem_nil, or_false]
    omega)
  rw [State.powered, h.axType, h.axTether, hcl, h.axGon, State.flag, State.fget, hst]
  rfl

theorem State.sameBut.axPresent (m : Nat) : u.axPresent m = s.axPresent m := by
  have hw : u.presWords = s.presWords := State.presWords_of_wrote (s := { s with axes := u.axes }) h (by
    simp only [List.mem_cons, List.not_mem_nil, or_false]
    rintro o (rfl | rfl) <;> exact notPres_of_le (by simp only [rTQ_LIVE, rAXC_STATE]; omega))
  have hpos : u.axPos m = s.axPos m := h.wfld _ _
  rw [State.axPresent, h.axType, h.axTether, hpos, State.present_of_presWords hw]
  rfl

theorem State.sameBut.axLock (m : Nat) : u.axLock m = s.axLock m := by
  rw [State.axLock, h.axType, h.axTether, h.axGon]
  rfl

theorem State.sameBut.levels (hx : u.axState n = s.axState n) (hf : (u.ax n).forced = (s.ax n).forced) : u.levels n = s.levels n := by
  rw [State.levels, hx, h.axType, h.powered, hf, h.axPresent, h.axLock, h.actStop]
  rfl

end

section
variable (s : State) (n : Fin 256)

/-- A change of stage at the boundary leaves what the boundary decides, and the fault levels (R217). -/
theorem State.stageDue_keeps (tb : FTime) : (s.stageDue n tb).sameBut s n ∧ (s.stageDue n tb).tickView n = s.tickView n
    ∧ ((s.stageDue n tb).ax n).forced = (s.ax n).forced ∧ ((s.stageDue n tb).ax n).lev = (s.ax n).lev := by
  have hrefl : s.sameBut s n := s.wrote_refl _
  have hu := hrefl.updAx (fun a => { a with react := 0 })
  have hv := s.tickView_updAx n n (f := fun a => { a with react := 0 }) fun _ => ⟨rfl, rfl, rfl, rfl⟩
  unfold State.stageDue
  dsimp only
  split
  · refine ⟨(hu.fset _ _ (.inl rfl)).updAx _, (State.tickView_setStage _ _ _ _ _).trans hv, ?_, ?_⟩ <;>
      rw [State.ax_setStage, State.ax_updAx]
  · exact ⟨hu, hv, by rw [State.ax_updAx], by rw [State.ax_updAx]⟩

/-- The fault levels that have arisen join the causes. -/
def State.newLevels : List Cause := (s.levels n).filter (fun c => !(s.ax n).lev.contains c.code)

theorem State.tickView_noteLevels :
    (s.noteLevels n).tickView n = { s.tickView n with causes := (s.ax n).causes ++ s.newLevels n } := by
  rw [State.noteLevels, State.tickView, State.ax_updAx]
  rfl

theorem State.tickView_nopwr (b : Bool) : (s.fsetb (rAXC_STATE n) fAXC_STATE_NOPWR b).tickView n
    = { s.tickView n with nopwr := if b then 1 else 0 } := by
  have hb : (if b then 1 else 0) % 2 ^ fAXC_STATE_NOPWR.w = if b then 1 else 0 := by cases b <;> rfl
  rw [State.fsetb, State.tickView, State.rget_fset, TickView.of, bget_bset _ fAXC_STATE_NOPWR _ (by decide),
    bget_bset_ne _ fAXC_STATE_NOPWR fAXC_STATE_STATE _ (by decide), bget_bset_ne _ fAXC_STATE_NOPWR fAXC_STATE_PREV _ (by decide),
    bget_bset_ne _ fAXC_STATE_NOPWR fAXC_STATE_FCAUSE _ (by decide), hb]
  rfl

end

/-- With no shift decided, a boundary prepares the levels that have arisen and whether power is on. -/
theorem State.boundaryPrep_unshifted {s : State} {n : Fin 256} (hp : (s.ax n).setPos = none) (hi : (s.ax n).idxShift = none) :
    (s.boundaryPrep n).sameBut s n ∧ (s.boundaryPrep n).tickView n = { s.tickView n with
      bAt := some (s.axTickStart n), causes := (s.ax n).causes ++ s.newLevels n, nopwr := if s.powered n then 0 else 1 } := by
  obtain ⟨u, hu⟩ : ∃ u, u = s.updAx n (fun a => { a with bAt := some (s.axTickStart n) }) := ⟨_, rfl⟩
  have hax : u.ax n = { s.ax n with bAt := some (s.axTickStart n) } := by rw [hu, State.ax_updAx]
  have hview : u.tickView n = { s.tickView n with bAt := some (s.axTickStart n) } := by rw [State.tickView, hax, hu]; rfl
  have hus : u.sameBut s n := by rw [hu]; exact State.sameBut.updAx (s.wrote_refl _) _
  have hshift : u.applyShifts n (s.axTickStart n) = u := if_pos (by rw [hax]; exact ⟨hp, hi⟩)
  obtain ⟨hd, hdv, hdf, hdl⟩ := u.stageDue_keeps n (s.axTickStart n)
  obtain ⟨v, hv⟩ : ∃ v, v = u.stageDue n (s.axTickStart n) := ⟨_, rfl⟩
  rw [← hv] at hd hdv hdf hdl
  have hvs : v.sameBut s n := ⟨by rw [hd.1, hus.1], fun o ho => (hd.2 o ho).trans (hus.2 o ho)⟩
  have hvx : v.axState n = s.axState n := congrArg TickView.state (hdv.trans hview)
  have hlev : v.newLevels n = s.newLevels n := by
    rw [State.newLevels, hvs.levels hvx (hdf.trans (by rw [hax])), hdl, hax]
    rfl
  have hcauses : (v.ax n).causes = (s.ax n).causes := congrArg TickView.causes (hdv.trans hview)
  have hws : (v.noteLevels n).sameBut s n := by rw [State.noteLevels]; exact hvs.updAx _
  have hprep : s.boundaryPrep n = (v.noteLevels n).fsetb (rAXC_STATE n) fAXC_STATE_NOPWR (!(v.noteLevels n).powered n) := by
    rw [State.boundaryPrep, ← hu, hshift, ← hv]
  rw [hprep, hws.powered]
  refine ⟨hws.fset _ _ (.inr rfl), ?_⟩
  rw [State.tickView_nopwr, State.tickView_noteLevels, hcauses, hlev, hdv, hview]
  cases s.powered n <;> rfl

/-! ### The transitions of requests and ends (R183) -/

section
variable {s : State} {n : Fin 256} (t : FTime)

theorem State.take_arm (hx : s.axState n = xOFF) (hpl : s.inPlan n = true) (hpr : s.axPresent n = true) (hlk : s.axLock n = true) :
    s.take n (.req .arm none) t false = tookNo (s.enter n xARMED 0 t) true := by
  simp [State.take, State.takeReq, hx, hpl, hpr, hlk, State.goTo, State.reqAck]

theorem State.take_arm_refused (hpl : s.inPlan n = false) : s.take n (.req .arm none) t false = tookNo (s.axRefuse n) false :=
  if_neg fun h => Bool.false_ne_true (hpl.symm.trans h.2.1)

theorem State.take_disable_armed (hx : s.axState n = xARMED) :
    s.take n (.req .disable none) t false = tookNo (s.enter n xOFF 0 t) true := by
  simp [State.take, State.takeReq, hx, State.goTo, State.reqAck]

theorem State.take_planEnd (hx : s.axState n = xARMED) (hpl : s.inPlan n = false) :
    s.take n (.done 7) t false = tookNo ((s.enter n xOFF 0 t).fset (rAXC_STATE n) fAXC_STATE_FCAUSE 0) true := by
  have hne : xARMED ≠ xOFF := by decide
  simp [State.take, State.takeDone, hx, hpl, hne, State.goTo, atRestState]

end

/-! ### Boundaries without a shift (R182-R186) -/

section
variable {s : State} {n : Fin 256}

/-- Causes that have been taken leave none of their own. -/
theorem State.tickView_rejoin (u : State) : (u.updAx n (fun a => { a with causes := [] ++ a.causes })).tickView n = u.tickView n :=
  u.tickView_updAx n n fun _ => ⟨rfl, rfl, rfl, rfl⟩

theorem State.boundaryTaken_single {c : Cause} {u : State} {moved : Bool} (hc : s.boundaryCauses n = [c]) (ho : inOrder [c] = [c])
    (ht : (s.boundaryOpen n).take n c (s.axTickStart n) false = tookNo u moved) :
    s.boundaryTaken n = u.updAx n (fun a => { a with causes := [] ++ a.causes }) := by
  rw [State.boundaryTaken, hc, ho, State.takeAll, ht]
  rfl

variable (hb : (s.ax n).bAt ≠ some (s.axTickStart n)) (hh : s.time.halted = false) (hp : (s.ax n).setPos = none)
  (hi : (s.ax n).idxShift = none)

section
include hp hi

theorem State.boundaryOpen_unshifted : (s.boundaryOpen n).sameBut s n ∧ (s.boundaryOpen n).tickView n = { s.tickView n with
    bAt := some (s.axTickStart n), causes := [], nopwr := if s.powered n then 0 else 1 } := by
  obtain ⟨hs, hv⟩ := State.boundaryPrep_unshifted hp hi
  refine ⟨hs.updAx _, ?_⟩
  have hopen : (s.boundaryOpen n).tickView n = { (s.boundaryPrep n).tickView n with causes := [] } := by
    rw [State.boundaryOpen, State.tickView, State.ax_updAx]
    rfl
  rw [hopen, hv]

theorem State.boundaryCauses_unshifted (hx : s.axState n ≠ xSTOPPING) : s.boundaryCauses n = (s.ax n).causes ++ s.newLevels n := by
  obtain ⟨-, hv⟩ := State.boundaryPrep_unshifted hp hi
  have hx' : (s.boundaryPrep n).axState n = s.axState n := congrArg TickView.state hv
  have hc : ((s.boundaryPrep n).ax n).causes = (s.ax n).causes ++ s.newLevels n := congrArg TickView.causes hv
  rw [State.boundaryCauses, hx', if_neg hx, hc, List.append_nil]

end

include hb hh hp hi

/-- A boundary with one cause and no fault level: what taking the cause makes of the axis is what the boundary leaves. -/
theorem boundary_single_completes {c : Cause} {u : State} {moved : Bool} (hx : s.axState n ≠ xSTOPPING) (hc : (s.ax n).causes = [c])
    (hl : s.levels n = []) (ho : inOrder [c] = [c]) (ht : (s.boundaryOpen n).take n c (s.axTickStart n) false = tookNo u moved)
    {P : State → Prop} (h : ∀ t : State, t.tickView n = u.tickView n → t.rget (rAXC_STAT n) = u.rget (rAXC_STAT n) → P t) :
    Completes (.axisTickBoundary n) s P := by
  refine boundary_completes hb hh fun t hside => ?_
  have hcs : s.boundaryCauses n = [c] := by
    rw [State.boundaryCauses_unshifted hp hi hx, hc, State.newLevels, hl]
    rfl
  rw [State.boundaryTaken_single hcs ho ht] at hside
  have hstat : axisReg (rAXC_STAT n) := .inl (by simp only [rAXC_STAT]; omega)
  exact h t ((State.tickView_of_axisSide hside n).trans (State.tickView_rejoin u)) (State.rget_of_axisSide hside hstat)

theorem arm_completes (hx : s.axState n = xOFF) (hc : (s.ax n).causes = [.req .arm none]) (hpl : s.inPlan n = true)
    (hpr : s.axPresent n = true) (hlk : s.axLock n = true) :
    Completes (.axisTickBoundary n) s (fun t => t.axState n = xARMED ∧ t.fget (rAXC_STATE n) fAXC_STATE_PREV = xOFF
      ∧ (t.ax n).causes = [] ∧ (t.ax n).bAt = some (s.axTickStart n)) := by
  obtain ⟨hs, hv⟩ := State.boundaryOpen_unshifted hp hi
  have hxo : (s.boundaryOpen n).axState n = xOFF := (congrArg TickView.state hv).trans hx
  have ht := State.take_arm (s.axTickStart n) hxo ((hs.inPlan n).trans hpl) ((hs.axPresent n).trans hpr) ((hs.axLock n).trans hlk)
  refine boundary_single_completes hb hh hp hi (by rw [hx]; decide) hc (State.levels_off hx) rfl ht fun t htv _ => ?_
  rw [State.tickView_enter _ n (.inr (.inl rfl)), hv, hxo] at htv
  exact ⟨congrArg TickView.state htv, congrArg TickView.prev htv, congrArg TickView.causes htv, congrArg TickView.bAt htv⟩

theorem arm_refused_completes (hx : s.axState n = xOFF) (hc : (s.ax n).causes = [.req .arm none]) (hpl : s.inPlan n = false) :
    Completes (.axisTickBoundary n) s (fun t => t.axState n = xOFF ∧ t.flag (rAXC_STAT n) fAXC_STAT_REFUSED = true
      ∧ (t.ax n).causes = []) := by
  obtain ⟨hs, hv⟩ := State.boundaryOpen_unshifted hp hi
  have ht := State.take_arm_refused (s.axTickStart n) ((hs.inPlan n).trans hpl)
  refine boundary_single_completes hb hh hp hi (by rw [hx]; decide) hc (State.levels_off hx) rfl ht fun t htv hreg => ?_
  rw [State.axRefuse, State.tickView_raise _ n _ (axcState_ne_stat n n), hv] at htv
  refine ⟨(congrArg TickView.state htv).trans hx, ?_, congrArg TickView.causes htv⟩
  rw [State.flag, State.fget, hreg]
  exact State.flag_raise _ _ fAXC_STAT_REFUSED (by decide) (by decide)

theorem disable_completes (hx : s.axState n = xARMED) (hc : (s.ax n).causes = [.req .disable none]) (hl : s.levels n = []) :
    Completes (.axisTickBoundary n) s (fun t => t.axState n = xOFF ∧ t.fget (rAXC_STATE n) fAXC_STATE_PREV = xARMED
      ∧ (t.ax n).causes = []) := by
  obtain ⟨-, hv⟩ := State.boundaryOpen_unshifted hp hi
  have hxo : (s.boundaryOpen n).axState n = xARMED := (congrArg TickView.state hv).trans hx
  have ht := State.take_disable_armed (s.axTickStart n) hxo
  refine boundary_single_completes hb hh hp hi (by rw [hx]; decide) hc hl rfl ht fun t htv _ => ?_
  rw [State.tickView_enter _ n (.inl rfl), hv, hxo] at htv
  exact ⟨congrArg TickView.state htv, congrArg TickView.prev htv, congrArg TickView.causes htv⟩

/-- The end of an axis's place in the plan takes it from ARMED to OFF, with no cause recorded. -/
theorem planEnd_completes (hx : s.axState n = xARMED) (hc : (s.ax n).causes = [.done 7]) (hl : s.levels n = []) (hpl : s.inPlan n = false) :
    Completes (.axisTickBoundary n) s (fun t => t.axState n = xOFF ∧ t.fget (rAXC_STATE n) fAXC_STATE_PREV = xARMED
      ∧ (t.ax n).causes = []) := by
  obtain ⟨hs, hv⟩ := State.boundaryOpen_unshifted hp hi
  have hxo : (s.boundaryOpen n).axState n = xARMED := (congrArg TickView.state hv).trans hx
  have ht := State.take_planEnd (s.axTickStart n) hxo ((hs.inPlan n).trans hpl)
  refine boundary_single_completes hb hh hp hi (by rw [hx]; decide) hc hl rfl ht fun t htv _ => ?_
  rw [State.tickView_fset_fcause _ n (by decide), State.tickView_enter _ n (.inl rfl), hv, hxo] at htv
  exact ⟨congrArg TickView.state htv, congrArg TickView.prev htv, congrArg TickView.causes htv⟩

/-- A rip loss is the first cause of its boundary: the axis enters FAULT with it recorded (R183, R186). -/
theorem ripLoss_completes (hty : s.axType n ≠ tyVX) (hx : s.axState n = xREADY ∨ s.axState n = xRUN) (hc : (s.ax n).causes = [])
    (hpw : s.powered n = false) (hlev : fcRIPLOSS ∉ (s.ax n).lev) (hfc : s.fget (rAXC_STATE n) fAXC_STATE_FCAUSE = 0) :
    Completes (.axisTickBoundary n) s (fun t => t.axState n = xFAULT ∧ t.fget (rAXC_STATE n) fAXC_STATE_FCAUSE = fcRIPLOSS
      ∧ t.flag (rAXC_STATE n) fAXC_STATE_NOPWR = true) := by
  obtain ⟨-, hv⟩ := State.boundaryOpen_unshifted hp hi
  have hxs : s.axState n ≠ xSTOPPING := by rcases hx with hx | hx <;> rw [hx] <;> decide
  have hen : energised (s.axState n) = true := by rcases hx with hx | hx <;> rw [hx] <;> rfl
  obtain ⟨l, hl⟩ := State.levels_ripLoss hty hen hpw
  obtain ⟨l', hl'⟩ : ∃ l', s.newLevels n = .fault fcRIPLOSS false :: l' := by
    rw [State.newLevels, hl, List.filter_cons_of_pos (by simpa [Cause.code] using hlev)]
    exact ⟨_, rfl⟩
  obtain ⟨cs, hcs, hmem⟩ := inOrder_cons_fault fcRIPLOSS l'
  have hord : inOrder (s.boundaryCauses n) = .fault fcRIPLOSS false :: cs := by
    rw [State.boundaryCauses_unshifted hp hi hxs, hc, hl', List.nil_append, hcs]
  have hfault : ∀ c ∈ cs, c.isFault = true := fun c hm =>
    s.levels_isFault n c (List.mem_filter.1 (show c ∈ s.newLevels n from hl' ▸ hmem c hm)).1
  obtain ⟨o, ho⟩ : ∃ o, o = s.boundaryOpen n := ⟨_, rfl⟩
  rw [← ho] at hv
  have hxo : o.axState n = xREADY ∨ o.axState n = xRUN := by
    rw [show o.axState n = s.axState n from congrArg TickView.state hv]
    exact hx
  have hrec : (o.recordCause n fcRIPLOSS).tickView n = { o.tickView n with fcause := fcRIPLOSS } := by
    have hfo : o.fget (rAXC_STATE n) fAXC_STATE_FCAUSE = 0 := (congrArg TickView.fcause hv).trans hfc
    rw [State.recordCause, if_pos hfo, State.tickView_fset_fcause _ _ (by decide)]
  obtain ⟨u, hu⟩ : ∃ u, u = (o.recordCause n fcRIPLOSS).enter n xFAULT 0 (s.axTickStart n) := ⟨_, rfl⟩
  have huv : u.tickView n = { (o.recordCause n fcRIPLOSS).tickView n with
      state := xFAULT, prev := (o.recordCause n fcRIPLOSS).axState n } := by
    rw [hu]
    exact State.tickView_enter _ n (.inr (.inr rfl)) 0 _
  have htake : o.take n (.fault fcRIPLOSS false) (s.axTickStart n) false = tookNo u true := by
    rw [hu]
    exact State.takeFault_running hxo _ _
  obtain ⟨hall, hwait⟩ := u.takeAll_fault n (s.axTickStart n) cs hfault true [] (congrArg TickView.state huv)
  have htaken : (s.boundaryTaken n).tickView n = u.tickView n := by
    rw [State.boundaryTaken, ← ho, hord, State.takeAll, htake]
    simp only [tookNo, Bool.false_eq_true, if_false, hwait]
    exact (State.tickView_rejoin _).trans hall
  refine boundary_completes hb hh fun t hside => ?_
  have htv := (State.tickView_of_axisSide hside n).trans htaken
  rw [huv, hrec, hv, hpw] at htv
  exact ⟨congrArg TickView.state htv, congrArg TickView.fcause htv, congrArg (fun v : TickView => v.nopwr != 0) htv⟩

end

/-! ### Shifts (R140-R143) -/

/-- More causes wait for the boundary. -/
def TickView.addCauses (v : TickView) (l : List Cause) : TickView := { v with causes := v.causes ++ l }

/-- No shift is left. -/
def TickView.shifted (v : TickView) : TickView := { v with setPos := none, idxShift := none }

theorem TickView.addCauses_nil (v : TickView) : v.addCauses [] = v := by rw [TickView.addCauses, List.append_nil]

/-- Faults alone were added to what waits for the boundary. -/
def TickView.faultsAdded (v w : TickView) : Prop := ∃ l : List Cause, (∀ c ∈ l, c.isFault = true) ∧ v = w.addCauses l

theorem TickView.faultsAdded_refl (v : TickView) : v.faultsAdded v := ⟨[], fun _ hc => absurd hc List.not_mem_nil, v.addCauses_nil.symm⟩

section
variable (s : State) (n : Fin 256)

theorem State.tickView_cause (c : Cause) : (s.cause n c).tickView n = (s.tickView n).addCauses [c] := by
  rw [State.cause, State.tickView, State.ax_updAx]
  rfl

/-- A sum that moves changes nothing that a boundary decides, but that a clamp may leave a fault to it (R134, R135). -/
theorem State.tickView_sumMoved (old : Int) (t : FTime) : ((s.sumMoved n old t).tickView n).faultsAdded (s.tickView n) := by
  have hsame : ∀ u : State, u.tickView n = s.tickView n → (u.tickView n).faultsAdded (s.tickView n) := fun u hu => by
    rw [hu]
    exact TickView.faultsAdded_refl _
  unfold State.sumMoved
  extract_lets new c was s1 s2
  have h1 : s1.tickView n = s.tickView n := by simp [s1]
  have h2 : s2.tickView n = s.tickView n := by simp [s2, h1]
  split
  · exact hsame _ (by simp)
  · split
    · split
      · refine ⟨[.fault fcPOSLIM (s2.actStop n fAXC_FLT_ACT_POSLIM)], by simp [Cause.isFault], ?_⟩
        rw [State.faultCause, State.tickView_cause, h2]
      · exact hsame _ h2
    · exact hsame _ h1

/-- The shifts decided take effect and none is left; a clamp of the position may leave a fault (R140-R143). -/
theorem State.applyShifts_shows (tb : FTime) (h : (s.ax n).setPos ≠ none ∨ (s.ax n).idxShift ≠ none) :
    (s.applyShifts n tb).flag (rFBK_STAT n) fFBK_STAT_SHIFT_PEND = false
      ∧ ((s.applyShifts n tb).tickView n).faultsAdded (s.tickView n).shifted := by
  unfold State.applyShifts
  extract_lets a old own d1 d2 d s1 s2 s3 s4 s5
  have h1 : s1.tickView n = (s.tickView n).shifted := by
    rw [State.tickView, State.ax_updAx]
    rfl
  have h2 : s2.tickView n = s1.tickView n := by simp [s2]
  have h3 : s3.tickView n = s2.tickView n := by simp [s3]
  have h13 : s3.tickView n = (s.tickView n).shifted := (h3.trans h2).trans h1
  have h4 : (s4.tickView n).faultsAdded (s.tickView n).shifted := by
    rw [← h13]
    by_cases ho : own = true
    · rw [show s4 = s3 from if_pos ho]
      exact TickView.faultsAdded_refl _
    · rw [show s4 = s3.sumMoved n old tb from if_neg ho]
      exact s3.tickView_sumMoved n old tb
  have h5 : s5.tickView n = s4.tickView n := by simp [s5]
  rw [if_neg (by rintro ⟨hp, hi⟩; exact h.elim (· hp) (· hi))]
  refine ⟨?_, ?_⟩
  · rw [State.flag, State.fget_fset _ _ _ _ (by decide)]
    rfl
  · rw [State.tickView_fset _ n _ _ (axcState_ne_fbk n n), h5]
    exact h4

end

section
variable {s : State} {n : Fin 256}

/-- A boundary that applies a shift in OFF prepares no cause but faults, and no shift is left. -/
theorem State.boundaryPrep_shifted (hsh : (s.ax n).setPos ≠ none ∨ (s.ax n).idxShift ≠ none) (hc : (s.ax n).causes = [])
    (hx : s.axState n = xOFF) : (s.boundaryPrep n).flag (rFBK_STAT n) fFBK_STAT_SHIFT_PEND = false
      ∧ (s.boundaryPrep n).axState n = xOFF ∧ ((s.boundaryPrep n).ax n).setPos = none ∧ ((s.boundaryPrep n).ax n).idxShift = none
      ∧ ∀ c ∈ ((s.boundaryPrep n).ax n).causes, c.isFault = true := by
  obtain ⟨u, hu⟩ : ∃ u, u = s.updAx n (fun a => { a with bAt := some (s.axTickStart n) }) := ⟨_, rfl⟩
  have hax : u.ax n = { s.ax n with bAt := some (s.axTickStart n) } := by rw [hu, State.ax_updAx]
  have hux : u.axState n = xOFF := by rw [hu]; exact hx
  obtain ⟨hpend, l, hl, hshift⟩ := u.applyShifts_shows n (s.axTickStart n) (by rw [hax]; exact hsh)
  obtain ⟨v, hv⟩ : ∃ v, v = u.applyShifts n (s.axTickStart n) := ⟨_, rfl⟩
  rw [← hv] at hpend hshift
  obtain ⟨hstage, hdue, -, -⟩ := v.stageDue_keeps n (s.axTickStart n)
  obtain ⟨w, hw⟩ : ∃ w, w = v.stageDue n (s.axTickStart n) := ⟨_, rfl⟩
  rw [← hw] at hstage hdue
  have hview := hdue.trans hshift
  have hwx : w.axState n = xOFF := (congrArg TickView.state hview).trans hux
  have hnew : w.newLevels n = [] := by rw [State.newLevels, State.levels_off hwx]; rfl
  have hcauses : (w.ax n).causes = l := by
    rw [show (w.ax n).causes = (u.ax n).causes ++ l from congrArg TickView.causes hview, hax]
    exact congrArg (· ++ l) hc
  have hfbk : rFBK_STAT n ≠ rAXC_STATE n := (axcState_ne_fbk n n).symm
  have hfbk' : rFBK_STAT n ∉ [rTQ_LIVE n, rAXC_STATE n] := by
    simp only [rFBK_STAT, rTQ_LIVE, rAXC_STATE, List.mem_cons, List.not_mem_nil, or_false]
    omega
  have hprep : s.boundaryPrep n = (w.noteLevels n).fsetb (rAXC_STATE n) fAXC_STATE_NOPWR (!(w.noteLevels n).powered n) := by
    rw [State.boundaryPrep, ← hu, ← hv, ← hw]
  have hend : (s.boundaryPrep n).tickView n = { w.tickView n with
      causes := l, nopwr := if !(w.noteLevels n).powered n then 1 else 0 } := by
    rw [hprep, State.tickView_nopwr, State.tickView_noteLevels, hnew, hcauses, List.append_nil]
  rw [hview] at hend
  have hreg : (s.boundaryPrep n).rget (rFBK_STAT n) = v.rget (rFBK_STAT n) := by
    rw [hprep]
    exact (State.rget_fset_ne _ _ _ hfbk).trans (hstage.2 _ hfbk')
  refine ⟨?_, (congrArg TickView.state hend).trans hux, congrArg TickView.setPos hend, congrArg TickView.idxShift hend, ?_⟩
  · rw [State.flag, State.fget, hreg]
    exact hpend
  · rw [show ((s.boundaryPrep n).ax n).causes = l from congrArg TickView.causes hend]
    exact hl

theorem shift_completes (hb : (s.ax n).bAt ≠ some (s.axTickStart n)) (hh : s.time.halted = false)
    (hsh : (s.ax n).setPos ≠ none ∨ (s.ax n).idxShift ≠ none) (hc : (s.ax n).causes = []) (hx : s.axState n = xOFF) :
    Completes (.axisTickBoundary n) s (fun t => (t.ax n).setPos = none ∧ (t.ax n).idxShift = none
      ∧ t.flag (rFBK_STAT n) fFBK_STAT_SHIFT_PEND = false ∧ t.axState n = xOFF) := by
  obtain ⟨hpend, hpx, hset, hidx, hfault⟩ := State.boundaryPrep_shifted hsh hc hx
  have hcs : s.boundaryCauses n = ((s.boundaryPrep n).ax n).causes := by
    rw [State.boundaryCauses, hpx, if_neg (by decide), List.append_nil]
  have hall : ∀ c ∈ inOrder (s.boundaryCauses n), c.isFault = true := fun c hm => hfault c (hcs ▸ mem_of_mem_inOrder hm)
  have hox : (s.boundaryOpen n).axState n = xOFF := hpx
  have hopen : ((s.boundaryOpen n).ax n).setPos = none ∧ ((s.boundaryOpen n).ax n).idxShift = none := by
    rw [State.boundaryOpen, State.ax_updAx]
    exact ⟨hset, hidx⟩
  have htaken : s.boundaryTaken n = (s.boundaryOpen n).updAx n (fun a => { a with causes := [] ++ a.causes }) := by
    rw [State.boundaryTaken, State.takeAll_off hox _ _ hall]
    rfl
  refine boundary_completes hb hh fun t hside => ?_
  rw [htaken] at hside
  have htv := (State.tickView_of_axisSide hside n).trans (State.tickView_rejoin _)
  have hfbk : t.rget (rFBK_STAT n) = (s.boundaryPrep n).rget (rFBK_STAT n) :=
    State.rget_of_axisSide hside (.inr (by simp only [rFBK_STAT]; omega))
  refine ⟨(congrArg TickView.setPos htv).trans hopen.1, (congrArg TickView.idxShift htv).trans hopen.2, ?_,
    (congrArg TickView.state htv).trans hox⟩
  rw [State.flag, State.fget, hfbk]
  exact hpend

end

end Sys2Proof.Machine

/-- Settles O25: a boundary that is passed does nothing; of one that is due, each clause by the lemma on what it takes. -/
theorem axisBoundaryRows : Obligations.AxisBoundaryRows := by
  unfold Obligations.AxisBoundaryRows
  intro s n
  refine ⟨fun h => ⟨s, if_pos h, rfl⟩, fun hb hh => ⟨fun hp hi => ?_, shift_completes hb hh⟩⟩
  exact ⟨arm_completes hb hh hp hi, arm_refused_completes hb hh hp hi, disable_completes hb hh hp hi, planEnd_completes hb hh hp hi,
    ripLoss_completes hb hh hp hi⟩

end

section
/-! SUPPORT. The mailbox objects of field time, and the settling of the statement on them. -/
open Sys2Proof Sys2Proof.Machine
namespace Sys2Proof.Machine

/-! ### What a request leaves of field time and of the plan -/

@[simp] theorem State.asked_time (s : State) (set code op : Nat) (i : BitVec 14) (ops : List Word) :
    (s.asked set code op i ops).time = s.time := State.time_of_ftm (s.ftm_asked set code op i ops)
@[simp] theorem State.asked_commit (s : State) (set code op : Nat) (i : BitVec 14) (ops : List Word) :
    (s.asked set code op i ops).commit = s.commit := by rw [State.asked_regs]
@[simp] theorem State.asked_inPlan (s : State) (set code op : Nat) (i : BitVec 14) (ops : List Word) (n : Nat) :
    (s.asked set code op i ops).inPlan n = s.inPlan n := State.asked_wflag s set code op i ops _ _

@[simp] theorem State.time_withAns (u : State) (A : Tbl (Option MbxAns)) (F : Nat) : (u.withAns A F).time = u.time := rfl

/-! ### Queues of stamps (R42, R43) -/

/-- The state in which the oldest stamp of a time-stamp input has been taken (R43). -/
def State.tsiTaken (s : State) (k : Nat) (rest : List (Bool × FTime)) : State :=
  (s.updTime (fun u => { u with tsi := tset [] u.tsi k rest })).fset rFTM_TSI_STAT (tsiCnt k) rest.length

theorem State.tsiTaken_shows (s : State) {k : Nat} (hk : k < 4) (rest : List (Bool × FTime)) :
    tget [] (s.tsiTaken k rest).time.tsi k = rest ∧ (s.tsiTaken k rest).fget rFTM_TSI_STAT (tsiCnt k) = rest.length % 8 :=
  ⟨tget_tset_same _ _ _ _, State.fget_fset _ _ _ _ (by simp only [tsiCnt]; omega)⟩

/-- The state in which the oldest transmit stamp of a port has been taken (R42). -/
def State.txtsTaken (s : State) (p : Nat) (rest : List (BitVec 16 × FTime)) : State :=
  (s.updTime (fun u => { u with txts := tset [] u.txts p rest })).fset rFTM_TXTS_STAT (txtsCnt p) rest.length

theorem State.txts_txtsTaken (s : State) (p : Nat) (rest : List (BitVec 16 × FTime)) : tget [] (s.txtsTaken p rest).time.txts p = rest :=
  tget_tset_same _ _ _ _

/-- The state in which target and period of a comparator wait for the next core cycle (R45). -/
def State.tcSet (s : State) (n : Nat) (target : FTime) (period : BitVec 64) : State :=
  s.updTime (fun u => u.setComp n { u.comp n with next := some (target, period) })

/-! ### The objects (R39, R42, R43, R45, R163, R164, R447) -/

section
variable {s : State} {set : Fin 4} {via : RegPath} (h : s.mbxFree set via)
include h

theorem ftNow_completes : Completes (.ftNow set via) s (fun t => t.answers set mbxOK
    (words64 s.now ++ [s.time.frac, s.time.incI.setWidth 32, s.time.incF]) ∧ t.time = s.time) := by
  refine completes_read State.time rfl h ?_ fun _ _ _ => rfl
  rw [mboFtNow, State.asked_now, State.asked_time]

theorem ftTsi_empty {k : BitVec 14} (hk : k.toNat < 4) (hq : tget [] s.time.tsi k.toNat = []) :
    Completes (.ftTsi set via k) s (fun t => t.answers set mbxOK [BitVec.ofNat 32 k.toNat, 0, 0] ∧ t.time = s.time) := by
  refine completes_read State.time rfl h ?_ fun _ _ _ => rfl
  simp only [mboFtTsi, if_neg (Nat.not_le.2 hk), State.asked_time, hq]

theorem ftTsi_stamp {k : BitVec 14} (hk : k.toNat < 4) {up : Bool} {x : FTime} {r : List (Bool × FTime)}
    (hq : tget [] s.time.tsi k.toNat = (up, x) :: r) : Completes (.ftTsi set via k) s (fun t =>
      t.answers set mbxOK (BitVec.ofNat 32 (k.toNat + (if up then 0x100 else 0) + 0x80000000) :: words64 x)
        ∧ tget [] t.time.tsi k.toNat = r ∧ t.fget rFTM_TSI_STAT (tsiCnt k.toNat) = r.length % 8) := by
  refine completes_mbx rfl h (u := (s.asked set 0x003 2 k []).tsiTaken k.toNat r) ?_ fun A F => State.tsiTaken_shows _ hk r
  simp only [mboFtTsi, if_neg (Nat.not_le.2 hk), State.asked_time, hq, State.tsiTaken]

theorem ftTxts_empty {p : BitVec 14} (hp : p.toNat < 2) (hq : tget [] s.time.txts p.toNat = []) :
    Completes (.ftTxts set via p) s (fun t => t.answers set mbxOK [0, 0, 0] ∧ t.time = s.time) := by
  refine completes_read State.time rfl h ?_ fun _ _ _ => rfl
  simp only [mboFtTxts, State.txtsPop, if_neg (Nat.not_le.2 hp), State.asked_time, hq]

theorem ftTxts_stamp {p : BitVec 14} (hp : p.toNat < 2) {f : BitVec 16} {x : FTime} {r : List (BitVec 16 × FTime)}
    (hq : tget [] s.time.txts p.toNat = (f, x) :: r) : Completes (.ftTxts set via p) s (fun t =>
      t.answers set mbxOK (BitVec.ofNat 32 (f.toNat + 0x80000000) :: words64 x) ∧ tget [] t.time.txts p.toNat = r) := by
  refine completes_mbx rfl h (u := (s.asked set 0x004 2 p []).txtsTaken p.toNat r) ?_ fun A F => State.txts_txtsTaken _ _ r
  simp only [mboFtTxts, State.txtsPop, if_neg (Nat.not_le.2 hp), State.asked_time, hq, State.txtsTaken]

section
variable {n : BitVec 14} (hn : n.toNat < 8) (target : BitVec 64) {period : BitVec 64}
include hn

theorem ftTc_accepted (hper : period = 0 ∨ (4000 ≤ period.toNat ∧ period.toNat ≤ 2 ^ 48)) :
    Completes (.ftTc set via n target period) s (fun t => t.answers set mbxOK []
      ∧ t.time.comp n.toNat = { s.time.comp n.toNat with next := some (target, period) } ∧ ∀ k ≠ n.toNat, t.time.comp k = s.time.comp k) := by
  have hok : ¬(period ≠ 0 ∧ ¬(4000 ≤ period.toNat ∧ period.toNat ≤ 2 ^ 48)) := fun ⟨hne, hout⟩ => hper.elim hne hout
  have htime : ∀ A F, (((s.asked set 0x005 1 n (words64 target ++ words64 period)).tcSet n.toNat target period).withAns A F).time
      = s.time.setComp n.toNat { s.time.comp n.toNat with next := some (target, period) } := fun A F => by
    rw [State.time_withAns, State.tcSet, State.updTime_time, State.asked_time]
  refine completes_mbx rfl h (u := (s.asked set 0x005 1 n (words64 target ++ words64 period)).tcSet n.toNat target period) ?_ fun A F => ?_
  · rw [mboFtTc, if_neg (Nat.not_le.2 hn), if_neg hok]
    rfl
  · rw [htime]
    exact ⟨TimeUnit.comp_setComp _ _ _, fun k hk => TimeUnit.comp_setComp_ne _ _ hk⟩

theorem ftTc_refused (hne : period ≠ 0) (hper : period.toNat < 4000 ∨ 2 ^ 48 < period.toNat) :
    Completes (.ftTc set via n target period) s (fun t => t.answers set mbxRANGE [] ∧ t.time = s.time) := by
  refine completes_read State.time rfl h ?_ fun _ _ _ => rfl
  rw [mboFtTc, if_neg (Nat.not_le.2 hn), if_pos ⟨hne, by omega⟩]
  rfl

end

theorem tpOrgRead_completes : Completes (.tpOrgRead set via) s (fun t => t.answers set mbxOK (words64 s.time.torg) ∧ t.time = s.time) := by
  refine completes_read State.time rfl h ?_ fun _ _ _ => rfl
  rw [State.asked_time]

theorem tpOrgWrite_taken (x : FTime) (hplan : ∀ n < 256, s.inPlan n = false) :
    Completes (.tpOrgWrite set via x) s (fun t => t.answers set mbxOK [] ∧ t.time = { s.time with torg := x }) := by
  have hnone : ¬allAxes.any (s.asked set 0x021 1 0 (words64 x)).inPlan = true := by
    rw [List.any_eq_true]
    rintro ⟨n, hm, hn⟩
    rw [State.asked_inPlan, hplan n (List.mem_range.1 hm)] at hn
    cases hn
  refine completes_mbx rfl h (u := (s.asked set 0x021 1 0 (words64 x)).updTime (fun u => { u with torg := x })) (if_neg hnone) fun A F => ?_
  rw [State.time_withAns, State.updTime_time, State.asked_time]

theorem tpOrgWrite_refused (x : FTime) (hplan : ∃ n < 256, s.inPlan n = true) :
    Completes (.tpOrgWrite set via x) s (fun t => t.answers set mbxREFUSED [] ∧ t.time = s.time) := by
  obtain ⟨n, hn, hin⟩ := hplan
  have hany : allAxes.any (s.asked set 0x021 1 0 (words64 x)).inPlan = true :=
    List.any_eq_true.2 ⟨n, List.mem_range.2 hn, (s.asked_inPlan _ _ _ _ _ n).trans hin⟩
  exact completes_read State.time rfl h (if_pos hany) fun _ _ _ => rfl

theorem cmAtWrite_completes (x : FTime) :
    Completes (.cmAtWrite set via x) s (fun t => t.answers set mbxOK [] ∧ t.time = { s.time with cmAt := x }) := by
  refine completes_mbx rfl h (u := (s.asked set 0x0F2 1 0 (words64 x)).updTime (fun u => { u with cmAt := x })) rfl fun A F => ?_
  rw [State.time_withAns, State.updTime_time, State.asked_time]

theorem cmAtRead_uncommitted (hc : s.commit = none) : Completes (.cmAtRead set via) s (fun t =>
    t.answers set mbxOK (words64 s.time.cmAt ++ [0, 0]) ∧ t.time = s.time) := by
  refine completes_read State.time rfl h ?_ fun _ _ _ => rfl
  simp only [mboCmAtRead, State.asked_commit, hc, State.asked_time]
  rfl

end

end Sys2Proof.Machine

/-- Settles O12: object by object, each a lemma on what it answers and what it leaves of field time. -/
theorem timeObjects : Obligations.TimeObjects := by
  unfold Obligations.TimeObjects
  refine ⟨rfl, fun s set via h => ⟨ftNow_completes h, fun k hk => ⟨ftTsi_empty h hk, fun _ _ _ => ftTsi_stamp h hk⟩,
    fun p hp => ⟨ftTxts_empty h hp, fun _ _ _ => ftTxts_stamp h hp⟩,
    fun n target period hn => ⟨ftTc_accepted h hn target, ftTc_refused h hn target⟩,
    tpOrgRead_completes h, fun x => ⟨tpOrgWrite_taken h x, tpOrgWrite_refused h x⟩, cmAtWrite_completes h, cmAtRead_uncommitted h⟩⟩

end

section
/-! SUPPORT. Writes of command registers, and the settling of the statement on the requests of an axis. -/
open Sys2Proof Sys2Proof.Machine
namespace Sys2Proof.Machine

/-! ### Registers of the map -/

/-- An offset is implemented where a row of its block has it among its registers (R428, R429). -/
theorem exists_regRow {o : Nat} {r : RegRow} (hmem : r ∈ regRows (o / 0x100000)) (hbase : r.base ≤ o)
    (hdims : dimsHit r.dims (o - r.base) = true) : ∃ q, regRow o = some q :=
  Option.isSome_iff_exists.1 (List.find?_isSome.2 ⟨r, hmem, by simp [hbase, hdims]⟩)

/-- A write that a path may make at an implemented offset stores in that register alone, and its effect follows (R432). -/
theorem State.portWrite_allowed (s : State) {via : RegPath} {o : Nat} (v : Word) (eff : Word → State → State)
    (hd : s.p8Denied via o = false) (hr : ∃ q, regRow o = some q) :
    ∃ u : State, u.wrote s [o] ∧ s.portWrite via o v eff = eff (s.rget o) u := by
  obtain ⟨q, hq⟩ := hr
  exact ⟨s.storeWord q o v, s.storeWord_wrote q o v, s.portWrite_stored via v eff hd hq⟩

theorem regRow_axcCmd (n : Fin 256) : ∃ q, regRow (rAXC_CMD n) = some q := by
  have hblock : rAXC_CMD n / 0x100000 = 5 := by simp only [rAXC_CMD]; omega
  refine exists_regRow (r := ⟨0x500018, [(256, 0x400)], 0x0, 0x0, 0x0, 0x1F, 0x0, 0x0, 0x0, .none_⟩) ?_ ?_ ?_
  · rw [hblock]
    decide
  · simp only [rAXC_CMD]
    omega
  · simp [rAXC_CMD, dimsHit]

/-! ### Requests of AXC_An_CMD (R181, R184) -/

/-- The bits of AXC_An_CMD, each with the request that it makes. -/
def requestBits : List (Bits × Req) :=
  [(fAXC_CMD_ARM, .arm), (fAXC_CMD_ENABLE, .enable), (fAXC_CMD_DISABLE, .disable), (fAXC_CMD_TEST, .test), (fAXC_CMD_FCLR, .fclr)]

/-- A word with one request bit set leaves one cause with its axis. -/
theorem axcCmdWritten_one (n : Nat) (u : State) {b : Bits} {r : Req} (h : (b, r) ∈ requestBits) :
    axcCmdWritten n (bset 0 b 1) u = u.cause n (.req r none) := by
  simp only [requestBits, List.mem_cons, Prod.mk.injEq, List.not_mem_nil, or_false] at h
  obtain ⟨rfl, rfl⟩ | ⟨rfl, rfl⟩ | ⟨rfl, rfl⟩ | ⟨rfl, rfl⟩ | ⟨rfl, rfl⟩ := h <;> rfl

theorem axcReq_completes {c : Instr} {s : State} {via : RegPath} {n : Fin 256} {b : Bits} {r : Req} (hx : exec c s = .next (s.axcReq via n b))
    (hd : s.p8Denied via (rAXC_CMD n) = false) (hreq : (b, r) ∈ requestBits) :
    Completes c s (fun t => t = { s with regs := t.regs, axes := t.axes } ∧ (∀ o, o ≠ rAXC_CMD n → t.rget o = s.rget o)
      ∧ (t.ax n).causes = (s.ax n).causes ++ [.req r none] ∧ ∀ m ≠ n.val, t.ax m = s.ax m) := by
  obtain ⟨u, ⟨hu, hregs⟩, hwrite⟩ :=
    s.portWrite_allowed (bset 0 b 1) (fun _ => axcCmdWritten n (bset 0 b 1)) hd (regRow_axcCmd n)
  have hax : ∀ m, u.ax m = s.ax m := fun m => by rw [hu]; rfl
  refine ⟨u.cause n (.req r none), ?_, ?_, fun o ho => hregs o (by simpa using ho), ?_, fun m hm => ?_⟩
  · rw [hx, State.axcReq, hwrite, axcCmdWritten_one n u hreq]
  · rw [hu]
    rfl
  · rw [State.cause, State.ax_updAx, hax]
  · exact (u.ax_updAx_ne _ hm).trans (hax m)

end Sys2Proof.Machine

/-- Settles O24: each request by what a word with its bit alone does. -/
theorem axisRequestRows : Obligations.AxisRequestRows := by
  unfold Obligations.AxisRequestRows
  intro s via n hd c r hc
  simp only [List.mem_cons, Prod.mk.injEq, List.not_mem_nil, or_false] at hc
  obtain ⟨rfl, rfl⟩ | ⟨rfl, rfl⟩ | ⟨rfl, rfl⟩ | ⟨rfl, rfl⟩ | ⟨rfl, rfl⟩ := hc
  · exact axcReq_completes (b := fAXC_CMD_ARM) rfl hd (by decide)
  · exact axcReq_completes (b := fAXC_CMD_ENABLE) rfl hd (by decide)
  · exact axcReq_completes (b := fAXC_CMD_DISABLE) rfl hd (by decide)
  · exact axcReq_completes (b := fAXC_CMD_TEST) rfl hd (by decide)
  · exact axcReq_completes (b := fAXC_CMD_FCLR) rfl hd (by decide)

end

section
/-! SUPPORT. What each lane has to do, and the registers, the time and the plan by which its events go: what leaves them. -/
open Sys2Proof Sys2Proof.Machine
namespace Sys2Proof.Machine

/-! ### The duties of the lanes (R354, R355, R358) -/

/-- The work item of each lane, the events that wait for it, and whether it has trapped; and the upsets of shared SRAM. -/
def State.duties (s : State) : (Nat → Option LEvent × List LEvent × Bool) × List (Nat × Bool) :=
  (fun l => ((s.ln l).work, (s.ln l).evq, (s.ln l).trapped), s.sramUpsets)

/-- Does a change of a lane leave its duties? -/
def KeepsDuty (f : Lane → Lane) : Prop := ∀ x, (f x).work = x.work ∧ (f x).evq = x.evq ∧ (f x).trapped = x.trapped

section
variable {s u : State} (h : u.duties = s.duties) (l : Nat)
include h

theorem State.work_of_duties : (u.ln l).work = (s.ln l).work := congrArg Prod.fst (congrFun (congrArg Prod.fst h) l)
theorem State.evq_of_duties : (u.ln l).evq = (s.ln l).evq := congrArg (·.2.1) (congrFun (congrArg Prod.fst h) l)
theorem State.trapped_of_duties : (u.ln l).trapped = (s.ln l).trapped := congrArg (·.2.2) (congrFun (congrArg Prod.fst h) l)
omit l in
theorem State.sramUpsets_of_duties : u.sramUpsets = s.sramUpsets := congrArg Prod.snd h

end

/-- A register by which the events of the lanes go: of the blocks from field time to the lanes, but for the one that shows a migration. -/
def shellReg (o : Nat) : Prop := 3 ≤ o / 0x100000 ∧ o / 0x100000 ≤ 6 ∧ o ≠ rLPE_MIG

/-- The duties of the lanes with the time, the plan and the registers by which their events go. -/
def State.laneSide (s : State) :
    ((Nat → Option LEvent × List LEvent × Bool) × List (Nat × Bool)) × TimeUnit × Tbl Word × List PlanHold × ({o // shellReg o} → Word) :=
  (s.duties, s.time, s.work, s.hold, fun o => s.rget o)

section
variable {s u : State} (h : u.laneSide = s.laneSide)
include h

theorem State.duties_of_laneSide : u.duties = s.duties := congrArg Prod.fst h
theorem State.time_of_laneSide : u.time = s.time := congrArg (·.2.1) h
theorem State.rget_of_laneSide {o : Nat} (ho : shellReg o) : u.rget o = s.rget o := congrFun (congrArg (·.2.2.2.2) h) ⟨o, ho⟩

end

theorem State.laneSide_congr {s u : State} (hd : u.duties = s.duties) (ht : u.time = s.time) (hw : u.work = s.work) (hh : u.hold = s.hold)
    (hr : ∀ o, shellReg o → u.rget o = s.rget o) : u.laneSide = s.laneSide :=
  Prod.ext hd (Prod.ext ht (Prod.ext hw (Prod.ext hh (funext fun o => hr o o.2))))

theorem State.laneSide_of_posted {s u : State} (h : u.posted s []) : u.laneSide = s.laneSide := by
  obtain ⟨hu, hr, -⟩ := h
  have hd : u.duties = s.duties := by rw [hu]; rfl
  exact State.laneSide_congr hd (by rw [hu]) (by rw [hu]) (by rw [hu]) fun o ⟨hlo, hhi, _⟩ =>
    hr o (postReg_of_block ⟨hlo, by omega⟩) List.not_mem_nil

theorem State.laneSide_rset (s : State) {o : Nat} (v : Word) (h : ¬ shellReg o) : (s.rset o v).laneSide = s.laneSide :=
  State.laneSide_congr rfl rfl rfl rfl fun _ hp => s.rget_rset_ne v fun he => h (he ▸ hp)
theorem State.laneSide_fset (s : State) {o : Nat} (b : Bits) (x : Nat) (h : ¬ shellReg o) : (s.fset o b x).laneSide = s.laneSide :=
  s.laneSide_rset _ h

@[simp] theorem State.laneSide_ite (c : Prop) [Decidable c] (a b : State) :
    (if c then a else b).laneSide = if c then a.laneSide else b.laneSide := apply_ite _ _ _ _
@[simp] theorem State.duties_ite (c : Prop) [Decidable c] (a b : State) :
    (if c then a else b).duties = if c then a.duties else b.duties := apply_ite _ _ _ _

theorem State.laneSide_foldl {α : Type} (f : State → α → State) (l : List α) (s : State)
    (h : ∀ s, ∀ x ∈ l, (f s x).laneSide = s.laneSide) : (l.foldl f s).laneSide = s.laneSide :=
  List.foldlRecOn (motive := fun u : State => u.laneSide = s.laneSide) l f rfl fun u hu x hx => (h u x hx).trans hu
@[simp] theorem State.laneSide_foldl_all {α : Type} (f : State → α → State) (l : List α) (s : State)
    (h : ∀ s x, (f s x).laneSide = s.laneSide) : (l.foldl f s).laneSide = s.laneSide :=
  s.laneSide_foldl f l fun u x _ => h u x
@[simp] theorem State.duties_foldl {α : Type} (f : State → α → State) (l : List α) (s : State)
    (h : ∀ s x, (f s x).duties = s.duties) : (l.foldl f s).duties = s.duties :=
  List.foldlRecOn (motive := fun u : State => u.duties = s.duties) l f rfl fun u hu x _ => (h u x).trans hu

section
variable (s : State)

theorem State.duties_updLn (l : Nat) {f : Lane → Lane} (hf : KeepsDuty f) : (s.updLn l f).duties = s.duties := by
  have hduty : ∀ j, (((s.updLn l f).ln j).work, ((s.updLn l f).ln j).evq, ((s.updLn l f).ln j).trapped)
      = ((s.ln j).work, (s.ln j).evq, (s.ln j).trapped) := fun j => by
    by_cases hj : j = l
    · obtain ⟨hw, he, ht⟩ := hf (s.ln l)
      rw [hj, State.ln_updLn, hw, he, ht]
    · rw [State.updLn, State.ln_setLn_ne _ _ hj]
  exact Prod.ext (funext hduty) rfl
theorem State.laneSide_updLn (l : Nat) {f : Lane → Lane} (hf : KeepsDuty f) : (s.updLn l f).laneSide = s.laneSide :=
  Prod.ext (s.duties_updLn l hf) rfl

/-! ### Frames that lanes commit, and what a trap brings about -/

@[simp] theorem State.laneSide_updAx (n : Nat) (f : Axis → Axis) : (s.updAx n f).laneSide = s.laneSide := rfl
@[simp] theorem State.laneSide_setGd (k : Nat) (d : GonDev) : (s.setGd k d).laneSide = s.laneSide := rfl
@[simp] theorem State.laneSide_updGd (k : Nat) (f : GonDev → GonDev) : (s.updGd k f).laneSide = s.laneSide := rfl
@[simp] theorem State.laneSide_updPort (t : Nat) (f : PortDev → PortDev) : (s.updPort t f).laneSide = s.laneSide := rfl
@[simp] theorem State.laneSide_setCmd (k : Nat) (x : Option OpenCmd) : (s.setCmd k x).laneSide = s.laneSide := rfl
@[simp] theorem State.laneSide_withRepairs (x : List Nat) : ({ s with repairs := x } : State).laneSide = s.laneSide := rfl
@[simp] theorem State.laneSide_withMig (x : Option Migration) : ({ s with mig := x } : State).laneSide = s.laneSide := rfl

@[simp] theorem State.laneSide_flogTrigger (cause code : Nat) : (s.flogTrigger cause code).laneSide = s.laneSide :=
  State.laneSide_of_posted (s.flogTrigger_posted _ _ _)
@[simp] theorem State.laneSide_axEvent (n code data : Nat) (ft : FTime) : (s.axEvent n code data ft).laneSide = s.laneSide :=
  State.laneSide_of_posted (s.axEvent_posted _ _ _ _ _)
@[simp] theorem State.laneSide_devEvent (code source data : Nat) : (s.devEvent code source data).laneSide = s.laneSide :=
  State.laneSide_of_posted (s.devEvent_posted _ _ _ _)
@[simp] theorem State.laneSide_trace (n : Nat) (tk : FTime) : (s.trace n tk).laneSide = s.laneSide :=
  State.laneSide_of_posted (s.flogAdd_posted _ _ _ (by decide) _)
@[simp] theorem State.laneSide_flogCommit (src dst moved : Nat) : (s.flogCommit src dst moved).laneSide = s.laneSide :=
  State.laneSide_of_posted (s.flogAdd_posted _ _ _ (by decide) _)
@[simp] theorem State.laneSide_produce (q : Nat) (e : Cqe) (h : q < 32) : (s.produce (some q) e).laneSide = s.laneSide :=
  State.laneSide_of_posted (s.produce_posted _ _ (by rintro _ ⟨⟩; exact h) _)

@[simp] theorem State.laneSide_complete (c : OpenCmd) (status payload : Nat) : (s.complete c status payload).laneSide = s.laneSide := by
  unfold State.complete
  split
  · rfl
  · split
    · split
      · rfl
      · exact s.laneSide_produce _ _ (bget_lt _ _)
    · exact State.laneSide_of_posted (s.produce_posted _ _ (ringIf_lt (bget_lt _ _)) _)
@[simp] theorem State.laneSide_finish (k status payload : Nat) : (s.finish k status payload).laneSide = s.laneSide := by
  unfold State.finish
  split <;> simp

@[simp] theorem State.laneSide_lostRefresh : s.lostRefresh.laneSide = s.laneSide := by
  unfold State.lostRefresh
  dsimp only
  split <;> rfl

@[simp] theorem State.laneSide_frameCheck (k : Nat) : (s.frameCheck k).laneSide = s.laneSide := by simp [State.frameCheck]
@[simp] theorem State.laneSide_commitRec (k c : Nat) (r : BitVec 128) : (s.commitRec k c r).laneSide = s.laneSide := by simp [State.commitRec]
@[simp] theorem State.laneSide_laneOff (l : Nat) : (s.laneOff l).laneSide = s.laneSide := by simp [State.laneOff]
@[simp] theorem State.laneSide_traceEvent (l : Nat) (e : LEvent) : (s.traceEvent l e).laneSide = s.laneSide := by simp [State.traceEvent]
@[simp] theorem State.laneSide_migEnd (m : Migration) (status : Nat) : (s.migEnd m status).laneSide = s.laneSide := by
  have hmig : ∀ u : State, (u.fset rLPE_MIG fLPE_MIG_PHASE 0).laneSide = u.laneSide := fun u => u.laneSide_fset _ _ fun h => h.2.2 rfl
  unfold State.migEnd
  dsimp only
  split <;> simp [hmig]

theorem State.laneSide_inboxWrite (n : Nat) (missed : Bool) : (s.inboxWrite n missed).laneSide = s.laneSide :=
  s.laneSide_updLn _ fun _ => ⟨rfl, rfl, rfl⟩

end

end Sys2Proof.Machine
end

section
/-! SUPPORT. The laws of the axes leave the duties of the lanes. -/
open Sys2Proof Sys2Proof.Machine
namespace Sys2Proof.Machine

section
variable (s : State)

/-! ### Registers, axes and entries -/

@[simp] theorem State.duties_fset (o : Nat) (b : Bits) (x : Nat) : (s.fset o b x).duties = s.duties := rfl
@[simp] theorem State.duties_fsetb (o : Nat) (b : Bits) (x : Bool) : (s.fsetb o b x).duties = s.duties := rfl
@[simp] theorem State.duties_raise (o : Nat) (b : Bits) : (s.raise o b).duties = s.duties := rfl
@[simp] theorem State.duties_updAx (n : Nat) (f : Axis → Axis) : (s.updAx n f).duties = s.duties := rfl
@[simp] theorem State.duties_updGen (n : Nat) (f : Gen → Gen) : (s.updGen n f).duties = s.duties := rfl
@[simp] theorem State.duties_cause (n : Nat) (c : Cause) : (s.cause n c).duties = s.duties := rfl
@[simp] theorem State.duties_faultCause (n code : Nat) (stop : Bool) : (s.faultCause n code stop).duties = s.duties := rfl
@[simp] theorem State.duties_setCe (i : Nat) (e : CmpEnt) : (s.setCe i e).duties = s.duties := rfl
@[simp] theorem State.duties_updGd (k : Nat) (f : GonDev → GonDev) : (s.updGd k f).duties = s.duties := rfl
@[simp] theorem State.duties_txQueue (t : Nat) (f : Frame) : (s.txQueue t f).duties = s.duties := rfl
@[simp] theorem State.duties_setAngoff (n v : Nat) : (s.setAngoff n v).duties = s.duties := rfl
@[simp] theorem State.duties_countN (o n : Nat) : (s.countN o n).duties = s.duties := by simp [State.countN]
@[simp] theorem State.duties_count (o : Nat) : (s.count o).duties = s.duties := s.duties_countN o 1
@[simp] theorem State.duties_axEvent (n code data : Nat) (ft : FTime) : (s.axEvent n code data ft).duties = s.duties :=
  State.duties_of_laneSide (s.laneSide_axEvent n code data ft)
@[simp] theorem State.duties_commitRec (k c : Nat) (r : BitVec 128) : (s.commitRec k c r).duties = s.duties :=
  State.duties_of_laneSide (s.laneSide_commitRec k c r)
@[simp] theorem State.duties_inboxWrite (n : Nat) (missed : Bool) : (s.inboxWrite n missed).duties = s.duties :=
  State.duties_of_laneSide (s.laneSide_inboxWrite n missed)
@[simp] theorem State.duties_evqShow (l : Nat) : (s.evqShow l).duties = s.duties := by simp [State.evqShow]

/-! ### The set-point generator (R251-R265) -/

@[simp] theorem State.duties_addTurns (n : Nat) (d : Int) : (s.addTurns n d).duties = s.duties := by simp [State.addTurns]
@[simp] theorem State.duties_spWraps (n : Nat) (t : FTime) : (s.spWraps n t).duties = s.duties := by simp [State.spWraps]
@[simp] theorem State.duties_spUpdate (n : Nat) (t : FTime) : (s.spUpdate n t).duties = s.duties := by simp [State.spUpdate]
@[simp] theorem State.duties_setRate (n : Nat) (b : Bool) : (s.setRate n b).duties = s.duties := by simp [State.setRate]
@[simp] theorem State.duties_startPlan (n : Nat) (t : FTime) (src : Src) (k : Kin) (pieces : List (Nat × Int)) (endP : Option Val) (endV : Val) :
    (s.startPlan n t src k pieces endP endV).duties = s.duties := by simp [State.startPlan]
@[simp] theorem State.duties_startLine (t : FTime) (ds : List (Nat × Int)) (ends : Nat → Val) (v a : Int) :
    (s.startLine t ds ends v a).duties = s.duties := by simp [State.startLine]
@[simp] theorem State.duties_groupRebase (n : Nat) (t : FTime) : (s.groupRebase n t).duties = s.duties := by simp [State.groupRebase]
@[simp] theorem State.duties_groupStop (n : Nat) (t : FTime) : (s.groupStop n t).duties = s.duties := by simp [State.groupStop]
@[simp] theorem State.duties_limiter (n : Nat) (t : FTime) (pd vd : Int) (velOnly : Bool) : (s.limiter n t pd vd velOnly).duties = s.duties := by
  simp [State.limiter]
@[simp] theorem State.duties_moveRate (n : Nat) (t : FTime) : (s.moveRate n t).duties = s.duties := by simp [State.moveRate]
@[simp] theorem State.duties_replan (n : Nat) (t : FTime) : (s.replan n t).duties = s.duties := by
  unfold State.replan
  dsimp only
  split <;> simp
@[simp] theorem State.duties_profileRun (n : Nat) (t : FTime) : (s.profileRun n t).duties = s.duties := by
  unfold State.profileRun
  dsimp only
  generalize hu : (if (s.ax n).gen.replan then s.replan n t else s) = u
  have hplan : u.duties = s.duties := by simp [← hu]
  rw [← hplan]
  split
  · simp
  · simp only [State.duties_limiter]
    split <;> simp
  · simp only [State.duties_limiter]
    split <;> simp
  · simp

/-! ### The compare engine and the output of a record (R287, R362) -/

@[simp] theorem State.duties_cmpReport (i code : Nat) (t : FTime) (latT latCnt : Word) (pred : Bool) :
    (s.cmpReport i code t latT latCnt pred).duties = s.duties := by
  have hpost : ∀ (u : State) e, (u.produce (some (s.ce i).cq) e).duties = u.duties := fun u e =>
    State.duties_of_laneSide (u.laneSide_produce _ _ (Nat.mod_lt _ (by decide)))
  simp [State.cmpReport, hpost]
@[simp] theorem State.duties_cmpSend (i : Nat) : (s.cmpSend i).duties = s.duties := by simp [State.cmpSend]
@[simp] theorem State.duties_cmpFire (i : Nat) (tf : FTime) (latT latCnt : Int) (pred late : Bool) :
    (s.cmpFire i tf latT latCnt pred late).duties = s.duties := by simp [State.cmpFire]
@[simp] theorem State.duties_cmpPredict (i : Nat) (t : FTime) (p : Int) : (s.cmpPredict i t p).duties = s.duties := by
  unfold State.cmpPredict
  dsimp only
  split <;> simp
@[simp] theorem State.duties_cmpEvalOne (i : Nat) (prev : Option (FTime × Val)) (t : FTime) (p : Int) :
    (s.cmpEvalOne i prev t p).duties = s.duties := by simp [State.cmpEvalOne]
@[simp] theorem State.duties_cmpEval (n psrc : Nat) (t : FTime) (p : Val) : (s.cmpEval n psrc t p).duties = s.duties := by
  simp [State.cmpEval]
@[simp] theorem State.duties_outDrop (l : Nat) : (s.outDrop l).duties = s.duties := by simp [State.outDrop]
@[simp] theorem State.duties_outCommit (l n : Nat) (r : BitVec 128) : (s.outCommit l n r).duties = s.duties := by
  have houts : ∀ u : State, (u.updLn l (fun x => { x with outs := n :: x.outs })).duties = u.duties := fun u =>
    u.duties_updLn l fun _ => ⟨rfl, rfl, rfl⟩
  simp [State.outCommit, houts]

/-! ### The loops of an axis and its test (R177-R179, R225, R276-R279) -/

section
variable (i : LawIn)

@[simp] theorem State.duties_followCheck : (s.followCheck i).duties = s.duties := by simp [State.followCheck]
@[simp] theorem State.duties_lawProfile : (s.lawProfile i).duties = s.duties := by simp [State.lawProfile]
@[simp] theorem State.duties_loop0 : (s.loop0 i).duties = s.duties := by simp [State.loop0]
@[simp] theorem State.duties_loop1 : (s.loop1 i).duties = s.duties := by simp [State.loop1]
@[simp] theorem State.duties_outerLoops : (s.outerLoops i).duties = s.duties := by simp [State.outerLoops]
@[simp] theorem State.duties_loop2 : (s.loop2 i).duties = s.duties := by simp [State.loop2]
@[simp] theorem State.duties_lawPwm (n : Nat) (d : List Nat) : (s.lawPwm n d).1.duties = s.duties := by simp [State.lawPwm, State.pwmOf]
@[simp] theorem State.duties_testRec (n : Nat) : (s.testRec n).1.duties = s.duties := by
  unfold State.testRec
  split
  · simp
  · simp [State.pwmOf]
@[simp] theorem State.duties_stepperRec : (s.stepperRec i).1.duties = s.duties := by simp [State.stepperRec]

/-! ### The torque law (R200-R216) -/

@[simp] theorem State.duties_lawSkip : (s.lawSkip i).duties = s.duties := by simp [State.lawSkip]
@[simp] theorem State.duties_observe : (s.observe i).1.duties = s.duties := rfl
@[simp] theorem State.duties_lossEval (ovr : Bool) : (s.lossEval i ovr).duties = s.duties := by simp [State.lossEval]
@[simp] theorem State.duties_setVlim (n : Nat) (now : Bool) (tk : FTime) : (s.setVlim n now tk).duties = s.duties := by simp [State.setVlim]
@[simp] theorem State.duties_lawIdle : (s.lawIdle i).duties = s.duties := by simp [State.lawIdle]
@[simp] theorem State.duties_tqSnap (n : Nat) : (s.tqSnap n).duties = s.duties := rfl
@[simp] theorem State.duties_showLive (n sec : Nat) (ct : Int) (cf : Bool) : (s.showLive n sec ct cf).duties = s.duties := rfl
@[simp] theorem State.duties_setPlan (l : List (FTime × List Nat)) : (s.setPlan i l).duties = s.duties := rfl
@[simp] theorem State.duties_torqueLaw : (s.torqueLaw i).1.duties = s.duties := by simp [State.torqueLaw]

/-! ### ALIGN, TEST, CATCH and the loss reaction (R210, R217-R222) -/

@[simp] theorem State.duties_noteCurrent : (s.noteCurrent i).duties = s.duties := by
  unfold State.noteCurrent
  dsimp only
  split <;> rfl
@[simp] theorem State.duties_setStage (n st : Nat) (t : FTime) : (s.setStage n st t).duties = s.duties := rfl
@[simp] theorem State.duties_freshComparators (n : Nat) : (s.freshComparators n).duties = s.duties := rfl
@[simp] theorem State.duties_catchFail (n : Nat) : (s.catchFail n).duties = s.duties := rfl
@[simp] theorem State.duties_catchDone (n : Nat) : (s.catchDone n).duties = s.duties := by simp [State.catchDone]
@[simp] theorem State.duties_emfEstimate (v : Vec) : (s.emfEstimate i v).duties = s.duties := by
  unfold State.emfEstimate
  dsimp only
  split <;> rfl
@[simp] theorem State.duties_zeroEnd : (s.zeroEnd i).duties = s.duties := by
  unfold State.zeroEnd
  dsimp only
  split <;> rfl
@[simp] theorem State.duties_alignFail (n : Nat) : (s.alignFail n).duties = s.duties := by simp [State.alignFail]
@[simp] theorem State.duties_alignTick : (s.alignTick i).1.duties = s.duties := by
  unfold State.alignTick
  dsimp only
  split
  · rfl
  · split <;> simp
@[simp] theorem State.duties_catchTick : (s.catchTick i).1.duties = s.duties := by
  unfold State.catchTick
  dsimp only
  split
  · split
    · rfl
    · simp
  · simp
@[simp] theorem State.duties_spwmOf (on : List Nat) : (s.spwmOf i on).1.duties = s.duties := by simp [State.spwmOf]
@[simp] theorem State.duties_spwmLaw : (s.spwmLaw i).1.duties = s.duties := by
  unfold State.spwmLaw
  dsimp only
  split
  · simp
  · simp
@[simp] theorem State.duties_seenTwice (n : Nat) (hit : Bool) {act : State → State} (h : ∀ u, (act u).duties = u.duties) :
    (s.seenTwice n hit act).duties = s.duties := by simp [State.seenTwice, h]
@[simp] theorem State.duties_reactTick : (s.reactTick i).duties = s.duties := by
  unfold State.reactTick
  dsimp only
  split
  · split
    · simp
    · rw [State.duties_seenTwice, State.duties_noteCurrent]
      exact fun _ => rfl
  · simp

end

end
end Sys2Proof.Machine
end

section
/-! SUPPORT. The course of a work item: what its entry, its laws and its END leave of the lane. -/
open Sys2Proof Sys2Proof.Machine
namespace Sys2Proof.Machine

/-! ### The laws of the axes (R166, R26) -/

theorem State.duties_record {s : State} {r : State × BitVec 128} (h : r.1.duties = s.duties) (l n : Nat) :
    ((r.1.drew 32).outCommit l n r.2).duties = s.duties :=
  (State.duties_outCommit _ l n r.2).trans h

@[simp] theorem State.duties_axisRun (s : State) (l : Nat) (e : LEvent) (n : Nat) : (s.axisRun l e n).duties = s.duties := by
  unfold State.axisRun
  extract_lets a missing ts i u x out
  have hu : u.duties = s.duties := s.duties_lawProfile i
  have hout : ∀ r : State × BitVec 128, r.1.duties = u.duties → (out r).duties = s.duties := fun r h =>
    State.duties_record (h.trans hu) l n
  clear_value out u x i
  split
  · split
    · exact hout _ (by simp)
    split
    · exact hout _ (by simp)
    split
    · exact hout _ (by simp)
    split
    · exact hout _ (by simp)
    · exact hout _ (by simp)
  · split
    · exact hout _ (by simp)
    split
    · exact hout _ (by simp)
    · exact hout _ rfl
  · split
    · exact hout _ (by simp +zetaDelta)
    split
    · exact hout _ (by simp)
    · exact hout _ rfl
  · exact hu

/-- Shared SRAM without an upset answers every read as it is (R26). -/
theorem State.sramCheck_clear {s : State} (h : s.sramUpsets = []) (a : Nat) : s.sramCheck a = (s, true) := by simp [State.sramCheck, h]

theorem State.camFetch_clear {s : State} (h : s.sramUpsets = []) (n : Nat) (tk : FTime) : s.camFetch n tk = (s, true) := by
  have hfold : ∀ l : List Nat, l.foldl (fun (r : State × Bool) a => ((r.1.sramCheck a).1, r.2 && (r.1.sramCheck a).2)) (s, true) = (s, true) :=
    fun l => by
      induction l with
      | nil => rfl
      | cons a l ih => rw [List.foldl_cons, State.sramCheck_clear h, Bool.true_and, ih]
  unfold State.camFetch
  dsimp only
  split
  · rfl
  · split
    · rfl
    · exact hfold _

theorem State.duties_axisLaw {s : State} (h : s.sramUpsets = []) (l : Nat) (e : LEvent) (n : Nat) : (s.axisLaw l e n).duties = s.duties := by
  simp [State.axisLaw, State.camFetch_clear h]

/-- The laws of the axes of a work item leave the duties of the lanes, where shared SRAM holds no upset. -/
theorem State.duties_axisLaws {s : State} (h : s.sramUpsets = []) (l : Nat) (e : LEvent) (ns : List Nat) :
    (ns.foldl (fun s n => s.axisLaw l e n) s).duties = s.duties :=
  List.foldlRecOn (motive := fun u : State => u.duties = s.duties) ns _ rfl fun _ hu n _ =>
    (State.duties_axisLaw ((State.sramUpsets_of_duties hu).trans h) l e n).trans hu

/-! ### Entry and END (R355) -/

/-- The lane with its first event entered: the work item, and the foreground bank at the entry that the event has (R327, R355, R361). -/
def Lane.took (x : Lane) (e : LEvent) (rest : List LEvent) (evi : Nat) (bank : Bool) : Lane :=
  { x with evq := rest, work := some e, outs := [], wbank := bank, fg := x.fg.entered evi (if e.tick then x.etick else x.eframe).toNat }

/-- The state with the first event of a lane entered, before a TICK event's inbox slots are written. -/
def State.taken (s : State) (l : Nat) (e : LEvent) (rest : List LEvent) : State :=
  ((s.updLn l (fun x => x.took e rest (s.srcIndex l e) (s.flag (rLPE_L_STAT l) fLPE_L_STAT_PBANK))).raise (rLPE_L_STAT l)
    fLPE_L_STAT_BUSY).evqShow l

@[simp] theorem State.ln_ite (c : Prop) [Decidable c] (a b : State) (l : Nat) : (if c then a else b).ln l = if c then a.ln l else b.ln l :=
  apply_ite (fun s : State => s.ln l) _ _ _
@[simp] theorem State.ln_fset (s : State) (o : Nat) (b : Bits) (x l : Nat) : (s.fset o b x).ln l = s.ln l := rfl
@[simp] theorem State.ln_raise (s : State) (o : Nat) (b : Bits) (l : Nat) : (s.raise o b).ln l = s.ln l := rfl
@[simp] theorem State.ln_evqShow (s : State) (l j : Nat) : (s.evqShow l).ln j = s.ln j := by simp [State.evqShow]

theorem State.ln_taken (s : State) (l : Nat) (e : LEvent) (rest : List LEvent) :
    (s.taken l e rest).ln l = (s.ln l).took e rest (s.srcIndex l e) (s.flag (rLPE_L_STAT l) fLPE_L_STAT_PBANK) := by
  rw [State.taken, State.ln_evqShow, State.ln_raise, State.ln_updLn]

theorem State.enterWork_eq {s : State} {l : Nat} {e : LEvent} {rest : List LEvent} (h : (s.ln l).evq = e :: rest) : s.enterWork l =
    if e.tick then ((s.taken l e rest).evAxes l e).foldl (fun s n => s.inboxWrite n false) (s.taken l e rest) else s.taken l e rest := by
  simp only [State.enterWork, h]
  rfl

theorem State.enterWork_frame {s : State} {l : Nat} {e : LEvent} {rest : List LEvent} (h : (s.ln l).evq = e :: rest) (ht : e.tick = false) :
    s.enterWork l = s.taken l e rest := by rw [State.enterWork_eq h, ht]; rfl

theorem State.duties_enterWork {s : State} {l : Nat} {e : LEvent} {rest : List LEvent} (h : (s.ln l).evq = e :: rest) :
    (s.enterWork l).duties = (s.taken l e rest).duties := by
  rw [State.enterWork_eq h]
  simp

/-- END leaves no work item, and the events that wait (R355). -/
theorem State.ln_endWork {s : State} {l : Nat} {e : LEvent} (h : (s.ln l).work = some e) :
    ((s.endWork l).ln l).work = none ∧ ((s.endWork l).ln l).evq = (s.ln l).evq := by
  unfold State.endWork
  split
  · next hnone =>
    rw [hnone] at h
    cases h
  · rw [State.ln_updLn]
    refine ⟨rfl, State.evq_of_duties ?_ l⟩
    simp

/-! ### A work item of the stock image (R166) -/

section
variable {s : State} {l : Nat} {e : LEvent} {rest : List LEvent} (hrun : s.laneRuns l = true) (hq : (s.ln l).evq = e :: rest)
  (hw : (s.ln l).work = none) (hb : (s.ln l).atBoundary = true)
include hrun hq hw hb

theorem State.stockItem_due (himg : (s.ln l).imgKind = 1) : s.stockItem l e.tick =
    (((s.enterWork l).evAxes l e).foldl (fun s n => s.axisLaw l e n) (s.enterWork l)).endWork l := by
  simp [State.stockItem, hq, hrun, himg, hw, hb]

theorem State.stockItem_ends (himg : (s.ln l).imgKind = 1) (hup : s.sramUpsets = []) :
    ((s.stockItem l e.tick).ln l).work = none ∧ ((s.stockItem l e.tick).ln l).evq = rest := by
  have henter := State.duties_enterWork hq
  have hclear : (s.enterWork l).sramUpsets = [] := by
    rw [State.sramUpsets_of_duties henter, State.taken, State.sramUpsets_of_duties (State.duties_evqShow _ l)]
    exact hup
  have hlaws := (State.duties_axisLaws hclear l e ((s.enterWork l).evAxes l e)).trans henter
  have hln := s.ln_taken l e rest
  rw [State.stockItem_due hrun hq hw hb himg]
  obtain ⟨hnone, hevq⟩ := State.ln_endWork ((State.work_of_duties hlaws l).trans (congrArg Lane.work hln))
  exact ⟨hnone, hevq.trans ((State.evq_of_duties hlaws l).trans (congrArg Lane.evq hln))⟩

end

end Sys2Proof.Machine
end

section
/-! SUPPORT. The entry of an event with the next issue of a lane. -/
open Sys2Proof Sys2Proof.Machine
namespace Sys2Proof.Machine

/-! ### The queue as a lane shows it (R371) -/

theorem State.rget_evqShow_ne (s : State) (l : Nat) {o : Nat} (h : o ≠ rLPE_L_EVQ l) : (s.evqShow l).rget o = s.rget o := by
  unfold State.evqShow
  dsimp only
  split
  · rw [State.rget_fset_ne _ _ _ h, State.rget_fset_ne _ _ _ h]
  · exact State.rget_fset_ne _ _ _ h

theorem State.flag_evqShow_ne (s : State) (l : Nat) {o : Nat} (b : Bits) (h : o ≠ rLPE_L_EVQ l) : (s.evqShow l).flag o b = s.flag o b := by
  rw [State.flag, State.fget, State.rget_evqShow_ne _ _ h]
  rfl

theorem State.fget_evqShow_now (s : State) (l : Nat) : (s.evqShow l).fget (rLPE_L_EVQ l) fLPE_L_EVQ_NOW = (s.ln l).evq.length % 1024 := by
  have hnow := s.fget_fset (rLPE_L_EVQ l) fLPE_L_EVQ_NOW (s.ln l).evq.length (by decide)
  unfold State.evqShow
  dsimp only
  split
  · rw [State.fget_fset_field _ _ _ _ _ (by decide), hnow]
    rfl
  · exact hnow

/-! ### An issue without an effect of its own (R334, R346-R350) -/

theorem Lane.setBank_bank (x : Lane) (fgd : Bool) : x.setBank fgd (x.bank fgd) = x := by cases fgd <;> rfl

theorem State.issueCore_nop {s : State} {l : Nat} (fgd : Bool) (hp : (s.ln l).pend = []) (hst : (s.ln l).pendSt = none) :
    s.issueCore l fgd .nop .nop = s.setLn l (s.ln l) := by
  have hsame : { (s.ln l).setBank fgd ((s.ln l).bank fgd) with pend := [], pendSt := none } = s.ln l := by
    rw [Lane.setBank_bank, ← hp, ← hst]
  simp only [State.issueCore, State.moveSlot, hp, hst]
  exact congrArg (s.setLn l) hsame

theorem State.advance_next {s : State} {l : Nat} {fgd : Bool} (pc : BitVec 12) (hi : ((s.ln l).bank fgd).iter = 0) (hs : (s.ln l).slots = none) :
    s.advance l fgd pc = s.updLn l (fun x => x.setBank fgd { (s.ln l).bank fgd with pc := ((s.ln l).bank fgd).pc + 1 }) := by
  have hslots : ∀ b, ((s.ln l).setBank fgd b).slots = none := fun b => by cases fgd <;> exact hs
  simp [State.advance, hi, hslots]

/-! ### The entry of the first event (R355, R361) -/

section
variable {s : State} {l : Nat} {e : LEvent} {rest : List LEvent} (hrun : s.laneRuns l = true) (hq : (s.ln l).evq = e :: rest)
  (hw : (s.ln l).work = none) (hb : (s.ln l).atBoundary = true) (ht : e.tick = false) (hst : (s.ln l).pendSt = none)

/-- The lane with its foreground code gone on by an instruction. -/
def Lane.wentOn (x : Lane) : Lane := { x with fg := { x.fg with pc := x.fg.pc + 1 } }

theorem Lane.took_settled {x : Lane} (hb : x.atBoundary = true) (e : LEvent) (rest : List LEvent) (evi : Nat) (bank : Bool) :
    (x.took e rest evi bank).pend = [] ∧ (x.took e rest evi bank).slots = none := by
  simp only [Lane.atBoundary, Bool.and_eq_true, List.isEmpty_iff, Option.isNone_iff_eq_none] at hb
  exact ⟨hb.1.1.1, hb.1.1.2⟩

include hrun hq hw hb ht hst

/-- LANE_NOP enters the first event, and goes on at the instruction after the entry's. -/
theorem State.issue_enters :
    s.issue l .nop .nop = ((s.taken l e rest).setLn l ((s.taken l e rest).ln l)).updLn l Lane.wentOn := by
  have hx := s.ln_taken l e rest
  obtain ⟨hp, hs⟩ := Lane.took_settled hb e rest (s.srcIndex l e) (s.flag (rLPE_L_STAT l) fLPE_L_STAT_PBANK)
  have hgo : (s.ln l).trapped = false := by
    simp only [State.laneRuns, Bool.and_eq_true, Bool.not_eq_true'] at hrun
    exact hrun.1.2
  have henter : (if (s.ln l).work.isNone && !(s.ln l).evq.isEmpty && (s.ln l).atBoundary then s.enterWork l else s) = s.taken l e rest := by
    rw [hw, hq, hb]
    exact State.enterWork_frame hq ht
  simp only [State.issue, hrun, henter, Bool.not_true, Bool.false_eq_true, if_false]
  rw [← hx] at hp hs
  have hwork : ((s.taken l e rest).ln l).work.isSome = true := by rw [hx]; rfl
  have hlatch : (((s.taken l e rest).ln l).bank true).latch = false := by rw [hx]; rfl
  have hiter : (((s.taken l e rest).ln l).bank true).iter = 0 := by rw [hx]; rfl
  have hpend : ((s.taken l e rest).ln l).pendSt = none := by rw [hx]; exact hst
  have htrap : ((s.taken l e rest).ln l).trapped = false := by rw [hx]; exact hgo
  generalize s.taken l e rest = u at *
  simp only [hwork, hlatch, State.issueCore_nop true hp hpend, State.ln_setLn, htrap, Bool.false_eq_true, if_false]
  rw [State.advance_next _ (by rwa [State.ln_setLn]) (by rwa [State.ln_setLn])]
  rfl

/-- What stands after LANE_NOP has entered the first event. -/
theorem State.issue_entered : ((s.issue l .nop .nop).ln l).work = some e ∧ ((s.issue l .nop .nop).ln l).evq = rest
    ∧ ((s.issue l .nop .nop).ln l).fg.pc = (s.ln l).eframe + 1 ∧ ((s.issue l .nop .nop).ln l).bg = (s.ln l).bg
    ∧ (s.issue l .nop .nop).flag (rLPE_L_STAT l) fLPE_L_STAT_BUSY = true
    ∧ (s.issue l .nop .nop).fget (rLPE_L_EVQ l) fLPE_L_EVQ_NOW = rest.length % 1024
    ∧ ((s.issue l .nop .nop).ln l).wbank = s.flag (rLPE_L_STAT l) fLPE_L_STAT_PBANK := by
  rw [State.issue_enters hrun hq hw hb ht hst, State.ln_updLn, State.ln_setLn, State.ln_taken]
  refine ⟨rfl, rfl, ?_, rfl, ?_, ?_, rfl⟩
  · simp [Lane.wentOn, Lane.took, LBank.entered, ht]
  · have hne : rLPE_L_STAT l ≠ rLPE_L_EVQ l := by simp only [rLPE_L_STAT, rLPE_L_EVQ]; omega
    have hbusy : (s.taken l e rest).flag (rLPE_L_STAT l) fLPE_L_STAT_BUSY = true :=
      (State.flag_evqShow_ne _ l _ hne).trans (State.flag_raise _ _ _ (by decide) (by decide))
    exact hbusy
  · refine (State.fget_evqShow_now _ l).trans ?_
    rw [State.ln_raise, State.ln_updLn]
    rfl

end
end Sys2Proof.Machine
end

section
/-! SUPPORT. The trap of a lane: what stands after it, whatever the trap brings about elsewhere. -/
open Sys2Proof Sys2Proof.Machine
namespace Sys2Proof.Machine

/-! ### The trap (R358) -/

/-- The lane with its work gone, as a trap leaves it. -/
def Lane.dropped (x : Lane) : Lane := { x with trapped := true, evq := [], work := none, outs := [], pend := [], pendSt := none, slots := none }

/-- What a trap writes for its lane, before what it brings about elsewhere: the status word, the lane, its queue and its role. -/
def State.trapShown (s : State) (l code : Nat) : State :=
  let st := rLPE_L_STAT l
  let u := ((s.fset st fLPE_L_STAT_RUN 0).fset st fLPE_L_STAT_BUSY 0).raise st fLPE_L_STAT_TRAP
  let u := (u.fset st fLPE_L_STAT_TRAPCODE code).fset st fLPE_L_STAT_TRAPPC (s.ln l).fg.pc.toNat
  let u := ((u.updLn l Lane.dropped).evqShow l).setRole l roRETIRED
  if code == tcMEM || code == tcSELFTEST then u.fset rLPE_RETIRE fLPE_RETIRE_HARD (setBit (u.fget rLPE_RETIRE fLPE_RETIRE_HARD) l true) else u

theorem State.laneSide_trapLane {s : State} {l : Nat} (h : (s.ln l).trapped = false) (code : Nat) :
    (s.trapLane l code).laneSide = (s.trapShown l code).laneSide := by
  unfold State.trapLane
  rw [h, if_neg Bool.false_ne_true]
  extract_lets st hard pc u1 u2 u3 u4 u5 u6 u7 u8
  have hrep : u8.laneSide = u7.laneSide := by
    clear_value u7
    unfold u8
    split
    · rfl
    · rfl
  have hall : u8.laneSide = u5.laneSide := hrep.trans (by simp [u7, u6])
  have hmark : u5 = s.trapShown l code := rfl
  rw [← hmark, ← hall]
  clear_value u8
  split
  · split
    · rfl
    · dsimp only
      split <;> simp
  · rfl

theorem State.ln_trapShown (s : State) (l code : Nat) : (s.trapShown l code).ln l = (s.ln l).dropped := by
  have hrole : ∀ u : State, (u.setRole l roRETIRED).ln l = u.ln l := fun _ => rfl
  simp [State.trapShown, hrole]

/-- The status word, and what a trap writes after it. -/
theorem State.rget_trapShown (s : State) (l code : Nat) {o : Nat} (hq : o ≠ rLPE_L_EVQ l) (hro : o ≠ rLPE_LROLE) (hre : o ≠ rLPE_RETIRE) :
    (s.trapShown l code).rget o = (((((s.fset (rLPE_L_STAT l) fLPE_L_STAT_RUN 0).fset (rLPE_L_STAT l) fLPE_L_STAT_BUSY 0).raise (rLPE_L_STAT l)
      fLPE_L_STAT_TRAP).fset (rLPE_L_STAT l) fLPE_L_STAT_TRAPCODE code).fset (rLPE_L_STAT l) fLPE_L_STAT_TRAPPC (s.ln l).fg.pc.toNat).rget o := by
  unfold State.trapShown
  extract_lets st u v w
  have hw : w.rget o = v.rget o := (State.rget_fset_ne _ _ _ hro).trans (State.rget_evqShow_ne _ l hq)
  split
  · exact (State.rget_fset_ne _ _ _ hre).trans hw
  · exact hw

/-- Every other register stands. -/
theorem State.rget_trapShown_ne (s : State) (l code : Nat) {o : Nat} (hst : o ≠ rLPE_L_STAT l) (hq : o ≠ rLPE_L_EVQ l) (hro : o ≠ rLPE_LROLE)
    (hre : o ≠ rLPE_RETIRE) : (s.trapShown l code).rget o = s.rget o := by
  rw [State.rget_trapShown s l code hq hro hre]
  simp [State.rget_fset_ne, State.raise, hst]

theorem State.fget_trapShown_code (s : State) {l : Nat} (hl : l < 16) (code : Nat) :
    (s.trapShown l code).fget (rLPE_L_STAT l) fLPE_L_STAT_TRAPCODE = code % 16 := by
  have hshown := s.rget_trapShown l code (o := rLPE_L_STAT l) (by simp only [rLPE_L_STAT, rLPE_L_EVQ]; omega)
    (by simp only [rLPE_L_STAT, rLPE_LROLE]; omega) (by simp only [rLPE_L_STAT, rLPE_RETIRE]; omega)
  refine (congrArg (bget · fLPE_L_STAT_TRAPCODE) hshown).trans ?_
  exact (State.fget_fset_field _ _ _ _ _ (by decide)).trans (State.fget_fset _ _ _ _ (by decide))

/-! ### The trap of a lane of the block -/

section
variable {s : State} {l : Fin 16} (h : (s.ln l).trapped = false) (code : Nat)
include h

theorem State.trapped_trapLane : ((s.trapLane l code).ln l).trapped = true ∧ ((s.trapLane l code).ln l).evq = [] := by
  have hduty := State.duties_of_laneSide (State.laneSide_trapLane h code)
  have hln := s.ln_trapShown l code
  exact ⟨(State.trapped_of_duties hduty l).trans (congrArg Lane.trapped hln), (State.evq_of_duties hduty l).trans (congrArg Lane.evq hln)⟩

theorem State.fget_trapLane_code : (s.trapLane l code).fget (rLPE_L_STAT l) fLPE_L_STAT_TRAPCODE = code % 16 := by
  have hreg : shellReg (rLPE_L_STAT l) := by simp only [shellReg, rLPE_L_STAT, rLPE_MIG]; omega
  exact (congrArg (bget · fLPE_L_STAT_TRAPCODE) (State.rget_of_laneSide (State.laneSide_trapLane h code) hreg)).trans
    (s.fget_trapShown_code l.isLt code)

theorem State.rget_trapLane_stest : (s.trapLane l code).rget (rLPE_L_STEST l) = s.rget (rLPE_L_STEST l) := by
  have hreg : shellReg (rLPE_L_STEST l) := by simp only [shellReg, rLPE_L_STEST, rLPE_MIG]; omega
  rw [State.rget_of_laneSide (State.laneSide_trapLane h code) hreg]
  refine s.rget_trapShown_ne l code ?_ ?_ ?_ ?_ <;>
    simp only [rLPE_L_STEST, rLPE_L_STAT, rLPE_L_EVQ, rLPE_LROLE, rLPE_RETIRE] <;> omega

end

/-! ### The watchdog and the self-test (R357, R499, R500) -/

section
variable {s : State} {l : Fin 16}

/-- A lane traps whose work item has not reached END in time. -/
theorem laneWatchdog_traps (h : (s.ln l).trapped = false) {e : LEvent} (hon : s.fget (rLPE_L_WDG l) fLPE_L_WDG_WDG ≠ 0)
    (hw : (s.ln l).work = some e) (hlate : s.fget (rLPE_L_WDG l) fLPE_L_WDG_WDG < s.cyclesSince e.raised) :
    Completes (.laneWatchdog l) s (fun t => (t.ln l).trapped = true ∧ (t.ln l).evq = [] ∧ t.fget (rLPE_L_STAT l) fLPE_L_STAT_TRAPCODE = 7) := by
  have hx : exec (.laneWatchdog l) s = .next (s.trapLane l tcWDG) :=
    congrArg Host.Outcome.next (if_pos ⟨hon, by simp [hw, hlate]⟩)
  obtain ⟨htrap, hevq⟩ := State.trapped_trapLane h tcWDG
  exact ⟨_, hx, htrap, hevq, State.fget_trapLane_code h tcWDG⟩

theorem selfTestPass_traps (h : (s.ln l).trapped = false) (hrun : s.laneRuns l = true) :
    Completes (.selfTestPass l false) s (fun t => (t.ln l).trapped = true ∧ t.flag (rLPE_L_STEST l) fLPE_L_STEST_FAIL = true
      ∧ t.fget (rLPE_L_STAT l) fLPE_L_STAT_TRAPCODE = 8) := by
  have hx : exec (.selfTestPass l false) s = .next ((s.raise (rLPE_L_STEST l) fLPE_L_STEST_FAIL).trapLane l tcSELFTEST) :=
    congrArg Host.Outcome.next (if_neg (by simp [hrun]))
  have hraised : ((s.raise (rLPE_L_STEST l) fLPE_L_STEST_FAIL).ln l).trapped = false := h
  have hfail := s.flag_raise (rLPE_L_STEST l) fLPE_L_STEST_FAIL (by decide) (by decide)
  refine ⟨_, hx, (State.trapped_trapLane hraised tcSELFTEST).1, ?_, State.fget_trapLane_code hraised tcSELFTEST⟩
  exact (congrArg (bget · fLPE_L_STEST_FAIL != 0) (State.rget_trapLane_stest hraised tcSELFTEST)).trans hfail

theorem selfTestPass_passes (hrun : s.laneRuns l = true) : Completes (.selfTestPass l true) s (fun t =>
    t.onlyLane { s with regs := t.regs } l { s.ln l with lastPass := s.now }
      ∧ t.fget (rLPE_L_STEST l) fLPE_L_STEST_PASS = (s.fget (rLPE_L_STEST l) fLPE_L_STEST_PASS + 1) % 2 ^ 16
      ∧ ∀ o, o ≠ rLPE_L_STEST l → t.rget o = s.rget o) := by
  have hx : exec (.selfTestPass l true) s = .next ((s.fset (rLPE_L_STEST l) fLPE_L_STEST_PASS
      (s.fget (rLPE_L_STEST l) fLPE_L_STEST_PASS + 1)).updLn l (fun x => { x with lastPass := s.now })) :=
    congrArg Host.Outcome.next (if_neg (by simp [hrun]))
  refine ⟨_, hx, ⟨rfl, State.ln_updLn _ _ _, fun k hk => State.ln_setLn_ne _ _ hk⟩, ?_, fun o ho => ?_⟩
  · exact State.fget_fset _ _ _ _ (by decide)
  · exact State.rget_fset_ne _ _ _ ho

/-! ### CLRSPAN (R371) -/

theorem regRow_laneCmd (l : Fin 16) : ∃ q, regRow (rLPE_L_CMD l) = some q := by
  have hblock : rLPE_L_CMD l / 0x100000 = 6 := by simp only [rLPE_L_CMD]; omega
  refine exists_regRow (r := ⟨0x620018, [(16, 0x100)], 0x0, 0x0, 0x0, 0x1, 0x0, 0x0, 0x0, .none_⟩) ?_ ?_ ?_
  · rw [hblock]
    decide
  · simp only [rLPE_L_CMD]
    omega
  · simp [rLPE_L_CMD, dimsHit]

theorem clrspan_clears {via : RegPath} (hd : s.p8Denied via (rLPE_L_CMD l) = false) : Completes (.clrspan via l) s (fun t =>
    t.fget (rLPE_L_SPAN l) fLPE_L_SPAN_SPAN = 0 ∧ t.fget (rLPE_L_EVQ l) fLPE_L_EVQ_PEAK = 0
      ∧ t.wrote s [rLPE_L_CMD l, rLPE_L_SPAN l, rLPE_L_EVQ l]) := by
  obtain ⟨u, hu, hwrite⟩ := s.portWrite_allowed 1 (fun _ => lpeCmdWritten l 1) hd (regRow_laneCmd l)
  have hspan := u.fset_wrote (rLPE_L_SPAN l) fLPE_L_SPAN_SPAN 0
  have hpeak := (u.fset (rLPE_L_SPAN l) fLPE_L_SPAN_SPAN 0).fset_wrote (rLPE_L_EVQ l) fLPE_L_EVQ_PEAK 0
  have hne : rLPE_L_SPAN l ≠ rLPE_L_EVQ l := by simp only [rLPE_L_SPAN, rLPE_L_EVQ]; omega
  refine ⟨_, congrArg Host.Outcome.next hwrite, ?_, State.fget_fset _ _ _ _ (by decide), ?_⟩
  · exact (State.fget_fset_reg _ _ _ _ hne).trans (State.fget_fset _ _ _ _ (by decide))
  · exact State.wrote_mono (State.wrote_trans hpeak (State.wrote_trans hspan hu)) (by simp)

end

end Sys2Proof.Machine
end

section
/-! SUPPORT. The events of missing frames (R176, R354), and the settling of the statement on the events of a lane. -/
open Sys2Proof Sys2Proof.Machine
namespace Sys2Proof.Machine

/-! ### Latches and ballast leave the lanes -/

section
variable (s : State)

theorem State.laneSide_latStat (n : Nat) (b : Bits) (x : Nat) : (s.fset (rLAT_STAT n) b x).laneSide = s.laneSide :=
  s.laneSide_fset b x fun h => by
    have hhi := h.2.1
    simp only [rLAT_STAT] at hhi
    omega
@[simp] theorem State.laneSide_latShow (n : Nat) : (s.latShow n).laneSide = s.laneSide := by
  simp [State.latShow, State.fsetb, State.laneSide_latStat]
@[simp] theorem State.laneSide_latDrain (n k : Nat) : (s.latDrain n k).laneSide = s.laneSide := by
  induction k generalizing s with
  | zero => rfl
  | succ k ih =>
    unfold State.latDrain
    split
    · rfl
    · dsimp only
      split
      · rw [ih, State.laneSide_produce _ _ _ (bget_lt _ _), State.laneSide_updAx]
      · rfl
@[simp] theorem State.laneSide_latPush (n : Nat) (r : LatRec) : (s.latPush n r).laneSide = s.laneSide := by
  simp [State.latPush, State.raise, State.laneSide_latStat]
@[simp] theorem State.laneSide_latResolve (n : Nat) (missing : Bool) : (s.latResolve n missing).laneSide = s.laneSide := by
  unfold State.latResolve
  dsimp only
  rw [State.laneSide_latShow, State.laneSide_foldl_all]
  · rfl
  · intro u w
    split
    · exact u.laneSide_latPush _ _
    · exact u.laneSide_latPush _ _
    · rfl
@[simp] theorem State.laneSide_balCommit (b : Nat) : (s.balCommit b).laneSide = s.laneSide := by
  unfold State.balCommit
  split <;> simp
@[simp] theorem State.laneSide_openTick (k : Nat) (tk : FTime) (j : Int) : (s.openTick k tk j).laneSide = s.laneSide := by
  simp [State.openTick]

end

/-! ### What an event is raised by -/

/-- What the raising of an event rests on: the duties of the lanes, the time, the plan and the roles of the lanes. -/
def State.eventSide (s : State) :
    ((Nat → Option LEvent × List LEvent × Bool) × List (Nat × Bool)) × TimeUnit × Tbl Word × List PlanHold × Word :=
  (s.duties, s.time, s.work, s.hold, s.rget rLPE_LROLE)

theorem State.eventSide_of_laneSide {s u : State} (h : u.laneSide = s.laneSide) : u.eventSide = s.eventSide := by
  have hrole := State.rget_of_laneSide h (o := rLPE_LROLE) ⟨by decide, by decide, by decide⟩
  exact Prod.ext (State.duties_of_laneSide h) (Prod.ext (State.time_of_laneSide h) (Prod.ext (congrArg (·.2.2.1) h)
    (Prod.ext (congrArg (·.2.2.2.1) h) hrole)))

theorem State.eventSide_of_wrote {s u : State} {L : List Nat} (h : u.wrote s L) (hL : rLPE_LROLE ∉ L) : u.eventSide = s.eventSide := by
  obtain ⟨hu, hr⟩ := h
  rw [State.eventSide, hr _ hL, hu]
  rfl

section
variable {s u : State} (h : u.eventSide = s.eventSide)
include h

theorem State.duties_of_eventSide : u.duties = s.duties := congrArg Prod.fst h
theorem State.now_of_eventSide : u.now = s.now := congrArg (·.2.1.ft) h
theorem State.laneRole_of_eventSide (l : Nat) : u.laneRole l = s.laneRole l := 
  congrArg (bget · (fLPE_LROLE_ROLE l)) (congrArg (·.2.2.2.2) h : u.rget rLPE_LROLE = s.rget rLPE_LROLE)
theorem State.axLane_of_eventSide (n : Nat) : u.axLane n = s.axLane n := by
  have hw : u.work = s.work := congrArg (·.2.2.1) h
  have hh : u.hold = s.hold := congrArg (·.2.2.2.1) h
  rw [State.axLane, State.wfld, State.wget, State.held, State.wcopy, hw, hh]
  rfl

end

/-! ### Missing records (R176) -/

/-- The state of an axis whose record is missing, before its captures are resolved. -/
def State.countedMissing (s : State) (n : Nat) : State :=
  ((s.count (rAXC_MISS n)).raise (rAXC_STAT n) fAXC_STAT_RECMISS).raise (rAXC_STAT n) fAXC_STAT_DLYSTALE

theorem State.laneSide_missRecord (s : State) (n : Nat) : (s.missRecord n).laneSide = (s.countedMissing n).laneSide := by
  simp [State.missRecord, State.countedMissing]

theorem State.countedMissing_wrote (s : State) (n : Nat) : (s.countedMissing n).wrote s [rAXC_STAT n, rAXC_MISS n] :=
  State.wrote_mono (State.wrote_trans (State.fset_wrote _ _ _ _) (State.wrote_trans (State.fset_wrote _ _ _ _) (s.count_wrote (rAXC_MISS n))))
    (by simp)

theorem State.eventSide_countedMissing (s : State) (n : Nat) : (s.countedMissing n).eventSide = s.eventSide :=
  State.eventSide_of_wrote (s.countedMissing_wrote n) (by simp [rLPE_LROLE, rAXC_STAT, rAXC_MISS]; omega)

theorem State.flag_countedMissing (s : State) (n m : Nat) :
    (s.countedMissing n).flag (rAXC_STAT m) fAXC_STAT_RECMISS = (decide (m = n) || s.flag (rAXC_STAT m) fAXC_STAT_RECMISS) := by
  by_cases hm : m = n
  · rw [hm, decide_eq_true rfl, Bool.true_or, State.countedMissing, State.flag_raise_field _ _ (by decide)]
    exact State.flag_raise _ _ _ (by decide) (by decide)
  · have hne : rAXC_STAT m ∉ [rAXC_STAT n, rAXC_MISS n] := by
      simp [rAXC_STAT, rAXC_MISS]
      omega
    rw [decide_eq_false hm, Bool.false_or, State.flag, State.fget_of_wrote (s.countedMissing_wrote n) _ hne]
    rfl

/-- The records of axes are missing, and their inbox slots say so (R176, R359). -/
def State.recordsMissed (s : State) (ns : List Nat) : State := ns.foldl (fun s n => (s.missRecord n).inboxWrite n false) s

theorem State.eventSide_recordsMissed (s : State) (ns : List Nat) : (s.recordsMissed ns).eventSide = s.eventSide :=
  List.foldlRecOn (motive := fun u : State => u.eventSide = s.eventSide) ns _ rfl fun u hu n _ =>
    (State.eventSide_of_laneSide ((State.laneSide_inboxWrite _ n false).trans (u.laneSide_missRecord n))).trans
      ((u.eventSide_countedMissing n).trans hu)

theorem State.flag_recordsMissed (s : State) (ns : List Nat) {m : Nat} (hm : m < 256)
    (h : m ∈ ns ∨ s.flag (rAXC_STAT m) fAXC_STAT_RECMISS = true) :
    (s.recordsMissed ns).flag (rAXC_STAT m) fAXC_STAT_RECMISS = true := by
  have hreg : shellReg (rAXC_STAT m) := by simp only [shellReg, rAXC_STAT, rLPE_MIG]; omega
  induction ns generalizing s with
  | nil => exact h.resolve_left List.not_mem_nil
  | cons n ns ih =>
    refine ih _ ?_
    have hside := (State.laneSide_inboxWrite _ n false).trans (s.laneSide_missRecord n)
    have hflag : ((s.missRecord n).inboxWrite n false).flag (rAXC_STAT m) fAXC_STAT_RECMISS
        = (decide (m = n) || s.flag (rAXC_STAT m) fAXC_STAT_RECMISS) :=
      (congrArg (bget · fAXC_STAT_RECMISS != 0) (State.rget_of_laneSide hside hreg)).trans (s.flag_countedMissing n m)
    rw [hflag]
    simp only [List.mem_cons] at h
    rcases h with (rfl | hmem) | hset
    · exact .inr (by simp)
    · exact .inl hmem
    · exact .inr (by simp [hset])

/-! ### The event of a missing frame (R354) -/

theorem State.raiseEvent_queues {s : State} {l : Nat} (e : LEvent) (ht : (s.ln l).trapped = false) (hr : s.laneRole l ≠ roRETIRED)
    (hroom : (s.ln l).evq.length < 512) :
    ((s.raiseEvent l e).ln l).evq = (s.ln l).evq ++ [e]
      ∧ ∀ o, shellReg o → o ≠ rLPE_L_EVQ l → (s.raiseEvent l e).rget o = s.rget o := by
  have hgo : s.raiseEvent l e = ((s.updLn l fun x => { x with evq := x.evq ++ [e] }).evqShow l).traceEvent l e := by
    rw [State.raiseEvent, if_neg (by simp [ht, hr]), if_neg (by simp only [laneQueue]; omega)]
  rw [hgo]
  refine ⟨?_, fun o ho hne => ?_⟩
  · rw [State.evq_of_duties (State.duties_of_laneSide (State.laneSide_traceEvent _ l e)), State.ln_evqShow, State.ln_updLn]
  · exact (State.rget_of_laneSide (State.laneSide_traceEvent _ l e) ho).trans (State.rget_evqShow_ne _ l hne)

/-- The event of a missing frame, from its first axis. -/
def State.substEvent (s : State) (n : Nat) (tk : FTime) (j : Int) : LEvent :=
  { tick := false, t := s.axTether n, pos := s.axPos n, cls := s.axClass n, tk := tk, raised := s.now, subst := true, tickNo := BitVec.ofInt 8 j }

/-- The state in which a lane's event for a missing frame is raised: its tick is open, and its axes are counted as missed. -/
def State.substituted (s : State) (l k : Nat) (tk : FTime) (j : Int) (ns : List Nat) : State :=
  let u := (s.openTick k tk j).updGd k (fun d => { d with subst := d.subst ++ [l] })
  ((u.balChs k).foldl (fun s e => s.balCommit e.1) u).recordsMissed ns

theorem State.eventSide_substituted (s : State) (l k : Nat) (tk : FTime) (j : Int) (ns : List Nat) :
    (s.substituted l k tk j ns).eventSide = s.eventSide :=
  (State.eventSide_recordsMissed _ ns).trans (State.eventSide_of_laneSide (by simp))

theorem State.frameEvents_of_lane {s : State} {l n : Nat} {ns : List Nat} (hn : n ∈ ns) (hl : ∀ m ∈ ns, s.axLane m = l) (tk : FTime) (j : Int) :
    ∃ m ∈ ns, s.frameEvents ns tk j true [l] = s.raiseEvent l (s.substEvent m tk j) := by
  obtain ⟨m, hm⟩ := Option.isSome_iff_exists.1 (List.find?_isSome (p := fun n => s.axLane n == l) |>.2 ⟨n, hn, beq_iff_eq.2 (hl n hn)⟩)
  refine ⟨m, List.mem_of_find?_eq_some hm, ?_⟩
  rw [State.frameEvents, List.foldl_cons, List.foldl_nil, hm]
  rfl

/-- Where no TICK_UP has opened its tick at t_k + U, the axes of a lane are counted as missed, and the lane gets its event. -/
theorem substituteFrameEvent_raises {s : State} {l : Fin 16} {t : Fin 25} {pos : Fin 64} {k : Nat} {j : Int} {tk : FTime} {ns : List Nat}
    (hk : s.gk t pos = k) (hj : tickAt (s.frameOrigin t) (s.framePeriod t) s.now = j)
    (htk : tickStartOf (s.frameOrigin t) (s.framePeriod t) j = tk)
    (hns : (s.gonAxes k).filter (fun n => s.axLane n == l.val && s.dueAt n tk) = ns) (hne : ns ≠ [])
    (hdue : (ptUp (s.upLat t k) : Int) ≤ tdiff s.now tk) (hshut : (s.gd k).upTick ≠ some (BitVec.ofInt 64 j))
    (htrap : (s.ln l).trapped = false) (hrole : s.laneRole l ≠ roRETIRED) (hroom : (s.ln l).evq.length < 512) :
    Completes (.substituteFrameEvent l t pos) s (fun t => (∃ e, (t.ln l).evq = (s.ln l).evq ++ [e] ∧ e.subst = true ∧ e.tick = false
      ∧ e.tk = tk ∧ e.raised = s.now) ∧ (∀ n ∈ ns, t.flag (rAXC_STAT n) fAXC_STAT_RECMISS = true)) := by
  have hmem : ∀ n ∈ ns, n < 256 ∧ s.axLane n = l := fun n hn => by
    simp only [← hns, State.gonAxes, List.mem_filter, allAxes, List.mem_range, Bool.and_eq_true, beq_iff_eq] at hn
    exact ⟨hn.1.1, hn.2.1⟩
  have hx : exec (.substituteFrameEvent l t pos) s = .next ((s.substituted l k tk j ns).frameEvents ns tk j true [l.val]) := by
    subst hns htk hj hk
    refine if_neg ?_
    rintro (hnone | hearly | ⟨hopen, -⟩)
    · exact hne (List.isEmpty_iff.1 hnone)
    · omega
    · exact hshut hopen
  have hside := s.eventSide_substituted l k tk j ns
  obtain ⟨n, hn⟩ := List.exists_mem_of_ne_nil ns hne
  obtain ⟨m, hm, hev⟩ := State.frameEvents_of_lane (s := s.substituted l k tk j ns) hn
    (fun m hm => (State.axLane_of_eventSide hside m).trans (hmem m hm).2) tk j
  have hduty := State.duties_of_eventSide hside
  obtain ⟨hevq, hregs⟩ := State.raiseEvent_queues ((s.substituted l k tk j ns).substEvent m tk j) ((State.trapped_of_duties hduty l).trans htrap)
    (by rwa [State.laneRole_of_eventSide hside]) (by rwa [State.evq_of_duties hduty])
  refine ⟨_, hx, ?_⟩
  rw [hev]
  refine ⟨⟨_, by rw [hevq, State.evq_of_duties hduty], rfl, rfl, rfl, State.now_of_eventSide hside⟩, fun n hn => ?_⟩
  have hreg : shellReg (rAXC_STAT n) := by
    have hlt := (hmem n hn).1
    simp only [shellReg, rAXC_STAT, rLPE_MIG]
    omega
  have hne : rAXC_STAT n ≠ rLPE_L_EVQ l := by simp only [rAXC_STAT, rLPE_L_EVQ]; omega
  exact (congrArg (bget · fAXC_STAT_RECMISS != 0) (hregs _ hreg hne)).trans (State.flag_recordsMissed _ ns (hmem n hn).1 (.inl hn))

/-! ### The work item and the entry of an event (R355, R361) -/

section
variable {s : State} {l : Fin 16} {e : LEvent} {rest : List LEvent} (hrun : s.laneRuns l = true) (hq : (s.ln l).evq = e :: rest)
  (hw : (s.ln l).work = none) (hb : (s.ln l).atBoundary = true)
include hrun hq hw hb

theorem workItemFrame_ends (himg : (s.ln l).imgKind = 1) (hup : s.sramUpsets = []) (ht : e.tick = false) :
    Completes (.workItemFrame l) s (fun t => (t.ln l).work = none ∧ (t.ln l).evq = rest) :=
  ⟨s.stockItem l false, rfl, ht ▸ State.stockItem_ends hrun hq hw hb himg hup⟩

theorem workItemTick_ends (himg : (s.ln l).imgKind = 1) (hup : s.sramUpsets = []) (ht : e.tick = true) :
    Completes (.workItemTick l) s (fun t => (t.ln l).work = none ∧ (t.ln l).evq = rest) :=
  ⟨s.stockItem l true, rfl, ht ▸ State.stockItem_ends hrun hq hw hb himg hup⟩

theorem laneNop_enters (ht : e.tick = false) (hst : (s.ln l).pendSt = none) : Completes (.laneNop l) s (fun t => (t.ln l).work = some e
    ∧ (t.ln l).evq = rest ∧ (t.ln l).fg.pc = (s.ln l).eframe + 1 ∧ (t.ln l).bg = (s.ln l).bg
    ∧ t.flag (rLPE_L_STAT l) fLPE_L_STAT_BUSY = true ∧ t.fget (rLPE_L_EVQ l) fLPE_L_EVQ_NOW = rest.length % 1024
    ∧ (t.ln l).wbank = s.flag (rLPE_L_STAT l) fLPE_L_STAT_PBANK) :=
  ⟨s.issue l .nop .nop, rfl, State.issue_entered hrun hq hw hb ht hst⟩

end

end Sys2Proof.Machine

/-- Settles O48: each row by what it leaves of its lane, whatever it brings about elsewhere. -/
theorem laneEventRows : Obligations.LaneEventRows := by
  unfold Obligations.LaneEventRows
  intro s l
  refine ⟨fun e rest hrun hq hw hb => ⟨fun himg hup => ?_, laneNop_enters hrun hq hw hb⟩, fun t pos => ?_, fun htrap => ?_,
    selfTestPass_passes, fun via => clrspan_clears⟩
  · exact ⟨workItemFrame_ends hrun hq hw hb himg hup, workItemTick_ends hrun hq hw hb himg hup⟩
  · exact substituteFrameEvent_raises rfl rfl rfl rfl
  · exact ⟨fun e => laneWatchdog_traps htrap, selfTestPass_traps htrap⟩
end

section
/-! SUPPORT. What tells of the carrier of a channel, what leaves it, and the settling of the statement on carriers. -/
open Sys2Proof Sys2Proof.Machine
namespace Sys2Proof.Machine

/-! ### The carrier of a channel -/

/-- The carrier of a channel, the pair in its shadow, and whether a start waits. -/
def GChan.pulsing (x : GChan) : Option Carrier × Option (BitVec 128) × Bool := (x.carrier, x.shadow, x.startPend)
def State.pulsing (s : State) : Nat → Nat → Option Carrier × Option (BitVec 128) × Bool := fun n c => ((s.gon n).chan c).pulsing

theorem State.pulsing_of_gons {s u : State} (h : u.gons = s.gons) : u.pulsing = s.pulsing := by
  funext n c
  simp only [State.pulsing, State.gon, h]

theorem State.pulsing_updGon (s : State) (n : Nat) (f : Gondola → Gondola) (hf : ∀ g c, ((f g).chan c).pulsing = (g.chan c).pulsing) :
    (s.updGon n f).pulsing = s.pulsing := by
  funext m c
  by_cases hm : m = n
  · subst hm
    simp only [State.pulsing, State.gon_updGon, hf]
  · simp only [State.pulsing, s.gon_updGon_ne f hm]

theorem State.pulsing_updChan (s : State) (n c : Nat) (f : GChan → GChan) (hf : ∀ x, (f x).pulsing = x.pulsing) :
    (s.updGon n (fun g => g.updChan c f)).pulsing = s.pulsing := by
  refine s.pulsing_updGon n _ fun g j => ?_
  by_cases hj : j = c
  · rw [hj, Gondola.chan_updChan, hf]
  · rw [g.chan_updChan_ne f hj]

theorem State.pulsing_updChan_same (s : State) (n c : Nat) (f : GChan → GChan) :
    (s.updGon n (fun g => g.updChan c f)).pulsing n c = (f ((s.gon n).chan c)).pulsing := by
  rw [State.pulsing, State.gon_updGon, Gondola.chan_updChan]

theorem State.pulsing_legPut (s : State) (n c k : Nat) (t : FTime) (v : BitVec 2) : (s.legPut n c k t v).pulsing = s.pulsing :=
  s.pulsing_updChan n c _ fun _ => rfl

theorem State.pulsing_gcount (s : State) (n k : Nat) : (s.gcount n k).pulsing = s.pulsing := s.pulsing_updGon _ _ fun _ _ => rfl

theorem State.pulsing_legCmd (s : State) (n c k : Nat) (t : FTime) (v : BitVec 2) : (s.legCmd n c k t v).pulsing = s.pulsing := by
  unfold State.legCmd
  split
  · exact s.pulsing_legPut n c k t v
  · dsimp only
    split
    · exact (State.pulsing_gcount _ _ _).trans (s.pulsing_updChan n c _ fun _ => rfl)
    · exact s.pulsing_updChan n c _ fun _ => rfl

theorem State.pulsing_placeSamples (s : State) (n c : Nat) (p : BitVec 128) (base : Nat) (len onE0 : Int) :
    (s.placeSamples n c p base len onE0).pulsing = s.pulsing := by
  unfold State.placeSamples
  dsimp only
  split
  · rfl
  · exact s.pulsing_updChan n c _ fun _ => rfl

theorem State.pulsing_gview (s : State) (n : Nat) (t : FTime) : (s.gview n t).pulsing = s.pulsing := State.pulsing_of_gons (s.gons_gview n t)

/-! ### Windows and periods (R237, R249) -/

/-- What acts on registers of a window leaves the gondolas. -/
theorem State.gons_onWin (s : State) (n c : Nat) {f : PulseWin → State → State} (hf : ∀ w u, (f w u).gons = u.gons) :
    (s.onWin n c f).gons = s.gons := by
  unfold State.onWin
  split
  · exact hf _ s
  · rfl

/-- The pulses not emitted are counted in registers of the device (R238). -/
theorem State.gons_endPeriod (s : State) (n c : Nat) (k : Carrier) : (s.endPeriod n c k).1.gons = s.gons := by
  refine s.gons_onWin n c fun w u => ?_
  split
  · rfl
  · exact u.gons_countN _ _

/-- A pair consumed leaves of the gondola all but the shadow of its channel. -/
theorem State.shadowTake_eq (s : State) (n c : Nat) : ∃ v : State, v.gons = s.gons ∧
    s.shadowTake n c = v.updGon n (fun g => g.updChan c (fun ch => { ch with shadow := none })) := by
  refine ⟨_, ?_, rfl⟩
  exact s.gons_onWin n c fun _ _ => rfl

/-- The period that begins (R229-R231). -/
theorem State.beginPeriod_carrier (s : State) (n c : Nat) (p : BitVec 128) (base j : Nat) (carry : List Int) : ∃ k : Carrier,
    (s.beginPeriod n c p base j carry).pulsing n c = (some k, (s.pulsing n c).2) ∧ k.pair = p ∧ k.start = BitVec.ofNat 64 (base / 16)
      ∧ k.startFr = base % 16 ∧ k.period16 = pairP16 (s.gquant n) p ∧ k.j = j ∧ k.midDone = false := by
  unfold State.beginPeriod
  dsimp only
  rw [State.pulsing_placeSamples, foldl_keeps State.pulsing, State.pulsing_updChan_same]
  · exact ⟨_, rfl, rfl, rfl, rfl, rfl, rfl, rfl⟩
  · intro u k
    split
    · rfl
    · exact u.pulsing_legCmd n c k _ _

/-! ### CARRIER_START (R233) -/

theorem State.gquant_of_ident {s u : State} {n : Nat} (h : (u.gon n).ident = (s.gon n).ident) : u.gquant n = s.gquant n := by
  simp only [State.gquant, State.gident, h]

theorem carrierStart_begins {s : State} {node : Nat} {ch : Fin 16} {now : FTime} {p : BitVec 128}
    (hstart : ((s.gon node).chan ch).startPend = true) (hshadow : ((s.gon node).chan ch).shadow = some p) (htick : s.gTicking node = true)
    (hdue : reached (s.dueStart node ch (s.gtime node now)) (((s.gon node).chan ch).shadowAt + 1) = true) :
    Completes (.carrierStart node ch now) s (fun t =>
      ((t.gon node).chan ch).startPend = false ∧ ((t.gon node).chan ch).shadow = none
      ∧ ∃ k, ((t.gon node).chan ch).carrier = some k ∧ k.pair = p ∧ k.start = s.dueStart node ch (s.gtime node now) ∧ k.j = 0
        ∧ k.period16 = pairP16 (s.gquant node) p) := by
  generalize htk : s.dueStart node ch (s.gtime node now) = tk at hdue
  obtain ⟨v, hv, htake⟩ := s.shadowTake_eq node ch
  generalize hw : (s.shadowTake node ch).updGon node (fun g => g.updChan ch (fun x => { x with startPend := false })) = w
  have hexec : exec (.carrierStart node ch now) s
      = .next ((w.beginPeriod node ch p (tk.toNat * 16) 0 [0, 0, 0, 0]).gview node (s.gtime node now)) := by
    show execCarrierStart node ch now s = _
    simp only [execCarrierStart, hstart, hshadow, htk, htick, hdue, hw, and_self, if_true]
  have hgon : w.gon node = ((s.gon node).updChan ch (fun x => { x with shadow := none })).updChan ch (fun x => { x with startPend := false }) := by
    rw [← hw, htake, State.gon_updGon, State.gon_updGon, State.gon, hv]
    rfl
  have hwaits : w.pulsing node ch = (((s.gon node).chan ch).carrier, none, false) := by
    rw [State.pulsing, hgon, Gondola.chan_updChan, Gondola.chan_updChan]
    rfl
  obtain ⟨k, hk, hpair, hbase, -, hlen, hj, -⟩ := w.beginPeriod_carrier node ch p (tk.toNat * 16) 0 [0, 0, 0, 0]
  rw [← State.pulsing_gview _ node (s.gtime node now), hwaits] at hk
  obtain ⟨hcar, hrest⟩ := Prod.mk.inj hk
  obtain ⟨hsh, hpend⟩ := Prod.mk.inj hrest
  refine ⟨_, hexec, hpend, hsh, k, hcar, hpair, ?_, hj, ?_⟩
  · rw [hbase, Nat.mul_div_cancel _ (by decide), BitVec.ofNat_toNat, BitVec.setWidth_eq]
  · rw [hlen, State.gquant_of_ident (s := s) (by rw [hgon]; rfl)]

/-! ### CARRIER_EDGE (R229-R232, R240) -/

/-- What holds a leg, and whether its low side turns on, is told neither by legs nor by carriers. -/
theorem State.legRules_of_offLegs {s u : State} (hdev : u.offGons = s.offGons) (hgons : u.offLegs = s.offLegs) (n c k : Nat) :
    u.legOver n c k = s.legOver n c k ∧ u.legNoLow n c k = s.legNoLow n c k := by
  have hframe : u = { s with gons := u.gons } := State.eq_of_offGons hdev
  have hgon : ∀ m, u.gon m = { s.gon m with chans := (u.gon m).chans } := fun m => State.gon_of_offLegs (congrFun hgons m)
  have hforced : ((u.gon n).chan c).forced = ((s.gon n).chan c).forced := State.forced_of_offLegs (congrFun hgons n) c
  have hwfld : ∀ o b, u.wfld o b = s.wfld o b := fun o b => by rw [hframe]; rfl
  have hident : (u.gon n).ident = (s.gon n).ident := by rw [hgon]
  have hdescs : (u.gon n).descs = (s.gon n).descs := by rw [hgon]
  have hlatch : (u.gon n).ripLatch = (s.gon n).ripLatch := by rw [hgon]
  have hpos : u.gpos n = s.gpos n := by rw [State.gpos, State.gpos, hgon]
  have hsil : (u.gon (baseNode n)).sil = (s.gon (baseNode n)).sil := by rw [hgon]
  have hctl : (u.gon (baseNode n)).greg aG_CTL = (s.gon (baseNode n)).greg aG_CTL := by rw [hgon]; rfl
  have hgreg : ∀ a, u.greg n a = s.greg n a := fun a => by rw [State.greg, State.greg, hgon]; rfl
  have hhome : ∀ l, u.homeForced l = s.homeForced l := fun l => by rw [hframe]; rfl
  have hbal : u.balForced c = s.balForced c := by rw [hframe]; rfl
  have hleg : u.homeLeg c k = s.homeLeg c k := by rw [State.homeLeg, State.homeLeg, hwfld]
  have hforce : u.forceLevel n c k = s.forceLevel n c k := by
    rw [State.forceLevel, State.forceLevel, hbal, hleg, hhome, hwfld, hforced, hgreg]
  have hrip : u.ripOff n = s.ripOff n := by simp only [State.ripOff, State.hasRip, State.gident, hident, hlatch]
  have hplan : u.gInPlan n c = s.gInPlan n c := by simp only [State.gInPlan, State.gPLAN, hgreg]
  have hdesc : u.gdesc n c = s.gdesc n c := by simp only [State.gdesc, hwfld, hident, hdescs]
  exact ⟨by simp only [State.legOver, hrip, hforce, hpos, hplan, hctl, hsil],
    by rw [State.legNoLow, State.legNoLow, State.isBal, State.isBal, State.wflag, State.wflag, hdesc, hleg, hwfld]⟩

theorem carrierEdge_turns {s : State} {node : Nat} {ch : Fin 16} {leg : Fin 4} {off : Bool} {now x : FTime} {k : Carrier}
    (hk : ((s.gon node).chan ch).carrier = some k) (hx : (if off then (k.edge leg).2 else (k.edge leg).1) = some x)
    (hdue : reached (s.gtime node now) x = true) (hfree : s.legOver node ch leg = none) :
    Completes (.carrierEdge node ch leg off now) s (fun t =>
      (((t.gon node).chan ch).leg leg).last = (if off = false then 2 else if s.legNoLow node ch leg then 0 else 1)
      ∧ ((t.gon node).chan ch).carrier = some (k.dropEdge leg off)) := by
  generalize hu : s.updGon node (fun g => g.updChan ch (fun x => { x with carrier := some (k.dropEdge leg off) })) = u
  obtain ⟨hover, hlow⟩ : u.legOver node ch leg = s.legOver node ch leg ∧ u.legNoLow node ch leg = s.legNoLow node ch leg :=
    State.legRules_of_offLegs (by rw [← hu]; rfl) (by rw [← hu]; exact s.offLegs_updChan node ch _ fun _ => rfl) node ch leg
  generalize hv : (if (!off) = true then 2 else if u.legNoLow node ch leg = true then 0 else 1 : BitVec 2) = v
  have hexec : exec (.carrierEdge node ch leg off now) s = .next ((u.legPut node ch leg x v).gview node (s.gtime node now)) := by
    show execCarrierEdge node ch leg off now s = _
    simp only [execCarrierEdge, hk, hx, hdue, Bool.not_true, Bool.false_eq_true, if_false, hu, hv]
  refine ⟨_, hexec, ?_, ?_⟩
  · rw [State.gon_gview, State.last_legPut, hover, hfree, ← hv, hlow]
    cases off <;> rfl
  · have hcar := congrArg Prod.fst (congrFun (congrFun ((State.pulsing_gview _ node (s.gtime node now)).trans
      (u.pulsing_legPut node ch leg x v)) node) ch)
    refine hcar.trans ?_
    rw [← hu, State.pulsing_updChan_same]
    rfl

/-! ### CARRIER_RELOAD without a new pair (R234-R237) -/

section
variable {s : State} {node : Nat} {ch : Fin 16} {now : FTime} {k : Carrier}
  (hk : ((s.gon node).chan ch).carrier = some k) (hshadow : ((s.gon node).chan ch).shadow = none)
include hk hshadow

theorem carrierReload_mid (hmid : pairMid k.pair = true) (hdone : k.midDone = false)
    (hcome : come (s.gtime node now) (k.base16 + k.period16 / 2) = true) :
    Completes (.carrierReload node ch now) s (fun t => t = { s with gons := t.gons }
      ∧ ((t.gon node).chan ch).carrier = some { k with midDone := true }) := by
  refine ⟨s.updGon node (fun g => g.updChan ch (fun x => { x with carrier := some { k with midDone := true } })), ?_, rfl,
    congrArg Prod.fst (s.pulsing_updChan_same node ch _)⟩
  show execCarrierReload node ch now s = _
  simp [execCarrierReload, hk, hmid, hdone, hcome, GChan.reloadPair, hshadow]

theorem carrierReload_boundary (hmid : pairMid k.pair = false ∨ k.midDone = true) (hcome : come (s.gtime node now) k.end16 = true) :
    Completes (.carrierReload node ch now) s (fun t =>
      ∃ k', ((t.gon node).chan ch).carrier = some k' ∧ k'.pair = k.pair ∧ k'.j = k.j + 1 ∧ k'.midDone = false
        ∧ k'.start = BitVec.ofNat 64 (k.end16 / 16) ∧ k'.startFr = k.end16 % 16) := by
  have hnot : (pairMid k.pair && !k.midDone) = false := by rcases hmid with h | h <;> simp [h]
  have hexec : exec (.carrierReload node ch now) s = .next
      (((s.endPeriod node ch k).1.beginPeriod node ch k.pair k.end16 (k.j + 1) (s.endPeriod node ch k).2).gview node (s.gtime node now)) := by
    show execCarrierReload node ch now s = _
    simp [execCarrierReload, hk, hnot, hcome, GChan.reloadPair, hshadow]
  obtain ⟨k', hk', hpair, hstart, hfr, -, hj, hdone⟩ :=
    (s.endPeriod node ch k).1.beginPeriod_carrier node ch k.pair k.end16 (k.j + 1) (s.endPeriod node ch k).2
  rw [← State.pulsing_gview _ node (s.gtime node now)] at hk'
  exact ⟨_, hexec, k', congrArg Prod.fst hk', hpair, hj, hdone, hstart, hfr⟩

end

end Sys2Proof.Machine

/-- Settles O23: the start, the edges and the two reloads of a carrier, each by the lemma on its row. -/
theorem carrierRows : Obligations.CarrierRows := by
  unfold Obligations.CarrierRows
  intro s node ch now
  exact ⟨fun p => carrierStart_begins, fun k leg off x => carrierEdge_turns,
    fun k hk hshadow => ⟨carrierReload_mid hk hshadow, carrierReload_boundary hk hshadow⟩⟩
end

section
/-! SUPPORT. The fault inputs and force latches of the home gondola, test pairs and ballast faults, and the settling of the statement on them. -/
open Sys2Proof Sys2Proof.Machine
namespace Sys2Proof.Machine

/-! ### What a force at home leaves (R245, R249) -/

/-- The view of the legs is written in registers. -/
theorem State.offRegs_homeView (s : State) (t : FTime) : (s.homeView t).offRegs = s.offRegs := by
  unfold State.homeView
  dsimp only
  refine (foldl_keeps State.offRegs _ _ _ fun u c => ?_).trans ?_
  · rfl
  refine (foldl_keeps State.offRegs _ _ _ fun u l => ?_).trans ?_
  · unfold State.showSpare
    split <;> rfl
  refine (foldl_keeps State.offRegs _ _ _ fun u c => ?_).trans ?_
  · refine foldl_keeps State.offRegs _ _ _ fun v k => ?_
    dsimp only
    split <;> rfl
  exact foldl_keeps State.offRegs _ _ _ fun u j => rfl

/-- A force at home leaves what neither the gondolas nor the view of their legs tell. -/
theorem State.homeForceFrom_keeps {β : Type} (p : State → β) (hgon : ∀ u n f, p (State.updGon u n f) = p u)
    (hview : ∀ u t, p (State.homeView u t) = p u) (old s : State) : p (old.homeForceFrom s) = p s := by
  unfold State.homeForceFrom
  dsimp only
  rw [State.overAll, State.gview_home, hview, foldl_keeps p]
  · exact hgon s homeNode _
  · refine fun u n => foldl_keeps p _ _ _ fun v c => State.overCh_keeps p v n c _ (fun w F => hgon w n _) fun w k x => ?_
    unfold State.legPut
    exact hgon w n _

theorem State.fget_homeForceFrom (old s : State) {b : Bits} (hb : b.lo + b.w ≤ 24) :
    (old.homeForceFrom s).fget rPGN_HSTAT b = s.fget rPGN_HSTAT b :=
  State.homeForceFrom_keeps (·.fget rPGN_HSTAT b) (fun _ _ _ => rfl) (fun u t => u.fget_homeView t hb) old s

theorem State.fltIn_homeForceFrom (old s : State) : (old.homeForceFrom s).fltIn = s.fltIn :=
  State.homeForceFrom_keeps State.fltIn (fun _ _ _ => rfl) (fun u t => State.fltIn_of_offRegs (u.offRegs_homeView t)) old s

/-- The latches are told by their fields of PGN_HSTAT (R249). -/
theorem State.fltLatch_of_fget {s u : State} (h : u.fget rPGN_HSTAT fPGN_HSTAT_LATCH = s.fget rPGN_HSTAT fPGN_HSTAT_LATCH) (k : Nat) :
    u.fltLatch k = s.fltLatch k := congrArg (Nat.testBit · k) h
theorem State.swLatch_of_fget {s u : State} (h : u.fget rPGN_HSTAT fPGN_HSTAT_SWLATCH = s.fget rPGN_HSTAT fPGN_HSTAT_SWLATCH) :
    u.swLatch = s.swLatch := congrArg (· != 0) h

theorem State.fltLatch_fltLive (s : State) (live : BitVec 4) (k : Nat) : (s.fltLive live).fltLatch k = s.fltLatch k :=
  State.fltLatch_of_fget (State.fget_fset_field _ _ _ _ _ (by decide)) k
theorem State.swLatch_fltLive (s : State) (live : BitVec 4) : (s.fltLive live).swLatch = s.swLatch :=
  State.swLatch_of_fget (State.fget_fset_field _ _ _ _ _ (by decide))

/-- A field of PGN_HSTAT beside the latches that is raised leaves them. -/
theorem State.fltLatch_raise (s : State) {b : Bits} (h : fPGN_HSTAT_LATCH.lo + fPGN_HSTAT_LATCH.w ≤ b.lo ∨ b.lo + b.w ≤ fPGN_HSTAT_LATCH.lo)
    (k : Nat) : (s.raise rPGN_HSTAT b).fltLatch k = s.fltLatch k := State.fltLatch_of_fget (s.fget_fset_field _ _ _ _ h) k

/-! ### FAULT_INPUT_LATCH (R245) -/

/-- Fault latch i with its event bit set. -/
def State.latched (s : State) (i : Nat) : State :=
  let s := s.fset rPGN_HSTAT fPGN_HSTAT_LATCH (setBit (s.fget rPGN_HSTAT fPGN_HSTAT_LATCH) i true)
  s.fset rPGN_HSTAT fPGN_HSTAT_EVT (setBit (s.fget rPGN_HSTAT fPGN_HSTAT_EVT) i true)

theorem State.fltLatch_latched (s : State) (i : Nat) {k : Nat} (hk : k < 4) : (s.latched i).fltLatch k = (s.fltLatch k || k == i) := by
  rw [State.fltLatch, State.latched, State.fget_fset_field _ _ _ _ _ (by decide), State.fget_fset _ _ _ _ (by decide),
    Nat.testBit_mod_two_pow, testBit_setBit]
  by_cases h : k = i <;> simp [h, hk, fPGN_HSTAT_LATCH, State.fltLatch]
  omega

theorem State.swLatch_latched (s : State) (i : Nat) : (s.latched i).swLatch = s.swLatch :=
  State.swLatch_of_fget ((State.fget_fset_field _ _ _ _ _ (by decide)).trans (State.fget_fset_field _ _ _ _ _ (by decide)))

theorem faultInputLatch_latches (s : State) (i : Fin 4) : Completes (.faultInputLatch i) s (fun t => t.fltIn.getLsbD i.val = true
    ∧ t.swLatch = s.swLatch ∧ ∀ k < 4, t.fltLatch k = (s.fltLatch k || k == i.val)) := by
  have hbit : ∀ i : Fin 4, ((1 <<< i.val : Nat) : BitVec 4).getLsbD i.val = true := by decide
  generalize hw : s.fltLive (s.fltIn ||| (1 <<< i.val)) = w
  have hexec : exec (.faultInputLatch i) s = .next (w.homeForceFrom (w.latched i)) := by rw [← hw]; rfl
  refine ⟨_, hexec, ?_, ?_, fun k hk => ?_⟩
  · have hin : (w.homeForceFrom (w.latched i)).fltIn = s.fltIn ||| (1 <<< i.val) := by
      rw [State.fltIn_homeForceFrom, ← hw]
      rfl
    rw [hin, BitVec.getLsbD_or, hbit, Bool.or_true]
  · rw [State.swLatch_of_fget (State.fget_homeForceFrom _ _ (by decide)), State.swLatch_latched, ← hw, State.swLatch_fltLive]
  · rw [State.fltLatch_of_fget (State.fget_homeForceFrom _ _ (by decide)), w.fltLatch_latched i hk, ← hw, State.fltLatch_fltLive]

/-! ### PGN_FLT_CMD (R246, R247) -/

/-- A word with one bit of CLR clears that latch, or is refused while the input is active. -/
theorem fltCmdWritten_clr (i : Fin 4) (u : State) : fltCmdWritten (bset 0 fPGN_FLT_CMD_CLR (2 ^ i.val)) u =
    let w := if u.fltIn.toNat.testBit i.val then u.raise rPGN_HSTAT fPGN_HSTAT_CLRREF else u.clrLatch i.val
    w.homeView w.now := by
  match i with
  | 0 => rfl
  | 1 => rfl
  | 2 => rfl
  | 3 => rfl

/-- A word with SWSET alone forces the home gondola. -/
theorem fltCmdWritten_swset {v : Word} (hclr : bget v fPGN_FLT_CMD_CLR = 0) (hswclr : bget v fPGN_FLT_CMD_SWCLR = 0)
    (hswset : bget v fPGN_FLT_CMD_SWSET = 1) (u : State) :
    fltCmdWritten v u = u.homeForceFrom (u.raise rPGN_HSTAT fPGN_HSTAT_SWLATCH) := by
  simp [fltCmdWritten, hclr, hswclr, hswset, State.homeForce]

section
variable {s : State} {via : RegPath} (hd : s.p8Denied via rPGN_FLT_CMD = false)
include hd

/-- A write of PGN_FLT_CMD leaves the inputs, the latches and the gondolas to its effect. -/
theorem State.portWrite_fltCmd (v : Word) : ∃ u : State, s.portWrite via rPGN_FLT_CMD v (fun _ => fltCmdWritten v) = fltCmdWritten v u
    ∧ u.fltIn = s.fltIn ∧ u.gons = s.gons ∧ ∀ k, u.fltLatch k = s.fltLatch k := by
  obtain ⟨u, hu, hwrite⟩ := s.portWrite_allowed v (fun _ => fltCmdWritten v) hd ⟨_, rfl⟩
  exact ⟨u, hwrite, by rw [hu.1], by rw [hu.1], State.fltLatch_of_fget (State.fget_of_wrote hu _ (by decide))⟩

theorem fltClr_inactive (i : Fin 4) {live : BitVec 4} (hlive : live.getLsbD i.val = false) :
    Completes (.fltClr via i live) s (fun t => t.fltIn = live ∧ ∀ k < 4, t.fltLatch k = (s.fltLatch k && k != i.val)) := by
  obtain ⟨u, hwrite, hin, -, hlatch⟩ := State.portWrite_fltCmd (s := s.fltLive live) hd (bset 0 fPGN_FLT_CMD_CLR (2 ^ i.val))
  have hclr : fltCmdWritten (bset 0 fPGN_FLT_CMD_CLR (2 ^ i.val)) u = (u.clrLatch i).homeView (u.clrLatch i).now := by
    rw [fltCmdWritten_clr, hin, BitVec.testBit_toNat]
    exact congrArg (fun w : State => w.homeView w.now) (if_neg (by simpa [State.fltLive] using hlive))
  refine ⟨_, congrArg Host.Outcome.next (hwrite.trans hclr), ?_, fun k hk => ?_⟩
  · exact (State.fltIn_of_offRegs (State.offRegs_homeView _ _)).trans hin
  · rw [State.fltLatch_of_fget (State.fget_homeView _ _ (by decide)), u.fltLatch_clrLatch i hk, hlatch, State.fltLatch_fltLive]
    by_cases h : k = i.val <;> simp [h]

theorem fltClr_active (i : Fin 4) {live : BitVec 4} (hlive : live.getLsbD i.val = true) :
    Completes (.fltClr via i live) s (fun t => t.flag rPGN_HSTAT fPGN_HSTAT_CLRREF = true ∧ ∀ k < 4, t.fltLatch k = s.fltLatch k) := by
  obtain ⟨u, hwrite, hin, -, hlatch⟩ := State.portWrite_fltCmd (s := s.fltLive live) hd (bset 0 fPGN_FLT_CMD_CLR (2 ^ i.val))
  generalize hw : u.raise rPGN_HSTAT fPGN_HSTAT_CLRREF = w
  have hclr : fltCmdWritten (bset 0 fPGN_FLT_CMD_CLR (2 ^ i.val)) u = w.homeView w.now := by
    rw [fltCmdWritten_clr, hin, BitVec.testBit_toNat, ← hw]
    exact congrArg (fun w : State => w.homeView w.now) (if_pos hlive)
  refine ⟨_, congrArg Host.Outcome.next (hwrite.trans hclr), ?_, fun k _ => ?_⟩
  · rw [State.flag, State.fget_homeView _ _ (by decide), ← hw]
    exact u.flag_raise _ _ (by decide) (by decide)
  · rw [State.fltLatch_of_fget (State.fget_homeView _ _ (by decide)), ← hw, u.fltLatch_raise (by decide), hlatch, State.fltLatch_fltLive]

theorem swset_latches : Completes (.swset via) s (fun t => t.swLatch = true ∧ ∀ k < 4, t.fltLatch k = s.fltLatch k) := by
  obtain ⟨u, hwrite, -, -, hlatch⟩ := State.portWrite_fltCmd hd (bset 0 fPGN_FLT_CMD_SWSET 1)
  refine ⟨_, congrArg Host.Outcome.next (hwrite.trans (fltCmdWritten_swset (by decide) (by decide) (by decide) u)), ?_, fun k _ => ?_⟩
  · rw [State.swLatch_of_fget (State.fget_homeForceFrom _ _ (by decide))]
    exact u.flag_raise _ _ (by decide) (by decide)
  · rw [State.fltLatch_of_fget (State.fget_homeForceFrom _ _ (by decide)), u.fltLatch_raise (by decide), hlatch]

theorem swclr_clears : Completes (.swclr via) s (fun t => t.swLatch = false ∧ (∀ k < 4, t.fltLatch k = s.fltLatch k) ∧ t.gons = s.gons) := by
  obtain ⟨u, hwrite, -, hgons, hlatch⟩ := State.portWrite_fltCmd hd (bset 0 fPGN_FLT_CMD_SWCLR 1)
  have hclr : fltCmdWritten (bset 0 fPGN_FLT_CMD_SWCLR 1) u = (u.fset rPGN_HSTAT fPGN_HSTAT_SWLATCH 0).homeView u.now := rfl
  refine ⟨_, congrArg Host.Outcome.next (hwrite.trans hclr), ?_, fun k _ => ?_, (State.gons_homeView _ _).trans hgons⟩
  · rw [State.swLatch_of_fget (State.fget_homeView _ _ (by decide)), State.swLatch, State.flag, State.fget_fset _ _ _ _ (by decide)]
    rfl
  · rw [State.fltLatch_of_fget (State.fget_homeView _ _ (by decide)),
      State.fltLatch_of_fget (State.fget_fset_field _ _ _ _ _ (by decide)), hlatch]

end

/-! ### Test pairs (R225) -/

theorem regRow_pgnTctl (n : Fin 256) : ∃ q, regRow (rPGN_TCTL n) = some q := by
  have hblock : rPGN_TCTL n / 0x100000 = 8 := by simp only [rPGN_TCTL]; omega
  refine exists_regRow (r := ⟨0x800008, [(256, 0x100)], 0xF, 0x0, 0x0, 0x100, 0x0, 0x0, 0x9, .none_⟩) ?_ ?_ ?_
  · rw [hblock]
    decide
  · simp only [rPGN_TCTL]
    omega
  · simp [rPGN_TCTL, dimsHit]

theorem State.wrote_withAxes {s u : State} {L : List Nat} (h : u.wrote s L) (A : Tbl Axis) :
    ({ u with axes := A } : State).wrote { s with axes := A } L := ⟨by rw [h.1], h.2⟩

/-- A write of PGN_An_TCTL with PUSH, and the axis state that it finds. -/
theorem testPairPush_writes {s : State} {via : RegPath} {n : Fin 256} (hd : s.p8Denied via (rPGN_TCTL n) = false) (v : Word) :
    ∃ u : State, u.wrote s [rPGN_TCTL n] ∧ u.axState n = s.axState n
      ∧ exec (.testPairPush via n v) s = .next (tctlWritten n (bset v fPGN_TCTL_PUSH 1) u) := by
  obtain ⟨u, hu, hwrite⟩ := s.portWrite_allowed (bset v fPGN_TCTL_PUSH 1) (fun _ => tctlWritten n (bset v fPGN_TCTL_PUSH 1)) hd (regRow_pgnTctl n)
  refine ⟨u, hu, State.fget_of_wrote hu _ ?_, congrArg Host.Outcome.next hwrite⟩
  simp only [rAXC_STATE, rPGN_TCTL, List.mem_singleton]
  omega

/-- A PUSH in TEST captures six words (R225). -/
theorem tctlWritten_test {n : Nat} {v : Word} {u : State} (hpush : bget v fPGN_TCTL_PUSH = 1) (htest : u.axState n = xTEST) : ∃ p, p.length = 6
    ∧ tctlWritten n v u = (u.updAx n (fun a => { a with test := some p, testNew := true })).raise (rPGN_STAT n) fPGN_STAT_TPPEND := by
  refine ⟨_, ?_, (if_pos hpush).trans (if_pos htest)⟩
  rfl

section
variable {s : State} {via : RegPath} {n : Fin 256} (hd : s.p8Denied via (rPGN_TCTL n) = false) (v : Word)
include hd

theorem testPairPush_takes (htest : s.axState n = xTEST) : Completes (.testPairPush via n v) s (fun t =>
    t.flag (rPGN_STAT n) fPGN_STAT_TPPEND = true ∧ (t.ax n).testNew = true ∧ (∃ p, (t.ax n).test = some p ∧ p.length = 6)
      ∧ t.wrote { s with axes := t.axes } [rPGN_TCTL n, rPGN_STAT n]) := by
  obtain ⟨u, hu, hstate, hexec⟩ := testPairPush_writes hd v
  have hpush : bget (bset v fPGN_TCTL_PUSH 1) fPGN_TCTL_PUSH = 1 := bget_bset _ _ _ (by decide)
  obtain ⟨p, hlen, hpair⟩ := tctlWritten_test hpush (hstate.trans htest)
  have hax := u.ax_updAx n (fun a => { a with test := some p, testNew := true })
  refine ⟨_, hexec.trans (congrArg Host.Outcome.next hpair), State.flag_raise _ _ _ (by decide) (by decide), congrArg Axis.testNew hax,
    ⟨p, congrArg Axis.test hax, hlen⟩, ?_⟩
  exact State.wrote_mono (State.wrote_trans (State.fset_wrote _ _ _ _) (State.wrote_withAxes hu _)) (by simp)

theorem testPairPush_refused (htest : s.axState n ≠ xTEST) : Completes (.testPairPush via n v) s (fun t =>
    t.flag (rPGN_STAT n) fPGN_STAT_TPREF = true ∧ t.wrote s [rPGN_TCTL n, rPGN_STAT n]) := by
  obtain ⟨u, hu, hstate, hexec⟩ := testPairPush_writes hd v
  have hpush : bget (bset v fPGN_TCTL_PUSH 1) fPGN_TCTL_PUSH = 1 := bget_bset _ _ _ (by decide)
  rw [tctlWritten, if_pos hpush, if_neg (by rwa [hstate])] at hexec
  refine ⟨_, hexec, State.flag_raise _ _ _ (by decide) (by decide), ?_⟩
  exact State.wrote_mono (State.wrote_trans (State.fset_wrote _ _ _ _) hu) (by simp)

end

/-! ### BUS_FCLR (R316) -/

theorem regRow_busCmd (b : Fin 32) : ∃ q, regRow (rBUS_G_CMD b) = some q := by
  have hall : ∀ b : Fin 32, (regRow (rBUS_G_CMD b)).isSome = true := by decide
  exact Option.isSome_iff_exists.1 (hall b)

theorem State.wrote_withBus {s u : State} {L : List Nat} (h : u.wrote s L) (B : Tbl BusGrp) :
    ({ u with bus := B } : State).wrote { s with bus := B } L := ⟨by rw [h.1], h.2⟩

section
variable {s : State} {via : RegPath} {b : Fin 32} (hd : s.p8Denied via (rBUS_G_CMD b) = false) (hflt : s.balFlt b = true)
  (hcause : s.fget (rBUS_G_STAT b) fBUS_G_STAT_BFCAUSE ≠ 3)
include hd hflt hcause

/-- A latched ballast fault that the gondola did not force is answered at once, by the voltage of the group. -/
theorem busFclr_answers : ∃ u : State, u.wrote s [rBUS_G_CMD b] ∧ u.balFlt b = true ∧ exec (.busFclr via b) s
    = .next (if s.vOn b ≤ s.fget (rBUS_G_LIVE b) fBUS_G_LIVE_VBUS then u.balClrRef b else u.balClear b) := by
  obtain ⟨u, hu, hwrite⟩ := s.portWrite_allowed 1 (fun _ => busCmdWritten b 1) hd (regRow_busCmd b)
  have hstat : ∀ f, u.fget (rBUS_G_STAT b) f = s.fget (rBUS_G_STAT b) f := fun f =>
    State.fget_of_wrote hu f (by simp only [rBUS_G_STAT, rBUS_G_CMD, List.mem_singleton]; omega)
  have hlive : u.fget (rBUS_G_LIVE b) fBUS_G_LIVE_VBUS = s.fget (rBUS_G_LIVE b) fBUS_G_LIVE_VBUS :=
    State.fget_of_wrote hu _ (by simp only [rBUS_G_LIVE, rBUS_G_CMD, List.mem_singleton]; omega)
  have hon : u.vOn b = s.vOn b := by rw [hu.1]; rfl
  have hbal : u.balFlt b = true := (congrArg (· != 0) (hstat fBUS_G_STAT_BALFLT)).trans hflt
  have hkept : ¬(bget (1 : Word) fBUS_G_CMD_FCLR = 0 ∨ (!u.balFlt b) = true) := by
    rw [hbal]
    decide
  refine ⟨u, hu, hbal, congrArg Host.Outcome.next (hwrite.trans ?_)⟩
  simp only [busCmdWritten]
  rw [if_neg hkept, hstat, if_neg hcause, hon, hlive]

theorem busFclr_clears (hlow : s.fget (rBUS_G_LIVE b) fBUS_G_LIVE_VBUS < s.vOn b) : Completes (.busFclr via b) s (fun t => t.balFlt b = false
    ∧ t.fget (rBUS_G_STAT b) fBUS_G_STAT_BFCAUSE = 0 ∧ (t.bg b).nocur = 0 ∧ (t.bg b).rise = 0
    ∧ t.wrote { s with bus := t.bus } [rBUS_G_CMD b, rBUS_G_STAT b]) := by
  obtain ⟨u, hu, -, hexec⟩ := busFclr_answers hd hflt hcause
  rw [if_neg (Nat.not_le.mpr hlow)] at hexec
  have hbg := State.bg_updBg ((u.fset (rBUS_G_STAT b) fBUS_G_STAT_BALFLT 0).fset (rBUS_G_STAT b) fBUS_G_STAT_BFCAUSE 0) b
    (fun g => { g with nocur := 0, rise := 0, forced := false, clrWait := false })
  refine ⟨_, hexec, ?_, State.fget_fset _ _ _ _ (by decide), congrArg BusGrp.nocur hbg, congrArg BusGrp.rise hbg, ?_⟩
  · exact congrArg (· != 0) ((State.fget_fset_field _ _ _ _ _ (by decide)).trans (State.fget_fset _ _ _ _ (by decide)))
  · have hwrote := State.wrote_trans (State.fset_wrote _ (rBUS_G_STAT b) fBUS_G_STAT_BFCAUSE 0)
      (State.wrote_trans (u.fset_wrote (rBUS_G_STAT b) fBUS_G_STAT_BALFLT 0) hu)
    exact State.wrote_mono (State.wrote_withBus hwrote _) (by simp)

theorem busFclr_refused (hhigh : s.vOn b ≤ s.fget (rBUS_G_LIVE b) fBUS_G_LIVE_VBUS) : Completes (.busFclr via b) s (fun t => t.balFlt b = true
    ∧ t.flag (rBUS_G_STAT b) fBUS_G_STAT_CLRREF = true ∧ t.wrote { s with bus := t.bus } [rBUS_G_CMD b, rBUS_G_STAT b]) := by
  obtain ⟨u, hu, hbal, hexec⟩ := busFclr_answers hd hflt hcause
  rw [if_pos hhigh] at hexec
  refine ⟨_, hexec, (congrArg (· != 0) (State.fget_fset_field _ _ _ _ _ (by decide))).trans hbal,
    u.flag_raise (rBUS_G_STAT b) fBUS_G_STAT_CLRREF (by decide) (by decide), ?_⟩
  exact State.wrote_mono (State.wrote_withBus (State.wrote_trans (u.fset_wrote _ _ _) hu) _) (by simp)

end

/-! ### BALLAST_FAULT (R315, R316) -/

theorem State.balCauseNow_lt {s : State} {b c : Nat} (h : s.balCauseNow b = some c) : c < 4 := by
  unfold State.balCauseNow at h
  dsimp only at h
  split at h
  · cases h
  split at h
  · cases h; decide
  split at h
  · cases h; decide
  split at h <;> cases h
  decide

/-- Posting leaves the axes, and what they hold does not tell of it. -/
theorem State.posted_withAxes {s u : State} {L : List Nat} (h : u.posted s L) (A : Tbl Axis) :
    ({ u with axes := A } : State).posted { s with axes := A } L := ⟨by rw [h.1], h.2.1, h.2.2⟩

theorem postReg_busStat : ∀ b : Fin 32, postReg (rBUS_G_STAT b) = false := by decide

/-- A device but for its axes. -/
def State.offAxes (s : State) : State := { s with axes := [] }

theorem State.eq_of_offAxes {s u : State} (h : u.offAxes = s.offAxes) : u = { s with axes := u.axes } := by
  have hput := congrArg (fun x : State => ({ x with axes := u.axes } : State)) h
  exact hput

/-- A ballast fault leaves its cause with axes alone. -/
theorem State.offAxes_busCause (s : State) (n : Nat) (stop : Bool) : (s.busCause n 0 stop).offAxes = s.offAxes := by
  unfold State.busCause
  split
  · rfl
  · rw [if_neg (by simp)]
    rfl

/-- The registers that a ballast fault writes: its latch, its cause and its count. -/
def State.balMarked (s : State) (b c : Nat) : State :=
  ((s.raise (rBUS_G_STAT b) fBUS_G_STAT_BALFLT).fset (rBUS_G_STAT b) fBUS_G_STAT_BFCAUSE c).count (rBUS_G_CNT b 0)

/-- A fault declared is marked and posted, and its cause goes to the members as FACT says. -/
theorem State.balDeclare_posts {s : State} {b c : Nat} (hc : s.balCauseNow b = some c) (hflt : s.balFlt b = false) (hsense : s.senseLost b = false) :
    ∃ v : State, v.posted (s.balMarked b c) [] ∧ s.balDeclare b = { v with axes := (s.balDeclare b).axes } := by
  have hnew : ¬(s.balFlt b = true ∨ s.senseLost b = true) := by simp [hflt, hsense]
  refine ⟨_, (s.balMarked b c).produce_posted (some ((s.balMarked b c).fget rBUS_CTL fBUS_CTL_CQ))
    (eventEntry 0x11 b c (s.balMarked b c).now) ?_ [], State.eq_of_offAxes ?_⟩
  · rintro _ ⟨⟩
    exact bget_lt _ _
  · unfold State.balDeclare
    simp only [hc]
    rw [if_neg hnew]
    split
    · rfl
    · exact foldl_keeps State.offAxes _ _ _ fun u n => u.offAxes_busCause n _

theorem ballastFault_declares {s : State} {b : Fin 32} {c : Nat} (hon : s.busOn b = true) (hc : s.balCauseNow b = some c)
    (hflt : s.balFlt b = false) (hsense : s.senseLost b = false) :
    Completes (.ballastFault b) s (fun t => t.balFlt b = true ∧ t.fget (rBUS_G_STAT b) fBUS_G_STAT_BFCAUSE = c
      ∧ t.posted { s with axes := t.axes } [rBUS_G_STAT b, rBUS_G_CNT b 0]) := by
  obtain ⟨v, hv, ht⟩ := State.balDeclare_posts hc hflt hsense
  have hcnt : rBUS_G_STAT b ≠ rBUS_G_CNT b 0 := by simp only [rBUS_G_STAT, rBUS_G_CNT]; omega
  have hmarked : (s.balMarked b c).wrote s [rBUS_G_STAT b, rBUS_G_CNT b 0] :=
    State.wrote_mono (State.wrote_trans (State.count_wrote _ _) (State.wrote_trans (State.fset_wrote _ _ _ _) (s.fset_wrote _ _ _))) (by simp)
  have hstat : ∀ f, (s.balDeclare b).fget (rBUS_G_STAT b) f
      = ((s.raise (rBUS_G_STAT b) fBUS_G_STAT_BALFLT).fset (rBUS_G_STAT b) fBUS_G_STAT_BFCAUSE c).fget (rBUS_G_STAT b) f := fun f => by
    have hpost : v.rget (rBUS_G_STAT b) = (s.balMarked b c).rget (rBUS_G_STAT b) := hv.2.1 _ (postReg_busStat b) (by simp)
    have hkept : (s.balDeclare b).rget (rBUS_G_STAT b) = v.rget (rBUS_G_STAT b) := by rw [ht]; rfl
    rw [State.fget, hkept, hpost]
    exact State.fget_of_wrote (State.count_wrote _ _) f (by simpa using hcnt)
  have hbase : ∀ o ∈ [rBUS_G_STAT b, rBUS_G_CNT b 0], ¬cqBase o := by
    simp only [List.mem_cons, List.not_mem_nil, or_false]
    rintro o (rfl | rfl) ⟨q, hq, h⟩ <;> simp only [rBUS_G_STAT, rBUS_G_CNT, rHIF_CQ_BASE_LO, rHIF_CQ_BASE_HI] at h <;> omega
  refine ⟨s.balDeclare b, congrArg Host.Outcome.next (if_pos hon), ?_, ?_, ?_⟩
  · rw [State.balFlt, State.flag, hstat, State.fget_fset_field _ _ _ _ _ (by decide)]
    exact s.flag_raise _ _ (by decide) (by decide)
  · rw [hstat, State.fget_fset _ _ _ _ (by decide)]
    exact Nat.mod_eq_of_lt (State.balCauseNow_lt hc)
  · have hposted := State.posted_trans (State.posted_mono hv (by simp)) (State.posted_of_wrote hmarked hbase)
    have haxes := State.posted_withAxes hposted (s.balDeclare b).axes
    rwa [← ht] at haxes

end Sys2Proof.Machine

/-- Settles O28: the latches, the test pair and the ballast faults, each by the lemma on its row. -/
theorem homeAndBusRows : Obligations.HomeAndBusRows := by
  unfold Obligations.HomeAndBusRows
  intro s via
  refine ⟨faultInputLatch_latches s,
    fun hd => ⟨fun i live => ⟨fltClr_inactive hd i, fltClr_active hd i⟩, swset_latches hd, swclr_clears hd⟩,
    fun n v hd => ⟨testPairPush_takes hd v, testPairPush_refused hd v⟩,
    fun b hd hflt hcause => ⟨busFclr_clears hd hflt hcause, busFclr_refused hd hflt hcause⟩,
    fun b c hon hc hflt hsense => ballastFault_declares hon hc hflt hsense⟩
end

section
/-! SUPPORT. The events of the set-point generator of an axis, one lemma an event, and the settling of the statement on them. -/
open Sys2Proof Sys2Proof.Machine
namespace Sys2Proof.Machine

/-! ### Changes of one axis -/

/-- Of the axes of `s` only `n` changed, and beside it only the registers `L`. -/
def State.onlyAxis (t s : State) (n : Nat) (L : List Nat) : Prop :=
  t.wrote { s with axes := t.axes } L ∧ ∀ m ≠ n, t.ax m = s.ax m

theorem State.onlyAxis_refl (s : State) (n : Nat) (L : List Nat) : s.onlyAxis s n L := ⟨s.wrote_refl L, fun _ _ => rfl⟩

theorem State.onlyAxis_trans {s t u : State} {n : Nat} {L : List Nat} (h : u.onlyAxis t n L) (h' : t.onlyAxis s n L) : u.onlyAxis s n L := by
  obtain ⟨⟨hu, hur⟩, hua⟩ := h
  obtain ⟨⟨ht, htr⟩, hta⟩ := h'
  exact ⟨⟨by rw [hu, ht], fun o ho => (hur o ho).trans (htr o ho)⟩, fun m hm => (hua m hm).trans (hta m hm)⟩

theorem State.onlyAxis_now {s t : State} {n : Nat} {L : List Nat} (h : t.onlyAxis s n L) : t.now = s.now := by rw [h.1.1]; rfl

/-- What posting an entry leaves of the axes and of field time. -/
theorem State.axEvent_keeps (s : State) (n code data : Nat) (x : FTime) :
    (s.axEvent n code data x).now = s.now ∧ ∀ m, (s.axEvent n code data x).ax m = s.ax m :=
  ⟨by rw [(s.axEvent_posted n code data x []).1]; rfl, State.ax_of_axisSide (s.axisSide_axEvent n code data x)⟩

section
variable (s : State) (n : Nat)

theorem State.updAx_onlyAxis (f : Axis → Axis) (L : List Nat) : (s.updAx n f).onlyAxis s n L :=
  ⟨State.wrote_refl _ L, fun _ hm => s.ax_updAx_ne f hm⟩

theorem State.updGen_onlyAxis (f : Gen → Gen) (L : List Nat) : (s.updGen n f).onlyAxis s n L := s.updAx_onlyAxis n _ L

theorem State.fset_onlyAxis {o : Nat} (b : Bits) (x : Nat) {L : List Nat} (h : o ∈ L) : (s.fset o b x).onlyAxis s n L :=
  ⟨(s.fset_wrote o b x).elim fun hs hr => ⟨hs, fun p hp => hr p fun he => hp (List.mem_singleton.mp he ▸ h)⟩, fun _ _ => rfl⟩

/-- The registers that show the generator and the turns of an axis. -/
def genRegs (n : Nat) : List Nat := [rPRF_STAT n, rFBK_STAT n]

theorem State.prfStat_onlyAxis (b : Bits) (x : Nat) : (s.fset (rPRF_STAT n) b x).onlyAxis s n (genRegs n) :=
  s.fset_onlyAxis n b x (by simp [genRegs])

theorem State.addTurns_onlyAxis (d : Int) : (s.addTurns n d).onlyAxis s n (genRegs n) := by
  unfold State.addTurns
  dsimp only
  repeat' split
  · exact s.onlyAxis_refl n _
  · exact State.onlyAxis_trans (State.fset_onlyAxis _ n _ _ (by simp [genRegs])) (s.updAx_onlyAxis n _ _)
  · exact s.updAx_onlyAxis n _ _

theorem State.spWraps_onlyAxis (t : FTime) : (s.spWraps n t).onlyAxis s n (genRegs n) := by
  unfold State.spWraps
  split
  · exact s.addTurns_onlyAxis n _
  · exact s.onlyAxis_refl n _

theorem State.spUpdate_onlyAxis (t : FTime) : (s.spUpdate n t).onlyAxis s n (genRegs n) :=
  State.onlyAxis_trans (State.prfStat_onlyAxis _ n _ _) (State.onlyAxis_trans (State.updAx_onlyAxis _ n _ _) (s.spWraps_onlyAxis n t))

theorem State.setRate_onlyAxis (b : Bool) : (s.setRate n b).onlyAxis s n (genRegs n) := by
  unfold State.setRate
  dsimp only
  split
  · exact State.onlyAxis_trans (State.prfStat_onlyAxis _ n _ _) (s.prfStat_onlyAxis n _ _)
  · exact s.prfStat_onlyAxis n _ _

/-- The state in which a plan is noted, and the turns of a modulo axis follow the jump of its set-point from `old`. -/
def State.planned (s : State) (n : Nat) (t : FTime) (src : Src) (k : Kin) (pieces : List (Nat × Int)) (endP : Option Val) (endV : Val) : State :=
  (s.spWraps n t).updGen n (fun g =>
    { g with src := src, t0 := t, p := k.p, v := k.v, a := k.a, pieces := pieces, endP := endP, endV := endV, gDen := 0, gNum := 0,
             tArr := t + BitVec.ofNat 64 (piecesDur pieces), arrived := false, outside := false, at_ := t })

/-- The turns of a modulo axis without feedback follow the jump of its set-point from `old`. -/
def State.jumped (s : State) (n : Nat) (t : FTime) (old : Int) : State :=
  if s.fbOwn n ∧ s.fbModulo n = true then
    s.addTurns n ((old + centred ((s.spAt n t).1.toInt - old) (s.fbM n * 65536)) / (s.fbM n * 65536))
  else s

theorem State.startPlan_eq (t : FTime) (src : Src) (k : Kin) (pieces : List (Nat × Int)) (endP : Option Val) (endV : Val) :
    s.startPlan n t src k pieces endP endV
      = ((s.planned n t src k pieces endP endV).jumped n t (s.spAt n t).1.toInt).spUpdate n t := rfl

theorem State.jumped_onlyAxis (t : FTime) (old : Int) : (s.jumped n t old).onlyAxis s n (genRegs n) := by
  unfold State.jumped
  split
  · exact s.addTurns_onlyAxis n _
  · exact s.onlyAxis_refl n _

theorem State.planned_onlyAxis (t : FTime) (src : Src) (k : Kin) (pieces : List (Nat × Int)) (endP : Option Val) (endV : Val) :
    (s.planned n t src k pieces endP endV).onlyAxis s n (genRegs n) := by
  rw [State.planned]
  exact State.onlyAxis_trans (State.updGen_onlyAxis _ n _ _) (s.spWraps_onlyAxis n t)

theorem State.startPlan_onlyAxis (t : FTime) (src : Src) (k : Kin) (pieces : List (Nat × Int)) (endP : Option Val) (endV : Val) :
    (s.startPlan n t src k pieces endP endV).onlyAxis s n (genRegs n) := by
  rw [State.startPlan_eq]
  exact State.onlyAxis_trans (State.spUpdate_onlyAxis _ n t) (State.onlyAxis_trans (State.jumped_onlyAxis _ n t _)
    (s.planned_onlyAxis n t src k pieces endP endV))

theorem State.startRest_onlyAxis (t : FTime) : (s.startRest n t).onlyAxis s n (genRegs n) := by
  rw [State.startRest]
  exact State.onlyAxis_trans (State.updGen_onlyAxis _ n _ _) (s.startPlan_onlyAxis n t _ _ _ _ _)

/-! ### The generator of the axis -/

@[simp] theorem State.ax_updGen (f : Gen → Gen) : (s.updGen n f).ax n = { s.ax n with gen := f (s.ax n).gen } := s.ax_updAx n _

theorem State.gen_updGen (f : Gen → Gen) : ((s.updGen n f).ax n).gen = f (s.ax n).gen := by rw [State.ax_updGen]

theorem State.gen_addTurns (d : Int) : ((s.addTurns n d).ax n).gen = (s.ax n).gen := by
  unfold State.addTurns
  dsimp only
  repeat' split
  · rfl
  · rw [State.raise, State.ax_fset, State.ax_updAx]
  · rw [State.ax_updAx]

theorem State.gen_spWraps (t : FTime) : ((s.spWraps n t).ax n).gen = (s.ax n).gen := by
  unfold State.spWraps
  split
  · exact s.gen_addTurns n _
  · rfl

/-- The turns of an axis show in its feedback's status only. -/
theorem State.addTurns_wrote (d : Int) : (s.addTurns n d).wrote { s with axes := (s.addTurns n d).axes } [rFBK_STAT n] := by
  unfold State.addTurns
  dsimp only
  repeat' split
  · exact s.wrote_refl _
  · exact State.fset_wrote _ _ _ _
  · exact State.wrote_refl _ _

theorem State.spWraps_wrote (t : FTime) : (s.spWraps n t).wrote { s with axes := (s.spWraps n t).axes } [rFBK_STAT n] := by
  unfold State.spWraps
  split
  · exact s.addTurns_wrote n _
  · exact s.wrote_refl _

/-- An evaluation notes the set-point, and since when the axis stands still (R251, R277). -/
theorem State.gen_spUpdate (t : FTime) : ((s.spUpdate n t).ax n).gen = { (s.ax n).gen with
    pset := (s.spAt n t).1, vset := (s.spAt n t).2.1, aset := (s.spAt n t).2.2, at_ := t,
    restAt := if decide ((s.spAt n t).2.1 = 0 ∧ (s.spAt n t).2.2 = 0) && (s.ax n).gen.vset == 0 && (s.ax n).gen.aset == 0
      then (s.ax n).gen.restAt else t } := by
  rw [State.spUpdate, State.fsetb, State.ax_fset, State.ax_updGen, State.gen_spWraps]

theorem State.spUpdate_keeps (t : FTime) : ((s.spUpdate n t).ax n).gen.src = (s.ax n).gen.src
    ∧ ((s.spUpdate n t).ax n).gen.arrived = (s.ax n).gen.arrived := by
  rw [State.gen_spUpdate]
  exact ⟨rfl, rfl⟩

theorem State.ax_setRate (b : Bool) (m : Nat) : (s.setRate n b).ax m = s.ax m := by
  cases b <;> rfl

theorem State.gen_jumped (t : FTime) (old : Int) : ((s.jumped n t old).ax n).gen = (s.ax n).gen := by
  unfold State.jumped
  split
  · exact s.gen_addTurns n _
  · rfl

theorem State.src_planned (t : FTime) (src : Src) (k : Kin) (pieces : List (Nat × Int)) (endP : Option Val) (endV : Val) :
    ((s.planned n t src k pieces endP endV).ax n).gen.src = src := by
  rw [State.planned, State.ax_updGen]

theorem State.src_startPlan (t : FTime) (src : Src) (k : Kin) (pieces : List (Nat × Int)) (endP : Option Val) (endV : Val) :
    ((s.startPlan n t src k pieces endP endV).ax n).gen.src = src := by
  rw [State.startPlan_eq, State.gen_spUpdate, State.gen_jumped]
  exact s.src_planned n t src k pieces endP endV

theorem State.gen_startRest (t : FTime) :
    ((s.startRest n t).ax n).gen.src = .rest ∧ ((s.startRest n t).ax n).gen.arrived = true := by
  rw [State.startRest, State.gen_updGen]
  have hsrc := s.src_startPlan n t .rest { p := (s.spAt n t).1.toInt * 2 ^ 32, v := 0, a := 0 } [] (some (s.spAt n t).1) 0
  revert hsrc
  generalize ((s.startPlan n t _ _ _ _ _).ax n).gen = g
  exact fun hsrc => ⟨hsrc, rfl⟩

end

/-! ### MOVE_ARRIVAL (R257) -/

section
variable {s : State} {n : Fin 256}

/-- The state in which the arrival of a plan is noted and told. -/
def State.arrival (s : State) (n : Nat) : State :=
  (s.updGen n (fun g => { g with arrived := true })).axEvent n 0x02 (s.ax n).gen.tArr.toNat (s.ax n).gen.tArr

theorem State.arrival_shows (s : State) (n : Nat) : (s.arrival n).now = s.now
    ∧ ((s.arrival n).ax n).gen = { (s.ax n).gen with arrived := true } ∧ ∀ m ≠ n, (s.arrival n).ax m = s.ax m := by
  obtain ⟨hnow, hax⟩ := (s.updGen n (fun g => { g with arrived := true })).axEvent_keeps n 0x02 (s.ax n).gen.tArr.toNat (s.ax n).gen.tArr
  refine ⟨hnow, ?_, fun m hm => (hax m).trans (s.ax_updAx_ne _ hm)⟩
  rw [State.arrival, hax, State.ax_updGen]

theorem execMoveArrival_due (hsrc : (s.ax n).gen.src = .move ∨ (s.ax n).gen.src = .velocity) (harr : (s.ax n).gen.arrived = false)
    (hdue : reached s.now (s.ax n).gen.tArr = true) : execMoveArrival n s
      = .next ((if (s.ax n).gen.src = .move then (s.arrival n).startRest n (s.arrival n).now else (s.arrival n).spUpdate n (s.arrival n).now).setRate n
          ((s.ax n).gen.src == .velocity && (s.arrival n).flag (rPRF_STAT n) fPRF_STAT_RATELIM)) :=
  if_pos ⟨hsrc, by simp [harr], hdue⟩

theorem moveArrival_rests (hsrc : (s.ax n).gen.src = .move) (harr : (s.ax n).gen.arrived = false)
    (hdue : reached s.now (s.ax n).gen.tArr = true) : Completes (.moveArrival n) s (fun t => (t.ax n).gen.src = .rest
      ∧ (t.ax n).gen.arrived = true ∧ t.now = s.now ∧ ∀ m ≠ n.val, t.ax m = s.ax m) := by
  have hx := execMoveArrival_due (.inl hsrc) harr hdue
  rw [if_pos hsrc] at hx
  obtain ⟨hnow, -, hax⟩ := s.arrival_shows n
  have honly := (s.arrival n).startRest_onlyAxis n (s.arrival n).now
  obtain ⟨hrest, harrived⟩ := (s.arrival n).gen_startRest n (s.arrival n).now
  refine ⟨_, hx, ?_, ?_, ?_, fun m hm => ?_⟩
  · rw [State.ax_setRate]; exact hrest
  · rw [State.ax_setRate]; exact harrived
  · exact (State.onlyAxis_now (State.setRate_onlyAxis _ _ _)).trans ((State.onlyAxis_now honly).trans hnow)
  · rw [State.ax_setRate, honly.2 m hm, hax m hm]

theorem moveArrival_velocity (hsrc : (s.ax n).gen.src = .velocity) (harr : (s.ax n).gen.arrived = false)
    (hdue : reached s.now (s.ax n).gen.tArr = true) : Completes (.moveArrival n) s (fun t => (t.ax n).gen.src = .velocity
      ∧ (t.ax n).gen.arrived = true ∧ ∀ m ≠ n.val, t.ax m = s.ax m) := by
  have hx := execMoveArrival_due (.inr hsrc) harr hdue
  rw [if_neg (by simp [hsrc])] at hx
  obtain ⟨-, hgen, hax⟩ := s.arrival_shows n
  obtain ⟨hevsrc, hevarr⟩ := (s.arrival n).spUpdate_keeps n (s.arrival n).now
  refine ⟨_, hx, ?_, ?_, fun m hm => ?_⟩
  · rw [State.ax_setRate, hevsrc, hgen]
    exact hsrc
  · rw [State.ax_setRate, hevarr, hgen]
  · rw [State.ax_setRate, ((s.arrival n).spUpdate_onlyAxis n _).2 m hm, hax m hm]

/-! ### GEAR_ENGAGE (R268) -/

theorem Bridle.cam_renorm (b : Bridle) : b.renorm.cam = b.cam := by
  unfold Bridle.renorm
  dsimp only
  repeat' split
  all_goals rfl

theorem State.cam_brAdvance (s : State) (b : Bridle) (t : FTime) : (s.brAdvance b t).1.cam = b.cam := Bridle.cam_renorm _

/-- A bridle that engages is in force, and none is armed: an engaged slave keeps its source and its cam, another's source becomes Bridle. -/
theorem State.gearNow_shows (s : State) (n : Fin 256) (t : FTime) (b : Bridle) :
    ((s.gearNow n t b).ax n).gen.br.engaged = true ∧ ((s.gearNow n t b).ax n).gen.brArm = none
      ∧ ((s.ax n).gen.br.engaged = false → ((s.gearNow n t b).ax n).gen.src = .bridle
        ∧ (s.gearNow n t b).flag (rPRF_STAT n) fPRF_STAT_ENGAGED = true)
      ∧ ((s.ax n).gen.br.engaged = true → ((s.gearNow n t b).ax n).gen.src = (s.ax n).gen.src
        ∧ ((s.gearNow n t b).ax n).gen.br.cam = (s.ax n).gen.br.cam) := by
  cases he : (s.ax n).gen.br.engaged with
  | true =>
    have hg : s.gearNow n t b = s.gearChange n t b := if_pos he
    have hcam := s.cam_brAdvance (s.ax n).gen.br t
    rw [hg, State.gearChange, State.ax_updGen]
    dsimp only
    refine ⟨?_, rfl, nofun, fun _ => ⟨rfl, ?_⟩⟩
    · split <;> rfl
    · split <;> exact hcam
  | false =>
    have hg : s.gearNow n t b = ((s.leaveSource n).updGen n (fun g => { g with
        src := .bridle, br := s.brBase { b with engaged := true } (s.spAt n t).1.toInt t, brArm := none, dPrev := none,
        inSync := false })).raise (rPRF_STAT n) fPRF_STAT_ENGAGED := if_neg (by simp [he])
    rw [hg, State.raise, State.ax_fset, State.ax_updGen]
    exact ⟨rfl, rfl, fun _ => ⟨rfl, State.flag_raise _ _ _ (by decide) (by decide)⟩, nofun⟩

theorem axisReg_prfStat (n : Fin 256) : axisReg (rPRF_STAT n) := .inl (by simp only [rPRF_STAT]; omega)

section
variable {b : Bridle} (hb : (s.ax n).gen.brArm = some b)
include hb

theorem gearEngage_engages (hcross : crossed b.mlast.toInt (masterStep b.mlast.toInt (s.masterAt b (s.axTickStart n)).1
      (s.masterAt b (s.axTickStart n)).2.2) b.mpos.toInt b.dir (s.masterAt b (s.axTickStart n)).2.2 = true) :
    Completes (.gearEngage n) s (fun t => (t.ax n).gen.br.engaged = true ∧ (t.ax n).gen.brArm = none
      ∧ ((s.ax n).gen.br.engaged = false → (t.ax n).gen.src = .bridle ∧ t.flag (rPRF_STAT n) fPRF_STAT_ENGAGED = true)
      ∧ ((s.ax n).gen.br.engaged = true → (t.ax n).gen.src = (s.ax n).gen.src ∧ (t.ax n).gen.br.cam = (s.ax n).gen.br.cam)) := by
  have hx : execGearEngage n s = .next ((s.gearNow n (s.axTickStart n) b).axEvent n 0x0B 0 (s.axTickStart n)) := by
    simp only [execGearEngage, hb, hcross, if_true]
  have hside := (s.gearNow n (s.axTickStart n) b).axisSide_axEvent n 0x0B 0 (s.axTickStart n)
  have hflag : ((s.gearNow n (s.axTickStart n) b).axEvent n 0x0B 0 (s.axTickStart n)).flag (rPRF_STAT n) fPRF_STAT_ENGAGED
      = (s.gearNow n (s.axTickStart n) b).flag (rPRF_STAT n) fPRF_STAT_ENGAGED := by
    simp only [State.flag, State.fget, State.rget_of_axisSide hside (axisReg_prfStat n)]
  have hshow := s.gearNow_shows n (s.axTickStart n) b
  rw [← State.ax_of_axisSide hside, ← hflag] at hshow
  exact ⟨_, hx, hshow⟩

theorem gearEngage_waits (hcross : crossed b.mlast.toInt (masterStep b.mlast.toInt (s.masterAt b (s.axTickStart n)).1
      (s.masterAt b (s.axTickStart n)).2.2) b.mpos.toInt b.dir (s.masterAt b (s.axTickStart n)).2.2 = false) :
    Completes (.gearEngage n) s (fun t => t = { s with axes := t.axes }
      ∧ (t.ax n).gen.brArm = some { b with mlast := BitVec.ofInt 64 (s.masterAt b (s.axTickStart n)).1 }) := by
  have hx : execGearEngage n s = .next (s.updGen n (fun g => { g with
      brArm := some { b with mlast := BitVec.ofInt 64 (s.masterAt b (s.axTickStart n)).1 } })) := by
    simp only [execGearEngage, hb, hcross, Bool.false_eq_true, if_false]
  exact ⟨_, hx, rfl, by rw [State.ax_updGen]⟩

end

/-! ### CAM_CYCLE_SWITCH (R275) -/

theorem camCycleSwitch_switches {c c' : Nat} (hc : (s.ax n).gen.br.cam = some c) (hc' : (s.ax n).gen.br.camNext = some c')
    (hk : (s.brAdvance (s.ax n).gen.br (s.axTickStart n)).1.camU / max 1 (s.camLen c) ≠ (s.ax n).gen.br.camK) :
    Completes (.camCycleSwitch n) s (fun t => (t.ax n).gen.br.cam = some c' ∧ (t.ax n).gen.br.camNext = none
      ∧ t.wrote { s with axes := t.axes } [rLPE_CAM_CTL c] ∧ ∀ m ≠ n.val, t.ax m = s.ax m) := by
  have hx : ∃ b : Bridle, b.cam = some c' ∧ b.camNext = none
      ∧ execCamCycleSwitch n s = .next ((s.camUse c (-1)).updGen n (fun g => { g with br := b })) := by
    unfold execCamCycleSwitch
    dsimp only
    rw [hc, hc']
    dsimp only
    rw [if_neg hk]
    exact ⟨_, rfl, rfl, rfl⟩
  obtain ⟨b, hcam, hnext, hx⟩ := hx
  refine ⟨_, hx, ?_, ?_, ⟨rfl, fun o ho => s.rget_fset_ne _ _ fun h => ho (by simp [h])⟩, fun m hm => State.ax_updAx_ne _ _ hm⟩
  · rw [State.ax_updGen]; exact hcam
  · rw [State.ax_updGen]; exact hnext

/-! ### HOLD_CURRENT_REDUCE (R277) -/

theorem holdCurrentReduce_reduces (hty : s.axType n = tyST) (hholdi : s.flag (rPRF_STAT n) fPRF_STAT_HOLDI = false)
    (hsp : (s.spAt n s.now).2 = (0, 0)) (hv : (s.ax n).gen.vset = 0) (ha : (s.ax n).gen.aset = 0)
    (hdue : ((max 1 (s.wfld (rST_I n) fST_I_HDELAY) * 16000000 : Nat) : Int) ≤ tdiff s.now (s.ax n).gen.restAt) :
    Completes (.holdCurrentReduce n) s (fun t => t.flag (rPRF_STAT n) fPRF_STAT_HOLDI = true ∧ (t.ax n).restAt = s.now
      ∧ t.wrote { s with axes := t.axes } [rPRF_STAT n, rFBK_STAT n]) := by
  have honly := s.spUpdate_onlyAxis n s.now
  have hnow : (s.spUpdate n s.now).now = s.now := State.onlyAxis_now honly
  have hgen : ((s.spUpdate n s.now).ax n).gen.vset = 0 ∧ ((s.spUpdate n s.now).ax n).gen.aset = 0
      ∧ ((s.spUpdate n s.now).ax n).gen.restAt = (s.ax n).gen.restAt := by
    rw [State.gen_spUpdate, hsp]
    exact ⟨rfl, rfl, if_pos (by simp [hv, ha])⟩
  obtain ⟨hgv, hga, hgr⟩ := hgen
  have hw : ∀ o b, (s.spUpdate n s.now).wfld o b = s.wfld o b := fun o b => by rw [honly.1.1]; rfl
  have hflag : (s.spUpdate n s.now).flag (rPRF_STAT n) fPRF_STAT_HOLDI = false := by
    rw [← hholdi, State.flag, State.spUpdate, State.fsetb, State.fget_fset_field _ _ _ _ _ (by decide)]
    have hwraps := (s.spWraps_wrote n s.now).2 (rPRF_STAT n) (by simp only [rPRF_STAT, rFBK_STAT, List.mem_singleton]; omega)
    simp only [State.flag, State.fget]
    exact congrArg (fun w => bget w fPRF_STAT_HOLDI != 0) hwraps
  have hus : max 1 (s.wfld (rST_I n) fST_I_HDELAY) * 1000 * usUnits = max 1 (s.wfld (rST_I n) fST_I_HDELAY) * 16000000 := by
    simp only [usUnits]; omega
  have hx : execHoldCurrentReduce n s = .next (((s.spUpdate n s.now).raise (rPRF_STAT n) fPRF_STAT_HOLDI).updAx n
      (fun a => { a with restAt := s.now })) := by
    unfold execHoldCurrentReduce
    dsimp only
    rw [hw, hus, hnow, hgr]
    exact if_pos ⟨(hw _ _).trans hty, by simp [hflag], hgv, hga, hdue⟩
  refine ⟨_, hx, State.flag_raise _ _ _ (by decide) (by decide), by rw [State.ax_updAx], ?_⟩
  exact (State.onlyAxis_trans (State.updAx_onlyAxis _ n _ _) (State.onlyAxis_trans (State.prfStat_onlyAxis _ n _ _) honly)).1

end

/-! ### REMOTE_MASTER_STALE (R271) -/

/-- The state in which a slave has been told that its remote master is stale. -/
def State.masterGone (s : State) (r n : Nat) : State := (s.raise (rPRF_STAT n) fPRF_STAT_MSTALE).axEvent n 0x09 r s.now

/-- What is told to a slave shows in its status, and stands in no other register of the blocks 3 to 9. -/
theorem State.masterGone_shows (s : State) (r n : Nat) : (s.masterGone r n).axes = s.axes
    ∧ ∀ o, 3 ≤ o / 0x100000 ∧ o / 0x100000 ≤ 9 → (s.masterGone r n).rget o = (s.raise (rPRF_STAT n) fPRF_STAT_MSTALE).rget o := by
  obtain ⟨hs, hr, -⟩ := (s.raise (rPRF_STAT n) fPRF_STAT_MSTALE).axEvent_posted n 0x09 r s.now []
  exact ⟨by rw [State.masterGone, hs]; rfl, fun o ho => hr o (postReg_of_block ho) List.not_mem_nil⟩

theorem State.masterGone_mstale (s : State) (r : Nat) {n : Nat} (hn : n < 256) :
    (s.masterGone r n).flag (rPRF_STAT n) fPRF_STAT_MSTALE = true := by
  rw [State.flag, State.fget, (s.masterGone_shows r n).2 _ (by simp only [rPRF_STAT]; omega)]
  exact s.flag_raise _ _ (by decide) (by decide)

theorem State.masterGone_flag {s : State} {o : Nat} {b : Bits} (r n : Nat) (h : s.flag o b = true)
    (ho : 3 ≤ o / 0x100000 ∧ o / 0x100000 ≤ 9) (hne : o = rPRF_STAT n → b = fPRF_STAT_MSTALE) : (s.masterGone r n).flag o b = true := by
  rw [State.flag, State.fget, (s.masterGone_shows r n).2 o ho]
  by_cases he : o = rPRF_STAT n
  · rw [he, hne he]
    exact s.flag_raise _ _ (by decide) (by decide)
  · rwa [State.raise, State.rget_fset_ne _ _ _ he]

theorem remoteMasterStale_tells {r : Fin 16} (hvalid : (s.rmSlot r).valid = true) (hfresh : s.flag (rLPE_RM_STAT r) fLPE_RM_STAT_STALE = false)
    (hage : (s.rmAge r : Int) < tdiff s.now (s.rmSlot r).t) : Completes (.remoteMasterStale r) s (fun t =>
      t.flag (rLPE_RM_STAT r) fLPE_RM_STAT_STALE = true ∧ t.axes = s.axes
      ∧ ∀ m ∈ s.rmSlaves r, t.flag (rPRF_STAT m) fPRF_STAT_MSTALE = true) := by
  have hx : execRemoteMasterStale r s = .next ((s.rmSlaves r).foldl (fun u n => u.masterGone r n)
      (s.raise (rLPE_RM_STAT r) fLPE_RM_STAT_STALE)) := if_pos ⟨hvalid, by simp [hfresh], hage⟩
  refine ⟨_, hx, ?_, ?_, fun m hm => ?_⟩
  · refine List.foldlRecOn (motive := fun u : State => u.flag (rLPE_RM_STAT r) fLPE_RM_STAT_STALE = true) _ _
      (s.flag_raise _ _ (by decide) (by decide)) fun u hu n hn => ?_
    have hn' : n < 256 := List.mem_range.mp (List.mem_of_mem_filter hn)
    exact State.masterGone_flag r n hu (by simp only [rLPE_RM_STAT]; omega) (by simp only [rLPE_RM_STAT, rPRF_STAT]; omega)
  · exact List.foldlRecOn (motive := fun u : State => u.axes = s.axes) _ _ rfl fun u hu n _ => (u.masterGone_shows r n).1.trans hu
  · have hm' : m < 256 := List.mem_range.mp (List.mem_of_mem_filter hm)
    exact foldl_reaches (fun u : State => u.flag (rPRF_STAT m) fPRF_STAT_MSTALE = true) _ hm (fun u => u.masterGone_mstale r hm')
      (fun u n hu => State.masterGone_flag r n hu (by simp only [rPRF_STAT]; omega) fun _ => rfl) _

end Sys2Proof.Machine

/-- Settles O27: each event of the generator by its lemma above; an arrival by the source that arrives, an engagement by whether the
master's way since the last tick crosses the engagement position. -/
theorem profileEventRows : Obligations.ProfileEventRows := by
  unfold Obligations.ProfileEventRows
  intro s n
  refine ⟨fun hsrc harr hdue => ?_, fun hsrc harr hdue => ?_, fun b hb => ⟨fun hcross => ?_, fun hcross => ?_⟩, fun c c' hc hc' hk => ?_,
    fun r hvalid hfresh hage => ?_, fun hty hholdi hsp hv ha hdue => ?_⟩
  · exact moveArrival_rests hsrc harr hdue
  · exact moveArrival_velocity hsrc harr hdue
  · exact gearEngage_engages hb hcross
  · exact gearEngage_waits hb hcross
  · exact camCycleSwitch_switches hc hc' hk
  · exact remoteMasterStale_tells hvalid hfresh hage
  · exact holdCurrentReduce_reduces hty hholdi hsp hv ha hdue
end


section
/-! SUPPORT. Messages of remote masters and published ones, and the settling of the statement on them. -/
open Sys2Proof Sys2Proof.Machine
namespace Sys2Proof.Machine

/-! ### A message of a remote master (R271, R413) -/

section
variable {s : State}

/-- A message meets one slot when that one alone is enabled with its identifier. -/
theorem masterMessage_one {port : Fin 2} {mid : Word} {r : Fin 16} (x : FTime) (p v : BitVec 64)
    (h : ∀ k : Fin 16, s.flag (rLPE_RM_CFG k) fLPE_RM_CFG_EN = true ∧ s.rget (rLPE_RM_ID k) = mid ↔ k = r) :
    execMasterMessage port mid x p v s = .next (s.rmTake (6 + port.val) r x p v) := by
  have hslots : (List.range 16).filter (fun k => s.flag (rLPE_RM_CFG k) fLPE_RM_CFG_EN && s.rget (rLPE_RM_ID k) == mid)
      = (List.range 16).filter (fun k => k == r.val) := by
    refine List.filter_congr fun k hk => Bool.eq_iff_iff.mpr ?_
    rw [Bool.and_eq_true, beq_iff_eq, beq_iff_eq]
    exact (h ⟨k, List.mem_range.mp hk⟩).trans Fin.ext_iff
  have hone : ∀ r : Fin 16, (List.range 16).filter (fun k => k == r.val) = [r.val] := by decide
  rw [execMasterMessage, hslots, hone]
  rfl

variable {p : Nat} {r : Fin 16} {x : FTime} {pos v : Val}

theorem State.rmTake_denied (h : s.rmOK p r = false) : s.rmTake p r x pos v = s.count (rPLAN_P_DENY p) := if_pos (by simp [h])

theorem State.rmTake_old (h : s.rmOK p r = true) (hvalid : (s.rmSlot r).valid = true) (hold : tdiff x (s.rmSlot r).t ≤ 0) :
    s.rmTake p r x pos v = s.count (rLPE_RM_STAT r) :=
  (if_neg (by simp [h])).trans (if_pos ⟨hvalid, hold⟩)

theorem State.rmTake_new (h : s.rmOK p r = true) (hnew : (s.rmSlot r).valid = false ∨ 0 < tdiff x (s.rmSlot r).t) :
    s.rmTake p r x pos v = (s.setRm r { valid := true, t := x, p := pos, v := velIn v }).fset (rLPE_RM_STAT r) fLPE_RM_STAT_STALE 0 := by
  have hnot : ¬ ((s.rmSlot r).valid = true ∧ tdiff x (s.rmSlot r).t ≤ 0) := by
    rintro ⟨hvalid, hold⟩
    rcases hnew with hinv | hlt
    · simp [hinv] at hvalid
    · omega
  exact (if_neg (by simp [h])).trans (if_neg hnot)

/-- The slot shows the message taken, and no other slot or register changes but its staleness. -/
theorem State.taken_shows (s : State) (r : Fin 16) (m : RmSlot) :
    let t := (s.setRm r m).fset (rLPE_RM_STAT r) fLPE_RM_STAT_STALE 0
    t.rmSlot r = m ∧ t.flag (rLPE_RM_STAT r) fLPE_RM_STAT_STALE = false
      ∧ t.wrote { s with rm := t.rm } [rLPE_RM_STAT r] ∧ ∀ k ≠ r.val, t.rmSlot k = s.rmSlot k := by
  refine ⟨s.rmSlot_setRm r m, ?_, State.fset_wrote (s.setRm r m) _ _ _, fun k hk => State.rmSlot_setRm_ne s m hk⟩
  rw [State.flag, State.fget_fset _ _ _ _ (by decide)]
  rfl

end

/-! ### A published message (R272) -/

theorem masterMsg_length (mid : Word) (t : FTime) (p v : Int) : (masterMsg mid t p v).length = 32 := by
  simp only [masterMsg, List.length_append, leBytes_length]

theorem State.pubHead_length (s : State) (e n : Nat) : (s.pubHead e n).length = 16 := by
  simp only [State.pubHead, List.length_append, leBytes_length]
  rfl

theorem masterMsg_id (mid : Word) (t : FTime) (p v : Int) : (masterMsg mid t p v).take 4 = leBytes 4 mid.toNat := by
  simp only [masterMsg, List.append_assoc]
  exact List.take_left' (leBytes_length 4 _)

/-- The frame of one published message: the master of the register entry `q` at the tick start of its axis. -/
def State.pubFrame (s : State) (q : Nat) : TxItem :=
  let n := s.fget (rLPE_PUB_CFG q) fLPE_PUB_CFG_AXIS
  let m := s.masterAt { mkind := s.fget (rLPE_PUB_CFG q) fLPE_PUB_CFG_SRCSEL, master := n } (s.axTickStart n)
  { q := none, tag := 0, nocomp := true, tsreq := false, frameId := 0, canid := 0,
    data := s.pubHead (s.fget (rLPE_PUB_CFG q) fLPE_PUB_CFG_PORT) 1 ++ masterMsg (s.rget (rLPE_PUB_ID q)) (s.axTickStart n) m.1 m.2.1 }

theorem State.pubFrame_length (s : State) (q : Nat) : (s.pubFrame q).data.length = 48 := by
  rw [State.pubFrame, List.length_append, State.pubHead_length, masterMsg_length]

theorem State.pubFrame_id (s : State) (q : Nat) : ((s.pubFrame q).data.drop 16).take 4 = leBytes 4 (s.rget (rLPE_PUB_ID q)).toNat := by
  rw [State.pubFrame, List.drop_left' (s.pubHead_length _ _)]
  exact masterMsg_id _ _ _ _

/-- A published message opens a frame of its own where no frame waits, and the queue has room for it. -/
theorem publishMaster_opens {s : State} {q : Fin 16} (hen : s.flag (rLPE_PUB_CFG q) fLPE_PUB_CFG_EN = true)
    (hdiv : divides (s.fget (rLPE_PUB_CFG q) fLPE_PUB_CFG_DIV + 1) (s.axTick (s.fget (rLPE_PUB_CFG q) fLPE_PUB_CFG_AXIS)) = true)
    (hempty : s.txq_ (s.fget (rLPE_PUB_CFG q) fLPE_PUB_CFG_PORT) = []) :
    execPublishMaster q s = .next (s.setTxq (s.fget (rLPE_PUB_CFG q) fLPE_PUB_CFG_PORT) [s.pubFrame q]) := by
  have hport : s.fget (rLPE_PUB_CFG q) fLPE_PUB_CFG_PORT < 2 := bget_lt _ _
  have hroom : s.txRoom (s.fget (rLPE_PUB_CFG q) fLPE_PUB_CFG_PORT) (s.pubFrame q).data.length = true := by
    rw [State.txRoom, if_pos hport, hempty, State.pubFrame_length]
    rfl
  refine (if_neg (by simp [hen, hdiv])).trans ?_
  dsimp only
  rw [hempty]
  exact if_pos hroom

end Sys2Proof.Machine

/-- Settles O30: the one slot that a message meets denies it, counts it or takes it; a published message opens a frame. -/
theorem masterRows : Obligations.MasterRows := by
  unfold Obligations.MasterRows
  intro s
  refine ⟨fun port mid x p v r hslot => ?_, fun q hen hdiv hempty =>
    ⟨_, publishMaster_opens hen hdiv hempty, rfl, _, s.txq_setTxq _ _, rfl, s.pubFrame_length q, s.pubFrame_id q⟩⟩
  have hx := masterMessage_one (port := port) x p v hslot
  refine ⟨fun hright => ⟨fun hnew => ?_, fun hvalid hold => ?_⟩, fun hright => ?_⟩
  · rw [State.rmTake_new hright hnew] at hx
    exact ⟨_, hx, s.taken_shows r _⟩
  · exact ⟨_, hx, State.rmTake_old hright hvalid hold⟩
  · exact ⟨_, hx, State.rmTake_denied hright⟩
end

section
/-! SUPPORT. Command descriptors from a submission ring: what its admission leaves, and how its completion enters the ring's completion
ring. -/
open Sys2Proof Sys2Proof.Machine
namespace Sys2Proof.Machine

/-! ### Admission (R378, R382, R385) -/

/-- A descriptor of ring `q` taken off its staging, and the turn noted. -/
def State.drawn (s : State) (q : Fin 32) : State := { s.unstaged q with sqLast := q }

/-- The command that the next descriptor of ring `q` opens or completes. -/
def State.drawnCmd (s : State) (q : Fin 32) (h : DescHdr) (opc : Nat) (op : MotionOp) : OpenCmd := s.descCmd h opc op (s.slotAfter q 0)

section
variable {s : State} {q : Fin 32} {h : DescHdr} {opc : Nat} {axial good right : Bool} {op : MotionOp} {act : OpenCmd → State → State}

theorem State.descTake_sq (hsrc : h.src = .sq q) : s.descTake h = (s.drawn q, s.slotAfter q 0) := by
  rw [State.descTake, hsrc]
  rfl

/-- A ready descriptor is judged by its form, then by its rights, and else acts. -/
theorem State.desc_ready (hsrc : h.src = .sq q) (hready : s.descReady h = true) :
    s.desc h opc axial good right op act =
      if !hdrGood h axial ∨ !good then (s.drawn q).complete (s.drawnCmd q h opc op) stFORMAT 0
      else if !s.opcOK 0 opc ∨ !right then ((s.drawn q).deny 0).complete (s.drawnCmd q h opc op) stDENIED 0
      else act (s.drawnCmd q h opc op) (s.drawn q) := by
  have hport : hdrPort h = 0 := by rw [hdrPort, hsrc]
  unfold State.desc
  rw [if_neg (by simp [hready]), State.descTake_sq hsrc, hport]
  rfl

theorem State.desc_acts (hadm : s.admits q h opc axial) (hgood : good = true) (hright : right = true) :
    s.desc h opc axial good right op act = act (s.drawnCmd q h opc op) (s.drawn q) := by
  obtain ⟨hsrc, hready, hhdr, hopc, -⟩ := hadm
  rw [State.desc_ready hsrc hready, if_neg (by simp [hhdr, hgood]), if_neg (by simp [hopc, hright])]

theorem State.desc_malformed (hadm : s.admits q h opc axial) (hgood : good = false) :
    s.desc h opc axial good right op act = (s.drawn q).complete (s.drawnCmd q h opc op) stFORMAT 0 := by
  obtain ⟨hsrc, hready, -⟩ := hadm
  rw [State.desc_ready hsrc hready, if_pos (by simp [hgood])]

theorem State.admits_port (hadm : s.admits q h opc axial) : hdrPort h = 0 := by rw [hdrPort, hadm.1]

end

/-! ### Completion (R379, R385, R386) -/

/-- The completion of a command changes only what posting may change. -/
theorem State.complete_posted (s : State) (c : OpenCmd) (status payload : Nat) (L : List Nat) : (s.complete c status payload).posted s L := by
  unfold State.complete
  split
  · exact State.posted_refl s L
  · split
    · split
      · exact State.posted_refl s L
      · exact s.produce_posted _ _ (by rintro _ ⟨⟩; exact bget_lt _ _) L
    · exact s.produce_posted _ _ (ringIf_lt (bget_lt _ _)) L

theorem State.complete_axes (s : State) (c : OpenCmd) (status payload : Nat) : (s.complete c status payload).axes = s.axes := by
  rw [(s.complete_posted c status payload []).1]

theorem State.posted_sram {t u : State} {L : List Nat} (h : t.posted u L) : t.sram = u.sram := by rw [h.1]
theorem State.posted_cmp {t u : State} {L : List Nat} (h : t.posted u L) : t.cmp = u.cmp := by rw [h.1]
theorem State.posted_work {t u : State} {L : List Nat} (h : t.posted u L) : t.work = u.work := by rw [h.1]

/-- Of `s` remain the time, the completion rings and every register of the block HIF; ring `q` is drawn. -/
def State.drawnFrom (u s : State) (q : Fin 32) : Prop :=
  u.now = s.now ∧ u.cqs = s.cqs ∧ u.sqs = (s.drawn q).sqs ∧ ∀ o, o / 0x100000 = 2 → u.rget o = s.rget o

theorem State.drawn_axes (s : State) (q : Fin 32) : (s.drawn q).axes = s.axes := rfl

theorem State.drawn_sram (s : State) (q : Fin 32) : (s.drawn q).sram = s.sram := rfl

theorem State.drawn_camN (s : State) (q : Fin 32) (c : Nat) : (s.drawn q).camN c = s.camN c := rfl

theorem State.deny_axes (s : State) (p : Nat) : (s.deny p).axes = s.axes := by rw [State.deny, (State.count_wrote _ _).1]

theorem State.drawnFrom_drawn (s : State) (q : Fin 32) : (s.drawn q).drawnFrom s q := ⟨rfl, rfl, rfl, fun _ _ => rfl⟩

/-- Writing registers of other blocks keeps what a completion rests on. -/
theorem State.drawnFrom_wrote {u v s : State} {q : Fin 32} {L : List Nat} (hv : v.drawnFrom s q) (hu : u.wrote v L)
    (hL : ∀ o ∈ L, o / 0x100000 ≠ 2) : u.drawnFrom s q := by
  obtain ⟨hnow, hcqs, hsqs, hreg⟩ := hv
  obtain ⟨hs, hr⟩ := hu
  exact ⟨by rw [hs]; exact hnow, by rw [hs]; exact hcqs, by rw [hs]; exact hsqs,
    fun o ho => (hr o fun hm => hL o hm ho).trans (hreg o ho)⟩

theorem State.drawnFrom_deny (s : State) (q : Fin 32) : ((s.drawn q).deny 0).drawnFrom s q :=
  State.drawnFrom_wrote (s.drawnFrom_drawn q) (State.count_wrote _ _) (by
    intro o ho
    rw [List.mem_singleton.mp ho]
    decide)

section
variable {s u : State} {q : Fin 32} {h : DescHdr} (hsrc : h.src = .sq q) (hcomp : h.flags.getLsbD 1 = false) (opc : Nat) (op : MotionOp)
  (status payload : Nat)
include hsrc hcomp

/-- The completion of a ring's descriptor is offered to the completion ring bound to it. -/
theorem State.complete_offers (hu : u.drawnFrom s q) :
    u.complete (s.drawnCmd q h opc op) status payload = u.cqOffer (s.sqCq q) (s.cmdEntry q h status payload) := by
  obtain ⟨hnow, -, -, hreg⟩ := hu
  have hcq : u.fget (rHIF_SQ_CFG q) fHIF_SQ_CFG_CQ = s.sqCq q := by
    rw [State.fget, hreg _ (by simp only [rHIF_SQ_CFG]; omega)]
    rfl
  have hentry : ∀ q', u.produce (some q') (s.cmdEntry q h status payload) = u.cqOffer q' (s.cmdEntry q h status payload) := fun _ =>
    congrArg (fun v : State => v.cqOffer _ _) (if_neg (by simp [State.cmdEntry]))
  have hx : u.complete (s.drawnCmd q h opc op) status payload
      = u.produce (some (u.fget (rHIF_SQ_CFG q) fHIF_SQ_CFG_CQ)) { s.cmdEntry q h status payload with ft := u.now } := by
    simp only [State.complete, State.drawnCmd, State.descCmd, hsrc, hcomp, Bool.false_eq_true, if_false, false_and]
    rfl
  rw [hx, hnow, hcq, ← hentry]
  rfl

theorem State.complete_ends (hu : u.drawnFrom s q) (hready : s.ringReady (s.sqCq q)) :
    (u.complete (s.drawnCmd q h opc op) status payload).ended s q h status payload := by
  have hposted := u.complete_posted (s.drawnCmd q h opc op) status payload []
  rw [State.complete_offers hsrc hcomp opc op status payload hu] at hposted ⊢
  obtain ⟨hnow, hcqs, hsqs, hreg⟩ := hu
  have hcq : u.cq (s.sqCq q) = s.cq (s.sqCq q) := by rw [State.cq, State.cq, hcqs]
  have hlt := s.sqCq_lt q
  have hcfg := hreg (rHIF_CQ_CFG (s.sqCq q)) (by simp only [rHIF_CQ_CFG]; omega)
  have hstat := hreg (rHIF_CQ_STAT (s.sqCq q)) (by simp only [rHIF_CQ_STAT]; omega)
  refine ⟨State.entered_congr (by rw [hcq]) hnow hstat hcfg (u.cqOffer_entered _ _ (State.ringReady_congr hcq hcfg hready)), ?_⟩
  rw [State.sq, State.posted_sqs hposted, hsqs]
  exact s.unstaged_staged q

end

section
variable {s : State} {q : Fin 32} {h : DescHdr} {opc : Nat} {axial : Bool} (hadm : s.admits q h opc axial)
include hadm

/-- An admitted descriptor completes in the state `u` that its effects leave. -/
theorem State.admitted_ends {u : State} (hu : u.drawnFrom s q) (op : MotionOp) (status payload : Nat) :
    (u.complete (s.drawnCmd q h opc op) status payload).ended s q h status payload := by
  obtain ⟨hsrc, -, -, -, hcomp, hready⟩ := hadm
  exact State.complete_ends hsrc hcomp opc op status payload hu hready

/-- An admitted descriptor that completes at once ends, and leaves the axes. -/
theorem State.drawn_ends (op : MotionOp) (status payload : Nat) :
    ((s.drawn q).complete (s.drawnCmd q h opc op) status payload).ended s q h status payload
      ∧ ((s.drawn q).complete (s.drawnCmd q h opc op) status payload).axes = s.axes :=
  ⟨State.admitted_ends hadm (s.drawnFrom_drawn q) op status payload, (State.complete_axes _ _ _ _).trans (s.drawn_axes q)⟩

end

end Sys2Proof.Machine
end

section
/-! SUPPORT. Commands of motion: the cause each leaves for the tick boundary of its axis, and the settling of the statement on them. -/
open Sys2Proof Sys2Proof.Machine
namespace Sys2Proof.Machine

section
variable {s : State} {q : Fin 32} {h : DescHdr}

/-- Opening a command and leaving its cause to an axis changes the table of the open commands and that axis's causes. -/
theorem State.openCause_shows (u : State) (c : OpenCmd) (n : Nat) (x : Cause) :
    ((u.openCmd c).1.cause n x).cmd u.nextCmd = some c ∧ (((u.openCmd c).1.cause n x).ax n).causes = (u.ax n).causes ++ [x]
      ∧ ((u.openCmd c).1.cause n x).regs = u.regs ∧ ((u.openCmd c).1.cause n x).cqs = u.cqs ∧ ((u.openCmd c).1.cause n x).sqs = u.sqs
      ∧ ∀ m, m ≠ n → ((u.openCmd c).1.cause n x).ax m = u.ax m := by
  have hframe : (u.openCmd c).1.cause n x
      = { u with cmds := (u.setCmd u.nextCmd (some c)).cmds, nextCmd := u.nextCmd + 1, axes := (u.cause n x).axes } := rfl
  have hcause : ((u.cause n x).ax n).causes = (u.ax n).causes ++ [x] := by rw [State.cause, State.ax_updAx]
  have hother : ∀ m, m ≠ n → (u.cause n x).ax m = u.ax m := fun m hm => u.ax_updAx_ne _ hm
  rw [hframe]
  exact ⟨u.cmd_setCmd u.nextCmd _, hcause, rfl, rfl, rfl, hother⟩

/-- A command opened with one cause for an axis is open as that axis's part. -/
theorem State.openCmd_opened (opc : Nat) (op : MotionOp) (left n : Nat) (c : Nat → Cause) :
    (((s.drawn q).openCmd { s.drawnCmd q h opc op with left := left }).1.cause n (c s.nextCmd)).opened s q h opc op left n c := by
  obtain ⟨hcmd, hcause, hregs, hcqs, hsqs, hax⟩ := (s.drawn q).openCause_shows { s.drawnCmd q h opc op with left := left } n (c s.nextCmd)
  refine ⟨hcmd, hcause, ?_, hregs, hcqs, hax⟩
  rw [State.sq, hsqs]
  exact s.unstaged_staged q

theorem motion_opens {n opc : Nat} {op : MotionOp} (hplan : s.inPlan n = true) :
    (motion n (s.drawnCmd q h opc op) (s.drawn q)).opened s q h opc op 0 n .motion := by
  have hx : motion n (s.drawnCmd q h opc op) (s.drawn q) = ((s.drawn q).openCmd (s.drawnCmd q h opc op)).1.cause n (.motion s.nextCmd) := by
    have hplan' : (s.drawn q).inPlan n = true := hplan
    rw [motion, if_neg (by simp [hplan'])]
    rfl
  rw [hx]
  exact State.openCmd_opened opc op 0 n .motion

/-- An admitted command of motion with its rights is open for its axis. -/
theorem State.desc_motion {opc : Nat} {right : Bool} {op : MotionOp} (hadm : s.admits q h opc true) (hplan : s.inPlan h.axis.toNat = true)
    {good : Bool} (hgood : good = true) (hright : right = true) :
    (s.desc h opc true good right op (motion h.axis.toNat)).opened s q h opc op 0 h.axis.toNat .motion := by
  rw [State.desc_acts hadm hgood hright]
  exact motion_opens hplan

/-! ### AXSET (R258, R380) -/

theorem axset_outside {v : Val} {x : FTime} {req : BitVec 5} (hadm : s.admits q h 0x01 true)
    (hright : s.reqsOK 0 h.axis.toNat req.toNat = true) (hplan : s.inPlan h.axis.toNat = false) :
    s.doAxset h v x false req = (s.drawn q).complete (s.drawnCmd q h 0x01 .other) stSTATE 0 := by
  have hplan' : (s.drawn q).inPlan h.axis.toNat = false := hplan
  rw [State.doAxset, State.admits_port hadm]
  dsimp only
  rw [State.desc_acts hadm (by simp) (by simp [hright]), if_pos (by simp [hplan'])]

theorem axset_requests {v : Val} {x : FTime} {req : BitVec 5} (hadm : s.admits q h 0x01 true)
    (hright : s.reqsOK 0 h.axis.toNat req.toNat = true) (hplan : s.inPlan h.axis.toNat = true) :
    s.doAxset h v x false req = axsetReqs h.axis.toNat req.toNat (s.drawnCmd q h 0x01 .other) (s.drawn q) := by
  have hplan' : (s.drawn q).inPlan h.axis.toNat = true := hplan
  rw [State.doAxset, State.admits_port hadm]
  dsimp only
  rw [State.desc_acts hadm (by simp) (by simp [hright]), if_neg (by simp [hplan']), if_pos (by simp)]

theorem axsetReqs_none (n : Nat) (c : OpenCmd) (u : State) : axsetReqs n 0 c u = u.complete c stOK 0 := rfl

theorem axsetReqs_one {n req : Nat} {r : Req} (hreq : reqsOf req = [r]) (c : OpenCmd) (u : State) :
    axsetReqs n req c u = (u.openCmd { c with left := 1 }).1.cause n (.req r (some u.nextCmd)) := by
  rw [axsetReqs, hreq]
  rfl

/-- A streamed value of an axis that takes motion: its point, and then its requests or the completion that refuses it. -/
theorem axset_point {v : Val} {x : FTime} (hadm : s.admits q h 0x01 true) (hright : s.reqsOK 0 h.axis.toNat 0 = true)
    (hplan : s.inPlan h.axis.toNat = true) (hval : s.valueOK h.axis.toNat v = true) (hperm : s.perm 0 h.axis.toNat pmMOTION = true) :
    s.doAxset h v x true 0 = (let r := (s.drawn q).point h.axis.toNat x v true
      if r.2 = stOK then axsetReqs h.axis.toNat 0 (s.drawnCmd q h 0x01 .other) r.1 else r.1.complete (s.drawnCmd q h 0x01 .other) r.2 0) := by
  have hplan' : (s.drawn q).inPlan h.axis.toNat = true := hplan
  rw [State.doAxset, State.admits_port hadm]
  dsimp only
  rw [State.desc_acts hadm (by simp [hval]) (by simp [hperm, hright]), if_neg (by simp [hplan']), if_neg (by simp)]
  rfl

section
variable {n : Nat} {x : FTime} {v : Val} (hplan : s.inPlan n = true) (htakes : s.takesMotion n false = true)
include hplan htakes

theorem State.point_queues (hroom : s.pointsQueued n < 16) :
    s.point n x v true = (s.cause n (.point x (if s.axCmode n = 1 then velIn v else v)), stOK) := by
  rw [State.point, if_neg (by simp [hplan]), if_neg (by simp [htakes]), if_neg (by omega)]

theorem State.point_full (hfull : 16 ≤ s.pointsQueued n) : s.point n x v true = (s, stFULL) := by
  rw [State.point, if_neg (by simp [hplan]), if_neg (by simp [htakes]), if_pos hfull]

end

section
variable {v : Val} {x : FTime} (hadm : s.admits q h 0x01 true) (hright : s.reqsOK 0 h.axis.toNat 0 = true)
  (hplan : s.inPlan h.axis.toNat = true) (hval : s.valueOK h.axis.toNat v = true) (hperm : s.perm 0 h.axis.toNat pmMOTION = true)
  (htakes : s.takesMotion h.axis.toNat false = true)
include hadm hright hplan hval hperm htakes

theorem axset_point_queued (hroom : s.pointsQueued h.axis.toNat < 16) : Completes (.axset h v x true 0) s (fun t => t.ended s q h 0 0
    ∧ (t.ax h.axis.toNat).causes = (s.ax h.axis.toNat).causes ++ [.point x (if s.axCmode h.axis.toNat = 1 then velIn v else v)]) := by
  have hpoint := State.point_queues (s := s.drawn q) (x := x) (v := v) hplan htakes hroom
  have hx := axset_point (x := x) hadm hright hplan hval hperm
  rw [hpoint] at hx
  have hu : ((s.drawn q).cause h.axis.toNat (.point x (if s.axCmode h.axis.toNat = 1 then velIn v else v))).drawnFrom s q :=
    ⟨rfl, rfl, rfl, fun _ _ => rfl⟩
  refine ⟨_, congrArg Host.Outcome.next hx, State.admitted_ends hadm hu .other stOK 0, ?_⟩
  have haxes := (State.complete_axes ((s.drawn q).cause h.axis.toNat (.point x (if s.axCmode h.axis.toNat = 1 then velIn v else v)))
    (s.drawnCmd q h 0x01 .other) stOK 0)
  have hax : ∀ a b : State, a.axes = b.axes → a.ax h.axis.toNat = b.ax h.axis.toNat := fun a b hab => by rw [State.ax, State.ax, hab]
  refine (congrArg Axis.causes (hax _ _ haxes)).trans ?_
  rw [State.cause, State.ax_updAx]
  rfl

theorem axset_point_full (hfull : 16 ≤ s.pointsQueued h.axis.toNat) : Completes (.axset h v x true 0) s (fun t => t.ended s q h 2 0
    ∧ t.axes = s.axes) := by
  have hpoint := State.point_full (s := s.drawn q) (x := x) (v := v) hplan htakes hfull
  have hx := axset_point (x := x) hadm hright hplan hval hperm
  rw [hpoint] at hx
  exact ⟨_, congrArg Host.Outcome.next hx, State.drawn_ends hadm .other stFULL 0⟩

end

/-! ### STOP (R379) -/

section
variable (hadm : s.admits q h 0x03 true) (hright : s.permAll 0 pmSTOP [h.axis.toNat] = true)
include hadm hright

/-- A STOP of one axis opens for it, or answers STATE where the axis is outside the plan. -/
theorem stop_acts {kind : BitVec 8} (hkind : kind = 1 ∨ kind = 2) : s.doStop h kind 0 =
    if s.inPlan h.axis.toNat then ((s.drawn q).openCmd { s.drawnCmd q h 0x03 .other with left := 1 }).1.cause h.axis.toNat
      (.stop kind.toNat (some s.nextCmd))
    else (s.drawn q).complete (s.drawnCmd q h 0x03 .other) stSTATE 0 := by
  have hgood : (kind == 1 || kind == 2) = true := by simpa using hkind
  rw [State.doStop, State.admits_port hadm]
  dsimp only
  rw [if_neg (by decide), State.desc_acts hadm (by rw [hgood]; rfl) hright]
  cases hplan : s.inPlan h.axis.toNat with
  | true =>
    have hscope : [h.axis.toNat].filter (s.drawn q).inPlan = [h.axis.toNat] := by
      rw [List.filter_cons_of_pos (show (s.drawn q).inPlan h.axis.toNat = true from hplan)]
      rfl
    rw [hscope]
    rfl
  | false =>
    have hscope : [h.axis.toNat].filter (s.drawn q).inPlan = [] := by
      rw [List.filter_cons_of_neg (by simp [show (s.drawn q).inPlan h.axis.toNat = false from hplan])]
      rfl
    rw [hscope]
    rfl

omit hright in
theorem stop_malformed : s.doStop h 3 0 = (s.drawn q).complete (s.drawnCmd q h 0x03 .other) stFORMAT 0 := by
  rw [State.doStop]
  exact State.desc_malformed hadm rfl

end

/-! ### A gondola's command (R410) -/

theorem State.desc_peer {t : Fin 25} {pos : Fin 64} (hsrc : h.src = .peer t pos) {opc : Nat} {axial good right : Bool} {op : MotionOp}
    {act : OpenCmd → State → State} (hhdr : hdrGood h axial = true) (hgood : good = true) (hopc : s.opcOK 9 opc = true) (hright : right = true) :
    s.desc h opc axial good right op act = act (s.descCmd h opc op 0) s := by
  have hready : s.descReady h = true := by rw [State.descReady, hsrc]
  have htake : s.descTake h = (s, 0) := by rw [State.descTake, hsrc]
  have hport : hdrPort h = 9 := by rw [hdrPort, hsrc]
  unfold State.desc
  rw [if_neg (by simp [hready]), htake, hport]
  dsimp only
  rw [if_neg (by simp [hhdr, hgood]), if_neg (by simp [hopc, hright])]

theorem resume_peer {t : Fin 25} {pos : Fin 64} (hsrc : h.src = .peer t pos) (hhdr : hdrGood h true = true)
    (hplan : s.inPlan h.axis.toNat = true) (hopc : s.opcOK 9 0x04 = true) (hperm : s.perm 9 h.axis.toNat pmMOTION = true) :
    s.doResume h = (s.openCmd (s.descCmd h 0x04 .resume 0)).1.cause h.axis.toNat (.motion s.nextCmd) := by
  have hport : hdrPort h = 9 := by rw [hdrPort, hsrc]
  rw [State.doResume, hport, State.desc_peer hsrc hhdr rfl hopc hperm, motion, if_neg (by simp [hplan])]
  rfl

theorem peerResume_opens (t : Fin 25) (pos : Fin 64) (tag : BitVec 16) (axis : BitVec 8) (hplan : s.inPlan axis.toNat = true)
    (hopc : s.opcOK 9 0x04 = true) (hperm : s.perm 9 axis.toNat pmMOTION = true) :
    Completes (.peerCommand t pos 0 tag axis false .resume) s (fun u =>
      (u.ax axis.toNat).causes = (s.ax axis.toNat).causes ++ [.motion s.nextCmd]
      ∧ (u.cmd s.nextCmd).map (fun c => (c.src, c.tag, c.op)) = some (.peer t pos, tag, .resume)
      ∧ u.regs = s.regs ∧ u.cqs = s.cqs ∧ u.sqs = s.sqs) := by
  obtain ⟨h, hh⟩ : ∃ h : DescHdr, h = { src := .peer t pos, flags := 0, tag := tag, axis := axis, rsv := false } := ⟨_, rfl⟩
  have haxis : h.axis = axis := by rw [hh]
  have hx := resume_peer (h := h) (t := t) (pos := pos) (by rw [hh]) (by rw [hh]; rfl) (by rw [haxis]; exact hplan) hopc
    (by rw [haxis]; exact hperm)
  obtain ⟨hcmd, hcause, hregs, hcqs, hsqs, -⟩ := s.openCause_shows (s.descCmd h 0x04 .resume 0) axis.toNat (.motion s.nextCmd)
  rw [haxis] at hx
  refine ⟨_, congrArg Host.Outcome.next (hh ▸ hx), hcause, ?_, hregs, hcqs, hsqs⟩
  rw [hcmd, hh]
  rfl

end
end Sys2Proof.Machine

/-- Settles O54: a descriptor is refused at its head, completes at once, or is open with the cause it leaves for its axis. -/
theorem motionDescriptorRows : Obligations.MotionDescriptorRows := by
  unfold Obligations.MotionDescriptorRows
  intro s q h
  dsimp only
  refine ⟨fun hadm => ?_, fun hsrc hready hring hcomp => ⟨fun hhdr => ?_, fun hhdr hopc => ?_⟩,
    fun v x req hadm hright => ⟨fun hplan => ?_, fun hplan => ⟨?_, fun r hr => ?_, ?_⟩⟩,
    fun hplan hperm => ⟨fun target vl al dl jl mf hadm hmf hright => ?_, fun hadm => ?_,
      fun mode master gf num den offset lr mpos hadm hmode hden hread => ?_, fun cam cf cphase hadm hcam => ⟨?_, ?_⟩⟩,
    fun hadm hright => ⟨fun kind hkind => ⟨fun hplan => ?_, fun hplan => ?_⟩, ?_⟩, fun t pos tag axis hplan hopc hperm => ?_⟩
  · exact ⟨_, congrArg Host.Outcome.next (State.desc_acts hadm rfl rfl), (State.drawn_ends hadm .other stOK 0).1⟩
  · have hx : s.doNop h = (s.drawn q).complete (s.drawnCmd q h 0x00 .other) stFORMAT 0 := by
      rw [State.doNop, State.desc_ready hsrc hready, if_pos (by simp [hhdr])]
    exact ⟨_, congrArg Host.Outcome.next hx, State.complete_ends hsrc hcomp _ _ _ _ (s.drawnFrom_drawn q) hring⟩
  · have hx : s.doResume h = ((s.drawn q).deny 0).complete (s.drawnCmd q h 0x04 .resume) stDENIED 0 := by
      rw [State.doResume, State.desc_ready hsrc hready, if_neg (by simp [hhdr]), if_pos (by simp [hopc])]
    exact ⟨_, congrArg Host.Outcome.next hx, State.complete_ends hsrc hcomp _ _ _ _ (s.drawnFrom_deny q) hring,
      (State.complete_axes _ _ _ _).trans ((State.deny_axes _ _).trans (s.drawn_axes q))⟩
  · exact ⟨_, congrArg Host.Outcome.next (axset_outside hadm hright hplan), State.drawn_ends hadm .other stSTATE 0⟩
  · rintro rfl
    exact ⟨_, congrArg Host.Outcome.next (axset_requests hadm hright hplan), State.drawn_ends hadm .other stOK 0⟩
  · have hx := (axset_requests (v := v) (x := x) hadm hright hplan).trans (axsetReqs_one hr _ _)
    exact ⟨_, congrArg Host.Outcome.next hx, State.openCmd_opened 0x01 .other 1 _ fun k => .req r (some k)⟩
  · rintro rfl hval hperm htakes
    exact ⟨axset_point_queued hadm hright hplan hval hperm htakes, axset_point_full hadm hright hplan hval hperm htakes⟩
  · have hx : s.doMove h target vl al dl jl mf = s.desc h 0x02 true true (s.permAll 0 pmMOTION [h.axis.toNat]) (.move target vl al dl jl mf)
        (motion h.axis.toNat) := by
      rw [State.doMove, State.admits_port hadm, if_neg (by rw [hmf]; simp)]
    exact ⟨_, congrArg Host.Outcome.next hx, State.desc_motion hadm hplan rfl hright⟩
  · exact ⟨_, rfl, State.desc_motion hadm hplan rfl (by rw [State.admits_port hadm]; exact hperm)⟩
  · exact ⟨_, rfl, State.desc_motion hadm hplan (by simp [hmode, show ¬den = 0#32 from hden]) (by rw [State.admits_port hadm]; simp [hperm, hread])⟩
  · exact ⟨_, rfl, State.desc_motion hadm hplan (by simp [hcam]) (by rw [State.admits_port hadm]; exact hperm)⟩
  · exact ⟨_, rfl, State.desc_motion hadm hplan (by simp [hcam]) (by rw [State.admits_port hadm]; exact hperm)⟩
  · have hx := stop_acts hadm hright hkind
    rw [if_pos hplan] at hx
    exact ⟨_, congrArg Host.Outcome.next hx, State.openCmd_opened 0x03 .other 1 _ fun k => .stop kind.toNat (some k)⟩
  · have hx := stop_acts hadm hright hkind
    rw [if_neg (by simp [hplan])] at hx
    exact ⟨_, congrArg Host.Outcome.next hx, State.drawn_ends hadm .other stSTATE 0⟩
  · exact ⟨_, congrArg Host.Outcome.next (stop_malformed hadm), State.drawn_ends hadm .other stFORMAT 0⟩
  · exact peerResume_opens t pos tag axis hplan hopc hperm
end

section
/-! SUPPORT. Commands on data: what each leaves before its completion, and the settling of the statement on them. -/
open Sys2Proof Sys2Proof.Machine
namespace Sys2Proof.Machine

/-! ### What a completion leaves -/

section
variable (u : State) (c : OpenCmd) (status payload : Nat)

theorem State.complete_rget {o : Nat} (ho : 3 ≤ o / 0x100000 ∧ o / 0x100000 ≤ 9) : (u.complete c status payload).rget o = u.rget o :=
  (u.complete_posted c status payload []).2.1 o (postReg_of_block ho) List.not_mem_nil

theorem State.complete_fget {o : Nat} (b : Bits) (ho : 3 ≤ o / 0x100000 ∧ o / 0x100000 ≤ 9) :
    (u.complete c status payload).fget o b = u.fget o b := by rw [State.fget, u.complete_rget c status payload ho]; rfl

theorem State.complete_ax (n : Nat) : (u.complete c status payload).ax n = u.ax n := by
  rw [State.ax, State.complete_axes]
  rfl

end

theorem State.host_cqTest (s : State) (q : Nat) : (s.cqTest q).host = s.host := by
  unfold State.cqTest State.sendMsg
  split
  · split <;> rfl
  · rfl

theorem State.host_fset (s : State) (o : Nat) (b : Bits) (x : Nat) : (s.fset o b x).host = s.host := rfl
theorem State.host_updCq (s : State) (q : Nat) (f : Cq → Cq) : (s.updCq q f).host = s.host := rfl

theorem State.host_cqWrite (u : State) (q : Nat) (e : Cqe) : (u.cqWrite q e).host
    = memWrite u.host (u.cqSlot q (u.fget (rHIF_CQ_STAT q) fHIF_CQ_STAT_TAIL)) (cqeBytes e (u.flag (rHIF_CQ_STAT q) fHIF_CQ_STAT_PHASE)) := by
  unfold State.cqWrite State.fsetb
  rw [State.host_fset, State.host_fset, State.host_updCq, State.hostWrite]

/-- Of host memory, a completion that its ring takes at once writes the slot of its entry alone. -/
theorem State.cqOffer_host {u : State} {q : Nat} (hready : u.ringReady q) (e : Cqe) {k : Nat}
    (hk : ¬ (u.cqSlot q (u.fget (rHIF_CQ_STAT q) fHIF_CQ_STAT_TAIL) ≤ k ∧ k < u.cqSlot q (u.fget (rHIF_CQ_STAT q) fHIF_CQ_STAT_TAIL) + 32)) :
    tget 0 (u.cqOffer q e).host k = tget 0 u.host k := by
  obtain ⟨hen, hbl, hroom⟩ := hready
  have hout : k < u.cqSlot q (u.fget (rHIF_CQ_STAT q) fHIF_CQ_STAT_TAIL)
      ∨ u.cqSlot q (u.fget (rHIF_CQ_STAT q) fHIF_CQ_STAT_TAIL) + (cqeBytes e (u.flag (rHIF_CQ_STAT q) fHIF_CQ_STAT_PHASE)).length ≤ k := by
    rw [cqeBytes_length]
    omega
  rw [State.cqOffer, if_neg (by simp [hen]), if_pos ⟨hbl, hroom⟩, State.host_cqTest, State.host_cqWrite]
  exact tget_memWrite_out u.host _ _ hout

section
variable {s : State} {q : Fin 32} {h : DescHdr} {opc : Nat} {axial : Bool} (hadm : s.admits q h opc axial)
include hadm

/-- Bytes that a descriptor brought to host memory stand there beside its completion. -/
theorem State.admitted_hostTook {u : State} (hu : u.drawnFrom s q) {a : Nat} {bs : List Byte} (hhost : u.host = memWrite s.host a bs)
    (op : MotionOp) (status payload : Nat) : (u.complete (s.drawnCmd q h opc op) status payload).hostTook s q a bs := by
  obtain ⟨hsrc, -, -, -, hcomp, hready⟩ := hadm
  rw [State.complete_offers hsrc hcomp opc op status payload hu]
  obtain ⟨hnow, hcqs, -, hreg⟩ := hu
  have hlt := s.sqCq_lt q
  have hcq : u.cq (s.sqCq q) = s.cq (s.sqCq q) := by rw [State.cq, State.cq, hcqs]
  have hcfg := hreg (rHIF_CQ_CFG (s.sqCq q)) (by simp only [rHIF_CQ_CFG]; omega)
  have hstat := hreg (rHIF_CQ_STAT (s.sqCq q)) (by simp only [rHIF_CQ_STAT]; omega)
  have hlo := hreg (rHIF_CQ_BASE_LO (s.sqCq q)) (by simp only [rHIF_CQ_BASE_LO]; omega)
  have hhi := hreg (rHIF_CQ_BASE_HI (s.sqCq q)) (by simp only [rHIF_CQ_BASE_HI]; omega)
  have hslot : ∀ i, u.cqSlot (s.sqCq q) i = s.cqSlot (s.sqCq q) i := fun i => by rw [State.cqSlot, hlo, hhi]; rfl
  have htail : u.fget (rHIF_CQ_STAT (s.sqCq q)) fHIF_CQ_STAT_TAIL = s.fget (rHIF_CQ_STAT (s.sqCq q)) fHIF_CQ_STAT_TAIL := by
    rw [State.fget, hstat]
    rfl
  intro k hk
  rw [State.cqOffer_host (State.ringReady_congr hcq hcfg hready) _ (by rw [htail, hslot]; exact hk), hhost]
  exact tget_memWrite s.host a bs k

end

/-! ### Cams (R273, R275) -/

/-- The registers of a cam. -/
def camRegs (c : Nat) : List Nat := [rLPE_CAM_BASE c, rLPE_CAM_N c, rLPE_CAM_STEP c, rLPE_CAM_CTL c]

section
variable (s : State) (c : Nat) (cf : BitVec 4) (base n mstep : Word)

theorem State.camEnter_wrote : (s.camEnter c cf base n mstep).wrote s (camRegs c) := by
  refine ⟨rfl, fun o ho => ?_⟩
  simp only [camRegs, List.mem_cons, List.not_mem_nil, or_false, not_or] at ho
  obtain ⟨hbase, hn, hstep, hctl⟩ := ho
  simp only [State.camEnter, State.fsetb]
  rw [State.rget_fset_ne _ _ _ hctl, State.rget_fset_ne _ _ _ hctl, State.rget_rset_ne _ _ hstep, State.rget_fset_ne _ _ _ hn,
    State.rget_fset_ne _ _ _ hbase]

theorem State.camEnter_n : (s.camEnter c cf base n mstep).camN c = n.toNat % 2 ^ 19 := by
  have hctl : rLPE_CAM_N c ≠ rLPE_CAM_CTL c := by simp only [rLPE_CAM_N, rLPE_CAM_CTL]; omega
  have hstep : rLPE_CAM_N c ≠ rLPE_CAM_STEP c := by simp only [rLPE_CAM_N, rLPE_CAM_STEP]; omega
  simp only [State.camEnter, State.fsetb, State.camN]
  rw [State.fget_fset_reg _ _ _ _ hctl, State.fget_fset_reg _ _ _ _ hctl, State.fget, State.rget_rset_ne _ _ hstep]
  exact State.fget_fset _ _ _ _ (by decide)

theorem State.camEnter_cyclic : (s.camEnter c cf base n mstep).camCyclic c = cf.getLsbD 0 := by
  simp only [State.camEnter, State.fsetb, State.camCyclic, State.flag]
  rw [State.fget_fset_field _ _ _ _ _ (by decide), State.fget_fset _ _ _ _ (by decide)]
  cases cf.getLsbD 0 <;> rfl

end

theorem camRegs_block {c : Nat} (hc : c < 64) : ∀ o ∈ camRegs c, o / 0x100000 = 6 := by
  simp only [camRegs, List.mem_cons, List.not_mem_nil, or_false, rLPE_CAM_BASE, rLPE_CAM_N, rLPE_CAM_STEP, rLPE_CAM_CTL]
  omega

/-- A cam that may be loaded has no more points than fit its directory. -/
theorem State.camPoints_of_notRefused {s : State} {c base n : Nat} (h : s.camRefused c base n = none) : n < 2 ^ 19 := by
  by_contra hge
  have hover : camPoints < base + n ∨ s.camOverlap c base n = true := .inl (by simp only [camPoints]; omega)
  unfold State.camRefused at h
  rw [if_pos hover] at h
  split at h <;> cases h

section
variable {s : State} {q : Fin 32} {h : DescHdr} (hadm : s.admits q h 0x06 true) {cam : BitVec 8} (hcam : cam.toNat < 64)
  (hright : s.portFlag 0 fPLAN_P_FLAGS_CAMW = true)
include hadm hcam hright

section
variable {cf : BitVec 4} {base m mstep : Word} {addr : BitVec 64} (hm : 2 ≤ m.toNat) (hstep : mstep ≠ 0) (haddr : addr.toNat % 8 = 0)
  (hinl : cf.getLsbD 3 = false) (xfer : Word)
include hm hstep haddr

theorem camLoad_refused (pts : Dma (BitVec 64)) {e : Nat} (href : s.camRefused cam.toNat base.toNat m.toNat = some e) :
    s.doCamLoad h cam cf base m mstep addr xfer pts = (s.drawn q).complete (s.drawnCmd q h 0x06 (.camLoad cam cf base m mstep xfer)) e 0 := by
  have href' : (s.drawn q).camRefused cam.toNat base.toNat m.toNat = some e := href
  rw [State.doCamLoad, State.admits_port hadm]
  dsimp only
  rw [State.desc_acts hadm (by simp [hcam, hm, show ¬mstep = 0#32 from hstep, haddr]) hright, href']

/-- The points of an inline load stand in shared SRAM, and the cam in the directory. -/
def State.camLoaded (s : State) (c : Nat) (cf : BitVec 4) (base n mstep : Word) (xs : List (BitVec 64)) : State :=
  (s.sramWrite (0x104000 + 8 * base.toNat) (xs.flatMap (fun x => leBytes 8 x.toNat))).camEnter c cf base n mstep

include hinl in
theorem camLoad_loads {xs : List (BitVec 64)} (hno : s.camRefused cam.toNat base.toNat m.toNat = none) (hlen : xs.length = m.toNat) :
    s.doCamLoad h cam cf base m mstep addr xfer (.ok xs) = ((s.drawn q).camLoaded cam.toNat cf base m mstep xs).complete
      (s.drawnCmd q h 0x06 (.camLoad cam cf base m mstep xfer)) stOK 0 := by
  have hno' : (s.drawn q).camRefused cam.toNat base.toNat m.toNat = none := hno
  rw [State.doCamLoad, State.admits_port hadm]
  dsimp only
  rw [State.desc_acts hadm (by simp [hcam, hm, show ¬mstep = 0#32 from hstep, haddr]) hright, hno']
  dsimp only
  rw [if_neg (by rw [hinl]; simp), ← hlen, List.take_length]
  rfl

end

theorem camFree_frees (hidle : s.fget (rLPE_CAM_CTL cam.toNat) fLPE_CAM_CTL_USERS = 0) :
    s.doCamFree h cam = ((s.drawn q).camEnter cam.toNat 0 0 0 0).complete (s.drawnCmd q h 0x06 .other) stOK 0 := by
  have hidle' : (s.drawn q).fget (rLPE_CAM_CTL cam.toNat) fLPE_CAM_CTL_USERS = 0 := hidle
  rw [State.doCamFree, State.admits_port hadm, State.desc_acts hadm (by simp [hcam]) hright, if_neg (by simp [hidle'])]
  rfl

theorem camFree_busy (hused : s.fget (rLPE_CAM_CTL cam.toNat) fLPE_CAM_CTL_USERS ≠ 0) :
    s.doCamFree h cam = (s.drawn q).complete (s.drawnCmd q h 0x06 .other) stBUSY 0 := by
  have hused' : (s.drawn q).fget (rLPE_CAM_CTL cam.toNat) fLPE_CAM_CTL_USERS ≠ 0 := hused
  rw [State.doCamFree, State.admits_port hadm, State.desc_acts hadm (by simp [hcam]) hright, if_pos hused']

end

theorem State.camLoaded_drawnFrom {s : State} {q : Fin 32} {c : Nat} (hc : c < 64) (cf : BitVec 4) (base n mstep : Word)
    (xs : List (BitVec 64)) : ((s.drawn q).camLoaded c cf base n mstep xs).drawnFrom s q := by
  have hwritten : ∀ a bs, ((s.drawn q).sramWrite a bs).drawnFrom s q := fun _ _ => ⟨rfl, rfl, rfl, fun _ _ => rfl⟩
  rw [State.camLoaded]
  exact State.drawnFrom_wrote (hwritten _ _) (State.camEnter_wrote _ c cf base n mstep) fun o ho => by rw [camRegs_block hc o ho]; decide

theorem State.sram_camLoaded (s : State) (c : Nat) (cf : BitVec 4) (base n mstep : Word) (xs : List (BitVec 64)) :
    (s.camLoaded c cf base n mstep xs).sram = memWrite s.sram (0x104000 + 8 * base.toNat) (xs.flatMap (fun x => leBytes 8 x.toNat)) := by
  rw [State.camLoaded, (State.camEnter_wrote _ c cf base n mstep).1, State.sramWrite]

theorem State.complete_camN (u : State) (c : OpenCmd) (status payload : Nat) {k : Nat} (hk : k < 64) :
    (u.complete c status payload).camN k = u.camN k := u.complete_fget c status payload _ (by simp only [rLPE_CAM_N]; omega)

theorem State.complete_camCyclic (u : State) (c : OpenCmd) (status payload : Nat) {k : Nat} (hk : k < 64) :
    (u.complete c status payload).camCyclic k = u.camCyclic k := by
  rw [State.camCyclic, State.flag, u.complete_fget c status payload _ (by simp only [rLPE_CAM_CTL]; omega)]
  rfl

section
variable {s : State} {q : Fin 32} {h : DescHdr} (hadm : s.admits q h 0x06 true) {cam : BitVec 8} (hcam : cam.toNat < 64)
include hadm hcam

theorem camLoaded_shows {base n : Word} (hno : s.camRefused cam.toNat base.toNat n.toNat = none) (cf : BitVec 4) (mstep : Word)
    (xs : List (BitVec 64)) (op : MotionOp) :
    let t := ((s.drawn q).camLoaded cam.toNat cf base n mstep xs).complete (s.drawnCmd q h 0x06 op) stOK 0
    t.ended s q h 0 0 ∧ t.camN cam.toNat = n.toNat ∧ t.camCyclic cam.toNat = cf.getLsbD 0
      ∧ bytesAt t.sram s.sram (0x104000 + 8 * base.toNat) (xs.flatMap (fun x => leBytes 8 x.toNat)) := by
  refine ⟨State.admitted_ends hadm (State.camLoaded_drawnFrom hcam cf base n mstep xs) op stOK 0, ?_, ?_, ?_⟩
  · rw [State.complete_camN _ _ _ _ hcam, State.camLoaded, State.camEnter_n, Nat.mod_eq_of_lt (State.camPoints_of_notRefused hno)]
  · rw [State.complete_camCyclic _ _ _ _ hcam, State.camLoaded, State.camEnter_cyclic]
  · rw [State.posted_sram (State.complete_posted _ _ _ _ []), State.sram_camLoaded]
    exact tget_memWrite s.sram _ _

theorem camFreed_shows (op : MotionOp) : let t := ((s.drawn q).camEnter cam.toNat 0 0 0 0).complete (s.drawnCmd q h 0x06 op) stOK 0
    t.ended s q h 0 0 ∧ t.camN cam.toNat = 0 ∧ t.sram = s.sram := by
  have hwrote := (s.drawn q).camEnter_wrote cam.toNat 0 0 0 0
  have hu := State.drawnFrom_wrote (s.drawnFrom_drawn q) hwrote fun o ho => by rw [camRegs_block hcam o ho]; decide
  refine ⟨State.admitted_ends hadm hu op stOK 0, ?_, ?_⟩
  · rw [State.complete_camN _ _ _ _ hcam, State.camEnter_n]
    rfl
  · rw [State.posted_sram (State.complete_posted _ _ _ _ []), hwrote.1]
    rfl

end

/-! ### Compare entries (R283, R286, R297) -/

/-- The state with a held entry added at index `i`. -/
def State.entryHeld (s : State) (i : Nat) (x : BitVec 256) : State :=
  (s.setCe i { raw := x, st := .held }).fset rCMP_FREE fCMP_FREE_FREE (s.fget rCMP_FREE fCMP_FREE_FREE - 1)

/-- An entry with its held bit is added and not armed. -/
theorem State.cmpAdd_held (s : State) (i : Nat) {x : BitVec 256} (hheld : ({ raw := x } : CmpEnt).heldBit = true) :
    s.cmpAdd [(i, x)] = s.entryHeld i x := by
  have hce : (s.entryHeld i x).ce i = { raw := x, st := .held } := s.ce_setCe i _
  have hbit : ((s.entryHeld i x).ce i).heldBit = true := by rw [hce]; exact hheld
  exact if_pos hbit

theorem freeReg_block : ∀ o ∈ [rCMP_FREE], o / 0x100000 ≠ 2 := by decide

theorem State.entryHeld_drawnFrom (s : State) (q : Fin 32) (i : Nat) (x : BitVec 256) : ((s.drawn q).entryHeld i x).drawnFrom s q :=
  State.drawnFrom_wrote (v := (s.drawn q).setCe i { raw := x, st := .held }) ⟨rfl, rfl, rfl, fun _ _ => rfl⟩ (State.fset_wrote _ _ _ _)
    freeReg_block

/-- The state with a held entry added, and its index given to host memory where asked. -/
def State.entryGiven (s : State) (i : Nat) (x : BitVec 256) (raddr : Option Nat) : State :=
  match raddr with
  | some a => (s.entryHeld i x).hostWrite a (leBytes 2 i)
  | none => s.entryHeld i x

theorem State.entryGiven_drawnFrom (s : State) (q : Fin 32) (i : Nat) (x : BitVec 256) (raddr : Option Nat) :
    ((s.drawn q).entryGiven i x raddr).drawnFrom s q := by
  cases raddr with
  | none => exact s.entryHeld_drawnFrom q i x
  | some a => exact s.entryHeld_drawnFrom q i x

theorem State.cmp_entryGiven (s : State) (i : Nat) (x : BitVec 256) (raddr : Option Nat) :
    (s.entryGiven i x raddr).cmp = (s.setCe i { raw := x, st := .held }).cmp := by
  cases raddr <;> rfl

/-- One entry with its held bit takes the index allocated, which the completion carries, and which host memory takes where asked. -/
theorem State.addEntries_held {s : State} {p : Nat} {i : Nat} {x : BitVec 256} (hrange : (s.cmpRange p).1 < (s.cmpRange p).2)
    (halloc : s.cmpAlloc (s.cmpRange p).1 ((s.cmpRange p).2 - 1) 1 = some [i]) (hstands : s.entryStands x = true)
    (hheld : ({ raw := x } : CmpEnt).heldBit = true) (c : OpenCmd) (raddr : Option Nat) :
    s.addEntries p c false raddr [x] = (s.entryGiven i x raddr).complete c stOK i := by
  have hlist : [i].flatMap (leBytes 2) = leBytes 2 i := List.flatMap_singleton _ _
  have hadd : s.cmpAdd ([i].zip [x]) = s.entryHeld i x := s.cmpAdd_held i hheld
  rw [State.addEntries, if_neg (by simp [hstands])]
  dsimp only [List.length_cons, List.length_nil]
  rw [if_pos hrange, halloc]
  dsimp only
  rw [if_neg (by decide), hadd, hlist]
  cases raddr <;> rfl

/-- Which entries are free is told by the table alone. -/
theorem freeIdx_congr {s t : State} (h : t.cmp = s.cmp) (hi : Nat) : ∀ fuel i need, freeIdx t hi fuel i need = freeIdx s hi fuel i need := by
  intro fuel
  induction fuel with
  | zero => exact fun _ _ => rfl
  | succ k ih =>
    intro i need
    have hce : t.ce i = s.ce i := by rw [State.ce, State.ce, h]
    rw [freeIdx, freeIdx, hce, ih, ih]

theorem State.cmpAlloc_drawn (s : State) (q : Fin 32) (lo hi n : Nat) : (s.drawn q).cmpAlloc lo hi n = s.cmpAlloc lo hi n := by
  have hcmp : (s.drawn q).cmp = s.cmp := rfl
  rw [State.cmpAlloc, freeIdx_congr hcmp, hcmp]
  rfl

section
variable {s : State} {q : Fin 32} {h : DescHdr} (hadm : s.admits q h 0x07 false) {x : BitVec 256} (hform : entryOK x = true)
  (hright : s.entryRight 0 x = true) (addr raddr : BitVec 64)
include hadm hform hright

theorem cmpadd_acts : s.doCmpadd h 1 raddr (.ok [x]) = (s.drawn q).addEntries 0 (s.drawnCmd q h 0x07 .other) (h.flags.getLsbD 4)
    (if h.flags.getLsbD 3 then none else some raddr.toNat) [x] := by
  have hgood : (decide (1 ≤ (1 : BitVec 16).toNat) && decide ((1 : BitVec 16).toNat ≤ if h.flags.getLsbD 3 = true then 1 else 256)
      && (List.take (1 : BitVec 16).toNat [x]).all entryOK) = true := by
    cases h.flags.getLsbD 3 <;> simp [hform]
  have hgive : (List.take (1 : BitVec 16).toNat [x]).all (s.entryRight 0) = true := by simp [hright]
  rw [State.doCmpadd, State.admits_port hadm, State.desc_acts hadm hgood hgive]
  rfl

theorem cmpadd_falls (hfalls : s.entryStands x = false) : Completes (.cmpadd h addr 1 raddr (.ok [x])) s (fun t =>
    t.ended s q h 1 0 ∧ t.cmp = s.cmp) := by
  have hfalls' : (s.drawn q).entryStands x = false := hfalls
  have hcmp : (s.drawn q).cmp = s.cmp := rfl
  have hx := cmpadd_acts hadm hform hright raddr
  rw [State.addEntries, if_pos (by simp [hfalls'])] at hx
  exact ⟨_, congrArg Host.Outcome.next hx, State.admitted_ends hadm (s.drawnFrom_drawn q) .other stSTATE 0,
    (State.posted_cmp (State.complete_posted _ _ _ _ [])).trans hcmp⟩

theorem cmpadd_holds {i : Nat} (hplain : h.flags.getLsbD 4 = false) (hrange : (s.cmpRange 0).1 < (s.cmpRange 0).2)
    (halloc : s.cmpAlloc (s.cmpRange 0).1 ((s.cmpRange 0).2 - 1) 1 = some [i]) (hstands : s.entryStands x = true)
    (hheld : ({ raw := x } : CmpEnt).heldBit = true) : Completes (.cmpadd h addr 1 raddr (.ok [x])) s (fun t =>
      t.ended s q h 0 i ∧ (t.ce i).raw = x ∧ (t.ce i).st = .held ∧ (∀ k, k ≠ i → t.ce k = s.ce k)
        ∧ (h.flags.getLsbD 3 = false → t.hostTook s q raddr.toNat (leBytes 2 i))) := by
  have hx := cmpadd_acts hadm hform hright raddr
  rw [hplain, State.addEntries_held (s := s.drawn q) hrange ((s.cmpAlloc_drawn q _ _ _).trans halloc) hstands hheld] at hx
  have hu := s.entryGiven_drawnFrom q i x (if h.flags.getLsbD 3 then none else some raddr.toNat)
  have hcmp := (State.posted_cmp (State.complete_posted ((s.drawn q).entryGiven i x (if h.flags.getLsbD 3 then none else some raddr.toNat))
    (s.drawnCmd q h 0x07 .other) stOK i [])).trans (State.cmp_entryGiven _ i x _)
  refine ⟨_, congrArg Host.Outcome.next hx, State.admitted_ends hadm hu .other stOK i, ?_, ?_, fun k hk => ?_, fun hask => ?_⟩
  · rw [State.ce, hcmp, ← State.ce, State.ce_setCe]
  · rw [State.ce, hcmp, ← State.ce, State.ce_setCe]
  · rw [State.ce, hcmp, ← State.ce, State.ce_setCe_ne _ _ hk]
    rfl
  · refine State.admitted_hostTook hadm hu ?_ .other stOK i
    rw [hask]
    rfl

end

/-- The entry at an index is deleted (R297). -/
theorem State.cmpDel_armed {s : State} {i : Nat} (harmed : (s.ce i).st = .armed) : s.cmpDel i = (s.cmpFree i false, rcDELETED) := by
  rw [State.cmpDel, harmed]

theorem cmpdel_deletes {s : State} {q : Fin 32} {h : DescHdr} (hadm : s.admits q h 0x08 false) {i : BitVec 16} (tg tag mask : BitVec 8)
    (hsize : i.toNat < 16384) (hlo : (s.cmpRange 0).1 ≤ i.toNat) (hhi : i.toNat < (s.cmpRange 0).2) (harmed : (s.ce i.toNat).st = .armed) :
    Completes (.cmpdel h 0 i tg tag mask) s (fun t => t.ended s q h 0 rcDELETED ∧ (t.ce i.toNat).st = .free ∧ t.fouts = s.fouts
      ∧ t.gons = s.gons) := by
  have hdel := State.cmpDel_armed (s := s.drawn q) harmed
  have hx : s.doCmpdel h 0 i tg tag mask = ((s.drawn q).cmpFree i.toNat false).complete (s.drawnCmd q h 0x08 .other) stOK rcDELETED := by
    rw [State.doCmpdel, State.admits_port hadm]
    dsimp only
    rw [State.desc_acts hadm (by simp [cmpSize, hsize]) (by simp [hlo, hhi]), if_pos rfl, hdel]
  have hu : ((s.drawn q).cmpFree i.toNat false).drawnFrom s q :=
    State.drawnFrom_wrote (v := (s.drawn q).setCe i.toNat { byFire := false }) ⟨rfl, rfl, rfl, fun _ _ => rfl⟩ (State.fset_wrote _ _ _ _)
      freeReg_block
  have hposted := State.complete_posted ((s.drawn q).cmpFree i.toNat false) (s.drawnCmd q h 0x08 .other) stOK rcDELETED []
  refine ⟨_, congrArg Host.Outcome.next hx, State.admitted_ends hadm hu .other stOK rcDELETED, ?_, ?_, ?_⟩
  · have hce : ((s.drawn q).cmpFree i.toNat false).ce i.toNat = { byFire := false } := (s.drawn q).ce_setCe i.toNat _
    rw [State.ce, State.posted_cmp hposted, ← State.ce, hce]
  · rw [hposted.1]
    rfl
  · rw [hposted.1]
    rfl

/-! ### Latch units (R301) -/

/-- The state with a latch unit's configuration written, where a command asks so. -/
def State.latSet (s : State) (n u : Nat) (setcfg : Bool) (cfg : Word) : State :=
  if setcfg then
    match regRow (rLAT_CFG n u) with
    | some r => s.storeWord r (rLAT_CFG n u) cfg
    | none => s
  else s

theorem State.latSet_wrote (s : State) (n u : Nat) (setcfg : Bool) (cfg : Word) : (s.latSet n u setcfg cfg).wrote s [rLAT_CFG n u] := by
  unfold State.latSet
  split
  · split
    · exact s.storeWord_wrote _ _ _
    · exact s.wrote_refl _
  · exact s.wrote_refl _

theorem absentBits_lat (n u : Nat) : absentBits (rLAT_CFG n u) = 0#32 := by
  refine if_neg fun ⟨_, hle, _⟩ => ?_
  simp only [rLAT_CFG, rTTH_CTL] at hle
  omega

theorem State.rget_latSet (s : State) {n u : Nat} (setcfg : Bool) (cfg : Word) {r : RegRow} (hr : regRow (rLAT_CFG n u) = some r) :
    (s.latSet n u setcfg cfg).rget (rLAT_CFG n u)
      = if setcfg then regStore r (s.rget (rLAT_CFG n u)) cfg else s.rget (rLAT_CFG n u) := by
  cases setcfg with
  | false => rfl
  | true =>
    have hset : s.latSet n u true cfg = s.storeWord r (rLAT_CFG n u) cfg := by rw [State.latSet, if_pos rfl, hr]
    rw [hset, State.storeWord, absentBits_lat, State.rget_rset, if_pos rfl, BitVec.not_zero, BitVec.and_allOnes]

/-- The arm states at the start of the core cycle are told by the axis, the cycle and the status of its units. -/
theorem State.latWas_congr {s t : State} {n : Nat} (hax : t.ax n = s.ax n) (htime : t.time = s.time)
    (hstat : t.rget (rLAT_STAT n) = s.rget (rLAT_STAT n)) : t.latWas n = s.latWas n := by
  simp only [State.latWas, State.flag, State.fget, hax, htime, hstat]

theorem latStat_ne_cfg {n m u : Nat} (hu : u < 2) : rLAT_STAT n ≠ rLAT_CFG m u := by
  simp only [rLAT_STAT, rLAT_CFG]
  omega

theorem State.latWas_latSet (s : State) {n u : Nat} (hu : u < 2) (setcfg : Bool) (cfg : Word) :
    (s.latSet n u setcfg cfg).latWas n = s.latWas n := by
  have hwrote := s.latSet_wrote n u setcfg cfg
  exact State.latWas_congr (by rw [hwrote.1]; rfl) (by rw [hwrote.1])
    (hwrote.2 _ (by simpa using latStat_ne_cfg hu))

/-- An operation on the latch units of axis `n` changes that axis and the units' status. -/
def State.latActed (t s : State) (n : Nat) : Prop := t.wrote { s with axes := t.axes } [rLAT_STAT n] ∧ ∀ m, m ≠ n → t.ax m = s.ax m

theorem State.latArm_acted (s : State) (n u : Nat) (b : Bool) : (s.latArm n u b).latActed s n :=
  ⟨State.fset_wrote (s.updAx n (fun a => { a with armCyc := some s.time.cycles, armOld := s.latWas n })) _ _ _, fun _ hm => by
    rw [State.latArm, State.fsetb, State.ax_fset]
    exact s.ax_updAx_ne _ hm⟩

theorem State.latArm_shows (s : State) (n : Nat) {u : Nat} (hu : u < 2) (b : Bool) :
    (s.latArm n u b).flag (rLAT_STAT n) (latArmed u) = b ∧ (s.latArm n u b).latWas n = s.latWas n := by
  constructor
  · rw [State.flag, State.latArm, State.fsetb, State.fget_fset _ _ _ _ (by simp only [latArmed]; omega)]
    cases b <;> rfl
  · have hax : (s.latArm n u b).ax n = { s.ax n with armCyc := some s.time.cycles, armOld := s.latWas n } := by
      rw [State.latArm, State.fsetb, State.ax_fset, State.ax_updAx]
    rw [State.latWas, hax]
    exact if_pos rfl

/-- The state with the queue of an axis's latch records emptied. -/
def State.latFlushed (s : State) (n : Nat) : State := (s.updAx n (fun a => { a with lat := [] })).latShow n

theorem State.latFlushed_acted (s : State) (n : Nat) : (s.latFlushed n).latActed s n := by
  refine ⟨?_, fun _ hm => by
    rw [State.latFlushed, State.latShow, State.fsetb, State.ax_fset, State.ax_fset]
    exact s.ax_updAx_ne _ hm⟩
  exact State.wrote_mono (State.wrote_trans (State.fset_wrote _ _ _ _)
    (State.fset_wrote (s.updAx n (fun a => { a with lat := [] })) (rLAT_STAT n) _ _)) (by simp)

theorem State.latFlushed_shows (s : State) (n : Nat) : ((s.latFlushed n).ax n).lat = [] ∧ (s.latFlushed n).fget (rLAT_STAT n) fLAT_STAT_CNT = 0 := by
  have hax : (s.updAx n (fun a => { a with lat := [] })).ax n = { s.ax n with lat := [] } := s.ax_updAx n _
  constructor
  · rw [State.latFlushed, State.latShow, State.fsetb, State.ax_fset, State.ax_fset, hax]
  · rw [State.latFlushed, State.latShow, State.fsetb, State.fget_fset_field _ _ _ _ _ (by decide), State.fget_fset _ _ _ _ (by decide), hax]
    rfl

section
variable {s : State} {q : Fin 32} {h : DescHdr} (hadm : s.admits q h 0x09 true)
include hadm

/-- LATARM writes the unit's configuration where asked, acts, and completes. -/
theorem latCommand_acts (hperm : s.perm 0 h.axis.toNat pmCMP = true) {op : Nat} (hop : op ≤ 2) {u : Fin 2} {setcfg : Bool} {cfg : Word}
    (hring : setcfg = true → s.ringOK 0 (bget cfg fLAT_CFG_CQ) = true) :
    s.doLatarm h op (BitVec.ofNat 8 u.val).toNat setcfg cfg = (match op with
      | 0 => ((s.drawn q).latSet h.axis.toNat u setcfg cfg).latArm h.axis.toNat u true
      | 1 => ((s.drawn q).latSet h.axis.toNat u setcfg cfg).latArm h.axis.toNat u false
      | _ => ((s.drawn q).latSet h.axis.toNat u setcfg cfg).latFlushed h.axis.toNat).complete (s.drawnCmd q h 0x09 .other) stOK 0 := by
  have hunit : (BitVec.ofNat 8 u.val).toNat = u.val := Nat.mod_eq_of_lt (by omega)
  have hright : (s.perm 0 h.axis.toNat pmCMP && (!setcfg || s.ringOK 0 (bget cfg fLAT_CFG_CQ))) = true := by
    cases setcfg with
    | false => simp [hperm]
    | true => simp [hperm, hring rfl]
  rw [State.doLatarm, State.admits_port hadm, hunit]
  dsimp only
  rw [State.desc_acts hadm (by simp [hop, Nat.le_of_lt_succ u.isLt]) hright]
  rfl

/-- What LATARM leaves, for each of its operations `v`. -/
theorem latCommand_done {u : Fin 2} (setcfg : Bool) (cfg : Word) {v : State} (hv : v.latActed ((s.drawn q).latSet h.axis.toNat u setcfg cfg) h.axis.toNat) :
    let t := v.complete (s.drawnCmd q h 0x09 .other) stOK 0
    t.ended s q h 0 0 ∧ (∀ m, m ≠ h.axis.toNat → t.ax m = s.ax m) ∧ ∀ r, regRow (rLAT_CFG h.axis.toNat u) = some r →
      t.rget (rLAT_CFG h.axis.toNat u) = if setcfg then regStore r (s.rget (rLAT_CFG h.axis.toNat u)) cfg else s.rget (rLAT_CFG h.axis.toNat u) := by
  have haxis := h.axis.isLt
  have hset := (s.drawn q).latSet_wrote h.axis.toNat u setcfg cfg
  have hwrote : v.wrote { s.drawn q with axes := v.axes } [rLAT_STAT h.axis.toNat, rLAT_CFG h.axis.toNat u] := by
    obtain ⟨hvs, hvr⟩ := hv.1
    refine ⟨by rw [hvs, hset.1], fun o ho => ?_⟩
    simp only [List.mem_cons, List.not_mem_nil, or_false, not_or] at ho
    exact (hvr o (by simpa using ho.1)).trans (hset.2 o (by simpa using ho.2))
  have hu : v.drawnFrom s q := State.drawnFrom_wrote (v := { s.drawn q with axes := v.axes }) ⟨rfl, rfl, rfl, fun _ _ => rfl⟩ hwrote (by
    simp only [List.mem_cons, List.not_mem_nil, or_false, rLAT_STAT, rLAT_CFG]
    omega)
  refine ⟨State.admitted_ends hadm hu .other stOK 0, fun m hm => ?_, fun r hr => ?_⟩
  · rw [State.complete_ax, hv.2 m hm, State.ax, hset.1]
    rfl
  · have hkept := hv.1.2 (rLAT_CFG h.axis.toNat u) (by simpa using (latStat_ne_cfg u.isLt).symm)
    rw [State.complete_rget _ _ _ _ (by simp only [rLAT_CFG]; omega), hkept]
    exact (s.drawn q).rget_latSet setcfg cfg hr

omit hadm in
/-- The arm state and the arm states at the start of the cycle, once an arming completes. -/
theorem latCommand_armed (u : Fin 2) (setcfg : Bool) (cfg : Word) (b : Bool) :
    let t := (((s.drawn q).latSet h.axis.toNat u setcfg cfg).latArm h.axis.toNat u b).complete (s.drawnCmd q h 0x09 .other) stOK 0
    t.flag (rLAT_STAT h.axis.toNat) (latArmed u) = b ∧ t.latWas h.axis.toNat = s.latWas h.axis.toNat := by
  have haxis := h.axis.isLt
  have hblock : 3 ≤ rLAT_STAT h.axis.toNat / 0x100000 ∧ rLAT_STAT h.axis.toNat / 0x100000 ≤ 9 := by simp only [rLAT_STAT]; omega
  obtain ⟨hflag, hwas⟩ := ((s.drawn q).latSet h.axis.toNat u setcfg cfg).latArm_shows h.axis.toNat u.isLt b
  have hposted := State.complete_posted (((s.drawn q).latSet h.axis.toNat u setcfg cfg).latArm h.axis.toNat u b) (s.drawnCmd q h 0x09 .other) stOK 0 []
  constructor
  · rw [State.flag, State.complete_fget _ _ _ _ _ hblock]
    exact hflag
  · have htime := congrArg State.time hposted.1
    refine (State.latWas_congr (State.complete_ax _ _ _ _ _) htime (State.complete_rget _ _ _ _ hblock)).trans (hwas.trans ?_)
    exact (s.drawn q).latWas_latSet u.isLt setcfg cfg

omit hadm in
/-- The queue of the axis is empty once a flush completes. -/
theorem latCommand_flushed (u : Fin 2) (setcfg : Bool) (cfg : Word) :
    let t := (((s.drawn q).latSet h.axis.toNat u setcfg cfg).latFlushed h.axis.toNat).complete (s.drawnCmd q h 0x09 .other) stOK 0
    (t.ax h.axis.toNat).lat = [] ∧ t.fget (rLAT_STAT h.axis.toNat) fLAT_STAT_CNT = 0 := by
  have haxis := h.axis.isLt
  obtain ⟨hlat, hcnt⟩ := ((s.drawn q).latSet h.axis.toNat u setcfg cfg).latFlushed_shows h.axis.toNat
  constructor
  · rw [State.complete_ax]
    exact hlat
  · rw [State.complete_fget _ _ _ _ _ (by simp only [rLAT_STAT]; omega)]
    exact hcnt

end

/-! ### READ of the present time (R380, R387) -/

theorem lo32_toNat (x : BitVec 64) : (lo32 x).toNat = x.toNat % 2 ^ 32 := BitVec.toNat_setWidth 32 x

theorem hi32_toNat (x : BitVec 64) : (hi32 x).toNat = x.toNat / 2 ^ 32 := by
  have hx := x.isLt
  rw [hi32, BitVec.toNat_setWidth, BitVec.toNat_ushiftRight, Nat.shiftRight_eq_div_pow]
  omega

/-- The bytes of a 64-bit value are those of its two words. -/
theorem leBytes_words (x : BitVec 64) : leBytes 4 (lo32 x).toNat ++ leBytes 4 (hi32 x).toNat = leBytes 8 x.toNat := by
  have hbyte : ∀ {a b : Nat}, a % 256 = b % 256 → BitVec.ofNat 8 a = BitVec.ofNat 8 b := fun h => BitVec.eq_of_toNat_eq h
  rw [lo32_toNat, hi32_toNat]
  simp only [leBytes, List.cons_append, List.nil_append, List.cons.injEq, and_true]
  refine ⟨?_, ?_, ?_, ?_, ?_, ?_, ?_, ?_⟩ <;> exact hbyte (by omega)

/-- What the time object gives, as the bytes that READ brings to host memory. -/
theorem ftNow_bytes (s : State) : (List.range 8).flatMap (fun k => leBytes 4 ((mboFtNow s).data.getD k 0).toNat)
    = leBytes 8 s.now.toNat ++ leBytes 4 s.time.frac.toNat ++ leBytes 4 s.time.incI.toNat ++ leBytes 4 s.time.incF.toNat
      ++ List.replicate 12 0 := by
  have hinc : (s.time.incI.setWidth 32).toNat = s.time.incI.toNat := BitVec.toNat_setWidth_of_le (by decide)
  have hdata : (List.range 8).flatMap (fun k => leBytes 4 ((mboFtNow s).data.getD k 0).toNat)
      = leBytes 4 (lo32 s.now).toNat ++ (leBytes 4 (hi32 s.now).toNat ++ (leBytes 4 s.time.frac.toNat
        ++ (leBytes 4 (s.time.incI.setWidth 32).toNat ++ (leBytes 4 s.time.incF.toNat ++ List.replicate 12 0)))) := by
    have hrange : List.range 8 = [0, 1, 2, 3, 4, 5, 6, 7] := by decide
    have hzero : List.replicate 12 (0 : Byte) = leBytes 4 (0 : Word).toNat ++ (leBytes 4 (0 : Word).toNat ++ leBytes 4 (0 : Word).toNat) := by decide
    rw [hrange, hzero]
    simp only [List.flatMap_cons, List.flatMap_nil, List.append_nil]
    rfl
  rw [hdata, hinc, ← leBytes_words]
  simp only [List.append_assoc]

theorem read_now {s : State} {q : Fin 32} {h : DescHdr} (hadm : s.admits q h 0x0A false) {addr : BitVec 64} (haddr : addr.toNat % 32 = 0)
    (hright : s.portFlag 0 fPLAN_P_FLAGS_RDEV = true) : Completes (.read h 0x001 0 addr) s (fun t => t.ended s q h 0 0
      ∧ t.hostTook s q addr.toNat (leBytes 8 s.now.toNat ++ leBytes 4 s.time.frac.toNat
        ++ leBytes 4 s.time.incI.toNat ++ leBytes 4 s.time.incF.toNat ++ List.replicate 12 0)) := by
  have hx : s.doRead h 0x001 0 addr = ((s.drawn q).hostWrite addr.toNat ((List.range 8).flatMap (fun k =>
      leBytes 4 ((mboFtNow (s.drawn q)).data.getD k 0).toNat))).complete (s.drawnCmd q h 0x0A .other) stOK 0 := by
    have hobj : mboForRead (0x001 : BitVec 16).toNat (BitVec.ofNat 14 (min (0 : BitVec 16).toNat 0x3FFF)) = some mboFtNow := rfl
    have hglobal : mboAxial (0x001 : BitVec 16).toNat = false := rfl
    rw [State.doRead, State.admits_port hadm]
    dsimp only
    rw [hobj, hglobal, if_neg (by decide), State.desc_acts hadm (by rw [haddr]; rfl) hright]
    rfl
  rw [ftNow_bytes] at hx
  have hu : ∀ bs, ((s.drawn q).hostWrite addr.toNat bs).drawnFrom s q := fun _ => ⟨rfl, rfl, rfl, fun _ _ => rfl⟩
  exact ⟨_, congrArg Host.Outcome.next hx, State.admitted_ends hadm (hu _) .other stOK 0, State.admitted_hostTook hadm (hu _) rfl .other stOK 0⟩

/-! ### CFGSTAGE (R437) -/

/-- A register with a shadow belongs neither to the host interface nor to the mailbox's block and those above. -/
theorem block_of_sh {o : Nat} {r : RegRow} (hr : regRow o = some r) (hsh : r.sh ≠ 0) : o / 0x100000 ≠ 2 ∧ o < 0xE00000 := by
  have hmem : r ∈ regRows (o / 0x100000) := List.mem_of_find?_eq_some hr
  have hhif : ∀ q ∈ regRows 2, q.sh = 0 := by decide
  exact ⟨fun he => hsh (hhif r (he ▸ hmem)), lt_mailbox_of_sh hr hsh⟩

theorem postReg_of_sh {o : Nat} (hblock : o / 0x100000 ≠ 2 ∧ o < 0xE00000) : postReg o = false := by
  rw [Bool.eq_false_iff]
  intro hp
  simp only [postReg, Bool.or_eq_true, List.any_eq_true, List.mem_range, beq_iff_eq, rHIF_CQ_STAT, rHIF_CQ_LOST, rMSIX_PBA, rFLOG_STAT,
    rFLOG_LOST] at hp
  obtain ((⟨q, _, hp⟩ | ⟨q, _, hp⟩) | hp) | ⟨q, _, hp⟩ := hp <;> omega

theorem State.stage_sh {s : State} {o : Nat} {r : RegRow} (hr : regRow o = some r) (hcan : canReg o = false) (v : Word) :
    s.stage o v = s.rset o ((s.rget o &&& ~~~(BitVec.ofNat 32 r.sh &&& ~~~absentBits o)) ||| (v &&& (BitVec.ofNat 32 r.sh &&& ~~~absentBits o))) := by
  rw [State.stage, hr]
  dsimp only
  rw [if_neg (by simp [hcan])]

theorem cfgstage_stages {s : State} {q : Fin 32} {h : DescHdr} (hadm : s.admits q h 0x0B false) (addr : BitVec 64) {x : BitVec 64} {r : RegRow}
    (hr : regRow (lo32 x).toNat = some r) (hsh : r.sh ≠ 0) (hright : s.stageRight 0 (lo32 x).toNat = true)
    (hcan : canReg (lo32 x).toNat = false) : Completes (.cfgstage h addr 1 (.ok [x])) s (fun t =>
      let m := BitVec.ofNat 32 r.sh &&& ~~~absentBits (lo32 x).toNat
      t.ended s q h 0 0 ∧ t.work = s.work ∧ t.rget (lo32 x).toNat = ((s.rget (lo32 x).toNat &&& ~~~m) ||| (hi32 x &&& m))) := by
  have hblock := block_of_sh hr hsh
  have hgood : (decide (1 ≤ (1 : BitVec 16).toNat) && decide ((1 : BitVec 16).toNat ≤ if h.flags.getLsbD 3 = true then 5 else 1024)
      && (List.take (1 : BitVec 16).toNat [x]).all (fun x => stages (pairOff x))) = true := by
    have hstages : stages (pairOff x) = true := by simp [stages, pairOff, hr, hsh]
    cases h.flags.getLsbD 3 <;> simp [hstages]
  have hgive : (List.take (1 : BitVec 16).toNat [x]).all (fun x => s.stageRight 0 (pairOff x)) = true := by simp [pairOff, hright]
  have hx : s.doCfgstage h 1 (.ok [x]) = ((s.drawn q).stage (lo32 x).toNat (hi32 x)).complete (s.drawnCmd q h 0x0B .other) stOK 0 := by
    rw [State.doCfgstage, State.admits_port hadm, State.desc_acts hadm hgood hgive]
    rfl
  rw [State.stage_sh hr hcan] at hx
  obtain ⟨w, hw⟩ : ∃ w, w = ((s.rget (lo32 x).toNat &&& ~~~(BitVec.ofNat 32 r.sh &&& ~~~absentBits (lo32 x).toNat))
      ||| (hi32 x &&& (BitVec.ofNat 32 r.sh &&& ~~~absentBits (lo32 x).toNat))) := ⟨_, rfl⟩
  have hx' : s.doCfgstage h 1 (.ok [x]) = ((s.drawn q).rset (lo32 x).toNat w).complete (s.drawnCmd q h 0x0B .other) stOK 0 := by rw [hx, hw]; rfl
  have hwrote : ((s.drawn q).rset (lo32 x).toNat w).wrote (s.drawn q) [(lo32 x).toNat] :=
    ⟨rfl, fun _ ho => State.rget_rset_ne _ _ (by simpa using ho)⟩
  have hu := State.drawnFrom_wrote (s.drawnFrom_drawn q) hwrote (by simpa using hblock.1)
  have hposted := State.complete_posted ((s.drawn q).rset (lo32 x).toNat w) (s.drawnCmd q h 0x0B .other) stOK 0 []
  refine ⟨_, congrArg Host.Outcome.next hx', State.admitted_ends hadm hu .other stOK 0, (State.posted_work hposted).trans rfl, ?_⟩
  rw [hposted.2.1 _ (postReg_of_sh hblock) List.not_mem_nil, State.rget_rset, hw]

/-! ### TXTS (R42, R380) -/

section
variable {u v : State} {p : Fin 2}

theorem txtsPort (p : Fin 2) : (BitVec.ofNat 14 p.val).toNat = p.val := Nat.mod_eq_of_lt (by omega)

theorem mboFtTxts_none (h : u.txtsPop p = (v, none)) : mboFtTxts (BitVec.ofNat 14 p) u = ⟨v, mbxOK, [0, 0, 0]⟩ := by
  rw [mboFtTxts, txtsPort, if_neg (by omega), h]

theorem mboFtTxts_some {f : BitVec 16} {x : FTime} (h : u.txtsPop p = (v, some (f, x))) :
    mboFtTxts (BitVec.ofNat 14 p) u = ⟨v, mbxOK, BitVec.ofNat 32 (f.toNat + 0x80000000) :: words64 x⟩ := by
  rw [mboFtTxts, txtsPort, if_neg (by omega), h]

theorem State.txtsPop_none (h : tget [] u.time.txts p = []) : u.txtsPop p = (u, none) := by
  rw [State.txtsPop, h]

theorem State.txtsPop_some {f : BitVec 16} {x : FTime} {rest : List (BitVec 16 × FTime)} (h : tget [] u.time.txts p = (f, x) :: rest) :
    u.txtsPop p = (u.txtsTaken p rest, some (f, x)) := by
  rw [State.txtsPop, h, State.txtsTaken]

theorem State.queue_of_txtsPop_none (h : (u.txtsPop p).2 = none) : tget [] u.time.txts p = [] := by
  cases hq : tget [] u.time.txts p with
  | nil => rfl
  | cons e rest =>
    rw [State.txtsPop, hq] at h
    cases h

theorem State.queue_of_txtsPop_some {e : BitVec 16 × FTime} (h : (u.txtsPop p).2 = some e) : ∃ rest, tget [] u.time.txts p = e :: rest := by
  cases hq : tget [] u.time.txts p with
  | nil =>
    rw [State.txtsPop, hq] at h
    cases h
  | cons e' rest =>
    rw [State.txtsPop, hq] at h
    exact ⟨rest, by rw [Option.some.inj h]⟩

end

theorem State.drawn_time (s : State) (q : Fin 32) : (s.drawn q).time = s.time := rfl

/-- The payload of a completed TXTS: the stamp, its frame's number, and whether there is one (R387). -/
def txtsPayload (data : List Word) : Nat :=
  (data.getD 1 0).toNat + (data.getD 2 0).toNat * 2 ^ 32 + ((data.getD 0 0).toNat % 65536) * 2 ^ 64 + ((data.getD 0 0).toNat / 2 ^ 31) * 2 ^ 80

theorem txtsPayload_none : txtsPayload [0, 0, 0] = 0 := by decide

theorem txtsPayload_some (f : BitVec 16) (x : FTime) :
    txtsPayload (BitVec.ofNat 32 (f.toNat + 0x80000000) :: words64 x) = x.toNat + f.toNat * 2 ^ 64 + 2 ^ 80 := by
  have hf := f.isLt
  have hword : (BitVec.ofNat 32 (f.toNat + 0x80000000)).toNat = f.toNat + 0x80000000 := by
    rw [BitVec.toNat_ofNat]
    omega
  simp only [txtsPayload, words64, List.getD_cons_zero, List.getD_cons_succ, lo32_toNat, hi32_toNat, hword]
  omega

section
variable {s : State} {q : Fin 32} {h : DescHdr} (hadm : s.admits q h 0x0E false) (p : Fin 2)
include hadm

/-- TXTS completes with the answer of the mailbox's object on its port. -/
theorem txts_acts {r : MbxRes} (hr : mboFtTxts (BitVec.ofNat 14 p) (s.drawn q) = r) :
    s.doTxts h (BitVec.ofNat 8 p) = r.st.complete (s.drawnCmd q h 0x0E .other) stOK (txtsPayload r.data) := by
  have hport : (BitVec.ofNat 8 p.val).toNat = p.val := Nat.mod_eq_of_lt (by omega)
  rw [State.doTxts, hport, State.desc_acts hadm (by simp [Nat.le_of_lt_succ p.isLt]) rfl, ← hr]
  rfl

theorem txts_empty (hnone : (s.txtsPop p).2 = none) : Completes (.txts h (BitVec.ofNat 8 p)) s (fun t => t.ended s q h 0 0) := by
  have hpop : (s.drawn q).txtsPop p = (s.drawn q, none) := State.txtsPop_none (by rw [s.drawn_time]; exact State.queue_of_txtsPop_none hnone)
  have hx := txts_acts hadm p (mboFtTxts_none hpop)
  rw [txtsPayload_none] at hx
  exact ⟨_, congrArg Host.Outcome.next hx, State.admitted_ends hadm (s.drawnFrom_drawn q) .other stOK 0⟩

theorem txts_stamp {f : BitVec 16} {x : FTime} (hsome : (s.txtsPop p).2 = some (f, x)) :
    Completes (.txts h (BitVec.ofNat 8 p)) s (fun t => t.ended s q h 0 (x.toNat + f.toNat * 2 ^ 64 + 2 ^ 80)) := by
  obtain ⟨rest, hqueue⟩ := State.queue_of_txtsPop_some hsome
  have hpop : (s.drawn q).txtsPop p = ((s.drawn q).txtsTaken p rest, some (f, x)) := State.txtsPop_some (by rw [s.drawn_time]; exact hqueue)
  have hu : ((s.drawn q).txtsTaken p rest).drawnFrom s q :=
    State.drawnFrom_wrote (v := (s.drawn q).updTime (fun u => { u with txts := tset [] u.txts p rest })) ⟨rfl, rfl, rfl, fun _ _ => rfl⟩
      (State.fset_wrote _ _ _ _) (by decide)
  have hx := txts_acts hadm p (mboFtTxts_some hpop)
  rw [txtsPayload_some] at hx
  exact ⟨_, congrArg Host.Outcome.next hx, State.admitted_ends hadm hu .other stOK _⟩

end

/-! ### What the flight log changes -/

/-- Of `s` only the flight log and registers of its block changed. -/
def State.logged (t s : State) : Prop := t = { s with regs := t.regs, flog := t.flog } ∧ ∀ o, o / 0x100000 ≠ 0xE → t.rget o = s.rget o

theorem State.logged_refl (s : State) : s.logged s := ⟨rfl, fun _ _ => rfl⟩

theorem State.logged_trans {s t u : State} (h : u.logged t) (h' : t.logged s) : u.logged s := by
  obtain ⟨hu, hur⟩ := h
  obtain ⟨ht, htr⟩ := h'
  exact ⟨by rw [hu, ht], fun o ho => (hur o ho).trans (htr o ho)⟩

theorem State.logged_flog (s : State) (f : FLog) : State.logged { s with flog := f } s := ⟨rfl, fun _ _ => rfl⟩

theorem State.logged_wrote {s u : State} {o : Nat} (h : u.wrote s [o]) (ho : o / 0x100000 = 0xE) : u.logged s :=
  ⟨by rw [h.1], fun p hp => h.2 p (by rw [List.mem_singleton]; rintro rfl; exact hp ho)⟩

theorem State.flogLose_logged (s : State) {typ : Nat} (h : typ ≤ 6) : (s.flogLose typ).logged s := by
  have hlost : rFLOG_LOST (flogLostIdx typ) / 0x100000 = 0xE := by
    have hlt := flogLostIdx_lt h
    simp only [rFLOG_LOST]
    omega
  exact State.logged_trans (State.logged_flog _ _)
    (State.logged_trans (State.logged_wrote (State.fset_wrote _ _ _ _) (by decide)) (State.logged_wrote (State.count_wrote _ _) hlost))

theorem State.flogStage_logged (s : State) (r : BitVec 256) : (s.flogStage r).logged s := by
  unfold State.flogStage
  split <;> exact State.logged_flog _ _

theorem State.flogAdd_logged (s : State) {typ : Nat} (source : Nat) (ft : FTime) (data : BitVec 128) (h : typ ≤ 6) :
    (s.flogAdd typ source ft data).logged s := by
  unfold State.flogAdd
  dsimp only
  repeat' split
  · exact s.logged_refl
  · exact s.logged_refl
  · exact State.logged_flog s _
  · exact State.logged_trans (State.flogLose_logged _ h) (State.logged_flog s _)
  · exact State.logged_trans (State.flogStage_logged _ _) (State.logged_flog s _)

theorem State.flogCommit_logged (s : State) (src dst moved : Nat) : (s.flogCommit src dst moved).logged s := s.flogAdd_logged _ _ _ (by decide)

theorem State.drawnFrom_logged {u v s : State} {q : Fin 32} (hv : v.drawnFrom s q) (hu : u.logged v) : u.drawnFrom s q := by
  obtain ⟨hnow, hcqs, hsqs, hreg⟩ := hv
  obtain ⟨hs, hr⟩ := hu
  exact ⟨by rw [hs]; exact hnow, by rw [hs]; exact hcqs, by rw [hs]; exact hsqs, fun o ho => (hr o (by omega)).trans (hreg o ho)⟩

/-! ### COMMIT (R438, R439, R441) -/

/-- The state with other rings' staging and open commands. -/
def State.withCmds (s : State) (sqs : Tbl Sq) (last : Nat) (cmds : Tbl (Option OpenCmd)) (next : Nat) : State :=
  { s with sqs := sqs, sqLast := last, cmds := cmds, nextCmd := next }

/-- The state in which a command of ring `q` is open. -/
def State.drawnOpen (s : State) (q : Fin 32) (c : OpenCmd) : State := ((s.drawn q).openCmd c).1

theorem State.cmd_drawnOpen (s : State) (q : Fin 32) (c : OpenCmd) : (s.drawnOpen q c).cmd s.nextCmd = some c :=
  (s.drawn q).cmd_setCmd s.nextCmd (some c)

theorem State.drawnOpen_eq (s : State) (q : Fin 32) (c : OpenCmd) :
    s.drawnOpen q c = s.withCmds (s.drawn q).sqs q (s.setCmd s.nextCmd (some c)).cmds (s.nextCmd + 1) := rfl

theorem State.drawnOpen_drawnFrom (s : State) (q : Fin 32) (c : OpenCmd) : (s.drawnOpen q c).drawnFrom s q := by
  rw [State.drawnOpen_eq]
  exact ⟨rfl, rfl, rfl, fun _ _ => rfl⟩

/-- Opening a command leaves the paths of commits and migrations and the pilots. -/
theorem State.drawnOpen_keeps (s : State) (q : Fin 32) (c : OpenCmd) : (s.drawnOpen q c).commit = s.commit ∧ (s.drawnOpen q c).mig = s.mig
    ∧ (s.drawnOpen q c).swapping = s.swapping ∧ (s.drawnOpen q c).pilotReady = s.pilotReady ∧ (s.drawnOpen q c).now = s.now := by
  rw [State.drawnOpen_eq]
  exact ⟨rfl, rfl, rfl, rfl, rfl⟩

/-- The state in which the refusal of a commit for a reason other than admission is noted and logged (R441). -/
def State.commitMarked (s : State) (cause : Nat) : State :=
  ((s.raise rGLB_COMMIT_STAT fGLB_COMMIT_STAT_REFUSED).fset rGLB_COMMIT_STAT fGLB_COMMIT_STAT_CAUSE cause).flogCommit 0 0 0

theorem State.commitRefuse_busy (s : State) (k : Nat) :
    s.commitRefuse (some k) { cause := ccBUSY } = (s.commitMarked ccBUSY).finish k stREFUSED 0 := rfl

theorem State.commitMarked_logged (s : State) (cause : Nat) : (s.commitMarked cause).logged
    ((s.raise rGLB_COMMIT_STAT fGLB_COMMIT_STAT_REFUSED).fset rGLB_COMMIT_STAT fGLB_COMMIT_STAT_CAUSE cause) := State.flogCommit_logged _ _ _ _

/-- Of `s`, the note of a refusal changes the state of the commit path and the flight log alone. -/
theorem State.commitMarked_shows (s : State) (cause : Nat) : (s.commitMarked cause).cmds = s.cmds ∧ (s.commitMarked cause).commit = s.commit
    ∧ (s.commitMarked cause).fget rGLB_COMMIT_STAT fGLB_COMMIT_STAT_CAUSE = cause % 16 := by
  obtain ⟨hs, hr⟩ := s.commitMarked_logged cause
  refine ⟨by rw [hs]; rfl, by rw [hs]; rfl, ?_⟩
  rw [State.fget, hr rGLB_COMMIT_STAT (by decide)]
  exact State.fget_fset _ _ _ _ (by decide)

theorem State.commitMarked_drawnFrom {s v : State} {q : Fin 32} (hv : v.drawnFrom s q) (cause : Nat) : (v.commitMarked cause).drawnFrom s q :=
  State.drawnFrom_logged (State.drawnFrom_wrote (State.drawnFrom_wrote hv (State.fset_wrote _ _ _ _) (by decide)) (State.fset_wrote _ _ _ _)
    (by decide)) (v.commitMarked_logged cause)

/-- A command that is open completes and is forgotten. -/
theorem State.finish_open {s : State} {k : Nat} {c : OpenCmd} (h : s.cmd k = some c) (status payload : Nat) :
    s.finish k status payload = (s.complete c status payload).setCmd k none := by
  rw [State.finish, h]

section
variable {s : State} {q : Fin 32} {h : DescHdr} {groups : BitVec 8} (axsel : BitVec 256) (x : FTime)

section
variable (hadm : s.admits q h 0x0C false) (hgroups : groups &&& 1 = 0) (hlate : h.flags.getLsbD 2 = false)
  (hright : s.portFlag 0 fPLAN_P_FLAGS_CFGG = true)
include hadm hgroups hlate hright

theorem commit_acts : s.doCommit h groups axsel x
    = (s.drawnOpen q (s.drawnCmd q h 0x0C .other)).commitOffer groups axsel (if x = 0 then none else some x) (some s.nextCmd) false := by
  have haxis : groups.getLsbD 0 = false := by
    have hbit := congrArg (fun w : BitVec 8 => w.getLsbD 0) hgroups
    simpa using hbit
  rw [State.doCommit, State.admits_port hadm]
  dsimp only
  rw [State.desc_acts hadm rfl (by rw [haxis, hright]; simp), hlate]
  rfl

theorem commit_busy (hbusy : s.commit.isSome = true) : Completes (.commit h groups axsel x) s (fun t =>
    t.ended s q h 5 0 ∧ t.commit = s.commit ∧ t.fget rGLB_COMMIT_STAT fGLB_COMMIT_STAT_CAUSE = 3) := by
  obtain ⟨u, hu⟩ : ∃ u, u = s.drawnOpen q (s.drawnCmd q h 0x0C .other) := ⟨_, rfl⟩
  have hfrom : u.drawnFrom s q := hu ▸ s.drawnOpen_drawnFrom q _
  have hopen : u.cmd s.nextCmd = some (s.drawnCmd q h 0x0C .other) := hu ▸ s.cmd_drawnOpen q _
  obtain ⟨hcommit, -⟩ := s.drawnOpen_keeps q (s.drawnCmd q h 0x0C .other)
  rw [← hu] at hcommit
  obtain ⟨hcmds, hkept, hcause⟩ := u.commitMarked_shows ccBUSY
  have hopen' : (u.commitMarked ccBUSY).cmd s.nextCmd = some (s.drawnCmd q h 0x0C .other) := by rw [State.cmd, hcmds]; exact hopen
  have hx : s.doCommit h groups axsel x
      = ((u.commitMarked ccBUSY).complete (s.drawnCmd q h 0x0C .other) stREFUSED 0).setCmd s.nextCmd none := by
    rw [commit_acts axsel x hadm hgroups hlate hright, ← hu, State.commitOffer, if_pos (.inl (by rw [hcommit]; exact hbusy)),
      State.commitRefuse_busy, State.finish_open hopen']
  have hposted := (u.commitMarked ccBUSY).complete_posted (s.drawnCmd q h 0x0C .other) stREFUSED 0 []
  obtain ⟨v, hv⟩ : ∃ v, v = (u.commitMarked ccBUSY).complete (s.drawnCmd q h 0x0C .other) stREFUSED 0 := ⟨_, rfl⟩
  have hended : v.ended s q h 5 0 := hv ▸ State.admitted_ends hadm (State.commitMarked_drawnFrom hfrom ccBUSY) .other stREFUSED 0
  rw [← hv] at hx hposted
  have hvcommit : v.commit = s.commit := by rw [hposted.1]; exact hkept.trans hcommit
  have hvcause : v.fget rGLB_COMMIT_STAT fGLB_COMMIT_STAT_CAUSE = 3 := by
    rw [State.fget, hposted.2.1 rGLB_COMMIT_STAT (by decide) List.not_mem_nil]
    exact hcause
  exact ⟨_, congrArg Host.Outcome.next hx, hended, hvcommit, hvcause⟩

end

/-- The record of a commit taken into an idle path (R438). -/
def State.commitTaken (s : State) (groups : BitVec 8) (axsel : BitVec 256) (at_ : Option FTime) (cmd : Option Nat) : CommitRec :=
  { groups := groups, axsel := axsel, sched := at_.isSome, at_ := at_.getD 0, fromDesc := cmd,
    captured := s.regs.filter (fun e => selects groups axsel e.1), stagedG := false, accepted := s.now, armed := false }

/-- The state in which a commit has been taken (R438). -/
def State.commitHeld (s : State) (groups : BitVec 8) (axsel : BitVec 256) (at_ : Option FTime) (cmd : Option Nat) : State :=
  ((State.fset { s with commit := some (s.commitTaken groups axsel at_ cmd) } rGLB_COMMIT_STAT fGLB_COMMIT_STAT_PHASE 1).fset
    rGLB_COMMIT_STAT fGLB_COMMIT_STAT_GROUPS groups.toNat).fsetb rGLB_COMMIT_STAT fGLB_COMMIT_STAT_SRCDESC cmd.isSome

theorem State.commitOffer_idle {s : State} (hcommit : s.commit = none) (hmig : s.mig = none) (hswap : s.swapping = false)
    (hpilot : s.pilotReady = true) (groups : BitVec 8) (axsel : BitVec 256) (at_ : Option FTime) (cmd : Option Nat) :
    s.commitOffer groups axsel at_ cmd false = s.commitHeld groups axsel at_ cmd := by
  have hlate : (cmd.isSome && false && at_.isSome) = false := by simp
  rw [State.commitOffer, if_neg (by simp [hcommit, hmig, hswap]), if_neg (by simp [hpilot])]
  dsimp only
  rw [hlate]
  rfl

theorem State.commitHeld_shows (s : State) (groups : BitVec 8) (axsel : BitVec 256) (at_ : Option FTime) (k : Nat) :
    (s.commitHeld groups axsel at_ (some k)).commit = some (s.commitTaken groups axsel at_ (some k))
      ∧ (s.commitHeld groups axsel at_ (some k)).flag rGLB_COMMIT_STAT fGLB_COMMIT_STAT_SRCDESC = true
      ∧ (s.commitHeld groups axsel at_ (some k)).cmds = s.cmds := by
  refine ⟨rfl, ?_, rfl⟩
  rw [State.commitHeld]
  exact State.flag_raise _ _ _ (by decide) (by decide)

theorem scheduled_isSome (x : FTime) : (if x = 0 then none else some x).isSome = decide (x ≠ 0) := by
  by_cases hz : x = 0
  · rw [if_pos hz, decide_eq_false (not_not.2 hz)]
    rfl
  · rw [if_neg hz, decide_eq_true hz]
    rfl

theorem commit_taken (hadm : s.admits q h 0x0C false) (hgroups : groups &&& 1 = 0) (hlate : h.flags.getLsbD 2 = false)
    (hright : s.portFlag 0 fPLAN_P_FLAGS_CFGG = true) (hcommit : s.commit = none) (hmig : s.mig = none) (hswap : s.swapping = false)
    (hpilot : s.pilotReady = true) : Completes (.commit h groups axsel x) s (fun t =>
      ∃ c, t.commit = some c ∧ c.groups = groups ∧ c.axsel = axsel ∧ c.fromDesc = some s.nextCmd ∧ c.sched = decide (x ≠ 0)
        ∧ (x ≠ 0 → c.at_ = x) ∧ t.flag rGLB_COMMIT_STAT fGLB_COMMIT_STAT_SRCDESC = true ∧ (t.cmd s.nextCmd).isSome = true) := by
  have hx := commit_acts axsel x hadm hgroups hlate hright
  obtain ⟨u, hu⟩ : ∃ u, u = s.drawnOpen q (s.drawnCmd q h 0x0C .other) := ⟨_, rfl⟩
  obtain ⟨hcommit', hmig', hswap', hpilot', -⟩ := s.drawnOpen_keeps q (s.drawnCmd q h 0x0C .other)
  have hopen := s.cmd_drawnOpen q (s.drawnCmd q h 0x0C .other)
  rw [← hu] at hx hcommit' hmig' hswap' hpilot' hopen
  rw [State.commitOffer_idle (hcommit'.trans hcommit) (hmig'.trans hmig) (hswap'.trans hswap) (hpilot'.trans hpilot)] at hx
  obtain ⟨hrec, hsrc, hcmds⟩ := u.commitHeld_shows groups axsel (if x = 0 then none else some x) s.nextCmd
  refine ⟨_, congrArg Host.Outcome.next hx, _, hrec, rfl, rfl, rfl, ?_, fun hne => ?_, hsrc, ?_⟩
  · exact scheduled_isSome x
  · exact congrArg (fun o : Option FTime => o.getD 0) (if_neg hne)
  · rw [State.cmd, hcmds, ← State.cmd, hopen]
    rfl

end

/-! ### MIGRATE (R380, R501) -/

section
variable (s : State) (sqs : Tbl Sq) (last : Nat) (cmds : Tbl (Option OpenCmd)) (next : Nat)

theorem State.movedTo_withCmds (dst : Nat) (axes : List Nat) :
    (s.withCmds sqs last cmds next).movedTo dst axes = (s.movedTo dst axes).withCmds sqs last cmds next := by
  unfold State.movedTo
  induction axes generalizing s with
  | nil => rfl
  | cons n axes ih => exact ih (s.bothSet (rAXC_CFG n) fAXC_CFG_LANE dst)

/-- Whether a migration is refused rests on neither the rings nor the open commands. -/
theorem State.migNo_withCmds (src dst : Nat) (axes : List Nat) : (s.withCmds sqs last cmds next).migNo src dst axes = s.migNo src dst axes := by
  have hfit : (s.withCmds sqs last cmds next).migFit src dst axes = s.migFit src dst axes := by
    unfold State.migFit
    rw [State.movedTo_withCmds]
    rfl
  rw [State.migNo, State.migNo, hfit]
  rfl

theorem State.migBegin_shows (src dst : Nat) (axes : List Nat) (at_ : FTime) (cmd : Option Nat) :
    (s.migBegin src dst axes at_ false cmd).mig
        = some { src := src, dst := dst, axes := axes, at_ := at_, tw := none, moved := 0, repair := false, cmd := cmd }
      ∧ (s.migBegin src dst axes at_ false cmd).fget rLPE_MIG fLPE_MIG_PHASE = 1 := by
  refine ⟨rfl, ?_⟩
  rw [State.migBegin, State.fget_fset_field _ _ _ _ _ (by decide), State.fget_fset_field _ _ _ _ _ (by decide),
    State.fget_fset_field _ _ _ _ _ (by decide), State.fsetb, State.fget_fset_field _ _ _ _ _ (by decide), State.fget_fset _ _ _ _ (by decide)]
  rfl

end

theorem migrate_begins {s : State} {q : Fin 32} {h : DescHdr} (hadm : s.admits q h 0x0D false) (src dst : Fin 16) (axes : BitVec 256)
    (x : FTime) (hlane : s.portFlag 0 fPLAN_P_FLAGS_LANE = true) (hperm : s.permAll 0 pmCFG (s.laneAxes src) = true)
    (hno : s.migNo src dst (s.laneAxes src) = none) :
    Completes (.migrate h (BitVec.ofNat 8 src) (BitVec.ofNat 8 dst) true axes x) s (fun t => ∃ m, t.mig = some m ∧ m.src = src.val
      ∧ m.dst = dst.val ∧ m.axes = s.laneAxes src ∧ m.cmd = some s.nextCmd ∧ m.at_ = (if x = 0 then s.now else x)
      ∧ t.fget rLPE_MIG fLPE_MIG_PHASE = 1) := by
  have hsrc : (BitVec.ofNat 8 src.val).toNat = src.val := Nat.mod_eq_of_lt (by omega)
  have hdst : (BitVec.ofNat 8 dst.val).toNat = dst.val := Nat.mod_eq_of_lt (by omega)
  obtain ⟨u, hu⟩ : ∃ u, u = s.drawnOpen q (s.drawnCmd q h 0x0D .other) := ⟨_, rfl⟩
  obtain ⟨-, -, -, -, hnow⟩ := s.drawnOpen_keeps q (s.drawnCmd q h 0x0D .other)
  rw [← hu] at hnow
  have hno' : u.migNo src dst (s.laneAxes src) = none := by rw [hu, State.drawnOpen_eq, State.migNo_withCmds]; exact hno
  have hx : s.doMigrate h (BitVec.ofNat 8 src) (BitVec.ofNat 8 dst) true axes x
      = u.migOffer src dst (s.laneAxes src) (if x = 0 then u.now else x) (some s.nextCmd) := by
    rw [State.doMigrate, State.admits_port hadm, hsrc, hdst]
    dsimp only
    rw [if_pos rfl, State.desc_acts hadm (by simp [src.isLt, dst.isLt]) (by rw [hlane, hperm]; rfl), hu]
    rfl
  rw [State.migOffer, hno'] at hx
  obtain ⟨hmig, hphase⟩ := u.migBegin_shows src dst (s.laneAxes src) (if x = 0 then u.now else x) (some s.nextCmd)
  exact ⟨_, congrArg Host.Outcome.next hx, _, hmig, rfl, rfl, rfl, rfl, by rw [hnow], hphase⟩

end Sys2Proof.Machine

/-- Settles O55: each command on data by its lemma above, from the state its effects leave to the completion that ends it. -/
theorem dataDescriptorRows : Obligations.DataDescriptorRows := by
  unfold Obligations.DataDescriptorRows
  intro s q h
  dsimp only
  refine ⟨fun cam cf base m mstep addr xfer pts hadm hcam hright => ⟨fun hm hstep haddr hinl => ⟨fun e href => ?_, fun xs hno hpts hlen => ?_⟩,
      fun hidle => ?_, fun hused => ?_⟩,
    fun addr raddr x i hadm hform hright hplain hrange halloc => ⟨fun hfalls => ?_, fun hstands hheld => ?_⟩,
    fun i tg tag mask hadm hsize hlo hhi harmed => ?_, fun u setcfg cfg hadm hperm hring => ⟨?_, ?_, ?_⟩,
    fun addr hadm haddr hright => ?_, fun addr x r hadm hr hsh hright hcan => ?_,
    fun groups axsel x hadm hgroups hlate hright => ⟨fun hbusy => ?_, fun hcommit hmig hswap hpilot => ?_⟩,
    fun src dst axes x hadm hlane hperm hno => ?_, fun p hadm => ⟨fun hnone => ?_, fun f x hsome => ?_⟩⟩
  · exact ⟨_, congrArg Host.Outcome.next (camLoad_refused hadm hcam hright hm hstep haddr xfer pts href),
      State.admitted_ends hadm (s.drawnFrom_drawn q) _ e 0, (State.posted_sram (State.complete_posted _ _ _ _ [])).trans (s.drawn_sram q)⟩
  · rw [hpts]
    exact ⟨_, congrArg Host.Outcome.next (camLoad_loads hadm hcam hright hm hstep haddr hinl xfer hno hlen),
      camLoaded_shows hadm hcam hno cf mstep xs _⟩
  · exact ⟨_, congrArg Host.Outcome.next (camFree_frees hadm hcam hright hidle), camFreed_shows hadm hcam _⟩
  · exact ⟨_, congrArg Host.Outcome.next (camFree_busy hadm hcam hright hused), State.admitted_ends hadm (s.drawnFrom_drawn q) _ stBUSY 0,
      (State.complete_camN _ _ _ _ hcam).trans (s.drawn_camN q _)⟩
  · exact cmpadd_falls hadm hform hright addr raddr hfalls
  · exact cmpadd_holds hadm hform hright addr raddr hplain hrange halloc hstands hheld
  · exact cmpdel_deletes hadm tg tag mask hsize hlo hhi harmed
  · exact ⟨_, congrArg Host.Outcome.next (latCommand_acts hadm hperm (op := 0) (by decide) hring),
      latCommand_done hadm setcfg cfg (State.latArm_acted _ _ _ _), latCommand_armed u setcfg cfg true⟩
  · exact ⟨_, congrArg Host.Outcome.next (latCommand_acts hadm hperm (op := 1) (by decide) hring),
      latCommand_done hadm setcfg cfg (State.latArm_acted _ _ _ _), latCommand_armed u setcfg cfg false⟩
  · exact ⟨_, congrArg Host.Outcome.next (latCommand_acts hadm hperm (op := 2) (by decide) hring),
      latCommand_done hadm setcfg cfg (State.latFlushed_acted _ _), latCommand_flushed u setcfg cfg⟩
  · exact read_now hadm haddr hright
  · exact cfgstage_stages hadm addr hr hsh hright hcan
  · exact commit_busy axsel x hadm hgroups hlate hright hbusy
  · exact commit_taken axsel x hadm hgroups hlate hright hcommit hmig hswap hpilot
  · exact migrate_begins hadm src dst axes x hlane hperm hno
  · exact txts_empty hadm p hnone
  · exact txts_stamp hadm p hsome
end

section
/-! SUPPORT. The latch units of an axis: what filing and posting records may touch, a capture, the captures that wait, the effect of a write of
LAT_An_CTL, and the settling of the statement on them. -/
open Sys2Proof Sys2Proof.Machine
namespace Sys2Proof.Machine

/-! ### What the latch engine touches (R301-R304) -/

/-- Filing records at axis `n` changes that axis, the status of its units, and what posting may change; whether its units are armed stays. -/
def State.latFiled (t s : State) (n : Nat) : Prop :=
  t.posted { s with axes := t.axes } [rLAT_STAT n] ∧ (∀ m, m ≠ n → t.ax m = s.ax m)
    ∧ ∀ u < 2, t.flag (rLAT_STAT n) (latArmed u) = s.flag (rLAT_STAT n) (latArmed u)

theorem not_cqBase_latStat (n : Nat) : ¬ cqBase (rLAT_STAT n) := by
  rintro ⟨q, hq, hb⟩
  simp only [rLAT_STAT, rHIF_CQ_BASE_LO, rHIF_CQ_BASE_HI] at hb
  omega

theorem State.ax_of_posted {s t : State} {L : List Nat} (h : t.posted s L) (n : Nat) : t.ax n = s.ax n := by rw [h.1]; rfl

theorem State.latFiled_refl (s : State) (n : Nat) : s.latFiled s n := ⟨s.posted_refl _, fun _ _ => rfl, fun _ _ => rfl⟩

theorem State.latFiled_trans {s t u : State} {n : Nat} (h : u.latFiled t n) (h' : t.latFiled s n) : u.latFiled s n := by
  obtain ⟨hp, hax, harm⟩ := h
  obtain ⟨hp', hax', harm'⟩ := h'
  exact ⟨State.posted_trans hp (State.posted_withAxes hp' u.axes), fun m hm => (hax m hm).trans (hax' m hm),
    fun k hk => (harm k hk).trans (harm' k hk)⟩

theorem State.updAx_latFiled (s : State) (n : Nat) (f : Axis → Axis) : (s.updAx n f).latFiled s n :=
  ⟨State.posted_refl _ _, fun _ hm => s.ax_updAx_ne f hm, fun _ _ => rfl⟩

/-- A field of the status beyond the arm states. -/
theorem State.fset_latFiled (s : State) (n : Nat) {b : Bits} (x : Nat) (hb : 2 ≤ b.lo) : (s.fset (rLAT_STAT n) b x).latFiled s n := by
  refine ⟨State.posted_of_wrote (s.fset_wrote _ b x) (by simpa using not_cqBase_latStat n), fun _ _ => rfl, fun u hu => ?_⟩
  rw [State.flag, s.fget_fset_field _ _ _ _ (by simp only [latArmed]; omega)]
  rfl

theorem State.latFiled_of_posted {s t : State} {n : Nat} (hn : n < 256) (h : t.posted s []) : t.latFiled s n := by
  obtain ⟨ht, hr, hb⟩ := h
  have hs : ({ s with axes := t.axes } : State) = s := by rw [ht]
  have hstat : t.rget (rLAT_STAT n) = s.rget (rLAT_STAT n) :=
    hr _ (postReg_of_block (by simp only [rLAT_STAT]; omega)) List.not_mem_nil
  refine ⟨by rw [hs]; exact State.posted_mono ⟨ht, hr, hb⟩ (by simp), fun m _ => State.ax_of_posted ⟨ht, hr, hb⟩ m, fun u _ => ?_⟩
  rw [State.flag, State.fget, hstat]
  rfl

theorem State.latShow_filed (s : State) (n : Nat) : (s.latShow n).latFiled s n :=
  State.latFiled_trans (State.fset_latFiled _ n _ (by decide)) (s.fset_latFiled n _ (by decide))

theorem State.ax_latShow (s : State) (n m : Nat) : (s.latShow n).ax m = s.ax m := rfl

/-- The status shows how many records are queued, as its field holds it, and whether a capture waits. -/
theorem State.latShow_shows (s : State) (n : Nat) : (s.latShow n).fget (rLAT_STAT n) fLAT_STAT_CNT = (s.ax n).lat.length % 16
    ∧ (s.latShow n).flag (rLAT_STAT n) fLAT_STAT_WAIT = !(s.ax n).latWait.isEmpty := by
  rw [State.latShow, State.fsetb]
  constructor
  · rw [State.fget_fset_field _ _ _ _ _ (by decide)]
    exact s.fget_fset _ _ _ (by decide)
  · rw [State.flag, State.fget_fset _ _ _ _ (by decide)]
    cases (s.ax n).latWait.isEmpty <;> rfl

/-- Posting changes of the axis only its queue of records. -/
theorem State.latDrain_filed (s : State) {n : Nat} (hn : n < 256) (k : Nat) :
    (s.latDrain n k).latFiled s n ∧ ∃ l, (s.latDrain n k).ax n = { s.ax n with lat := l } := by
  induction k generalizing s with
  | zero => exact ⟨s.latFiled_refl n, _, rfl⟩
  | succ k ih =>
    unfold State.latDrain
    split
    · exact ⟨s.latFiled_refl n, _, rfl⟩
    · next r _ =>
      dsimp only
      split
      · have hpost := State.produce_posted (s.updAx n (fun a => { a with lat := a.lat.erase r }))
          (some (s.fget (rLAT_CFG n r.unit) fLAT_CFG_CQ)) (latEntry n r) (by rintro _ ⟨⟩; exact bget_lt _ _) []
        obtain ⟨hfiled, l, hl⟩ := ih ((s.updAx n (fun a => { a with lat := a.lat.erase r })).produce _ (latEntry n r))
        refine ⟨State.latFiled_trans hfiled (State.latFiled_trans (State.latFiled_of_posted hn hpost) (s.updAx_latFiled n _)), l, ?_⟩
        rw [hl, State.ax_of_posted hpost, State.ax_updAx]
      · exact ⟨s.latFiled_refl n, _, rfl⟩

/-- With no record queued there is nothing to post. -/
theorem State.latDrain_empty (s : State) {n : Nat} (h : (s.ax n).lat = []) (k : Nat) : s.latDrain n k = s := by
  cases k with
  | zero => rfl
  | succ k => rw [State.latDrain, h]; rfl

theorem State.latPush_filed (s : State) {n : Nat} (hn : n < 256) (r : LatRec) :
    (s.latPush n r).latFiled s n ∧ ∃ l, (s.latPush n r).ax n = { s.ax n with lat := l } := by
  unfold State.latPush
  split
  · exact ⟨State.latFiled_trans (State.fset_latFiled _ n _ (by decide)) (s.fset_latFiled n _ (by decide)), _, rfl⟩
  · obtain ⟨hfiled, l, hl⟩ := (s.updAx n (fun a => { a with lat := a.lat ++ [r] })).latDrain_filed hn latDepth
    exact ⟨State.latFiled_trans hfiled (s.updAx_latFiled n _), l, by rw [hl, State.ax_updAx]⟩

theorem State.latWrite_filed (s : State) {n : Nat} (hn : n < 256) (w : LatWait) (t : FTime) (pos : BitVec 48) (flags : Nat) :
    (s.latWrite n w t pos flags).latFiled s n ∧ ∃ l, (s.latWrite n w t pos flags).ax n = { s.ax n with lat := l } := s.latPush_filed hn _

/-! ### A capture (R301, R302) -/

/-- The edges that a unit has captured. -/
def State.latCnt (s : State) (n u : Nat) : BitVec 4 := if u = 0 then (s.ax n).capCnt0 else (s.ax n).capCnt1

/-- The state in which a unit has captured an edge and its record is still to be made: a unit for one edge is disarmed, the edge counted. -/
def State.latCaught (s : State) (n u : Nat) : State :=
  (if s.flag (rLAT_CFG n u) fLAT_CFG_MODE then s else s.latArm n u false).updAx n (fun a =>
    if u = 0 then { a with capCnt0 := s.latCnt n u + 1 } else { a with capCnt1 := s.latCnt n u + 1 })

/-- An edge that a unit captures at `t`, as it is noted for its record. -/
def State.latEdgeOf (s : State) (n u src : Nat) (rising : Bool) (t : FTime) : LatWait :=
  { t := t, src := BitVec.ofNat 6 src, unit := u, rising := rising, plim := s.flag (rFBK_STAT n) fFBK_STAT_PLIM_NOW, cnt := s.latCnt n u,
    post := s.flag (rLAT_CFG n u) fLAT_CFG_POST }

theorem State.latCaught_acted (s : State) (n u : Nat) :
    (s.latCaught n u).posted { s with axes := (s.latCaught n u).axes } [rLAT_STAT n] ∧ ∀ m, m ≠ n → (s.latCaught n u).ax m = s.ax m := by
  have harmed : (if s.flag (rLAT_CFG n u) fLAT_CFG_MODE then s else s.latArm n u false).latActed s n := by
    split
    · exact ⟨s.wrote_refl _, fun _ _ => rfl⟩
    · exact s.latArm_acted n u false
  obtain ⟨hwrote, hax⟩ := harmed
  exact ⟨State.posted_of_wrote (State.wrote_withAxes hwrote _) (by simpa using not_cqBase_latStat n),
    fun m hm => (State.ax_updAx_ne _ _ hm).trans (hax m hm)⟩

/-- The unit that captured stays armed if it is not for one edge, and its count goes up. -/
theorem State.latCaught_shows (s : State) (n : Nat) (u : Fin 2) :
    (if u.val = 0 then ((s.latCaught n u).ax n).capCnt0 = (s.ax n).capCnt0 + 1 else ((s.latCaught n u).ax n).capCnt1 = (s.ax n).capCnt1 + 1)
      ∧ (s.latCaught n u).flag (rLAT_STAT n) (latArmed u) = (s.flag (rLAT_CFG n u) fLAT_CFG_MODE && s.flag (rLAT_STAT n) (latArmed u)) := by
  constructor
  · rw [State.latCaught, State.ax_updAx, State.latCnt]
    split <;> rfl
  · cases hmode : s.flag (rLAT_CFG n u) fLAT_CFG_MODE with
    | false =>
      rw [State.latCaught, hmode]
      exact (s.latArm_shows n u.isLt false).1
    | true =>
      rw [State.latCaught, hmode]
      rfl

/-- The record of an edge that a unit has captured at `t` is made, or the capture waits for the next record of the axis (R303). -/
def State.latMade (s : State) (n src : Nat) (w : LatWait) (t : FTime) : State :=
  if src = 1 then let p := s.indexPos n; s.latWrite n w p.1 p.2 lfEST
  else match s.capturePos n t with
    | some (p, f) => s.latWrite n w t p f
    | none => s.updAx n (fun a => { a with latWait := a.latWait ++ [w] })

theorem State.latMade_filed (s : State) {n : Nat} (hn : n < 256) (src : Nat) (w : LatWait) (t : FTime) :
    (s.latMade n src w t).latFiled s n ∧ ∃ l ws, (s.latMade n src w t).ax n = { s.ax n with lat := l, latWait := ws } := by
  unfold State.latMade
  split
  · obtain ⟨hfiled, l, hl⟩ := s.latWrite_filed hn w (s.indexPos n).1 (s.indexPos n).2 lfEST
    exact ⟨hfiled, l, _, hl⟩
  · split
    · next p f _ =>
      obtain ⟨hfiled, l, hl⟩ := s.latWrite_filed hn w t p f
      exact ⟨hfiled, l, _, hl⟩
    · exact ⟨s.updAx_latFiled n _, _, _, s.ax_updAx n _⟩

/-- A capture: the edge is caught, its record made or waiting, and the status shown. -/
theorem State.capture_eq (s : State) (n u src : Nat) (rising : Bool) (t : FTime) :
    s.capture n u src rising t = ((s.latCaught n u).latMade n src (s.latEdgeOf n u src rising t) t).latShow n := rfl

theorem State.capture_posted (s : State) {n : Nat} (hn : n < 256) (u src : Nat) (rising : Bool) (t : FTime) :
    (s.capture n u src rising t).posted { s with axes := (s.capture n u src rising t).axes } [rLAT_STAT n]
      ∧ ∀ m, m ≠ n → (s.capture n u src rising t).ax m = s.ax m := by
  obtain ⟨hp, hax, -⟩ := State.latFiled_trans (State.latShow_filed _ n) ((s.latCaught n u).latMade_filed hn src (s.latEdgeOf n u src rising t) t).1
  obtain ⟨hp', hax'⟩ := s.latCaught_acted n u
  rw [State.capture_eq]
  exact ⟨State.posted_trans hp (State.posted_withAxes hp' _), fun m hm => (hax m hm).trans (hax' m hm)⟩

/-- A capture counts the edge and leaves the unit armed if it is not for one edge. -/
theorem State.capture_shows (s : State) {n : Nat} (hn : n < 256) (u : Fin 2) (src : Nat) (rising : Bool) (t : FTime) :
    (if u.val = 0 then ((s.capture n u src rising t).ax n).capCnt0 = (s.ax n).capCnt0 + 1
        else ((s.capture n u src rising t).ax n).capCnt1 = (s.ax n).capCnt1 + 1)
      ∧ (s.capture n u src rising t).flag (rLAT_STAT n) (latArmed u)
        = (s.flag (rLAT_CFG n u) fLAT_CFG_MODE && s.flag (rLAT_STAT n) (latArmed u)) := by
  obtain ⟨hfiled, l, ws, hax⟩ := (s.latCaught n u).latMade_filed hn src (s.latEdgeOf n u src rising t) t
  obtain ⟨-, -, harm⟩ := State.latFiled_trans (State.latShow_filed _ n) hfiled
  obtain ⟨hcnt, hflag⟩ := s.latCaught_shows n u
  rw [State.capture_eq, harm u u.isLt, State.ax_latShow, hax]
  exact ⟨hcnt, hflag⟩

/-! ### Captures that wait (R303) -/

/-- A capture that waited finds its record, is made with the last record if the next is `missing`, or waits on (R303). -/
def State.latRefiled (s : State) (n : Nat) (missing : Bool) (w : LatWait) : State :=
  match s.capturePos n w.t, (s.ax n).recent, missing with
  | some (p, f), _, _ => s.latWrite n w w.t p f
  | none, (ts, p, v) :: _, true => s.latWrite n w w.t (s.extrap n w.t ts p v) lfEXTRAP
  | none, _, _ => s.updAx n (fun a => { a with latWait := a.latWait ++ [w] })

/-- The captures that wait are taken off and refiled one after another, and the status shown. -/
theorem State.latResolve_eq (s : State) (n : Nat) (missing : Bool) : s.latResolve n missing
    = ((s.ax n).latWait.foldl (fun u w => u.latRefiled n missing w) (s.updAx n (fun a => { a with latWait := [] }))).latShow n := rfl

/-- With a record at hand, no capture waits past a missing one. -/
theorem State.latRefiled_missing (s : State) {n : Nat} (hn : n < 256) (hrec : (s.ax n).recent ≠ []) (w : LatWait) :
    (s.latRefiled n true w).latFiled s n ∧ ∃ l, (s.latRefiled n true w).ax n = { s.ax n with lat := l } := by
  unfold State.latRefiled
  split
  · exact s.latWrite_filed hn _ _ _ _
  · exact s.latWrite_filed hn _ _ _ _
  · next hnone =>
    cases hr : (s.ax n).recent with
    | nil => exact absurd hr hrec
    | cons e r => exact absurd rfl (hnone e.1 e.2.1 e.2.2 r hr)

/-- A capture that has no position yet waits on while no record is missing. -/
theorem State.latRefiled_waits (s : State) {n : Nat} {w : LatWait} (h : s.capturePos n w.t = none) :
    s.latRefiled n false w = s.updAx n (fun a => { a with latWait := a.latWait ++ [w] }) := by
  unfold State.latRefiled
  rw [h]
  cases (s.ax n).recent <;> rfl

/-- A capture has no position yet on an axis that is not virtual and whose newest record it is not before (R303). -/
theorem State.capturePos_eq_none (s : State) (n : Nat) (t : FTime) :
    s.capturePos n t = none ↔ s.axType n ≠ tyVX ∧ ∀ e ∈ (s.ax n).recent.head?, reached t e.1 = true := by
  unfold State.capturePos
  split
  · next h => simp [h]
  · next h =>
    cases (s.ax n).recent with
    | nil => simp [h]
    | cons e r => simp [h]

/-- Captures without a position yet wait on in their order, and nothing is filed. -/
theorem State.foldl_latRefiled_waits (n : Nat) (ws : List LatWait) (s : State) (h : ∀ w ∈ ws, s.capturePos n w.t = none) :
    ((ws.foldl (fun u w => u.latRefiled n false w) s).ax n) = { s.ax n with latWait := (s.ax n).latWait ++ ws } := by
  induction ws generalizing s with
  | nil => rw [List.append_nil]; rfl
  | cons w ws ih =>
    have hax := s.ax_updAx n (fun a => { a with latWait := a.latWait ++ [w] })
    rw [List.foldl_cons, State.latRefiled_waits s (h w List.mem_cons_self), ih, hax, List.append_assoc]
    · rfl
    · intro w' hw'
      rw [State.capturePos_eq_none, hax]
      exact (s.capturePos_eq_none n w'.t).1 (h w' (List.mem_cons_of_mem _ hw'))

/-- When a record is missing, every capture that waits is made with the newest record (R303). -/
theorem State.latResolve_missing (s : State) {n : Nat} (hn : n < 256) (hrec : (s.ax n).recent ≠ []) :
    ((s.latResolve n true).ax n).latWait = [] ∧ (s.latResolve n true).flag (rLAT_STAT n) fLAT_STAT_WAIT = false
      ∧ ∀ m, m ≠ n → (s.latResolve n true).ax m = s.ax m := by
  obtain ⟨u, hu⟩ : ∃ u, u = s.updAx n (fun a => { a with latWait := [] }) := ⟨_, rfl⟩
  have huax : u.ax n = { s.ax n with latWait := [] } := by rw [hu, State.ax_updAx]
  have hfold := List.foldlRecOn (motive := fun v : State => v.latFiled s n ∧ ∃ l, v.ax n = { u.ax n with lat := l }) (s.ax n).latWait
    (fun u w => u.latRefiled n true w) (b := u) ⟨hu ▸ s.updAx_latFiled n _, _, rfl⟩ (fun v ⟨hv, l, hl⟩ w _ => by
      obtain ⟨hfiled, l', hl'⟩ := v.latRefiled_missing hn (by rw [hl, huax]; exact hrec) w
      exact ⟨State.latFiled_trans hfiled hv, l', by rw [hl', hl]⟩)
  rw [State.latResolve_eq, ← hu]
  obtain ⟨⟨-, hax, -⟩, l, hl⟩ := hfold
  refine ⟨by rw [State.ax_latShow, hl, huax], ?_, hax⟩
  rw [(State.latShow_shows _ n).2, hl, huax]
  rfl

theorem State.latResolve_waits (s : State) {n : Nat} (h : ∀ w ∈ (s.ax n).latWait, s.capturePos n w.t = none) :
    ((s.latResolve n false).ax n).latWait = (s.ax n).latWait ∧ ((s.latResolve n false).ax n).lat = (s.ax n).lat := by
  have hax := s.ax_updAx n (fun a => { a with latWait := [] })
  rw [State.latResolve_eq, State.ax_latShow, State.foldl_latRefiled_waits n _ _ fun w hw => ?_, hax]
  · exact ⟨rfl, rfl⟩
  · rw [State.capturePos_eq_none, hax]
    exact (s.capturePos_eq_none n w.t).1 (h w hw)

/-! ### Posting (R304) -/

/-- One record that its ring takes is posted, and its queue is empty. -/
theorem latRepost_posts {s : State} {n : Fin 256} {r : LatRec} (hlat : (s.ax n).lat = [r]) (hpost : r.post = true)
    (htakes : s.cqTakes (s.fget (rLAT_CFG n r.unit) fLAT_CFG_CQ) = true) :
    Completes (.latchRepost n) s (fun t => (t.ax n).lat = [] ∧ t.fget (rLAT_STAT n) fLAT_STAT_CNT = 0
      ∧ t.posted { s with axes := t.axes } [rLAT_STAT n]) := by
  obtain ⟨u, hu⟩ : ∃ u, u = (s.updAx n (fun a => { a with lat := a.lat.erase r })).produce
      (some (s.fget (rLAT_CFG n r.unit) fLAT_CFG_CQ)) (latEntry n r) := ⟨_, rfl⟩
  have hposted : u.posted (s.updAx n (fun a => { a with lat := a.lat.erase r })) [] :=
    hu ▸ State.produce_posted _ _ _ (by rintro _ ⟨⟩; exact bget_lt _ _) _
  have hempty : (u.ax n).lat = [] := by
    rw [State.ax_of_posted hposted, State.ax_updAx, hlat, List.erase_cons_head]
  have hfind : (s.ax n).lat.find? (fun r => r.post) = some r := by rw [hlat, List.find?_cons_of_pos hpost]
  have hdrain : s.latDrain n latDepth = u := by
    rw [latDepth, State.latDrain, hfind]
    dsimp only
    rw [if_pos htakes, ← hu, State.latDrain_empty u hempty]
  refine ⟨u.latShow n, congrArg (fun v : State => Host.Outcome.next (v.latShow n)) hdrain, hempty, ?_, ?_⟩
  · rw [(u.latShow_shows n).1, hempty]
    rfl
  · have hfiled := State.latFiled_trans (State.latFiled_of_posted n.isLt hposted) (s.updAx_latFiled n _)
    exact (State.latFiled_trans (u.latShow_filed n) hfiled).1

/-! ### Writes of LAT_An_CTL (R301, R305) -/

theorem regRow_latCtl (n : Fin 256) : ∃ q, regRow (rLAT_CTL n) = some q := by
  have hblock : rLAT_CTL n / 0x100000 = 7 := by simp only [rLAT_CTL]; omega
  refine exists_regRow (r := ⟨0x710008, [(256, 0x20)], 0x0, 0x0, 0x0, 0x1F, 0x0, 0x0, 0x0, .none_⟩) ?_ ?_ ?_
  · rw [hblock]
    decide
  · simp only [rLAT_CTL]
    omega
  · simp [rLAT_CTL, dimsHit]

theorem latStat_ne_ctl (n m : Nat) : rLAT_STAT n ≠ rLAT_CTL m := by
  simp only [rLAT_STAT, rLAT_CTL]
  omega

/-- What a write of LAT_An_CTL does to one unit: a disarm wins over an arm. -/
def State.latCtlUnit (s : State) (n : Nat) (v : Word) (u : Nat) : State :=
  if v.getLsbD (2 + u) then s.latArm n u false else if v.getLsbD u then s.latArm n u true else s

theorem latCtlWritten_eq (n : Nat) (v : Word) (s : State) : latCtlWritten n v s
    = if v.getLsbD 4 then ((s.latCtlUnit n v 0).latCtlUnit n v 1).latFlushed n else (s.latCtlUnit n v 0).latCtlUnit n v 1 := rfl

theorem State.latActed_refl (s : State) (n : Nat) : s.latActed s n := ⟨s.wrote_refl _, fun _ _ => rfl⟩
theorem State.latActed_trans {s t u : State} {n : Nat} (h : u.latActed t n) (h' : t.latActed s n) : u.latActed s n :=
  ⟨State.wrote_mono (State.wrote_trans h.1 (State.wrote_withAxes h'.1 u.axes)) (by simp), fun m hm => (h.2 m hm).trans (h'.2 m hm)⟩

/-- Arming a unit leaves what its axis queues. -/
theorem State.latArm_ax (s : State) (n u : Nat) (b : Bool) :
    (s.latArm n u b).ax n = { s.ax n with armCyc := some s.time.cycles, armOld := s.latWas n } := by
  rw [State.latArm, State.fsetb, State.ax_fset, State.ax_updAx]

/-- Arming a unit leaves the arm state of the other. -/
theorem State.latArm_other (s : State) (n : Nat) {u k : Nat} (h : k ≠ u) (b : Bool) :
    (s.latArm n u b).flag (rLAT_STAT n) (latArmed k) = s.flag (rLAT_STAT n) (latArmed k) := by
  rw [State.flag, State.latArm, State.fsetb, State.fget_fset_field _ _ _ _ _ (by simp only [latArmed]; omega)]
  rfl

section
variable (s : State) (n : Nat) (v : Word)

theorem State.latCtlUnit_keeps {u : Nat} (hu : u < 2) : (s.latCtlUnit n v u).latActed s n ∧ (s.latCtlUnit n v u).latWas n = s.latWas n
    ∧ ((s.latCtlUnit n v u).ax n).lat = (s.ax n).lat ∧ ((s.latCtlUnit n v u).ax n).latWait = (s.ax n).latWait := by
  have harm : ∀ b, (s.latArm n u b).latActed s n ∧ (s.latArm n u b).latWas n = s.latWas n
      ∧ ((s.latArm n u b).ax n).lat = (s.ax n).lat ∧ ((s.latArm n u b).ax n).latWait = (s.ax n).latWait := fun b =>
    ⟨s.latArm_acted n u b, (s.latArm_shows n hu b).2, by rw [State.latArm_ax], by rw [State.latArm_ax]⟩
  unfold State.latCtlUnit
  split
  · exact harm false
  · split
    · exact harm true
    · exact ⟨s.latActed_refl n, rfl, rfl, rfl⟩

theorem State.latCtlUnit_disarms {u : Nat} (hu : u < 2) (hv : v.getLsbD (2 + u) = true) :
    (s.latCtlUnit n v u).flag (rLAT_STAT n) (latArmed u) = false := by
  rw [State.latCtlUnit, if_pos hv]
  exact (s.latArm_shows n hu false).1

theorem State.latCtlUnit_arms {u : Nat} (hu : u < 2) (hv : v.getLsbD u = true) (hno : v.getLsbD (2 + u) = false) :
    (s.latCtlUnit n v u).flag (rLAT_STAT n) (latArmed u) = true := by
  rw [State.latCtlUnit, if_neg (by simp [hno]), if_pos hv]
  exact (s.latArm_shows n hu true).1

theorem State.latCtlUnit_other {u k : Nat} (h : k ≠ u) :
    (s.latCtlUnit n v u).flag (rLAT_STAT n) (latArmed k) = s.flag (rLAT_STAT n) (latArmed k) := by
  unfold State.latCtlUnit
  split
  · exact s.latArm_other n h false
  · split
    · exact s.latArm_other n h true
    · rfl

/-- The arm state of a unit after both are written is the one that its own bits give. -/
theorem State.latCtlUnits_flag {u : Nat} (hu : u < 2) {b : Bool} (h : ∀ w : State, (w.latCtlUnit n v u).flag (rLAT_STAT n) (latArmed u) = b) :
    ((s.latCtlUnit n v 0).latCtlUnit n v 1).flag (rLAT_STAT n) (latArmed u) = b := by
  obtain rfl | rfl : u = 0 ∨ u = 1 := by omega
  · exact (State.latCtlUnit_other _ n v (by decide)).trans (h s)
  · exact h _

theorem State.latFlushed_ax : (s.latFlushed n).ax n = { s.ax n with lat := [] } := by rw [State.latFlushed, State.ax_latShow, State.ax_updAx]

/-- A flush leaves whether the units are armed, and were at the start of the core cycle. -/
theorem State.latFlushed_arms : (∀ u < 2, (s.latFlushed n).flag (rLAT_STAT n) (latArmed u) = s.flag (rLAT_STAT n) (latArmed u))
    ∧ (s.latFlushed n).latWas n = s.latWas n := by
  obtain ⟨-, -, harm⟩ := State.latFiled_trans (State.latShow_filed _ n) (s.updAx_latFiled n (fun a => { a with lat := [] }))
  have harm' : ∀ u < 2, (s.latFlushed n).flag (rLAT_STAT n) (latArmed u) = s.flag (rLAT_STAT n) (latArmed u) := harm
  refine ⟨harm', ?_⟩
  rw [State.latWas, State.latFlushed_ax, harm' 0 (by decide), harm' 1 (by decide)]
  rfl

/-- What every write of LAT_An_CTL leaves. -/
theorem latCtlWritten_keeps : (latCtlWritten n v s).latActed s n ∧ (latCtlWritten n v s).latWas n = s.latWas n
    ∧ ((latCtlWritten n v s).ax n).latWait = (s.ax n).latWait := by
  obtain ⟨hacted, hwas, -, hwait⟩ := s.latCtlUnit_keeps n v (u := 0) (by decide)
  obtain ⟨hacted', hwas', -, hwait'⟩ := (s.latCtlUnit n v 0).latCtlUnit_keeps n v (u := 1) (by decide)
  have hboth := State.latActed_trans hacted' hacted
  rw [latCtlWritten_eq]
  split
  · obtain ⟨-, hflushed⟩ := ((s.latCtlUnit n v 0).latCtlUnit n v 1).latFlushed_arms n
    exact ⟨State.latActed_trans (State.latFlushed_acted _ n) hboth, hflushed.trans (hwas'.trans hwas),
      by rw [State.latFlushed_ax]; exact hwait'.trans hwait⟩
  · exact ⟨hboth, hwas'.trans hwas, hwait'.trans hwait⟩

/-- The arm states after a write of LAT_An_CTL. -/
theorem latCtlWritten_flag {u : Nat} (hu : u < 2) {b : Bool} (h : ∀ w : State, (w.latCtlUnit n v u).flag (rLAT_STAT n) (latArmed u) = b) :
    (latCtlWritten n v s).flag (rLAT_STAT n) (latArmed u) = b := by
  have hunits := s.latCtlUnits_flag n v hu h
  rw [latCtlWritten_eq]
  split
  · exact ((State.latFlushed_arms _ n).1 u hu).trans hunits
  · exact hunits

end

/-- A write of LAT_An_CTL that a path may make takes its effect, of which `P` holds, beside what every such write leaves. -/
theorem latCtl_completes {c : Instr} {s : State} {via : RegPath} {n : Fin 256} {v : Word} {P : State → Prop}
    (hx : exec c s = .next (s.portWrite via (rLAT_CTL n) v (fun _ => latCtlWritten n v))) (hd : s.p8Denied via (rLAT_CTL n) = false)
    (hP : ∀ u, P (latCtlWritten n v u)) :
    Completes c s (fun t => P t ∧ t.latWas n = s.latWas n ∧ (t.ax n).latWait = (s.ax n).latWait
      ∧ t.wrote { s with axes := t.axes } [rLAT_CTL n, rLAT_STAT n]) := by
  obtain ⟨u, hu, hwrite⟩ := s.portWrite_allowed v (fun _ => latCtlWritten n v) hd (regRow_latCtl n)
  obtain ⟨⟨hwrote, -⟩, hwas, hwait⟩ := latCtlWritten_keeps u n v
  have hax : u.ax n = s.ax n := by rw [hu.1]; rfl
  refine ⟨_, hx.trans (congrArg Host.Outcome.next hwrite), hP u, ?_, by rw [hwait, hax],
    State.wrote_mono (State.wrote_trans hwrote (State.wrote_withAxes hu _)) (by simp)⟩
  rw [hwas]
  exact State.latWas_congr hax (by rw [hu.1]) (hu.2 _ (by simpa using latStat_ne_ctl n n))

/-- A write with FLUSH empties the queue of records. -/
theorem latCtlWritten_flushes {v : Word} (hv : v.getLsbD 4 = true) (n : Nat) (s : State) :
    ((latCtlWritten n v s).ax n).lat = [] ∧ (latCtlWritten n v s).fget (rLAT_STAT n) fLAT_STAT_CNT = 0 := by
  rw [latCtlWritten_eq, if_pos hv]
  exact State.latFlushed_shows _ n

end Sys2Proof.Machine

/-- Settles O34: each event by what it files and shows above, each write of LAT_An_CTL by what its bits do to the units and the queue. -/
theorem latchRows : Obligations.LatchRows := by
  unfold Obligations.LatchRows
  intro s n
  refine ⟨fun u src rising hhit => ?_, fun hrec => ⟨_, rfl, s.latResolve_missing n.isLt hrec⟩, fun hwait => ⟨_, rfl, s.latResolve_waits hwait⟩,
    fun r hlat hpost htakes => latRepost_posts hlat hpost htakes, fun via v hd => ⟨fun u hu hv hno => ?_, fun u hu hv => ?_, fun hv => ?_⟩⟩
  · obtain ⟨hcnt, hflag⟩ := s.capture_shows n.isLt u src.toNat rising s.now
    exact ⟨_, if_pos hhit, hcnt, hflag, (s.capture_posted n.isLt u src.toNat rising s.now).2⟩
  · obtain ⟨t, ht, hflag, hwas, -, hwrote⟩ := latCtl_completes (P := fun t => t.flag (rLAT_STAT n) (latArmed u) = true)
      (c := .latCtlArm via n v) rfl hd fun w =>
      latCtlWritten_flag w n v hu fun w => w.latCtlUnit_arms n v hu hv hno
    exact ⟨t, ht, hflag, hwas, hwrote⟩
  · obtain ⟨t, ht, hflag, hwas, -, hwrote⟩ := latCtl_completes (P := fun t => t.flag (rLAT_STAT n) (latArmed u) = false)
      (c := .latCtlDisarm via n v) rfl hd fun w =>
      latCtlWritten_flag w n v hu fun w => w.latCtlUnit_disarms n v hu hv
    exact ⟨t, ht, hflag, hwas, hwrote⟩
  · obtain ⟨t, ht, ⟨hlat, hcnt⟩, -, hwait, hwrote⟩ := latCtl_completes (P := fun t => (t.ax n).lat = [] ∧ t.fget (rLAT_STAT n) fLAT_STAT_CNT = 0)
      (c := .latCtlFlush via n v) rfl hd fun w =>
      latCtlWritten_flushes hv n w
    exact ⟨t, ht, hlat, hwait, hcnt, hwrote⟩
end

section
/-! SUPPORT. The compare entries: what sending, firing, discarding and inserting an entry may touch, its actions, the waking of a row group, and
the settling of the statement on them. -/
open Sys2Proof Sys2Proof.Machine
namespace Sys2Proof.Machine

/-! ### What the compare engine touches (R283, R285, R292, R299) -/

/-- An operation on the compare entry at `i` leaves every other entry, the axes, and the outputs with their commanded states. -/
def State.entryActed (t s : State) (i : Nat) : Prop :=
  t.axes = s.axes ∧ t.fouts = s.fouts ∧ t.rget rFIO_FOUT = s.rget rFIO_FOUT ∧ ∀ k, k ≠ i → t.ce k = s.ce k

theorem State.entryActed_refl (s : State) (i : Nat) : s.entryActed s i := ⟨rfl, rfl, rfl, fun _ _ => rfl⟩

theorem State.entryActed_trans {s t u : State} {i : Nat} (h : u.entryActed t i) (h' : t.entryActed s i) : u.entryActed s i := by
  obtain ⟨hax, hout, hreg, hce⟩ := h
  obtain ⟨hax', hout', hreg', hce'⟩ := h'
  exact ⟨hax.trans hax', hout.trans hout', hreg.trans hreg', fun k hk => (hce k hk).trans (hce' k hk)⟩

theorem State.ce_of_posted {s t : State} {L : List Nat} (h : t.posted s L) (k : Nat) : t.ce k = s.ce k := by rw [h.1]; rfl

/-- Posting leaves the compare entries, and what they hold does not tell of it. -/
theorem State.posted_withCmp {s t : State} {L : List Nat} (h : t.posted s L) (C : Tbl CmpEnt) :
    ({ t with cmp := C } : State).posted { s with cmp := C } L := ⟨by rw [h.1], h.2.1, h.2.2⟩

theorem postReg_fout : postReg rFIO_FOUT = false := by decide

theorem State.entryActed_of_posted {s t : State} {L : List Nat} (h : t.posted s L) (hL : rFIO_FOUT ∉ L) (i : Nat) : t.entryActed s i :=
  ⟨by rw [h.1], by rw [h.1], h.2.1 _ postReg_fout hL, fun k _ => State.ce_of_posted h k⟩

section
variable (s : State) (i : Nat)

theorem State.fset_entryActed {o : Nat} (b : Bits) (x : Nat) (h : rFIO_FOUT ≠ o) : (s.fset o b x).entryActed s i :=
  ⟨rfl, rfl, s.rget_fset_ne b x h, fun _ _ => rfl⟩
theorem State.count_entryActed {o : Nat} (h : rFIO_FOUT ≠ o) : (s.count o).entryActed s i :=
  ⟨by rw [(s.count_wrote o).1], by rw [(s.count_wrote o).1], (s.count_wrote o).2 _ (by simpa using h),
    fun k _ => by rw [(s.count_wrote o).1]; rfl⟩
theorem State.setCe_entryActed (e : CmpEnt) : (s.setCe i e).entryActed s i := ⟨rfl, rfl, rfl, fun _ hk => s.ce_setCe_ne e hk⟩

theorem State.updGd_entryActed (k : Nat) (f : GonDev → GonDev) : (s.updGd k f).entryActed s i := ⟨rfl, rfl, rfl, fun _ _ => rfl⟩
theorem State.txQueue_entryActed (t : Nat) (f : Frame) : (s.txQueue t f).entryActed s i := ⟨rfl, rfl, rfl, fun _ _ => rfl⟩

theorem not_cqBase_cmp {o : Nat} (h : 0x700000 ≤ o) : ¬ cqBase o := by
  rintro ⟨q, hq, hb⟩
  simp only [rHIF_CQ_BASE_LO, rHIF_CQ_BASE_HI] at hb
  omega

/-- A report changes its counter, and what posting may change. -/
theorem State.cmpReport_posted (code : Nat) (t : FTime) (latT latCnt : Word) (pred : Bool) :
    (s.cmpReport i code t latT latCnt pred).posted s [rCMP_CNT (code - 1)] := by
  unfold State.cmpReport
  refine State.posted_trans (State.produce_posted _ _ _ (by rintro _ ⟨⟩; exact Nat.mod_lt _ (by decide)) _) ?_
  split
  · exact State.posted_of_wrote (s.count_wrote _) (by simpa using not_cqBase_cmp (by simp only [rCMP_CNT]; omega))
  · exact s.posted_refl _

theorem State.cmpReport_entryActed {code : Nat} (hcode : code < 8) (t : FTime) (latT latCnt : Word) (pred : Bool) :
    (s.cmpReport i code t latT latCnt pred).entryActed s i :=
  State.entryActed_of_posted (s.cmpReport_posted i code t latT latCnt pred)
    (by simp only [rFIO_FOUT, rCMP_CNT, List.mem_singleton]; omega) i

theorem State.cmpReport_ce (code : Nat) (t : FTime) (latT latCnt : Word) (pred : Bool) (k : Nat) :
    (s.cmpReport i code t latT latCnt pred).ce k = s.ce k := State.ce_of_posted (s.cmpReport_posted i code t latT latCnt pred) k

theorem State.cmpFree_entryActed (fired : Bool) : (s.cmpFree i fired).entryActed s i :=
  State.entryActed_trans (State.fset_entryActed _ i _ _ (by decide)) (s.setCe_entryActed i _)
theorem State.cmpFree_ce (fired : Bool) : (s.cmpFree i fired).ce i = { byFire := fired } := s.ce_setCe i _

/-- Sending the EVENT of an entry changes of the entry only whether its EVENT is sent or held (R292). -/
theorem State.cmpSend_acts : (s.cmpSend i).entryActed s i ∧ ∃ sent held, (s.cmpSend i).ce i = { s.ce i with evSent := sent, evHeld := held } := by
  unfold State.cmpSend
  dsimp only
  split
  · refine ⟨State.entryActed_trans (State.cmpReport_entryActed _ i (by decide) _ _ _ _) (s.setCe_entryActed i _), (s.ce i).evSent, false, ?_⟩
    rw [State.cmpReport_ce, State.ce_setCe]
  · split
    · exact ⟨s.setCe_entryActed i _, (s.ce i).evSent, true, s.ce_setCe i _⟩
    · refine ⟨State.entryActed_trans (State.txQueue_entryActed _ i _ _) (State.entryActed_trans (State.updGd_entryActed _ i _ _)
        (State.entryActed_trans (State.setCe_entryActed _ i _) ?_)), true, false, State.ce_setCe _ i _⟩
      split
      · exact State.entryActed_trans (State.count_entryActed _ i (by decide)) (s.fset_entryActed i _ _ (by decide))
      · exact s.entryActed_refl i

/-- An entry that fires is fired at its fire time, with its words, and as suspended as before (R288). -/
theorem State.cmpFire_fires (tf : FTime) (latT latCnt : Int) (pred late : Bool) :
    (s.cmpFire i tf latT latCnt pred late).entryActed s i ∧ ((s.cmpFire i tf latT latCnt pred late).ce i).st = .fired
      ∧ ((s.cmpFire i tf latT latCnt pred late).ce i).tf = tf ∧ ((s.cmpFire i tf latT latCnt pred late).ce i).raw = (s.ce i).raw
      ∧ ((s.cmpFire i tf latT latCnt pred late).ce i).susp = (s.ce i).susp := by
  obtain ⟨u, hu⟩ : ∃ u, u = s.setCe i { s.ce i with
    st := .fired, tf := tf, latT := latTime latT, latCnt := latCount latCnt, pred := pred, late := late, evSent := false, evHeld := false,
    done := false, opposed := false } := ⟨_, rfl⟩
  have hacted : u.entryActed s i := hu ▸ s.setCe_entryActed i _
  have hce : u.ce i = _ := hu ▸ s.ce_setCe i _
  have hfire : s.cmpFire i tf latT latCnt pred late = if (s.ce i).act = acEVENT then u.cmpSend i else u := by rw [hu]; rfl
  rw [hfire]
  split
  · obtain ⟨hsend, sent, held, hsent⟩ := u.cmpSend_acts i
    rw [hsent, hce]
    exact ⟨State.entryActed_trans hsend hacted, rfl, rfl, rfl, rfl⟩
  · rw [hce]
    exact ⟨hacted, rfl, rfl, rfl, rfl⟩

theorem State.cmpDiscard_entryActed : (s.cmpDiscard i).entryActed s i :=
  State.entryActed_trans (State.cmpFree_entryActed _ i _) (s.cmpReport_entryActed i (by decide) _ _ _ _)

/-! ### Insertion (R295, R296) -/

/-- The entry at `i` armed, and no longer suspended. -/
def State.cmpArmed : State := s.updCe i (fun e => { e with st := .armed, susp := false, opposed := false, stepped := false })

/-- An entry that is inserted is armed, and then stays so, is discarded, or fires at once. -/
theorem State.cmpInsert_cases : s.cmpInsert i = s.cmpArmed i ∨ s.cmpInsert i = (s.cmpArmed i).cmpDiscard i
    ∨ ∃ tf latT latCnt pred late, s.cmpInsert i = (s.cmpArmed i).cmpFire i tf latT latCnt pred late := by
  have hlate : ∀ {p q : Prop} [Decidable p] [Decidable q] (tf : FTime) (latT latCnt : Int) (pred late : Bool) (u : State),
      u = (if p then s.cmpArmed i else if q then (s.cmpArmed i).cmpDiscard i else (s.cmpArmed i).cmpFire i tf latT latCnt pred late) →
      u = s.cmpArmed i ∨ u = (s.cmpArmed i).cmpDiscard i
        ∨ ∃ tf latT latCnt pred late, u = (s.cmpArmed i).cmpFire i tf latT latCnt pred late := by
    intro p q _ _ tf latT latCnt pred late u hu
    split at hu
    · exact .inl hu
    · split at hu
      · exact .inr (.inl hu)
      · exact .inr (.inr ⟨_, _, _, _, _, hu⟩)
  unfold State.cmpInsert
  dsimp only
  split
  · exact hlate _ _ _ _ _ _ rfl
  · split
    · split
      · exact .inl rfl
      · exact hlate _ _ _ _ _ _ rfl
    · split
      · exact .inl rfl
      · split
        · split
          · exact .inr (.inl rfl)
          · exact .inr (.inr ⟨_, _, _, _, _, rfl⟩)
        · exact .inl rfl

theorem State.cmpInsert_acts : (s.cmpInsert i).entryActed s i ∧ ((s.cmpInsert i).ce i).susp = false := by
  have harmed : (s.cmpArmed i).entryActed s i := s.setCe_entryActed i _
  have hce : ((s.cmpArmed i).ce i).susp = false := by rw [State.cmpArmed, State.ce_updCe]
  obtain h | h | ⟨tf, latT, latCnt, pred, late, h⟩ := s.cmpInsert_cases i <;> rw [h]
  · exact ⟨harmed, hce⟩
  · refine ⟨State.entryActed_trans (State.cmpDiscard_entryActed _ i) harmed, ?_⟩
    rw [State.cmpDiscard, State.cmpFree_ce]
  · obtain ⟨hacted, -, -, -, hsusp⟩ := (s.cmpArmed i).cmpFire_fires i tf latT latCnt pred late
    exact ⟨State.entryActed_trans hacted harmed, hsusp.trans hce⟩

end

/-! ### Entries that fall due (R288) -/

/-- The greatest way to a gondola of a tether is told by the plan, by what the device knows of its gondolas and ports, and by the presence. -/
theorem State.dProp_of_wrote {s u : State} {L : List Nat} (h : u.wrote s L) (hpres : ∀ t g, u.present t g = s.present t g) (t : Nat) :
    u.dProp t = s.dProp t := by
  have hgd : ∀ k, u.gd k = s.gd k := fun k => by rw [h.1]; rfl
  simp only [State.dProp, State.propMax, State.propTo, State.propFrom, State.farCable, hpres, hgd, State.port_of_wrote h,
    State.ringEven_of_wrote h, State.gk_of_wrote h]

/-- A change of registers that do not tell the presence leaves the lead of an action (R292). -/
theorem State.nowLead_of_wrote {s u : State} {L : List Nat} (h : u.wrote s L) (hL : ∀ o ∈ L, notPres o ∧ ¬ cqBase o) (e : CmpEnt) :
    u.nowLead e = s.nowLead e := by
  have hposted := State.posted_of_wrote h fun o ho => (hL o ho).2
  have hpres : ∀ t g, u.present t g = s.present t g := State.present_of_presWords (State.presWords_of_posted hposted fun o ho => (hL o ho).1)
  have hclass : u.tetherClass e.tgtT = s.tetherClass e.tgtT := by rw [h.1]; rfl
  have hnow : u.now = s.now := by rw [h.1]; rfl
  simp only [State.nowLead, State.cmpLead, State.lead, State.leadPt, hclass, hnow, State.dProp_of_wrote h hpres]

theorem notPres_cmp {o : Nat} (h : 0x700000 ≤ o) : notPres o := by
  intro e he
  simp only [rTTH_PRES0, rTTH_PRES1]
  omega

/-- A TIME entry whose lead has begun fires at its time, or as soon as its lead allows. -/
theorem compareFire_time {s : State} {i : Fin 16384} (hst : (s.ce i).st = .armed) (hsusp : (s.ce i).susp = false) (hrun : s.time.halted = false)
    (htrig : (s.ce i).trig = trTIME)
    (hdue : reached s.now ((s.ce i).key - BitVec.ofNat 64 (s.cmpLead (s.ce i) + s.cycles16)) = true) :
    Completes (.compareFire i) s (fun t => (t.ce i).st = .fired ∧ (t.ce i).tf = laterOf (s.ce i).key (s.nowLead (s.ce i))
      ∧ (t.ce i).raw = (s.ce i).raw ∧ t.axes = s.axes ∧ t.fouts = s.fouts) := by
  obtain ⟨u, hu⟩ : ∃ u, u = if (s.cycles16 : Int) < tdiff s.now ((s.ce i).key - BitVec.ofNat 64 (s.cmpLead (s.ce i) + s.cycles16))
    then s.raise rCMP_STAT fCMP_STAT_OVERRUN else s := ⟨_, rfl⟩
  have hwrote : u.wrote s [rCMP_STAT] := by
    rw [hu]
    split
    · exact s.fset_wrote _ _ _
    · exact s.wrote_refl _
  have hce : u.ce i = s.ce i := by rw [hwrote.1]; rfl
  have hstat : ∀ o ∈ [rCMP_STAT], notPres o ∧ ¬ cqBase o := by
    simpa using And.intro (notPres_cmp (o := rCMP_STAT) (by decide)) (not_cqBase_cmp (o := rCMP_STAT) (by decide))
  have hexec : exec (.compareFire i) s = execCompareFire i s := rfl
  have hx : ∃ latT late, exec (.compareFire i) s = .next (u.cmpFire i (laterOf (s.ce i).key (s.nowLead (s.ce i))) latT 0 false late) := by
    rw [hexec, execCompareFire]
    dsimp only
    rw [if_neg (by simp [hst, hsusp, hrun]), if_pos htrig, if_pos hdue, ← hu, State.nowLead_of_wrote hwrote hstat]
    exact ⟨_, _, rfl⟩
  obtain ⟨latT, late, hx⟩ := hx
  obtain ⟨⟨hax, hout, -, -⟩, hfired, htf, hraw, -⟩ := u.cmpFire_fires i (laterOf (s.ce i).key (s.nowLead (s.ce i))) latT 0 false late
  exact ⟨_, hx, hfired, htf, hraw.trans (congrArg CmpEnt.raw hce), hax.trans (by rw [hwrote.1]), hout.trans (by rw [hwrote.1])⟩

/-- A window that opens over the position fires its entry. -/
theorem compareFire_window {s : State} {i : Fin 16384} (hst : (s.ce i).st = .armed) (hsusp : (s.ce i).susp = false) (hrun : s.time.halted = false)
    {x : FTime} {p : Val} (htrig : (s.ce i).trig = trWIN) (hpred : (s.ce i).predicts = false)
    (heval : s.evalPoint (s.ce i).axis (s.ce i).psrc = some (x, p)) (hopen : reached s.now (s.ce i).topen = true)
    (hfirst : reached x (s.ce i).topen = false)
    (hin : s.winDist (s.ce i) (p.toInt + s.predPath (s.ce i).axis (s.ce i).psrc x p.toInt (tdiff (s.ce i).topen x).toNat) = 0) :
    Completes (.compareFire i) s (fun t => (t.ce i).st = .fired ∧ (t.ce i).tf = laterOf (s.nowLead (s.ce i)) (s.ce i).topen) := by
  have hexec : exec (.compareFire i) s = execCompareFire i s := rfl
  have hx : ∃ latT, exec (.compareFire i) s = .next (s.cmpFire i (laterOf (s.nowLead (s.ce i)) (s.ce i).topen) latT 0 false false) := by
    rw [hexec, execCompareFire]
    dsimp only
    rw [if_neg (by simp [hst, hsusp, hrun]), if_neg (by rw [htrig]; decide), heval]
    dsimp only
    rw [if_neg (by simp [hpred]), if_pos ⟨htrig, hopen, by simp [hfirst], hin⟩]
    exact ⟨_, rfl⟩
  obtain ⟨latT, hx⟩ := hx
  obtain ⟨-, hfired, htf, -⟩ := s.cmpFire_fires i (laterOf (s.nowLead (s.ce i)) (s.ce i).topen) latT 0 false false
  exact ⟨_, hx, hfired, htf⟩

/-- A window whose duration is over expires: its entry is reported and free. -/
theorem winExpire_frees {s : State} {i : Fin 16384} (hst : (s.ce i).st = .armed) (htrig : (s.ce i).trig = trWIN) (hdur : (s.ce i).tdur ≠ 0)
    (hover : reached s.now ((s.ce i).topen + BitVec.ofNat 64 ((s.ce i).tdur * 100 * usUnits)) = true) :
    Completes (.winExpire i) s (fun t =>
      t.ce i = {} ∧ t.posted { s with cmp := t.cmp } [rCMP_CNT 2, rCMP_FREE] ∧ ∀ k ≠ i.val, t.ce k = s.ce k) := by
  have hreport := s.cmpReport_posted i rcEXPIRED s.now 0 0 false
  obtain ⟨u, hu⟩ : ∃ u, u = s.cmpReport i rcEXPIRED s.now 0 0 false := ⟨_, rfl⟩
  have hx : exec (.winExpire i) s = .next (u.cmpFree i false) := by
    rw [hu]
    exact if_pos ⟨hst, htrig, hdur, hover⟩
  rw [← hu] at hreport
  have hset : (u.setCe i {}).posted { s with cmp := (u.setCe i {}).cmp } [rCMP_CNT 2, rCMP_FREE] :=
    State.posted_mono (State.posted_withCmp hreport (u.setCe i {}).cmp) (by simp [rcEXPIRED])
  have hfree := State.fset_posted (u.setCe i {}) fCMP_FREE_FREE (u.fget rCMP_FREE fCMP_FREE_FREE + 1) (L := [rCMP_CNT 2, rCMP_FREE])
    (o := rCMP_FREE) (.inr (by simp)) (not_cqBase_cmp (by decide))
  obtain ⟨-, -, -, hothers⟩ := u.cmpFree_entryActed i false
  exact ⟨_, hx, u.cmpFree_ce i false, State.posted_trans hfree hset, fun k hk => (hothers k hk).trans (State.ce_of_posted hreport k)⟩

/-! ### Outputs (R491) -/

/-- A bit reads as it was written. -/
theorem State.flag_bitSet (s : State) (o : Nat) {k : Nat} (hk : k < 32) (b : Bool) : (s.bitSet o k b).flag o ⟨k, 1⟩ = b := by
  rw [State.flag, State.bitSet, State.fsetb, State.fget_fset _ _ _ _ (by dsimp only; omega)]
  cases b <;> rfl

/-- Switching an output leaves the commanded states and the compare entries. -/
theorem State.foutTake_keeps (s : State) (k : Nat) : (s.foutTake k).rget rFIO_FOUT = s.rget rFIO_FOUT ∧ (s.foutTake k).cmp = s.cmp := by
  have hst : rFIO_FOUT ≠ rFIO_FOUT_STAT k := by simp only [rFIO_FOUT, rFIO_FOUT_STAT]; omega
  unfold State.foutTake
  dsimp only
  split
  · exact ⟨(State.rget_fset_ne _ _ _ hst).trans (State.rget_fset_ne _ _ _ (by decide)), rfl⟩
  · exact ⟨(State.rget_fset_ne _ _ _ hst).trans (State.rget_fset_ne _ _ _ (by decide)), rfl⟩

theorem State.foutClear_cmp (s : State) (k : Nat) : (s.foutClear k).cmp = s.cmp := by
  unfold State.foutClear
  split
  · split
    · exact (State.foutTake_keeps _ k).2
    · rfl
  · rfl

theorem State.foutClear_idle {s : State} {k : Nat} (h : (s.fout k).pulse = none) : s.foutClear k = s := by
  rw [State.foutClear, h]

theorem State.foutAct_cmp (s : State) (k op pw : Nat) : (s.foutAct k op pw).cmp = s.cmp :=
  (State.foutTake_keeps _ k).2.trans (s.foutClear_cmp k)

theorem State.foutCmd_congr {s t : State} (h : t.rget rFIO_FOUT = s.rget rFIO_FOUT) (k : Nat) : t.foutCmd k = s.foutCmd k := by
  rw [State.foutCmd, State.flag, State.fget, h]
  rfl

/-- The commanded state that an action gives its output. -/
theorem State.foutAct_cmd (s : State) {k : Nat} (hk : k < 32) (op pw : Nat) :
    (s.foutAct k op pw).foutCmd k = if op = 0 then false else if op = 2 then !(s.foutClear k).foutCmd k else true :=
  (State.foutCmd_congr (State.foutTake_keeps _ k).1 k).trans (State.flag_bitSet _ _ hk _)

/-! ### The actions of an entry (R290, R293, R300) -/

/-- The action of a fired entry that is not an EVENT: on its output, or a capture of its latch unit. -/
def State.cmpStrike (s : State) (e : CmpEnt) : State :=
  if e.act = acFOUT then s.foutAct e.out e.op e.pw
  else if e.act = acLATCH ∧ s.latHit e.taxis (e.out % 2) 0x36 true then s.capture e.taxis (e.out % 2) 0x36 true e.tf
  else s

/-- The report of a fired entry. -/
def State.cmpTell (s : State) (i : Nat) (e : CmpEnt) : State :=
  if e.late then s.cmpReport i rcLATE e.tf e.latT e.latCnt e.pred
  else if e.report then s.cmpReport i rcFIRED e.tf e.latT e.latCnt e.pred else s

/-- The arming of the entry that a fired one chains to. -/
def State.cmpChain (s : State) (e : CmpEnt) : State :=
  if e.chain then (if (s.ce e.chidx).st = .held then s.cmpInsert e.chidx else s.raise rCMP_STAT fCMP_STAT_CHERR) else s

/-- The state once every action of a fired entry but its EVENT is done. -/
def State.cmpActs (s : State) (i : Nat) : State :=
  if (s.ce i).done then s
  else (((s.cmpStrike (s.ce i)).cmpTell i (s.ce i)).updCe i (fun e => { e with done := true })).cmpChain (s.ce i)

section
variable {s : State} {i : Nat}

theorem State.cmpStrike_cmp (s : State) (e : CmpEnt) : (s.cmpStrike e).cmp = s.cmp := by
  unfold State.cmpStrike
  split
  · exact s.foutAct_cmp _ _ _
  · split
    · have hposted := (s.capture_posted (n := e.taxis) (Nat.mod_lt _ (by decide)) (e.out % 2) 0x36 true e.tf).1
      rw [hposted.1]
    · rfl

theorem State.cmpStrike_fouts {e : CmpEnt} (h : e.act ≠ acFOUT) : (s.cmpStrike e).fouts = s.fouts := by
  rw [State.cmpStrike, if_neg h]
  split
  · have hposted := (s.capture_posted (n := e.taxis) (Nat.mod_lt _ (by decide)) (e.out % 2) 0x36 true e.tf).1
    rw [hposted.1]
  · rfl

theorem State.cmpTell_entryActed (s : State) (i : Nat) (e : CmpEnt) : (s.cmpTell i e).entryActed s i := by
  unfold State.cmpTell
  split
  · exact s.cmpReport_entryActed i (by decide) _ _ _ _
  · split
    · exact s.cmpReport_entryActed i (by decide) _ _ _ _
    · exact s.entryActed_refl i

theorem State.cmpTell_ce (s : State) (i : Nat) (e : CmpEnt) (k : Nat) : (s.cmpTell i e).ce k = s.ce k := by
  unfold State.cmpTell
  split
  · exact s.cmpReport_ce i _ _ _ _ _ k
  · split
    · exact s.cmpReport_ce i _ _ _ _ _ k
    · rfl

/-- Chaining leaves an entry that is not held, and the outputs. -/
theorem State.cmpChain_keeps (e : CmpEnt) (hst : (s.ce i).st = .fired) :
    (s.cmpChain e).fouts = s.fouts ∧ (s.cmpChain e).rget rFIO_FOUT = s.rget rFIO_FOUT ∧ (s.cmpChain e).ce i = s.ce i := by
  unfold State.cmpChain
  split
  · split
    · next hheld =>
      obtain ⟨⟨-, hout, hreg, hce⟩, -⟩ := s.cmpInsert_acts e.chidx
      have hne : i ≠ e.chidx := fun h => by rw [← h, hst] at hheld; cases hheld
      exact ⟨hout, hreg, hce i hne⟩
    · exact ⟨rfl, s.rget_fset_ne _ _ (by decide), rfl⟩
  · exact ⟨rfl, rfl, rfl⟩

/-- The actions of a fired entry leave it fired as it was, and of the outputs they do what its action does. -/
theorem State.cmpActs_shows (hst : (s.ce i).st = .fired) : (∃ d, (s.cmpActs i).ce i = { s.ce i with done := d })
    ∧ ((s.ce i).act ≠ acFOUT → (s.cmpActs i).fouts = s.fouts)
    ∧ ((s.ce i).act = acFOUT → (s.ce i).done = false →
      (s.cmpActs i).rget rFIO_FOUT = (s.foutAct (s.ce i).out (s.ce i).op (s.ce i).pw).rget rFIO_FOUT) := by
  obtain ⟨u, hu⟩ : ∃ u, u = ((s.cmpStrike (s.ce i)).cmpTell i (s.ce i)).updCe i (fun e => { e with done := true }) := ⟨_, rfl⟩
  have hacts : s.cmpActs i = if (s.ce i).done then s else u.cmpChain (s.ce i) := by rw [hu]; rfl
  have hstruck : (s.cmpStrike (s.ce i)).ce i = s.ce i := by rw [State.ce, State.cmpStrike_cmp]; rfl
  have huce : u.ce i = { s.ce i with done := true } := by rw [hu, State.ce_updCe, State.cmpTell_ce, hstruck]
  obtain ⟨-, hout, hreg, -⟩ : u.entryActed (s.cmpStrike (s.ce i)) i :=
    hu ▸ State.entryActed_trans (State.setCe_entryActed _ i _) (State.cmpTell_entryActed _ i _)
  obtain ⟨hout', hreg', hce'⟩ := State.cmpChain_keeps (s := u) (i := i) (s.ce i) (by rw [huce]; exact hst)
  rw [hacts]
  cases hdone : (s.ce i).done with
  | true => exact ⟨⟨true, by rw [if_pos rfl, ← hdone]⟩, fun _ => rfl, fun _ h => absurd h (by decide)⟩
  | false =>
    refine ⟨⟨true, hce'.trans huce⟩, fun h => (hout'.trans hout).trans (State.cmpStrike_fouts h), fun h _ => ?_⟩
    have hstrike : s.cmpStrike (s.ce i) = s.foutAct (s.ce i).out (s.ce i).op (s.ce i).pw := if_pos h
    exact (hreg'.trans hreg).trans (congrArg (fun v : State => v.rget rFIO_FOUT) hstrike)

end

/-- A fired entry whose fire time is reached, and that has no EVENT held, does its actions and is freed unless it is to be re-armed. -/
theorem compareAction_frees {s : State} {i : Fin 16384} (hst : (s.ce i).st = .fired) (hdue : reached s.now (s.ce i).tf = true)
    (hheld : (s.ce i).evHeld = false) (hrearm : (s.ce i).rearm = false) :
    exec (.compareAction i) s = .next ((s.cmpActs i).cmpFree i true) := by
  obtain ⟨⟨d, hce⟩, -⟩ := State.cmpActs_shows hst
  have hx : execCompareAction i s = .next (if ((s.cmpActs i).ce i).evHeld then s.cmpActs i else (s.cmpActs i).cmpDone i) := by
    have hsend : (if (s.ce i).evHeld then s.cmpSend i else s) = s := if_neg (by simp [hheld])
    rw [execCompareAction]
    dsimp only
    rw [hsend, if_neg (c := (s.ce i).st ≠ .fired ∨ _) (by simp [hst, hdue])]
    rfl
  have hrearm' : ((s.cmpActs i).ce i).rearm = false := by rw [hce]; exact hrearm
  have hexec : exec (.compareAction i) s = execCompareAction i s := rfl
  rw [hexec, hx, if_neg (by rw [hce]; simp [hheld]), State.cmpDone, if_neg (by simp [hrearm'])]

theorem CmpEnt.out_lt (e : CmpEnt) : e.out < 16 := Nat.mod_lt _ (by decide)

/-- The commanded states that each operation on an output leaves. -/
theorem compareAction_completes {s : State} {i : Fin 16384} (hst : (s.ce i).st = .fired) (hdue : reached s.now (s.ce i).tf = true)
    (hheld : (s.ce i).evHeld = false) (hrearm : (s.ce i).rearm = false) :
    Completes (.compareAction i) s (fun t => t.ce i = { byFire := true }
      ∧ ((s.ce i).act = acFOUT → (s.ce i).done = false →
          ((s.ce i).op = 0 → t.foutCmd (s.ce i).out = false) ∧ ((s.ce i).op = 1 ∨ (s.ce i).op = 3 → t.foutCmd (s.ce i).out = true)
          ∧ ((s.ce i).op = 2 → (s.fout (s.ce i).out).pulse = none → t.foutCmd (s.ce i).out = !s.foutCmd (s.ce i).out))
      ∧ ((s.ce i).act ≠ acFOUT → t.fouts = s.fouts)) := by
  obtain ⟨-, hout, hreg⟩ := State.cmpActs_shows hst
  obtain ⟨-, hout', hreg', -⟩ := (s.cmpActs i).cmpFree_entryActed i true
  refine ⟨_, compareAction_frees hst hdue hheld hrearm, State.cmpFree_ce _ i true, fun hact hdone => ?_, fun h => hout'.trans (hout h)⟩
  have hcmd := (State.foutCmd_congr (hreg'.trans (hreg hact hdone)) (s.ce i).out).trans
    (s.foutAct_cmd (Nat.lt_trans (s.ce i).out_lt (by decide)) (s.ce i).op (s.ce i).pw)
  rw [hcmd]
  refine ⟨fun h => if_pos h, fun h => ?_, fun h hidle => ?_⟩
  · rw [if_neg (by omega), if_neg (by omega)]
  · rw [if_neg (by omega), if_pos h, State.foutClear_idle hidle]

/-! ### Row groups (R285, R296) -/

theorem regRow_cmpRg (g : Fin 64) : ∃ q, regRow (rCMP_RG g) = some q := by
  have hblock : rCMP_RG g / 0x100000 = 7 := by simp only [rCMP_RG]; omega
  refine exists_regRow (r := ⟨0x700200, [(64, 0x4)], 0x0, 0x4, 0x0, 0x8, 0x3, 0x0, 0x0, .cmp⟩) ?_ ?_ ?_
  · rw [hblock]
    decide
  · simp only [rCMP_RG]
    omega
  · simp [rCMP_RG, dimsHit]

/-- A suspended entry of a row group that is resumed. -/
def State.cmpWake (s : State) (i : Nat) : State :=
  if !(s.ce i).susp then s
  else if (s.ce i).st = .disarmed then s.updCe i (fun e => { e with susp := false })
  else s.cmpInsert i

theorem State.cmpWake_wakes (s : State) (i : Nat) : ((s.cmpWake i).ce i).susp = false ∧ ∀ k, k ≠ i → (s.cmpWake i).ce k = s.ce k := by
  unfold State.cmpWake
  split
  · next h => exact ⟨by simpa using h, fun _ _ => rfl⟩
  · split
    · exact ⟨by rw [State.ce_updCe], fun _ hk => s.ce_setCe_ne _ hk⟩
    · obtain ⟨⟨-, -, -, hce⟩, hsusp⟩ := s.cmpInsert_acts i
      exact ⟨hsusp, hce⟩

/-- Once a list of entries is woken, none of them is suspended, and no other that was not. -/
theorem State.foldl_cmpWake (l : List Nat) (s : State) {k : Nat} (h : k ∈ l ∨ (s.ce k).susp = false) :
    ((l.foldl State.cmpWake s).ce k).susp = false := by
  induction l generalizing s with
  | nil => exact h.resolve_left List.not_mem_nil
  | cons i l ih =>
    obtain ⟨hwoken, hothers⟩ := s.cmpWake_wakes i
    rw [List.foldl_cons]
    by_cases hk : k = i
    · exact ih _ (.inr (hk ▸ hwoken))
    · refine ih _ (h.imp (fun hmem => (List.mem_cons.1 hmem).resolve_left hk) fun hs => ?_)
      rw [hothers k hk]
      exact hs

theorem State.cmpResume_eq (s : State) (g : Nat) : s.cmpResume g = ((s.cmpGroup g).foldl State.cmpWake s).fset (rCMP_RG g) fCMP_RG_SUSP 0 := rfl

/-- A row group that is resumed shows no suspension, and none of its entries is suspended. -/
theorem State.cmpResume_wakes (s : State) (g : Nat) :
    (s.cmpResume g).flag (rCMP_RG g) fCMP_RG_SUSP = false ∧ ∀ k ∈ s.cmpGroup g, ((s.cmpResume g).ce k).susp = false := by
  rw [State.cmpResume_eq]
  refine ⟨?_, fun k hk => State.foldl_cmpWake (s.cmpGroup g) s (.inl hk)⟩
  rw [State.flag, State.fget_fset _ _ _ _ (by decide)]
  rfl

/-- The entries of a row group are told by the table and the plan. -/
theorem State.cmpGroup_of_wrote {s u : State} {L : List Nat} (h : u.wrote s L) (g : Nat) : u.cmpGroup g = s.cmpGroup g := by rw [h.1]; rfl

theorem cmpRgResume_completes {s : State} {via : RegPath} {g : Fin 64} {v : Word} (hd : s.p8Denied via (rCMP_RG g) = false)
    (hv : bget v fCMP_RG_RESUME = 1) : Completes (.cmpRgResume via g v) s (fun t =>
      t.flag (rCMP_RG g) fCMP_RG_SUSP = false ∧ ∀ k ∈ s.cmpGroup g, (t.ce k).susp = false) := by
  obtain ⟨u, hu, hwrite⟩ := s.portWrite_allowed v (fun _ => cmpRgWritten g v) hd (regRow_cmpRg g)
  have hresume : cmpRgWritten g v u = u.cmpResume g := if_pos hv
  refine ⟨_, congrArg Host.Outcome.next (hwrite.trans hresume), ?_⟩
  rw [← State.cmpGroup_of_wrote hu]
  exact u.cmpResume_wakes g

end Sys2Proof.Machine

/-- Settles O33: entries that fall due fire, windows that are over expire, a fired entry acts and is freed, and a row group is woken. -/
theorem compareRows : Obligations.CompareRows := by
  unfold Obligations.CompareRows
  intro s i
  refine ⟨fun hst hsusp hrun => ⟨fun htrig hdue => compareFire_time hst hsusp hrun htrig hdue, fun x p htrig hpred heval hopen hfirst hin => ?_⟩,
    fun hst htrig hdur hover => winExpire_frees hst htrig hdur hover,
    fun hst hdue hheld hrearm => compareAction_completes hst hdue hheld hrearm, fun via g v hd hv => cmpRgResume_completes hd hv⟩
  exact compareFire_window hst hsusp hrun htrig hpred heval hopen hfirst hin
end
